-- ==== Sys2Proof/Word.lean ====
section
/-! DEFINITION. The word types of the SKV8064: what the manual writes as bits. -/

namespace Sys2Proof

/-- A byte of memory (00 R6). -/
abbrev Byte := BitVec 8

/-- A register, and one access of the service address space (00, 24 R648). -/
abbrev Word := BitVec 32

/-- A word of a memory bank, of a flit or of a table (00 R7). -/
abbrev Line := BitVec 128

end Sys2Proof
end

