-- ==== Sys2Proof/OperandTypes.lean ====
section
/-! DEFINITION. The types of the commands' operands. -/

namespace Sys2Proof

/-- Who makes an access of the service address space (24 R650, R653). -/
inductive Accessor where
  | device | service | mgmt | testPort | firmware
deriving DecidableEq, Repr

/-- One of the three inputs of an encoder port (03). -/
inductive EncInput where
  | a | b | z
deriving DecidableEq, Repr

/-- What an encoder port's filter passes on: new accepted levels of A and B, or a pulse it discards (03 R76). -/
inductive EncEdge where
  | levels (a b : Bool)
  | glitch
deriving DecidableEq, Repr

/-- What the index filter passes on (03 R76, R79). -/
inductive IndexEdge where
  | rise | fall | glitch
deriving DecidableEq, Repr

/-- What the ports of a region give its fabric, and take from it, at one edge (05 R156 to R163). The spec does not say
which wire of a site block carries which port signal (log entry 12), so the levels come with the edge. -/
structure FabricPins where
  /-- the spines that have an edge at this instant: bit 0 the region fabric clock (R154) -/
  spines : BitVec 32 := 1
  /-- vertical down wires that ports drive in place of T2 outputs, as (block × 64 + wire, level) -/
  down : List (Nat × Bool) := []
  /-- engine stream ports from which the fabric takes a word -/
  popStreams : List (Fin 24) := []
  /-- engine stream ports to which the fabric gives a word: (port, 48 bits, poison) -/
  pushStreams : List (Fin 24 × BitVec 48 × Bool) := []
  /-- words accepted at a network stream port without LAST: (port, DEST, word) -/
  netWords : List (Fin 8 × Fin 64 × Line) := []
  /-- network stream ports from which the fabric takes a word -/
  netPops : List (Fin 8) := []
deriving DecidableEq, Repr

/-- Whose request a bank carries out (07 R190). -/
inductive BankReq where
  /-- bank port b's request: RQ_ADDR, RQ_MASK, RQ_WD -/
  | fabric (word : Fin 16384) (mask : BitVec 16) (data : Line)
  /-- the oldest unserved window request of an engine -/
  | engine (e : Fin 25)
  /-- the oldest request of the steal queue (R197) -/
  | steal
deriving DecidableEq, Repr

/-- What a requester gives its source NI for a request (12 R356, R363). -/
structure ReqArgs where
  src : Fin 80
  dst : Fin 128
  addr : BitVec 48 := 0
  be : BitVec 16 := 0xFFFF
  key : Fin 64 := 0
  /-- TOKTGT -/
  toktgt : Fin 131072 := 0
  stamp : BitVec 56 := 0
  /-- payload words; those that are not given are 0 -/
  data : List Line := []
  /-- poison of payload word w at bit w -/
  psn : BitVec 16 := 0
deriving DecidableEq, Repr

/-- What the checks of an access of external memory find in a line (16 R480). -/
inductive XmWhat where
  | clean
  /-- that many words corrected -/
  | corrected (words : Fin 5)
  /-- data words that are uncorrectable, word w at bit w -/
  | dataUe (mask : Fin 16)
  /-- a metadata word is uncorrectable -/
  | metaUe
  /-- the counter line (level 0) or the tree node of a level fails verification -/
  | tree (level : Fin 8)
  | tag
deriving DecidableEq, Repr

/-- What an access finds, and in which of its lines; the others are clean. -/
structure XmFind where
  line : Fin 64 := 0
  what : XmWhat := .clean
deriving DecidableEq, Repr

/-- A network request command: a source NI issues it, or a target NI takes the oldest one it holds (12); an LPDDR5X
interface with what its access of the memory finds. -/
inductive NetCmd where
  | issue (a : ReqArgs)
  | serve (ni : Fin 80) (find : XmFind := {})
deriving DecidableEq, Repr

/-- What the receiving end of a link finds in a packet (12 R368). -/
inductive LinkEvent where
  | clean
  /-- a word corrected on a wire of a group -/
  | corrected (group : Fin 27) (wire : Fin 32)
  /-- uncorrectable: that many replays until the flit arrives; four that fail make the link dead -/
  | replays (k : Fin 5)
deriving DecidableEq, Repr

/-- What happens at a lane's elastic buffer (15 R454): an entry arrives from the line, at the recovered clock, or one
leaves it at the quad's clock. -/
inductive LaneRx where
  /-- the lane word as R450 lays it out; a filler of R448; an invalid block, code error or PRBS error -/
  | line (w : Line) (filler bad : Bool)
  | clock
deriving DecidableEq, Repr

/-- An engine: one of a region's 25, or the supervisor pair (08 R246). -/
inductive EngId where
  | rgn (n : Fin 64) (e : Fin 25)
  | sup
deriving DecidableEq, Repr

/-- A parallel move field: KIND, REG, MODE, PTR as R259 lays them out (09). -/
structure Move where
  kind : Fin 8 := 0
  reg : Fin 8 := 0
  mode : Fin 8 := 0
  ptr : Fin 8 := 0
deriving DecidableEq, Repr

/-- The fields of the parallel format beside OP (09 R252). COUNT takes the bits of SC and SD. -/
structure Par where
  s : Bool := false
  rnd : Bool := false
  d : Bool := false
  sa : Fin 8 := 0
  sb : Fin 8 := 0
  sc : Fin 8 := 0
  sd : Fin 8 := 0
  dm : Move := {}
  km : Move := {}
deriving DecidableEq, Repr

/-- COUNT of ASL and ASR: the bits of SC and SD together (09 R252). -/
def Par.count (p : Par) : Nat := p.sc.val * 8 + p.sd.val

/-- The fields of MOVM (09 R267). -/
structure MovmArgs where
  reg : Fin 64
  store : Bool
  k : Bool
  ptr : Fin 8
  mode : Fin 8
  abs : Bool
  rnd : Bool
  s : Bool
  addr : Fin 16384
deriving DecidableEq, Repr

/-- The fields of WLD, WST and WATM (09 R277). -/
structure WinArgs where
  bank : Fin 64
  ptr : Fin 8
  mode : Fin 8
  form : Fin 8
  lane : Fin 4
  reg : Fin 8
  rnd : Bool := false
  s : Bool := false
deriving DecidableEq, Repr

/-- Both sensors of a temperature site as they are read, in 0.125 °C (20 R583). -/
structure SiteRead where
  site : Fin 208
  a : Int
  b : Int
deriving DecidableEq, Repr

/-- What a visit of the steep finds in a configuration row (18 R526): words corrected, or the frame uncorrectable;
`crcOnly`: every word passes and the CRC fails. -/
inductive SteepFind where
  | clean
  | corrected (cells : Fin 33)
  | uncorrectable (crcOnly : Bool)
deriving DecidableEq, Repr

/-- The end of a test of a unit taken aside (21 R594, R595, R602). `bond`: the failing element is a link of that bond
group. `cols`: the failing columns of a region BIST. -/
structure TestEnd where
  unit : BitVec 24
  pass : Bool
  step : Byte := 0
  detail : Word := 0
  bond : Option (Fin 5) := none
  cols : List (Fin 49) := []
deriving DecidableEq, Repr

/-- An analogue check in service (21 R601): a sensor; FIO0, FIO1, SIO; a PLL of sources 8 to 15; a comparator of the
monitor of a rail, or of VIN (137); a regulator phase. -/
inductive CheckWhat where
  | sensor (x : Fin 416)
  | osc (k : Fin 3)
  | pll (i : Fin 8)
  | monitor (m : Fin 138) (comp : Fin 2)
  | phase (rail : Fin 137) (p : Fin 16)
deriving DecidableEq, Repr

/-- The end of an analogue check: the measured value and the limit crossed of R602. -/
structure CheckEnd where
  what : CheckWhat
  pass : Bool
  value : BitVec 16 := 0
  limit : BitVec 16 := 0
deriving DecidableEq, Repr

/-- The payload of a reel (14 R421). -/
structure ReelPay where
  time : BitVec 64
  era : BitVec 16
  mnode : Fin 64
  cold : Bool := false
  rev : Bool := false
  still : Bool := false
  delay : Word := 0
  vel : Word := 0
  pos : BitVec 80 := 0
deriving DecidableEq, Repr

/-- The link word of a REEL or FILL frame (14 R417), in stamp units. -/
structure LinkWord where
  tx : BitVec 48
  echo : BitVec 48
  turn : Word
deriving DecidableEq, Repr

/-- A DATA or MGMT frame of Kraerlink (14 R414, R415, R437, R439): the header without what the row says, the nonce, and
the payload: packet words, words of 32 bits, or the list of TOPO. -/
structure KFrame where
  dst : Fin 64 := 0
  org : Fin 64 := 0
  ttl : BitVec 7 := 127
  ring : Bool := false
  wrap : Bool := false
  enc : Bool := false
  key : Fin 64 := 0
  status : Fin 16 := 0
  seq : BitVec 16 := 0
  stream : Byte := 0
  alive : Byte := 0
  mark : Bool := false
  psn : BitVec 16 := 0
  stamp : BitVec 56 := 0
  start : BitVec 24 := 0
  ctr : BitVec 40 := 0
  data : List Line := []
  words : List Word := []
  items : List Byte := []
deriving DecidableEq, Repr

/-- A reel as it arrives at a port (0 east, 1 west): whether its CRC passes, how long ago it reached the land in stamp
units, and the residence the device measures if it forwards it. -/
structure ReelArgs where
  port : Fin 2
  lane : Fin 2 := 0
  crcOk : Bool := true
  link : LinkWord
  age : Byte := 0
  ttl : BitVec 7 := 127
  residence : Word := 0
  reel : ReelPay
deriving DecidableEq, Repr

/-- A journal sector as it is read from flash: its 64 B header and its records (17 R517). -/
structure FlashSector where
  header : BitVec 512
  recs : List Line := []
deriving DecidableEq, Repr

/-- A stored item of an image as it arrives from flash (17 R499 to R504). `plain`: what the decryption of an encrypted item
gives, none where its tag fails. -/
inductive ImageItem where
  /-- a group at a position of the frame index, with that position's index entry -/
  | group (pos : Fin 36864) (index : Line) (stored : List Byte) (plain : Option (List Byte) := none)
  /-- a section; `wraps`: for each slot of KEYWRAP, its wrap unwraps -/
  | sect (num : Fin 12) (stored : List Byte) (plain : Option (List Byte) := none) (wraps : List Bool := [])
deriving DecidableEq, Repr

/-- A DATA or MGMT frame as it arrives at a port: whether its CRC passes, and its GCM tag where it has one. -/
structure FrameArgs where
  port : Fin 2
  lane : Fin 2 := 1
  crcOk : Bool := true
  tagOk : Bool := true
  f : KFrame
deriving DecidableEq, Repr

end Sys2Proof
end

