-- ==== Sys2Proof/Syntax.lean ====
section
/-! DEFINITION. The commands of the SKV8064: one constructor for each row of the table of operations and events, with
the operands this model gives the row (the table itself gives none; log entry 5). -/

namespace Sys2Proof

/-- The commands. Each constructor's docstring names the rule of its row. -/
inductive Instr where
  /-- R42: VIN rises above 8.8 V and the chip moves from OFF to POR. -/
  | vinLockoutRise
  /-- R43: VIN falls below 8.4 V; outputs go high-Z at once, accounting ends and the chip enters OFF. -/
  | vinLockoutFall
  /-- R43: PORST_N goes low; the chip goes to POR and every output goes high-Z at once. -/
  | porstNLow
  /-- R42: With PORST_N high, all stack rails in regulation and FIO ready, the chip enters LOAD. -/
  | porToLoad
  /-- R506: On entry to LOAD the loader logs the discarded READY mailbox slots and pulses XSPI_RST_N. -/
  | loadEntry
  /-- R497: Both boot-record copies have been read; one is chosen or the defaults are used, and the entries are sent. -/
  | bootRecordRead (a b : BitVec 1024)
  /-- R507: The image header of the attempt has been read and is checked. -/
  | imageHeaderRead (h : BitVec 2048) (unwrap : Bool)
  /-- R519: The journal sectors have been read; the fuses and then the valid records are applied. -/
  | journalRead (a b : FlashSector)
  /-- R506: Regions in REGMASK are in LOADING with banks and engine memories zeroed, and image streaming starts. -/
  | loadZeroingDone
  /-- R506: A group or item of the image arrives from flash and is checked, decoded and written to its unit. -/
  | imageItem (it : ImageItem)
  /-- R506: The last image byte has been read; IMGCRC and the signature are checked, and the chip enters START. -/
  | imageLastByte (crcOk sigOk : Bool)
  /-- R495: No DQS edge arrives within 1 µs, or the flash stays busy for more than 2 s. -/
  | flashFailure
  /-- R509: 100 ms after attempt 1 fails, attempt 2 retries the primary image. -/
  | primaryRetry
  /-- R465: An LPDDR5X channel completes or fails training. -/
  | channelTrainingDone (c : Fin 8) (ok : Bool)
  /-- R511: Once training and tree build are done, the placement START pass runs, XMC enters its mode and the engines are released. -/
  | enginesReleased
  /-- R49: The CHIP_STATE record is written, and the chip enters HALT if a latched cause requires it or acts on a held RELOAD. -/
  | safeEntryComplete
  /-- R667: A write of SYS_STATE.RELOAD takes the chip from SAFE to LOAD, is held, dropped or ignored by state. -/
  | reload (acc : Accessor) (v : Word)
  /-- R47: VIN stays below 8.7 V for 10 µs, and the chip enters SAFE with cause VIN_LOW. -/
  | vinLow
  /-- R47: VIN rises above 62 V, and the chip enters SAFE and then HALT. -/
  | vinHigh
  /-- R47: SAFE_N stays low for 1 µs, and the chip enters SAFE with cause SAFE_N. -/
  | safeNLow
  /-- R47: An uncorrectable error in base-tier state loaded from the image that cannot be re-fetched puts the chip in SAFE with cause CONFIG. -/
  | baseStateUe
  /-- R246: The supervisor pair disagrees; both engines stop and the chip enters SAFE with cause SUP_LOCK. -/
  | lockstepMismatch (where_ : Fin 4)
  /-- R589: In a TEMP HALT with auto-restart enabled, the hottest site stays below 80 °C for 1 s and the chip returns to POR unless the hourly limit is reached. -/
  | autoRestart
  /-- R589: In HALT the housekeeping domain reads sites 192 to 195 every 10 ms. -/
  | haltSensorRead (l : List SiteRead)
  /-- R61: A write to SYS_WDKICK restarts the chip watchdog if it comes from firmware with the key, and otherwise counts as BADKICK. -/
  | sysWdkick (acc : Accessor) (v : Word)
  /-- R61: The chip watchdog count reaches half its period and pends the supervisor WDWARN source. -/
  | wdwarn
  /-- R61: The chip watchdog count reaches PERIOD, and the chip enters SAFE with cause WATCHDOG. -/
  | chipWatchdogExpire
  /-- R62: A write to RGN_WDKICK restarts the region watchdog if it comes from firmware with the key, and otherwise counts as BADKICK. -/
  | rgnWdkick (acc : Accessor) (n : Fin 64) (v : Word)
  /-- R62: The fabric strobes WDK on the context request port's site block, and the region watchdog restarts. -/
  | wdk (n : Fin 64)
  /-- R62: The region watchdog reaches PERIOD; the region is fenced with cause RWATCHDOG and restarts once its work is closed. -/
  | regionWatchdogExpire (n : Fin 64)
  /-- R529: After its rewrites the region restarts: flip-flops are re-initialised, the context is selected and the restart counts towards the limit. -/
  | regionRestart (n : Fin 64)
  /-- R58: A write of SYS_LOG_RD.TAIL marks records read, judged forward from TAIL. -/
  | logTailWrite (acc : Accessor) (v : Word)
  /-- R665: A GO write of SYS_LOG_WCMD writes a firmware record, or sets REFUSED for a CODE out of range. -/
  | logWcmd (acc : Accessor) (v : Word)
  /-- R58: At the end of a millisecond with records given up, a LOG_LOST record counts them. -/
  | logLost
  /-- R664: A rate-limited record code's millisecond ends with occurrences held, and one record carrying their count is written. -/
  | rateLimitFlush (code : BitVec 16) (scope : BitVec 24)
  /-- R10: A write to a register that has no behaviour of its own applies the access codes field by field. -/
  | registerWrite (acc : Accessor) (a : Word) (v : Word)
  /-- R71: An accepted A or B edge on an encoder port changes the port count under its mode and drives the position if the port is the source. -/
  | encoderEdge (k : Fin 4) (e : EncEdge)
  /-- R79: An accepted Z edge latches the port count and, in check mode, compares the counts per revolution. -/
  | indexEdge (k : Fin 4) (e : IndexEdge)
  /-- R81: An encoder input stays below the fault threshold for 1 µs; a source port holds the position or switches to its backup. -/
  | wireFault (k : Fin 4) (x : EncInput)
  /-- R81: A faulted encoder input has been valid for 1 ms and the fault clears. -/
  | wireFaultClear (k : Fin 4) (x : EncInput)
  /-- R92: No counted change arrives for TIMEOUT; the interpolator goes COLD and STILL sets. -/
  | interpolatorTimeout
  /-- R82: A write of PTB_SIM_VEL sets the SIM velocity and changes DIR and STILL with its sign. -/
  | ptbSimVelWrite (acc : Accessor) (v : Word)
  /-- R106: A read of PTB_POS_LO copies the whole position and velocity into the holding register. -/
  | ptbPosLoRead (acc : Accessor)
  /-- R106: A read of PTB_ENCk_CNT_LO copies the whole port count. -/
  | ptbEncCntLoRead (acc : Accessor) (k : Fin 4)
  /-- R106: A read of PTB_ENCk_ZLAT_LO copies the whole latched index count. -/
  | ptbEncZlatLoRead (acc : Accessor) (k : Fin 4)
  /-- R71: A write of PTB_ENCk_STAT.CLR = 1 clears the port's error counters. -/
  | encErrClr (acc : Accessor) (k : Fin 4) (v : Word)
  /-- R99: Every PERIOD cycles the timebase writes position, DIR and COLD into the region bus buffer and flips the toggle. -/
  | busUpdate
  /-- R101: A region reader takes no new value for 8 periods; BUSSTALE sets and is logged. -/
  | busStale (n : Fin 64)
  /-- R110: The matcher track crosses a grid point in an allowed direction and makes an occurrence, handing it over or leaving it pending. -/
  | matcherCrossing (k : Fin 32768)
  /-- R118: A pending occurrence is handed over to its target when room or its target allows, and closes FIRED or LATE. -/
  | occurrenceHandover
  /-- R118: The track passes a pending occurrence's tolerance, and it closes MISSED. -/
  | occurrenceMissed
  /-- R123: A PULSE action drives its event output active for the width, extending any pulse in progress. -/
  | pulse (o : Fin 32)
  /-- R123: A SET action drives its event output active and cancels any pulse end. -/
  | set (o : Fin 32)
  /-- R123: A CLEAR action drives its event output inactive and cancels any pulse end. -/
  | clear (o : Fin 32)
  /-- R125: A queued edge, delayed by TRIM, reaches its event output land and frees its place in the queue. -/
  | evoEdge (o : Fin 32)
  /-- R168: A CTX action registers a context-switch request at the target region's context unit. -/
  | ctx (n : Fin 64)
  /-- R577: A DVFS action queues an operating-point request at Kettle; it is handed over at admission. -/
  | dvfs (n : Fin 64)
  /-- R292: A START_GRAPH action posts one token to each valid target of the graph in its home region. -/
  | startGraph
  /-- R289: A TOKEN action posts a token with the stamp of its grid point to an operation's flag. -/
  | eventToken
  /-- R320: A MIGRATE action opens a chip or region point at the placement engine. -/
  | migrate
  /-- R535: A QUIET action stalls the region in TEST for its window and runs pending bond steering and at most one column transfer. -/
  | quiet (n : Fin 64)
  /-- R535: The quiet window's length has passed and the region returns to ACTIVE. -/
  | quietWindowEnd (n : Fin 64)
  /-- R512: A LOAD_PARTIAL action requests a partial load from the loader. -/
  | loadPartial
  /-- R162: A MARK action inserts a one-word mark packet into a network stream port. -/
  | mark (n : Fin 64) (dest : Fin 64)
  /-- R128: An IRQ action queues a record in the interrupt FIFO for the supervisor. -/
  | irq
  /-- R128: A read of EVT_IRQ_POP removes the oldest interrupt record and copies its PARAM and stamp. -/
  | evtIrqPop (acc : Accessor)
  /-- R129: A write to words 0 to 6 of an event-table entry is taken when EN is 0 and refused when EN is 1. -/
  | entryWrite (acc : Accessor) (k : Fin 32768) (w : Fin 8) (v : Word)
  /-- R129: A write of word 7 with EN = 0 withdraws the entry and closes its pending occurrences MISSED. -/
  | entryWithdraw (acc : Accessor) (k : Fin 32768) (v : Word)
  /-- R130: A write of word 7 that sets EN checks the entry and enables it into the window, or refuses it. -/
  | entryEnable (acc : Accessor) (k : Fin 32768) (v : Word)
  /-- R150: A lift wire shows contention at two consecutive edges; it is counted and the policy LOG or FENCE acts. -/
  | liftContention (n : Fin 64) (blk : Fin 2352) (w : Fin 32)
  /-- R163: An input pair delivers a deserialised word to its owner region, or it is discarded when the FIFO is full. -/
  | sensorWord (b : Fin 8) (p : Fin 48) (w : Byte)
  /-- R637: An input pair gains or loses lock on its data. -/
  | sensorPairLock (b : Fin 8) (p : Fin 48) (lock : Bool)
  /-- R162: A network stream port accepts the LAST word of a packet and sends it to its destination. -/
  | streamPacketSend (n : Fin 64) (p : Fin 8) (dest : Fin 64) (last : Line)
  /-- R168: A firmware write of CTX_REQ with GO = 1 registers a supervisor context request. -/
  | ctxReq (acc : Accessor) (n : Fin 64) (v : Word)
  /-- R168: The fabric samples CREQ_V = 1 at the context request port and registers a fabric request. -/
  | creq (n : Fin 64) (ctx : Fin 8)
  /-- R169: At the switching edge after registration the context unit ranks requests, refuses or supersedes some, and switches the active context. -/
  | contextSwitch (n : Fin 64)
  /-- R175: A request held under the guard reaches GUARDMAX, and the switch proceeds with discards. -/
  | guardTimeout (n : Fin 64)
  /-- R193: A write of MEM_BANK_OWNb changes the owner and starts a handover, changes STEAL, or is refused. -/
  | ownershipWrite (acc : Accessor) (n : Fin 64) (b : Fin 48) (v : Word)
  /-- R193: The last outstanding response of the old owner leaves the bank; BUSY clears and the new owner is admitted. -/
  | handoverEnd (n : Fin 64) (b : Fin 48)
  /-- R200: A bank issues a read of a word and returns it after its bank latency. -/
  | bankRead (n : Fin 64) (b : Fin 64) (q : BankReq)
  /-- R200: A bank issues a full write of 16 bytes. -/
  | bankWrite (n : Fin 64) (b : Fin 64) (q : BankReq)
  /-- R393: A bank carries out a masked write by hardware read-modify-write. -/
  | bankMaskedWrite (n : Fin 64) (b : Fin 64) (q : BankReq)
  /-- R202: A bank carries out an atomic ADD32 on one lane and returns the old value. -/
  | bankAdd32 (n : Fin 64) (b : Fin 64) (q : BankReq)
  /-- R202: A bank carries out an atomic ADD64 on a lane pair and returns the old value. -/
  | bankAdd64 (n : Fin 64) (b : Fin 64) (q : BankReq)
  /-- R202: A bank carries out an atomic SWAP64 on a lane pair and returns the old value. -/
  | bankSwap64 (n : Fin 64) (b : Fin 64) (q : BankReq)
  /-- R197: A queued stealing request reaches STEALMAX and is answered OWNER without effect. -/
  | stealTimeout (n : Fin 64) (b : Fin 48)
  /-- R206: The last word of a row is copied to its spare row and the remap takes effect. -/
  | rowRemapDone (n : Fin 64)
  /-- R207: A bank copy finishes its last word and enters mirroring, awaiting a MIGRATE point. -/
  | bankCopyDone (n : Fin 64)
  /-- R255: Arithmetic operation NOP does nothing. -/
  | nop (g : EngId) (p : Par)
  /-- R255: MPY sets an accumulator to the product of two operands. -/
  | mpy (g : EngId) (p : Par)
  /-- R255: MPYN sets an accumulator to the negated product. -/
  | mpyn (g : EngId) (p : Par)
  /-- R255: MAC adds a product to an accumulator. -/
  | mac (g : EngId) (p : Par)
  /-- R255: MACN subtracts a product from an accumulator. -/
  | macn (g : EngId) (p : Par)
  /-- R255: DMPY forms two products into A0 and A1. -/
  | dmpy (g : EngId) (p : Par)
  /-- R255: DMAC adds two products to A0 and A1. -/
  | dmac (g : EngId) (p : Par)
  /-- R255: DMACX adds one product to A0 and subtracts another from A1. -/
  | dmacx (g : EngId) (p : Par)
  /-- R255: ADD adds an operand to an accumulator. -/
  | add (g : EngId) (p : Par)
  /-- R255: SUB subtracts an operand from an accumulator. -/
  | sub (g : EngId) (p : Par)
  /-- R255: CMP sets the flags of an accumulator less an operand. -/
  | cmp (g : EngId) (p : Par)
  /-- R255: COPY sets an accumulator to an operand. -/
  | copy (g : EngId) (p : Par)
  /-- R255: NEG negates an accumulator. -/
  | neg (g : EngId) (p : Par)
  /-- R255: ABS takes the absolute value of an accumulator. -/
  | abs (g : EngId) (p : Par)
  /-- R255: CLR sets an accumulator to 0. -/
  | clr (g : EngId) (p : Par)
  /-- R255: RNDC rounds an accumulator convergently. -/
  | rndc (g : EngId) (p : Par)
  /-- R255: ASL shifts an accumulator left by COUNT. -/
  | asl (g : EngId) (p : Par)
  /-- R255: ASR shifts an accumulator right by COUNT. -/
  | asr (g : EngId) (p : Par)
  /-- R255: AND combines the accumulator high part with an operand by bitwise and. -/
  | and (g : EngId) (p : Par)
  /-- R255: OR combines the accumulator high part with an operand by bitwise or. -/
  | or (g : EngId) (p : Par)
  /-- R255: XOR combines the accumulator high part with an operand by exclusive-or. -/
  | xor (g : EngId) (p : Par)
  /-- R255: MAX keeps the greater of the accumulator and an operand. -/
  | max (g : EngId) (p : Par)
  /-- R255: MIN keeps the lesser of the accumulator and an operand. -/
  | min (g : EngId) (p : Par)
  /-- R260: A parallel LOAD move loads a register from D or K memory. -/
  | load (g : EngId) (k : Bool) (reg : Fin 8) (mode : Fin 8) (ptr : Fin 8)
  /-- R260: A parallel STORE move writes a register to D or K memory. -/
  | store (g : EngId) (k : Bool) (reg : Fin 8) (mode : Fin 8) (ptr : Fin 8)
  /-- R260: A STORE R move stores an accumulator with rounding. -/
  | storeR (g : EngId) (k : Bool) (reg : Fin 8) (mode : Fin 8) (ptr : Fin 8)
  /-- R260: A STORE S move stores an accumulator with saturation. -/
  | storeS (g : EngId) (k : Bool) (reg : Fin 8) (mode : Fin 8) (ptr : Fin 8)
  /-- R260: A STORE RS move stores an accumulator with rounding and saturation. -/
  | storeRs (g : EngId) (k : Bool) (reg : Fin 8) (mode : Fin 8) (ptr : Fin 8)
  /-- R260: An UPDATE move updates a pointer by its mode without a memory access. -/
  | update (g : EngId) (k : Bool) (mode : Fin 8) (ptr : Fin 8)
  /-- R262: A STREAM move pops from or pushes to the engine stream port. -/
  | stream (g : EngId) (k : Bool) (code : Fin 8)
  /-- R267: LDI loads a 24-bit immediate into any register. -/
  | ldi (g : EngId) (dst : Fin 64) (imm : BitVec 24)
  /-- R267: MOVR moves between any registers. -/
  | movr (g : EngId) (dst : Fin 64) (src : Fin 64) (rnd : Bool) (sat : Bool)
  /-- R267: MOVM moves between a register and D or K memory through a pointer or an absolute address. -/
  | movm (g : EngId) (a : MovmArgs)
  /-- R268: ADDI adds an immediate to an accumulator. -/
  | addi (g : EngId) (d : Bool) (rnd : Bool) (sat : Bool) (imm : BitVec 24)
  /-- R268: CMPI sets the flags of an accumulator less an immediate. -/
  | cmpi (g : EngId) (d : Bool) (imm : BitVec 24)
  /-- R268: SWS sets SW bits. -/
  | sws (g : EngId) (m : BitVec 16)
  /-- R268: SWC clears SW bits. -/
  | swc (g : EngId) (m : BitVec 16)
  /-- R269: BRA branches, conditionally or through a register, after two delay slots. -/
  | bra (g : EngId) (cond : Fin 16) (ind : Bool) (ptr : Fin 8) (target : Fin 4096)
  /-- R269: CALL branches and writes the return address into LINK. -/
  | call (g : EngId) (cond : Fin 16) (link : Fin 8) (target : Fin 4096)
  /-- R273: RTI returns from an interrupt to the main set at IRA. -/
  | rti (g : EngId)
  /-- R272: DONE reports the operation complete to Cotillion and enters WAIT. -/
  | done (g : EngId)
  /-- R272: WAIT enters WAIT after its delay slots. -/
  | wait (g : EngId)
  /-- R275: LOOP starts a hardware loop. -/
  | loop (g : EngId) (imm : Bool) (count : BitVec 16) (reg : Fin 64) (last : Fin 4096)
  /-- R277: WLD issues a bank-window load. -/
  | wld (g : EngId) (w : WinArgs)
  /-- R277: WST issues a bank-window store. -/
  | wst (g : EngId) (w : WinArgs)
  /-- R277: WATM issues a bank-window atomic. -/
  | watm (g : EngId) (w : WinArgs)
  /-- R279: SLD issues a system load to the service address map; in a region engine it issues nothing. -/
  | sld (g : EngId) (d : Bool) (ind : Bool) (a : Word)
  /-- R279: SST issues a system store to the service address map; in a region engine it issues nothing. -/
  | sst (g : EngId) (d : Bool) (ind : Bool) (a : Word)
  /-- R281: An instruction with a reserved encoding executes as a no-operation. -/
  | reservedEncoding (g : EngId)
  /-- R233: A window load's or atomic's response lands in its registers and releases the lock, or raises a bank-access error. -/
  | windowLoadLand (n : Fin 64) (e : Fin 25)
  /-- R279: A supervisor system-access response lands and releases its accumulator. -/
  | systemAccessResponse
  /-- R239: An enabled pending source is recognised; the engine swaps to the shadow set and fetches the vector. -/
  | interruptEntry (g : EngId)
  /-- R245: TMR reaches 0 and pends the timer source. -/
  | tmrExpire (g : EngId)
  /-- R242: ENG_CTRL.STOP = 1 is reached at an instruction boundary and the engine enters STOP. -/
  | engStop (n : Fin 64) (e : Fin 25)
  /-- R250: A read of ENG_MDATA_LO reads the word at ENG_MADDR in a free cycle and advances ADDR. -/
  | engMdataRead (acc : Accessor) (n : Fin 64) (e : Fin 25)
  /-- R250: A write of ENG_MDATA_LO writes the word at ENG_MADDR and advances ADDR, or is refused for P. -/
  | engMdataWrite (acc : Accessor) (n : Fin 64) (e : Fin 25) (v : Word)
  /-- R290: A network TOKEN request reaches a slot flag and is taken, or refused with DECODE or REFUSED. -/
  | token (c : NetCmd)
  /-- R289: A firmware write of SCH_TOKEN posts a token with SCH_TOKVAL to a slot flag. -/
  | schToken (acc : Accessor) (n : Fin 64) (v : Word)
  /-- R294: A READY slot's wait reaches a further aging step and its urgency rises. -/
  | urgencyStep (n : Fin 64) (k : Fin 256)
  /-- R297: Cotillion selects a READY slot for an available engine, clears its flags, pages if needed and pends the dispatch interrupt. -/
  | dispatch (n : Fin 64)
  /-- R304: A slot READY with a void mark closes ABORT with ENG 31 and posts void tokens. -/
  | voidDispatch (n : Fin 64) (k : Fin 256)
  /-- R300: A kernel-paging read returns; its word is written to P, poisoned, or the dispatch fails. -/
  | pagingResponse (n : Fin 64) (e : Fin 25)
  /-- R307: A held completion finds room in the queue and its record enters. -/
  | cqHeldRelease (n : Fin 64)
  /-- R308: A read of SCH_CQ_POP removes the oldest completion record and copies it. -/
  | schCqPop (acc : Accessor) (n : Fin 64)
  /-- R308: A completion-ring line not full after 1 µs is written with fillers. -/
  | cqLineFlush (n : Fin 65)
  /-- R308: A failed completion-ring write is retried after 1 µs. -/
  | cqRingRetry (n : Fin 65)
  /-- R287: A descriptor write that sets EN checks the descriptor, clears the flags and enters IDLE, or is refused. -/
  | slotEnable (acc : Accessor) (n : Fin 64) (k : Fin 256) (v : Word)
  /-- R287: A write of word 0 that clears EN withdraws the slot. -/
  | slotWithdraw (acc : Accessor) (n : Fin 64) (k : Fin 256) (v : Word)
  /-- R287: A descriptor write to a disabled slot is taken; one to an enabled or running slot is refused. -/
  | descriptorWrite (acc : Accessor) (n : Fin 64) (k : Fin 256) (w : Fin 16) (v : Word)
  /-- R287: A kernel-table write clears residency of that kernel on every engine of the region. -/
  | kernelTableWrite (acc : Accessor) (n : Fin 64) (k : Fin 256) (w : Fin 2) (v : Word)
  /-- R310: A firmware GO write pushes a work item into a queue, or is refused when the queue is full. -/
  | schWqPush (acc : Accessor) (n : Fin 64) (v : Word)
  /-- R310: A free pool engine takes the oldest item of the lowest non-empty work queue for dispatch. -/
  | poolTake (n : Fin 64)
  /-- R312: A write of TRC_RD_IDX copies that ring record to TRC_RDw. -/
  | trcRdIdxWrite (acc : Accessor) (v : Word)
  /-- R326: After 1,024 service cycles the decision pass commits assignments, ownership, pool bits, bank switches and slice substitutions. -/
  | pointCommit
  /-- R326: The route pass of 4,096 service cycles ends and writes the inactive epoch and requests the flip. -/
  | routePassEnd
  /-- R340: A moved slot's D and K copy completes or it is no longer running, and its transit ends. -/
  | transitEnd (n : Fin 64)
  /-- R343: A GO write of PLC_OVR queues a pin or unpin override, or is refused. -/
  | plcOvr (acc : Accessor) (v : Word)
  /-- R357: A READ1 request reads one word at its target and is answered once. -/
  | read1 (c : NetCmd)
  /-- R357: A READ4 request reads four words. -/
  | read4 (c : NetCmd)
  /-- R357: A READ16 request reads sixteen words. -/
  | read16 (c : NetCmd)
  /-- R357: A WRITE1 request writes payload word 0 under its byte enables. -/
  | write1 (c : NetCmd)
  /-- R357: A WRITE4 request writes four words. -/
  | write4 (c : NetCmd)
  /-- R357: A WRITE16 request writes sixteen words. -/
  | write16 (c : NetCmd)
  /-- R357: An ADD32 network request performs the atomic at its target. -/
  | add32 (c : NetCmd)
  /-- R357: An ADD64 network request performs the atomic at its target. -/
  | add64 (c : NetCmd)
  /-- R357: A SWAP64 network request performs the atomic at its target. -/
  | swap64 (c : NetCmd)
  /-- R310: An ENQUEUE request adds a work item to a queue and returns its sequence number. -/
  | enqueue (c : NetCmd)
  /-- R649: A REGRD management request reads a 32-bit register. -/
  | regrd (c : NetCmd)
  /-- R649: A REGWR management request writes a 32-bit register. -/
  | regwr (c : NetCmd)
  /-- R373: An SDATA stream packet arrives at its target NI and is delivered into its port, or dropped. -/
  | sdata (ni : Fin 80)
  /-- R373: An SMARK position-mark packet arrives and is delivered into its port. -/
  | smark (ni : Fin 80)
  /-- R370: A response arrives at its source NI and closes its TID, or is discarded as late or stray. -/
  | resp (ni : Fin 80)
  /-- R373: A drop notice reaches the source NI, strobes DROP on its stream port and is counted. -/
  | drop (ni : Fin 80)
  /-- R360: A packet at a router takes its next hop or is ejected at DPORT. -/
  | routerHop (r : Fin 64) (out : Fin 8) (l : LinkEvent)
  /-- R367: A packet waiting AGESTEP cycles at a queue head has its urgency raised. -/
  | packetAgeStep (r : Fin 64) (port : Fin 8) (vc : Fin 4) (cls : Bool)
  /-- R371: A request has no response within TIMEOUT and the source NI answers TIMEOUT. -/
  | requestTimeout (ni : Fin 80) (t : Fin 4096)
  /-- R370: A TIMED_OUT TID returns to FREE after 16 × TIMEOUT. -/
  | tidRelease (ni : Fin 80) (t : Fin 4096)
  /-- R380: An output holds a packet with no credit returned for CREDTO × 256 cycles, and its link becomes dead. -/
  | creditTimeout (r : Fin 64) (d : Fin 4)
  /-- R381: A queue head makes no progress while it has credits, and the router becomes faulted. -/
  | routerStall (r : Fin 64)
  /-- R381: Within 20 µs of a router fault the NOC reads its ledger and sends drop notices. -/
  | ledgerDrop (r : Fin 64) (bad : Bool)
  /-- R375: The old epoch has been quiet for 1,024 cycles and every NI flips to the new tables. -/
  | epochFlip
  /-- R378: A draining NI sees no packet for 1,024 cycles; power is cut and the region goes DARK. -/
  | drainComplete (n : Fin 64)
  /-- R362: A write through NI_RDATA sets a route entry, selection or stream entry, or is refused. -/
  | routeEntryWrite (acc : Accessor) (ni : Fin 80) (v : Word)
  /-- R399: A pending write-back issues in an idle cycle and writes the corrected word. -/
  | writeBack (n : Fin 65) (mem : Fin 4) (unit : Fin 50)
  /-- R395: An uncorrectable word is rewritten poisoned in place at patrol priority. -/
  | poisonRewrite (n : Fin 65) (mem : Fin 4) (unit : Fin 50)
  /-- R402: Each INTERVAL a bank's patrol reads the next word and handles what it finds. -/
  | patrolRead (n : Fin 64) (p : Fin 50)
  /-- R404: Each EINT engine cycles the engine patrol reads the next physical word of D, K or P. -/
  | enginePatrolRead (n : Fin 65) (e : Fin 25)
  /-- R406: A GO write of ECC_INJ arms an injection into the next write of the named word. -/
  | eccInj (acc : Accessor) (n : Fin 64) (v : Word)
  /-- R409: A read of ECC_TBLk_W0 copies the whole table entry. -/
  | eccTblW0Read (acc : Accessor) (n : Fin 65) (k : Fin 32)
  /-- R409: A write of 0 to ECC_TBLk_W0.VALID clears the entry. -/
  | eccTblClear (acc : Accessor) (n : Fin 65) (k : Fin 32)
  /-- R421: Every 384 timebase cycles the tempo master sends a reel on each ring. -/
  | reelSend
  /-- R424: A reel arrives; the follower forwards it with added delay and reconstructs the position from it. -/
  | reel (a : ReelArgs)
  /-- R418: Lane 0 has sent nothing for 64 ns and a FILL frame is sent. -/
  | fillSend (p : Fin 2)
  /-- R420: A FILL frame arrives and gives a hop-latency sample; training completes after 1,024 exchanges. -/
  | fill (p : Fin 2) (crcOk : Bool) (link : LinkWord) (age : Byte) (alive : Byte)
  /-- R436: A Kraerlink DATA frame arrives and is forwarded, dropped or delivered to the network at its destination. -/
  | data (a : FrameArgs)
  /-- R438: A management READ frame reaches its node and reads registers under its windows. -/
  | mgmtRead (a : FrameArgs)
  /-- R438: A management WRITE frame reaches its node and writes a register under its windows. -/
  | mgmtWrite (a : FrameArgs)
  /-- R438: A management RESPONSE reaches the origin and answers its proxy request. -/
  | mgmtResponse (a : FrameArgs)
  /-- R435: An ACK frame closes ledger entries as delivered. -/
  | mgmtAck (a : FrameArgs)
  /-- R435: A DROP frame closes a ledger entry and sends a drop notice to the source NI. -/
  | mgmtDrop (a : FrameArgs)
  /-- R419: A TOPO frame circles the ring and updates the node list, setting DUPNODE when a number repeats. -/
  | topo (a : FrameArgs)
  /-- R436: Every 4 µs, or after 32 frames, the destination returns an ACK per origin and ring stream. -/
  | ackSend
  /-- R419: Block lock on a port's lanes starts FILL exchanges for training, or brings a link UP. -/
  | linkBlockLock (p : Fin 2) (tx : Bool) (lanes : BitVec 2)
  /-- R413: Every lane of one direction has lost block lock for 128 ns; the link is DOWN and the ends wrap. -/
  | linkDown (p : Fin 2) (tx : Bool)
  /-- R427: Four consecutive reels are missing; the follower holds its outputs, or a backup takes over. -/
  | reelsLost
  /-- R427: After 1 ms without a reel the follower keeps its position constant. -/
  | reelFreeze
  /-- R429: A designated master hears no reel within 16 reel periods and starts sending with era 1. -/
  | masterStart
  /-- R431: A hold lasts HOLDMAX ms and enters SAFE with cause LOCKSTEP, or logs the limit. -/
  | holdLimit
  /-- R435: A ledger entry gets no ACK or DROP within DTIMEOUT and closes with a TIMEOUT drop notice. -/
  | ledgerTimeout
  /-- R438: A proxy request gets no RESPONSE within MTIMEOUT and is answered TIMEOUT. -/
  | mgmtTimeout
  /-- R447: A quad PLL gains or loses lock; its lanes leave or enter WAIT_PLL. -/
  | qpllLock (q : Fin 12) (lock : Bool) (ok : Bool)
  /-- R447: An unlocked quad PLL retries every 1 ms. -/
  | qpllRetry (q : Fin 12)
  /-- R457: A lane in ACQUIRE or DOWN gains lock and becomes UP. -/
  | laneLock (q : Fin 12) (l : Fin 4)
  /-- R457: An UP lane loses lock or enters high BER and returns to ACQUIRE, counting towards a failing slice. -/
  | laneLoss (q : Fin 12) (l : Fin 4) (high : Bool) (sig : Bool)
  /-- R457: A lane finds no lock within 10 ms and goes DOWN. -/
  | laneAcquireTimeout (q : Fin 12) (l : Fin 4)
  /-- R457: A DOWN lane retries ACQUIRE every 10 ms. -/
  | laneRetry (q : Fin 12) (l : Fin 4)
  /-- R451: A received lane word passes rate matching into the packet being filled, which closes at WORDS or a terminate. -/
  | laneRxWord (q : Fin 12) (l : Fin 4) (e : LaneRx)
  /-- R451: HOLD ns pass since a receive packet's first word and the packet closes. -/
  | lanePacketHold (q : Fin 12) (l : Fin 4)
  /-- R455: A raw-mode transmitter has sent FILLINT entries without a filler and inserts one. -/
  | forcedFiller (q : Fin 12) (l : Fin 4)
  /-- R456: The CTLE adaptation period ends and the code moves by at most one step. -/
  | ctleStep (q : Fin 12) (l : Fin 4) (up : Bool) (down : Bool)
  /-- R458: A GO write of LNE_ESCAN starts an eye scan at one point, or is refused. -/
  | escanStart (acc : Accessor) (q : Fin 12) (l : Fin 4) (v : Word)
  /-- R458: An eye scan completes its bit count and DONE sets with the error count. -/
  | escanDone (q : Fin 12) (l : Fin 4) (errors : Word)
  /-- R459: A GO write of LNE_QSUB marks a lane's slice failing and raises a substitution request. -/
  | lneQsub (acc : Accessor) (q : Fin 12) (v : Word)
  /-- R460: The analog multiplexer connects the new slice and the lane enters ACQUIRE. -/
  | sliceSwitchDone (q : Fin 12) (l : Fin 4)
  /-- R465: A channel loses training in service and goes DOWN until the next load. -/
  | channelDown (c : Fin 8)
  /-- R483: A GO write of XMC_RETIRE starts a key retirement, or is refused. -/
  | xmcRetire (acc : Accessor) (v : Word)
  /-- R484: Every channel has written back and invalidated its metadata cache, and the walk starts. -/
  | retireFlushDone
  /-- R484: A page is walked from the old key to the new; after the last the range passes and the old key is retired. -/
  | retireWalkPage (f : XmFind)
  /-- R474: A write of XMC_CTRL.MODE requests a mode change, or is refused during a walk. -/
  | xmcModeWrite (acc : Accessor) (v : Word)
  /-- R474: No request is in progress in any channel and the waiting mode change takes effect. -/
  | modeChange
  /-- R470: A GO write of SEC_KGEN fills a slot with a generated key, or is refused. -/
  | secKgen (acc : Accessor) (v : Word)
  /-- R512: A GO write of CFG_PLOAD requests a partial load, refused when the loader is busy. -/
  | cfgPload (acc : Accessor) (v : Word)
  /-- R512: The loader takes a waiting partial request and judges it against the region state. -/
  | partialLoadTake
  /-- R513: A partial load completes; LOADED bits set, or the region restarts or goes FENCED at the limit. -/
  | partialLoadComplete (crcOk sigOk : Bool)
  /-- R519: A queued journal record is programmed into flash and read back. -/
  | journalWrite (ok : Bool)
  /-- R520: With fewer than 64 free slots the journal is compacted into the other sector. -/
  | journalCompact (ok : Bool)
  /-- R526: In each frame slot the walker reads one configuration row, corrects words, counts and finds uncorrectable frames. -/
  | steepVisit (n : Fin 64) (x : SteepFind)
  /-- R528: A re-fetched frame group arrives, is checked and rewritten, and the frame is repaired, remapped or its context unloaded. -/
  | frameRefetchDone (words : List Line) (ok clean : Bool)
  /-- R529: A GO write of SCR_RELEASE restarts a region held under UEHOLD. -/
  | scrRelease (acc : Accessor) (v : Word)
  /-- R533: A GO write of SCR_TEST asks for a unit, or a region BIST, to be tested next. -/
  | scrTest (acc : Accessor) (v : Word)
  /-- R533: The rolling test starts its next test of a kind, with a stand-in if needed. -/
  | tourTestStart (kind : Fin 5) (sc : Fin 64)
  /-- R533: The hourly check counts overdue units and logs SCR_TOURLATE. -/
  | tourlateCheck (n : Fin 64)
  /-- R534: The column's 768 rows are copied to the spare column and STATE becomes READY. -/
  | columnCopyDone (n : Fin 64)
  /-- R595: A unit test passes or fails, writes its result and takes return, spare or failure handling. -/
  | bistTestEnd (a : TestEnd)
  /-- R601: Every PERIOD minutes the analogue checks of sensors, oscillators, PLLs, monitors and phases run. -/
  | analogCheckPeriod
  /-- R537: Every PERIOD seconds the ageing monitors are measured and margin steps, spares or failures follow. -/
  | ageMeasure (n : Fin 64) (ages : List (Fin 74 × Byte))
  /-- R540: Each hour SCR_HOURS rises by 1 while nonzero. -/
  | hoursTick
  /-- R546: A PLL started by its configuration write reports lock. -/
  | pllLock (k : Fin 16)
  /-- R550: A measurement window of a source against its judge ends; the source may become ready or lose ready. -/
  | sourceWindow (k : Fin 16) (j : Fin 16) (r : Word)
  /-- R551: No edge of a source is seen within 64 judge cycles and it loses ready. -/
  | sourceNoEdge (k : Fin 16) (j : Fin 16)
  /-- R551: A PLL loses lock and loses ready at once. -/
  | pllLockLoss (k : Fin 16)
  /-- R557: A PLL in holdover moves to its alternate reference without a phase step and leaves holdover. -/
  | altrefMove (k : Fin 16)
  /-- R557: Holdover lasts 1 ms without a reference and the PLL loses ready. -/
  | holdoverEnd (k : Fin 16)
  /-- R558: A write of CLK_DOMd.SEL switches the domain to a ready source, or is refused. -/
  | domainSelect (acc : Accessor) (d : Fin 9) (v : Word)
  /-- R559: A clock-gate close is requested and the interface takes no new access. -/
  | gateCloseRequest (u : BitVec 24)
  /-- R559: 256 cycles after a close request, accesses whose first beat has not crossed end GATED. -/
  | gateTimeout (u : BitVec 24)
  /-- R559: The interface is idle and the gate closes. -/
  | gateClosed (u : BitVec 24)
  /-- R560: An access waiting at a closed gate opens it within 4 cycles and is carried out. -/
  | gateReopen (u : BitVec 24)
  /-- R575: A PWR_REQ write of kind point change queues a request, replacing any of its kind. -/
  | pointChangeRequest (acc : Accessor) (v : Word)
  /-- R579: A PWR_REQ write of kind wake queues a region wake, or is refused. -/
  | wakeRequest (acc : Accessor) (v : Word)
  /-- R581: A PWR_REQ write of kind power-down starts a region power-down, or is refused. -/
  | powerDownRequest (acc : Accessor) (v : Word)
  /-- R576: Kettle admits the first eligible request that the bucket can pay for and starts it. -/
  | kettleAdmit
  /-- R572: An operating-point change finishes its clock and voltage steps and the domain is no longer busy. -/
  | pointChangeDone (n : Fin 64) (d : Fin 2)
  /-- R579: A waking region is powered and its memories zeroed, and it waits for its partial load. -/
  | wakeZeroingDone (n : Fin 64)
  /-- R580: Every 1 µs Kettle checks the time to the next LOAD_PARTIAL point and starts an early wake within LEAD. -/
  | earlyWakeCheck
  /-- R581: The power-down wait ends; open work closes ABORT, clocks stop and the NI drains. -/
  | powerDownWaitEnd (n : Fin 64)
  /-- R582: Every 50 µs Kettle measures input and rail power. -/
  | powerMeasure (vin : BitVec 16) (iin : BitVec 16) (inp : BitVec 16) (stk : BitVec 16)
  /-- R582: At each 1 ms boundary the power throttle level PK rises, falls or holds. -/
  | powerThrottleStep
  /-- R582: The front-end current limit has acted for 1 ms and PK is set to 6. -/
  | currentLimit (iin : BitVec 16)
  /-- R569: A regulator phase fails and is shed; a third loss on one rail is the chip doubt REGULATOR. -/
  | phaseFailure (r : Fin 137) (p : Fin 16) (reason : Fin 4)
  /-- R583: Every 50 µs both sensors of each site are read; warnings, sensor checks and shutdown are judged. -/
  | tempSample (l : List SiteRead)
  /-- R585: At each 1 ms boundary each region's thermal skip level KT rises, falls or holds. -/
  | thermalSkipStep
  /-- R586: A region's K has been 6 for 10 ms and all region clocks are divided by 2. -/
  | divisionStart (n : Fin 64)
  /-- R586: Every region's K has been 2 or less for 100 ms and the division ends. -/
  | divisionEnd
  /-- R588: A sensor stays at one code for 1 s while its partner changes and is marked broken. -/
  | sensorStuck (x : Fin 416)
  /-- R588: One second after a passed disagreement check the reference check repeats. -/
  | sensorRecheck (x : Fin 208)
  /-- R632: Every 1 ms VIOA and VIOB are compared with their declared voltages and GIO banks go Z or are driven again. -/
  | vioCheck (a b : Byte)
  /-- R615: No word of a FILLING result arrives for FILLTO µs and the slot closes READY with ABORT. -/
  | mailboxFillTimeout (k : Fin 4096)
  /-- R617: A read of slot word 0 returns the header and moves READY to TAKEN or counts REPEAT. -/
  | slotRead (acc : Accessor) (k : Fin 4096)
  /-- R618: A GO write of MBX_ACK frees a READY or TAKEN slot with matching SEQ, or counts a bad acknowledge. -/
  | mbxAck (acc : Accessor) (v : Word)
  /-- R612: A write of CRC_Un_CTL.CLR clears the unit's alive counts, flags and message in progress. -/
  | crcClr (acc : Accessor) (k : Fin 16) (v : Word)
  /-- R622: A read of CRC_Un_RES_LO copies the result, status and alive registers. -/
  | crcResLoRead (acc : Accessor) (k : Fin 16)
  /-- R654: A complete 10-byte service-port request is checked, carried out under the access rules and answered. -/
  | serviceFrame (f : BitVec 80)
  /-- R656: SVC_CS_N rises before byte 9 and the frame is discarded, or after it and the response is lost. -/
  | serviceFrameShort (f : Option (BitVec 80))
  /-- R658: The test port's register-access instruction reaches the service space when debug is on, and is refused otherwise. -/
  | testPortAccess (wr : Bool) (a v : Word)
  /-- R179: A word of the active context, checked continuously while in effect, is judged Uncorrectable or Poisoned and fences the region with cause FRAME_UE at the next region edge. -/
  | configWordUeAtUse (n : Fin 64) (frame : Fin 4704) (cell : Fin 32)
  /-- R140: At an edge of a region's fabric clock the flip-flops and wire registers load, hold or take INIT, and port handshakes are sampled. -/
  | regionFabricClockEdge (n : Fin 64) (pins : FabricPins)
  /-- R546: Ten milliseconds after the last image byte, step 1 of START stops waiting for PLLs that are not ready and leaves their domains to failover. -/
  | startPllTimeout
  /-- R601: An analogue check of a sensor, oscillator, PLL, monitor or phase ends, writes its result record and on failure marks the unit broken, not ready or failed. -/
  | analogCheckEnd (a : CheckEnd)
  /-- R453: A lane transmitter sends its next block or character from its transmit FIFO or a filler, sending an error block and counting TXUND on an underrun within a frame. -/
  | laneTxBlock (q : Fin 12) (l : Fin 4)
  /-- R250: A write of ENG_CTRL.STOP = 0 takes an engine out of STOP so that it resumes. -/
  | engResume (acc : Accessor) (n : Fin 64) (e : Fin 25) (v : Word)
deriving DecidableEq, Repr

end Sys2Proof
end

