-- ==== Sys2Proof/Decode.lean ====
section
/-! DEFINITION. Words of the table of operations and events: it gives its rows no bits, so there is nothing to decode
(log entry 5). -/

namespace Sys2Proof

/-- The command that a word spells by the table's bits: none, no row has bits. -/
def decodeTableWord (_nbits _w : Nat) : Option Instr := none

end Sys2Proof
end

