-- ==== Sys2Proof/Config.lean ====
section
/-! DEFINITION. What the spec leaves open as a value (log entry 9): constants without a body, applied to a plain
counter of the state or to the operands. Nothing can evaluate them. -/

namespace Sys2Proof

/-- The data of a word whose value the spec does not give: free, by the count of free values taken. -/
opaque Config.freeLine : Nat → Line

/-- A 32-bit value the spec does not give. -/
opaque Config.freeWord : Nat → Word

/-- A word of external memory as it reads where the spec gives no contents: never written since the load, or read in
clear where a protected line lies. By what makes it differ, and by word address. -/
opaque Config.freeDram : Nat → Nat → Line

/-- The value a signal of the fabric has that depends on itself without a register between (log entry 11): by the
region's configuration, registers and inputs, and by the signal. -/
opaque Config.loopBit {α β : Type} : α → β → Bool

end Sys2Proof
end

