-- ==== Sys2Proof/Machine/Tbl.lean ====
section
/-! DEFINITION. Sparse tables: a list of key and value pairs, keys strictly rising. A key that is not listed
reads as the table's default. Registers, memories and every numbered set of like units use them. -/

namespace Sys2Proof.Machine

/-- A sparse table. -/
abbrev Tbl (α : Type) := List (Nat × α)

/-- The value at key `k`, `d` where it is not listed. -/
def Tbl.get {α : Type} : Tbl α → α → Nat → α
  | [], d, _ => d
  | (k, v) :: t, d, n => if k = n then v else Tbl.get t d n

/-- Lists `v` at `n`, in the place the rising order gives it. -/
def Tbl.set {α : Type} : Tbl α → Nat → α → Tbl α
  | [], n, v => [(n, v)]
  | (k, w) :: t, n, v =>
    if n < k then (n, v) :: (k, w) :: t
    else if n = k then (n, v) :: t
    else (k, w) :: Tbl.set t n v

/-- Takes key `n` out. -/
def Tbl.del {α : Type} : Tbl α → Nat → Tbl α
  | [], _ => []
  | (k, w) :: t, n => if k = n then Tbl.del t n else (k, w) :: Tbl.del t n

/-- Writes `v` at `n` in canonical form: a value equal to the default is not listed. -/
def Tbl.put {α : Type} [DecidableEq α] (t : Tbl α) (d : α) (n : Nat) (v : α) : Tbl α :=
  if v = d then t.del n else t.set n v

/-- Every key is below `b` or above it as the rising order wants: keys strictly rise from `b` on. -/
def Tbl.sortedFrom {α : Type} : Nat → Tbl α → Bool
  | _, [] => true
  | b, (k, _) :: t => decide (b ≤ k) && Tbl.sortedFrom (k + 1) t

/-- The canonical form: keys strictly rising and no entry equal to what an unlisted key reads as. -/
def Tbl.wf {α : Type} [DecidableEq α] (d : α) (t : Tbl α) : Bool :=
  Tbl.sortedFrom 0 t && t.all (fun p => decide (p.2 ≠ d))

/-- Memory as bytes by address (Host.Cell); an unlisted byte reads 0: the memories of the stack are zeroed in
LOADING (07 R205, 08 R223, 17 R506). -/
abbrev Memory := Tbl (BitVec 8)

/-- One byte of memory. -/
def Memory.readByte (m : Memory) (a : Nat) : BitVec 8 := Tbl.get m 0#8 a

/-- Writes one byte of memory. -/
def Memory.writeByte (m : Memory) (a : Nat) (v : BitVec 8) : Memory := Tbl.put m 0#8 a v

/-- The canonical form of a memory. -/
def Memory.wf (m : Memory) : Bool := Tbl.wf 0#8 m

end Sys2Proof.Machine
end

