-- ==== Sys2Proof/Machine/State.lean ====
section
/-! DEFINITION. The state of the SKV8064 as plain data, unit by unit, and its value at reset. -/

namespace Sys2Proof.Machine

/-! ### Registers -/

/-- The access codes of 00 R10. -/
inductive Access where
  | rw | ro | w1c | wo | rws
deriving DecidableEq, Repr

/-- A field of the register file: its register's address and its bits. -/
structure Fld where
  addr : Nat
  hi : Nat
  lo : Nat
deriving DecidableEq, Repr

/-- A field as a register table gives it. `image`: the image gives its reset value; `loadOnly`: R662 applies. -/
structure FieldDesc where
  hi : Nat
  lo : Nat
  acc : Access
  image : Bool
  loadOnly : Bool
deriving DecidableEq, Repr

/-- A register: its first address, its instances as (count, stride) pairs, its fields. -/
structure RegDesc where
  base : Nat
  dims : List (Nat × Nat)
  fields : List FieldDesc
deriving DecidableEq, Repr

/-- The answer of the last register access: its status code (00 R17) and its data. -/
structure Rsp where
  status : Nat := 0
  data : Nat := 0
deriving DecidableEq, Repr

/-! ### Chip, event log (02) -/

/-- The chip states of 02 R41. -/
inductive ChipState where
  | off | por | load | start | run | safe | halt
deriving DecidableEq, Repr

/-- The region states of 02 R44. -/
inductive RegionState where
  | dark | loading | active | fenced | test
deriving DecidableEq, Repr

/-- Chip state with what the SAFE entry of 02 R49 and the chip watchdog of R61 hold. -/
structure Chip where
  state : ChipState := .por
  /-- the SAFE entry is still running (before step 7) -/
  entering : Bool := false
  /-- the state left at step 1 -/
  entryOld : ChipState := .por
  /-- causes of this stay in SAFE that the step-6 record carries -/
  entryMask : Nat := 0
  /-- every cause of this stay in SAFE -/
  stayMask : Nat := 0
  /-- position stamp at step 1, none while the timebase does not run -/
  entryStamp : Option Nat := none
  /-- a cause with after-state HALT is latched -/
  haltPending : Bool := false
  /-- a RELOAD held under R667 -/
  reloadHeld : Bool := false
  /-- a condition of 01 R39 has arisen since the last load -/
  degraded : Bool := false
  golden : Bool := false
  /-- the output step has been reached -/
  outputs : Bool := false
  /-- HLTH is driven high -/
  hlth : Bool := false
  /-- the output step has been reached since the load: service windows are honoured (24 R651) -/
  windows : Bool := false
  /-- the causes in force in HALT -/
  haltMask : Nat := 0
  /-- the chip watchdog runs; cycle of its last restart; WDWARN given in this count -/
  wdRun : Bool := false
  wdStart : Nat := 0
  wdWarned : Bool := false
deriving DecidableEq, Repr

/-- An event-log record (02 R56). -/
structure LogRec where
  detail : Nat := 0
  seq : Nat := 0
  code : Nat := 0
  cls : Nat := 0
  status : Nat := 0
  unit : Nat := 0
  flags : Nat := 0
  stamp : Nat := 0
  time : Nat := 0
deriving DecidableEq, Repr

/-- A rate limiter of 02 R664 for one code and scope. -/
structure RateLimit where
  code : Nat
  scope : Nat
  last : Nat
  held : Nat
  record : LogRec
deriving DecidableEq, Repr

/-- A merged run of 02 R59: the entry, its status and where its record lies. -/
structure MergeRun where
  entry : Nat
  status : Nat
  slot : Nat
  seq : Nat
deriving DecidableEq, Repr

/-- The event log (02 R56, R58). LOST is the register field SYS_LOG_STATUS.LOST. -/
structure EventLog where
  recs : Tbl LogRec := []
  head : Nat := 0
  tail : Nat := 0
  seq : Nat := 0
  /-- given up since the last LOG_LOST record -/
  given : Nat := 0
  lastLost : Option Nat := none
  limits : List RateLimit := []
  runs : List MergeRun := []
deriving DecidableEq, Repr

/-! ### Timebase (03) -/

/-- An encoder port. -/
structure EncPort where
  a : Bool := false
  b : Bool := false
  z : Bool := false
  cnt : Int := 0
  zlat : Int := 0
  /-- the last index count with no change of direction since -/
  zPrev : Option Int := none
  /-- sign of the last counted change, 0 none -/
  dir : Int := 0
  wireA : Bool := false
  wireB : Bool := false
  wireZ : Bool := false
  /-- an ENC_QERR record has been written since the counters were last cleared (R103) -/
  qlogged : Bool := false
deriving DecidableEq, Repr

/-- One half of the position bus into the regions (03 R99). -/
structure BusHalf where
  pos : Int := 0
  rev : Bool := false
  cold : Bool := true
deriving DecidableEq, Repr

/-- The position timebase. Positions are in units of 2^-48 count, rounded down (04 R124). -/
structure Timebase where
  ports : Tbl EncPort := []
  running : Bool := false
  startCyc : Nat := 0
  /-- the integer at the last counted change -/
  c : Int := 0
  /-- the position of the SIM and REEL sources -/
  ramp : Int := 0
  rev : Bool := false
  still : Bool := true
  cold : Bool := true
  /-- timestamps of the newest counted changes in one direction, newest first, at most 17 -/
  times : List Nat := []
  warmRun : Nat := 0
  srcAct : Nat := 0
  /-- the measured track and the matcher track of R87 -/
  track : Int := 0
  mtrack : Int := 0
  /-- the matcher position now and in the cycle before -/
  pm : Int := 0
  pmPrev : Int := 0
  /-- holding copies of R106 -/
  holdPos : Nat := 0
  holdVel : Nat := 0
  holdCnt : Tbl Nat := []
  holdZlat : Tbl Nat := []
  /-- the double-buffered bus of R99: both halves and the toggle -/
  busA : BusHalf := {}
  busB : BusHalf := {}
  /-- half B is current -/
  busToggle : Bool := false
deriving DecidableEq, Repr

/-! ### Position event table (04) -/

/-- An occurrence of an entry: its grid point, direction and crossing cycle. -/
structure Occ where
  /-- the model's number of the occurrence -/
  id : Nat
  entry : Nat
  x : Int
  rev : Bool
  cyc : Nat
  /-- the sub-cycle offset of R124 -/
  sub : Nat
  /-- why it waits, as the EV_LATE reason of R133 -/
  why : Nat
  /-- its request waits at Kettle (DVFS) -/
  queued : Bool := false
deriving DecidableEq, Repr

/-- An action on its way from the matcher to its target. -/
structure Action where
  entry : Nat
  code : Nat
  target : Nat
  param : Nat
  /-- the stamp of the grid point (R117) -/
  stamp : Nat
  /-- the sub-cycle offset and the hand-over cycle -/
  sub : Nat
  cyc : Nat
  late : Bool
  /-- the occurrence a DVFS request belongs to -/
  occ : Option Nat := none
deriving DecidableEq, Repr

/-- An edge in an output's queue (04 R125); time in steps of 55.6 ps, 12 a cycle. -/
structure EvoEdge where
  time : Nat
  level : Bool
  /-- a pulse end -/
  pulseEnd : Bool
deriving DecidableEq, Repr

/-- An event output. -/
structure Evo where
  level : Bool := false
  edges : List EvoEdge := []
deriving DecidableEq, Repr

/-- An interrupt record (04 R128). -/
structure IrqRec where
  entry : Nat
  param : Nat
  stamp : Nat
  late : Bool
deriving DecidableEq, Repr

/-- The event table with the matcher's lists. -/
structure EventTable where
  running : Bool := false
  entries : Tbl (BitVec 256) := []
  /-- for an enabled entry: the track up to which its grid has been judged -/
  judged : Tbl Int := []
  pend : List Occ := []
  /-- the number of the next occurrence -/
  nextId : Nat := 0
  inflight : List Action := []
  irq : List IrqRec := []
  irqCopy : IrqRec := ⟨0, 0, 0, false⟩
  evos : Tbl Evo := []
  /-- hand-overs in the present cycle (R121): the cycle, others, outputs used -/
  handCyc : Nat := 0
  handOthers : Nat := 0
  handEvos : List Nat := []
deriving DecidableEq, Repr

/-! ### Regions -/

/-- The counts of a stay in FENCED (02 R668). -/
structure Closed where
  requests : Nat := 0
  operations : Nat := 0
  packets : Nat := 0
  events : Nat := 0
deriving DecidableEq, Repr

/-- A response waiting at a bank port (05 R159). -/
structure PortRsp where
  data : Line
  status : Nat
  poison : Bool
  /-- removed from the mask by a context switch (06 R174) -/
  discard : Bool := false
deriving DecidableEq, Repr

/-- A word in an engine stream FIFO: 48 bits and the poison bit (05 R161). -/
structure StreamWord where
  data : BitVec 48
  poison : Bool
deriving DecidableEq, Repr

/-- A word delivered to a network stream port (05 R162). -/
structure NetWord where
  data : Line
  last : Bool
  poison : Bool
  stamp : Nat
  mark : Bool
deriving DecidableEq, Repr

/-- A packet being accepted at a network stream port: its DEST, the stamp of its first word, the words so far. -/
structure OpenPkt where
  dest : Nat
  stamp : Nat
  words : List Line
deriving DecidableEq, Repr

/-- The fabric of a region (05). -/
structure Fabric where
  /-- configuration words: (context × 4,704 + frame) × 32 + cell mod 32 -/
  cfg : Tbl Line := []
  /-- flip-flops: ((block × 64 + cell) × 2 + i) -/
  ffs : Tbl Bool := []
  /-- wire registers: (block × 2 + tier) × 64 + switch output -/
  wires : Tbl Bool := []
  /-- lift keepers: block × 32 + wire -/
  keepers : Tbl Bool := []
  /-- region edges seen -/
  edges : Nat := 0
  ports : Tbl (List PortRsp) := []
  /-- engine stream FIFOs towards the engine and from it, by engine site -/
  toEng : Tbl (List StreamWord) := []
  fromEng : Tbl (List StreamWord) := []
  /-- the engine site each engine stream port is bound to (R161); the port's own number when unlisted -/
  bind : Tbl Nat := []
  /-- packets being accepted, and words delivered, at network stream ports -/
  opens : Tbl OpenPkt := []
  rx : Tbl (List NetWord) := []
  /-- sensor words waiting per pair (R163) -/
  sensors : Tbl (List (BitVec 8)) := []
deriving DecidableEq, Repr

/-- A request at a context unit (06 R168). -/
structure CtxReqst where
  /-- 0 event table, 1 supervisor, 2 fabric -/
  path : Nat
  ctx : Nat
  entry : Nat
  stamp : Nat
deriving DecidableEq, Repr

/-- The context unit of a region (06). -/
structure CtxUnit where
  active : Nat := 0
  loaded : Nat := 0
  loading : Nat := 0
  reqs : List CtxReqst := []
  /-- the held-request register of R180 -/
  supHeld : Option CtxReqst := none
  /-- requests are held under R175 or R178 since this edge -/
  heldSince : Option Nat := none
  /-- R178 was among the reasons -/
  heldSteep : Bool := false
  lastSrc : Nat := 0
  lastFrom : Nat := 0
  lastTo : Nat := 0
  lastStamp : Nat := 0
deriving DecidableEq, Repr

/-- An operation at a bank. -/
inductive BankOp where
  | read | write | add32 | add64 | swap64
deriving DecidableEq, Repr

/-- A packet of the network: the fields of R356 and its payload words (12). -/
structure Packet where
  /-- 0 request, 1 response, 2 stream, 3 management -/
  typ : Nat
  opc : Nat
  status : Nat := 0
  src : Nat
  tid : Nat
  key : Nat := 0
  addr : Nat := 0
  be : Nat := 0
  toktgt : Nat := 0
  stamp : Nat := 0
  urg : Nat := 0
  /-- poison of payload word w at bit w -/
  psn : Nat := 0
  route : Nat := 0xFFFFFF
  dport : Nat := 0
  alt : Bool := false
  epoch : Bool := false
  /-- the flits less 1 (LEN) -/
  len : Nat := 0
  data : List Line := []
  /-- the cycle at which it came to the head of its queue, and since which it has not been aged (R366, R367) -/
  headAt : Nat := 0
deriving DecidableEq, Repr

/-- A handover in progress (07 R193). -/
structure Handover where
  oldOwner : Nat
  oldEng : Nat
  start : Nat
  /-- accepted requests of the old owner still to be served -/
  left : Nat
deriving DecidableEq, Repr

/-- The memory-tier units of a region (07). Owners, PHYS, BUSY and the copy are register fields. -/
structure MemUnit where
  handovers : Tbl Handover := []
  /-- the steal queue of each bank (R197), and network requests held for a new owner (R193) -/
  steals : Tbl (List Packet) := []
  netHeld : Tbl (List Packet) := []
  /-- remapped rows: physical bank × 1,024 + row to spare row + 1, 0 not remapped -/
  rowMap : Tbl Nat := []
  /-- spare rows in use of each physical bank, spare k at bit k, journal repairs included -/
  rowUsed : Tbl Nat := []
  /-- the running row copy and the remaps waiting, oldest first: (physical bank, row) -/
  rowQueue : List (Nat × Nat) := []
  /-- spare banks 48 and 49: 0 free, 1 standing in, 2 in for good, 3 retired (01 R34) -/
  spareUse : Tbl Nat := []
  /-- reason of the bank copy in progress (R209) and its logical bank -/
  copyReason : Nat := 0
  copyBank : Nat := 0
  /-- bank copies waiting: (logical bank, reason, destination of a return after test) -/
  copyQueue : List (Nat × Nat × Nat) := []
deriving DecidableEq, Repr

/-- An entry of a correctable-error table (13 R409). -/
structure EccEntry where
  mem : Nat
  unit : Nat
  spareRow : Bool
  wb : Nat
  word : Nat
  count : Nat
  synd : Nat
  stamp : Nat
  /-- the patrol pass at which it was written back (R400) -/
  pass : Nat := 0
deriving DecidableEq, Repr

/-- An armed injection (13 R406). -/
structure EccInj where
  kind : Nat
  bank : Nat
  pos : Nat
  word : Nat
deriving DecidableEq, Repr

/-- A rewrite waiting in the write-back register of a bank or an engine memory (13 R395, R399). -/
structure WriteBack where
  mem : Nat
  unit : Nat
  word : Nat
  /-- rewritten poisoned (R395) -/
  poison : Bool
deriving DecidableEq, Repr

/-- Error correction of a region (13). -/
structure EccUnit where
  table : Tbl EccEntry := []
  copy : Option EccEntry := none
  wbs : List WriteBack := []
  inj : Option EccInj := none
  /-- the next patrol word of each physical bank, and of each engine -/
  ptr : Tbl Nat := []
  eptr : Tbl Nat := []
  passes : Tbl Nat := []
  epasses : Tbl Nat := []
  cold : Bool := true
deriving DecidableEq, Repr

/-! ### Engines (08, 09) -/

/-- The engine states of 08 R242. -/
inductive EngState where
  | wait | run | stop | halted | test | retired
deriving DecidableEq, Repr

/-- A register set. Registers are kept by their codes of 09 R266: 0–3 V, 4–5 the whole accumulators, 0x10 on AP, AB,
AL, AM, 0x30 LC, 0x31 LS, 0x32 LE, 0x33 SW (without SUP and SH), 0x35 IRA; tags by 0–5. -/
structure RegSet where
  r : Tbl Nat := []
  tag : Tbl Bool := []
  pc : Nat := 0x010
deriving DecidableEq, Repr

/-- A write that has not landed (08 R227 to R229): the issue number from which it stands in the register is
`land` − 1. -/
structure PendWrite where
  land : Nat
  idx : Nat
  shadow : Bool
  reg : Nat
  mask : Nat
  val : Nat
  tag : Option Bool
deriving DecidableEq, Repr

/-- What a transfer does after its second delay slot (09 R271 to R273). -/
inductive XferAct where
  | jump (target : Nat)
  | notTaken
  | rti
  | done
  | wait
deriving DecidableEq, Repr

/-- A transfer whose delay slots are still to issue. -/
structure Xfer where
  left : Nat
  act : XferAct
  /-- the address of the transfer -/
  src : Nat
deriving DecidableEq, Repr

/-- A bank's answer to a window request. -/
structure WinRsp where
  status : Nat
  data : Line
  poison : Bool
deriving DecidableEq, Repr

/-- What an outstanding request is. -/
inductive WinKind where
  | load | store | atomic
deriving DecidableEq, Repr

/-- An outstanding window request (08 R233). -/
structure WinReq where
  kind : WinKind
  op : BankOp
  shadow : Bool
  form : Nat
  lane : Nat
  reg : Nat
  bank : Nat
  word : Nat
  mask : Nat
  data : Line
  poison : Bool
  pc : Nat
  rsp : Option WinRsp := none
deriving DecidableEq, Repr

/-- A supervisor system access that is outstanding (09 R279): a load's accumulator and register set, its number, and its
answer once it is known. -/
structure SysAcc where
  load : Bool
  acc : Nat
  shadow : Bool
  id : Nat
  rsp : Option Rsp := none
deriving DecidableEq, Repr

/-- An engine. -/
structure Engine where
  state : EngState := .wait
  /-- the state STOP was entered from -/
  stopFrom : EngState := .wait
  main : RegSet := {}
  shad : RegSet := {}
  sh : Bool := false
  tmr : Nat := 0
  ipend : Nat := 0
  /-- instructions issued since reset: the positions of R228 -/
  idx : Nat := 0
  pend : List PendWrite := []
  xfer : Option Xfer := none
  /-- no interrupt before one instruction of the resumed program (R241) -/
  resumed : Bool := false
  /-- dispatch words DQ0 to DQ3 -/
  dq : Tbl Nat := []
  outst : List WinReq := []
  sys : List SysAcc := []
  /-- memory words: memory (0 D, 1 K, 2 P) × 16,384 + address -/
  mem : Tbl Nat := []
  /-- poison flags of D and K words -/
  psn : Tbl Bool := []
  /-- the syndrome of each physical word: memory × 4,096 + word -/
  syn : Tbl Nat := []
  /-- marked failed (13 R398, 21); its work moves at a MIGRATE point -/
  failed : Bool := false
  /-- a P range being paged: (first, last) address (R222, R230) -/
  paging : Option (Nat × Nat) := none
  /-- engine cycles seen (R212) -/
  cyc : Nat := 0
deriving DecidableEq, Repr

/-! ### Cotillion (10) -/

/-- The token that set a flag. -/
structure SlotFlag where
  val : Nat
  stamp : Nat
  void : Bool
deriving DecidableEq, Repr

/-- The states of a slot (R288). -/
inductive SlotState where
  | off | idle | ready | running
deriving DecidableEq, Repr

/-- An operation slot. -/
structure Slot where
  state : SlotState := .off
  flags : Tbl SlotFlag := []
  /-- the cycle at which it became READY, the age steps since, trigger stamp and value, a void mark -/
  readyAt : Nat := 0
  steps : Nat := 0
  trigStamp : Nat := 0
  trigVal : Nat := 0
  void : Bool := false
  /-- assigned engine (R295), 31 stranded (R333); in transit (R340) -/
  eng : Nat := 0
  transit : Bool := false
deriving DecidableEq, Repr

/-- A kernel being paged (R299): the next word to be read, the words read, all of its words, entries evicted. -/
structure Paging where
  gen : Nat
  next : Nat := 0
  got : Nat := 0
  words : Nat
  evicted : Nat
  poisoned : Bool := false
deriving DecidableEq, Repr

/-- An operation or work item that is open on an engine. -/
structure OpenItem where
  /-- a work item: its queue; else a slot -/
  queue : Option Nat
  /-- slot, or sequence number -/
  index : Nat
  kernel : Nat
  trigStamp : Nat
  trigVal : Nat
  deadline : Nat
  urg : Nat
  desc : BitVec 512
  paging : Option Paging := none
  /-- the engine's cycle count at the dispatch cycle -/
  start : Nat := 0
  /-- a window response was GATED; a response or read was corrected (R301) -/
  gated : Bool := false
  corrected : Bool := false
deriving DecidableEq, Repr

/-- A completion that waits for room in the queue (R307). -/
structure HeldCmp where
  eng : Nat
  item : OpenItem
  status : Nat
  cycles : Nat
deriving DecidableEq, Repr

/-- The Cotillion unit of a region. -/
structure Sched where
  descs : Tbl (BitVec 512) := []
  kernels : Tbl (BitVec 64) := []
  slots : Tbl Slot := []
  /-- resident kernels per engine, oldest first -/
  resident : Tbl (List Nat) := []
  items : Tbl OpenItem := []
  held : List HeldCmp := []
  cq : List Line := []
  cqCopy : Line := 0#128
  /-- the ring line on its way or to be retried; it has failed; a failure episode has been logged -/
  ring : List Line := []
  ringFail : Bool := false
  ringErr : Bool := false
  /-- a hold episode has been logged (R307) -/
  heldLogged : Bool := false
  pageGen : Nat := 0
  wqs : Tbl (List (Nat × Line)) := []
  wqSeq : Tbl Nat := []
deriving DecidableEq, Repr

/-- A region. -/
structure Region where
  sch : Sched := {}
  engs : Tbl Engine := []
  fab : Fabric := {}
  ctx : CtxUnit := {}
  mem : MemUnit := {}
  ecc : EccUnit := {}
  state : RegionState := .dark
  /-- the cause code of 02 R48 of the last fence -/
  cause : Nat := 0x20
  closed : Closed := {}
  /-- cycles of the restarts counted under 01 R40 -/
  restarts : List Nat := []
  /-- the region stays FENCED until the next load (02 R46) -/
  limit : Bool := false
  /-- held for firmware under UEHOLD (18 R529) -/
  heldUE : Bool := false
  wdStart : Nat := 0
  /-- the count held in TEST, in cycles -/
  wdHeld : Nat := 0
  /-- cycles since which TEST runs -/
  testSince : Nat := 0
  /-- no restart of its own ends this stay in FENCED (18 R529, R536, 17 R514) -/
  stuck : Bool := false
deriving DecidableEq, Repr

/-! ### Network (12) -/

/-- What a source NI asked a request for. -/
inductive ReqFor where
  /-- a unit behind the NI -/
  | unit
  /-- a token of the slot's op (10 R289) -/
  | token (slot : Nat)
  /-- the line of the region's completion ring (10 R308), or of the trace stream (R314) -/
  | ring
  /-- kernel paging: engine, kernel word, paging number (10 R299) -/
  | page (e word gen : Nat)
  /-- a supervisor system access (09 R279), by its number -/
  | sys (id : Nat)
deriving DecidableEq, Repr

/-- A TID that is not FREE (R370). -/
structure TidEntry where
  timedOut : Bool := false
  opc : Nat
  dst : Nat
  why : ReqFor
deriving DecidableEq, Repr

/-- A request that its source NI answers itself (R363), or that waits for a TID (R370). -/
structure NetAsk where
  dst : Nat
  pkt : Packet
  why : ReqFor
deriving DecidableEq, Repr

/-- A network interface: a region's or an I/O interface's (R353). Keys of the tables: epoch × 256 + alternative × 128 +
index, epoch × 128 + index, stream entry. -/
structure Ni where
  nextTid : Nat := 0
  tids : Tbl TidEntry := []
  routes : Tbl Nat := []
  sel : Tbl Nat := []
  streams : Tbl Nat := []
  /-- the preferred alternative of each index, as the image names it (11 R339) -/
  pref : Tbl Nat := []
  /-- DRAIN (R378) and the cycles at which it began -/
  drain : Bool := false
  drainAt : Nat := 0
  bypass : Bool := false
  /-- requests accepted and not served: those that TEST holds (R372) -/
  held : List Packet := []
  /-- requests that wait while 256 are outstanding, and answers made here with their status in the packet -/
  waiting : List NetAsk := []
  locals : List NetAsk := []
  /-- packets ejected here and not taken: requests, responses, streams, management -/
  inbox : List Packet := []
  /-- the last response handed to the unit -/
  last : Option Packet := none
  /-- drop notices strobed to each stream port (05 R162) -/
  dropped : Tbl Nat := []
deriving DecidableEq, Repr

/-- An epoch flip between steps 1 and 3 (R375, R376). -/
structure Flip where
  /-- a route pass is still to write its changes -/
  writing : Bool := false
  marking : Bool
  /-- the cycle at which step 2 began -/
  start : Nat
  /-- marks that regions' power-downs and wakes ask for: (NI, mark) -/
  marks : List (Nat × Bool) := []
  /-- routers out in the new epoch, as a mask -/
  outs : Nat := 0
deriving DecidableEq, Repr

/-- A drop notice on its way that the ledger or a router sends (R374, R381). -/
structure LedgerItem where
  router : Nat
  pkt : Packet
deriving DecidableEq, Repr

/-- The packet network. Queues of router r, input port p, channel v, class c: ((r × 8 + p) × 4 + v) × 2 + c. -/
structure Net where
  nis : Tbl Ni := []
  queues : Tbl (List Packet) := []
  flip : Option Flip := none
  /-- stream packets of faulted routers whose ledger entry is still to be read -/
  ledger : List LedgerItem := []
  /-- wire corrections since the last flip: ((router × 4 + d) × 27 + group) × 32 + wire -/
  wires : Tbl Nat := []
  /-- groups that use their spare, and a second failed wire of such a group: (router × 4 + d) × 27 + group -/
  repaired : Tbl Bool := []
  second : Tbl Bool := []
  /-- wires that have failed and wait for the next flip -/
  failing : List Nat := []
deriving DecidableEq, Repr

/-! ### Kettle (20) -/

/-- A request waiting at Kettle (20 R575). -/
structure KReq where
  region : Nat
  /-- 0 fabric, 1 engine, 2 wake, 3 margin, 4 both domains -/
  kind : Nat
  point : Nat
  prio : Nat
  arrived : Nat
  /-- the occurrence it comes from -/
  occ : Option Nat := none
  /-- a wake: the partial it loads and the path of its request (17 R521), 4 for an early wake (R580) -/
  part : Nat := 0
  path : Nat := 0
  /-- the event-table entry of a LOAD_PARTIAL wake -/
  entry : Nat := 0
deriving DecidableEq, Repr

/-- A change of an operating point between admission and completion (R572). -/
structure PointMove where
  region : Nat
  dom : Nat
  dest : Nat
deriving DecidableEq, Repr

/-- A wake between its admission and the loader's taking it. -/
structure Waking where
  region : Nat
  part : Nat
  path : Nat
  entry : Nat
deriving DecidableEq, Repr

/-- Kettle and the power unit. -/
structure Kettle where
  queue : List KReq := []
  /-- the bucket in 1/1,500 of 0.1 A, and the cycle it stands for -/
  credit : Nat := 0
  creditAt : Nat := 0
  moves : List PointMove := []
  wakes : List Waking := []
  /-- START wakes still to be admitted -/
  startWakes : List Nat := []
  /-- power-downs of PWR_REQ that wait for TEST to end; regions whose power-down wait has ended -/
  downWait : List Nat := []
  /-- the whole power throttle level, and the limits as last measured: reached, both below 95 % -/
  pk : Nat := 0
  reached : Bool := false
  below : Bool := true
  /-- clock division: in force, and the region that started it -/
  div : Option Nat := none
  /-- phases shed: rail × 16 + phase -/
  shed : List Nat := []
  /-- cycles of the auto-restarts of the last hour; the hottest reading in HALT -/
  restarts : List Nat := []
  haltHot : Int := 0
deriving DecidableEq, Repr

/-- Temperature (20). Sensors are site × 2 + sensor; readings in 0.125 °C. -/
structure Therm where
  raw : Tbl Int := []
  /-- broken sensors -/
  broken : List Nat := []
  /-- samples in a row at or above shutdown, and samples in a row with more than 6 °C of difference, by site -/
  hot : Tbl Nat := []
  differ : Tbl Nat := []
  /-- sites whose sensors take the reference check after a disagreement, and sensors that passed it -/
  asked : List Nat := []
  passed : List Nat := []
  /-- sites or regions at warning: region n, or 64 + site of T0 -/
  warned : List Nat := []
deriving DecidableEq, Repr

/-! ### Placement (11) -/

/-- What a snapshot holds of a region (11 R325). -/
structure PlcSnap where
  region : Nat
  /-- DARK or LOADING: the mapping stands (R327) -/
  skipped : Bool
  warm : Bool
  hot : Bool
  /-- engines lost and not yet handled, in the order of their failure; engines that cannot be a destination -/
  lost : List Nat
  unfit : List Nat
  /-- engines the rolling test asks to take aside, and engines whose test has ended -/
  asks : List Nat
  returns : List Nat
  /-- a bank copy is in MIRRORING -/
  mirroring : Bool
  excl : Nat
  descs : Tbl (BitVec 512)
  /-- LOAD by engine, and by slot the load of its completions -/
  load : Tbl Nat
  slotLoad : Tbl Nat
deriving DecidableEq, Repr

/-- What a chip point's snapshot holds of the network (R325, R339). -/
structure PlcNet where
  /-- routers faulted, asked for test, returning: masks; dead links as router × 4 + direction; link loads -/
  faulted : Nat := 0
  asked : Nat := 0
  dead : List Nat := []
  load : Tbl Nat := []
  warm : Bool := false
  rbal : Bool := false
  maxRoute : Nat := 0
  hot : Nat := 0
deriving DecidableEq, Repr

/-- A queued override (R343). -/
structure PlcOvr where
  kind : Nat
  eng : Nat
  op : Nat
deriving DecidableEq, Repr

/-- An open migration point (11 R325). -/
structure PlcPoint where
  /-- 0 to 63 a region, 64 the chip -/
  scope : Nat
  param : Nat
  raw : Nat
  snaps : List PlcSnap
  /-- overrides of its regions queued at the opening -/
  ovrs : List PlcOvr
  bal : Bool
  imbal : Nat
  imbalHot : Nat
  maxMoves : Nat
  net : PlcNet
  /-- slice substitutions pending: (lane, reason) -/
  slices : List (Nat × Nat)
  /-- committed: the route pass is still to end -/
  routing : Bool := false
deriving DecidableEq, Repr

/-- A transit (R340): of one slot, or of a whole engine with its D and K copy. -/
structure Transit where
  region : Nat
  slots : List Nat
  /-- the engines of a whole-engine move -/
  whole : Option (Nat × Nat)
  /-- D and K of the destination come from the image (R331) -/
  fromImage : Bool := false
  /-- the source enters TEST at the end; the spare is free at the end -/
  toTest : Bool := false
  freeSpare : Bool := false
deriving DecidableEq, Repr

/-- A handover that waits for the old owner's open item (R337). -/
structure PlcWait where
  region : Nat
  bank : Nat
  oldEng : Nat
  value : Nat
deriving DecidableEq, Repr

/-- The placement engine. -/
structure Plc where
  points : List PlcPoint := []
  ovrs : List PlcOvr := []
  /-- pinned op ids -/
  pins : List Nat := []
  transits : List Transit := []
  waits : List PlcWait := []
  /-- spare engine of a region: 0 free, 1 standing in, 2 in for good, 3 retired (01 R34); the engine it serves -/
  spares : Tbl Nat := []
  spareFor : Tbl Nat := []
  /-- engines lost and not yet handled, region × 32 + engine, oldest first; memories that BIST marked failed -/
  lost : List Nat := []
  badMem : List Nat := []
  /-- requests and returns of the rolling test: engines as region × 32 + engine, routers -/
  asks : List Nat := []
  returns : List Nat := []
  rtrAsks : List Nat := []
  /-- the interval of each region (R325): its start, and each engine's cycle count then; completed cycles by slot -/
  since : Tbl Nat := []
  base : Tbl Nat := []
  slotCyc : Tbl Nat := []
  /-- the network's interval: its start and the flit counts then -/
  netSince : Nat := 0
  netBase : Tbl Nat := []
  /-- PLC_QDATA by region × 32 + engine -/
  qdata : Tbl Nat := []
deriving DecidableEq, Repr

/-! ### Kraerlink (14) -/

/-- A reel (R421), with the arrival time the follower gives it. -/
structure Reel where
  time : Nat
  era : Nat
  mnode : Nat
  cold : Bool
  rev : Bool
  still : Bool
  delay : Nat
  vel : Int
  /-- position in units of 2^-48 count -/
  pos : Int
  /-- its arrival at the land in stamp units since the last exit from OFF, and the ring: B -/
  at_ : Int
  ring : Bool
deriving DecidableEq, Repr

/-- A ledger entry of interface 12 (R434). -/
structure KrlOpen where
  stream : Nat
  seq : Nat
  src : Nat
  tid : Nat
  addr : Nat
deriving DecidableEq, Repr

/-- A frame a port has sent (R414). -/
structure KSent where
  /-- 1 REEL, 2 DATA, 3 MGMT, 4 FILL; the subtype of MGMT (R437) -/
  typ : Nat
  sub : Nat := 0
  f : KFrame := {}
  reel : Option ReelPay := none
  link : Option LinkWord := none
deriving DecidableEq, Repr

/-- What a destination keeps of one (origin, stream) (R416, R436, R440). -/
structure KrlRx where
  alive : Option Nat := none
  /-- highest SEQ delivered, the map of the 32 below it, frames since the last ACK -/
  high : Option Nat := none
  map : Nat := 0
  since : Nat := 0
  /-- the last (START, CTR) accepted as one number -/
  pair : Option Nat := none
deriving DecidableEq, Repr

/-- A proxy request that waits for its RESPONSE (R438). -/
structure KrlAsk where
  node : Nat
  seq : Nat
  /-- the network request it answers; none: the service port's -/
  pkt : Option Packet
  write : Bool
deriving DecidableEq, Repr

/-- A port: 0 east, 1 west. -/
structure KrlPort where
  /-- exchanges of the training so far, the newest samples of the hop latency, newest first -/
  exch : Nat := 0
  samples : List Nat := []
  /-- the frames that the last command sent here, oldest first -/
  out : List KSent := []
  /-- the next alive counter of FILL, and the one received last -/
  fillTx : Nat := 0
  fillRx : Option Nat := none
  /-- TX of the last REEL or FILL received, and its arrival in stamp units -/
  heard : Option (Nat × Int) := none
deriving DecidableEq, Repr

/-- The ring unit. -/
structure Krl where
  /-- the follower holds its outputs (R427, R428): since when, and why (R441) -/
  hold : Bool := false
  holdAt : Nat := 0
  holdWhy : Nat := 0
  limitLogged : Bool := false
  /-- the last reel used, warm reels used in a row, reels missing in a row -/
  reel : Option Reel := none
  warmReels : Nat := 0
  missing : Nat := 0
  /-- a reel has been used since the output step; the position is frozen (R427) since this cycle -/
  first : Bool := true
  frozen : Option Nat := none
  /-- the ring the follower prefers: ring B -/
  prefB : Bool := false
  /-- the two ports -/
  east : KrlPort := {}
  west : KrlPort := {}
  /-- the other devices in ring order, beginning with the east neighbour, as items of TOPO (R437) -/
  topo : List Nat := []
  /-- the last TOPO seen on ring A and on ring B: its origin and the items before this device's own -/
  seenA : Option (Nat × List Nat) := none
  seenB : Option (Nat × List Nat) := none
  /-- send table (0 to 511) and receive table (512 to 767) -/
  tables : Tbl Nat := []
  ledger : List KrlOpen := []
  /-- next SEQ of each ring stream, next alive of each MGMT stream by destination, last MGMT alive by origin -/
  seqs : Tbl Nat := []
  mgmtTx : Tbl Nat := []
  mgmtRx : Tbl Nat := []
  /-- next CTR of each stream; CFG_START has been written to the journal and is in use -/
  ctrs : Tbl Nat := []
  startUsed : Bool := false
  rx : Tbl KrlRx := []
  asks : List KrlAsk := []
  /-- the next transaction number -/
  tran : Nat := 0
  /-- the answer of the service port's last proxy access -/
  proxy : Option Rsp := none
  /-- the holding copy of KRL_REEL_TIME -/
  timeCopy : Nat := 0
deriving DecidableEq, Repr

/-! ### External memory (16) -/

/-- A line of external memory. -/
structure XmLine where
  data : BitVec 512 := 0#512
  /-- the key it is encrypted under: 0 clear, else the number of the key value -/
  key : Nat := 0
  minor : Nat := 0
  /-- words written poisoned with a code (R478) -/
  psn : Nat := 0
  /-- 0 none, 1 data-poisoned, 2 sealed-poisoned -/
  mark : Nat := 0
deriving DecidableEq, Repr

/-- A retirement walk (R484). -/
structure XmWalk where
  old : Nat
  new : Nat
  base : Nat
  limit : Nat
  /-- the caches are flushed; pages walked -/
  flushed : Bool := false
  done : Nat := 0
deriving DecidableEq, Repr

/-- The LPDDR5X controller and Caddy. -/
structure Xmc where
  /-- lines by A div 64, unlisted: unwritten -/
  lines : Tbl XmLine := []
  /-- MAJOR of each page of A -/
  majors : Tbl Nat := []
  /-- runs of sealed pages of a channel: (channel, first page in the channel, pages) -/
  sealed : List (Nat × Nat × Nat) := []
  /-- the number of each slot's key value, and the next number -/
  keys : Tbl Nat := []
  nextKey : Nat := 1
  walk : Option XmWalk := none
  /-- the mode a waiting change asks for -/
  modeWait : Option Bool := none
  /-- metadata lines cached, by channel -/
  cached : Tbl (List Nat) := []
  warm : List Nat := []
deriving DecidableEq, Repr

/-! ### Loader (17) -/

/-- What the loader keeps of the header of the image it reads (R498). -/
structure ImgHdr where
  addr : Nat := 0
  flags : Nat := 0
  ctx : Nat := 0
  region : Nat := 0
  regmask : Nat := 0
  length : Nat := 0
  /-- offset and stored length of sections 0 to 11 -/
  sects : List (Nat × Nat) := []
deriving DecidableEq, Repr

/-- A partial request (R512): path 0 event table, 1 firmware, 2 wake, 3 fall-back. -/
structure PartReq where
  part : Nat
  path : Nat
  entry : Nat := 0
  /-- its region has been woken for it, and which -/
  woken : Bool := false
  region : Nat := 0
  /-- an early wake's request (20 R580): its record waits for the occurrence -/
  early : Bool := false
deriving DecidableEq, Repr

/-- A partial load that runs. -/
structure PartRun where
  req : PartReq
  region : Nat
  mask : Nat
  whole : Bool
  /-- the region was ACTIVE or TEST when it was taken -/
  live : Bool
  /-- its header has passed -/
  header : Bool := false
deriving DecidableEq, Repr

/-- An early wake whose occurrence has not fallen due (20 R580). -/
structure EarlyLoad where
  entry : Nat
  part : Nat
  region : Nat
  mask : Nat := 0
  /-- the load's outcome: status and code -/
  outcome : Option (Nat × Nat) := none
  /-- the occurrence has fallen due -/
  due : Bool := false
deriving DecidableEq, Repr

/-- The loader. -/
structure Loader where
  /-- the cycle of the entry to LOAD, and that of attempt 1's failure -/
  since : Nat := 0
  failed : Option Nat := none
  /-- what the boot record gives: PRIMARY, GOLDEN, JRNLA, JRNLB, log2 of the journal sector -/
  primary : Nat := 0x00100000
  golden : Nat := 0x0C000000
  jrnA : Nat := 0x00020000
  jrnB : Nat := 0x00030000
  jsect : Nat := 16
  hdr : ImgHdr := {}
  /-- the journal has been applied in this LOAD -/
  journalDone : Bool := false
  partDir : Tbl Line := []
  waiting : List PartReq := []
  run : Option PartRun := none
  early : List EarlyLoad := []
  /-- D and K of each engine as the image gives them, poison flags at 65,536 on: region × 32 + engine -/
  engImage : Tbl (Tbl Nat) := []
  /-- START steps: PLLs waited for; engines released -/
  started : Nat := 0
deriving DecidableEq, Repr

/-! ### Scheduler, chip-wide parts (10) -/

/-- The graph table and the trace ring. -/
structure SchedChip where
  /-- 256 entries of 128 bits (10 R292) -/
  graphs : Tbl Line := []
  /-- the trace ring, the record copied by TRC_RD_IDX, records that wait for a stream line and the line on its way -/
  trace : Tbl Line := []
  traceCopy : Line := 0#128
  stream : List Line := []
  line : List Line := []
  lineFail : Bool := false
deriving DecidableEq, Repr

/-! ### Scrubber (18) -/

/-- A frame waiting to be re-fetched from flash (18 R528). -/
structure Refetch where
  region : Nat
  ctx : Nat
  frame : Nat
  /-- its context was active when it was found; every word passed but the CRC failed; the row had its UE mark -/
  active : Bool := false
  crcOnly : Bool := false
  marked : Bool := false
  /-- rewritten for a lift contention (05 R151) -/
  lift : Bool := false
deriving DecidableEq, Repr

/-- What a configuration row keeps (R526), and the spare row + 1 that serves it. -/
structure CfgRow where
  count : Nat := 0
  ue : Bool := false
  spare : Nat := 0
deriving DecidableEq, Repr

/-- The scrubber of a region (18). -/
structure ScrubRgn where
  /-- rows by context × 4,704 + frame -/
  rows : Tbl CfgRow := []
  /-- blocks queued under lift policy LOG: frames to visit as (context, frame) -/
  prio : List (Nat × Nat) := []
  cold : Bool := true
  /-- no slot of the present pass found the region DARK or LOADING -/
  clean : Bool := false
  /-- spare configuration rows taken -/
  taken : List Nat := []
  /-- why the rows of the column in SCR_RTEST are being copied: 1 stand-in, 3 for good -/
  copyWhy : Nat := 0
  /-- columns waiting to go in for good at the next window (R538) -/
  goodNext : Option Nat := none
  /-- bond-link groups with a pending repair, and repaired ones: (block × 5 + group, link) -/
  bonds : List (Nat × Nat) := []
  steered : Tbl Nat := []
  /-- the restart waits for a column copy -/
  restartAfter : Bool := false
  /-- a QUIET window is open -/
  window : Bool := false
  /-- measurements of each monitor, newest first, at most 16 -/
  ages : Tbl (List Nat) := []
deriving DecidableEq, Repr

/-- The scrubber and the rolling test. -/
structure Scrub where
  refetch : List Refetch := []
  rgns : Tbl ScrubRgn := []
  /-- the number of the test in which a unit was last tested, by unit identifier, and the next number -/
  tested : Tbl Nat := []
  testNo : Nat := 1
  /-- the cycle at which each unit was last tested -/
  testedAt : Tbl Nat := []
  runAt : Nat := 0
  /-- units asked for by SCR_TEST -/
  asked : List Nat := []
deriving DecidableEq, Repr

/-! ### Built-in self-test (21) -/

/-- A test or check that runs: its unit and its code of R594 or R601. -/
structure BistRun where
  unit : Nat
  code : Nat
deriving DecidableEq, Repr

/-- The BIST controller. -/
structure Bist where
  runs : List BistRun := []
  /-- the ring of 64 records, which of them have been read, and the copy a read of W0 makes -/
  recs : Tbl Line := []
  unread : List Nat := []
  copy : Line := 0#128
  /-- monitors' comparators taken out: monitor × 2 + comparator -/
  comps : List Nat := []
deriving DecidableEq, Repr

/-! ### Clocks (19) -/

/-- A gate (R559): 0 open, 1 closing, 2 closed. -/
structure Gate where
  unit : Nat
  state : Nat := 1
deriving DecidableEq, Repr

/-- The clock unit. -/
structure Clocks where
  /-- ratios of each source's windows in millionths of the expected ratio, newest first, at most 10 -/
  wins : Tbl (List Nat) := []
  /-- FIO0 and FIO1 disagree: those still to be measured (R552) -/
  disagree : List Nat := []
  /-- sources out for good until the next load -/
  failed : List Nat := []
  gates : List Gate := []
  /-- PLLs that run from ALTREF (R557) -/
  onAlt : List Nat := []
deriving DecidableEq, Repr

/-! ### I/O banks (23) -/

/-- GIO bank supply state: in range since this cycle, by bank. -/
structure Iob where
  since : Tbl Nat := []
  /-- the comparison of the output step has been made -/
  judged : Bool := false
deriving DecidableEq, Repr

/-! ### Repair journal (17) -/

/-- A journal record (R517) without NUMBER and CRC. -/
structure JrnRec where
  unit : Nat
  typ : Nat
  arg : Nat
deriving DecidableEq, Repr

/-- The repair journal. -/
structure Journal where
  /-- the queue of 64 records (R519) -/
  queue : List JrnRec := []
  /-- the records of the sector in use, oldest first, with their numbers -/
  recs : List (Nat × JrnRec) := []
  number : Nat := 0
  /-- a sector is in use; failed writes in each sector -/
  open_ : Bool := false
  badA : Bool := false
  badB : Bool := false
deriving DecidableEq, Repr

/-! ### Check units and mailbox (22) -/

/-- A check-value unit (R606 to R612): the message so far, its packets, the previous alive counter, the copy of R622. -/
structure CrcUnit where
  bytes : List (BitVec 8) := []
  pkts : Nat := 0
  poison : Bool := false
  prev : Option Nat := none
  copy : Option (Nat × Nat × Nat × Nat) := none
deriving DecidableEq, Repr

/-- A mailbox slot (R616). -/
structure MbxSlot where
  /-- 0 EMPTY, 1 FILLING, 2 READY, 3 TAKEN -/
  state : Nat := 0
  lost : Nat := 0
  seq : Nat := 0
  alive : Nat := 0
  length : Nat := 0
  status : Nat := 0
  repeats : Nat := 0
  src : Nat := 0
  port : Nat := 0
  stamp : Nat := 0
  time : Nat := 0
  words : List Line := []
deriving DecidableEq, Repr

/-- A result whose words are still arriving: its stream, its slot (none: discarded), words left. -/
structure MbxOpen where
  src : Nat
  port : Nat
  slot : Option Nat
  left : Nat
deriving DecidableEq, Repr

/-- The result mailbox. -/
structure Mbx where
  slots : Tbl MbxSlot := []
  /-- the slot last allocated -/
  last : Nat := 4095
  opens : List MbxOpen := []
  /-- results lost to overrun since the previous slot allocated -/
  lost : Nat := 0
deriving DecidableEq, Repr

/-! ### Lanes (15) -/

/-- A word in a lane's elastic buffer. -/
structure LaneEntry where
  word : Line
  filler : Bool
deriving DecidableEq, Repr

/-- A lane. STATE of R457: 0 OFF, 1 WAIT_PLL, 2 ACQUIRE, 3 UP, 4 DOWN, 5 SUBST. -/
structure Lane where
  state : Nat := 0
  /-- serves with another slice than its own: 4; the slice it is being switched to -/
  spare : Bool := false
  next : Option Bool := none
  /-- DOWN for good: failing with no spare -/
  lost : Bool := false
  sigdet : Bool := false
  hiber : Bool := false
  code : Nat := 0
  cold : Bool := true
  /-- the codes after the last adaptation steps, newest first, at most 64 -/
  codes : List Nat := []
  elastic : List LaneEntry := []
  /-- the receive packet being filled: its words and its stamp -/
  rx : List Line := []
  rxStamp : Nat := 0
  /-- the transmit FIFO: words and poison -/
  tx : List (Line × Bool) := []
  /-- inside a frame; entries since the last filler; what was last put on the line, none a filler -/
  inFrame : Bool := false
  sinceFill : Nat := 0
  out : Option Line := none
  /-- cycles of the losses of the last second -/
  losses : List Nat := []
  /-- an eye scan runs -/
  scan : Bool := false
deriving DecidableEq, Repr

/-- The lanes: lane l of quad q is q × 4 + l. -/
structure Lanes where
  lanes : Tbl Lane := []
  /-- quads whose PLL has lost or missed lock since it last had it -/
  lostPll : List Nat := []
  /-- quads whose spare slice has been retired -/
  noSpare : List Nat := []
  /-- substitution requests: (lane, 1 failed, 2 stand-in, 3 return) -/
  reqs : List (Nat × Nat) := []
deriving DecidableEq, Repr

/-! ### Supervisor (08, 24) -/

/-- The supervisor pair. -/
structure Supervisor where
  eng : Engine := {}
  /-- SUP_STAT.STATE: 0 in reset, 1 running, 2 stopped by a mismatch, 3 SAFE handler, 4 stopped by the watchdog -/
  stat : Nat := 0
  /-- instructions issued -/
  issued : Nat := 0
  /-- the number of the next system access -/
  nextSys : Nat := 0
  ecc : EccUnit := {}
deriving DecidableEq, Repr

/-! ### The machine -/

/-- Why the block could stop with a fault: nothing of the spec stops it. -/
inductive Fault where
  /-- Raised by no command: every error the spec describes is an effect on the state. Safe. -/
  | none
deriving DecidableEq, Repr

/-- Why a command is refused. -/
inductive Refusal where
  /-- No meaning yet; raised by an arm of `exec`. Safe: no claim about the command can be proved. -/
  | notModelled (mnemonic : String)
  /-- The operands are not well-formed (WellFormed): no instance of the hardware has them. Safe. -/
  | illFormed (mnemonic : String)
deriving DecidableEq, Repr

/-- The whole machine. -/
structure State where
  pending : List Instr := []
  /-- timebase cycles since the last exit from OFF -/
  cyc : Nat := 0
  /-- free values taken so far (the model's own) -/
  freeCount : Nat := 0
  rsp : Rsp := {}
  regs : Tbl Nat := []
  /-- the values the image wrote, for R13 -/
  imgRegs : Tbl Nat := []
  chip : Chip := {}
  log : EventLog := {}
  tb : Timebase := {}
  evt : EventTable := {}
  regions : Tbl Region := []
  kettle : Kettle := {}
  therm : Therm := {}
  clk : Clocks := {}
  xmc : Xmc := {}
  ldr : Loader := {}
  bist : Bist := {}
  iob : Iob := {}
  net : Net := {}
  sched : SchedChip := {}
  plc : Plc := {}
  krl : Krl := {}
  scrub : Scrub := {}
  jrn : Journal := {}
  sup : Supervisor := {}
  lanes : Lanes := {}
  crcs : Tbl CrcUnit := []
  mbx : Mbx := {}
  /-- the bytes of the memory tier: ((region × 50 + physical bank) × 16,640 + word) × 16 + byte; words 16,384 on are
  the spare rows (07) -/
  bankMem : Memory := []
  /-- the syndrome each memory-tier word would read with (13 R389); unlisted: a valid word -/
  bankSyn : Tbl Nat := []
deriving DecidableEq, Repr

/-- Register fields whose Reset is not 0, by key of the register file (address × 32 + lowest bit): SCR_RPROJn.HOURS
0xFFFF_FFFF (18 R543), KRL_STATUS.COLD 1 (14 R443), LNE_ESCAN.NBITS 16 (15 R463). -/
def resetRegs : Tbl Nat :=
  ((List.range 64).map fun n => ((0x2010C + n * 0x10) * 32, 0xFFFFFFFF)) ++
  [(0x7000C * 32 + 30, 1)] ++
  (List.range 48).map fun k => ((0x80130 + k / 4 * 0x1000 + k % 4 * 0x100) * 32 + 8, 16)

/-- The machine right after reset: POR, every register at the value its table gives for PORST_N (00 R13). -/
def State.reset : State := { regs := resetRegs }

end Sys2Proof.Machine
end

