-- ==== Sys2Proof/Machine/RegFields.lean ====
section
/-! DEFINITION. The fields of the register file: one name for each field of each register table of the spec
(chapters 02 to 24), with the address the service map gives it (24 R646, R647) and its bits. -/

namespace Sys2Proof.Machine

/-- SYS_STATE.RELOAD (02 R60): 1 in SAFE: go to LOAD, taken under R667. Ignored in other states. -/
def SYS_STATE_RELOAD : Fld := ⟨0x10, 8, 8⟩
/-- SYS_STATE.DEGRADED (02 R60): RUN-degraded. -/
def SYS_STATE_DEGRADED : Fld := ⟨0x10, 7, 7⟩
/-- SYS_STATE.GOLDEN (02 R60): Golden image running. -/
def SYS_STATE_GOLDEN : Fld := ⟨0x10, 6, 6⟩
/-- SYS_STATE.CHIP (02 R60): Chip state, coded as in CHIP_STATE. -/
def SYS_STATE_CHIP : Fld := ⟨0x10, 2, 0⟩
/-- SYS_SAFE_CAUSE.CAUSE (02 R60): Bit c set: cause c of R47 latched. Clearable only outside SAFE. -/
def SYS_SAFE_CAUSE_CAUSE : Fld := ⟨0x14, 11, 1⟩
/-- SYS_LOG_STATUS.HEAD (02 R60): Index of the next record to be written. -/
def SYS_LOG_STATUS_HEAD : Fld := ⟨0x18, 25, 16⟩
/-- SYS_LOG_STATUS.LOST (02 R60): Records given up unread under R58, saturating; write 0 to clear. -/
def SYS_LOG_STATUS_LOST : Fld := ⟨0x18, 15, 0⟩
/-- SYS_LOG_RD.TAIL (02 R60): Oldest unread record. A write is judged under R58: TAIL moves forward to the written index, or to HEAD when th. -/
def SYS_LOG_RD_TAIL : Fld := ⟨0x1c, 9, 0⟩
/-- SYS_LOG_WD0.DETAIL (02 R665): DETAIL of the next firmware record: [31:0] in WD0, [63:32] in WD1. -/
def SYS_LOG_WD0_DETAIL : Fld := ⟨0x40, 31, 0⟩
/-- SYS_LOG_WD1.DETAIL (02 R665): DETAIL of the next firmware record: [31:0] in WD0, [63:32] in WD1. -/
def SYS_LOG_WD1_DETAIL : Fld := ⟨0x44, 31, 0⟩
/-- SYS_LOG_WUNIT.UNIT (02 R665): Unit identifier (R30) of the next firmware record. -/
def SYS_LOG_WUNIT_UNIT : Fld := ⟨0x48, 23, 0⟩
/-- SYS_LOG_WCMD.GO (02 R665): 1: write the record. -/
def SYS_LOG_WCMD_GO : Fld := ⟨0x4c, 31, 31⟩
/-- SYS_LOG_WCMD.REFUSED (02 R665): A GO write named a CODE outside 0xF000–0xFFFF. -/
def SYS_LOG_WCMD_REFUSED : Fld := ⟨0x4c, 30, 30⟩
/-- SYS_LOG_WCMD.CLASS (02 R665): CLASS of the record. -/
def SYS_LOG_WCMD_CLASS : Fld := ⟨0x4c, 23, 20⟩
/-- SYS_LOG_WCMD.STATUS (02 R665): STATUS of the record (R17). -/
def SYS_LOG_WCMD_STATUS : Fld := ⟨0x4c, 19, 16⟩
/-- SYS_LOG_WCMD.CODE (02 R665): CODE, 0xF000–0xFFFF. -/
def SYS_LOG_WCMD_CODE : Fld := ⟨0x4c, 15, 0⟩
/-- SYS_CFG.SAFEALERT (02 R63): 1: SVC_IRQ_N is driven low in SAFE and HALT (R53). -/
def SYS_CFG_SAFEALERT : Fld := ⟨0x30, 0, 0⟩
/-- SYS_WDOG.BADKICK (02 R63): Writes to SYS_WDKICK not taken under R61, saturating. -/
def SYS_WDOG_BADKICK : Fld := ⟨0x34, 31, 24⟩
/-- SYS_WDOG.PERIOD (02 R63): Chip watchdog period in ms; 0 off. -/
def SYS_WDOG_PERIOD : Fld := ⟨0x34, 15, 0⟩
/-- SYS_WDKICK.KEY (02 R63): 0xC35A written by firmware restarts the chip watchdog. -/
def SYS_WDKICK_KEY : Fld := ⟨0x38, 15, 0⟩
/-- RGN_WDOG.CMPKICK of instance n (02 R63): Completion records of class Done restart the count. -/
def RGN_WDOG_CMPKICK (n : Nat) : Fld := ⟨0x1000010 + n * 0x40000, 31, 31⟩
/-- RGN_WDOG.BADKICK of instance n (02 R63): Writes to RGN_WDKICK not taken, saturating; write 0 to clear. -/
def RGN_WDOG_BADKICK (n : Nat) : Fld := ⟨0x1000010 + n * 0x40000, 30, 24⟩
/-- RGN_WDOG.PERIOD of instance n (02 R63): Region watchdog period in µs; 0 off. -/
def RGN_WDOG_PERIOD (n : Nat) : Fld := ⟨0x1000010 + n * 0x40000, 15, 0⟩
/-- RGN_WDKICK.KEY of instance n (02 R63): 0xC35A written by firmware restarts the region watchdog. -/
def RGN_WDKICK_KEY (n : Nat) : Fld := ⟨0x1000014 + n * 0x40000, 15, 0⟩
/-- PTB_CTRL.BSRC (03 R106): Backup source: 0 none, 1–4 ENC0–ENC3. -/
def PTB_CTRL_BSRC : Fld := ⟨0x60000, 10, 8⟩
/-- PTB_CTRL.SRC (03 R106): 0–3 ENC0–ENC3, 4 REEL, 5 SIM. -/
def PTB_CTRL_SRC : Fld := ⟨0x60000, 6, 4⟩
/-- PTB_STATUS.BUSSTALE (03 R106): A region reader took no value for 8 periods. -/
def PTB_STATUS_BUSSTALE : Fld := ⟨0x60004, 11, 11⟩
/-- PTB_STATUS.REFUSED (03 R106): A write refused under R105. -/
def PTB_STATUS_REFUSED : Fld := ⟨0x60004, 10, 10⟩
/-- PTB_STATUS.SRCFAULT (03 R106): The port in use as source (SRCACT) has a wire fault on A or B (R83). -/
def PTB_STATUS_SRCFAULT : Fld := ⟨0x60004, 9, 9⟩
/-- PTB_STATUS.SRCACT (03 R106): Source in use, coded as SRC. -/
def PTB_STATUS_SRCACT : Fld := ⟨0x60004, 6, 4⟩
/-- PTB_STATUS.DIR (03 R106): 0 FORWARD, 1 REVERSE. -/
def PTB_STATUS_DIR : Fld := ⟨0x60004, 2, 2⟩
/-- PTB_STATUS.STILL (03 R106): Cold through timeout, or not yet moved. -/
def PTB_STATUS_STILL : Fld := ⟨0x60004, 1, 1⟩
/-- PTB_STATUS.COLD (03 R106): Interpolator COLD. -/
def PTB_STATUS_COLD : Fld := ⟨0x60004, 0, 0⟩
/-- PTB_POS_LO.INT_LO (03 R106): Integer [31:0]; the read takes the copy of R106. -/
def PTB_POS_LO_INT_LO : Fld := ⟨0x60010, 31, 0⟩
/-- PTB_POS_HI.INT_HI (03 R106): Integer [63:32] from the copy. -/
def PTB_POS_HI_INT_HI : Fld := ⟨0x60014, 31, 0⟩
/-- PTB_POS_FRAC.FRAC (03 R106): Fraction from the copy. -/
def PTB_POS_FRAC_FRAC : Fld := ⟨0x60018, 15, 0⟩
/-- PTB_VEL.VEL (03 R106): Signed velocity per R90, from the copy. -/
def PTB_VEL_VEL : Fld := ⟨0x6001c, 31, 0⟩
/-- PTB_PRED.PRED (03 R106): Prediction L in timebase cycles, 0–15,000. -/
def PTB_PRED_PRED : Fld := ⟨0x60020, 13, 0⟩
/-- PTB_INTERP.WIN (03 R106): Window 1, 2, 4, 8, 16 for codes 0–4. -/
def PTB_INTERP_WIN : Fld := ⟨0x60024, 18, 16⟩
/-- PTB_INTERP.TIMEOUT (03 R106): Timeout in µs, 1–65,535. -/
def PTB_INTERP_TIMEOUT : Fld := ⟨0x60024, 15, 0⟩
/-- PTB_BUS.PERIOD (03 R106): Bus update period in timebase cycles, 8–64; Claler accepts 20–64 (R100). -/
def PTB_BUS_PERIOD : Fld := ⟨0x60028, 6, 0⟩
/-- PTB_INIT_LO.INIT (03 R106): Initial integer, [31:0] in LO and [63:32] in HI. -/
def PTB_INIT_LO_INIT : Fld := ⟨0x60030, 31, 0⟩
/-- PTB_INIT_HI.INIT (03 R106): Initial integer, [31:0] in LO and [63:32] in HI. -/
def PTB_INIT_HI_INIT : Fld := ⟨0x60034, 31, 0⟩
/-- PTB_SIM_VEL.SIMVEL (03 R106): Signed SIM velocity, units of R90; writable in RUN. -/
def PTB_SIM_VEL_SIMVEL : Fld := ⟨0x60038, 31, 0⟩
/-- PTB_ENCk_CFG.ZQUAL of instance k (03 R106): Accept Z only with A = B = 1. -/
def PTB_ENC_CFG_ZQUAL (k : Nat) : Fld := ⟨0x60100 + k * 0x40, 7, 7⟩
/-- PTB_ENCk_CFG.INDEX of instance k (03 R106): 0 off, 1 latch, 2 check, 3 reserved. -/
def PTB_ENC_CFG_INDEX (k : Nat) : Fld := ⟨0x60100 + k * 0x40, 6, 5⟩
/-- PTB_ENCk_CFG.TERM of instance k (03 R106): Receiver termination on. -/
def PTB_ENC_CFG_TERM (k : Nat) : Fld := ⟨0x60100 + k * 0x40, 4, 4⟩
/-- PTB_ENCk_CFG.DIRINV of instance k (03 R106): Negate counted changes. -/
def PTB_ENC_CFG_DIRINV (k : Nat) : Fld := ⟨0x60100 + k * 0x40, 3, 3⟩
/-- PTB_ENCk_CFG.MODE of instance k (03 R106): Counting mode per R71. -/
def PTB_ENC_CFG_MODE (k : Nat) : Fld := ⟨0x60100 + k * 0x40, 2, 0⟩
/-- PTB_ENCk_FILT.DIV of instance k (03 R106): Base clock 1.5 GHz / 2^DIV. -/
def PTB_ENC_FILT_DIV (k : Nat) : Fld := ⟨0x60104 + k * 0x40, 10, 8⟩
/-- PTB_ENCk_FILT.FILT of instance k (03 R106): Filter length in base-clock cycles. -/
def PTB_ENC_FILT_FILT (k : Nat) : Fld := ⟨0x60104 + k * 0x40, 7, 0⟩
/-- PTB_ENCk_CNT_LO.CNT of instance k (03 R106): Port count, [31:0] in LO and [63:32] in HI. -/
def PTB_ENC_CNT_LO_CNT (k : Nat) : Fld := ⟨0x60108 + k * 0x40, 31, 0⟩
/-- PTB_ENCk_CNT_HI.CNT of instance k (03 R106): Port count, [31:0] in LO and [63:32] in HI. -/
def PTB_ENC_CNT_HI_CNT (k : Nat) : Fld := ⟨0x6010c + k * 0x40, 31, 0⟩
/-- PTB_ENCk_ZLAT_LO.ZLAT of instance k (03 R106): Port count at the last accepted Z, [31:0] in LO and [63:32] in HI. -/
def PTB_ENC_ZLAT_LO_ZLAT (k : Nat) : Fld := ⟨0x60110 + k * 0x40, 31, 0⟩
/-- PTB_ENCk_ZLAT_HI.ZLAT of instance k (03 R106): Port count at the last accepted Z, [31:0] in LO and [63:32] in HI. -/
def PTB_ENC_ZLAT_HI_ZLAT (k : Nat) : Fld := ⟨0x60114 + k * 0x40, 31, 0⟩
/-- PTB_ENCk_ZCHK.PERREV of instance k (03 R106): Expected counts between Z edges. -/
def PTB_ENC_ZCHK_PERREV (k : Nat) : Fld := ⟨0x60118 + k * 0x40, 31, 0⟩
/-- PTB_ENCk_ERR.GLITCH of instance k (03 R106): Pulses discarded by the filter, saturating. -/
def PTB_ENC_ERR_GLITCH (k : Nat) : Fld := ⟨0x6011c + k * 0x40, 31, 16⟩
/-- PTB_ENCk_ERR.QERR of instance k (03 R106): Quadrature errors, saturating. -/
def PTB_ENC_ERR_QERR (k : Nat) : Fld := ⟨0x6011c + k * 0x40, 15, 8⟩
/-- PTB_ENCk_ERR.ZERR of instance k (03 R106): Index mismatches, saturating. -/
def PTB_ENC_ERR_ZERR (k : Nat) : Fld := ⟨0x6011c + k * 0x40, 7, 0⟩
/-- PTB_ENCk_STAT.CLR of instance k (03 R106): 1 clears all fields of PTB_ENCk_ERR. -/
def PTB_ENC_STAT_CLR (k : Nat) : Fld := ⟨0x60120 + k * 0x40, 4, 4⟩
/-- PTB_ENCk_STAT.WIRE of instance k (03 R106): Wire fault present on A, B or Z. -/
def PTB_ENC_STAT_WIRE (k : Nat) : Fld := ⟨0x60120 + k * 0x40, 3, 3⟩
/-- PTB_ENCk_STAT.Z of instance k (03 R106): Filtered Z level. -/
def PTB_ENC_STAT_Z (k : Nat) : Fld := ⟨0x60120 + k * 0x40, 2, 2⟩
/-- PTB_ENCk_STAT.B of instance k (03 R106): Filtered B level. -/
def PTB_ENC_STAT_B (k : Nat) : Fld := ⟨0x60120 + k * 0x40, 1, 1⟩
/-- PTB_ENCk_STAT.A of instance k (03 R106): Filtered A level. -/
def PTB_ENC_STAT_A (k : Nat) : Fld := ⟨0x60120 + k * 0x40, 0, 0⟩
/-- EVT_CTRL.IRQLVL (04 R135): FIFO level that asserts the interrupt, 1–64. -/
def EVT_CTRL_IRQLVL : Fld := ⟨0x60800, 14, 8⟩
/-- EVT_CTRL.MRUN (04 R135): Matcher running. -/
def EVT_CTRL_MRUN : Fld := ⟨0x60800, 0, 0⟩
/-- EVT_STATUS.MISSIRQ (04 R135): A MISSED occurrence of an entry with MISSIRQ = 1. -/
def EVT_STATUS_MISSIRQ : Fld := ⟨0x60804, 5, 5⟩
/-- EVT_STATUS.IRQFULL (04 R135): An IRQ occurrence found the FIFO full. -/
def EVT_STATUS_IRQFULL : Fld := ⟨0x60804, 4, 4⟩
/-- EVT_STATUS.PENDFULL (04 R135): An occurrence closed MISSED under R120. -/
def EVT_STATUS_PENDFULL : Fld := ⟨0x60804, 3, 3⟩
/-- EVT_STATUS.OVERRUN (04 R135): Window overrun under R115. -/
def EVT_STATUS_OVERRUN : Fld := ⟨0x60804, 2, 2⟩
/-- EVT_STATUS.REFUSED (04 R135): Table write refused under R129 or R130. -/
def EVT_STATUS_REFUSED : Fld := ⟨0x60804, 1, 1⟩
/-- EVT_STATUS.CARRY (04 R135): An occurrence waited under R121. -/
def EVT_STATUS_CARRY : Fld := ⟨0x60804, 0, 0⟩
/-- EVT_CNT_FIRED.COUNT (04 R135): Outcomes of the kind, modulo 2^32. -/
def EVT_CNT_FIRED_COUNT : Fld := ⟨0x60810, 31, 0⟩
/-- EVT_CNT_LATE.COUNT (04 R135): Outcomes of the kind, modulo 2^32. -/
def EVT_CNT_LATE_COUNT : Fld := ⟨0x60814, 31, 0⟩
/-- EVT_CNT_MISSED.COUNT (04 R135): Outcomes of the kind, modulo 2^32. -/
def EVT_CNT_MISSED_COUNT : Fld := ⟨0x60818, 31, 0⟩
/-- EVT_PEND.PEND (04 R135): Pending occurrences, 0–256. -/
def EVT_PEND_PEND : Fld := ⟨0x6081c, 8, 0⟩
/-- EVT_IRQ_POP.VALID (04 R135): 1: a record was removed by this read. -/
def EVT_IRQ_POP_VALID : Fld := ⟨0x60830, 31, 31⟩
/-- EVT_IRQ_POP.LATE (04 R135): The occurrence was LATE. -/
def EVT_IRQ_POP_LATE : Fld := ⟨0x60830, 30, 30⟩
/-- EVT_IRQ_POP.INDEX (04 R135): Entry index. -/
def EVT_IRQ_POP_INDEX : Fld := ⟨0x60830, 14, 0⟩
/-- EVT_IRQ_PARAM.PARAM (04 R135): PARAM of the removed record. -/
def EVT_IRQ_PARAM_PARAM : Fld := ⟨0x60834, 31, 0⟩
/-- EVT_IRQ_STAMP_LO.STAMP (04 R135): Stamp of x_n: bits [31:0] in LO; bits [55:32] in HI [23:0], with HI [31:24] reserved. -/
def EVT_IRQ_STAMP_LO_STAMP : Fld := ⟨0x60838, 31, 0⟩
/-- EVT_IRQ_STAMP_HI.STAMP (04 R135): Stamp of x_n: bits [31:0] in LO; bits [55:32] in HI [23:0], with HI [31:24] reserved. -/
def EVT_IRQ_STAMP_HI_STAMP : Fld := ⟨0x6083c, 31, 0⟩
/-- EVT_EVO_LEVEL.LEVEL (04 R135): Bit n: logical level of EVOn, 1 active. -/
def EVT_EVO_LEVEL_LEVEL : Fld := ⟨0x60840, 31, 0⟩
/-- EVT_EVOn_CFG.OWNER of instance n (04 R135): 0–63 region, 64 chip; 65–127 reserved. -/
def EVT_EVO_CFG_OWNER (n : Nat) : Fld := ⟨0x60900 + n * 0x4, 30, 24⟩
/-- EVT_EVOn_CFG.POL of instance n (04 R135): 0 active high, 1 active low. -/
def EVT_EVO_CFG_POL (n : Nat) : Fld := ⟨0x60900 + n * 0x4, 20, 20⟩
/-- EVT_EVOn_CFG.TRIM of instance n (04 R135): Edge delay in steps of 55.6 ps. -/
def EVT_EVO_CFG_TRIM (n : Nat) : Fld := ⟨0x60900 + n * 0x4, 19, 0⟩
/-- RGN_FAB_CFG.LIFTPOL of instance n (05 R165): Contention policy: 0 LOG, 1 FENCE. -/
def RGN_FAB_CFG_LIFTPOL (n : Nat) : Fld := ⟨0x1000100 + n * 0x40000, 0, 0⟩
/-- RGN_LIFT_CNT.COUNT of instance n (05 R165): Contentions, saturating; write 0 to clear. -/
def RGN_LIFT_CNT_COUNT (n : Nat) : Fld := ⟨0x1000104 + n * 0x40000, 31, 0⟩
/-- RGN_LIFT_LAST.WIRE of instance n (05 R165): Lift wire of the last contention. -/
def RGN_LIFT_LAST_WIRE (n : Nat) : Fld := ⟨0x1000108 + n * 0x40000, 31, 27⟩
/-- RGN_LIFT_LAST.CTX of instance n (05 R165): Active context at that contention. -/
def RGN_LIFT_LAST_CTX (n : Nat) : Fld := ⟨0x1000108 + n * 0x40000, 26, 24⟩
/-- RGN_LIFT_LAST.BLOCK of instance n (05 R165): Block INDEX of R31, 0–2,351. -/
def RGN_LIFT_LAST_BLOCK (n : Nat) : Fld := ⟨0x1000108 + n * 0x40000, 23, 12⟩
/-- RGN_LIFT_LAST.TIER of instance n (05 R165): Tier of the enabled driver: 0 T1, 1 T2; 0 when BOTH is 1. -/
def RGN_LIFT_LAST_TIER (n : Nat) : Fld := ⟨0x1000108 + n * 0x40000, 11, 11⟩
/-- RGN_LIFT_LAST.NONE of instance n (05 R165): No driver was enabled. -/
def RGN_LIFT_LAST_NONE (n : Nat) : Fld := ⟨0x1000108 + n * 0x40000, 10, 10⟩
/-- RGN_LIFT_LAST.BOTH of instance n (05 R165): Both drivers were enabled (R150). -/
def RGN_LIFT_LAST_BOTH (n : Nat) : Fld := ⟨0x1000108 + n * 0x40000, 9, 9⟩
/-- RGN_LIFT_LAST.VALID of instance n (05 R165): Fields hold a contention; write 0 to clear. -/
def RGN_LIFT_LAST_VALID (n : Nat) : Fld := ⟨0x1000108 + n * 0x40000, 0, 0⟩
/-- RGN_PORT_STAT.DROP of instance n (05 R165): A network stream port received a drop notice. -/
def RGN_PORT_STAT_DROP (n : Nat) : Fld := ⟨0x100010c + n * 0x40000, 2, 2⟩
/-- RGN_PORT_STAT.REBIND of instance n (05 R165): An engine stream port was rebound under R161. -/
def RGN_PORT_STAT_REBIND (n : Nat) : Fld := ⟨0x100010c + n * 0x40000, 1, 1⟩
/-- RGN_PORT_STAT.OWNER of instance n (05 R165): A bank port received an OWNER response. -/
def RGN_PORT_STAT_OWNER (n : Nat) : Fld := ⟨0x100010c + n * 0x40000, 0, 0⟩
/-- CTX_CFG.FABMASK of instance n (06 R186): Bit k = 1: the fabric may request context k. -/
def CTX_CFG_FABMASK (n : Nat) : Fld := ⟨0x1004000 + n * 0x40000, 31, 24⟩
/-- CTX_CFG.GUARDMAX of instance n (06 R186): Guard limit in region cycles, 1–65,535. -/
def CTX_CFG_GUARDMAX (n : Nat) : Fld := ⟨0x1004000 + n * 0x40000, 23, 8⟩
/-- CTX_CFG.LOGSW of instance n (06 R186): Log every switch as CTX_SWITCH. -/
def CTX_CFG_LOGSW (n : Nat) : Fld := ⟨0x1004000 + n * 0x40000, 5, 5⟩
/-- CTX_CFG.GUARD of instance n (06 R186): Hold switches under R175. -/
def CTX_CFG_GUARD (n : Nat) : Fld := ⟨0x1004000 + n * 0x40000, 4, 4⟩
/-- CTX_CFG.RSTCTX of instance n (06 R186): Context selected at region restart. -/
def CTX_CFG_RSTCTX (n : Nat) : Fld := ⟨0x1004000 + n * 0x40000, 2, 0⟩
/-- CTX_STATUS.GUARDTO of instance n (06 R186): A switch proceeded after GUARDMAX. -/
def CTX_STATUS_GUARDTO (n : Nat) : Fld := ⟨0x1004004 + n * 0x40000, 26, 26⟩
/-- CTX_STATUS.SUPERSEDED of instance n (06 R186): A request was superseded. -/
def CTX_STATUS_SUPERSEDED (n : Nat) : Fld := ⟨0x1004004 + n * 0x40000, 25, 25⟩
/-- CTX_STATUS.REFUSED of instance n (06 R186): A request was refused. -/
def CTX_STATUS_REFUSED (n : Nat) : Fld := ⟨0x1004004 + n * 0x40000, 24, 24⟩
/-- CTX_STATUS.LOADING of instance n (06 R186): Bit k: a partial load is writing context k. -/
def CTX_STATUS_LOADING (n : Nat) : Fld := ⟨0x1004004 + n * 0x40000, 23, 16⟩
/-- CTX_STATUS.LOADED of instance n (06 R186): Bit k: context k is loaded. -/
def CTX_STATUS_LOADED (n : Nat) : Fld := ⟨0x1004004 + n * 0x40000, 15, 8⟩
/-- CTX_STATUS.HELD of instance n (06 R186): A request is held under R175 or R178. -/
def CTX_STATUS_HELD (n : Nat) : Fld := ⟨0x1004004 + n * 0x40000, 7, 7⟩
/-- CTX_STATUS.PENDCTX of instance n (06 R186): Context of the held or pending request. -/
def CTX_STATUS_PENDCTX (n : Nat) : Fld := ⟨0x1004004 + n * 0x40000, 6, 4⟩
/-- CTX_STATUS.PEND of instance n (06 R186): A supervisor request is held. -/
def CTX_STATUS_PEND (n : Nat) : Fld := ⟨0x1004004 + n * 0x40000, 3, 3⟩
/-- CTX_STATUS.ACTIVE of instance n (06 R186): Active context. -/
def CTX_STATUS_ACTIVE (n : Nat) : Fld := ⟨0x1004004 + n * 0x40000, 2, 0⟩
/-- CTX_REQ.GO of instance n (06 R186): 1: request a switch to CTX. -/
def CTX_REQ_GO (n : Nat) : Fld := ⟨0x1004008 + n * 0x40000, 31, 31⟩
/-- CTX_REQ.CTX of instance n (06 R186): Requested context. -/
def CTX_REQ_CTX (n : Nat) : Fld := ⟨0x1004008 + n * 0x40000, 2, 0⟩
/-- CTX_SWCNT.COUNT of instance n (06 R186): Switches made, modulo 2^32; write 0 to clear. -/
def CTX_SWCNT_COUNT (n : Nat) : Fld := ⟨0x100400c + n * 0x40000, 31, 0⟩
/-- CTX_REFCNT.SUPER of instance n (06 R186): Superseded requests, saturating; write 0 to clear. -/
def CTX_REFCNT_SUPER (n : Nat) : Fld := ⟨0x1004010 + n * 0x40000, 31, 16⟩
/-- CTX_REFCNT.REFUSED of instance n (06 R186): Refused requests, saturating; write 0 to clear. -/
def CTX_REFCNT_REFUSED (n : Nat) : Fld := ⟨0x1004010 + n * 0x40000, 15, 0⟩
/-- CTX_DISCARD.STREAM of instance n (06 R186): Open stream packets discarded under R174, saturating. -/
def CTX_DISCARD_STREAM (n : Nat) : Fld := ⟨0x1004014 + n * 0x40000, 31, 16⟩
/-- CTX_DISCARD.BANK of instance n (06 R186): Bank responses discarded under R174, saturating. -/
def CTX_DISCARD_BANK (n : Nat) : Fld := ⟨0x1004014 + n * 0x40000, 15, 0⟩
/-- CTX_LAST.SRC of instance n (06 R186): Path of the last switch: 0 event table, 1 supervisor, 2 fabric, 3 restart. -/
def CTX_LAST_SRC (n : Nat) : Fld := ⟨0x1004018 + n * 0x40000, 31, 30⟩
/-- CTX_LAST.FROM of instance n (06 R186): Old context. -/
def CTX_LAST_FROM (n : Nat) : Fld := ⟨0x1004018 + n * 0x40000, 29, 27⟩
/-- CTX_LAST.TO of instance n (06 R186): New context. -/
def CTX_LAST_TO (n : Nat) : Fld := ⟨0x1004018 + n * 0x40000, 26, 24⟩
/-- CTX_LAST_STAMP_LO.STAMP of instance n (06 R186): Stamp at the last switching edge: bits [31:0] in LO; bits [55:32] in HI [23:0], with HI [31:24] reserved. -/
def CTX_LAST_STAMP_LO_STAMP (n : Nat) : Fld := ⟨0x100401c + n * 0x40000, 31, 0⟩
/-- CTX_LAST_STAMP_HI.STAMP of instance n (06 R186): Stamp at the last switching edge: bits [31:0] in LO; bits [55:32] in HI [23:0], with HI [31:24] reserved. -/
def CTX_LAST_STAMP_HI_STAMP (n : Nat) : Fld := ⟨0x1004020 + n * 0x40000, 31, 0⟩
/-- CTX_PUSE_LOk.BANK of instance n, k (06 R186): Bit b: context k uses bank port b, 0–31. -/
def CTX_PUSE_LO_BANK (n : Nat) (k : Nat) : Fld := ⟨0x1004040 + n * 0x40000 + k * 0x8, 31, 0⟩
/-- CTX_PUSE_HIk.STREAM of instance n, k (06 R186): Bit s: context k uses network stream port s. -/
def CTX_PUSE_HI_STREAM (n : Nat) (k : Nat) : Fld := ⟨0x1004044 + n * 0x40000 + k * 0x8, 23, 16⟩
/-- CTX_PUSE_HIk.BANK of instance n, k (06 R186): Bit b − 32: context k uses bank port b, 32–47. -/
def CTX_PUSE_HI_BANK (n : Nat) (k : Nat) : Fld := ⟨0x1004044 + n * 0x40000 + k * 0x8, 15, 0⟩
/-- MEM_CTRL.STEALMAX of instance n (07 R211): Steal wait limit in memory-tier cycles, 64–65,535. -/
def MEM_CTRL_STEALMAX (n : Nat) : Fld := ⟨0x100c000 + n * 0x40000, 31, 16⟩
/-- MEM_CTRL.LOGHO of instance n (07 R211): Log every handover as MEM_HANDOVER. -/
def MEM_CTRL_LOGHO (n : Nat) : Fld := ⟨0x100c000 + n * 0x40000, 0, 0⟩
/-- MEM_STATUS.STEALFULL of instance n (07 R211): A stealing request found the steal queue full. -/
def MEM_STATUS_STEALFULL (n : Nat) : Fld := ⟨0x100c004 + n * 0x40000, 3, 3⟩
/-- MEM_STATUS.STEALTO of instance n (07 R211): A stealing request reached STEALMAX. -/
def MEM_STATUS_STEALTO (n : Nat) : Fld := ⟨0x100c004 + n * 0x40000, 2, 2⟩
/-- MEM_STATUS.REFUSED of instance n (07 R211): A write to MEM_BANK_OWNb was refused. -/
def MEM_STATUS_REFUSED (n : Nat) : Fld := ⟨0x100c004 + n * 0x40000, 1, 1⟩
/-- MEM_STATUS.OWNERRSP of instance n (07 R211): A request was answered OWNER. -/
def MEM_STATUS_OWNERRSP (n : Nat) : Fld := ⟨0x100c004 + n * 0x40000, 0, 0⟩
/-- MEM_COPY.STATE of instance n (07 R211): 0 idle, 1 copying, 2 mirroring, 3 reserved. -/
def MEM_COPY_STATE (n : Nat) : Fld := ⟨0x100c010 + n * 0x40000, 31, 30⟩
/-- MEM_COPY.SRC of instance n (07 R211): Source physical bank. -/
def MEM_COPY_SRC (n : Nat) : Fld := ⟨0x100c010 + n * 0x40000, 29, 24⟩
/-- MEM_COPY.DST of instance n (07 R211): Destination physical bank. -/
def MEM_COPY_DST (n : Nat) : Fld := ⟨0x100c010 + n * 0x40000, 23, 18⟩
/-- MEM_COPY.WORDS of instance n (07 R211): Words copied, 0–16,384. -/
def MEM_COPY_WORDS (n : Nat) : Fld := ⟨0x100c010 + n * 0x40000, 14, 0⟩
/-- MEM_ROWCOPY.ACTIVE of instance n (07 R211): A row copy is running. -/
def MEM_ROWCOPY_ACTIVE (n : Nat) : Fld := ⟨0x100c014 + n * 0x40000, 31, 31⟩
/-- MEM_ROWCOPY.QUEUED of instance n (07 R211): Remaps waiting, 0–4, in the bank named by BANK. -/
def MEM_ROWCOPY_QUEUED (n : Nat) : Fld := ⟨0x100c014 + n * 0x40000, 30, 28⟩
/-- MEM_ROWCOPY.BANK of instance n (07 R211): Physical bank of the running copy. -/
def MEM_ROWCOPY_BANK (n : Nat) : Fld := ⟨0x100c014 + n * 0x40000, 27, 22⟩
/-- MEM_ROWCOPY.ROW of instance n (07 R211): Row being copied. -/
def MEM_ROWCOPY_ROW (n : Nat) : Fld := ⟨0x100c014 + n * 0x40000, 21, 12⟩
/-- MEM_ROWCOPY.WORDS of instance n (07 R211): Words copied, 0–16. -/
def MEM_ROWCOPY_WORDS (n : Nat) : Fld := ⟨0x100c014 + n * 0x40000, 4, 0⟩
/-- MEM_CNT_OWNER.COUNT of instance n (07 R211): Requests answered OWNER, saturating; write 0 to clear. -/
def MEM_CNT_OWNER_COUNT (n : Nat) : Fld := ⟨0x100c020 + n * 0x40000, 31, 0⟩
/-- MEM_CNT_STEAL.COUNT of instance n (07 R211): Stealing requests served, modulo 2^32; write 0 to clear. -/
def MEM_CNT_STEAL_COUNT (n : Nat) : Fld := ⟨0x100c024 + n * 0x40000, 31, 0⟩
/-- MEM_CNT_HO.STEALTO of instance n (07 R211): Steal timeouts, saturating; write 0 to clear. -/
def MEM_CNT_HO_STEALTO (n : Nat) : Fld := ⟨0x100c028 + n * 0x40000, 31, 16⟩
/-- MEM_CNT_HO.HANDOVERS of instance n (07 R211): Handovers started, modulo 65,536; write 0 to clear. -/
def MEM_CNT_HO_HANDOVERS (n : Nat) : Fld := ⟨0x100c028 + n * 0x40000, 15, 0⟩
/-- MEM_BANK_OWNb.PHYS of instance n, b (07 R211): Physical bank serving logical bank b, 0–49; 63 retired without replacement. -/
def MEM_BANK_OWN_PHYS (n : Nat) (b : Nat) : Fld := ⟨0x100c100 + n * 0x40000 + b * 0x4, 31, 26⟩
/-- MEM_BANK_OWNb.BUSY of instance n, b (07 R211): Handover in progress. -/
def MEM_BANK_OWN_BUSY (n : Nat) (b : Nat) : Fld := ⟨0x100c100 + n * 0x40000 + b * 0x4, 13, 13⟩
/-- MEM_BANK_OWNb.PLC of instance n, b (07 R211): 1: ownership managed by the placement engine. -/
def MEM_BANK_OWN_PLC (n : Nat) (b : Nat) : Fld := ⟨0x100c100 + n * 0x40000 + b * 0x4, 12, 12⟩
/-- MEM_BANK_OWNb.STEAL of instance n, b (07 R211): Network requests may steal idle cycles. -/
def MEM_BANK_OWN_STEAL (n : Nat) (b : Nat) : Fld := ⟨0x100c100 + n * 0x40000 + b * 0x4, 11, 11⟩
/-- MEM_BANK_OWNb.ENG of instance n, b (07 R211): Owner engine, 0–24, with OWNER = 2. -/
def MEM_BANK_OWN_ENG (n : Nat) (b : Nat) : Fld := ⟨0x100c100 + n * 0x40000 + b * 0x4, 8, 4⟩
/-- MEM_BANK_OWNb.OWNER of instance n, b (07 R211): Owner per R191. -/
def MEM_BANK_OWN_OWNER (n : Nat) (b : Nat) : Fld := ⟨0x100c100 + n * 0x40000 + b * 0x4, 2, 0⟩
/-- MEM_ROWUSEp.LASTROW of instance n, p (07 R211): Row of the most recent remap in physical bank p. -/
def MEM_ROWUSE_LASTROW (n : Nat) (p : Nat) : Fld := ⟨0x100c200 + n * 0x40000 + p * 0x4, 25, 16⟩
/-- MEM_ROWUSEp.USED of instance n, p (07 R211): Spare rows in use, 0–16, journal repairs included. -/
def MEM_ROWUSE_USED (n : Nat) (p : Nat) : Fld := ⟨0x100c200 + n * 0x40000 + p * 0x4, 4, 0⟩
/-- ENG_CTRL.IMASK of instance n, e (08 R250): Bit s = 1: source s enabled. -/
def ENG_CTRL_IMASK (n : Nat) (e : Nat) : Fld := ⟨0x1010000 + n * 0x40000 + e * 0x800, 23, 16⟩
/-- ENG_CTRL.STOP of instance n, e (08 R250): 1: stop at the next instruction boundary; 0: resume. -/
def ENG_CTRL_STOP (n : Nat) (e : Nat) : Fld := ⟨0x1010000 + n * 0x40000 + e * 0x800, 0, 0⟩
/-- ENG_STAT.STATE of instance n, e (08 R250): 0 WAIT, 1 RUN, 2 STOP, 3 HALTED, 4 TEST, 5 RETIRED. -/
def ENG_STAT_STATE (n : Nat) (e : Nat) : Fld := ⟨0x1010004 + n * 0x40000 + e * 0x800, 31, 29⟩
/-- ENG_STAT.SH of instance n, e (08 R250): Shadow set in use. -/
def ENG_STAT_SH (n : Nat) (e : Nat) : Fld := ⟨0x1010004 + n * 0x40000 + e * 0x800, 28, 28⟩
/-- ENG_STAT.PC of instance n, e (08 R250): PC of the next instruction to issue. -/
def ENG_STAT_PC (n : Nat) (e : Nat) : Fld := ⟨0x1010004 + n * 0x40000 + e * 0x800, 27, 16⟩
/-- ENG_STAT.IPEND of instance n, e (08 R250): Bit s: source s pending. -/
def ENG_STAT_IPEND (n : Nat) (e : Nat) : Fld := ⟨0x1010004 + n * 0x40000 + e * 0x800, 15, 8⟩
/-- ENG_STAT.REFUSED of instance n, e (08 R250): An indirect write was refused. -/
def ENG_STAT_REFUSED (n : Nat) (e : Nat) : Fld := ⟨0x1010004 + n * 0x40000 + e * 0x800, 5, 5⟩
/-- ENG_STAT.OUTST of instance n, e (08 R250): Window requests outstanding, 0–16. -/
def ENG_STAT_OUTST (n : Nat) (e : Nat) : Fld := ⟨0x1010004 + n * 0x40000 + e * 0x800, 4, 0⟩
/-- ENG_STAT2.PSN of instance n, e (08 R250): Consumptions, saturating; write 0 to clear. -/
def ENG_STAT2_PSN (n : Nat) (e : Nat) : Fld := ⟨0x1010008 + n * 0x40000 + e * 0x800, 31, 16⟩
/-- ENG_STAT2.BERR of instance n, e (08 R250): Bank-access errors, saturating; write 0 to clear. -/
def ENG_STAT2_BERR (n : Nat) (e : Nat) : Fld := ⟨0x1010008 + n * 0x40000 + e * 0x800, 15, 4⟩
/-- ENG_STAT2.DSLOT of instance n, e (08 R250): Ignored transfers in delay slots, saturating; write 0 to clear. -/
def ENG_STAT2_DSLOT (n : Nat) (e : Nat) : Fld := ⟨0x1010008 + n * 0x40000 + e * 0x800, 3, 0⟩
/-- ENG_BERR.VALID of instance n, e (08 R250): Fields hold the first error; write 0 to clear. -/
def ENG_BERR_VALID (n : Nat) (e : Nat) : Fld := ⟨0x101000c + n * 0x40000 + e * 0x800, 31, 31⟩
/-- ENG_BERR.STATUS of instance n, e (08 R250): Status code of the response (R17). -/
def ENG_BERR_STATUS (n : Nat) (e : Nat) : Fld := ⟨0x101000c + n * 0x40000 + e * 0x800, 30, 27⟩
/-- ENG_BERR.PFETCH of instance n, e (08 R250): 1: poisoned P fetch; ADDR holds the P address. -/
def ENG_BERR_PFETCH (n : Nat) (e : Nat) : Fld := ⟨0x101000c + n * 0x40000 + e * 0x800, 26, 26⟩
/-- ENG_BERR.BANK of instance n, e (08 R250): Logical bank. -/
def ENG_BERR_BANK (n : Nat) (e : Nat) : Fld := ⟨0x101000c + n * 0x40000 + e * 0x800, 25, 20⟩
/-- ENG_BERR.ADDR of instance n, e (08 R250): Word, or P address. -/
def ENG_BERR_ADDR (n : Nat) (e : Nat) : Fld := ⟨0x101000c + n * 0x40000 + e * 0x800, 19, 6⟩
/-- ENG_SPT.OUTLVL of instance n, e (08 R250): Free output entries that pend source 1, 1–64. -/
def ENG_SPT_OUTLVL (n : Nat) (e : Nat) : Fld := ⟨0x1010010 + n * 0x40000 + e * 0x800, 22, 16⟩
/-- ENG_SPT.INLVL of instance n, e (08 R250): Input entries that pend source 1, 1–64. -/
def ENG_SPT_INLVL (n : Nat) (e : Nat) : Fld := ⟨0x1010010 + n * 0x40000 + e * 0x800, 6, 0⟩
/-- ENG_CNT_ISSUE.COUNT of instance n, e (08 R250): Instructions issued, modulo 2^32; write 0 to clear. -/
def ENG_CNT_ISSUE_COUNT (n : Nat) (e : Nat) : Fld := ⟨0x1010020 + n * 0x40000 + e * 0x800, 31, 0⟩
/-- ENG_CNT_STALL.COUNT of instance n, e (08 R250): Engine cycles in RUN with no issue, modulo 2^32; write 0 to clear. -/
def ENG_CNT_STALL_COUNT (n : Nat) (e : Nat) : Fld := ⟨0x1010024 + n * 0x40000 + e * 0x800, 31, 0⟩
/-- ENG_MADDR.MEM of instance n, e (08 R250): 0 D, 1 K, 2 P, 3 reserved. -/
def ENG_MADDR_MEM (n : Nat) (e : Nat) : Fld := ⟨0x1010040 + n * 0x40000 + e * 0x800, 31, 30⟩
/-- ENG_MADDR.ADDR of instance n, e (08 R250): Word address; for P 0–4,095. -/
def ENG_MADDR_ADDR (n : Nat) (e : Nat) : Fld := ⟨0x1010040 + n * 0x40000 + e * 0x800, 13, 0⟩
/-- ENG_MDATA_LO.PSN of instance n, e (08 R250): Poison flag of the D or K word; 0 for P. -/
def ENG_MDATA_LO_PSN (n : Nat) (e : Nat) : Fld := ⟨0x1010044 + n * 0x40000 + e * 0x800, 24, 24⟩
/-- ENG_MDATA_LO.DATA of instance n, e (08 R250): D or K word, or P bits [23:0]. -/
def ENG_MDATA_LO_DATA (n : Nat) (e : Nat) : Fld := ⟨0x1010044 + n * 0x40000 + e * 0x800, 23, 0⟩
/-- ENG_MDATA_HI.DATA of instance n, e (08 R250): P bits [47:24]; unused for D and K. -/
def ENG_MDATA_HI_DATA (n : Nat) (e : Nat) : Fld := ⟨0x1010048 + n * 0x40000 + e * 0x800, 23, 0⟩
/-- SCH_CFG.AGESTEP of instance n (10 R317): Aging step in engine cycles, 16–65,535. -/
def SCH_CFG_AGESTEP (n : Nat) : Fld := ⟨0x1008000 + n * 0x40000, 31, 16⟩
/-- SCH_CFG.HOLD of instance n (10 R317): 1: no new dispatches; READY slots wait. -/
def SCH_CFG_HOLD (n : Nat) : Fld := ⟨0x1008000 + n * 0x40000, 0, 0⟩
/-- SCH_STATUS.CQERR of instance n (10 R317): A completion-ring write failed. -/
def SCH_STATUS_CQERR (n : Nat) : Fld := ⟨0x1008004 + n * 0x40000, 6, 6⟩
/-- SCH_STATUS.WQREF of instance n (10 R317): A work item was refused. -/
def SCH_STATUS_WQREF (n : Nat) : Fld := ⟨0x1008004 + n * 0x40000, 5, 5⟩
/-- SCH_STATUS.PAGEFAIL of instance n (10 R317): A paging read failed (R300). -/
def SCH_STATUS_PAGEFAIL (n : Nat) : Fld := ⟨0x1008004 + n * 0x40000, 4, 4⟩
/-- SCH_STATUS.CQHELD of instance n (10 R317): A completion was held (R307). -/
def SCH_STATUS_CQHELD (n : Nat) : Fld := ⟨0x1008004 + n * 0x40000, 3, 3⟩
/-- SCH_STATUS.TOKERR of instance n (10 R317): A remote token got a response other than OK. -/
def SCH_STATUS_TOKERR (n : Nat) : Fld := ⟨0x1008004 + n * 0x40000, 2, 2⟩
/-- SCH_STATUS.TOKREF of instance n (10 R317): A token or descriptor write was refused. -/
def SCH_STATUS_TOKREF (n : Nat) : Fld := ⟨0x1008004 + n * 0x40000, 1, 1⟩
/-- SCH_STATUS.LATE of instance n (10 R317): A completion was LATE. -/
def SCH_STATUS_LATE (n : Nat) : Fld := ⟨0x1008004 + n * 0x40000, 0, 0⟩
/-- SCH_CQ_CFG.THRESH of instance n (10 R317): Queue level that pends COMPLETION, 1–224. -/
def SCH_CQ_CFG_THRESH (n : Nat) : Fld := ⟨0x1008010 + n * 0x40000, 31, 24⟩
/-- SCH_CQ_CFG.KEY of instance n (10 R317): Key index of ring writes. -/
def SCH_CQ_CFG_KEY (n : Nat) : Fld := ⟨0x1008010 + n * 0x40000, 21, 16⟩
/-- SCH_CQ_CFG.SINK of instance n (10 R317): 0 firmware, 1 memory. -/
def SCH_CQ_CFG_SINK (n : Nat) : Fld := ⟨0x1008010 + n * 0x40000, 0, 0⟩
/-- SCH_CQ_POP.VALID of instance n (10 R317): 1: a record was removed by this read; always 0 with SINK = 1. -/
def SCH_CQ_POP_VALID (n : Nat) : Fld := ⟨0x1008014 + n * 0x40000, 31, 31⟩
/-- SCH_CQ_POP.LEVEL of instance n (10 R317): Records held before the read, 0–256. -/
def SCH_CQ_POP_LEVEL (n : Nat) : Fld := ⟨0x1008014 + n * 0x40000, 8, 0⟩
/-- SCH_CQ_RECw.REC of instance n, w (10 R317): Bits [32w + 31:32w] of the last popped record. -/
def SCH_CQ_REC_REC (n : Nat) (w : Nat) : Fld := ⟨0x1008018 + n * 0x40000 + w * 0x4, 31, 0⟩
/-- SCH_CQ_BASE_LO.BASE of instance n (10 R317): LO: address [31:6] in [31:6], [5:0] reserved. HI: address [35:32] in [3:0], [31:4] reserved. -/
def SCH_CQ_BASE_LO_BASE (n : Nat) : Fld := ⟨0x1008030 + n * 0x40000, 31, 0⟩
/-- SCH_CQ_BASE_HI.BASE of instance n (10 R317): LO: address [31:6] in [31:6], [5:0] reserved. HI: address [35:32] in [3:0], [31:4] reserved. -/
def SCH_CQ_BASE_HI_BASE (n : Nat) : Fld := ⟨0x1008034 + n * 0x40000, 31, 0⟩
/-- SCH_CQ_SIZE.LINES of instance n (10 R317): Ring size in 64 B lines, 4–65,536. -/
def SCH_CQ_SIZE_LINES (n : Nat) : Fld := ⟨0x1008038 + n * 0x40000, 16, 0⟩
/-- SCH_CQ_WP.PTR of instance n (10 R317): Line index: next written (WP), next to be read (RP). -/
def SCH_CQ_WP_PTR (n : Nat) : Fld := ⟨0x100803c + n * 0x40000, 15, 0⟩
/-- SCH_CQ_RP.PTR of instance n (10 R317): Line index: next written (WP), next to be read (RP). -/
def SCH_CQ_RP_PTR (n : Nat) : Fld := ⟨0x1008040 + n * 0x40000, 15, 0⟩
/-- SCH_TOKVAL.VALUE of instance n (10 R317): Value of the next firmware token. -/
def SCH_TOKVAL_VALUE (n : Nat) : Fld := ⟨0x1008050 + n * 0x40000, 31, 0⟩
/-- SCH_TOKEN.GO of instance n (10 R317): 1: post a token to TARGET. -/
def SCH_TOKEN_GO (n : Nat) : Fld := ⟨0x1008054 + n * 0x40000, 31, 31⟩
/-- SCH_TOKEN.TARGET of instance n (10 R317): Token target; its region field must be this region, else DECODE. -/
def SCH_TOKEN_TARGET (n : Nat) : Fld := ⟨0x1008054 + n * 0x40000, 16, 0⟩
/-- SCH_WQ_Dw.ITEM of instance n, w (10 R317): Bits [32w + 31:32w] of the work item to push. -/
def SCH_WQ_D_ITEM (n : Nat) (w : Nat) : Fld := ⟨0x1008060 + n * 0x40000 + w * 0x4, 31, 0⟩
/-- SCH_WQ_PUSH.GO of instance n (10 R317): 1: push the item in SCH_WQ_Dw to QUEUE. -/
def SCH_WQ_PUSH_GO (n : Nat) : Fld := ⟨0x1008070 + n * 0x40000, 31, 31⟩
/-- SCH_WQ_PUSH.ACC of instance n (10 R317): The last push was accepted. -/
def SCH_WQ_PUSH_ACC (n : Nat) : Fld := ⟨0x1008070 + n * 0x40000, 30, 30⟩
/-- SCH_WQ_PUSH.SEQ of instance n (10 R317): Sequence number given to the last accepted item. -/
def SCH_WQ_PUSH_SEQ (n : Nat) : Fld := ⟨0x1008070 + n * 0x40000, 29, 19⟩
/-- SCH_WQ_PUSH.QUEUE of instance n (10 R317): Queue 0–7. -/
def SCH_WQ_PUSH_QUEUE (n : Nat) : Fld := ⟨0x1008070 + n * 0x40000, 2, 0⟩
/-- SCH_WQ_LEVEL_LO.LEVEL of instance n (10 R317): Queue q (q in 0–3 in LO, 4–7 in HI) at bits [8(q mod 4) + 5:8(q mod 4)], 0–32; other bits reserved. -/
def SCH_WQ_LEVEL_LO_LEVEL (n : Nat) : Fld := ⟨0x1008074 + n * 0x40000, 31, 0⟩
/-- SCH_WQ_LEVEL_HI.LEVEL of instance n (10 R317): Queue q (q in 0–3 in LO, 4–7 in HI) at bits [8(q mod 4) + 5:8(q mod 4)], 0–32; other bits reserved. -/
def SCH_WQ_LEVEL_HI_LEVEL (n : Nat) : Fld := ⟨0x1008078 + n * 0x40000, 31, 0⟩
/-- SCH_POOL.ENGMASK of instance n (10 R317): Bit e: engine e in pool mode. -/
def SCH_POOL_ENGMASK (n : Nat) : Fld := ⟨0x1008080 + n * 0x40000, 24, 0⟩
/-- SCH_DADDR.SPACE of instance n (10 R317): 0 descriptor, 1 slot state, 2 kernel table, 3 reserved. -/
def SCH_DADDR_SPACE (n : Nat) : Fld := ⟨0x1008100 + n * 0x40000, 31, 30⟩
/-- SCH_DADDR.INDEX of instance n (10 R317): Slot, or kernel id. -/
def SCH_DADDR_INDEX (n : Nat) : Fld := ⟨0x1008100 + n * 0x40000, 11, 4⟩
/-- SCH_DADDR.WORD of instance n (10 R317): 32-bit word; 0–15 for descriptors, 0–1 for kernels, 0 for slot state. -/
def SCH_DADDR_WORD (n : Nat) : Fld := ⟨0x1008100 + n * 0x40000, 3, 0⟩
/-- SCH_DDATA.DATA of instance n (10 R317): The addressed word; writes follow R287; slot state is read only. -/
def SCH_DDATA_DATA (n : Nat) : Fld := ⟨0x1008104 + n * 0x40000, 31, 0⟩
/-- SCH_CNT_DISP.COUNT of instance n (10 R317): Dispatches made (DISP) or LATE completions (LATE), modulo 2^32; write 0 to clear. -/
def SCH_CNT_DISP_COUNT (n : Nat) : Fld := ⟨0x1008110 + n * 0x40000, 31, 0⟩
/-- SCH_CNT_LATE.COUNT of instance n (10 R317): Dispatches made (DISP) or LATE completions (LATE), modulo 2^32; write 0 to clear. -/
def SCH_CNT_LATE_COUNT (n : Nat) : Fld := ⟨0x1008114 + n * 0x40000, 31, 0⟩
/-- SCH_CNT_ERR.TOKREF of instance n (10 R317): Tokens refused, saturating; write 0 to clear. -/
def SCH_CNT_ERR_TOKREF (n : Nat) : Fld := ⟨0x1008118 + n * 0x40000, 31, 16⟩
/-- SCH_CNT_ERR.PAGEFAIL of instance n (10 R317): Paging failures, saturating; write 0 to clear. -/
def SCH_CNT_ERR_PAGEFAIL (n : Nat) : Fld := ⟨0x1008118 + n * 0x40000, 15, 8⟩
/-- SCH_CNT_ERR.LATECMP of instance n (10 R317): Records discarded under R64, saturating; write 0 to clear. -/
def SCH_CNT_ERR_LATECMP (n : Nat) : Fld := ⟨0x1008118 + n * 0x40000, 7, 0⟩
/-- TRC_CTRL.MODE (10 R318): 0 off, 1 ring, 2 stream, 3 reserved. -/
def TRC_CTRL_MODE : Fld := ⟨0x110000, 31, 30⟩
/-- TRC_CTRL.ALL (10 R318): Trace every slot and work item. -/
def TRC_CTRL_ALL : Fld := ⟨0x110000, 29, 29⟩
/-- TRC_CTRL.KEY (10 R318): Key index of stream writes. -/
def TRC_CTRL_KEY : Fld := ⟨0x110000, 21, 16⟩
/-- TRC_STATUS.LOST (10 R318): Records lost, saturating. -/
def TRC_STATUS_LOST : Fld := ⟨0x110004, 31, 16⟩
/-- TRC_STATUS.HEAD (10 R318): Ring index of the next record to be written. -/
def TRC_STATUS_HEAD : Fld := ⟨0x110004, 12, 0⟩
/-- TRC_RD_IDX.IDX (10 R318): Ring record to read; a write copies it to TRC_RDw. -/
def TRC_RD_IDX_IDX : Fld := ⟨0x110030, 12, 0⟩
/-- TRC_RDw.REC of instance w (10 R318): Bits [32w + 31:32w] of the record copied by TRC_RD_IDX. -/
def TRC_RD_REC (w : Nat) : Fld := ⟨0x110034 + w * 0x4, 31, 0⟩
/-- PLC_CFG.IMBAL (11 R350): Balance limit in 1/256 of engine time. -/
def PLC_CFG_IMBAL : Fld := ⟨0x100000, 31, 24⟩
/-- PLC_CFG.IMBALHOT (11 R350): Limit in a hot region. -/
def PLC_CFG_IMBALHOT : Fld := ⟨0x100000, 23, 16⟩
/-- PLC_CFG.MAXMOVES (11 R350): Balance moves per region per point, 0–15. -/
def PLC_CFG_MAXMOVES : Fld := ⟨0x100000, 15, 12⟩
/-- PLC_CFG.MAXROUTE (11 R350): Route changes per point under rule 3 of R339. -/
def PLC_CFG_MAXROUTE : Fld := ⟨0x100000, 11, 4⟩
/-- PLC_CFG.RBAL (11 R350): Route balance on. -/
def PLC_CFG_RBAL : Fld := ⟨0x100000, 1, 1⟩
/-- PLC_CFG.BAL (11 R350): Engine balance on. -/
def PLC_CFG_BAL : Fld := ⟨0x100000, 0, 0⟩
/-- PLC_CFG2.LINKHOT (11 R350): Link load threshold in 1/256. -/
def PLC_CFG2_LINKHOT : Fld := ⟨0x100004, 31, 24⟩
/-- PLC_STATUS.DKLOST (11 R350): A copy wrote poison or loaded from the image. -/
def PLC_STATUS_DKLOST : Fld := ⟨0x100008, 6, 6⟩
/-- PLC_STATUS.STRANDED (11 R350): A slot was stranded. -/
def PLC_STATUS_STRANDED : Fld := ⟨0x100008, 5, 5⟩
/-- PLC_STATUS.NOSTANDIN (11 R350): A test request was refused under R332. -/
def PLC_STATUS_NOSTANDIN : Fld := ⟨0x100008, 4, 4⟩
/-- PLC_STATUS.OVRREF (11 R350): An override was refused. -/
def PLC_STATUS_OVRREF : Fld := ⟨0x100008, 3, 3⟩
/-- PLC_STATUS.IGNORED (11 R350): PARAM bits ignored under R320. -/
def PLC_STATUS_IGNORED : Fld := ⟨0x100008, 2, 2⟩
/-- PLC_STATUS.SPREAD (11 R350): An engine was handled under R333. -/
def PLC_STATUS_SPREAD : Fld := ⟨0x100008, 1, 1⟩
/-- PLC_STATUS.OPEN (11 R350): A point is open. -/
def PLC_STATUS_OPEN : Fld := ⟨0x100008, 0, 0⟩
/-- PLC_POINT.COUNT (11 R350): Points committed, modulo 65,536. -/
def PLC_POINT_COUNT : Fld := ⟨0x100010, 31, 16⟩
/-- PLC_POINT.CHANGES (11 R350): Mapping changes at the last point, saturating. -/
def PLC_POINT_CHANGES : Fld := ⟨0x100010, 15, 8⟩
/-- PLC_POINT.CHIP (11 R350): The last point was a chip point. -/
def PLC_POINT_CHIP : Fld := ⟨0x100010, 7, 7⟩
/-- PLC_POINT.PARAM (11 R350): PARAM[2:0] of the last point. -/
def PLC_POINT_PARAM : Fld := ⟨0x100010, 6, 4⟩
/-- PLC_POINT_STAMP_LO.STAMP (11 R350): Stamp at the last commit: bits [31:0] in LO; bits [55:32] in HI [23:0], with HI [31:24] reserved. -/
def PLC_POINT_STAMP_LO_STAMP : Fld := ⟨0x100014, 31, 0⟩
/-- PLC_POINT_STAMP_HI.STAMP (11 R350): Stamp at the last commit: bits [31:0] in LO; bits [55:32] in HI [23:0], with HI [31:24] reserved. -/
def PLC_POINT_STAMP_HI_STAMP : Fld := ⟨0x100018, 31, 0⟩
/-- PLC_OVR.GO (11 R350): 1: queue the override. -/
def PLC_OVR_GO : Fld := ⟨0x100020, 31, 31⟩
/-- PLC_OVR.KIND (11 R350): 0 pin, 1 unpin, 2 unpin all in the region, 3 reserved. -/
def PLC_OVR_KIND : Fld := ⟨0x100020, 30, 29⟩
/-- PLC_OVR.ENG (11 R350): Engine for a pin, 0–24. -/
def PLC_OVR_ENG : Fld := ⟨0x100020, 28, 24⟩
/-- PLC_OVR.OPID (11 R350): Op id; for KIND 2 its region field names the region. -/
def PLC_OVR_OPID : Fld := ⟨0x100020, 13, 0⟩
/-- PLC_OVR_STAT.QUEUED (11 R350): Overrides queued, 0–64. -/
def PLC_OVR_STAT_QUEUED : Fld := ⟨0x100024, 6, 0⟩
/-- PLC_QSEL.REGION (11 R350): Region. -/
def PLC_QSEL_REGION : Fld := ⟨0x100030, 13, 8⟩
/-- PLC_QSEL.ENG (11 R350): Engine, 0–24. -/
def PLC_QSEL_ENG : Fld := ⟨0x100030, 4, 0⟩
/-- PLC_QDATA.LOAD (11 R350): Engine load in the snapshot, saturating at 255. -/
def PLC_QDATA_LOAD : Fld := ⟨0x100034, 31, 24⟩
/-- PLC_QDATA.SLOTS (11 R350): Slots assigned after the commit. -/
def PLC_QDATA_SLOTS : Fld := ⟨0x100034, 23, 16⟩
/-- PLC_QDATA.PIN (11 R350): A pinned slot is assigned to the engine. -/
def PLC_QDATA_PIN : Fld := ⟨0x100034, 12, 12⟩
/-- PLC_QDATA.EXCL (11 R350): Excluded by PLC_EXCLn. -/
def PLC_QDATA_EXCL : Fld := ⟨0x100034, 11, 11⟩
/-- PLC_QDATA.POOL (11 R350): Pool bit. -/
def PLC_QDATA_POOL : Fld := ⟨0x100034, 10, 10⟩
/-- PLC_QDATA.TRANSIT (11 R350): A slot moving to the engine is in transit. -/
def PLC_QDATA_TRANSIT : Fld := ⟨0x100034, 9, 9⟩
/-- PLC_QDATA.HOT (11 R350): The region was hot in the snapshot. -/
def PLC_QDATA_HOT : Fld := ⟨0x100034, 8, 8⟩
/-- PLC_RGNn.COLD of instance n (11 R350): Placement COLD under R341. -/
def PLC_RGN_COLD (n : Nat) : Fld := ⟨0x100100 + n * 0x4, 31, 31⟩
/-- PLC_RGNn.TRANSIT of instance n (11 R350): A transit is in progress. -/
def PLC_RGN_TRANSIT (n : Nat) : Fld := ⟨0x100100 + n * 0x4, 30, 30⟩
/-- PLC_RGNn.STRANDED of instance n (11 R350): Stranded slots, 0–255. -/
def PLC_RGN_STRANDED (n : Nat) : Fld := ⟨0x100100 + n * 0x4, 23, 16⟩
/-- PLC_RGNn.DISP of instance n (11 R350): Dispatches since LOAD or wake, saturating at 65,535. -/
def PLC_RGN_DISP (n : Nat) : Fld := ⟨0x100100 + n * 0x4, 15, 0⟩
/-- PLC_EXCLn.MASK of instance n (11 R350): Bit e = 1: engine e is not a valid destination. -/
def PLC_EXCL_MASK (n : Nat) : Fld := ⟨0x100200 + n * 0x4, 24, 0⟩
/-- NOC_CFG.TIMEOUT (12 R385): Request timeout in µs, 10–65,535. -/
def NOC_CFG_TIMEOUT : Fld := ⟨0xf0000, 31, 16⟩
/-- NOC_CFG.AGESTEP (12 R385): Aging step in network cycles, 16–65,535. -/
def NOC_CFG_AGESTEP : Fld := ⟨0xf0000, 15, 0⟩
/-- NOC_CFG2.CREDTO (12 R385): Credit and stall timeout in units of 256 network cycles. -/
def NOC_CFG2_CREDTO : Fld := ⟨0xf0004, 31, 16⟩
/-- NOC_CFG2.WIRELIM (12 R385): Corrections that fail a wire, 1–255. -/
def NOC_CFG2_WIRELIM : Fld := ⟨0xf0004, 15, 8⟩
/-- NOC_STATUS.LEDGERUE (12 R385): Ledger entries unreadable, saturating. -/
def NOC_STATUS_LEDGERUE : Fld := ⟨0xf0008, 19, 12⟩
/-- NOC_STATUS.UNREACH (12 R385): A pair was marked unreachable. -/
def NOC_STATUS_UNREACH : Fld := ⟨0xf0008, 11, 11⟩
/-- NOC_STATUS.LINKDOWN (12 R385): A link became dead. -/
def NOC_STATUS_LINKDOWN : Fld := ⟨0xf0008, 10, 10⟩
/-- NOC_STATUS.RTRFAULT (12 R385): A router became faulted. -/
def NOC_STATUS_RTRFAULT : Fld := ⟨0xf0008, 9, 9⟩
/-- NOC_STATUS.OLDBUSY (12 R385): Flits of the inactive epoch in flight. -/
def NOC_STATUS_OLDBUSY : Fld := ⟨0xf0008, 2, 2⟩
/-- NOC_STATUS.FLIPPEND (12 R385): A flip is between steps 1 and 3. -/
def NOC_STATUS_FLIPPEND : Fld := ⟨0xf0008, 1, 1⟩
/-- NOC_STATUS.EPOCH (12 R385): Active epoch. -/
def NOC_STATUS_EPOCH : Fld := ⟨0xf0008, 0, 0⟩
/-- NOC_FLIPS.MARKING (12 R385): Marking flips, modulo 65,536. -/
def NOC_FLIPS_MARKING : Fld := ⟨0xf000c, 31, 16⟩
/-- NOC_FLIPS.FLIPS (12 R385): All flips, modulo 65,536. -/
def NOC_FLIPS_FLIPS : Fld := ⟨0xf000c, 15, 0⟩
/-- NOC_RFAULT_LO.MASK (12 R385): Bit n: router n faulted; routers 0–31 in LO, 32–63 in HI. -/
def NOC_RFAULT_LO_MASK : Fld := ⟨0xf0010, 31, 0⟩
/-- NOC_RFAULT_HI.MASK (12 R385): Bit n: router n faulted; routers 0–31 in LO, 32–63 in HI. -/
def NOC_RFAULT_HI_MASK : Fld := ⟨0xf0014, 31, 0⟩
/-- NOC_ROUT_LO.MASK (12 R385): Bit n: router n out in the active epoch. -/
def NOC_ROUT_LO_MASK : Fld := ⟨0xf0018, 31, 0⟩
/-- NOC_ROUT_HI.MASK (12 R385): Bit n: router n out in the active epoch. -/
def NOC_ROUT_HI_MASK : Fld := ⟨0xf001c, 31, 0⟩
/-- NOC_UNAV_LO.MASK (12 R385): Bit n: NI n marked UNAVAIL in the active epoch. -/
def NOC_UNAV_LO_MASK : Fld := ⟨0xf0020, 31, 0⟩
/-- NOC_UNAV_HI.MASK (12 R385): Bit n: NI n marked UNAVAIL in the active epoch. -/
def NOC_UNAV_HI_MASK : Fld := ⟨0xf0024, 31, 0⟩
/-- NI_CFG.DURG of instance n (12 R385): Urgency of requests that carry none of their own. -/
def NI_CFG_DURG (n : Nat) : Fld := ⟨0x1020000 + n * 0x40000, 2, 0⟩
/-- NI_STAT.STATE of instance n (12 R385): 0 NORMAL, 1 DRAIN, 2 HOLD (TEST), 3 CLOSED (FENCED, LOADING). -/
def NI_STAT_STATE (n : Nat) : Fld := ⟨0x1020004 + n * 0x40000, 31, 30⟩
/-- NI_STAT.BYPASS of instance n (12 R385): Injecting through the bypass. -/
def NI_STAT_BYPASS (n : Nat) : Fld := ⟨0x1020004 + n * 0x40000, 29, 29⟩
/-- NI_STAT.REFUSED of instance n (12 R385): A table write was refused. -/
def NI_STAT_REFUSED (n : Nat) : Fld := ⟨0x1020004 + n * 0x40000, 28, 28⟩
/-- NI_STAT.IN of instance n (12 R385): Inbound requests accepted, 0–64. -/
def NI_STAT_IN (n : Nat) : Fld := ⟨0x1020004 + n * 0x40000, 15, 9⟩
/-- NI_STAT.OUT of instance n (12 R385): Outstanding requests, 0–256. -/
def NI_STAT_OUT (n : Nat) : Fld := ⟨0x1020004 + n * 0x40000, 8, 0⟩
/-- NI_CNT_REQ.COUNT of instance n (12 R385): Requests issued, modulo 2^32; write 0 to clear. -/
def NI_CNT_REQ_COUNT (n : Nat) : Fld := ⟨0x1020008 + n * 0x40000, 31, 0⟩
/-- NI_CNT_TO.TIMEOUT of instance n (12 R385): Requests answered TIMEOUT, saturating; write 0 to clear. -/
def NI_CNT_TO_TIMEOUT (n : Nat) : Fld := ⟨0x102000c + n * 0x40000, 31, 16⟩
/-- NI_CNT_TO.LATERSP of instance n (12 R385): Late responses discarded (R371), saturating; write 0 to clear. -/
def NI_CNT_TO_LATERSP (n : Nat) : Fld := ⟨0x102000c + n * 0x40000, 15, 0⟩
/-- NI_CNT_DROP.RECEIVED of instance n (12 R385): Drop notices received, saturating; write 0 to clear. -/
def NI_CNT_DROP_RECEIVED (n : Nat) : Fld := ⟨0x1020010 + n * 0x40000, 31, 16⟩
/-- NI_CNT_DROP.UNSENT of instance n (12 R385): Drop notices counted here instead of sent (R66), saturating; write 0 to clear. -/
def NI_CNT_DROP_UNSENT (n : Nat) : Fld := ⟨0x1020010 + n * 0x40000, 15, 0⟩
/-- NI_CNT_LOCAL.LOCAL of instance n (12 R385): Requests answered locally (R363), saturating; write 0 to clear. -/
def NI_CNT_LOCAL_LOCAL (n : Nat) : Fld := ⟨0x1020014 + n * 0x40000, 31, 16⟩
/-- NI_CNT_LOCAL.STRAY of instance n (12 R385): Responses for FREE TIDs, saturating; write 0 to clear. -/
def NI_CNT_LOCAL_STRAY (n : Nat) : Fld := ⟨0x1020014 + n * 0x40000, 15, 0⟩
/-- NI_RADDR.SPACE of instance n (12 R385): 0 route entry, 1 selection, 2 stream table, 3 reserved. -/
def NI_RADDR_SPACE (n : Nat) : Fld := ⟨0x1020020 + n * 0x40000, 31, 30⟩
/-- NI_RADDR.EPOCH of instance n (12 R385): Epoch bank. -/
def NI_RADDR_EPOCH (n : Nat) : Fld := ⟨0x1020020 + n * 0x40000, 8, 8⟩
/-- NI_RADDR.ALT of instance n (12 R385): Alternative, for route entries. -/
def NI_RADDR_ALT (n : Nat) : Fld := ⟨0x1020020 + n * 0x40000, 7, 7⟩
/-- NI_RADDR.INDEX of instance n (12 R385): Destination index, or stream entry 0–63. -/
def NI_RADDR_INDEX (n : Nat) : Fld := ⟨0x1020020 + n * 0x40000, 6, 0⟩
/-- NI_RDATA.DATA of instance n (12 R385): The item named by NI_RADDR, in the layouts above. -/
def NI_RDATA_DATA (n : Nat) : Fld := ⟨0x1020024 + n * 0x40000, 31, 0⟩
/-- RTR_STAT.STATE of instance n (12 R385): 0 in service, 1 out, 2 TEST, 3 faulted. -/
def RTR_STAT_STATE (n : Nat) : Fld := ⟨0x1020100 + n * 0x40000, 31, 30⟩
/-- RTR_STAT.DEAD of instance n (12 R385): Bit d: link leaving in direction d is dead. -/
def RTR_STAT_DEAD (n : Nat) : Fld := ⟨0x1020100 + n * 0x40000, 3, 0⟩
/-- RTR_LINKd.CORR of instance n, d (12 R385): Corrected words, saturating; write 0 to clear. -/
def RTR_LINK_CORR (n : Nat) (d : Nat) : Fld := ⟨0x1020110 + n * 0x40000 + d * 0x4, 31, 24⟩
/-- RTR_LINKd.REPLAY of instance n, d (12 R385): Replays, saturating; write 0 to clear. -/
def RTR_LINK_REPLAY (n : Nat) (d : Nat) : Fld := ⟨0x1020110 + n * 0x40000 + d * 0x4, 23, 16⟩
/-- RTR_LINKd.GROUP of instance n, d (12 R385): Group of the last failed wire. -/
def RTR_LINK_GROUP (n : Nat) (d : Nat) : Fld := ⟨0x1020110 + n * 0x40000 + d * 0x4, 15, 11⟩
/-- RTR_LINKd.WIRE of instance n, d (12 R385): Wire in that group. -/
def RTR_LINK_WIRE (n : Nat) (d : Nat) : Fld := ⟨0x1020110 + n * 0x40000 + d * 0x4, 10, 6⟩
/-- RTR_LINKd.PENDREP of instance n, d (12 R385): A failed wire awaits the next flip. -/
def RTR_LINK_PENDREP (n : Nat) (d : Nat) : Fld := ⟨0x1020110 + n * 0x40000 + d * 0x4, 5, 5⟩
/-- RTR_LINKd.REPAIRED of instance n, d (12 R385): A group of the link uses its spare. -/
def RTR_LINK_REPAIRED (n : Nat) (d : Nat) : Fld := ⟨0x1020110 + n * 0x40000 + d * 0x4, 4, 4⟩
/-- RTR_LINKd.DEAD of instance n, d (12 R385): Link dead. -/
def RTR_LINK_DEAD (n : Nat) (d : Nat) : Fld := ⟨0x1020110 + n * 0x40000 + d * 0x4, 3, 3⟩
/-- RTR_FLITd.COUNT of instance n, d (12 R385): Flits carried on the link leaving in direction d, modulo 2^32. -/
def RTR_FLIT_COUNT (n : Nat) (d : Nat) : Fld := ⟨0x1020120 + n * 0x40000 + d * 0x4, 31, 0⟩
/-- ECC_CFG.RMTHR of instance n (13 R409): Count that escalates beyond write-back. -/
def ECC_CFG_RMTHR (n : Nat) : Fld := ⟨0x100c800 + n * 0x40000, 31, 24⟩
/-- ECC_CFG.WBTHR of instance n (13 R409): Count that starts a write-back. -/
def ECC_CFG_WBTHR (n : Nat) : Fld := ⟨0x100c800 + n * 0x40000, 23, 16⟩
/-- ECC_CFG.LOGCE of instance n (13 R409): Log corrections as ECC_CE. -/
def ECC_CFG_LOGCE (n : Nat) : Fld := ⟨0x100c800 + n * 0x40000, 2, 2⟩
/-- ECC_CFG.EPATROL of instance n (13 R409): Engine memory patrol on. -/
def ECC_CFG_EPATROL (n : Nat) : Fld := ⟨0x100c800 + n * 0x40000, 1, 1⟩
/-- ECC_CFG.PATROL of instance n (13 R409): Bank patrol on. -/
def ECC_CFG_PATROL (n : Nat) : Fld := ⟨0x100c800 + n * 0x40000, 0, 0⟩
/-- ECC_PATROL.INTERVAL of instance n (13 R409): Memory-tier cycles per bank patrol read. -/
def ECC_PATROL_INTERVAL (n : Nat) : Fld := ⟨0x100c804 + n * 0x40000, 31, 16⟩
/-- ECC_PATROL.EINT of instance n (13 R409): Engine cycles per engine patrol read. -/
def ECC_PATROL_EINT (n : Nat) : Fld := ⟨0x100c804 + n * 0x40000, 15, 0⟩
/-- ECC_STATUS.INJ of instance n (13 R409): An injection is armed. -/
def ECC_STATUS_INJ (n : Nat) : Fld := ⟨0x100c808 + n * 0x40000, 4, 4⟩
/-- ECC_STATUS.ESC of instance n (13 R409): An escalation beyond write-back took place. -/
def ECC_STATUS_ESC (n : Nat) : Fld := ⟨0x100c808 + n * 0x40000, 3, 3⟩
/-- ECC_STATUS.UE of instance n (13 R409): An uncorrectable word was found by a read. -/
def ECC_STATUS_UE (n : Nat) : Fld := ⟨0x100c808 + n * 0x40000, 2, 2⟩
/-- ECC_STATUS.PATUE of instance n (13 R409): An uncorrectable word was found by patrol. -/
def ECC_STATUS_PATUE (n : Nat) : Fld := ⟨0x100c808 + n * 0x40000, 1, 1⟩
/-- ECC_STATUS.COLD of instance n (13 R409): Patrol has not completed its first pass. -/
def ECC_STATUS_COLD (n : Nat) : Fld := ⟨0x100c808 + n * 0x40000, 0, 0⟩
/-- ECC_CNT_CE.COUNT of instance n (13 R409): Corrections (CE) or newly found uncorrectable words (UE), modulo 2^32; write 0 to clear. -/
def ECC_CNT_CE_COUNT (n : Nat) : Fld := ⟨0x100c810 + n * 0x40000, 31, 0⟩
/-- ECC_CNT_UE.COUNT of instance n (13 R409): Corrections (CE) or newly found uncorrectable words (UE), modulo 2^32; write 0 to clear. -/
def ECC_CNT_UE_COUNT (n : Nat) : Fld := ⟨0x100c814 + n * 0x40000, 31, 0⟩
/-- ECC_PASS.STARVED of instance n (13 R409): Patrol reads that waited a whole interval, saturating; write 0 to clear. -/
def ECC_PASS_STARVED (n : Nat) : Fld := ⟨0x100c818 + n * 0x40000, 31, 16⟩
/-- ECC_PASS.PASSES of instance n (13 R409): Completed bank patrol passes summed over banks, modulo 65,536; write 0 to clear. -/
def ECC_PASS_PASSES (n : Nat) : Fld := ⟨0x100c818 + n * 0x40000, 15, 0⟩
/-- ECC_TBL_OVF.OVERFLOW of instance n (13 R409): Entries replaced under R397, saturating; write 0 to clear. -/
def ECC_TBL_OVF_OVERFLOW (n : Nat) : Fld := ⟨0x100c81c + n * 0x40000, 31, 16⟩
/-- ECC_TBL_OVF.LOST of instance n (13 R409): Updates lost, saturating; write 0 to clear. -/
def ECC_TBL_OVF_LOST (n : Nat) : Fld := ⟨0x100c81c + n * 0x40000, 15, 0⟩
/-- ECC_INJ.GO of instance n (13 R409): 1: arm the injection. -/
def ECC_INJ_GO (n : Nat) : Fld := ⟨0x100c820 + n * 0x40000, 31, 31⟩
/-- ECC_INJ.KIND of instance n (13 R409): 1 single, 2 double, 3 poison; 0 disarms. -/
def ECC_INJ_KIND (n : Nat) : Fld := ⟨0x100c820 + n * 0x40000, 30, 29⟩
/-- ECC_INJ.BANK of instance n (13 R409): Logical bank, 0–47. -/
def ECC_INJ_BANK (n : Nat) : Fld := ⟨0x100c820 + n * 0x40000, 28, 23⟩
/-- ECC_INJ.POS of instance n (13 R409): Bit position, 0–143. -/
def ECC_INJ_POS (n : Nat) : Fld := ⟨0x100c820 + n * 0x40000, 22, 15⟩
/-- ECC_INJ.WORD of instance n (13 R409): Word address. -/
def ECC_INJ_WORD (n : Nat) : Fld := ⟨0x100c820 + n * 0x40000, 13, 0⟩
/-- ECC_TBLk_W0.VALID of instance n, k (13 R409): Entry in use; write 0 to clear. -/
def ECC_TBL_W0_VALID (n : Nat) (k : Nat) : Fld := ⟨0x100c900 + n * 0x40000 + k * 0x10, 31, 31⟩
/-- ECC_TBLk_W0.MEM of instance n, k (13 R409): 0 bank, 1 engine D, 2 engine K, 3 engine P. -/
def ECC_TBL_W0_MEM (n : Nat) (k : Nat) : Fld := ⟨0x100c900 + n * 0x40000 + k * 0x10, 30, 29⟩
/-- ECC_TBLk_W0.UNIT of instance n, k (13 R409): Physical bank 0–49, or engine 0–24. -/
def ECC_TBL_W0_UNIT (n : Nat) (k : Nat) : Fld := ⟨0x100c900 + n * 0x40000 + k * 0x10, 28, 23⟩
/-- ECC_TBLk_W0.SPROW of instance n, k (13 R409): The word lies in a spare row. -/
def ECC_TBL_W0_SPROW (n : Nat) (k : Nat) : Fld := ⟨0x100c900 + n * 0x40000 + k * 0x10, 22, 22⟩
/-- ECC_TBLk_W0.WB of instance n, k (13 R409): 0 none, 1 write-back pending, 2 written back, 3 remap requested. -/
def ECC_TBL_W0_WB (n : Nat) (k : Nat) : Fld := ⟨0x100c900 + n * 0x40000 + k * 0x10, 21, 20⟩
/-- ECC_TBLk_W0.WORD of instance n, k (13 R409): Bank word, or physical word of the engine memory. -/
def ECC_TBL_W0_WORD (n : Nat) (k : Nat) : Fld := ⟨0x100c900 + n * 0x40000 + k * 0x10, 13, 0⟩
/-- ECC_TBLk_W1.COUNT of instance n, k (13 R409): Corrections, saturating at 255. -/
def ECC_TBL_W1_COUNT (n : Nat) (k : Nat) : Fld := ⟨0x100c904 + n * 0x40000 + k * 0x10, 31, 24⟩
/-- ECC_TBLk_W1.SYND of instance n, k (13 R409): Syndrome of the last correction. -/
def ECC_TBL_W1_SYND (n : Nat) (k : Nat) : Fld := ⟨0x100c904 + n * 0x40000 + k * 0x10, 15, 0⟩
/-- ECC_TBLk_STAMP_LO.STAMP of instance n, k (13 R409): Stamp of the first correction: bits [31:0] in LO; bits [55:32] in HI [23:0], with HI [31:24] reserved. -/
def ECC_TBL_STAMP_LO_STAMP (n : Nat) (k : Nat) : Fld := ⟨0x100c908 + n * 0x40000 + k * 0x10, 31, 0⟩
/-- ECC_TBLk_STAMP_HI.STAMP of instance n, k (13 R409): Stamp of the first correction: bits [31:0] in LO; bits [55:32] in HI [23:0], with HI [31:24] reserved. -/
def ECC_TBL_STAMP_HI_STAMP (n : Nat) (k : Nat) : Fld := ⟨0x100c90c + n * 0x40000 + k * 0x10, 31, 0⟩
/-- KRL_CTRL.EN (14 R443): Kraerlink on quads 0 and 1. -/
def KRL_CTRL_EN : Fld := ⟨0x70000, 31, 31⟩
/-- KRL_CTRL.ROLE (14 R443): 0 HEAD, 1 AGGREGATOR. -/
def KRL_CTRL_ROLE : Fld := ⟨0x70000, 30, 30⟩
/-- KRL_CTRL.NODE (14 R443): Node number. -/
def KRL_CTRL_NODE : Fld := ⟨0x70000, 29, 24⟩
/-- KRL_CTRL.TEMPO (14 R443): 0 follower, 1 master, 2 backup, 3 reserved. -/
def KRL_CTRL_TEMPO : Fld := ⟨0x70000, 23, 22⟩
/-- KRL_CTRL.BPORT (14 R443): Encoder port for takeover. -/
def KRL_CTRL_BPORT : Fld := ⟨0x70000, 21, 20⟩
/-- KRL_CTRL.RATE (14 R443): 0 25.78125 Gb/s, 1 12.890625 Gb/s. -/
def KRL_CTRL_RATE : Fld := ⟨0x70000, 19, 19⟩
/-- KRL_CTRL.LOSTPOL (14 R443): 0 HOLD, 1 SAFE. -/
def KRL_CTRL_LOSTPOL : Fld := ⟨0x70000, 18, 18⟩
/-- KRL_CFG.HOLDMAX (14 R443): Hold limit in ms. -/
def KRL_CFG_HOLDMAX : Fld := ⟨0x70004, 31, 16⟩
/-- KRL_CFG.DTIMEOUT (14 R443): Delivery timeout in µs. -/
def KRL_CFG_DTIMEOUT : Fld := ⟨0x70004, 15, 0⟩
/-- KRL_CFG2.MTIMEOUT (14 R443): Management timeout in µs. -/
def KRL_CFG2_MTIMEOUT : Fld := ⟨0x70008, 31, 16⟩
/-- KRL_CFG2.WINDOW (14 R443): Reel window W in ns. -/
def KRL_CFG2_WINDOW : Fld := ⟨0x70008, 15, 0⟩
/-- KRL_STATUS.MASTER (14 R443): This device sends reels. -/
def KRL_STATUS_MASTER : Fld := ⟨0x7000c, 31, 31⟩
/-- KRL_STATUS.COLD (14 R443): Not aligned under R428. -/
def KRL_STATUS_COLD : Fld := ⟨0x7000c, 30, 30⟩
/-- KRL_STATUS.HOLD (14 R443): Outputs held. -/
def KRL_STATUS_HOLD : Fld := ⟨0x7000c, 29, 29⟩
/-- KRL_STATUS.WRAPE (14 R443): Wrapped at the east port. -/
def KRL_STATUS_WRAPE : Fld := ⟨0x7000c, 28, 28⟩
/-- KRL_STATUS.WRAPW (14 R443): Wrapped at the west port. -/
def KRL_STATUS_WRAPW : Fld := ⟨0x7000c, 27, 27⟩
/-- KRL_STATUS.RINGB (14 R443): Using ring B copies of reels. -/
def KRL_STATUS_RINGB : Fld := ⟨0x7000c, 26, 26⟩
/-- KRL_STATUS.EXHAUST (14 R443): START exhausted (R439). -/
def KRL_STATUS_EXHAUST : Fld := ⟨0x7000c, 25, 25⟩
/-- KRL_STATUS.TAGFAIL (14 R443): A frame failed R440. -/
def KRL_STATUS_TAGFAIL : Fld := ⟨0x7000c, 24, 24⟩
/-- KRL_STATUS.DUPNODE (14 R443): A node number is listed twice. -/
def KRL_STATUS_DUPNODE : Fld := ⟨0x7000c, 23, 23⟩
/-- KRL_STATUS.MNODE (14 R443): Master followed. -/
def KRL_STATUS_MNODE : Fld := ⟨0x7000c, 21, 16⟩
/-- KRL_STATUS.ERA (14 R443): Era followed or sent. -/
def KRL_STATUS_ERA : Fld := ⟨0x7000c, 15, 0⟩
/-- KRL_LINKp.STATE of instance p (14 R443): 0 DOWN, 1 TRAINING, 2 UP, 3 reserved. -/
def KRL_LINK_STATE (p : Nat) : Fld := ⟨0x70010 + p * 0x4, 31, 30⟩
/-- KRL_LINKp.TXUP of instance p (14 R443): Bit l: transmit lane l in block lock at the neighbour. -/
def KRL_LINK_TXUP (p : Nat) : Fld := ⟨0x70010 + p * 0x4, 29, 28⟩
/-- KRL_LINKp.RXUP of instance p (14 R443): Bit l: receive lane l in block lock. -/
def KRL_LINK_RXUP (p : Nat) : Fld := ⟨0x70010 + p * 0x4, 27, 26⟩
/-- KRL_HOPLATp.LAT of instance p (14 R443): Link latency (R420) in stamp units. -/
def KRL_HOPLAT_LAT (p : Nat) : Fld := ⟨0x70018 + p * 0x4, 31, 0⟩
/-- KRL_TOPO.SIZE (14 R443): Devices in the ring, 1–64. -/
def KRL_TOPO_SIZE : Fld := ⟨0x70020, 14, 8⟩
/-- KRL_TOPO.HOPS (14 R443): Hops from the master on the ring in use. -/
def KRL_TOPO_HOPS : Fld := ⟨0x70020, 5, 0⟩
/-- KRL_REEL_DELAY.DELAY (14 R443): DELAY of the last reel used, in stamp units. -/
def KRL_REEL_DELAY_DELAY : Fld := ⟨0x70024, 31, 0⟩
/-- KRL_REEL_TIME_LO.TIME (14 R443): TIME of the last reel used: [31:0] in LO, [63:32] in HI; a read of LO copies both. -/
def KRL_REEL_TIME_LO_TIME : Fld := ⟨0x70028, 31, 0⟩
/-- KRL_REEL_TIME_HI.TIME (14 R443): TIME of the last reel used: [31:0] in LO, [63:32] in HI; a read of LO copies both. -/
def KRL_REEL_TIME_HI_TIME : Fld := ⟨0x7002c, 31, 0⟩
/-- KRL_CNT_REEL.MISSED (14 R443): Missing reels, saturating; write 0 to clear. -/
def KRL_CNT_REEL_MISSED : Fld := ⟨0x70040, 31, 16⟩
/-- KRL_CNT_REEL.OTHER (14 R443): Reels taken from the non-preferred ring, saturating; write 0 to clear. -/
def KRL_CNT_REEL_OTHER : Fld := ⟨0x70040, 15, 0⟩
/-- KRL_CNT_LINK.CRC (14 R443): Frames failing CRC, both ports, saturating; write 0 to clear. -/
def KRL_CNT_LINK_CRC : Fld := ⟨0x70044, 31, 16⟩
/-- KRL_CNT_LINK.OUTLIER (14 R443): Latency samples not used, saturating; write 0 to clear. -/
def KRL_CNT_LINK_OUTLIER : Fld := ⟨0x70044, 15, 0⟩
/-- KRL_CNT_DATA.TIMEOUT (14 R443): Ledger entries timed out, saturating; write 0 to clear. -/
def KRL_CNT_DATA_TIMEOUT : Fld := ⟨0x70048, 31, 20⟩
/-- KRL_CNT_DATA.DROPPED (14 R443): Ledger entries closed by DROP, saturating; write 0 to clear. -/
def KRL_CNT_DATA_DROPPED : Fld := ⟨0x70048, 19, 8⟩
/-- KRL_CNT_DATA.LATE (14 R443): ACK or DROP for closed entries, saturating; write 0 to clear. -/
def KRL_CNT_DATA_LATE : Fld := ⟨0x70048, 7, 0⟩
/-- KRL_CNT_RX.GAP (14 R443): Alive gaps, saturating; write 0 to clear. -/
def KRL_CNT_RX_GAP : Fld := ⟨0x7004c, 31, 16⟩
/-- KRL_CNT_RX.TAGFAIL (14 R443): Frames failing R440, saturating; write 0 to clear. -/
def KRL_CNT_RX_TAGFAIL : Fld := ⟨0x7004c, 15, 8⟩
/-- KRL_CNT_RX.RXDROP (14 R443): Drop notices received at interface 12, saturating; write 0 to clear. -/
def KRL_CNT_RX_RXDROP : Fld := ⟨0x7004c, 7, 0⟩
/-- KRL_LEDGER.USED (14 R443): Ledger entries open, 0–4,096. -/
def KRL_LEDGER_USED : Fld := ⟨0x70050, 12, 0⟩
/-- KRL_TADDR.SPACE (14 R443): 0 send table, 1 receive table. -/
def KRL_TADDR_SPACE : Fld := ⟨0x70100, 31, 31⟩
/-- KRL_TADDR.INDEX (14 R443): Entry; 0–511 send, 0–255 receive. -/
def KRL_TADDR_INDEX : Fld := ⟨0x70100, 8, 0⟩
/-- KRL_TDATA.DATA (14 R443): The entry named by KRL_TADDR; writable only during LOAD. -/
def KRL_TDATA_DATA : Fld := ⟨0x70104, 31, 0⟩
/-- LNE_QPLL.NINT of instance q (15 R463): Integer multiplier, 17–140. -/
def LNE_QPLL_NINT (q : Nat) : Fld := ⟨0x80000 + q * 0x1000, 31, 24⟩
/-- LNE_QPLL.FRAC of instance q (15 R463): Fractional multiplier in 1/2^24. -/
def LNE_QPLL_FRAC (q : Nat) : Fld := ⟨0x80000 + q * 0x1000, 23, 0⟩
/-- LNE_QCFG.LOSLIM of instance q (15 R463): Losses of lock per second that make a slice failing. -/
def LNE_QCFG_LOSLIM (q : Nat) : Fld := ⟨0x80004 + q * 0x1000, 7, 0⟩
/-- LNE_QSTAT.LOCK of instance q (15 R463): PLL locked. -/
def LNE_QSTAT_LOCK (q : Nat) : Fld := ⟨0x80008 + q * 0x1000, 31, 31⟩
/-- LNE_QSTAT.REFOK of instance q (15 R463): Reference within ±1,000 ppm of the declared frequency. -/
def LNE_QSTAT_REFOK (q : Nat) : Fld := ⟨0x80008 + q * 0x1000, 30, 30⟩
/-- LNE_QSTAT.SPLANE of instance q (15 R463): Lane served by the spare slice. -/
def LNE_QSTAT_SPLANE (q : Nat) : Fld := ⟨0x80008 + q * 0x1000, 5, 4⟩
/-- LNE_QSTAT.SPUSE of instance q (15 R463): Spare: 0 free, 1 standing in, 2 in for good. -/
def LNE_QSTAT_SPUSE (q : Nat) : Fld := ⟨0x80008 + q * 0x1000, 3, 2⟩
/-- LNE_QSUB.GO of instance q (15 R463): 1: mark the lane's slice failing (R459). -/
def LNE_QSUB_GO (q : Nat) : Fld := ⟨0x8000c + q * 0x1000, 31, 31⟩
/-- LNE_QSUB.LANE of instance q (15 R463): Lane. -/
def LNE_QSUB_LANE (q : Nat) : Fld := ⟨0x8000c + q * 0x1000, 1, 0⟩
/-- LNE_LCFG.PCS of instance q, l (15 R463): PCS mode per R448. -/
def LNE_LCFG_PCS (q : Nat) (l : Nat) : Fld := ⟨0x80100 + q * 0x1000 + l * 0x100, 31, 28⟩
/-- LNE_LCFG.DIV of instance q, l (15 R463): Rate divider exponent, 0–4. -/
def LNE_LCFG_DIV (q : Nat) (l : Nat) : Fld := ⟨0x80100 + q * 0x1000 + l * 0x100, 27, 25⟩
/-- LNE_LCFG.FEC of instance q, l (15 R463): Clause 74 FEC, PCS 2 and 3. -/
def LNE_LCFG_FEC (q : Nat) (l : Nat) : Fld := ⟨0x80100 + q * 0x1000 + l * 0x100, 24, 24⟩
/-- LNE_LCFG.SCR of instance q, l (15 R463): Scrambler, PCS 4. -/
def LNE_LCFG_SCR (q : Nat) (l : Nat) : Fld := ⟨0x80100 + q * 0x1000 + l * 0x100, 23, 23⟩
/-- LNE_LCFG.TXINV of instance q, l (15 R463): Invert transmit polarity. -/
def LNE_LCFG_TXINV (q : Nat) (l : Nat) : Fld := ⟨0x80100 + q * 0x1000 + l * 0x100, 22, 22⟩
/-- LNE_LCFG.RXINV of instance q, l (15 R463): Invert receive polarity. -/
def LNE_LCFG_RXINV (q : Nat) (l : Nat) : Fld := ⟨0x80100 + q * 0x1000 + l * 0x100, 21, 21⟩
/-- LNE_LCFG.SWING of instance q, l (15 R463): Transmit amplitude step. -/
def LNE_LCFG_SWING (q : Nat) (l : Nat) : Fld := ⟨0x80100 + q * 0x1000 + l * 0x100, 20, 19⟩
/-- LNE_LCFG.DEEMPH of instance q, l (15 R463): De-emphasis in 0.75 dB steps. -/
def LNE_LCFG_DEEMPH (q : Nat) (l : Nat) : Fld := ⟨0x80100 + q * 0x1000 + l * 0x100, 18, 16⟩
/-- LNE_LCFG.NOTEST of instance q, l (15 R463): Exclude from rolling test. -/
def LNE_LCFG_NOTEST (q : Nat) (l : Nat) : Fld := ⟨0x80100 + q * 0x1000 + l * 0x100, 15, 15⟩
/-- LNE_LCFG.PAT of instance q, l (15 R463): 0 PRBS7, 1 PRBS15, 2 PRBS31, 3 reserved. -/
def LNE_LCFG_PAT (q : Nat) (l : Nat) : Fld := ⟨0x80100 + q * 0x1000 + l * 0x100, 14, 13⟩
/-- LNE_LCTLE.ADAPT of instance q, l (15 R463): Adaptive CTLE. -/
def LNE_LCTLE_ADAPT (q : Nat) (l : Nat) : Fld := ⟨0x80104 + q * 0x1000 + l * 0x100, 31, 31⟩
/-- LNE_LCTLE.PRESET of instance q, l (15 R463): Starting or fixed code. -/
def LNE_LCTLE_PRESET (q : Nat) (l : Nat) : Fld := ⟨0x80104 + q * 0x1000 + l * 0x100, 20, 16⟩
/-- LNE_LCTLE.CODE of instance q, l (15 R463): CTLE code in use. -/
def LNE_LCTLE_CODE (q : Nat) (l : Nat) : Fld := ⟨0x80104 + q * 0x1000 + l * 0x100, 4, 0⟩
/-- LNE_LSTAT.STATE of instance q, l (15 R463): Lane state per R457. -/
def LNE_LSTAT_STATE (q : Nat) (l : Nat) : Fld := ⟨0x80108 + q * 0x1000 + l * 0x100, 31, 29⟩
/-- LNE_LSTAT.COLD of instance q, l (15 R463): CTLE adaptation COLD. -/
def LNE_LSTAT_COLD (q : Nat) (l : Nat) : Fld := ⟨0x80108 + q * 0x1000 + l * 0x100, 28, 28⟩
/-- LNE_LSTAT.SIGDET of instance q, l (15 R463): Signal present at the receiver. -/
def LNE_LSTAT_SIGDET (q : Nat) (l : Nat) : Fld := ⟨0x80108 + q * 0x1000 + l * 0x100, 27, 27⟩
/-- LNE_LSTAT.HIBER of instance q, l (15 R463): High BER, PCS 2 and 3. -/
def LNE_LSTAT_HIBER (q : Nat) (l : Nat) : Fld := ⟨0x80108 + q * 0x1000 + l * 0x100, 26, 26⟩
/-- LNE_LSTAT.SLICE of instance q, l (15 R463): Slice serving the lane, 0–4. -/
def LNE_LSTAT_SLICE (q : Nat) (l : Nat) : Fld := ⟨0x80108 + q * 0x1000 + l * 0x100, 25, 23⟩
/-- LNE_LRX.VALID of instance q, l (15 R463): Received words are sent. -/
def LNE_LRX_VALID (q : Nat) (l : Nat) : Fld := ⟨0x8010c + q * 0x1000 + l * 0x100, 31, 31⟩
/-- LNE_LRX.URG of instance q, l (15 R463): Urgency of the packets. -/
def LNE_LRX_URG (q : Nat) (l : Nat) : Fld := ⟨0x8010c + q * 0x1000 + l * 0x100, 22, 20⟩
/-- LNE_LRX.KEY of instance q, l (15 R463): Key index of the packets. -/
def LNE_LRX_KEY (q : Nat) (l : Nat) : Fld := ⟨0x8010c + q * 0x1000 + l * 0x100, 19, 14⟩
/-- LNE_LRX.PORT of instance q, l (15 R463): Stream port at the destination. -/
def LNE_LRX_PORT (q : Nat) (l : Nat) : Fld := ⟨0x8010c + q * 0x1000 + l * 0x100, 13, 11⟩
/-- LNE_LRX.DST of instance q, l (15 R463): Destination NI. -/
def LNE_LRX_DST (q : Nat) (l : Nat) : Fld := ⟨0x8010c + q * 0x1000 + l * 0x100, 6, 0⟩
/-- LNE_LTXSRC.VALID of instance q, l (15 R463): The lane takes packets of this source. -/
def LNE_LTXSRC_VALID (q : Nat) (l : Nat) : Fld := ⟨0x80110 + q * 0x1000 + l * 0x100, 31, 31⟩
/-- LNE_LTXSRC.SPORT of instance q, l (15 R463): Source stream port. -/
def LNE_LTXSRC_SPORT (q : Nat) (l : Nat) : Fld := ⟨0x80110 + q * 0x1000 + l * 0x100, 10, 8⟩
/-- LNE_LTXSRC.SRC of instance q, l (15 R463): Source NI. -/
def LNE_LTXSRC_SRC (q : Nat) (l : Nat) : Fld := ⟨0x80110 + q * 0x1000 + l * 0x100, 6, 0⟩
/-- LNE_LPKT.WORDS of instance q, l (15 R463): Packet size less 1. -/
def LNE_LPKT_WORDS (q : Nat) (l : Nat) : Fld := ⟨0x80114 + q * 0x1000 + l * 0x100, 31, 28⟩
/-- LNE_LPKT.HOLD of instance q, l (15 R463): Packet hold time in ns, 10–10,000. -/
def LNE_LPKT_HOLD (q : Nat) (l : Nat) : Fld := ⟨0x80114 + q * 0x1000 + l * 0x100, 27, 14⟩
/-- LNE_LPKT.FILLINT of instance q, l (15 R463): Entries between forced fillers, 256–1,600. -/
def LNE_LPKT_FILLINT (q : Nat) (l : Nat) : Fld := ⟨0x80114 + q * 0x1000 + l * 0x100, 13, 0⟩
/-- LNE_LFILL_LO.FILL of instance q, l (15 R463): PCS 4: filler payload, [31:0] in LO and [63:32] in HI, sync header 0b10. PCS 5: LO holds characters 1–3 in [23. -/
def LNE_LFILL_LO_FILL (q : Nat) (l : Nat) : Fld := ⟨0x80118 + q * 0x1000 + l * 0x100, 31, 0⟩
/-- LNE_LFILL_HI.FILL of instance q, l (15 R463): PCS 4: filler payload, [31:0] in LO and [63:32] in HI, sync header 0b10. PCS 5: LO holds characters 1–3 in [23. -/
def LNE_LFILL_HI_FILL (q : Nat) (l : Nat) : Fld := ⟨0x8011c + q * 0x1000 + l * 0x100, 31, 0⟩
/-- LNE_LCNT_RM.SLIP of instance q, l (15 R463): Entries discarded or forced, saturating; write 0 to clear. -/
def LNE_LCNT_RM_SLIP (q : Nat) (l : Nat) : Fld := ⟨0x80120 + q * 0x1000 + l * 0x100, 31, 24⟩
/-- LNE_LCNT_RM.DEL of instance q, l (15 R463): Fillers deleted, modulo 4,096; write 0 to clear. -/
def LNE_LCNT_RM_DEL (q : Nat) (l : Nat) : Fld := ⟨0x80120 + q * 0x1000 + l * 0x100, 23, 12⟩
/-- LNE_LCNT_RM.INS of instance q, l (15 R463): Fillers inserted, modulo 4,096; write 0 to clear. -/
def LNE_LCNT_RM_INS (q : Nat) (l : Nat) : Fld := ⟨0x80120 + q * 0x1000 + l * 0x100, 11, 0⟩
/-- LNE_LCNT_FIFO.RXOVF of instance q, l (15 R463): Receive words discarded, saturating; write 0 to clear. -/
def LNE_LCNT_FIFO_RXOVF (q : Nat) (l : Nat) : Fld := ⟨0x80124 + q * 0x1000 + l * 0x100, 31, 24⟩
/-- LNE_LCNT_FIFO.TXUND of instance q, l (15 R463): Transmit underruns within a frame, saturating; write 0 to clear. -/
def LNE_LCNT_FIFO_TXUND (q : Nat) (l : Nat) : Fld := ⟨0x80124 + q * 0x1000 + l * 0x100, 23, 16⟩
/-- LNE_LCNT_FIFO.TXPSN of instance q, l (15 R463): Poisoned transmit words, saturating; write 0 to clear. -/
def LNE_LCNT_FIFO_TXPSN (q : Nat) (l : Nat) : Fld := ⟨0x80124 + q * 0x1000 + l * 0x100, 15, 8⟩
/-- LNE_LCNT_FIFO.TXDISC of instance q, l (15 R463): Transmit words discarded on leaving UP, saturating; write 0 to clear. -/
def LNE_LCNT_FIFO_TXDISC (q : Nat) (l : Nat) : Fld := ⟨0x80124 + q * 0x1000 + l * 0x100, 7, 0⟩
/-- LNE_LCNT_ERR.BLKERR of instance q, l (15 R463): Invalid blocks, code errors or PRBS errors, saturating; write 0 to clear. -/
def LNE_LCNT_ERR_BLKERR (q : Nat) (l : Nat) : Fld := ⟨0x80128 + q * 0x1000 + l * 0x100, 31, 16⟩
/-- LNE_LCNT_ERR.HIBER of instance q, l (15 R463): Entries to high BER, saturating; write 0 to clear. -/
def LNE_LCNT_ERR_HIBER (q : Nat) (l : Nat) : Fld := ⟨0x80128 + q * 0x1000 + l * 0x100, 15, 8⟩
/-- LNE_LCNT_ERR.LOSS of instance q, l (15 R463): Losses of lock, saturating; write 0 to clear. -/
def LNE_LCNT_ERR_LOSS (q : Nat) (l : Nat) : Fld := ⟨0x80128 + q * 0x1000 + l * 0x100, 7, 0⟩
/-- LNE_ESCAN.GO of instance q, l (15 R463): 1: start a scan. -/
def LNE_ESCAN_GO (q : Nat) (l : Nat) : Fld := ⟨0x80130 + q * 0x1000 + l * 0x100, 31, 31⟩
/-- LNE_ESCAN.DONE of instance q, l (15 R463): Scan finished. -/
def LNE_ESCAN_DONE (q : Nat) (l : Nat) : Fld := ⟨0x80130 + q * 0x1000 + l * 0x100, 30, 30⟩
/-- LNE_ESCAN.ABORT of instance q, l (15 R463): Scan ended by the lane leaving UP. -/
def LNE_ESCAN_ABORT (q : Nat) (l : Nat) : Fld := ⟨0x80130 + q * 0x1000 + l * 0x100, 29, 29⟩
/-- LNE_ESCAN.REFUSED of instance q, l (15 R463): The last start was refused. -/
def LNE_ESCAN_REFUSED (q : Nat) (l : Nat) : Fld := ⟨0x80130 + q * 0x1000 + l * 0x100, 28, 28⟩
/-- LNE_ESCAN.PHASE of instance q, l (15 R463): Phase offset, signed, −32 to 31. -/
def LNE_ESCAN_PHASE (q : Nat) (l : Nat) : Fld := ⟨0x80130 + q * 0x1000 + l * 0x100, 27, 22⟩
/-- LNE_ESCAN.VERT of instance q, l (15 R463): Threshold offset, signed, −127 to 127. -/
def LNE_ESCAN_VERT (q : Nat) (l : Nat) : Fld := ⟨0x80130 + q * 0x1000 + l * 0x100, 21, 14⟩
/-- LNE_ESCAN.NBITS of instance q, l (15 R463): Bits compared: 2^NBITS, 16–40. -/
def LNE_ESCAN_NBITS (q : Nat) (l : Nat) : Fld := ⟨0x80130 + q * 0x1000 + l * 0x100, 13, 8⟩
/-- LNE_ESCAN.CODE of instance q, l (15 R463): CTLE code held during the scan. -/
def LNE_ESCAN_CODE (q : Nat) (l : Nat) : Fld := ⟨0x80130 + q * 0x1000 + l * 0x100, 4, 0⟩
/-- LNE_ESCAN_ERR.ERRORS of instance q, l (15 R463): Disagreements counted, saturating. -/
def LNE_ESCAN_ERR_ERRORS (q : Nat) (l : Nat) : Fld := ⟨0x80134 + q * 0x1000 + l * 0x100, 31, 0⟩
/-- XMC_CTRL.MODE (16 R490): 0 RANGE, 1 KEYED. -/
def XMC_CTRL_MODE : Fld := ⟨0x90000, 31, 31⟩
/-- XMC_CTRL.MODEBUSY (16 R490): A mode change waits (R474). -/
def XMC_CTRL_MODEBUSY : Fld := ⟨0x90000, 30, 30⟩
/-- XMC_CFG.RATE (16 R490): Data rate, 0–5. -/
def XMC_CFG_RATE : Fld := ⟨0x90004, 31, 28⟩
/-- XMC_CFG.DENS (16 R490): 0 8 Gb, 1 16 Gb, 2 32 Gb. -/
def XMC_CFG_DENS : Fld := ⟨0x90004, 27, 26⟩
/-- XMC_CFG.RANK2 (16 R490): Two ranks. -/
def XMC_CFG_RANK2 : Fld := ⟨0x90004, 25, 25⟩
/-- XMC_CFG.ECC (16 R490): In-line ECC. -/
def XMC_CFG_ECC : Fld := ⟨0x90004, 24, 24⟩
/-- XMC_CFG.PROT (16 R490): Protection and metadata reserve. -/
def XMC_CFG_PROT : Fld := ⟨0x90004, 23, 23⟩
/-- XMC_CFG.INTLV (16 R490): 0 page interleave, 1 none. -/
def XMC_CFG_INTLV : Fld := ⟨0x90004, 22, 22⟩
/-- XMC_CFG.WALKSHARE (16 R490): Walk share of channel cycles, 1/256. -/
def XMC_CFG_WALKSHARE : Fld := ⟨0x90004, 15, 8⟩
/-- XMC_STATUS.WALK (16 R490): A retirement walk runs. -/
def XMC_STATUS_WALK : Fld := ⟨0x90008, 6, 6⟩
/-- XMC_STATUS.RETREF (16 R490): A retirement or mode change was refused. -/
def XMC_STATUS_RETREF : Fld := ⟨0x90008, 5, 5⟩
/-- XMC_STATUS.SEALED (16 R490): A page was sealed. -/
def XMC_STATUS_SEALED : Fld := ⟨0x90008, 4, 4⟩
/-- XMC_STATUS.EXHAUST (16 R490): A slot became EXHAUSTED. -/
def XMC_STATUS_EXHAUST : Fld := ⟨0x90008, 3, 3⟩
/-- XMC_STATUS.TAGFAIL (16 R490): A tag or poisoned-line failure. -/
def XMC_STATUS_TAGFAIL : Fld := ⟨0x90008, 2, 2⟩
/-- XMC_STATUS.BLOCK (16 R490): A request was blocked. -/
def XMC_STATUS_BLOCK : Fld := ⟨0x90008, 1, 1⟩
/-- XMC_STATUS.COLD (16 R490): Any channel's cache COLD. -/
def XMC_STATUS_COLD : Fld := ⟨0x90008, 0, 0⟩
/-- XMC_CHSTATc.STATE of instance c (16 R490): 0 DOWN, 1 TRAINING, 2 UP, 3 reserved. -/
def XMC_CHSTAT_STATE (c : Nat) : Fld := ⟨0x90010 + c * 0x4, 31, 30⟩
/-- XMC_CHSTATc.COLD of instance c (16 R490): Metadata cache COLD. -/
def XMC_CHSTAT_COLD (c : Nat) : Fld := ⟨0x90010 + c * 0x4, 29, 29⟩
/-- XMC_CHSTATc.CACHED of instance c (16 R490): Valid metadata cache lines, 0–4,096. -/
def XMC_CHSTAT_CACHED (c : Nat) : Fld := ⟨0x90010 + c * 0x4, 12, 0⟩
/-- XMC_RETIRE.GO (16 R490): 1: start a retirement. -/
def XMC_RETIRE_GO : Fld := ⟨0x90030, 31, 31⟩
/-- XMC_RETIRE.NEW (16 R490): Successor slot. -/
def XMC_RETIRE_NEW : Fld := ⟨0x90030, 11, 6⟩
/-- XMC_RETIRE.OLD (16 R490): Slot to retire. -/
def XMC_RETIRE_OLD : Fld := ⟨0x90030, 5, 0⟩
/-- XMC_WALK.PAGES (16 R490): Pages walked by the present or last walk. -/
def XMC_WALK_PAGES : Fld := ⟨0x90034, 23, 0⟩
/-- XMC_CNT_SEC.TAGFAIL (16 R490): Failures of R480 that raise the alarm, saturating; write 0 to clear. -/
def XMC_CNT_SEC_TAGFAIL : Fld := ⟨0x90040, 31, 16⟩
/-- XMC_CNT_SEC.BLOCK (16 R490): Blocks, saturating; write 0 to clear. -/
def XMC_CNT_SEC_BLOCK : Fld := ⟨0x90040, 15, 0⟩
/-- XMC_CNT_MISC.REENC (16 R490): Page re-encryptions, modulo 2^24; write 0 to clear. -/
def XMC_CNT_MISC_REENC : Fld := ⟨0x90044, 31, 8⟩
/-- XMC_CNT_MISC.PSNLOST (16 R490): Poison not storable (R478), saturating; write 0 to clear. -/
def XMC_CNT_MISC_PSNLOST : Fld := ⟨0x90044, 7, 0⟩
/-- XMC_CNT_ECC.CE (16 R490): Corrected words, saturating; write 0 to clear. -/
def XMC_CNT_ECC_CE : Fld := ⟨0x90048, 31, 16⟩
/-- XMC_CNT_ECC.UE (16 R490): Uncorrectable words, saturating; write 0 to clear. -/
def XMC_CNT_ECC_UE : Fld := ⟨0x90048, 15, 0⟩
/-- XMC_KRANGE_LOk.VALID of instance k (16 R490): LO only: range valid; reserved in HI. -/
def XMC_KRANGE_LO_VALID (k : Nat) : Fld := ⟨0x90400 + k * 0x8, 31, 31⟩
/-- XMC_KRANGE_LOk.PAGE of instance k (16 R490): BASE page in LO; LIMIT page, exclusive, in HI. -/
def XMC_KRANGE_LO_PAGE (k : Nat) : Fld := ⟨0x90400 + k * 0x8, 23, 0⟩
/-- XMC_KRANGE_HIk.VALID of instance k (16 R490): LO only: range valid; reserved in HI. -/
def XMC_KRANGE_HI_VALID (k : Nat) : Fld := ⟨0x90404 + k * 0x8, 31, 31⟩
/-- XMC_KRANGE_HIk.PAGE of instance k (16 R490): BASE page in LO; LIMIT page, exclusive, in HI. -/
def XMC_KRANGE_HI_PAGE (k : Nat) : Fld := ⟨0x90404 + k * 0x8, 23, 0⟩
/-- XMC_RMODE_LOr.VALID of instance r (16 R490): LO only: range valid. -/
def XMC_RMODE_LO_VALID (r : Nat) : Fld := ⟨0x90620 + r * 0x8, 31, 31⟩
/-- XMC_RMODE_LOr.KEY of instance r (16 R490): LO only: slot of the range, 0 clear. -/
def XMC_RMODE_LO_KEY (r : Nat) : Fld := ⟨0x90620 + r * 0x8, 29, 24⟩
/-- XMC_RMODE_LOr.PAGE of instance r (16 R490): BASE in LO; LIMIT, exclusive, in HI. -/
def XMC_RMODE_LO_PAGE (r : Nat) : Fld := ⟨0x90620 + r * 0x8, 23, 0⟩
/-- XMC_RMODE_HIr.VALID of instance r (16 R490): LO only: range valid. -/
def XMC_RMODE_HI_VALID (r : Nat) : Fld := ⟨0x90624 + r * 0x8, 31, 31⟩
/-- XMC_RMODE_HIr.KEY of instance r (16 R490): LO only: slot of the range, 0 clear. -/
def XMC_RMODE_HI_KEY (r : Nat) : Fld := ⟨0x90624 + r * 0x8, 29, 24⟩
/-- XMC_RMODE_HIr.PAGE of instance r (16 R490): BASE in LO; LIMIT, exclusive, in HI. -/
def XMC_RMODE_HI_PAGE (r : Nat) : Fld := ⟨0x90624 + r * 0x8, 23, 0⟩
/-- SEC_CFG.POL (16 R491): Alarm policy: 0 LOG, 1 SAFE. -/
def SEC_CFG_POL : Fld := ⟨0xa0000, 31, 31⟩
/-- SEC_CFG.ZEROISE (16 R491): Zeroise all slots at SAFE. -/
def SEC_CFG_ZEROISE : Fld := ⟨0xa0000, 30, 30⟩
/-- SEC_CFG.ALARMBLK (16 R491): Blocks raise the alarm. -/
def SEC_CFG_ALARMBLK : Fld := ⟨0xa0000, 29, 29⟩
/-- SEC_STATUS.ALARM (16 R491): The alarm has risen. -/
def SEC_STATUS_ALARM : Fld := ⟨0xa0004, 31, 31⟩
/-- SEC_STATUS.REFUSED (16 R491): A SEC_KGEN write was refused. -/
def SEC_STATUS_REFUSED : Fld := ⟨0xa0004, 30, 30⟩
/-- SEC_STATUS.COUNT (16 R491): Alarms since LOAD, saturating. -/
def SEC_STATUS_COUNT : Fld := ⟨0xa0004, 15, 8⟩
/-- SEC_STATUS.LASTSRC (16 R491): Source of the last alarm (R486). -/
def SEC_STATUS_LASTSRC : Fld := ⟨0xa0004, 3, 0⟩
/-- SEC_KGEN.GO (16 R491): 1: generate a key into SLOT. -/
def SEC_KGEN_GO : Fld := ⟨0xa0010, 31, 31⟩
/-- SEC_KGEN.LINK (16 R491): Must be 0; a write with LINK = 1 is refused (R470). -/
def SEC_KGEN_LINK : Fld := ⟨0xa0010, 9, 9⟩
/-- SEC_KGEN.MEM (16 R491): USE bit MEM. -/
def SEC_KGEN_MEM : Fld := ⟨0xa0010, 8, 8⟩
/-- SEC_KGEN.SLOT (16 R491): Slot, 1–63. -/
def SEC_KGEN_SLOT : Fld := ⟨0xa0010, 5, 0⟩
/-- SEC_SLOTn.STATE of instance n (16 R491): 0 EMPTY, 1 LOADED, 2 EXHAUSTED, 3 RETIRING, 4 RETIRED. -/
def SEC_SLOT_STATE (n : Nat) : Fld := ⟨0xa0100 + n * 0x4, 31, 29⟩
/-- SEC_SLOTn.MEM of instance n (16 R491): Memory use. -/
def SEC_SLOT_MEM (n : Nat) : Fld := ⟨0xa0100 + n * 0x4, 28, 28⟩
/-- SEC_SLOTn.LINK of instance n (16 R491): Link use. -/
def SEC_SLOT_LINK (n : Nat) : Fld := ⟨0xa0100 + n * 0x4, 27, 27⟩
/-- SEC_SLOTn.GEN of instance n (16 R491): Key generated on die; 0 unwrapped. -/
def SEC_SLOT_GEN (n : Nat) : Fld := ⟨0xa0100 + n * 0x4, 26, 26⟩
/-- CFG_STATUS.PHASE (17 R523): 0 idle, 1 boot record, 2 header, 3 journal, 4 image, 5 final checks, 6 START, 7 done. -/
def CFG_STATUS_PHASE : Fld := ⟨0x10000, 31, 28⟩
/-- CFG_STATUS.ATTEMPT (17 R523): Attempt of R509 running or passed. -/
def CFG_STATUS_ATTEMPT : Fld := ⟨0x10000, 27, 26⟩
/-- CFG_STATUS.GOLDEN (17 R523): Golden image running. -/
def CFG_STATUS_GOLDEN : Fld := ⟨0x10000, 25, 25⟩
/-- CFG_STATUS.DEFBOOT (17 R523): Boot-record defaults in use. -/
def CFG_STATUS_DEFBOOT : Fld := ⟨0x10000, 24, 24⟩
/-- CFG_STATUS.JFAIL (17 R523): A journal write failed since LOAD. -/
def CFG_STATUS_JFAIL : Fld := ⟨0x10000, 23, 23⟩
/-- CFG_STATUS.OCTAL (17 R523): Flash in 8D-8D-8D. -/
def CFG_STATUS_OCTAL : Fld := ⟨0x10000, 22, 22⟩
/-- CFG_STATUS.SIGNED (17 R523): Running image signed. -/
def CFG_STATUS_SIGNED : Fld := ⟨0x10000, 21, 21⟩
/-- CFG_STATUS.ENCRYPTED (17 R523): Running image encrypted. -/
def CFG_STATUS_ENCRYPTED : Fld := ⟨0x10000, 20, 20⟩
/-- CFG_STATUS.CTXCOUNT (17 R523): Context count of the running image. -/
def CFG_STATUS_CTXCOUNT : Fld := ⟨0x10000, 19, 16⟩
/-- CFG_ERR.ERR2 (17 R523): Code of attempt 2, 0 if not failed. -/
def CFG_ERR_ERR2 : Fld := ⟨0x10004, 23, 16⟩
/-- CFG_ERR.ERR1 (17 R523): Code of attempt 1. -/
def CFG_ERR_ERR1 : Fld := ⟨0x10004, 15, 8⟩
/-- CFG_ERR.ERR0 (17 R523): Code of attempt 0. -/
def CFG_ERR_ERR0 : Fld := ⟨0x10004, 7, 0⟩
/-- CFG_ID.STEP (17 R523): Device stepping, 1–15. The device described in this manual is stepping 1: an image whose IDCODE stepping is 0 . -/
def CFG_ID_STEP : Fld := ⟨0x10008, 31, 28⟩
/-- CFG_ID.PART (17 R523): Part. -/
def CFG_ID_PART : Fld := ⟨0x10008, 27, 12⟩
/-- CFG_ID.FAMILY (17 R523): Family. -/
def CFG_ID_FAMILY : Fld := ⟨0x10008, 11, 0⟩
/-- CFG_IMAGE.ADDR (17 R523): Flash address of the running image. -/
def CFG_IMAGE_ADDR : Fld := ⟨0x1000c, 31, 0⟩
/-- CFG_LOADTIME.US (17 R523): µs from entry to LOAD to RUN, saturating. -/
def CFG_LOADTIME_US : Fld := ⟨0x10010, 31, 0⟩
/-- CFG_REGMASK_LO.MASK (17 R523): REGMASK of the running image: regions 0–31 in LO, 32–63 in HI. -/
def CFG_REGMASK_LO_MASK : Fld := ⟨0x10014, 31, 0⟩
/-- CFG_REGMASK_HI.MASK (17 R523): REGMASK of the running image: regions 0–31 in LO, 32–63 in HI. -/
def CFG_REGMASK_HI_MASK : Fld := ⟨0x10018, 31, 0⟩
/-- CFG_FUSE.KEY1REV (17 R523): Key hash 1 revoked. -/
def CFG_FUSE_KEY1REV : Fld := ⟨0x1001c, 2, 2⟩
/-- CFG_FUSE.KEY0REV (17 R523): Key hash 0 revoked. -/
def CFG_FUSE_KEY0REV : Fld := ⟨0x1001c, 1, 1⟩
/-- CFG_FUSE.SIGREQ (17 R523): Unsigned images fail. -/
def CFG_FUSE_SIGREQ : Fld := ⟨0x1001c, 0, 0⟩
/-- CFG_PLOAD.GO (17 R523): 1: request partial PART. -/
def CFG_PLOAD_GO : Fld := ⟨0x10020, 31, 31⟩
/-- CFG_PLOAD.PART (17 R523): Partial number in PARTDIR. -/
def CFG_PLOAD_PART : Fld := ⟨0x10020, 7, 0⟩
/-- CFG_PSTAT.BUSY (17 R523): A partial load runs. -/
def CFG_PSTAT_BUSY : Fld := ⟨0x10024, 31, 31⟩
/-- CFG_PSTAT.FB (17 R523): The running load is a fall-back. -/
def CFG_PSTAT_FB : Fld := ⟨0x10024, 30, 30⟩
/-- CFG_PSTAT.STATUS (17 R523): Outcome of the last request (R515). -/
def CFG_PSTAT_STATUS : Fld := ⟨0x10024, 29, 26⟩
/-- CFG_PSTAT.ERR (17 R523): Code of R507 of the last request. -/
def CFG_PSTAT_ERR : Fld := ⟨0x10024, 23, 16⟩
/-- CFG_PSTAT.LAST (17 R523): Partial of the last request. -/
def CFG_PSTAT_LAST : Fld := ⟨0x10024, 15, 8⟩
/-- CFG_PSTAT.CUR (17 R523): Partial running. -/
def CFG_PSTAT_CUR : Fld := ⟨0x10024, 7, 0⟩
/-- CFG_PCNT.OK (17 R523): Partial loads completed, modulo 65,536; write 0 to clear. -/
def CFG_PCNT_OK : Fld := ⟨0x10028, 31, 16⟩
/-- CFG_PCNT.FAIL (17 R523): Partial requests not OK, saturating; write 0 to clear. -/
def CFG_PCNT_FAIL : Fld := ⟨0x10028, 15, 0⟩
/-- CFG_JRNL.SECTOR (17 R523): Sector in use: 0 A, 1 B. -/
def CFG_JRNL_SECTOR : Fld := ⟨0x10030, 31, 31⟩
/-- CFG_JRNL.RECORDS (17 R523): Records in the sector: 0–4,092 for 64 KiB sectors, up to 16,380 for 256 KiB sectors. -/
def CFG_JRNL_RECORDS : Fld := ⟨0x10030, 30, 16⟩
/-- CFG_JRNL.BAD (17 R523): Records skipped (R518), saturating. -/
def CFG_JRNL_BAD : Fld := ⟨0x10030, 15, 8⟩
/-- CFG_JRNL.QUEUED (17 R523): Records waiting, 0–64. -/
def CFG_JRNL_QUEUED : Fld := ⟨0x10030, 7, 0⟩
/-- CFG_JSEQ.SEQ (17 R523): SEQ of the sector in use. -/
def CFG_JSEQ_SEQ : Fld := ⟨0x10034, 31, 0⟩
/-- CFG_JCNT.WRITTEN (17 R523): Records written since LOAD, modulo 65,536; write 0 to clear. -/
def CFG_JCNT_WRITTEN : Fld := ⟨0x10038, 31, 16⟩
/-- CFG_JCNT.LOST (17 R523): Records lost to a full queue, saturating; write 0 to clear. -/
def CFG_JCNT_LOST : Fld := ⟨0x10038, 15, 8⟩
/-- CFG_JCNT.FAILS (17 R523): Failed programs or erases, saturating; write 0 to clear. -/
def CFG_JCNT_FAILS : Fld := ⟨0x10038, 7, 0⟩
/-- CFG_START.START (17 R523): Link-encryption START in use. -/
def CFG_START_START : Fld := ⟨0x1003c, 23, 0⟩
/-- CFG_WAKEn.VALID of instance n (17 R523): A wake of region n loads PART. -/
def CFG_WAKE_VALID (n : Nat) : Fld := ⟨0x10100 + n * 0x4, 8, 8⟩
/-- CFG_WAKEn.PART of instance n (17 R523): WHOLE partial for region n. -/
def CFG_WAKE_PART (n : Nat) : Fld := ⟨0x10100 + n * 0x4, 7, 0⟩
/-- SCR_CTRL.STEEP (18 R543): Steep on. -/
def SCR_CTRL_STEEP : Fld := ⟨0x20000, 31, 31⟩
/-- SCR_CTRL.TOUR (18 R543): Rolling test starts new tests. -/
def SCR_CTRL_TOUR : Fld := ⟨0x20000, 30, 30⟩
/-- SCR_CTRL.AGEING (18 R543): Ageing monitors measure and act. -/
def SCR_CTRL_AGEING : Fld := ⟨0x20000, 29, 29⟩
/-- SCR_CTRL.UEHOLD (18 R543): 0 restart, 1 firmware hold (R529). -/
def SCR_CTRL_UEHOLD : Fld := ⟨0x20000, 28, 28⟩
/-- SCR_CTRL.FRAMENS (18 R543): Frame slot in ns, 250–65,535. -/
def SCR_CTRL_FRAMENS : Fld := ⟨0x20000, 15, 0⟩
/-- SCR_TOUR.PERIOD (18 R543): Tour period in hours, 1–255. -/
def SCR_TOUR_PERIOD : Fld := ⟨0x20004, 31, 24⟩
/-- SCR_TOUR.KINDS (18 R543): Bit 0 column, 1 engine, 2 bank, 3 router, 4 slice. -/
def SCR_TOUR_KINDS : Fld := ⟨0x20004, 4, 0⟩
/-- SCR_AGECFG.THR1 (18 R543): First margin step, 0.05 % units. -/
def SCR_AGECFG_THR1 : Fld := ⟨0x20008, 31, 24⟩
/-- SCR_AGECFG.THR2 (18 R543): Second margin step. -/
def SCR_AGECFG_THR2 : Fld := ⟨0x20008, 23, 16⟩
/-- SCR_AGECFG.THRSPARE (18 R543): Spare for the unit. -/
def SCR_AGECFG_THRSPARE : Fld := ⟨0x20008, 15, 8⟩
/-- SCR_AGECFG.THRFAIL (18 R543): Unit failed without spare; projection target. -/
def SCR_AGECFG_THRFAIL : Fld := ⟨0x20008, 7, 0⟩
/-- SCR_AGEPER.PERIOD (18 R543): Measurement period in s, 1–65,535. -/
def SCR_AGEPER_PERIOD : Fld := ⟨0x2000c, 15, 0⟩
/-- SCR_STATUS.AGE (18 R543): An ageing action was taken. -/
def SCR_STATUS_AGE : Fld := ⟨0x20010, 4, 4⟩
/-- SCR_STATUS.NOSPARE (18 R543): A row or unit found no spare. -/
def SCR_STATUS_NOSPARE : Fld := ⟨0x20010, 3, 3⟩
/-- SCR_STATUS.REFETCH (18 R543): A frame was re-fetched from flash. -/
def SCR_STATUS_REFETCH : Fld := ⟨0x20010, 2, 2⟩
/-- SCR_STATUS.TOURLATE (18 R543): A unit is overdue for test. -/
def SCR_STATUS_TOURLATE : Fld := ⟨0x20010, 1, 1⟩
/-- SCR_STATUS.COLD (18 R543): Some region that is not DARK is COLD under R531. -/
def SCR_STATUS_COLD : Fld := ⟨0x20010, 0, 0⟩
/-- SCR_HOURS.HOURS (18 R543): Service hours; +1 per hour while non-zero. -/
def SCR_HOURS_HOURS : Fld := ⟨0x20014, 31, 0⟩
/-- SCR_CNT_CE.COUNT (18 R543): Configuration words corrected, modulo 2^32; write 0 to clear. -/
def SCR_CNT_CE_COUNT : Fld := ⟨0x20020, 31, 0⟩
/-- SCR_CNT_UE.ACTIVE (18 R543): Uncorrectable frames in active contexts, saturating; write 0 to clear. -/
def SCR_CNT_UE_ACTIVE : Fld := ⟨0x20024, 31, 16⟩
/-- SCR_CNT_UE.INACTIVE (18 R543): In inactive contexts, saturating; write 0 to clear. -/
def SCR_CNT_UE_INACTIVE : Fld := ⟨0x20024, 15, 0⟩
/-- SCR_STEEPS.COUNT (18 R543): Steeps completed, summed over regions, modulo 2^32. -/
def SCR_STEEPS_COUNT : Fld := ⟨0x20028, 31, 0⟩
/-- SCR_RELEASE.GO (18 R543): 1: restart REGION held under UEHOLD; ignored otherwise. -/
def SCR_RELEASE_GO : Fld := ⟨0x20030, 31, 31⟩
/-- SCR_RELEASE.REGION (18 R543): Region. -/
def SCR_RELEASE_REGION : Fld := ⟨0x20030, 5, 0⟩
/-- SCR_TEST.GO (18 R543): 1: test UNIT next in its kind; refused and logged if the kind is not testable. -/
def SCR_TEST_GO : Fld := ⟨0x20034, 31, 31⟩
/-- SCR_TEST.UNIT (18 R543): Unit identifier (R30). -/
def SCR_TEST_UNIT : Fld := ⟨0x20034, 23, 0⟩
/-- SCR_RSTATn.COLD of instance n (18 R543): Region COLD under R531. -/
def SCR_RSTAT_COLD (n : Nat) : Fld := ⟨0x20100 + n * 0x10, 31, 31⟩
/-- SCR_RSTATn.HELD of instance n (18 R543): FENCED under UEHOLD. -/
def SCR_RSTAT_HELD (n : Nat) : Fld := ⟨0x20100 + n * 0x10, 30, 30⟩
/-- SCR_RSTATn.REFETCH of instance n (18 R543): A re-fetch is in progress. -/
def SCR_RSTAT_REFETCH (n : Nat) : Fld := ⟨0x20100 + n * 0x10, 29, 29⟩
/-- SCR_RSTATn.CROWS of instance n (18 R543): Spare configuration rows in use, 0–64. -/
def SCR_RSTAT_CROWS (n : Nat) : Fld := ⟨0x20100 + n * 0x10, 28, 22⟩
/-- SCR_RSTATn.CTX of instance n (18 R543): Context of the walk position: the context that the walk visits in the present slot in its order; a priority vi. -/
def SCR_RSTAT_CTX (n : Nat) : Fld := ⟨0x20100 + n * 0x10, 15, 13⟩
/-- SCR_RSTATn.FRAME of instance n (18 R543): Frame of the walk position, as CTX; a slot taken without a read advances it as a visit does. -/
def SCR_RSTAT_FRAME (n : Nat) : Fld := ⟨0x20100 + n * 0x10, 12, 0⟩
/-- SCR_RTESTn.STATE of instance n (18 R543): 0 IDLE, 1 COPYING, 2 READY, 3 STANDIN, 4 RETURN. -/
def SCR_RTEST_STATE (n : Nat) : Fld := ⟨0x20104 + n * 0x10, 31, 29⟩
/-- SCR_RTESTn.COLUMN of instance n (18 R543): Column under test. -/
def SCR_RTEST_COLUMN (n : Nat) : Fld := ⟨0x20104 + n * 0x10, 28, 23⟩
/-- SCR_RTESTn.SPUSE of instance n (18 R543): Spare column: 0 free, 1 standing in, 2 in for good, 3 retired. -/
def SCR_RTEST_SPUSE (n : Nat) : Fld := ⟨0x20104 + n * 0x10, 22, 21⟩
/-- SCR_RTESTn.SPCOL of instance n (18 R543): Column served for good. -/
def SCR_RTEST_SPCOL (n : Nat) : Fld := ⟨0x20104 + n * 0x10, 20, 15⟩
/-- SCR_RAGEn.AGE of instance n (18 R543): Worst in-service AGE, 0.05 % units. -/
def SCR_RAGE_AGE (n : Nat) : Fld := ⟨0x20108 + n * 0x10, 31, 24⟩
/-- SCR_RAGEn.MON of instance n (18 R543): Its monitor, 0–73. -/
def SCR_RAGE_MON (n : Nat) : Fld := ⟨0x20108 + n * 0x10, 23, 17⟩
/-- SCR_RAGEn.MARGIN of instance n (18 R543): Margin steps M, 0–2. -/
def SCR_RAGE_MARGIN (n : Nat) : Fld := ⟨0x20108 + n * 0x10, 16, 15⟩
/-- SCR_RPROJn.HOURS of instance n (18 R543): Projected hours to THRFAIL (R540). -/
def SCR_RPROJ_HOURS (n : Nat) : Fld := ⟨0x2010c + n * 0x10, 31, 0⟩
/-- CLK_STATUS.CKOSTOP (19 R566): A clock output held low under R562. -/
def CLK_STATUS_CKOSTOP : Fld := ⟨0x30000, 3, 3⟩
/-- CLK_STATUS.HOLDOVER (19 R566): A PLL entered holdover. -/
def CLK_STATUS_HOLDOVER : Fld := ⟨0x30000, 2, 2⟩
/-- CLK_STATUS.FAILOVER (19 R566): A domain switched under R555. -/
def CLK_STATUS_FAILOVER : Fld := ⟨0x30000, 1, 1⟩
/-- CLK_STATUS.REFUSED (19 R566): A switch write was refused. -/
def CLK_STATUS_REFUSED : Fld := ⟨0x30000, 0, 0⟩
/-- CLK_READY.READY (19 R566): Bit s: source s ready. -/
def CLK_READY_READY : Fld := ⟨0x30004, 15, 0⟩
/-- CLK_TOL.TOL (19 R566): Stability tolerance in 0.05 % units, 1–100. -/
def CLK_TOL_TOL : Fld := ⟨0x30008, 7, 0⟩
/-- CLK_CNT_GATED.COUNT (19 R566): Accesses ended GATED, saturating; write 0 to clear. -/
def CLK_CNT_GATED_COUNT : Fld := ⟨0x3000c, 31, 0⟩
/-- CLK_DOMd.ACT of instance d (19 R566): Position in R554's list of the source in use. -/
def CLK_DOM_ACT (d : Nat) : Fld := ⟨0x30020 + d * 0x4, 8, 8⟩
/-- CLK_DOMd.SEL of instance d (19 R566): Requested position; judged under R558. -/
def CLK_DOM_SEL (d : Nat) : Fld := ⟨0x30020 + d * 0x4, 0, 0⟩
/-- CLK_CKOc.SEL of instance c (19 R566): Source per R562. -/
def CLK_CKO_SEL (c : Nat) : Fld := ⟨0x30060 + c * 0x4, 31, 24⟩
/-- CLK_CKOc.DIV of instance c (19 R566): Divisor less 1. -/
def CLK_CKO_DIV (c : Nat) : Fld := ⟨0x30060 + c * 0x4, 15, 0⟩
/-- CLK_PLLs_CFG.REF of instance s (19 R566): 0 XA, 1 XB. -/
def CLK_PLL_CFG_REF (s : Nat) : Fld := ⟨0x30100 + s * 0x10, 31, 30⟩
/-- CLK_PLLs_CFG.ALTREF of instance s (19 R566): 0 none, 1 XA, 2 XB. -/
def CLK_PLL_CFG_ALTREF (s : Nat) : Fld := ⟨0x30100 + s * 0x10, 29, 28⟩
/-- CLK_PLLs_CFG.NINT of instance s (19 R566): Integer multiplier. -/
def CLK_PLL_CFG_NINT (s : Nat) : Fld := ⟨0x30100 + s * 0x10, 27, 16⟩
/-- CLK_PLLs_CFG.HOLD of instance s (19 R566): In holdover. -/
def CLK_PLL_CFG_HOLD (s : Nat) : Fld := ⟨0x30100 + s * 0x10, 15, 15⟩
/-- CLK_PLLs_CFG.LOCK of instance s (19 R566): Locked. -/
def CLK_PLL_CFG_LOCK (s : Nat) : Fld := ⟨0x30100 + s * 0x10, 14, 14⟩
/-- CLK_PLLs_FRAC.FRAC of instance s (19 R566): Fractional multiplier in 1/2^24. -/
def CLK_PLL_FRAC_FRAC (s : Nat) : Fld := ⟨0x30104 + s * 0x10, 23, 0⟩
/-- CLK_PLLs_SSC.EN of instance s (19 R566): Down-spread on. -/
def CLK_PLL_SSC_EN (s : Nat) : Fld := ⟨0x30108 + s * 0x10, 31, 31⟩
/-- CLK_PLLs_SSC.SPREAD of instance s (19 R566): Spread in 0.1 % steps, 0–20. -/
def CLK_PLL_SSC_SPREAD (s : Nat) : Fld := ⟨0x30108 + s * 0x10, 20, 16⟩
/-- CLK_PLLs_SSC.FMOD of instance s (19 R566): Modulation in kHz, 30–63. -/
def CLK_PLL_SSC_FMOD (s : Nat) : Fld := ⟨0x30108 + s * 0x10, 5, 0⟩
/-- PWR_STATUS.ARSTOFF (20 R592): Auto-restart limit reached (R589). -/
def PWR_STATUS_ARSTOFF : Fld := ⟨0x40000, 6, 6⟩
/-- PWR_STATUS.DIV (20 R592): Clock division of R586 in force. -/
def PWR_STATUS_DIV : Fld := ⟨0x40000, 5, 5⟩
/-- PWR_STATUS.PCAP (20 R592): Some region has PK > 0. -/
def PWR_STATUS_PCAP : Fld := ⟨0x40000, 4, 4⟩
/-- PWR_STATUS.ILIMIT (20 R592): Current limit acted for 1 ms. -/
def PWR_STATUS_ILIMIT : Fld := ⟨0x40000, 3, 3⟩
/-- PWR_STATUS.PHASE (20 R592): A phase was shed. -/
def PWR_STATUS_PHASE : Fld := ⟨0x40000, 2, 2⟩
/-- PWR_STATUS.LATE (20 R592): A request was carried out past WAITMAX. -/
def PWR_STATUS_LATE : Fld := ⟨0x40000, 1, 1⟩
/-- PWR_STATUS.REFUSED (20 R592): A PWR_REQ was refused. -/
def PWR_STATUS_REFUSED : Fld := ⟨0x40000, 0, 0⟩
/-- PWR_VIN.IIN (20 R592): Input current in 10 mA. -/
def PWR_VIN_IIN : Fld := ⟨0x40004, 31, 16⟩
/-- PWR_VIN.VIN (20 R592): Input voltage in 10 mV. -/
def PWR_VIN_VIN : Fld := ⟨0x40004, 15, 0⟩
/-- PWR_POWER.STACK (20 R592): Stack power in 0.1 W. -/
def PWR_POWER_STACK : Fld := ⟨0x40008, 31, 16⟩
/-- PWR_POWER.INPUT (20 R592): Input power in 0.1 W. -/
def PWR_POWER_INPUT : Fld := ⟨0x40008, 15, 0⟩
/-- PWR_KCFG.CAP (20 R592): Bucket capacity in 0.1 A. -/
def PWR_KCFG_CAP : Fld := ⟨0x40010, 31, 24⟩
/-- PWR_KCFG.RATE (20 R592): Refill in 0.1 A/µs. -/
def PWR_KCFG_RATE : Fld := ⟨0x40010, 23, 16⟩
/-- PWR_KCFG.WAITMAX (20 R592): Wait limit in µs. -/
def PWR_KCFG_WAITMAX : Fld := ⟨0x40010, 15, 0⟩
/-- PWR_KCOST.WAKE (20 R592): Wake cost in 0.1 A. -/
def PWR_KCOST_WAKE : Fld := ⟨0x40014, 31, 24⟩
/-- PWR_KCOST.FSTEP (20 R592): Fabric cost per point in 0.1 A. -/
def PWR_KCOST_FSTEP : Fld := ⟨0x40014, 23, 16⟩
/-- PWR_KCOST.ESTEP (20 R592): Engine cost per point in 0.1 A. -/
def PWR_KCOST_ESTEP : Fld := ⟨0x40014, 15, 8⟩
/-- PWR_KCOST.MSTEP (20 R592): Margin step cost in 0.1 A. -/
def PWR_KCOST_MSTEP : Fld := ⟨0x40014, 7, 0⟩
/-- PWR_KSTAT.CREDIT (20 R592): Bucket in 0.1 A. -/
def PWR_KSTAT_CREDIT : Fld := ⟨0x40018, 31, 24⟩
/-- PWR_KSTAT.QUEUED (20 R592): Requests queued, 0–256 less 1, saturating. -/
def PWR_KSTAT_QUEUED : Fld := ⟨0x40018, 23, 16⟩
/-- PWR_PCAP.INCAP (20 R592): Input power limit in W. -/
def PWR_PCAP_INCAP : Fld := ⟨0x4001c, 31, 16⟩
/-- PWR_PCAP.STACKCAP (20 R592): Stack power limit in W. -/
def PWR_PCAP_STACKCAP : Fld := ⟨0x4001c, 15, 0⟩
/-- PWR_REQ.GO (20 R592): 1: submit the request. -/
def PWR_REQ_GO : Fld := ⟨0x40020, 31, 31⟩
/-- PWR_REQ.KIND (20 R592): 0 point change, 1 wake, 2 power-down; others reserved. -/
def PWR_REQ_KIND : Fld := ⟨0x40020, 30, 28⟩
/-- PWR_REQ.PRIO (20 R592): Priority 0 or 1; 2 and 3 are taken as 1. -/
def PWR_REQ_PRIO : Fld := ⟨0x40020, 27, 26⟩
/-- PWR_REQ.DOMAIN (20 R592): 0 fabric, 1 engine, 2 both. -/
def PWR_REQ_DOMAIN : Fld := ⟨0x40020, 25, 24⟩
/-- PWR_REQ.POINT (20 R592): P0–P3. -/
def PWR_REQ_POINT : Fld := ⟨0x40020, 23, 22⟩
/-- PWR_REQ.REGION (20 R592): Region. -/
def PWR_REQ_REGION : Fld := ⟨0x40020, 5, 0⟩
/-- PWR_ARST.EN (20 R592): Auto-restart after TEMP. -/
def PWR_ARST_EN : Fld := ⟨0x40024, 31, 31⟩
/-- PWR_ARST.COUNT (20 R592): Auto-restarts in the last hour, 0–3. -/
def PWR_ARST_COUNT : Fld := ⟨0x40024, 1, 0⟩
/-- PWR_DOWN.WAIT (20 R592): Power-down wait in µs. -/
def PWR_DOWN_WAIT : Fld := ⟨0x40028, 15, 0⟩
/-- PWR_RGNn.FPT of instance n (20 R592): Fabric point in force. -/
def PWR_RGN_FPT (n : Nat) : Fld := ⟨0x40100 + n * 0x4, 31, 30⟩
/-- PWR_RGNn.EPT of instance n (20 R592): Engine point in force. -/
def PWR_RGN_EPT (n : Nat) : Fld := ⟨0x40100 + n * 0x4, 29, 28⟩
/-- PWR_RGNn.INITF of instance n (20 R592): Initial fabric point. -/
def PWR_RGN_INITF (n : Nat) : Fld := ⟨0x40100 + n * 0x4, 27, 26⟩
/-- PWR_RGNn.INITE of instance n (20 R592): Initial engine point. -/
def PWR_RGN_INITE (n : Nat) : Fld := ⟨0x40100 + n * 0x4, 25, 24⟩
/-- PWR_RGNn.FBUSY of instance n (20 R592): Fabric change in progress. -/
def PWR_RGN_FBUSY (n : Nat) : Fld := ⟨0x40100 + n * 0x4, 23, 23⟩
/-- PWR_RGNn.EBUSY of instance n (20 R592): Engine change in progress. -/
def PWR_RGN_EBUSY (n : Nat) : Fld := ⟨0x40100 + n * 0x4, 22, 22⟩
/-- PWR_RGNn.DOWN of instance n (20 R592): Power-down in progress. -/
def PWR_RGN_DOWN (n : Nat) : Fld := ⟨0x40100 + n * 0x4, 21, 21⟩
/-- PWR_RGNn.K of instance n (20 R592): Skip level K, 0–6. -/
def PWR_RGN_K (n : Nat) : Fld := ⟨0x40100 + n * 0x4, 20, 18⟩
/-- PWR_RGNn.PK of instance n (20 R592): Power throttle level, saturating at 3; K shows the whole level. -/
def PWR_RGN_PK (n : Nat) : Fld := ⟨0x40100 + n * 0x4, 17, 16⟩
/-- PWR_RGNn.LEAD of instance n (20 R592): Early-wake lead in µs; 0 off. -/
def PWR_RGN_LEAD (n : Nat) : Fld := ⟨0x40100 + n * 0x4, 15, 0⟩
/-- PWR_RAILr.PHASES of instance r (20 R592): Phases built, N + 2. -/
def PWR_RAIL_PHASES (r : Nat) : Fld := ⟨0x40200 + r * 0x4, 31, 28⟩
/-- PWR_RAILr.INSERV of instance r (20 R592): Phases in service. -/
def PWR_RAIL_INSERV (r : Nat) : Fld := ⟨0x40200 + r * 0x4, 27, 24⟩
/-- PWR_RAILr.MV of instance r (20 R592): Present voltage target in mV. -/
def PWR_RAIL_MV (r : Nat) : Fld := ⟨0x40200 + r * 0x4, 15, 0⟩
/-- THM_CFG.WARN (20 R593): Warning threshold in °C. -/
def THM_CFG_WARN : Fld := ⟨0x50000, 31, 24⟩
/-- THM_CFG.THROT (20 R593): Throttle threshold in °C. -/
def THM_CFG_THROT : Fld := ⟨0x50000, 23, 16⟩
/-- THM_CFG.SHUT (20 R593): Shutdown threshold in °C. -/
def THM_CFG_SHUT : Fld := ⟨0x50000, 15, 8⟩
/-- THM_CFG.HYST (20 R593): Hysteresis in °C. -/
def THM_CFG_HYST : Fld := ⟨0x50000, 7, 4⟩
/-- THM_CFG.SUBK (20 R593): Substitute floor, 1–6. -/
def THM_CFG_SUBK : Fld := ⟨0x50000, 2, 0⟩
/-- THM_STATUS.SUBST (20 R593): Some site reads its substitute value. -/
def THM_STATUS_SUBST : Fld := ⟨0x50004, 3, 3⟩
/-- THM_STATUS.BROKEN (20 R593): A sensor was marked broken. -/
def THM_STATUS_BROKEN : Fld := ⟨0x50004, 2, 2⟩
/-- THM_STATUS.THROT (20 R593): Some region has KT > 0. -/
def THM_STATUS_THROT : Fld := ⟨0x50004, 1, 1⟩
/-- THM_STATUS.WARN (20 R593): Some region or T0 site is at or above warning. -/
def THM_STATUS_WARN : Fld := ⟨0x50004, 0, 0⟩
/-- THM_MAX.SITE (20 R593): Site of the chip's reading. -/
def THM_MAX_SITE : Fld := ⟨0x50008, 23, 16⟩
/-- THM_MAX.TEMP (20 R593): Chip reading. -/
def THM_MAX_TEMP : Fld := ⟨0x50008, 15, 0⟩
/-- THM_SITEs.SUBST of instance s (20 R593): Substitute value in use. -/
def THM_SITE_SUBST (s : Nat) : Fld := ⟨0x50100 + s * 0x4, 31, 31⟩
/-- THM_SITEs.BROKEN1 of instance s (20 R593): Sensor 1 broken. -/
def THM_SITE_BROKEN1 (s : Nat) : Fld := ⟨0x50100 + s * 0x4, 30, 30⟩
/-- THM_SITEs.BROKEN0 of instance s (20 R593): Sensor 0 broken. -/
def THM_SITE_BROKEN0 (s : Nat) : Fld := ⟨0x50100 + s * 0x4, 29, 29⟩
/-- THM_SITEs.TEMP of instance s (20 R593): Site reading. -/
def THM_SITE_TEMP (s : Nat) : Fld := ⟨0x50100 + s * 0x4, 15, 0⟩
/-- THM_RGNn.WARN of instance n (20 R593): At or above warning. -/
def THM_RGN_WARN (n : Nat) : Fld := ⟨0x50800 + n * 0x4, 31, 31⟩
/-- THM_RGNn.THROT of instance n (20 R593): KT > 0. -/
def THM_RGN_THROT (n : Nat) : Fld := ⟨0x50800 + n * 0x4, 30, 30⟩
/-- THM_RGNn.SUBST of instance n (20 R593): A site of the region reads its substitute value. -/
def THM_RGN_SUBST (n : Nat) : Fld := ⟨0x50800 + n * 0x4, 29, 29⟩
/-- THM_RGNn.KT of instance n (20 R593): Thermal skip level. -/
def THM_RGN_KT (n : Nat) : Fld := ⟨0x50800 + n * 0x4, 28, 26⟩
/-- THM_RGNn.TEMP of instance n (20 R593): Region reading. -/
def THM_RGN_TEMP (n : Nat) : Fld := ⟨0x50800 + n * 0x4, 15, 0⟩
/-- BST_CTRL.ACHK (21 R605): Analogue checks on. -/
def BST_CTRL_ACHK : Fld := ⟨0xb0000, 31, 31⟩
/-- BST_CTRL.PERIOD (21 R605): Check period in minutes, 1–1,440. -/
def BST_CTRL_PERIOD : Fld := ⟨0xb0000, 10, 0⟩
/-- BST_STATUS.RUNNING (21 R605): Tests and checks running, 0–65,535. -/
def BST_STATUS_RUNNING : Fld := ⟨0xb0004, 31, 16⟩
/-- BST_STATUS.ABANDONED (21 R605): A test was abandoned. -/
def BST_STATUS_ABANDONED : Fld := ⟨0xb0004, 2, 2⟩
/-- BST_STATUS.ACHKFAIL (21 R605): An analogue check failed. -/
def BST_STATUS_ACHKFAIL : Fld := ⟨0xb0004, 1, 1⟩
/-- BST_STATUS.FAIL (21 R605): A unit test failed. -/
def BST_STATUS_FAIL : Fld := ⟨0xb0004, 0, 0⟩
/-- BST_CNT.PASS (21 R605): Passes, modulo 65,536; write 0 to clear. -/
def BST_CNT_PASS : Fld := ⟨0xb0008, 31, 16⟩
/-- BST_CNT.FAIL (21 R605): Failures, saturating; write 0 to clear. -/
def BST_CNT_FAIL : Fld := ⟨0xb0008, 15, 0⟩
/-- BST_RES.LOST (21 R605): Records overwritten unread, saturating. -/
def BST_RES_LOST : Fld := ⟨0xb000c, 31, 16⟩
/-- BST_RES.HEAD (21 R605): Index of the next record to be written. -/
def BST_RES_HEAD : Fld := ⟨0xb000c, 5, 0⟩
/-- BST_RECk_Ww.REC of instance k, w (21 R605): Bits [32w + 31:32w] of record k; a read of W0 copies all four words, and W1 to W3 read from that copy. -/
def BST_REC_W_REC (k : Nat) (w : Nat) : Fld := ⟨0xb1000 + k * 0x10 + w * 0x4, 31, 0⟩
/-- CRC_Un_CFG.EN of instance n (22 R622): Unit bound and running. -/
def CRC_U_CFG_EN (n : Nat) : Fld := ⟨0xc0000 + n * 0x20, 31, 31⟩
/-- CRC_Un_CFG.ALG of instance n (22 R622): Algorithm per R606. -/
def CRC_U_CFG_ALG (n : Nat) : Fld := ⟨0xc0000 + n * 0x20, 30, 29⟩
/-- CRC_Un_CFG.MODE of instance n (22 R622): 0 compute, 1 check. -/
def CRC_U_CFG_MODE (n : Nat) : Fld := ⟨0xc0000 + n * 0x20, 28, 28⟩
/-- CRC_Un_CFG.AEN of instance n (22 R622): Alive check on. -/
def CRC_U_CFG_AEN (n : Nat) : Fld := ⟨0xc0000 + n * 0x20, 27, 27⟩
/-- CRC_Un_CFG.AW of instance n (22 R622): 0 8-bit, 1 16-bit counter. -/
def CRC_U_CFG_AW (n : Nat) : Fld := ⟨0xc0000 + n * 0x20, 26, 26⟩
/-- CRC_Un_CFG.AOFS of instance n (22 R622): Byte of payload word 0. -/
def CRC_U_CFG_AOFS (n : Nat) : Fld := ⟨0xc0000 + n * 0x20, 25, 22⟩
/-- CRC_Un_CFG.NI of instance n (22 R622): NI of the tapped stream, 0–79. -/
def CRC_U_CFG_NI (n : Nat) : Fld := ⟨0xc0000 + n * 0x20, 21, 15⟩
/-- CRC_Un_CFG.PORT of instance n (22 R622): Destination stream port. -/
def CRC_U_CFG_PORT (n : Nat) : Fld := ⟨0xc0000 + n * 0x20, 14, 12⟩
/-- CRC_Un_MSG.GAP of instance n (22 R622): Allowed gap, 0–255. -/
def CRC_U_MSG_GAP (n : Nat) : Fld := ⟨0xc0004 + n * 0x20, 23, 16⟩
/-- CRC_Un_MSG.MSGPKT of instance n (22 R622): Packets per message; 0 ends at SMARK. -/
def CRC_U_MSG_MSGPKT (n : Nat) : Fld := ⟨0xc0004 + n * 0x20, 15, 0⟩
/-- CRC_Un_RES_LO.VALUE of instance n (22 R622): Latched check value: [31:0] in LO, [63:32] in HI; zero-extended. -/
def CRC_U_RES_LO_VALUE (n : Nat) : Fld := ⟨0xc0008 + n * 0x20, 31, 0⟩
/-- CRC_Un_RES_HI.VALUE of instance n (22 R622): Latched check value: [31:0] in LO, [63:32] in HI; zero-extended. -/
def CRC_U_RES_HI_VALUE (n : Nat) : Fld := ⟨0xc000c + n * 0x20, 31, 0⟩
/-- CRC_Un_STAT.VERDICT of instance n (22 R622): Per R610. -/
def CRC_U_STAT_VERDICT (n : Nat) : Fld := ⟨0xc0010 + n * 0x20, 31, 29⟩
/-- CRC_Un_STAT.NEW of instance n (22 R622): A result was latched since the last CLR. -/
def CRC_U_STAT_NEW (n : Nat) : Fld := ⟨0xc0010 + n * 0x20, 28, 28⟩
/-- CRC_Un_STAT.OVER of instance n (22 R622): A result replaced one with NEW = 1. -/
def CRC_U_STAT_OVER (n : Nat) : Fld := ⟨0xc0010 + n * 0x20, 27, 27⟩
/-- CRC_Un_STAT.MSGS of instance n (22 R622): Messages completed, modulo 65,536. -/
def CRC_U_STAT_MSGS (n : Nat) : Fld := ⟨0xc0010 + n * 0x20, 15, 0⟩
/-- CRC_Un_ALIVE.AERR of instance n (22 R622): Out-of-sequence packets, saturating. -/
def CRC_U_ALIVE_AERR (n : Nat) : Fld := ⟨0xc0014 + n * 0x20, 31, 16⟩
/-- CRC_Un_ALIVE.REPEAT of instance n (22 R622): Repeats, saturating. -/
def CRC_U_ALIVE_REPEAT (n : Nat) : Fld := ⟨0xc0014 + n * 0x20, 15, 8⟩
/-- CRC_Un_ALIVE.LOST of instance n (22 R622): Packets lost within GAP, saturating. -/
def CRC_U_ALIVE_LOST (n : Nat) : Fld := ⟨0xc0014 + n * 0x20, 7, 0⟩
/-- CRC_Un_CTL.CLR of instance n (22 R622): 1: clear under R612. -/
def CRC_U_CTL_CLR (n : Nat) : Fld := ⟨0xc0018 + n * 0x20, 0, 0⟩
/-- MBX_CFG.FILLTO (22 R623): Fill timeout in µs. -/
def MBX_CFG_FILLTO : Fld := ⟨0xd0000, 31, 16⟩
/-- MBX_CFG.HOSTIRQ (22 R623): Drive SVC_IRQ_N under R619. -/
def MBX_CFG_HOSTIRQ : Fld := ⟨0xd0000, 15, 15⟩
/-- MBX_CFG.IRQLVL (22 R623): READY slots that assert SVC_IRQ_N, 1–4,096. -/
def MBX_CFG_IRQLVL : Fld := ⟨0xd0000, 12, 0⟩
/-- MBX_STATUS.FILLTO (22 R623): A slot closed by fill timeout. -/
def MBX_STATUS_FILLTO : Fld := ⟨0xd0004, 4, 4⟩
/-- MBX_STATUS.BADLEN (22 R623): A result header was refused. -/
def MBX_STATUS_BADLEN : Fld := ⟨0xd0004, 3, 3⟩
/-- MBX_STATUS.BADACK (22 R623): An acknowledge did not match. -/
def MBX_STATUS_BADACK : Fld := ⟨0xd0004, 2, 2⟩
/-- MBX_STATUS.OVERRUN (22 R623): A result found no EMPTY slot. -/
def MBX_STATUS_OVERRUN : Fld := ⟨0xd0004, 1, 1⟩
/-- MBX_LEVEL.FILLING (22 R623): FILLING slots, 0–16. -/
def MBX_LEVEL_FILLING : Fld := ⟨0xd0008, 31, 27⟩
/-- MBX_LEVEL.READY (22 R623): READY slots, 0–4,096. -/
def MBX_LEVEL_READY : Fld := ⟨0xd0008, 25, 13⟩
/-- MBX_LEVEL.TAKEN (22 R623): TAKEN slots, 0–4,096. -/
def MBX_LEVEL_TAKEN : Fld := ⟨0xd0008, 12, 0⟩
/-- MBX_NEXT.VALID (22 R623): A READY slot exists. -/
def MBX_NEXT_VALID : Fld := ⟨0xd000c, 31, 31⟩
/-- MBX_NEXT.SEQ (22 R623): Its SEQ. -/
def MBX_NEXT_SEQ : Fld := ⟨0xd000c, 27, 12⟩
/-- MBX_NEXT.SLOT (22 R623): Oldest READY slot. -/
def MBX_NEXT_SLOT : Fld := ⟨0xd000c, 11, 0⟩
/-- MBX_ACK.GO (22 R623): 1: acknowledge under R618. -/
def MBX_ACK_GO : Fld := ⟨0xd0010, 31, 31⟩
/-- MBX_ACK.SEQ (22 R623): Sequence number. -/
def MBX_ACK_SEQ : Fld := ⟨0xd0010, 27, 12⟩
/-- MBX_ACK.SLOT (22 R623): Slot. -/
def MBX_ACK_SLOT : Fld := ⟨0xd0010, 11, 0⟩
/-- MBX_CNT.OVERRUN (22 R623): Results lost to overrun, saturating; write 0 to clear. -/
def MBX_CNT_OVERRUN : Fld := ⟨0xd0014, 31, 16⟩
/-- MBX_CNT.POSTED (22 R623): Slots that became READY, modulo 65,536; write 0 to clear. -/
def MBX_CNT_POSTED : Fld := ⟨0xd0014, 15, 0⟩
/-- MBX_CNT2.BADLEN (22 R623): Refused result headers, saturating; write 0 to clear. -/
def MBX_CNT2_BADLEN : Fld := ⟨0xd0018, 31, 24⟩
/-- MBX_CNT2.BADACK (22 R623): Unmatched acknowledges, saturating; write 0 to clear. -/
def MBX_CNT2_BADACK : Fld := ⟨0xd0018, 23, 16⟩
/-- MBX_CNT2.FILLTO (22 R623): Fill timeouts, saturating; write 0 to clear. -/
def MBX_CNT2_FILLTO : Fld := ⟨0xd0018, 15, 8⟩
/-- MBX_CNT2.EXCESS (22 R623): Words beyond LENGTH discarded, saturating; write 0 to clear. -/
def MBX_CNT2_EXCESS : Fld := ⟨0xd0018, 7, 0⟩
/-- MBX_SEQ.SEQ (22 R623): Sequence number of the next slot allocated. -/
def MBX_SEQ_SEQ : Fld := ⟨0xd001c, 15, 0⟩
/-- IOB_STATUS.SBLOCK (23 R645): An input pair lost lock. -/
def IOB_STATUS_SBLOCK : Fld := ⟨0xe0000, 2, 2⟩
/-- IOB_STATUS.SBOVF (23 R645): A sensor word was discarded. -/
def IOB_STATUS_SBOVF : Fld := ⟨0xe0000, 1, 1⟩
/-- IOB_STATUS.VIOERR (23 R645): A GIO bank entered or left the condition of R632. -/
def IOB_STATUS_VIOERR : Fld := ⟨0xe0000, 0, 0⟩
/-- IOB_VIO.DECLA (23 R645): VIOA declared: 0 off, 1 1.8 V, 2 3.3 V. -/
def IOB_VIO_DECLA : Fld := ⟨0xe0004, 31, 30⟩
/-- IOB_VIO.DECLB (23 R645): VIOB declared, as DECLA. -/
def IOB_VIO_DECLB : Fld := ⟨0xe0004, 29, 28⟩
/-- IOB_VIO.OKB (23 R645): Bank B driven. -/
def IOB_VIO_OKB : Fld := ⟨0xe0004, 17, 17⟩
/-- IOB_VIO.OKA (23 R645): Bank A driven. -/
def IOB_VIO_OKA : Fld := ⟨0xe0004, 16, 16⟩
/-- IOB_VIO.VIOA (23 R645): Measured VIOA in 20 mV. -/
def IOB_VIO_VIOA : Fld := ⟨0xe0004, 15, 8⟩
/-- IOB_VIO.VIOB (23 R645): Measured VIOB in 20 mV. -/
def IOB_VIO_VIOB : Fld := ⟨0xe0004, 7, 0⟩
/-- IOB_SBb_CFG.STD of instance b (23 R645): 0 LVDS, 1 SLVS-400. -/
def IOB_SB_CFG_STD (b : Nat) : Fld := ⟨0xe0100 + b * 0x4, 31, 31⟩
/-- IOB_SBb_CFG.RATE of instance b (23 R645): Bit rate in Mb/s, 100–1,600. -/
def IOB_SB_CFG_RATE (b : Nat) : Fld := ⟨0xe0100 + b * 0x4, 10, 0⟩
/-- IOB_SBb_LOCK_LO.LOCK of instance b (23 R645): Bit i: input pair i locked; pairs 0–31 in LO, 32–47 in HI [15:0], HI [31:16] reserved. -/
def IOB_SB_LOCK_LO_LOCK (b : Nat) : Fld := ⟨0xe0200 + b * 0x8, 31, 0⟩
/-- IOB_SBb_LOCK_HI.LOCK of instance b (23 R645): Bit i: input pair i locked; pairs 0–31 in LO, 32–47 in HI [15:0], HI [31:16] reserved. -/
def IOB_SB_LOCK_HI_LOCK (b : Nat) : Fld := ⟨0xe0204 + b * 0x8, 31, 0⟩
/-- IOB_SBb_OVF.COUNT of instance b (23 R645): Words discarded under R163, saturating; write 0 to clear. -/
def IOB_SB_OVF_COUNT (b : Nat) : Fld := ⟨0xe0300 + b * 0x4, 31, 0⟩
/-- IOB_SBPb_i.EN of instance b, i (23 R645): Pair in use. -/
def IOB_SBP_EN (b : Nat) (i : Nat) : Fld := ⟨0xe1000 + b * 0xc0 + i * 0x4, 31, 31⟩
/-- IOB_SBPb_i.OUT of instance b, i (23 R645): 0 input, 1 output. -/
def IOB_SBP_OUT (b : Nat) (i : Nat) : Fld := ⟨0xe1000 + b * 0xc0 + i * 0x4, 30, 30⟩
/-- IOB_SBPb_i.ROW of instance b, i (23 R645): Owner region b + 8 × ROW (R163). -/
def IOB_SBP_ROW (b : Nat) (i : Nat) : Fld := ⟨0xe1000 + b * 0xc0 + i * 0x4, 29, 27⟩
/-- IOB_GIOg.OWNER of instance g (23 R645): 0–63 region, 64 chip; 65–127 reserved. -/
def IOB_GIO_OWNER (g : Nat) : Fld := ⟨0xe2000 + g * 0x4, 31, 25⟩
/-- IOB_GIOg.PULL of instance g (23 R645): 0 none, 1 up, 2 down, 3 reserved. -/
def IOB_GIO_PULL (g : Nat) : Fld := ⟨0xe2000 + g * 0x4, 24, 23⟩
/-- IOB_GIOg.DRIVE of instance g (23 R645): 4, 8, 12, 16 mA for 0–3. -/
def IOB_GIO_DRIVE (g : Nat) : Fld := ⟨0xe2000 + g * 0x4, 22, 21⟩
/-- IOB_GIOg.SLOW of instance g (23 R645): Slow edges. -/
def IOB_GIO_SLOW (g : Nat) : Fld := ⟨0xe2000 + g * 0x4, 20, 20⟩
/-- IOB_GIOg.I of instance g (23 R645): Land level as received. -/
def IOB_GIO_I (g : Nat) : Fld := ⟨0xe2000 + g * 0x4, 2, 2⟩
/-- IOB_GIOg.OE of instance g (23 R645): Output enable, OWNER 64 only. -/
def IOB_GIO_OE (g : Nat) : Fld := ⟨0xe2000 + g * 0x4, 1, 1⟩
/-- IOB_GIOg.O of instance g (23 R645): Output level, OWNER 64 only. -/
def IOB_GIO_O (g : Nat) : Fld := ⟨0xe2000 + g * 0x4, 0, 0⟩
/-- SUP_STAT.STATE (24 R659): 0 in reset, 1 running, 2 stopped by a lockstep mismatch, 3 running the SAFE handler, 4 stopped by the chip wat. -/
def SUP_STAT_STATE : Fld := ⟨0x120000, 31, 29⟩
/-- SUP_STAT.SH (24 R659): Shadow set in use. -/
def SUP_STAT_SH : Fld := ⟨0x120000, 28, 28⟩
/-- SUP_STAT.PC (24 R659): PC of the leading engine's next instruction to issue. -/
def SUP_STAT_PC : Fld := ⟨0x120000, 27, 16⟩
/-- SUP_STAT.IPEND (24 R659): Bit s: supervisor source s pending (R247). -/
def SUP_STAT_IPEND : Fld := ⟨0x120000, 15, 8⟩
/-- SUP_LOCK.VALID (24 R659): A lockstep mismatch has been recorded since the last exit from OFF. -/
def SUP_LOCK_VALID : Fld := ⟨0x120004, 31, 31⟩
/-- SUP_LOCK.WHERE (24 R659): 0 bus output, 1 memory output, 2 register output, 3 interrupt logic; others reserved. -/
def SUP_LOCK_WHERE : Fld := ⟨0x120004, 30, 28⟩
/-- SUP_LOCK.PC (24 R659): PC of the leading engine at the mismatch. -/
def SUP_LOCK_PC : Fld := ⟨0x120004, 27, 16⟩
/-- SUP_CNT_ISSUE.COUNT (24 R659): Instructions issued by the supervisor, modulo 2^32. -/
def SUP_CNT_ISSUE_COUNT : Fld := ⟨0x120008, 31, 0⟩
/-- SVC_FRAMES.COUNT (24 R659): Service-port frames received with a correct CRC, modulo 2^32. -/
def SVC_FRAMES_COUNT : Fld := ⟨0x120100, 31, 0⟩
/-- DBG_STAT.DEBUG (24 R659): Copy of SYS_SVCCFG.DEBUG. -/
def DBG_STAT_DEBUG : Fld := ⟨0x120104, 31, 31⟩
/-- DBG_STAT.REGACC (24 R659): The test port's register-access instruction is selected. -/
def DBG_STAT_REGACC : Fld := ⟨0x120104, 30, 30⟩
/-- DBG_STAT.REFUSED (24 R659): Test-port register accesses answered REFUSED, saturating. -/
def DBG_STAT_REFUSED : Fld := ⟨0x120104, 15, 0⟩
/-- SYS_BADWR.COUNT (24 R661): Write accesses counted under R12 and R662, saturating. -/
def SYS_BADWR_COUNT : Fld := ⟨0x20, 31, 0⟩
/-- SYS_BADWR_ADDR.ADDR (24 R661): Address of the last access counted in SYS_BADWR. -/
def SYS_BADWR_ADDR_ADDR : Fld := ⟨0x24, 31, 0⟩
/-- SYS_SVCERR.CRCERR (24 R661): Frames refused under R656, saturating; write 0 to clear. -/
def SYS_SVCERR_CRCERR : Fld := ⟨0x28, 31, 24⟩
/-- SYS_SVCERR.SHORT (24 R661): Frames cut short, saturating; write 0 to clear. -/
def SYS_SVCERR_SHORT : Fld := ⟨0x28, 23, 16⟩
/-- SYS_SVCERR.LOSTRSP (24 R661): Responses discarded, saturating; write 0 to clear. -/
def SYS_SVCERR_LOSTRSP : Fld := ⟨0x28, 15, 8⟩
/-- SYS_SVCERR.REFUSED (24 R661): Accesses answered REFUSED under R650, saturating; write 0 to clear. -/
def SYS_SVCERR_REFUSED : Fld := ⟨0x28, 7, 0⟩
/-- SYS_SVCCFG.DEBUG (24 R661): Test-port register access allowed. -/
def SYS_SVCCFG_DEBUG : Fld := ⟨0x2c, 0, 0⟩
/-- SYS_SVCWk_BASE.BASE of instance k (24 R661): Window base address [31:2]. -/
def SYS_SVCW_BASE_BASE (k : Nat) : Fld := ⟨0x100 + k * 0x8, 31, 2⟩
/-- SYS_SVCWk_CFG.R of instance k (24 R661): Reads permitted. -/
def SYS_SVCW_CFG_R (k : Nat) : Fld := ⟨0x104 + k * 0x8, 31, 31⟩
/-- SYS_SVCWk_CFG.W of instance k (24 R661): Writes permitted. -/
def SYS_SVCW_CFG_W (k : Nat) : Fld := ⟨0x104 + k * 0x8, 30, 30⟩
/-- SYS_SVCWk_CFG.SIZE of instance k (24 R661): Window size 2^SIZE bytes, 2–25; 0 disables the window. -/
def SYS_SVCW_CFG_SIZE (k : Nat) : Fld := ⟨0x104 + k * 0x8, 4, 0⟩
/-- RGN_STATE.CAUSE of instance n (24 R661): Cause code of R48 of the last fence; [13:8] holds code − 0x20. -/
def RGN_STATE_CAUSE (n : Nat) : Fld := ⟨0x1000000 + n * 0x40000, 13, 8⟩
/-- RGN_STATE.STATE of instance n (24 R661): Region state, coded as in REGION_STATE (R57). -/
def RGN_STATE_STATE (n : Nat) : Fld := ⟨0x1000000 + n * 0x40000, 2, 0⟩
/-- LTA_SITEj.SITE of instance n, j (24 R661): Copy of THM_SITEs for site 3n + j, in its layout. -/
def LTA_SITE_SITE (n : Nat) (j : Nat) : Fld := ⟨0x1030000 + n * 0x40000 + j * 0x4, 31, 0⟩
/-- LTA_AGEm.AGE of instance n, m (24 R661): AGE of ageing monitor m (R537), 0.05 % units. -/
def LTA_AGE_AGE (n : Nat) (m : Nat) : Fld := ⟨0x1030100 + n * 0x40000 + m * 0x4, 7, 0⟩
/-- XMC_URANGE_LOu.VALID of instance u (16 R490): LO only: range valid; reserved in HI. -/
def XMC_URANGE_LO_VALID (u : Nat) : Fld := ⟨0x90600 + u * 0x8, 31, 31⟩
/-- XMC_URANGE_LOu.PAGE of instance u (16 R490): BASE page in LO; LIMIT page, exclusive, in HI. -/
def XMC_URANGE_LO_PAGE (u : Nat) : Fld := ⟨0x90600 + u * 0x8, 23, 0⟩
/-- XMC_URANGE_HIu.VALID of instance u (16 R490): LO only: range valid; reserved in HI. -/
def XMC_URANGE_HI_VALID (u : Nat) : Fld := ⟨0x90604 + u * 0x8, 31, 31⟩
/-- XMC_URANGE_HIu.PAGE of instance u (16 R490): BASE page in LO; LIMIT page, exclusive, in HI. -/
def XMC_URANGE_HI_PAGE (u : Nat) : Fld := ⟨0x90604 + u * 0x8, 23, 0⟩
/-- TRC_BASE_LO.BASE (10 R318): LO: address [31:6] in [31:6], [5:0] reserved. HI: address [35:32] in [3:0], [31:4] reserved. -/
def TRC_BASE_LO_BASE : Fld := ⟨0x110010, 31, 0⟩
/-- TRC_BASE_HI.BASE (10 R318): LO: address [31:6] in [31:6], [5:0] reserved. HI: address [35:32] in [3:0], [31:4] reserved. -/
def TRC_BASE_HI_BASE : Fld := ⟨0x110014, 31, 0⟩
/-- TRC_SIZE.LINES (10 R318): Ring size in 64 B lines, 4–65,536. -/
def TRC_SIZE_LINES : Fld := ⟨0x110018, 16, 0⟩
/-- TRC_WP.PTR (10 R318): Line index: next written (WP), next to be read (RP). -/
def TRC_WP_PTR : Fld := ⟨0x11001c, 15, 0⟩
/-- TRC_RP.PTR (10 R318): Line index: next written (WP), next to be read (RP). -/
def TRC_RP_PTR : Fld := ⟨0x110020, 15, 0⟩

end Sys2Proof.Machine
end

