-- ==== Sys2Proof/Machine/Ops.lean ====
section
/-! DEFINITION. The named operations every unit uses: register fields, regions, the position and its stamp, the
event log. -/

namespace Sys2Proof.Machine

/-! ### Register fields -/

/-- Where the register file keeps a field. -/
def Fld.key (f : Fld) : Nat := f.addr * 32 + f.lo

/-- The width of a field. -/
def Fld.width (f : Fld) : Nat := f.hi + 1 - f.lo

/-- The value of a field. -/
def State.rd (s : State) (f : Fld) : Nat := s.regs.get 0 f.key

/-- A field as a flag. -/
def State.flag (s : State) (f : Fld) : Bool := s.rd f != 0

/-- Gives a field a value, cut to its width. -/
def State.wr (s : State) (f : Fld) (v : Nat) : State :=
  { s with regs := s.regs.put 0 f.key (v % 2 ^ f.width) }

/-- Sets a flag field. -/
def State.raise (s : State) (f : Fld) : State := s.wr f 1

/-- Counts in a saturating field. -/
def State.bump (s : State) (f : Fld) (n : Nat := 1) : State := s.wr f (satAdd f.width (s.rd f) n)

/-- Counts in a field that wraps. -/
def State.count (s : State) (f : Fld) (n : Nat := 1) : State := s.wr f (s.rd f + n)

/-! ### Regions -/

/-- Region `n`. -/
def State.region (s : State) (n : Nat) : Region := s.regions.get {} n

/-- Puts back region `n`. -/
def State.setRegion (s : State) (n : Nat) (r : Region) : State :=
  { s with regions := s.regions.set n r }

/-- Changes region `n`. -/
def State.modRegion (s : State) (n : Nat) (f : Region → Region) : State :=
  s.setRegion n (f (s.region n))

/-- Unit identifiers of 01 R30, R31. -/
def unitId (region kind index : Nat) : Nat := region * 2 ^ 18 + kind * 2 ^ 14 + index

/-- The region as a whole. -/
def unitRegion (n : Nat) : Nat := unitId n 0x5 0

/-- The base-tier unit at `b` × 0x1_0000. -/
def unitBase (b : Nat) : Nat := unitId 0 0xF b

/-! ### Time -/

/-- Timebase cycles in a millisecond and in a microsecond (03 R70). -/
def msCycles : Nat := 1500000
def usCycles : Nat := 1500

/-- Nanoseconds since the last exit from OFF (02 R56). -/
def State.nowNs (s : State) : Nat := s.cyc * 2 / 3

/-! ### The position (03) -/

/-- One count in the units of positions. -/
def countUnit : Int := 2 ^ 48

/-- Encoder port `k`. -/
def State.port (s : State) (k : Nat) : EncPort := s.tb.ports.get {} k

/-- Changes the timebase. -/
def State.modTb (s : State) (f : Timebase → Timebase) : State := { s with tb := f s.tb }

/-- Changes encoder port `k`. -/
def State.modPort (s : State) (k : Nat) (f : EncPort → EncPort) : State :=
  s.modTb fun t => { t with ports := t.ports.set k (f (t.ports.get {} k)) }

/-- The window W of R89. -/
def State.window (s : State) : Nat := 2 ^ (s.rd PTB_INTERP_WIN)

/-- The velocity of R89 as (intervals, cycles): counts per cycle is their quotient. None held: 0 over 1. -/
def Timebase.slope (t : Timebase) (win : Nat) : Nat × Nat :=
  match t.times with
  | [] => (0, 1)
  | last :: rest =>
    let w := min win rest.length
    let first := (last :: rest).getD w last
    if w = 0 ∨ last ≤ first then (0, 1) else (w, last - first)

/-- +1 while DIR is FORWARD, −1 while REVERSE. -/
def Timebase.sign (t : Timebase) : Int := if t.rev then -1 else 1

/-- SIM velocity in units of 2^-32 count per cycle (R90). -/
def State.simVel (s : State) : Int := signedOf 32 (s.rd PTB_SIM_VEL_SIMVEL)

/-- The master's position that a follower reconstructs from its last reel (14 R424), kept constant once frozen (R427). -/
def State.reelPos (s : State) (r : Reel) : Int :=
  let t : Int := (s.krl.frozen.getD s.cyc * 256 : Nat)
  let p := r.pos + r.vel * ((r.delay : Int) + (t - r.at_)) * 2 ^ 8
  roundDiv p (2 ^ 32) * 2 ^ 32

/-- The measured position of R91 and R93, in units of 2^-48 count. -/
def State.measured (s : State) : Int :=
  let t := s.tb
  if 5 ≤ t.srcAct then t.ramp
  else if t.srcAct = 4 then
    match s.krl.reel with
    | some r => s.reelPos r
    | none => t.ramp
  else if t.cold then t.c * countUnit
  else match t.times with
  | [] => t.c * countUnit
  | last :: _ =>
    let (w, d) := t.slope s.window
    let bound : Int := 65535 * 2 ^ 32
    t.c * countUnit + clampInt (-bound) bound (t.sign * (w * (s.cyc - last) : Nat) * countUnit / (d : Int))

/-- VEL of the last reel used (14 R424). -/
def State.reelVel (s : State) : Int :=
  match s.krl.reel with
  | some r => r.vel
  | none => 0

/-- The velocity ve of R94, ahead by `l` cycles, in units of 2^-48 count. -/
def State.veTimes (s : State) (l : Nat) : Int :=
  let t := s.tb
  if t.srcAct = 5 then s.simVel * l * 2 ^ 16
  else if t.srcAct = 4 then s.reelVel * l * 2 ^ 16
  else if t.cold then 0
  else match t.times with
  | last :: prev :: _ =>
    let (w, d) := t.slope s.window
    let dn := s.cyc - last
    if dn ≤ last - prev ∨ w * dn ≤ d then t.sign * (w * l : Nat) * countUnit / (d : Int)
    else t.sign * (l : Int) * countUnit / (dn : Int)
  | _ => 0

/-- The prediction ve × L of R94. -/
def State.lead (s : State) : Int := s.veTimes (s.rd PTB_PRED_PRED)

/-- PTB_VEL of R90, R93, R82 and 14 R424. -/
def State.velReg (s : State) : Nat :=
  let t := s.tb
  if t.srcAct = 5 then unsignedOf 32 s.simVel
  else if t.srcAct = 4 then unsignedOf 32 s.reelVel
  else if t.cold then 0
  else let (w, d) := t.slope s.window
    unsignedOf 32 (roundDiv (t.sign * (w : Int) * 2 ^ 32) d)

/-- The position as its 80 bits: the integer above, 16 bits of fraction below (R84). -/
def pos80 (p : Int) : Nat := unsignedOf 80 (p / 2 ^ 32)

/-- The stamp of a position (R96). -/
def stampOf (p : Int) : Nat := unsignedOf 56 (p / 2 ^ 40)

/-- The stamp of the measured position. -/
def State.stamp (s : State) : Nat := stampOf s.measured

/-- `a` is before or at `b`, or the pair is unordered: a deadline `a` has passed at `b` when this holds strictly
(R97). -/
def stampPassed (deadline now : Nat) : Bool :=
  let d := (now + 2 ^ 56 - deadline % 2 ^ 56) % 2 ^ 56
  -- equal: not passed; now before the deadline: not passed; else passed, also when unordered
  !(d == 0 || decide (2 ^ 56 - 2 ^ 54 < d))

/-- Moves the tracks of R87 and the matcher position to the present. `turned`: DIR has changed. -/
def State.trackNow (s : State) (turned : Bool := false) : State :=
  let p := s.measured
  let m := p + s.lead
  let follow (old new : Int) : Int :=
    if turned then new else if s.tb.rev then min old new else max old new
  s.modTb fun t => { t with track := follow t.track p, mtrack := follow t.mtrack m, pm := m }

/-! ### The event log (02 R56 to R60, R664) -/

/-- The FLAGS byte of a record: [7] stamp valid, [6] merged run, [5] timebase COLD. -/
def State.logFlags (s : State) : Nat :=
  if s.tb.running then 0x80 + b2n s.tb.cold * 0x20 else 0

/-- A record as it stands now, SEQ still open; `stamp` where the event names a position of its own. -/
def State.mkRec (s : State) (code cls status unit detail : Nat) (stamp : Option Nat := none) : LogRec :=
  { detail := detail, code := code, cls := cls, status := status, unit := unit,
    flags := match stamp with
      | some _ => 0x80 + b2n (s.tb.running && s.tb.cold) * 0x20
      | none => s.logFlags,
    stamp := match stamp with
      | some p => p
      | none => if s.tb.running then s.stamp else 0,
    time := s.nowNs }

/-- Unread records (R58). -/
def EventLog.unread (l : EventLog) : Nat := (l.head + 1024 - l.tail) % 1024

/-- Puts a record at HEAD; with 1,023 unread records the oldest is given up first. -/
def State.logPut (s : State) (r : LogRec) : State :=
  let s := if s.log.unread = 1023 then
      ({ s with log := { s.log with tail := (s.log.tail + 1) % 1024, given := s.log.given + 1 } }).bump SYS_LOG_STATUS_LOST
    else s
  { s with log := { s.log with
      recs := s.log.recs.set s.log.head { r with seq := s.log.seq },
      head := (s.log.head + 1) % 1024,
      seq := (s.log.seq + 1) % 65536 } }

/-- Writes the LOG_LOST record: it counts every record given up since the previous one, its own included. -/
def State.logLostNow (s : State) : State :=
  let own := if s.log.unread = 1023 then 1 else 0
  let s := s.logPut (s.mkRec 0x0004 1 0 (unitBase 0) (min (s.log.given + own) (2 ^ 32 - 1)))
  { s with log := { s.log with given := 0, lastLost := some s.cyc } }

/-- Writes a record, and a LOG_LOST record after it where R58 asks for one at once. -/
def State.logRec (s : State) (r : LogRec) : State :=
  let s := s.logPut r
  if s.log.given = 0 then s
  else match s.log.lastLost with
  | none => s.logLostNow
  | some t => if t + msCycles ≤ s.cyc then s.logLostNow else s

/-- Writes a record of `code` about `unit`. -/
def State.logEv (s : State) (code cls status unit detail : Nat) : State :=
  s.logRec (s.mkRec code cls status unit detail)

/-- A record with its count in DETAIL[63:48] (R664). -/
def LogRec.withCount (r : LogRec) (n : Nat) : LogRec :=
  { r with detail := r.detail % 2 ^ 48 + min n 65535 * 2 ^ 48 }

/-- Where a limited record carries its count: ENC_QERR, MEM_STEAL_TIMEOUT and FAB_LIFT in DETAIL[31:16] (03 R102,
05 R164, 07 R209), ECC_TBL_OVERFLOW in [15:0] (13 R407), CLK_GATED in [31:0] (19 R564), SEC_ALARM in [15:8] (16 R488),
IOB_SBOVF in [31:16] too (23 R643), every other code in [63:48]. -/
def LogRec.withCountAt (r : LogRec) (n : Nat) : LogRec :=
  if r.code = 0x0304 ∨ r.code = 0x0703 ∨ r.code = 0x0501 then
    { r with detail := setBits r.detail 31 16 (min n 65535) }
  else if r.code = 0x0D04 then { r with detail := setBits r.detail 15 0 (min n 65535) }
  else if r.code = 0x1305 then { r with detail := setBits r.detail 31 0 (min n (2 ^ 32 - 1)) }
  else if r.code = 0x1007 then { r with detail := setBits r.detail 15 8 (min n 255) }
  else if r.code = 0x1702 then { r with detail := setBits r.detail 31 16 (min n 65535) }.withCount n
  else r.withCount n

/-- Writes a record at most once per millisecond for its code and scope (R664). -/
def State.logLimited (s : State) (scope : Nat) (r : LogRec) : State :=
  let mine := fun (l : RateLimit) => l.code = r.code && l.scope = scope
  match s.log.limits.find? mine with
  | none =>
    (s.logRec (r.withCountAt 1)) |> fun s =>
      { s with log := { s.log with limits := ⟨r.code, scope, s.cyc, 0, r⟩ :: s.log.limits } }
  | some l =>
    if l.held = 0 ∧ l.last + msCycles ≤ s.cyc then
      (s.logRec (r.withCountAt 1)) |> fun s =>
        { s with log := { s.log with
            limits := ⟨r.code, scope, s.cyc, 0, r⟩ :: s.log.limits.filter (fun x => !mine x) } }
    else
      { s with log := { s.log with
          limits := ⟨r.code, scope, l.last, l.held + 1, r⟩ :: s.log.limits.filter (fun x => !mine x) } }

/-- A limited record of `code` for `scope`, about `unit`. -/
def State.logEvLimited (s : State) (scope code cls status unit detail : Nat) : State :=
  s.logLimited scope (s.mkRec code cls status unit detail)

/-- Writes a non-FIRED outcome of an entry, merged into the run it continues (R59). -/
def State.logMerged (s : State) (entry : Nat) (r : LogRec) : State :=
  let go (s : State) : State :=
    let slot := s.log.head
    let seq := s.log.seq
    let s := s.logRec r
    { s with log := { s.log with
        runs := ⟨entry, r.status, slot, seq⟩ :: s.log.runs.filter (fun x => x.entry != entry) } }
  match s.log.runs.find? (fun x => x.entry == entry) with
  | none => go s
  | some run =>
    let old := s.log.recs.get {} run.slot
    if run.status = r.status ∧ old.seq = run.seq ∧ old.code = r.code then
      let r' := { old with
        detail := setBits old.detail 31 0 (satAdd 32 (bitsOf old.detail 31 0) 1),
        flags := setBit old.flags 6 }
      { s with log := { s.log with recs := s.log.recs.set run.slot r' } }
    else go s

/-- Ends the run of an entry: its FIRED outcome (R59). -/
def State.endRun (s : State) (entry : Nat) : State :=
  { s with log := { s.log with runs := s.log.runs.filter (fun x => x.entry != entry) } }

/-! ### Free values -/

/-- Takes the next free value's number. -/
def State.takeFree (s : State) : Nat × State := (s.freeCount, { s with freeCount := s.freeCount + 1 })

end Sys2Proof.Machine
end

