-- ==== Sys2Proof/Machine/EvtOps.lean ====
section
/-! DEFINITION. The position event table's shared operations (04): the fields of an entry, the crossed points of its
grid, what a target's state asks of an occurrence, closing an occurrence, handing it over. -/

namespace Sys2Proof.Machine

/-- Changes the event table. -/
def State.modEvt (s : State) (f : EventTable → EventTable) : State := { s with evt := f s.evt }

/-- Entry `k`. -/
def State.entry (s : State) (k : Nat) : BitVec 256 := s.evt.entries.get 0#256 k

/-- Puts entry `k`. -/
def State.setEntry (s : State) (k : Nat) (e : BitVec 256) : State :=
  s.modEvt fun t => { t with entries := t.entries.put 0#256 k e }

/-! The fields of R108. -/
def eMissIrq (e : BitVec 256) : Bool := e.getLsbD 244
def eLogF (e : BitVec 256) : Bool := e.getLsbD 243
def eDone (e : BitVec 256) : Bool := e.getLsbD 242
def eOnce (e : BitVec 256) : Bool := e.getLsbD 241
def eEn (e : BitVec 256) : Bool := e.getLsbD 240
def eParam (e : BitVec 256) : Nat := bitsOf e.toNat 239 208
def eTarget (e : BitVec 256) : Nat := bitsOf e.toNat 191 168
def eDirq (e : BitVec 256) : Nat := bitsOf e.toNat 165 164
def eAction (e : BitVec 256) : Nat := bitsOf e.toNat 163 160
def eRepeat (e : BitVec 256) : Nat := bitsOf e.toNat 159 128

/-- The tolerance in units of positions: 1/16 count a step. -/
def eTol (e : BitVec 256) : Int := (bitsOf e.toNat 207 192 : Nat) * (2 ^ 44 : Int)

/-- The grid's first point. -/
def ePos (e : BitVec 256) : Int :=
  (signedOf 64 (bitsOf e.toNat 63 0)) * countUnit + (bitsOf e.toNat 79 64 : Nat) * (2 ^ 32 : Int)

/-- The grid's period. -/
def ePeriod (e : BitVec 256) : Int := (bitsOf e.toNat 127 112 : Nat) * (2 ^ 32 : Int) + (bitsOf e.toNat 111 80 : Nat) * countUnit

/-- With EN replaced, and DONE set where `done`. -/
def eDisable (e : BitVec 256) (done : Bool) : BitVec 256 :=
  let e := e &&& ~~~ (1#256 <<< 240)
  if done then e ||| (1#256 <<< 242) else e

/-- The points of an entry's grid with lo < x ≤ hi: how many, the least and the greatest (R109). -/
def gridIn (e : BitVec 256) (lo hi : Int) : Option (Nat × Int × Int) :=
  let p := ePos e
  let q := ePeriod e
  if q = 0 then
    if lo < p ∧ p ≤ hi then some (1, p, p) else none
  else
    let n0 := max 0 ((lo - p) / q + 1)
    let top := (hi - p) / q
    let n1 := if eRepeat e = 0 then top else min ((eRepeat e : Int) - 1) top
    if n0 ≤ n1 then some ((n1 - n0 + 1).toNat, p + n0 * q, p + n1 * q) else none

/-- The first grid point beyond `t` in the direction of travel (R113, R114). -/
def gridNext (e : BitVec 256) (t : Int) (rev : Bool) : Option Int :=
  let p := ePos e
  let q := ePeriod e
  if q = 0 then
    if rev then (if p ≤ t then some p else none) else (if t < p then some p else none)
  else if rev then
    let n := (t - p) / q
    let n := if eRepeat e = 0 then n else min ((eRepeat e : Int) - 1) n
    if 0 ≤ n then some (p + n * q) else none
  else
    let n := max 0 ((t - p) / q + 1)
    if eRepeat e = 0 ∨ n < eRepeat e then some (p + n * q) else none

/-- The owner of event output `o`: a region, or 64 for the chip. -/
def State.evoOwner (s : State) (o : Nat) : Nat := s.rd (EVT_EVO_CFG_OWNER o)

/-- The region an action concerns (R119): none for the chip, for IRQ and for MIGRATE. -/
def State.actionRegion (s : State) (action target : Nat) : Option Nat :=
  match action with
  | 0 | 1 | 2 =>
    let o := s.evoOwner (target % 32)
    if o < 64 then some o else none
  | 5 => some (bitsOf ((s.sched.graphs.get 0#128 (target % 256)).toNat) 5 0)
  | 6 => some (bitsOf target 16 11)
  | 7 | 11 => none
  | _ => some (bitsOf target 5 0)

/-- The unit an occurrence's record names (R133). -/
def State.actionUnit (s : State) (action target : Nat) : Nat :=
  match action with
  | 5 => unitBase 0x40
  | _ => match s.actionRegion action target with
    | some n => unitRegion n
    | none => unitBase 0x40

/-- The region counts as DARK for R119: it is DARK or its power-down has been taken (20 R581). -/
def State.darkFor (s : State) (n : Nat) : Bool :=
  ((s.region n).state == RegionState.dark) || s.flag (PWR_RGN_DOWN n)

/-- Outcomes of R118. -/
inductive OccEnd where
  | fired
  | late (reason : Nat)
  | missed (reason : Nat)
deriving DecidableEq, Repr

/-- The status of an EV_MISSED record by its reason (R133). -/
def missedStatus (reason : Nat) : Nat :=
  if reason = 1 then 0x3 else if reason = 2 ∨ reason = 7 ∨ reason = 9 then 0x7 else 0x8

/-- Counts `n` events closed other than FIRED while the target is FENCED (02 R668). -/
def State.countClosedEvents (s : State) (rgn : Option Nat) (n : Nat) : State :=
  match rgn with
  | none => s
  | some r =>
    if (s.region r).state = .fenced then
      s.modRegion r fun g => { g with closed := { g.closed with events := satAdd 16 g.closed.events n } }
    else s

/-- Closes `n` outcomes of entry `k` whose (first) grid point is `x`: counters, MISSISR flag, log (R118, R132, R133). -/
def State.closeOcc (s : State) (k : Nat) (x : Int) (n : Nat) (o : OccEnd) : State :=
  let e := s.entry k
  let unit := s.actionUnit (eAction e) (eTarget e)
  let rgn := s.actionRegion (eAction e) (eTarget e)
  let det (reason : Nat) := min n (2 ^ 32 - 1) + k * 2 ^ 32 + eAction e * 2 ^ 48 + reason * 2 ^ 52
  let st := stampOf x
  let s := match o with
    | .fired =>
      let s := (s.count EVT_CNT_FIRED_COUNT n).endRun k
      if eLogF e then s.logRec (s.mkRec 0x0401 0 0 unit (det 0) st) else s
    | .late reason =>
      let s := (s.count EVT_CNT_LATE_COUNT n).countClosedEvents rgn n
      s.logMerged k (s.mkRec 0x0402 1 0x9 unit (det reason) st)
    | .missed reason =>
      let s := (s.count EVT_CNT_MISSED_COUNT n).countClosedEvents rgn n
      let s := if eMissIrq e then s.raise EVT_STATUS_MISSIRQ else s
      s.logMerged k (s.mkRec 0x0403 1 (missedStatus reason) unit (det reason) st)
  -- R112: the occurrence of a ONCE entry disables it
  if eOnce e then
    (s.setEntry k (eDisable e true)).modEvt fun t => { t with judged := t.judged.del k }
  else s

/-- Takes an occurrence out of the pending list and withdraws its request from Kettle's queue (R119). -/
def State.dropPend (s : State) (o : Occ) : State :=
  { (s.modEvt fun t => { t with pend := t.pend.filter (fun p => p.id != o.id) }) with
    kettle := { s.kettle with queue := s.kettle.queue.filter (fun r => r.occ != some o.id) } }

/-- Closes a pending occurrence MISSED. -/
def State.missPend (s : State) (reason : Nat) (o : Occ) : State :=
  (s.dropPend o).closeOcc o.entry o.x 1 (.missed reason)

/-- Closes every pending occurrence that `sel` names MISSED with `reason` (R120, R129, 02 R68). -/
def State.missAll (s : State) (reason : Nat) (sel : Occ → Bool) : State :=
  (s.evt.pend.filter sel).foldl (fun s o => s.missPend reason o) s

/-- Edges that output `o` holds or will hold when the actions on their way arrive (R125). -/
def State.evoPlaces (s : State) (o : Nat) : Nat :=
  ((s.evt.evos.get {} o).edges.length) +
  (s.evt.inflight.foldl (fun n a =>
    if a.code < 3 ∧ a.target % 32 = o then n + (if a.code = 0 then 2 else 1) else n) 0)

/-- Two points have the same scope (11 R320): both are chip points, or they cover a common region. -/
def sameScope (a pa b pb : Nat) : Bool :=
  (a == 64 && b == 64) || (bitOf pa 0 && bitOf pb 0 && (a == 64 || b == 64 || a == b))

/-- The scope of a MIGRATE target: a region, or 64 the chip. -/
def migrateScope (target : Nat) : Nat := if 2 ^ 23 ≤ target then 64 else target % 64

/-- Entry `k` has started a wake early: its request is treated as already served (20 R580). -/
def State.servedEarly (s : State) (k : Nat) : Bool := s.ldr.early.any fun e => e.entry == k

/-- Why an occurrence of entry `k` cannot be handed over now: the EV_LATE reason, none when it can. -/
def State.pendWhy (s : State) (k : Nat) : Option Nat :=
  let action := eAction (s.entry k)
  let target := eTarget (s.entry k)
  let param := eParam (s.entry k)
  let inTest := match s.actionRegion action target with
    | some n => (s.region n).state == RegionState.test
    | none => false
  if action = 9 && s.servedEarly k then none
  else if inTest then some 10
  else match action with
  | 0 => if 14 < s.evoPlaces (target % 32) then some 14 else none
  | 1 | 2 => if 15 < s.evoPlaces (target % 32) then some 14 else none
  | 4 => some 11
  | 7 =>
    -- a migration point still open for the same scope
    let k := migrateScope target
    let busy := s.evt.inflight.any (fun (a : Action) => a.code == 7 && sameScope k param (migrateScope a.target) a.param) ||
      s.plc.points.any (fun p => sameScope k param p.scope p.param)
    if busy then some 14 else none
  | 9 => if s.flag CFG_PSTAT_BUSY then some 14 else none
  | 11 =>
    if 64 ≤ s.evt.irq.length + (s.evt.inflight.filter (fun (a : Action) => a.code == 11)).length then some 14 else none
  | _ => none

/-- Whether R119 closes an occurrence of entry `k` MISSED at once. -/
def State.missedAtOnce (s : State) (k : Nat) : Bool :=
  let action := eAction (s.entry k)
  let target := eTarget (s.entry k)
  match s.actionRegion action target with
  | none => false
  | some n =>
    let st := (s.region n).state
    if action = 9 then !s.servedEarly k &&
      ((st == RegionState.loading) || ((st == RegionState.fenced) && (s.region n).limit))
    else (st == RegionState.fenced) || (st == RegionState.loading) || s.darkFor n

/-- Room under R121 in this cycle: one per output, four others. -/
def State.handRoom (s : State) (action target : Nat) : Bool :=
  let fresh := decide (s.evt.handCyc ≠ s.cyc)
  if action < 3 then fresh || !(s.evt.handEvos.contains (target % 32))
  else fresh || decide (s.evt.handOthers < 4)

/-- Hands an occurrence over: its action is on its way, its place in this cycle is used (R118, R121). -/
def State.handOver (s : State) (o : Occ) : State :=
  let e := s.entry o.entry
  let late := decide (o.cyc + 4 < s.cyc)
  let a : Action := ⟨o.entry, eAction e, eTarget e, eParam e, stampOf o.x, o.sub, s.cyc, late, none⟩
  let s := s.modEvt fun t =>
    let fresh := decide (t.handCyc ≠ s.cyc)
    { t with
      inflight := t.inflight ++ [a]
      handCyc := s.cyc
      handOthers := (if fresh then 0 else t.handOthers) + (if eAction e < 3 then 0 else 1)
      handEvos := (if fresh then [] else t.handEvos) ++ (if eAction e < 3 then [eTarget e % 32] else []) }
  s.closeOcc o.entry o.x 1 (if late then .late o.why else .fired)

/-- Takes the oldest action on its way that `sel` names. -/
def State.takeAction (s : State) (sel : Action → Bool) : Option (Action × State) :=
  match s.evt.inflight.find? sel with
  | none => none
  | some a => some (a, s.modEvt fun t => { t with inflight := t.inflight.erase a })

/-- Stops the matcher: pending occurrences close MISSED with reason 3 (02 R68, R49 step 1). -/
def State.stopMatcher (s : State) : State :=
  let s := s.missAll 3 (fun _ => true)
  s.modEvt fun t => { t with running := false, judged := [] }

/-- Output `o` goes to Z: level and pulse end inactive, queued edges discarded (R127). -/
def State.clearEvo (s : State) (o : Nat) : State :=
  s.modEvt fun t => { t with
    evos := t.evos.del o
    inflight := t.inflight.filter (fun (a : Action) => !(decide (a.code < 3) && a.target % 32 == o)) }

/-- The outputs owned by `owner`. -/
def State.evosOf (s : State) (owner : Nat) : List Nat :=
  (List.range 32).filter (fun o => s.evoOwner o == owner)

/-- A change of DIR: every pending occurrence closes MISSED with reason REVERSAL (R120). -/
def State.dirTurned (s : State) : State := s.missAll 6 (fun _ => true)

end Sys2Proof.Machine
end

