-- ==== Sys2Proof/Machine/Timebase.lean ====
section
/-! DEFINITION. The position timebase and the encoder ports (03): rows ENCODER_EDGE to BUS_STALE. -/

namespace Sys2Proof.Machine

/-- The unit identifier of the timebase (R102). -/
def unitPtb : Nat := unitBase 6

/-- The port has a wire fault on A or B (R83). -/
def EncPort.faulted (p : EncPort) : Bool := p.wireA || p.wireB

/-- A wire fault on any input (PTB_ENCk_STAT.WIRE). -/
def EncPort.wire (p : EncPort) : Bool := p.wireA || p.wireB || p.wireZ

/-- The interpolator becomes COLD; a change from warm is logged with its reason (R92, R102). -/
def State.goCold (s : State) (reason : Nat) : State :=
  let was := s.tb.cold
  let s := s.modTb fun t => { t with cold := true, warmRun := 0 }
  if was then s else s.logEv 0x0301 1 0 unitPtb reason

/-! ### The hold of outputs (14 R428) -/

/-- Changes the ring unit. -/
def State.modKrl (s : State) (f : Krl → Krl) : State := { s with krl := f s.krl }

/-- The unit identifier of Kraerlink (14 R441). -/
def unitKrl : Nat := unitBase 7

/-- A KRL_HOLD record: 1 start, 2 end, 3 limit. -/
def State.logHold (s : State) (what : Nat) : State :=
  s.logEv 0x0E04 1 0 unitKrl (what + s.krl.holdWhy * 4 + min 65535 ((s.cyc - s.krl.holdAt) / usCycles) * 2 ^ 16)

/-- A hold begins: outputs go inactive, queued edges are discarded, occurrences of output actions close MISSED. -/
def State.startHold (s : State) (cause : Nat) : State :=
  if s.krl.hold then s.modKrl fun k => { k with warmReels := 0 }
  else
    let s := s.modKrl fun k => { k with
      hold := true, holdAt := s.cyc, holdWhy := cause, warmReels := 0, limitLogged := false }
    let s := ((s.raise KRL_STATUS_HOLD).raise KRL_STATUS_COLD).logHold 1
    let s := (List.range 32).foldl (fun s o => s.clearEvo o) s
    let s := s.missAll 4 fun o => decide (eAction (s.entry o.entry) < 3)
    if s.tb.srcAct = 4 then s.goCold 3 else s

/-- A hold ends; the device is aligned. -/
def State.endHold (s : State) : State :=
  let s := (s.wr KRL_STATUS_HOLD 0).wr KRL_STATUS_COLD 0
  if s.krl.hold then (s.logHold 2).modKrl fun k => { k with hold := false } else s

/-- The correction of R77: 3 cycles and the filter length, in timebase cycles. -/
def State.filterDelay (s : State) (k : Nat) : Nat :=
  3 + s.rd (PTB_ENC_FILT_FILT k) * 2 ^ s.rd (PTB_ENC_FILT_DIV k)

/-- A counted change of the source by `d` with corrected timestamp `ts` (R86, R89, R92). -/
def State.sourceChange (s : State) (d : Int) (ts : Nat) : State :=
  let back := decide (d < 0)
  let turned := back != s.tb.rev
  let s := if turned then
      (s.goCold 2).modTb fun t => { t with rev := back, times := [] }
    else s
  let inTime := match s.tb.times with
    | last :: _ => decide (ts ≤ last + s.rd PTB_INTERP_TIMEOUT * usCycles)
    | [] => false
  let s := s.modTb fun t => { t with
    c := t.c + d
    still := false
    times := (ts :: t.times).take 17
    warmRun := if inTime then t.warmRun + 1 else 1 }
  let s := if s.tb.cold && decide (8 ≤ s.tb.warmRun) then
      let s := s.modTb fun t => { t with cold := false }
      let s := s.logEv 0x0302 0 0 unitPtb s.velReg
      -- a backup that has taken over releases its outputs (14 R430)
      if s.krl.hold && s.flag KRL_STATUS_MASTER then s.endHold else s
    else s
  let s := s.trackNow turned
  if turned then s.dirTurned else s

/-- The change of R71 that new filtered levels of port `k` make, and whether they are a quadrature error (R72). -/
def portChange (mode : Nat) (a b a' b' : Bool) : Int × Bool :=
  let aEdge := a != a'
  let bEdge := b != b'
  match mode with
  | 1 => (if aEdge && !b' then (if a' then 1 else -1) else 0, false)
  | 2 => (if aEdge then (if a' != b' then 1 else -1) else 0, false)
  | 3 =>
    if aEdge && bEdge then (0, true)
    else if aEdge then (if a' != b' then 1 else -1, false)
    else if bEdge then (if a' == b' then 1 else -1, false)
    else (0, false)
  | 4 => (if aEdge && a' then (if b' then -1 else 1) else 0, false)
  | 5 => ((if aEdge && a' then 1 else 0) - (if bEdge && b' then 1 else 0), false)
  | _ => (0, false)

/-- Counts a quadrature error and logs it as R103 gives. -/
def State.quadError (s : State) (k : Nat) : State :=
  let s := s.bump (PTB_ENC_ERR_QERR k)
  let scope := unitId k 0xF 6
  let r := s.mkRec 0x0304 1 0 unitPtb k
  if (s.port k).qlogged then s.logLimited scope r
  else
    -- the first since the counters were cleared: written at once, the millisecond starts again
    let mine := fun (l : RateLimit) => l.code == 0x0304 && l.scope == scope
    let held := match s.log.limits.find? mine with
      | some l => l.held
      | none => 0
    let s := s.logRec (r.withCountAt (held + 1))
    let s := { s with log := { s.log with
      limits := ⟨0x0304, scope, s.cyc, 0, r⟩ :: s.log.limits.filter (fun l => !mine l) } }
    s.modPort k fun p => { p with qlogged := true }

/-- A port's count changes by `d` (R73 applied already). -/
def State.portCount (s : State) (k : Nat) (d : Int) : State :=
  if d = 0 then s
  else
    let sg : Int := if d < 0 then -1 else 1
    let s := s.modPort k fun p => { p with
      cnt := signedOf 64 (unsignedOf 64 (p.cnt + d))
      dir := sg
      zPrev := if p.dir = -sg then none else p.zPrev }
    if s.tb.running && s.tb.srcAct == k && !(s.port k).faulted then
      s.sourceChange d (s.cyc - s.filterDelay k)
    else s

/-- R71 to R74, R76, R77: accepted levels of A and B, or a discarded pulse. -/
def execEncoderEdge (k : Fin 4) (e : EncEdge) (s : State) : Host.Outcome State Fault Refusal :=
  match e with
  | .glitch => .next (s.bump (PTB_ENC_ERR_GLITCH k))
  | .levels a b =>
    let p := s.port k
    let s := s.modPort k fun q => { q with a := a, b := b }
    -- R74: the reference state of the first 16 cycles; R81: edges on a faulted input are not counted
    if !s.tb.running || decide (s.cyc < s.tb.startCyc + 16) then .next s
    else
      let a0 := if p.wireA then a else p.a
      let b0 := if p.wireB then b else p.b
      let (d, bad) := portChange (s.rd (PTB_ENC_CFG_MODE k)) a0 b0 a b
      let d := if s.flag (PTB_ENC_CFG_DIRINV k) then -d else d
      let s := if bad then s.quadError k else s
      .next (s.portCount k d)

/-- R79: an accepted index edge, or a discarded pulse (R76). Z never changes count or position (R80). -/
def execIndexEdge (k : Fin 4) (e : IndexEdge) (s : State) : Host.Outcome State Fault Refusal :=
  match e with
  | .glitch => .next (s.bump (PTB_ENC_ERR_GLITCH k))
  | .fall => .next (s.modPort k fun p => { p with z := false })
  | .rise =>
    let p := s.port k
    let mode := s.rd (PTB_ENC_CFG_INDEX k)
    let s := s.modPort k fun p => { p with z := true }
    let qual := !s.flag (PTB_ENC_CFG_ZQUAL k) || (p.a && p.b)
    if mode = 0 ∨ p.z || p.wireZ || !qual || !s.tb.running then .next s
    else
      let s := s.modPort k fun p => { p with zlat := p.cnt, zPrev := some p.cnt }
      match p.zPrev with
      | some old =>
        let diff := (p.cnt - old).natAbs
        if mode = 2 ∧ diff ≠ s.rd (PTB_ENC_ZCHK_PERREV k) then
          let s := s.bump (PTB_ENC_ERR_ZERR k)
          .next (s.logEv 0x0305 1 0 unitPtb (k.val + unsignedOf 32 (p.cnt - old) * 2 ^ 32))
        else .next s
      | none => .next s

/-- The timebase switches to the backup of R83 where one without a fault is named. -/
def State.useBackup (s : State) : State :=
  let b := s.rd PTB_CTRL_BSRC
  if b = 0 ∨ 4 < b ∨ (s.port (b - 1)).faulted then s
  else
    let old := s.tb.srcAct
    let s := s.modTb fun t => { t with srcAct := b - 1 }
    s.logEv 0x0306 1 0 unitPtb (old % 8 + (b - 1) * 8)

/-- The source in use has a wire fault on A or B (R83). -/
def State.sourceFault (s : State) : State :=
  ((s.goCold 3).useBackup).trackNow

/-- The input's number in ENC_WIRE. -/
def encInputNo : EncInput → Nat
  | .a => 0
  | .b => 1
  | .z => 2

/-- Marks or clears a wire fault of an input. -/
def EncPort.setWire (p : EncPort) (i : EncInput) (v : Bool) : EncPort :=
  match i with
  | .a => { p with wireA := v }
  | .b => { p with wireB := v }
  | .z => { p with wireZ := v }

/-- The wire fault of an input. -/
def EncPort.getWire (p : EncPort) : EncInput → Bool
  | .a => p.wireA
  | .b => p.wireB
  | .z => p.wireZ

/-- R81, R83: a wire fault, logged once. -/
def execWireFault (k : Fin 4) (i : EncInput) (s : State) : Host.Outcome State Fault Refusal :=
  if (s.port k).getWire i then .next s
  else
    let had := (s.port k).faulted
    let s := s.modPort k fun p => p.setWire i true
    let s := s.logEv 0x0303 1 0x3 unitPtb (k.val + encInputNo i * 4 + 16)
    if s.tb.running && s.tb.srcAct == k.val && !had && (s.port k).faulted then .next s.sourceFault
    else .next s

/-- R81: the fault clears; counting resumes from the held value (R83). -/
def execWireFaultClear (k : Fin 4) (i : EncInput) (s : State) : Host.Outcome State Fault Refusal :=
  if !(s.port k).getWire i then .next s
  else
    let s := s.modPort k fun p => p.setWire i false
    .next (s.logEv 0x0303 1 0 unitPtb (k.val + encInputNo i * 4))

/-- R92: no counted change for TIMEOUT. The track stays (R88). SIM has no timeout (R82), REEL its own rule (14). -/
def execInterpolatorTimeout (s : State) : Host.Outcome State Fault Refusal :=
  if s.tb.running && decide (s.tb.srcAct < 4) then
    .next (((s.goCold 1).modTb fun t => { t with still := true }).trackNow)
  else .next s

/-- R82: a new SIM velocity; DIR follows its sign. -/
def State.newSimVel (s : State) (v : Nat) : State :=
  let s := s.wr PTB_SIM_VEL_SIMVEL v
  if s.tb.running && s.tb.srcAct == 5 then
    let x := s.simVel
    let turned := (decide (x < 0) && !s.tb.rev) || (decide (0 < x) && s.tb.rev)
    let s := s.modTb fun t => { t with still := decide (x = 0), rev := if turned then !t.rev else t.rev }
    let s := s.trackNow turned
    if turned then s.dirTurned else s
  else s

/-- PTB_SIM_VEL may be written in RUN (R82). -/
def execPtbSimVelWrite (_ : Accessor) (v : Word) (s : State) : Host.Outcome State Fault Refusal :=
  .next (s.newSimVel v.toNat)

/-- R106: the whole position and velocity of one cycle. The read answers the integer's low word. -/
def State.readPosLo (s : State) : State :=
  let p := pos80 s.measured
  let v := s.velReg
  let s := s.modTb fun t => { t with holdPos := p, holdVel := v }
  { s with rsp := ⟨0, bitsOf p 47 16⟩ }

/-- R106. -/
def execPtbPosLoRead (_ : Accessor) (s : State) : Host.Outcome State Fault Refusal := .next s.readPosLo

/-- R106: the whole port count. -/
def State.readCntLo (s : State) (k : Nat) : State :=
  let c := unsignedOf 64 (s.port k).cnt
  let s := s.modTb fun t => { t with holdCnt := t.holdCnt.put 0 k c }
  { s with rsp := ⟨0, c % 2 ^ 32⟩ }

/-- R106. -/
def execPtbEncCntLoRead (_ : Accessor) (k : Fin 4) (s : State) : Host.Outcome State Fault Refusal :=
  .next (s.readCntLo k)

/-- R106: the whole latched index count. -/
def State.readZlatLo (s : State) (k : Nat) : State :=
  let c := unsignedOf 64 (s.port k).zlat
  let s := s.modTb fun t => { t with holdZlat := t.holdZlat.put 0 k c }
  { s with rsp := ⟨0, c % 2 ^ 32⟩ }

/-- R106. -/
def execPtbEncZlatLoRead (_ : Accessor) (k : Fin 4) (s : State) : Host.Outcome State Fault Refusal :=
  .next (s.readZlatLo k)

/-- PTB_ENCk_STAT.CLR = 1 clears every field of PTB_ENCk_ERR; the next ENC_QERR is a first one again (R103). -/
def State.clearEncErr (s : State) (k v : Nat) : State :=
  if bitOf v 4 then
    (((s.wr (PTB_ENC_ERR_GLITCH k) 0).wr (PTB_ENC_ERR_QERR k) 0).wr (PTB_ENC_ERR_ZERR k) 0).modPort k
      fun p => { p with qlogged := false }
  else s

/-- R71's counters cleared by a write of CLR. -/
def execEncErrClr (_ : Accessor) (k : Fin 4) (v : Word) (s : State) : Host.Outcome State Fault Refusal :=
  .next (s.clearEncErr k v.toNat)

/-- R99: the inactive half takes the measured position, DIR and COLD; then the toggle flips. -/
def execBusUpdate (s : State) : Host.Outcome State Fault Refusal :=
  let h : BusHalf := ⟨s.measured, s.tb.rev, s.tb.cold⟩
  .next (if s.tb.running then
    s.modTb fun t =>
      if t.busToggle then { t with busA := h, busToggle := false }
      else { t with busB := h, busToggle := true }
  else s)

/-- The half of the bus that is current (R99). -/
def State.busNow (s : State) : BusHalf := if s.tb.busToggle then s.tb.busB else s.tb.busA

/-- The stamp a region takes: from the bus (R96, R101). -/
def State.regionStamp (s : State) : Nat := stampOf s.busNow.pos

/-- R101: a region reader has taken no new value for 8 periods. -/
def execBusStale (n : Fin 64) (s : State) : Host.Outcome State Fault Refusal :=
  .next ((s.raise PTB_STATUS_BUSSTALE).logEv 0x0307 2 0 (unitRegion n) 0)

/-- The timebase starts at the output step (R74, R82, R84, R86, R92). -/
def State.startTimebase (s : State) : State :=
  let src := s.rd PTB_CTRL_SRC
  let init := signedOf 64 (s.rd PTB_INIT_LO_INIT + s.rd PTB_INIT_HI_INIT * 2 ^ 32)
  let fresh (p : EncPort) : EncPort := { p with cnt := 0, zPrev := none, dir := 0 }
  let s := s.modTb fun t => { t with
    running := true, startCyc := s.cyc, c := init, ramp := init * countUnit, rev := false, still := true
    cold := false, times := [], warmRun := 0, srcAct := src
    ports := t.ports.map fun kp => (kp.1, fresh kp.2) }
  let s := if src = 5 then
      s.modTb fun t => { t with still := decide (s.simVel = 0), rev := decide (s.simVel < 0) }
    else s.goCold 5
  let s := s.trackNow true
  let s := s.modTb fun t => { t with pmPrev := t.pm }
  if src < 4 ∧ (s.port src).faulted then s.sourceFault else s

/-- One timebase cycle passes: SIM advances, the tracks follow (R82, R87). -/
def State.tickTimebase (s : State) : State :=
  let s := { s with cyc := s.cyc + 1 }
  if s.tb.running then
    let v := s.simVel
    let s := s.modTb fun t => { t with
      pmPrev := t.pm
      ramp := if t.srcAct = 5 then t.ramp + v * 2 ^ 16 else t.ramp }
    s.trackNow
  else s

end Sys2Proof.Machine
end

