-- ==== Sys2Proof/Machine/FabOps.lean ====
section
/-! DEFINITION. The fabric of a region (05): the configuration word, the value of every signal in the active
context, and what an edge of the region's clocks does to flip-flops, wire registers and keepers. -/

namespace Sys2Proof.Machine

/-- Changes the fabric of region `n`. -/
def State.modFab (s : State) (n : Nat) (f : Fabric → Fabric) : State :=
  s.modRegion n fun r => { r with fab := f r.fab }

/-! ### The configuration word (R136) -/

def wLiftEn (w : Nat) : Bool := bitOf w 126
def wLiftSrc (w : Nat) : Bool := bitOf w 125
/-- The switch output field of `SW0` or `SW1`: (select, registered). -/
def wSwitch (w : Nat) (one : Bool) : Nat × Bool :=
  if one then (bitsOf w 124 120, bitOf w 119) else (bitsOf w 118 114, bitOf w 113)
/-- The flip-flop field of FF0 or FF1. -/
def wFf (w : Nat) (one : Bool) : Nat := if one then bitsOf w 112 102 else bitsOf w 101 91
def wCarry (w : Nat) : Nat := bitsOf w 90 89
def wFrac (w : Nat) : Bool := bitOf w 88
/-- The crossbar select of input `j`. -/
def wIn (w j : Nat) : Nat := bitsOf w (64 + 4 * j + 3) (64 + 4 * j)
def wLut (w : Nat) : Nat := bitsOf w 63 0

/-- The fields of a flip-flop's options (R139). -/
def ffDsel (f : Nat) : Nat := bitsOf f 10 9
def ffClk (f : Nat) : Nat := bitsOf f 8 4
def ffClkW (f : Nat) : Bool := bitOf f 3
def ffCe (f : Nat) : Bool := bitOf f 2
def ffSr (f : Nat) : Bool := bitOf f 1
def ffInit (f : Nat) : Bool := bitOf f 0

/-- Where the configuration word of a cell lies: context, block, tier (0 T1, 1 T2), cell of the tier (01 R27). -/
def cfgKey (ctx blk tier c : Nat) : Nat := (ctx * 4704 + blk * 2 + tier) * 32 + c

/-- The configuration word of a cell in the active context. -/
def Region.word (r : Region) (blk tier c : Nat) : Nat :=
  (r.fab.cfg.get 0#128 (cfgKey r.ctx.active blk tier c)).toNat

/-- A signal of the fabric. Blocks are column × 48 + row. -/
inductive Sig where
  /-- crossbar input `j` of a cell -/
  | input (blk tier c j : Nat)
  /-- output A or B of a cell -/
  | out (blk tier c : Nat) (b : Bool)
  /-- carry out of a cell -/
  | co (blk tier c : Nat)
  /-- a switch output as its block drives it -/
  | wire (blk tier w : Nat)
  /-- vertical wire `w` as it arrives at a tier -/
  | vert (blk tier w : Nat)
  /-- lift wire `w` of a block -/
  | lift (blk w : Nat)
deriving DecidableEq, Repr

/-- The block whose switch output `w` ends in this block (R144), none beyond the region's edge. -/
def wireSource (blk w : Nat) : Option Nat :=
  let d := w / 16
  let len := if w % 16 < 10 then 1 else if w % 16 < 14 then 4 else 12
  let col := blk / 48
  let row := blk % 48
  -- the wire runs in direction d, so its source lies against it
  if d = 0 then (if len ≤ row then some (col * 48 + (row - len)) else none)
  else if d = 1 then (if len ≤ col then some ((col - len) * 48 + row) else none)
  else if d = 2 then (if row + len < 48 then some (col * 48 + row + len) else none)
  else (if col + len < 48 then some ((col + len) * 48 + row) else none)

/-- What stands outside the cells: port levels and the state of flip-flops, wire registers and keepers. -/
structure FabEnv where
  r : Region
  down : List (Nat × Bool)

/-- The value of a signal with `fuel` levels of logic at most; a loop that does not settle
reads a free value (log entry 11). -/
def evalSig (e : FabEnv) : Nat → Sig → Bool
  | 0, sig => Config.loopBit e sig
  | fuel + 1, sig =>
    let ev := evalSig e fuel
    match sig with
    | .input blk tier c j =>
      let k := wIn (e.r.word blk tier c) j
      -- R138
      if k < 4 then
        let w := (c + 8 * j + 16 * k) % 64
        match wireSource blk w with
        | some b => ev (.wire b tier w)
        | none => false
      else if k < 8 then ev (.out blk tier ((c + j + 8 * (k - 4)) % 32) (j % 2 == 1))
      else if k < 12 then ev (.vert blk tier ((2 * c + 16 * (k - 8) + j) % 64))
      else if k < 14 then ev (.lift blk ((c + j + 16 * (k - 12)) % 32))
      else k == 15
    | .out blk tier c b =>
      let w := e.r.word blk tier c
      let f := wFf w b
      if ffDsel f = 0 then
        -- bypass: the value the flip-flop would load
        if ffSr f && ev (.input blk tier c 3) then ffInit f
        else
          let bits (m : Nat) : Nat := (List.range m).foldl (fun a j => a + b2n (ev (.input blk tier c j)) * 2 ^ j) 0
          if wFrac w || (b && wCarry w != 0) then bitOf (wLut w) (bits 5 + b2n b * 32)
          else bitOf (wLut w) (bits 6)
      else e.r.fab.ffs.get false (((blk * 64 + tier * 32 + c) * 2) + b2n b)
    | .co blk tier c =>
      let w := e.r.word blk tier c
      if wCarry w = 0 then false
      else
        let i := (List.range 5).foldl (fun a j => a + b2n (ev (.input blk tier c j)) * 2 ^ j) 0
        let p := bitOf (wLut w) i
        let g := bitOf (wLut w) (32 + i)
        let ci := if wCarry w = 2 then false else if wCarry w = 3 then true
          else if 0 < c then ev (.co blk tier (c - 1))
          else if tier = 1 then ev (.co blk 0 31)
          else if blk % 48 = 0 then false
          else ev (.co (blk - 1) 1 31)
        if p then ci else g
    | .wire blk tier w =>
      let cell := w / 2
      let (sel, reg) := wSwitch (e.r.word blk tier cell) (w % 2 == 1)
      if reg then e.r.fab.wires.get false ((blk * 2 + tier) * 64 + w)
      -- an all-zero word uses no routing (R136)
      else if e.r.word blk tier cell = 0 then false
      -- R144
      else if sel < 16 then
        let v := (w + 4 * sel) % 64
        match wireSource blk v with
        | some b => ev (.wire b tier v)
        | none => false
      else if sel < 24 then ev (.out blk tier ((w + 3 * (sel - 16)) % 32) false)
      else ev (.vert blk tier ((w + 8 * (sel - 24)) % 64))
    | .vert blk tier w =>
      if tier = 0 then
        -- down wires arrive at T1; ports replace T2 outputs at site blocks (R156)
        match e.down.find? (fun p => p.1 == blk * 64 + w) with
        | some p => p.2
        | none =>
          if w = 63 ∧ blk % 48 ≠ 47 ∧ wCarry (e.r.word (blk + 1) 0 0) = 1 then ev (.co blk 1 31)
          else ev (.out blk 1 (w / 2) (w % 2 == 1))
      else if w = 63 ∧ wCarry (e.r.word blk 1 0) = 1 then ev (.co blk 0 31)
      else ev (.out blk 0 (w / 2) (w % 2 == 1))
    | .lift blk w =>
      let t1 := e.r.word blk 0 w
      let t2 := e.r.word blk 1 w
      if wLiftEn t1 then ev (.out blk 0 w (wLiftSrc t1))
      else if wLiftEn t2 then ev (.out blk 1 w (wLiftSrc t2))
      else e.r.fab.keepers.get false (blk * 32 + w)

/-- Levels of logic enough for every path without a loop: six signals a configured cell. -/
def Region.fuel (r : Region) : Nat := 16 * (r.fab.cfg.length + 1)

/-- The value of a signal in the active context. -/
def FabEnv.value (e : FabEnv) (s : Sig) : Bool := evalSig e e.r.fuel s

/-- The D value of a flip-flop (R139): DSEL 1 LUT output, 2 carry sum, 3 crossbar input. -/
def FabEnv.ffD (e : FabEnv) (blk tier c : Nat) (b : Bool) : Bool :=
  let w := e.r.word blk tier c
  let inp (j : Nat) : Bool := e.value (.input blk tier c j)
  let idx (m : Nat) : Nat := (List.range m).foldl (fun a j => a + b2n (inp j) * 2 ^ j) 0
  match ffDsel (wFf w b) with
  | 2 =>
    let p := bitOf (wLut w) (idx 5)
    let ci := if wCarry w = 2 then false else if wCarry w = 3 then true
      else if 0 < c then e.value (.co blk tier (c - 1))
      else if tier = 1 then e.value (.co blk 0 31)
      else if blk % 48 = 0 then false
      else e.value (.co (blk - 1) 1 31)
    p != ci
  | 3 => inp (if b then 1 else 0)
  | _ =>
    if wFrac w || (b && wCarry w != 0) then bitOf (wLut w) (idx 5 + b2n b * 32)
    else bitOf (wLut w) (idx 6)

/-- What a flip-flop holds after its clock's edge (R140). -/
def FabEnv.ffNext (e : FabEnv) (blk tier c : Nat) (b : Bool) : Bool :=
  let f := wFf (e.r.word blk tier c) b
  if ffSr f && e.value (.input blk tier c 3) then ffInit f
  else if !ffCe f || e.value (.input blk tier c 4) then e.ffD blk tier c b
  else e.r.fab.ffs.get false ((blk * 64 + tier * 32 + c) * 2 + b2n b)

/-- The configured cells of the active context: (block, tier, cell). -/
def Region.cells (r : Region) : List (Nat × Nat × Nat) :=
  (r.fab.cfg.filter fun p => p.1 / (4704 * 32) == r.ctx.active).map fun p =>
    let f := p.1 % (4704 * 32) / 32
    (f / 2, f % 2, p.1 % 32)

/-- The flip-flops after an edge of the clocks in `spines`; then those clocked from a routing wire that has risen
(R154, R155). -/
def Region.clockFfs (r : Region) (spines : Nat) (down : List (Nat × Bool)) : Tbl Bool :=
  let e : FabEnv := ⟨r, down⟩
  let upd (e : FabEnv) (sel : Nat → Nat → Nat → Nat → Bool) (t : Tbl Bool) : Tbl Bool :=
    r.cells.foldl (fun t (p : Nat × Nat × Nat) =>
      [false, true].foldl (fun t b =>
        let f := wFf (r.word p.1 p.2.1 p.2.2) b
        if sel f p.1 p.2.1 p.2.2 then
          t.put false ((p.1 * 64 + p.2.1 * 32 + p.2.2) * 2 + b2n b) (e.ffNext p.1 p.2.1 p.2.2 b)
        else t) t) t
  let t := upd e (fun f _ _ _ => !ffClkW f && bitOf spines (ffClk f)) r.fab.ffs
  let e' : FabEnv := ⟨{ r with fab := { r.fab with ffs := t } }, down⟩
  upd e (fun f blk tier c => ffClkW f &&
    !e.value (.input blk tier c 5) && e'.value (.input blk tier c 5)) t

/-- The wire registers after an edge of region spine 0 (R145). -/
def Region.clockWires (r : Region) (down : List (Nat × Bool)) : Tbl Bool :=
  let e : FabEnv := ⟨r, down⟩
  r.cells.foldl (fun t (p : Nat × Nat × Nat) =>
    [false, true].foldl (fun t one =>
      let (sel, reg) := wSwitch (r.word p.1 p.2.1 p.2.2) one
      let w := 2 * p.2.2 + b2n one
      if reg then
        let v := if sel < 16 then
            (match wireSource p.1 ((w + 4 * sel) % 64) with
            | some b => e.value (.wire b p.2.1 ((w + 4 * sel) % 64))
            | none => false)
          else if sel < 24 then e.value (.out p.1 p.2.1 ((w + 3 * (sel - 16)) % 32) false)
          else e.value (.vert p.1 p.2.1 ((w + 8 * (sel - 24)) % 64))
        t.put false ((p.1 * 2 + p.2.1) * 64 + w) v
      else t) t) r.fab.wires

/-- The keepers take the level of every lift wire that is driven (R149). -/
def Region.keep (r : Region) (down : List (Nat × Bool)) : Tbl Bool :=
  let e : FabEnv := ⟨r, down⟩
  r.cells.foldl (fun t (p : Nat × Nat × Nat) =>
    if wLiftEn (r.word p.1 p.2.1 p.2.2) then
      t.put false (p.1 * 32 + p.2.2) (e.value (.lift p.1 p.2.2))
    else t) r.fab.keepers

/-- The flip-flops, wire registers and keepers are initialised: INIT of the context 0 words, 0 and 0
(R141, R145, R149). -/
def Fabric.initialise (f : Fabric) : Fabric :=
  let ctx0 := f.cfg.filter fun p => p.1 / (4704 * 32) == 0
  let ffs : Tbl Bool := ctx0.foldl (fun t p =>
    let fr := p.1 % (4704 * 32) / 32
    let cell := (fr / 2) * 64 + (fr % 2) * 32 + p.1 % 32
    let w := p.2.toNat
    ((t : Tbl Bool).put false (cell * 2) (ffInit (wFf w false))).put false (cell * 2 + 1) (ffInit (wFf w true))) []
  { f with ffs := ffs, wires := [], keepers := [] }

/-- What happens to the fabric's ports when the region leaves ACTIVE (R160 to R162): responses, FIFOs and open packets
are discarded. -/
def Fabric.leave (f : Fabric) : Fabric :=
  { f with ports := [], toEng := [], fromEng := [], opens := [], rx := [] }

end Sys2Proof.Machine
end

