-- ==== Sys2Proof/Machine/CtxOps.lean ====
section
/-! DEFINITION. The context unit's shared operations (06): judging, refusing and superseding requests, and the switch
itself with what it discards. -/

namespace Sys2Proof.Machine

/-- Changes the context unit of region `n`. -/
def State.modCtx (s : State) (n : Nat) (f : CtxUnit → CtxUnit) : State :=
  s.modRegion n fun r => { r with ctx := f r.ctx }

/-- DETAIL of CTX_REFUSED and CTX_SUPERSEDED (R184). -/
def CtxReqst.detail (q : CtxReqst) (reason : Nat) : Nat :=
  q.ctx + q.path * 8 + reason * 32 + (if q.path = 0 then q.entry * 256 else 0)

/-- A context unit's record, stamped at the registering edge (R184). -/
def State.ctxLog (s : State) (n code cls status detail stamp : Nat) : State :=
  s.logRec (s.mkRec code cls status (unitRegion n) detail (if s.tb.running then some stamp else none))

/-- A refused request (R170). -/
def State.ctxRefuse (s : State) (n : Nat) (q : CtxReqst) (reason : Nat) : State :=
  (((s.raise (CTX_STATUS_REFUSED n)).bump (CTX_REFCNT_REFUSED n))).ctxLog n 0x0601 1 0xA (q.detail reason) q.stamp

/-- A superseded request (R169). -/
def State.ctxSupersede (s : State) (n : Nat) (q : CtxReqst) : State :=
  (((s.raise (CTX_STATUS_SUPERSEDED n)).bump (CTX_REFCNT_SUPER n))).ctxLog n 0x0602 1 0 (q.detail 0) q.stamp

/-- The region is out of ACTIVE and TEST: FENCED, DARK or LOADING. -/
def Region.out (r : Region) : Bool :=
  r.state == .fenced || r.state == .dark || r.state == .loading

/-- Why R170 refuses a request, none when it does not. -/
def State.ctxReason (s : State) (n : Nat) (q : CtxReqst) : Option Nat :=
  let r := s.region n
  if r.out then some 4
  else if bitOf r.ctx.loading q.ctx then some 2
  else if !bitOf r.ctx.loaded q.ctx then some 1
  else if q.path = 2 ∧ !bitOf (s.rd (CTX_CFG_FABMASK n)) q.ctx then some 3
  else none

/-- Registers a request (R168). -/
def State.ctxRegister (s : State) (n : Nat) (q : CtxReqst) : State :=
  s.modCtx n fun c => { c with reqs := c.reqs ++ [q] }

/-- A request of the supervisor (R168, R180): refused outside ACTIVE and TEST, held in TEST. -/
def State.ctxSupervisor (s : State) (n ctx : Nat) : State :=
  let q : CtxReqst := ⟨1, ctx, 0, s.regionStamp⟩
  let r := s.region n
  if r.out then s.ctxRefuse n q 4
  else if r.state = .test then
    let s := match r.ctx.supHeld with
      | some old => s.ctxSupersede n old
      | none => s
    s.modCtx n fun c => { c with supHeld := some q }
  else s.ctxRegister n q

/-- The rank of R169: `a` goes before `b`, `b` having come later or earlier in the list. -/
def ctxBefore (a b : CtxReqst) : Bool :=
  decide (a.path < b.path) || (a.path == b.path && a.path == 0 && decide (a.entry < b.entry))

/-- The request R169 takes: event table by entry, the last supervisor write, the fabric. -/
def ctxBest : List CtxReqst → Option CtxReqst
  | [] => none
  | q :: t => match ctxBest t with
    | none => some q
    | some p => if ctxBefore q p then some q else some p

/-- The bank ports and network stream ports of context `k`'s mask. -/
def State.useBank (s : State) (n k b : Nat) : Bool :=
  if b < 32 then bitOf (s.rd (CTX_PUSE_LO_BANK n k)) b else bitOf (s.rd (CTX_PUSE_HI_BANK n k)) (b - 32)
def State.useStream (s : State) (n k p : Nat) : Bool := bitOf (s.rd (CTX_PUSE_HI_STREAM n k)) p

/-- Bank ports of R174 from context `a` to `b`: in the mask of a and not of b. -/
def State.lostBanks (s : State) (n a b : Nat) : List Nat :=
  (List.range 48).filter fun p => s.useBank n a p && !s.useBank n b p
def State.lostStreams (s : State) (n a b : Nat) : List Nat :=
  (List.range 8).filter fun p => s.useStream n a p && !s.useStream n b p

/-- Responses outstanding at the bank ports of R174, and open packets at its stream ports. -/
def State.ctxBusy (s : State) (n a b : Nat) : Nat × Nat :=
  let f := (s.region n).fab
  (((s.lostBanks n a b).map fun p => ((f.ports.get [] p).filter (fun x => !x.discard)).length).sum,
   ((s.lostStreams n a b).filter fun p => (f.opens.find? (fun x => x.1 == p)).isSome).length)

/-- The steep re-fetches a frame of context `k` of region `n` (R178). -/
def State.steepHolds (s : State) (n k : Nat) : Bool :=
  s.scrub.refetch.any fun f => f.region == n && f.ctx == k

/-- The switch of R172 to R174, made by path `src`; what it discards is counted. -/
def State.ctxSwitch (s : State) (n : Nat) (q : CtxReqst) (src : Nat) : State :=
  let old := (s.region n).ctx.active
  let (nb, ns) := s.ctxBusy n old q.ctx
  let lb := s.lostBanks n old q.ctx
  let ls := s.lostStreams n old q.ctx
  let s := (s.bump (CTX_DISCARD_BANK n) nb).bump (CTX_DISCARD_STREAM n) ns
  let s := s.modFab n fun f => { f with
    ports := f.ports.map fun p => if lb.contains p.1 then (p.1, p.2.map fun x => { x with discard := true }) else p
    opens := f.opens.filter fun p => !ls.contains p.1 }
  let s := s.modCtx n fun c => { c with
    active := q.ctx, lastSrc := src, lastFrom := old, lastTo := q.ctx, lastStamp := s.regionStamp }
  let s := s.count (CTX_SWCNT_COUNT n)
  if s.flag (CTX_CFG_LOGSW n) then
    s.ctxLog n 0x0605 0 0 (old + q.ctx * 8 + src * 64) q.stamp
  else s

/-- Refuses every request of region `n` that has made no switch (R181), those on their way included. -/
def State.ctxRefuseAll (s : State) (n : Nat) : State :=
  let mine (a : Action) : Bool := a.code == 3 && a.target % 64 == n
  let onWay := (s.evt.inflight.filter mine).map fun a =>
    (⟨0, a.param % 8, a.entry, s.regionStamp⟩ : CtxReqst)
  let c := (s.region n).ctx
  let all := c.reqs ++ c.supHeld.toList ++ onWay
  let s := s.modEvt fun t => { t with inflight := t.inflight.filter fun a => !mine a }
  let s := s.modCtx n fun c => { c with reqs := [], supHeld := none, heldSince := none, heldSteep := false }
  all.foldl (fun s q => s.ctxRefuse n q 4) s

/-- A region restart selects RSTCTX where it is loaded, else context 0, as a switch by path 3 (R181). -/
def State.ctxRestart (s : State) (n : Nat) : State :=
  let k := s.rd (CTX_CFG_RSTCTX n)
  let k := if bitOf (s.region n).ctx.loaded k then k else 0
  let old := (s.region n).ctx.active
  let s := s.modCtx n fun c => { c with
    active := k, lastSrc := 3, lastFrom := old, lastTo := k, lastStamp := s.regionStamp }
  let s := s.count (CTX_SWCNT_COUNT n)
  if s.flag (CTX_CFG_LOGSW n) then s.ctxLog n 0x0605 0 0 (old + k * 8 + 3 * 64) s.regionStamp else s

end Sys2Proof.Machine
end

