-- ==== Sys2Proof/Machine/EccOps.lean ====
section
/-! DEFINITION. The V144 code, the words of banks and engine memories, the correctable-error table and its escalation
(13), as the other units use them. -/

namespace Sys2Proof.Machine

/-! ### V144 (R386 to R390) -/

/-- The gaps d1 and d2 of R387 for s = i div 16. -/
def v144Gap (s : Nat) : Nat × Nat :=
  match s with
  | 0 => (1, 3)
  | 1 => (1, 4)
  | 2 => (1, 5)
  | 3 => (1, 6)
  | 4 => (1, 7)
  | 5 => (1, 8)
  | 6 => (2, 5)
  | _ => (2, 6)

/-- The column of D[i] (R387). -/
def v144Col (i : Nat) : Nat :=
  let t := i % 16
  let (d1, d2) := v144Gap (i / 16)
  2 ^ t + 2 ^ ((t + d1) % 16) + 2 ^ ((t + d2) % 16)

/-- The check bits of a valid word (R388). -/
def v144Check (d : Line) : Nat :=
  (List.range 128).foldl (fun c i => if d.getLsbD i then c ^^^ v144Col i else c) 0

/-- How a read is judged (R389). -/
inductive Judgement where
  | clean
  | poisoned
  | checkBit (j : Nat)
  | dataBit (i : Nat)
  | uncorrectable
deriving DecidableEq, Repr

/-- The judgement of a syndrome: the first row of R389 that applies. -/
def v144Judge (syn : Nat) : Judgement :=
  if syn = 0 then .clean
  else if syn = 0xFFFF then .poisoned
  else
    let isCol (x : Nat) : Bool :=
      (List.range 16).any (fun j => x == 2 ^ j) || (List.range 128).any (fun i => v144Col i == x)
    if isCol (syn ^^^ 0xFFFF) then .poisoned
    else match (List.range 16).find? (fun j => syn == 2 ^ j) with
    | some j => .checkBit j
    | none => match (List.range 128).find? (fun i => v144Col i == syn) with
      | some i => .dataBit i
      | none => .uncorrectable

/-- What a read delivers: data, poison, status (R389). -/
def v144Read (d : Line) (syn : Nat) : Line × Bool × Nat :=
  match v144Judge syn with
  | .clean => (d, false, 0)
  | .poisoned => (d, true, 2)
  | .checkBit _ => (d, false, 1)
  | .dataBit i => (d ^^^ (1#128 <<< i), false, 1)
  | .uncorrectable => (d, true, 2)

/-- The judgement is a correction. -/
def Judgement.corrects : Judgement → Bool
  | .checkBit _ => true
  | .dataBit _ => true
  | _ => false

/-! ### Words of the banks -/

/-- Where a physical bank word lies; words from 16,384 on are the spare rows. -/
def bankWord (n p w : Nat) : Nat := (n * 50 + p) * 16640 + w

/-- The 16 bytes of a bank word (00 R6). -/
def State.lineAt (s : State) (a : Nat) : Line :=
  BitVec.ofNat 128 ((List.range 16).foldl (fun v i => v + (s.bankMem.readByte (a * 16 + i)).toNat * 256 ^ i) 0)

/-- Writes the 16 bytes of a bank word and the syndrome it then reads with. -/
def State.setLineAt (s : State) (a : Nat) (d : Line) (syn : Nat) : State :=
  { s with
    bankMem := (List.range 16).foldl
      (fun (m : Memory) i => m.writeByte (a * 16 + i) (BitVec.ofNat 8 (d.toNat / 256 ^ i))) s.bankMem
    bankSyn := s.bankSyn.put 0 a syn }

/-- The row map: the physical word that holds word `w` of physical bank `p` (07 R206). -/
def Region.bankRow (r : Region) (p w : Nat) : Nat :=
  let m := if w < 16384 then r.mem.rowMap.get 0 (p * 1024 + w / 16) else 0
  if m = 0 then w else 16384 + (m - 1) * 16 + w % 16

/-- The row of the bank that physical word `i` serves: a word of a spare row serves the row remapped to it. -/
def Region.rowOf (r : Region) (p i : Nat) : Option Nat :=
  if i < 16384 then some (i / 16)
  else (List.range 1024).find? fun row => r.mem.rowMap.get 0 (p * 1024 + row) == (i - 16384) / 16 + 1

/-- Changes the error-correction unit of region `n`. -/
def State.modEcc (s : State) (n : Nat) (f : EccUnit → EccUnit) : State :=
  s.modRegion n fun r => { r with ecc := f r.ecc }

/-- Changes the memory unit of region `n`. -/
def State.modMem (s : State) (n : Nat) (f : MemUnit → MemUnit) : State :=
  s.modRegion n fun r => { r with mem := f r.mem }

/-- Patrol passes completed over a bank (memory 0) or an engine. -/
def EccUnit.passesOf (e : EccUnit) (mem unit : Nat) : Nat :=
  if mem = 0 then e.passes.get 0 unit else e.epasses.get 0 unit

/-- Drops the rewrites of a word: a write to it has issued. Its entry is done (R399). -/
def EccUnit.cancelWb (e : EccUnit) (mem unit word : Nat) : EccUnit :=
  let mine (m u w : Nat) : Bool := m == mem && u == unit && w == word
  { e with
    wbs := e.wbs.filter (fun w => !mine w.mem w.unit w.word)
    table := e.table.map fun p =>
      if mine p.2.mem p.2.unit p.2.word && p.2.wb == 1 then
        (p.1, { p.2 with wb := 2, pass := e.passesOf mem unit })
      else p }

/-! ### The correctable-error table (R396 to R400) -/

/-- The unit a record names: bank (KIND 3) or engine (KIND 2) of region `n`; 64 is the supervisor. -/
def eccUnitId (n mem unit : Nat) : Nat :=
  if n = 64 then unitBase 0x12 else unitId n (if mem = 0 then 3 else 2) unit

/-- The error-correction unit of region `n`; 64 is the supervisor's (R401). -/
def State.eccOf (s : State) (n : Nat) : EccUnit := if n = 64 then s.sup.ecc else (s.region n).ecc

/-- Changes it. -/
def State.modEccOf (s : State) (n : Nat) (f : EccUnit → EccUnit) : State :=
  if n = 64 then { s with sup := { s.sup with ecc := f s.sup.ecc } } else s.modEcc n f

/-- The entry that holds a word. -/
def EccUnit.findEntry (e : EccUnit) (mem unit word : Nat) : Option (Nat × EccEntry) :=
  e.table.find? fun p => p.2.mem == mem && p.2.unit == unit && p.2.word == word

/-- The entry the next new address takes: a free one, else the one with the lowest COUNT, lowest index (R397). -/
def EccUnit.victim (e : EccUnit) : Nat × Bool :=
  match (List.range 32).find? (fun k => (e.table.find? (fun p => p.1 == k)).isNone) with
  | some k => (k, false)
  | none =>
    let best := e.table.foldl (fun (b : Nat × Nat) p => if p.2.count < b.2 then (p.1, p.2.count) else b) (0, 256)
    (best.1, true)

/-- The write-back register of a bank or engine memory takes a rewrite, if it is free (R399). -/
def EccUnit.askWb (e : EccUnit) (w : WriteBack) : EccUnit × Bool :=
  if e.wbs.any (fun x => x.mem == w.mem && x.unit == w.unit && x.poison == w.poison) then (e, false)
  else ({ e with wbs := e.wbs ++ [w] }, true)

/-- ECC_ESCALATE (R407), ECC_STATUS.ESC. -/
def State.logEscalate (s : State) (n mem unit word step : Nat) : State :=
  let s := if n < 64 then s.raise (ECC_STATUS_ESC n) else s
  s.logEv 0x0D03 1 0 (eccUnitId n mem unit) (word % 2 ^ 14 + mem * 2 ^ 14 + step * 2 ^ 16)

/-- The logical bank served by physical bank `p`. -/
def State.logicalOf (s : State) (n p : Nat) : Option Nat :=
  (List.range 48).find? fun b => s.rd (MEM_BANK_OWN_PHYS n b) == p

/-- The first free spare bank of region `n` (07 R208). -/
def State.freeSpareBank (s : State) (n : Nat) : Option Nat :=
  [48, 49].find? fun p => (s.region n).mem.spareUse.get 0 p == 0 && !s.bist.runs.any fun r => r.unit == unitId n 3 p

/-- Starts or queues a bank copy of logical bank `b` (07 R207). -/
def State.startBankCopy (s : State) (n b reason : Nat) (dst : Nat) : State :=
  if s.rd (MEM_COPY_STATE n) = 0 then
    let s := (((s.wr (MEM_COPY_STATE n) 1).wr (MEM_COPY_SRC n) (s.rd (MEM_BANK_OWN_PHYS n b))).wr
      (MEM_COPY_DST n) dst).wr (MEM_COPY_WORDS n) 0
    s.modMem n fun m => { m with 
      copyReason := reason
      copyBank := b
      spareUse := if dst < 48 then m.spareUse else m.spareUse.set dst (if reason = 1 then 2 else 1) }
  else s.modMem n fun m => { m with copyQueue := m.copyQueue ++ [(b, reason, dst)] }

/-- A repair is queued for the journal; a full queue loses it (17 R519). -/
def State.journal (s : State) (unit typ arg : Nat) : State :=
  if 64 ≤ s.jrn.queue.length then s.bump CFG_JCNT_LOST
  else { s with jrn := { s.jrn with queue := s.jrn.queue ++ [⟨unit, typ, arg⟩] } }

/-- A unit is retired with no spare: RUN-degraded until the next load (01 R39). -/
def State.degrade (s : State) : State := { s with chip := { s.chip with degraded := true } }

/-- The engine of an EngId. -/
def State.eng (s : State) : EngId → Engine
  | .rgn n e => (s.region n).engs.get {} e
  | .sup => s.sup.eng

/-- Changes an engine. -/
def State.modEng (s : State) (id : EngId) (f : Engine → Engine) : State :=
  match id with
  | .rgn n e => s.modRegion n fun r => { r with engs := r.engs.set e (f (r.engs.get {} e)) }
  | .sup => { s with sup := { s.sup with eng := f s.sup.eng } }

/-- The engine number `e` of region `n`, 64 the supervisor. -/
def engIdOf (n e : Nat) : EngId :=
  if h : n < 64 ∧ e < 25 then .rgn ⟨n, h.1⟩ ⟨e, h.2⟩ else .sup

/-- An engine is marked failed; placement handles it at the next point (R398, 11 R328). -/
def State.markFailed (s : State) (n e : Nat) : State :=
  if (s.eng (engIdOf n e)).failed then s
  else
    let s := s.modEng (engIdOf n e) fun g => { g with failed := true }
    { s with plc := { s.plc with lost := s.plc.lost ++ [n * 32 + e] } }

/-- COUNT reaches RMTHR for a bank word of physical bank `p` (R398). -/
def State.escalateBank (s : State) (n p word k : Nat) : State :=
  let m := (s.region n).mem
  let row := ((s.region n).rowOf p word).getD 0
  if s.rd (MEM_ROWUSE_USED n p) < 16 then
    if (m.rowQueue.filter (fun q => q.1 == p)).length < 5 then
      let s := if m.rowQueue.contains (p, row) then s
        else s.modMem n fun m => { m with rowQueue := m.rowQueue ++ [(p, row)] }
      (s.modEcc n fun e => { e with table := e.table.set k { (e.table.get ⟨0, 0, false, 0, 0, 0, 0, 0, 0⟩ k) with wb := 3 } })
        |>.logEscalate n 0 p word 1
    else
      (s.modEcc n fun e => { e with table := e.table.set k { (e.table.get ⟨0, 0, false, 0, 0, 0, 0, 0, 0⟩ k) with wb := 3 } })
        |>.logEscalate n 0 p word 5
  else match s.logicalOf n p with
  | none => s.modMem n fun m => { m with spareUse := m.spareUse.set p 3 }
  | some b =>
    if m.copyQueue.any (fun (q : Nat × Nat × Nat) => q.1 == b) || (s.rd (MEM_COPY_STATE n) != 0 && m.copyBank == b) then s
    else match s.freeSpareBank n with
    | some dst => (s.startBankCopy n b 1 dst).logEscalate n 0 p word 2
    | none => (((s.wr (MEM_BANK_OWN_PHYS n b) 63).degrade).logEscalate n 0 p word 3).journal (unitId n 3 p) 2 0

/-- One correction updates the table and escalates (R396 to R398, R401). -/
def State.correction (s : State) (n mem unit word : Nat) (spare : Bool) (synd : Nat) (patrol : Bool) : State :=
  let s := if n < 64 then s.count (ECC_CNT_CE_COUNT n) else s
  let s := if n < 64 ∧ s.flag (ECC_CFG_LOGCE n) then
      s.logEvLimited (eccUnitId n mem unit) 0x0D01 0 1 (eccUnitId n mem unit)
        (word % 2 ^ 14 + mem * 2 ^ 14 + synd * 2 ^ 16 + b2n patrol * 2 ^ 32)
    else s
  let wbthr := if n < 64 then s.rd (ECC_CFG_WBTHR n) else 4
  let rmthr := if n < 64 then s.rd (ECC_CFG_RMTHR n) else 8
  let u := s.eccOf n
  let (k, e, s) := match u.findEntry mem unit word with
    | some (k, e) =>
      if e.wb = 1 then (k, e, s)
      else
        let e := { e with count := satAdd 8 e.count 1, synd := synd, pass := u.passesOf mem unit }
        (k, e, s)
    | none =>
      let (k, evicted) := u.victim
      let s := if evicted ∧ n < 64 then
          let s := s.bump (ECC_TBL_OVF_OVERFLOW n)
          s.logEvLimited (unitRegion n) 0x0D04 1 0 (unitRegion n) (s.rd (ECC_TBL_OVF_LOST n) * 2 ^ 16)
        else s
      let st := if n < 64 then s.regionStamp else s.stamp
      (k, ⟨mem, unit, spare, 0, word, 1, synd, st, 0⟩, s)
  let s := s.modEccOf n fun u => { u with table := u.table.set k e }
  if e.wb = 1 then s
  else
    -- write-back at WBTHR, or at once for patrol (R403)
    let (u', asked) := (s.eccOf n).askWb ⟨mem, unit, word, false⟩
    let s := if asked ∧ (patrol ∨ (e.count = wbthr ∧ e.wb = 0)) then
        s.modEccOf n fun _ => { u' with table := u'.table.set k { e with wb := 1 } }
      else s
    if rmthr ≤ e.count ∧ (e.count = rmthr ∨ e.wb = 3 ∨ patrol) then
      if n = 64 then
        s.logEv 0x0D05 1 1 (unitBase 0x12) (word % 2 ^ 14 + mem * 2 ^ 14 + synd * 2 ^ 16)
      else if mem = 0 then s.escalateBank n unit word k
      else if (s.eng (engIdOf n unit)).failed then s
      else
        (s.markFailed n unit).logEscalate n mem unit word 4
    else s

/-- A newly found uncorrectable word: counted, logged, its rewrite asked for (R395, R403). -/
def State.uncorrectable (s : State) (n mem unit word synd : Nat) (patrol : Bool) : State :=
  let s := if n < 64 then
      (s.count (ECC_CNT_UE_COUNT n)).raise (if patrol then ECC_STATUS_PATUE n else ECC_STATUS_UE n)
    else s
  let s := s.logEvLimited (eccUnitId n mem unit) 0x0D02 1 2 (eccUnitId n mem unit)
    (word % 2 ^ 14 + mem * 2 ^ 14 + synd * 2 ^ 16 + b2n patrol * 2 ^ 32)
  s.modEccOf n fun u => (u.askWb ⟨mem, unit, word, true⟩).1

/-- Reads word `w` of physical bank `p`: what is delivered, and what the read finds (R389, R395, R396). -/
def State.bankRead (s : State) (n p w : Nat) (patrol : Bool := false) : Line × Bool × Nat × State :=
  let i := (s.region n).bankRow p w
  let a := bankWord n p i
  let d := s.lineAt a
  let syn := s.bankSyn.get 0 a
  let (d', psn, st) := v144Read d syn
  let j := v144Judge syn
  let s := if j.corrects then s.correction n 0 p i (decide (16384 ≤ i)) syn patrol
    else if j = Judgement.uncorrectable then s.uncorrectable n 0 p i syn patrol
    else s
  (d', psn, st, s)

/-- The syndrome an armed injection gives a word, and its data (R406). -/
def injected (k pos : Nat) (d : Line) (syn : Nat) : Line × Nat :=
  let flip (x : Line × Nat) (b : Nat) : Line × Nat :=
    if b < 128 then (x.1 ^^^ (1#128 <<< b), x.2 ^^^ v144Col b) else (x.1, x.2 ^^^ 2 ^ (b - 128))
  match k with
  | 1 => flip (d, syn) pos
  | 2 => flip (flip (d, syn) pos) ((pos + 1) % 144)
  | 3 => (d, 0xFFFF)
  | _ => (d, syn)

/-- Writes word `w` of physical bank `p`, poisoned or valid; the write reaches a bank being mirrored too (07 R207). -/
def State.bankWrite (s : State) (n p w : Nat) (d : Line) (poison : Bool) : State :=
  let i := (s.region n).bankRow p w
  let syn := if poison then 0xFFFF else 0
  let (d', syn', s) := match (s.region n).ecc.inj with
    | some q =>
      if s.rd (MEM_BANK_OWN_PHYS n q.bank) = p ∧ q.word = w then
        let (x, y) := injected q.kind q.pos d syn
        (x, y, s.modEcc n fun e => { e with inj := none })
      else (d, syn, s)
    | none => (d, syn, s)
  let s := s.setLineAt (bankWord n p i) d' syn'
  let s := s.modEcc n fun e => e.cancelWb 0 p i
  if s.rd (MEM_COPY_STATE n) = 2 ∧ s.rd (MEM_COPY_SRC n) = p then
    s.setLineAt (bankWord n (s.rd (MEM_COPY_DST n)) ((s.region n).bankRow (s.rd (MEM_COPY_DST n)) w)) d syn
  else s

/-! ### Words of the engine memories (08 R221) -/

/-- The number of data words in a physical word. -/
def engPer (m : Nat) : Nat := if m = 2 then 2 else 4

/-- The physical word that holds word `a` of memory `m`, as 128 bits. -/
def Engine.physLine (e : Engine) (m q : Nat) : Line :=
  let w := if m = 2 then 48 else 24
  let k := engPer m
  let data := (List.range k).foldl (fun v i => v + e.mem.get 0 (m * 16384 + q * k + i) * 2 ^ (w * i)) 0
  let flags := if m = 2 then 0
    else (List.range 4).foldl (fun v i => v + b2n (e.psn.get false (m * 16384 + q * 4 + i)) * 2 ^ (96 + i)) 0
  BitVec.ofNat 128 (data + flags)

/-- Puts a physical word back. -/
def Engine.setPhys (e : Engine) (m q : Nat) (d : Line) (syn : Nat) : Engine :=
  let w := if m = 2 then 48 else 24
  let k := engPer m
  { e with
    mem := (List.range k).foldl (fun (t : Tbl Nat) i =>
      t.put 0 (m * 16384 + q * k + i) (bitsOf d.toNat (w * i + w - 1) (w * i))) e.mem
    psn := if m = 2 then e.psn else (List.range 4).foldl (fun (t : Tbl Bool) i =>
      t.put false (m * 16384 + q * 4 + i) (d.getLsbD (96 + i))) e.psn
    syn := e.syn.put 0 (m * 4096 + q) syn }

/-- The region number (64 for the supervisor) and engine number of an EngId. -/
def engNums : EngId → Nat × Nat
  | .rgn n e => (n.val, e.val)
  | .sup => (64, 0)

/-- Reads word `a` of memory `m` of an engine: value, poison, and what the read finds. -/
def State.engRead (s : State) (id : EngId) (m a : Nat) (patrol : Bool := false) : Nat × Bool × State :=
  let e := s.eng id
  let k := engPer m
  let q := a / k
  let syn := e.syn.get 0 (m * 4096 + q)
  if syn = 0 then (e.mem.get 0 (m * 16384 + a), e.psn.get false (m * 16384 + a), s)
  else
    let (n, en) := engNums id
    let (d, bad, _) := v144Read (e.physLine m q) syn
    let j := v144Judge syn
    let s := if j.corrects then s.correction n (m + 1) en q false syn patrol
      else if j = Judgement.uncorrectable then s.uncorrectable n (m + 1) en q syn patrol
      else s
    let w := if m = 2 then 48 else 24
    (bitsOf d.toNat (w * (a % k) + w - 1) (w * (a % k)), bad || (m != 2 && d.getLsbD (96 + a % 4)), s)

/-- Writes word `a` of D or K; the merge of R394. -/
def State.engStore (s : State) (id : EngId) (m a v : Nat) (tag : Bool) : State :=
  let (n, en) := engNums id
  let q := a / 4
  let s := s.modEng id fun e =>
    let syn := e.syn.get 0 (m * 4096 + q)
    let e := if syn = 0 then e
      else
        let (d, bad, _) := v144Read (e.physLine m q) syn
        if bad then e.setPhys m q (d ||| (0xF#128 <<< 96)) 0 else e.setPhys m q d 0
    { e with
      mem := e.mem.put 0 (m * 16384 + a) (v % 2 ^ 24)
      psn := e.psn.put false (m * 16384 + a) tag }
  s.modEccOf n fun u => u.cancelWb (m + 1) en q

/-- Writes instruction `a` of P: both instructions of the physical word are replaced with a valid code (R394); the
other keeps its bits. -/
def State.engStoreP (s : State) (id : EngId) (a v : Nat) (poison : Bool := false) : State :=
  let (n, en) := engNums id
  let s := s.modEng id fun e => { e with
    mem := e.mem.put 0 (2 * 16384 + a) (v % 2 ^ 48)
    syn := e.syn.put 0 (2 * 4096 + a / 2) (if poison then 0xFFFF else 0) }
  s.modEccOf n fun u => u.cancelWb 3 en (a / 2)

end Sys2Proof.Machine
end

