-- ==== Sys2Proof/Machine/NetOps.lean ====
section
/-! DEFINITION. The network's shared operations (12): interfaces and their registers, headers, injection into a router's
queue, requests with their TIDs, responses and drop notices. -/

namespace Sys2Proof.Machine

/-! ### Interfaces (R353, R354) -/

/-- NI `i`. -/
def State.ni (s : State) (i : Nat) : Ni := s.net.nis.get {} i

/-- Changes the network. -/
def State.modNet (s : State) (f : Net → Net) : State := { s with net := f s.net }

/-- Changes NI `i`. -/
def State.modNi (s : State) (i : Nat) (f : Ni → Ni) : State :=
  s.modNet fun t => { t with nis := t.nis.set i (f (t.nis.get {} i)) }

/-- A field of NI `i`'s registers: a region's, or I/O interface i − 64's (R385). -/
def niFld (f : Nat → Fld) (i : Nat) : Fld :=
  if i < 64 then f i
  else { f 0 with addr := (f 0).addr - 0x1020000 + 0xF1000 + (i - 64) * 0x100 }

/-- The router NI `i` is attached to. -/
def niRouter (i : Nat) : Nat := if i < 72 then i % 64 else i - 16

/-- Its bypass: the router of the next column in the same row. -/
def niBypass (i : Nat) : Nat :=
  let r := niRouter i
  r / 8 * 8 + (r % 8 + 1) % 8

/-- The unit a record about NI `i` names (R383). -/
def niUnit (i : Nat) : Nat := if i < 64 then unitId i 4 0 else unitBase 0xF

/-- Bit `n` of a 64-bit mask held in two registers. -/
def State.mask64 (s : State) (lo hi : Fld) (n : Nat) : Bool :=
  if n < 32 then bitOf (s.rd lo) n else bitOf (s.rd hi) (n - 32)

/-- Sets or clears bit `n` of a 64-bit mask held in two registers. -/
def State.setMask64 (s : State) (lo hi : Fld) (n : Nat) (v : Bool) : State :=
  let put (f : Fld) (k : Nat) : State := s.wr f (if v then setBit (s.rd f) k else clearBit (s.rd f) k)
  if n < 32 then put lo n else put hi (n - 32)

/-- Router `r` is faulted (R381). -/
def State.routerFaulted (s : State) (r : Nat) : Bool := s.mask64 NOC_RFAULT_LO_MASK NOC_RFAULT_HI_MASK r

/-- The active epoch. -/
def State.epoch (s : State) : Bool := s.flag NOC_STATUS_EPOCH

/-! ### Packets -/

/-- The virtual channel of an opcode (R357). -/
def opcType (opc : Nat) : Nat :=
  if opc = 0x18 ∨ opc = 0x19 then 3
  else if opc = 0x20 ∨ opc = 0x21 then 2
  else if opc = 0x30 ∨ opc = 0x31 then 1
  else 0

/-- Flits of a packet less 1, from its payload words. -/
def flitsLess1 (words : Nat) : Nat := (words - 1) / 4

/-- The queue of a router's input port, virtual channel and class. -/
def queueKey (r port vc : Nat) (cls : Bool) : Nat := ((r * 8 + port) * 4 + vc) * 2 + b2n cls

/-- The router's input ports: 0 to 3 the links of direction d, then own NI, neighbour's NI by its bypass, own I/O
interface, neighbour's I/O interface. -/
def niInPort (i : Nat) (byp : Bool) : Nat := (if i < 64 then 4 else 6) + b2n byp

/-- Flits in a queue. -/
def flitsOf (q : List Packet) : Nat := (q.map fun p => p.len + 1).sum

/-- Puts a packet at the end of a queue. -/
def State.enqueue (s : State) (key : Nat) (p : Packet) : State :=
  s.modNet fun t =>
    let q := t.queues.get [] key
    { t with queues := t.queues.put [] key (q ++ [if q = [] then { p with headAt := s.cyc } else p]) }

/-- Takes the head off a queue. -/
def State.dequeue (s : State) (key : Nat) : State :=
  s.modNet fun t =>
    let q := match t.queues.get [] key with
      | [] => []
      | _ :: [] => []
      | _ :: p :: rest => { p with headAt := s.cyc } :: rest
    { t with queues := t.queues.put [] key q }

/-! ### Routes (R360 to R363) -/

/-- The router one hop from `r` in direction `d` (R352). -/
def hopTo (r d : Nat) : Nat :=
  let c := r % 8
  let w := r / 8
  match d with
  | 0 => w * 8 + (c + 1) % 8
  | 1 => w * 8 + (c + 7) % 8
  | 2 => (w + 1) % 8 * 8 + c
  | _ => (w + 7) % 8 * 8 + c

/-- Where a route that starts at `r` ends, none when it holds a reserved code. -/
def routeEnd : Nat → Nat → Nat → Option Nat
  | 0, r, _ => some r
  | k + 1, r, route =>
    let h := route % 8
    if h = 7 then some r
    else if h < 4 then routeEnd k (hopTo r h) (route / 8)
    else none

/-- The bits of a route entry. -/
def entryValid (e : Nat) : Bool := bitOf e 31
def entryDport (e : Nat) : Nat := bitsOf e 27 24
def entryRoute (e : Nat) : Nat := bitsOf e 23 0

/-- The router that holds an attachment of NI `i`, by the port of ejection (R356). -/
def portRouter (i dport : Nat) : Nat := if dport = 1 ∨ dport = 3 then niBypass i else niRouter i

/-- The NI behind port `dport` of router `r`. -/
def portNi (r dport : Nat) : Option Nat :=
  let prev := r / 8 * 8 + (r % 8 + 7) % 8
  let io (x : Nat) : Option Nat := if x < 8 then some (64 + x) else if 56 ≤ x then some (x + 16) else none
  match dport with
  | 0 => some r
  | 1 => some prev
  | 2 => io r
  | 3 => io prev
  | _ => none

/-- The router at which NI `i` injects. -/
def State.niAt (s : State) (i : Nat) : Nat := if (s.ni i).bypass then niBypass i else niRouter i

/-- What a source NI finds for a destination index: a status it answers itself, or alternative, route and port
(R363). -/
def State.lookup (s : State) (i dst : Nat) : Except Nat (Bool × Nat × Nat) :=
  let n := s.ni i
  let ep := b2n s.epoch
  let sel := n.sel.get 0 (ep * 128 + dst)
  let alt := bitOf sel 0
  let e := n.routes.get 0 (ep * 256 + b2n alt * 128 + dst)
  if 80 ≤ dst ∨ !entryValid e then .error 4
  else if bitOf sel 1 then .error 3
  else .ok (alt, entryRoute e, entryDport e)

/-! ### Drop notices (R66, R373, R374) -/

/-- A drop notice for a packet that Kraerlink handed to the network, named by its TID (log entry 50; 14 R436, R441). -/
def State.krlRxDrop (s : State) (tid addr status : Nat) : State :=
  (s.bump KRL_CNT_RX_RXDROP).logEvLimited (unitBase 7) 0x0E08 1 status (unitBase 7)
    (tid % 256 + bitsOf addr 17 12 * 2 ^ 8)

/-- A drop notice at its source: the strobe on the stream port, the count and the record (R373, R383). -/
def State.dropArrives (s : State) (i addr status : Nat) (tid : Nat := 0) : State :=
  let s := if i = 76 ∧ 256 ≤ tid then s.krlRxDrop tid addr status else s
  let s := s.bump (niFld NI_CNT_DROP_RECEIVED i)
  let s := if i < 64 then s.raise (RGN_PORT_STAT_DROP i) else s
  let s := s.modNi i fun n => { n with
    dropped := n.dropped.set (bitsOf addr 10 8) (n.dropped.get 0 (bitsOf addr 10 8) + 1) }
  s.logEvLimited (unitId i 0xF 0xF) 0x0C06 1 status (niUnit i) (addr % 2 ^ 18)

/-- The NI `i` cannot be told: it belongs to a FENCED or DARK region (R66). -/
def State.sourceGone (s : State) (i : Nat) : Bool :=
  i < 64 && (((s.region i).state == .fenced) || ((s.region i).state == .dark))

/-- NI `at` sends a response-channel packet back to `p.src`, by its own tables. A destination without a route is
discarded. -/
def State.sendBack (s : State) (i : Nat) (p : Packet) (dst : Nat) : State :=
  let n := s.ni i
  let ep := b2n s.epoch
  let alt := bitOf (n.sel.get 0 (ep * 128 + dst)) 0
  let e := n.routes.get 0 (ep * 256 + b2n alt * 128 + dst)
  if !entryValid e then s
  else
    let p := { p with route := entryRoute e, dport := entryDport e, alt := alt, epoch := s.epoch }
    let r := s.niAt i
    if s.routerFaulted r then s
    else s.enqueue (queueKey r (niInPort i n.bypass) 1 alt) p

/-- A stream packet from or to region `n` got a drop notice while the region is FENCED (R668). -/
def State.closedPacket (s : State) (n : Nat) : State :=
  if n < 64 ∧ (s.region n).state = .fenced then
    s.modRegion n fun r => { r with closed := { r.closed with packets := satAdd 16 r.closed.packets 1 } }
  else s

/-- NI `i` drops stream packet `p`: one DROP with its TID and ADDR to SRC, or a count where it cannot reach. -/
def State.sendDrop (s : State) (i : Nat) (p : Packet) (status : Nat) : State :=
  let s := s.closedPacket p.src
  if s.sourceGone p.src then s.bump (niFld NI_CNT_DROP_UNSENT i)
  else if p.src = i then s.dropArrives i p.addr status p.tid
  else s.sendBack i { typ := 1, opc := 0x31, status := status, src := i, tid := p.tid, addr := p.addr, urg := p.urg } p.src

/-- The target NI `i` drops stream packet `p`. -/
def State.dropAt (s : State) (i : Nat) (p : Packet) (status : Nat) : State :=
  (if p.src = i then s else s.closedPacket i).sendDrop i p status

/-- Injects a packet that NI `i` has formed (R354, R374, R381). -/
def State.inject (s : State) (i : Nat) (p : Packet) : State :=
  let r := s.niAt i
  if s.routerFaulted r then
    if p.typ = 2 then s.dropArrives i p.addr 3 p.tid else s
  else s.enqueue (queueKey r (niInPort i (s.ni i).bypass) p.typ p.alt) p

/-! ### Requests (R370 to R372) -/

/-- Requests outstanding at NI `i`. -/
def Ni.out (n : Ni) : Nat := (n.tids.filter fun e => !e.2.timedOut).length

/-- The next TID in state FREE, from `t` on, within `fuel`. -/
def Ni.freeTid (n : Ni) : Nat → Nat → Option Nat
  | 0, _ => none
  | k + 1, t => if n.tids.any (fun e => e.1 == t % 4096) then n.freeTid k (t + 1) else some (t % 4096)

/-- NI `i` issues a request: it waits while 256 are outstanding, is answered here, or leaves with the next TID. -/
def State.netRequest (s : State) (i : Nat) (a : NetAsk) : State :=
  let n := s.ni i
  if 256 ≤ n.out then s.modNi i fun n => { n with waiting := n.waiting ++ [a] }
  else match s.lookup i a.dst with
  | .error st =>
    (s.bump (niFld NI_CNT_LOCAL_LOCAL i)).modNi i fun n => { n with
      locals := n.locals ++ [{ a with pkt := { a.pkt with status := st, data := [] } }] }
  | .ok (alt, route, dport) =>
    match n.freeTid 4096 n.nextTid with
    | none => s.modNi i fun n => { n with waiting := n.waiting ++ [a] }
    | some t =>
      let s := (s.count (niFld NI_CNT_REQ_COUNT i)).modNi i fun n => { n with
        nextTid := (t + 1) % 4096
        tids := n.tids.set t { opc := a.pkt.opc, dst := a.dst, why := a.why } }
      s.inject i { a.pkt with
        typ := opcType a.pkt.opc, src := i, tid := t, alt := alt, route := route, dport := dport, epoch := s.epoch }

/-- A request that waited for a TID leaves. -/
def State.nextRequest (s : State) (i : Nat) : State :=
  match (s.ni i).waiting with
  | [] => s
  | a :: rest => (s.modNi i fun n => { n with waiting := rest }).netRequest i a

/-- The order of R20: the rank of a status code. -/
def statusRank (st : Nat) : Nat :=
  match st with
  | 0x8 => 0
  | 0x7 => 1
  | 0xB => 2
  | 0x3 => 3
  | 0x4 => 4
  | 0x6 => 5
  | 0x5 => 6
  | 0xA => 7
  | 0x2 => 8
  | 0x9 => 9
  | 0x1 => 10
  | _ => 11

/-- The code reported when two apply to one item (R20). -/
def worse (a b : Nat) : Nat := if statusRank b < statusRank a then b else a

/-- A code of class Done (R18). -/
def statusDone (st : Nat) : Bool := st == 0 || st == 1 || st == 2 || st == 9

/-- A target NI answers a request once: TID and STATUS of the request; a Not done status carries no data (R18). -/
def State.respond (s : State) (i : Nat) (p : Packet) (status : Nat) (data : List Line) (psn : Nat) : State :=
  let data := if statusDone status then data else []
  let psn := if statusDone status then psn else 0
  let r : Packet :=
    { typ := 1, opc := 0x30, status := status, src := i, tid := p.tid, urg := p.urg, data := data, psn := psn,
      len := flitsLess1 data.length }
  s.sendBack i r p.src

/-- What a NI that is not open answers on arrival, none where it serves or holds the request (R372). -/
def State.niRefuses (s : State) (i : Nat) : Bool :=
  (s.ni i).drain ||
  (i < 64 && (let st := (s.region i).state
    (st == .fenced) || (st == .loading) || (st == .dark)))

/-- Inbound requests a region NI has accepted and not answered: held in TEST, at a steal queue or for a new owner. -/
def State.niAccepted (s : State) (i : Nat) : Nat :=
  if 64 ≤ i then 0
  else
    let m := (s.region i).mem
    (s.ni i).held.length + (m.steals.map fun q => q.2.length).sum + (m.netHeld.map fun q => q.2.length).sum

end Sys2Proof.Machine
end

