-- ==== Sys2Proof/Machine/MemOps.lean ====
section
/-! DEFINITION. The banks' shared operations (07, 13): an access of a logical bank, ownership, handover, stealing, row
and bank copies. -/

namespace Sys2Proof.Machine

/-! ### Gates (19 R559) -/

/-- The gate of a unit: 0 open, 1 closing, 2 closed. -/
def State.gateOf (s : State) (u : Nat) : Nat :=
  match s.clk.gates.find? fun g => g.unit == u with
  | some g => g.state
  | none => 0

/-! ### One access (R200 to R203, R393) -/

/-- The bytes of `d` that `mask` enables, over `old`. -/
def mergeLine (old d : Line) (mask : Nat) : Line :=
  BitVec.ofNat 128 ((List.range 16).foldl (fun v i =>
    v + bitsOf (if bitOf mask i then d.toNat else old.toNat) (8 * i + 7) (8 * i) * 256 ^ i) 0)

/-- Where an atomic's byte enables place its target: its lowest bit and its width (R202). -/
def atomicTarget (op : BankOp) (mask : Nat) : Option (Nat × Nat) :=
  match op with
  | .add32 => ((List.range 4).find? fun l => mask == 0xF * 2 ^ (4 * l)).map fun l => (32 * l, 32)
  | _ => ((List.range 2).find? fun h => mask == 0xFF * 2 ^ (8 * h)).map fun h => (64 * h, 64)

/-- What an access answers. -/
structure BankAns where
  status : Nat
  data : Line := 0#128
  poison : Bool := false
deriving DecidableEq, Repr

/-- An access of word `w` of physical bank `p`. -/
def State.physAccess (s : State) (n p : Nat) (op : BankOp) (w mask : Nat) (d : Line) (psn : Bool) : BankAns × State :=
  match op with
  | .read =>
    let (x, bad, st, s) := s.bankRead n p w
    (⟨st, x, bad⟩, s)
  | .write =>
    if mask = 0xFFFF then (⟨0, 0#128, false⟩, s.bankWrite n p w d psn)
    else
      let (x, bad, st, s) := s.bankRead n p w
      (⟨st, 0#128, false⟩, s.bankWrite n p w (mergeLine x d mask) (bad || psn))
  | _ =>
    match atomicTarget op mask with
    | none => (⟨4, 0#128, false⟩, s)
    | some (lo, wd) =>
      let (x, bad, st, s) := s.bankRead n p w
      let old := bitsOf x.toNat (lo + wd - 1) lo
      if bad || psn then (⟨2, BitVec.ofNat 128 old, bad⟩, s)
      else
        let arg := d.toNat % 2 ^ wd
        let new := if op = .swap64 then arg else (old + arg) % 2 ^ wd
        (⟨st, BitVec.ofNat 128 old, false⟩,
          s.bankWrite n p w (BitVec.ofNat 128 (setBits x.toNat (lo + wd - 1) lo new)) false)

/-- An access of a logical bank: DECODE above 47 and where the bank is retired without replacement (R189, R208). -/
def State.bankAccess (s : State) (n b : Nat) (op : BankOp) (w mask : Nat) (d : Line) (psn : Bool) : BankAns × State :=
  if 48 ≤ b ∨ 50 ≤ s.rd (MEM_BANK_OWN_PHYS n b) then (⟨4, 0#128, false⟩, s)
  else s.physAccess n (s.rd (MEM_BANK_OWN_PHYS n b)) op w mask d psn

/-- A request is answered OWNER (R191, R211). -/
def State.answerOwner (s : State) (n : Nat) : State :=
  (s.raise (MEM_STATUS_OWNERRSP n)).bump (MEM_CNT_OWNER_COUNT n)

/-! ### Network requests at a bank (R197, R358) -/

/-- The bank operation of an opcode and the number of words (R357). -/
def opcBank (opc : Nat) : Option (BankOp × Nat) :=
  match opc with
  | 0x01 => some (.read, 1)
  | 0x02 => some (.read, 4)
  | 0x03 => some (.read, 16)
  | 0x05 => some (.write, 1)
  | 0x06 => some (.write, 4)
  | 0x07 => some (.write, 16)
  | 0x08 => some (.add32, 1)
  | 0x09 => some (.add64, 1)
  | 0x0A => some (.swap64, 1)
  | _ => none

/-- The accesses of a request, word by word: the worst status, the words read, their poison. -/
def State.bankWords (s : State) (n b : Nat) (op : BankOp) (p : Packet) (w : Nat) : List Nat → Nat × List Line × Nat × State
  | [] => (0, [], 0, s)
  | i :: rest =>
    let mask := if op = .write ∧ p.opc ≠ 0x05 then 0xFFFF else p.be
    let (a, s) := s.bankAccess n b op (w + i) mask (p.data.getD i 0#128) (bitOf p.psn i)
    let (st, ds, ps, s) := s.bankWords n b op p w rest
    (worse a.status st, a.data :: ds, ps + b2n a.poison * 2 ^ i, s)

/-- The bank carries out a request and the NI answers it. -/
def State.bankServe (s : State) (n : Nat) (p : Packet) : State :=
  match opcBank p.opc with
  | none => s.respond n p 4 [] 0
  | some (op, k) =>
    let (st, ds, ps, s) := s.bankWords n (bitsOf p.addr 23 18) op p (bitsOf p.addr 17 4) (List.range k)
    s.respond n p st (if op = .write then [] else ds) (if op = .write then 0 else ps)

/-- The network may use bank `b` as its owner: NETWORK, or SUPERVISOR for NI 72 (R191). -/
def State.netOwns (s : State) (n b src : Nat) : Bool :=
  let o := s.rd (MEM_BANK_OWN_OWNER n b)
  o == 4 || (o == 3 && src == 72)

/-- A request of an ACTIVE region's banks (R189, R191, R193, R197, R358). -/
def State.bankRequest (s : State) (n : Nat) (p : Packet) : State :=
  let b := bitsOf p.addr 23 18
  match opcBank p.opc with
  | none => s.respond n p 4 [] 0
  | some (_, k) =>
    if 2 ^ 24 ≤ p.addr ∨ p.addr % 16 ≠ 0 ∨ 48 ≤ b ∨ 16384 < bitsOf p.addr 17 4 + k then s.respond n p 4 [] 0
    else if s.netOwns n b p.src then
      if s.flag (MEM_BANK_OWN_BUSY n b) then
        s.modMem n fun m => { m with netHeld := m.netHeld.put [] b (m.netHeld.get [] b ++ [p]) }
      else s.bankServe n p
    else if s.flag (MEM_BANK_OWN_STEAL n b) then
      if 8 ≤ ((s.region n).mem.steals.get [] b).length then
        ((s.raise (MEM_STATUS_STEALFULL n)).answerOwner n).respond n p 5 [] 0
      else s.modMem n fun m => { m with steals := m.steals.put [] b (m.steals.get [] b ++ [p]) }
    else (s.answerOwner n).respond n p 5 [] 0

/-! ### Ownership (R191 to R195, R199) -/

/-- A refused write of MEM_BANK_OWNb (R195, R209). -/
def State.refuseOwn (s : State) (n b reason : Nat) : State :=
  { ((s.raise (MEM_STATUS_REFUSED n)).logEv 0x0702 1 0xA (unitRegion n) (b + reason * 2 ^ 6)) with rsp := ⟨0xA, 0⟩ }

/-- Unserved window requests of engine `e` at bank `b`. -/
def State.unservedAt (s : State) (n e b : Nat) : Nat :=
  (((s.region n).engs.get {} e).outst.filter fun r => r.rsp.isNone && r.bank == b).length

/-- STEAL takes a value; clearing it answers every queued request OWNER (R199). -/
def State.setSteal (s : State) (n b v : Nat) : State :=
  let s := s.wr (MEM_BANK_OWN_STEAL n b) v
  if v = 0 then
    let q := (s.region n).mem.steals.get [] b
    let s := s.modMem n fun m => { m with steals := m.steals.del b }
    q.foldl (fun s p => (s.answerOwner n).respond n p 5 [] 0) s
  else s

/-- A write of MEM_BANK_OWNb by the placement engine or by another writer. -/
def State.writeOwn (s : State) (plc : Bool) (n b v : Nat) : State :=
  let owner := bitsOf v 2 0
  let eng := bitsOf v 8 4
  let o := s.rd (MEM_BANK_OWN_OWNER n b)
  let e := s.rd (MEM_BANK_OWN_ENG n b)
  let change := decide (owner ≠ o ∨ eng ≠ e)
  if change && s.flag (MEM_BANK_OWN_BUSY n b) then s.refuseOwn n b 1
  else if 5 ≤ owner ∨ (owner = 2 ∧ 24 < eng) then s.refuseOwn n b 3
  else if change && s.flag (MEM_BANK_OWN_PLC n b) && !plc then s.refuseOwn n b 2
  else
    let s := s.setSteal n b (bitsOf v 11 11)
    let s := if change then
        let left := if o = 2 then s.unservedAt n e b else 0
        let s := ((s.wr (MEM_BANK_OWN_OWNER n b) owner).wr (MEM_BANK_OWN_ENG n b) eng).wr (MEM_BANK_OWN_BUSY n b) 1
        (s.count (MEM_CNT_HO_HANDOVERS n)).modMem n fun m => { m with handovers := m.handovers.set b ⟨o, e, s.cyc, left⟩ }
      else s
    { s with rsp := ⟨0, 0⟩ }

/-- Step 4 of R193: BUSY clears and the held requests of the new owner are served, oldest first. -/
def State.endHandover (s : State) (n b : Nat) : State :=
  match (s.region n).mem.handovers.find? (fun h => h.1 == b) with
  | none => s
  | some (_, h) =>
    if 0 < h.left then s
    else
      let s := s.wr (MEM_BANK_OWN_BUSY n b) 0
      let s := if s.flag (MEM_CTRL_LOGHO n) then
          s.logEv 0x0701 0 0 (unitRegion n)
            (b + h.oldOwner * 2 ^ 6 + h.oldEng * 2 ^ 9 + s.rd (MEM_BANK_OWN_OWNER n b) * 2 ^ 14 +
              s.rd (MEM_BANK_OWN_ENG n b) * 2 ^ 17 + min ((s.cyc - h.start) / 2) 65535 * 2 ^ 32)
        else s
      let held := (s.region n).mem.netHeld.get [] b
      let s := s.modMem n fun m => { m with handovers := m.handovers.del b, netHeld := m.netHeld.del b }
      held.foldl (fun s p => s.bankServe n p) s

/-! ### Row and bank copies (R206 to R208) -/

/-- The word a copy writes: corrected, or poisoned (R206, R207). -/
def copiedWord (d : Line) (syn : Nat) : Line × Nat :=
  if syn = 0 then (d, 0)
  else
    let (x, bad, _) := v144Read d syn
    (x, if bad then 0xFFFF else 0)

/-- Spare row `k` of physical bank `p` serves row `row` (R206). -/
def State.useRow (s : State) (n p row k : Nat) : State :=
  let s := s.modMem n fun m => { m with
    rowMap := m.rowMap.set (p * 1024 + row) (k + 1), rowUsed := m.rowUsed.set p (setBit (m.rowUsed.get 0 p) k) }
  (s.wr (MEM_ROWUSE_USED n p) (s.rd (MEM_ROWUSE_USED n p) + 1)).wr (MEM_ROWUSE_LASTROW n p) row

/-- The first free spare row of a physical bank. -/
def Region.freeSpareRow (r : Region) (p : Nat) : Nat :=
  ((List.range 16).find? fun k => !bitOf (r.mem.rowUsed.get 0 p) k).getD 0

/-- The oldest waiting row copy has copied its last word: the remap takes effect. -/
def State.remapRow (s : State) (n : Nat) : State :=
  match (s.region n).mem.rowQueue with
  | [] => s
  | (p, row) :: rest =>
    let s := s.modMem n fun m => { m with rowQueue := rest }
    let used := s.rd (MEM_ROWUSE_USED n p)
    let k := (s.region n).freeSpareRow p
    if 16 ≤ used then s
    else
      let s := (List.range 16).foldl (fun s i =>
        let a := bankWord n p ((s.region n).bankRow p (row * 16 + i))
        let c := copiedWord (s.lineAt a) (s.bankSyn.get 0 a)
        s.setLineAt (bankWord n p (16384 + k * 16 + i)) c.1 c.2) s
      let inRow (i : Nat) : Bool := (s.region n).rowOf p i == some row
      let s := s.modEcc n fun e => { e with
        table := e.table.filter fun x => !(x.2.mem == 0 && x.2.unit == p && inRow x.2.word)
        wbs := e.wbs.filter fun x => !(x.mem == 0 && x.unit == p && inRow x.word) }
      let s := s.useRow n p row k
      (s.logEv 0x0704 1 0 (unitId n 3 p) (row + k * 2 ^ 10 + (15 - used) * 2 ^ 16)).journal
        (unitId n 3 p) 3 (row + k * 2 ^ 10)

/-- The words of physical bank `p` that are not zero and valid: those a copy has to write. -/
def State.bankWordsOf (s : State) (n p : Nat) : List Nat :=
  let lo := bankWord n p 0
  let inBank (a : Nat) : Bool := decide (lo ≤ a) && decide (a < lo + 16640)
  let ws := ((s.bankMem.filter fun c => inBank (c.1 / 16)).map fun c => c.1 / 16 - lo) ++
    ((s.bankSyn.filter fun c => inBank c.1).map fun c => c.1 - lo)
  ws.eraseDups

/-- Every word of a physical bank is zero with a valid code. -/
def State.clearBank (s : State) (n p : Nat) : State :=
  let lo := bankWord n p 0
  let inBank (a : Nat) : Bool := decide (lo ≤ a) && decide (a < lo + 16640)
  { s with
    bankMem := s.bankMem.filter fun c => !inBank (c.1 / 16)
    bankSyn := s.bankSyn.filter fun c => !inBank c.1 }

/-- The bank copy has copied its last word: every word of the source stands in the destination, which now mirrors. -/
def State.bankCopied (s : State) (n : Nat) : State :=
  let src := s.rd (MEM_COPY_SRC n)
  let dst := s.rd (MEM_COPY_DST n)
  let words := s.bankWordsOf n src
  let s := s.clearBank n dst
  let s := words.foldl (fun s i =>
    match (s.region n).rowOf src i with
    | none => s
    | some row =>
      let w := row * 16 + i % 16
      if (s.region n).bankRow src w = i then
        let a := bankWord n src i
        let (d, syn) := copiedWord (s.lineAt a) (s.bankSyn.get 0 a)
        s.setLineAt (bankWord n dst ((s.region n).bankRow dst w)) d syn
      else s) s
  (s.wr (MEM_COPY_STATE n) 2).wr (MEM_COPY_WORDS n) 16384

/-- A bank copy that waited starts, where a spare is free for it (R207, R208). -/
def State.nextBankCopy (s : State) (n : Nat) : State :=
  match (s.region n).mem.copyQueue with
  | [] => s
  | (b, reason, dst) :: rest =>
    let s := s.modMem n fun m => { m with copyQueue := rest }
    if reason = 3 then s.startBankCopy n b 3 dst
    else match s.freeSpareBank n with
    | some d => s.startBankCopy n b reason d
    | none =>
      if reason = 1 then
        ((s.wr (MEM_BANK_OWN_PHYS n b) 63).degrade).journal (unitId n 3 (s.rd (MEM_BANK_OWN_PHYS n b))) 2 0
      else s

/-- Step 4 of R207 at a MIGRATE point: PHYS switches, mirroring stops. -/
def State.switchBank (s : State) (n : Nat) : State :=
  if s.rd (MEM_COPY_STATE n) ≠ 2 then s
  else
    let m := (s.region n).mem
    let b := m.copyBank
    let src := s.rd (MEM_COPY_SRC n)
    let dst := s.rd (MEM_COPY_DST n)
    let s := (s.wr (MEM_BANK_OWN_PHYS n b) dst).wr (MEM_COPY_STATE n) 0
    let s := s.logEv 0x0705 1 0 (unitId n 3 src) (b + src * 2 ^ 6 + dst * 2 ^ 12 + m.copyReason * 2 ^ 18)
    let s := if m.copyReason = 1 then s.journal (unitId n 3 src) 1 (unitId n 3 dst) else s
    let s := s.modMem n fun m => { m with
      spareUse := if src < 48 then m.spareUse
        else m.spareUse.set src (if m.copyReason = 1 then 3 else if m.copyReason = 3 then 0 else m.spareUse.get 0 src) }
    s.nextBankCopy n

end Sys2Proof.Machine
end

