-- ==== Sys2Proof/Machine/Banks.lean ====
section
/-! DEFINITION. The memory-tier banks (07): ownership writes, handovers, the operations of a bank, stealing, row and
bank copies. -/

namespace Sys2Proof.Machine

/-- R192 to R195: a write of MEM_BANK_OWNb by firmware or the host. -/
def execOwnershipWrite (_ : Accessor) (n : Fin 64) (b : Fin 48) (v : Word) (s : State) :
    Host.Outcome State Fault Refusal := .next (s.writeOwn false n b v.toNat)

/-- R193 step 4. -/
def execHandoverEnd (n : Fin 64) (b : Fin 48) (s : State) : Host.Outcome State Fault Refusal :=
  .next (s.endHandover n b)

/-- A response is put at bank port `b` (05 R159). -/
def State.portResponse (s : State) (n b : Nat) (r : PortRsp) : State :=
  s.modFab n fun f => { f with ports := f.ports.put [] b (f.ports.get [] b ++ [r]) }

/-- The fabric's request at bank port `b`: not taken outside ACTIVE, with 16 outstanding, or while a handover to the
fabric runs (R159, R191, R193). -/
def State.fabricRequest (s : State) (n b : Nat) (op : BankOp) (w mask : Nat) (d : Line) : State :=
  let o := s.rd (MEM_BANK_OWN_OWNER n b)
  if (s.region n).state ≠ .active ∨ 48 ≤ b ∨ 16 ≤ ((s.region n).fab.ports.get [] b).length then s
  else if o ≠ 1 then (s.answerOwner n).portResponse n b { data := 0#128, status := 5, poison := false }
  else if s.flag (MEM_BANK_OWN_BUSY n b) then s
  else
    let (a, s) := s.bankAccess n b op w mask d false
    s.portResponse n b { data := a.data, status := a.status, poison := a.poison }

/-- The oldest window request of an engine that no bank has answered yet. -/
def Engine.nextWin (g : Engine) : Option WinReq := g.outst.find? fun r => r.rsp.isNone

/-- Answers it. -/
def Engine.answerWin (g : Engine) (a : WinRsp) : Engine :=
  let rec go : List WinReq → List WinReq
    | [] => []
    | r :: t => if r.rsp.isNone then { r with rsp := some a } :: t else r :: go t
  { g with outst := go g.outst }

/-- Whether a window request is the operation a bank command names. -/
def WinReq.isOp (r : WinReq) (op : BankOp) (full : Bool) : Bool :=
  r.op == op && (op != .write || (r.mask == 0xFFFF) == full)

/-- An engine's oldest request at bank `b`: as owner, or as one of the old owner's outstanding requests; held while a
handover to it runs (R191, R193). -/
def State.engineRequest (s : State) (n b e : Nat) (op : BankOp) (full : Bool) : State :=
  match ((s.region n).engs.get {} e).nextWin with
  | none => s
  | some r =>
    if r.bank ≠ b ∨ !r.isOp op full then s
    else
      let put (s : State) (a : WinRsp) : State := s.modRegion n fun g => { g with
        engs := g.engs.set e ((g.engs.get {} e).answerWin a) }
      if 48 ≤ b then put s ⟨4, 0#128, false⟩
      else
        let busy := s.flag (MEM_BANK_OWN_BUSY n b)
        let mine := s.rd (MEM_BANK_OWN_OWNER n b) == 2 && s.rd (MEM_BANK_OWN_ENG n b) == e
        let old := match (s.region n).mem.handovers.find? (fun h => h.1 == b) with
          | some (_, h) => busy && h.oldOwner == 2 && h.oldEng == e && decide (0 < h.left)
          | none => false
        if old || (mine && !busy) then
          let (a, s) := s.bankAccess n b op r.word r.mask r.data r.poison
          let s := if old then s.modMem n fun m => { m with
              handovers := m.handovers.map fun h => if h.1 = b then (b, { h.2 with left := h.2.left - 1 }) else h }
            else s
          put s ⟨a.status, a.data, a.poison⟩
        else if mine then s
        else put (s.answerOwner n) ⟨5, 0#128, false⟩

/-- The oldest request of bank `b`'s steal queue, while STEAL = 1 (R197). -/
def State.stealRequest (s : State) (n b : Nat) (op : BankOp) (full : Bool) : State :=
  match (s.region n).mem.steals.get [] b with
  | [] => s
  | p :: rest =>
    let isOp := match opcBank p.opc with
      | some (o, _) => o == op && (op != .write || (p.opc != 0x05 || p.be == 0xFFFF) == full)
      | none => false
    if !isOp || !s.flag (MEM_BANK_OWN_STEAL n b) then s
    else
      let s := s.modMem n fun m => { m with steals := m.steals.put [] b rest }
      (s.count (MEM_CNT_STEAL_COUNT n)).bankServe n p

/-- A bank takes the next request of a requester (R196). -/
def State.bankCommand (s : State) (n b : Nat) (op : BankOp) (full : Bool) (q : BankReq) : State :=
  -- a closed gate makes the access wait (19 R560)
  if s.gateOf (unitId n 3 (s.rd (MEM_BANK_OWN_PHYS n b))) = 2 then s
  else match q with
  | .fabric w m d => s.fabricRequest n b op w (if op = .write ∧ full then 0xFFFF else m.toNat) d
  | .engine e => s.engineRequest n b e op full
  | .steal => s.stealRequest n b op full

/-- R200, R391, R395. -/
def execBankRead (n b : Fin 64) (q : BankReq) (s : State) : Host.Outcome State Fault Refusal :=
  .next (s.bankCommand n b .read true q)

/-- R200, R393. -/
def execBankWrite (n b : Fin 64) (q : BankReq) (s : State) : Host.Outcome State Fault Refusal :=
  .next (s.bankCommand n b .write true q)

/-- R393; all 16 enables set are a full write. -/
def execBankMaskedWrite (n b : Fin 64) (q : BankReq) (s : State) : Host.Outcome State Fault Refusal :=
  .next (s.bankCommand n b .write false q)

/-- R202, R203. -/
def execBankAdd32 (n b : Fin 64) (q : BankReq) (s : State) : Host.Outcome State Fault Refusal :=
  .next (s.bankCommand n b .add32 true q)

/-- R202, R203. -/
def execBankAdd64 (n b : Fin 64) (q : BankReq) (s : State) : Host.Outcome State Fault Refusal :=
  .next (s.bankCommand n b .add64 true q)

/-- R202, R203. -/
def execBankSwap64 (n b : Fin 64) (q : BankReq) (s : State) : Host.Outcome State Fault Refusal :=
  .next (s.bankCommand n b .swap64 true q)

/-- R197, R209: the oldest queued stealing request reaches STEALMAX. -/
def execStealTimeout (n : Fin 64) (b : Fin 48) (s : State) : Host.Outcome State Fault Refusal :=
  match (s.region n).mem.steals.get [] b with
  | [] => .next s
  | p :: rest =>
    let s := s.modMem n fun m => { m with steals := m.steals.put [] b rest }
    let s := (s.bump (MEM_CNT_HO_STEALTO n)).raise (MEM_STATUS_STEALTO n)
    let s := s.logEvLimited (unitRegion n) 0x0703 1 5 (unitRegion n) b
    .next ((s.answerOwner n).respond n p 5 [] 0)

/-- R206. -/
def execRowRemapDone (n : Fin 64) (s : State) : Host.Outcome State Fault Refusal := .next (s.remapRow n)

/-- R207 step 3. -/
def execBankCopyDone (n : Fin 64) (s : State) : Host.Outcome State Fault Refusal :=
  .next (if s.rd (MEM_COPY_STATE n) = 1 then s.bankCopied n else s)

end Sys2Proof.Machine
end

