-- ==== Sys2Proof/Machine/Events.lean ====
section
/-! DEFINITION. The position event table (04): the matcher's crossings, hand-over and outcomes, event outputs, the
interrupt FIFO and changes of the table in RUN. -/

namespace Sys2Proof.Machine

/-- The direction of travel is one an entry's DIRQ allows (R110). -/
def dirAllowed (e : BitVec 256) (rev : Bool) : Bool :=
  eDirq e == 2 || (if rev then eDirq e == 1 else eDirq e == 0)

/-- The sub-cycle offset of R124 for a crossing at `x`. -/
def State.subCycle (s : State) (x : Int) : Nat :=
  let d := s.tb.pm - s.tb.pmPrev
  if s.tb.cold || decide (d = 0) then 0
  else
    let n := 12 * (x - s.tb.pmPrev)
    -- both are negated in reverse, so that the divisor is positive
    let r := if 0 < d then roundDiv n d else roundDiv (-n) (-d)
    (clampInt 0 12 r).toNat

/-- More than 1,024 grid points lie nearer than `x`: the entry was still in the table when the track reached it
(R113, R115). -/
def State.overrun (s : State) (k : Nat) (t0 x : Int) (rev : Bool) : Bool :=
  decide (1024 < s.evt.judged.length) &&
  decide (1024 ≤ (s.evt.judged.filter fun (j : Nat × Int) =>
    j.1 != k && dirAllowed (s.entry j.1) rev &&
    match gridNext (s.entry j.1) t0 rev with
    | some y => if rev then decide (x < y) else decide (y < x)
    | none => false).length)

/-- `a` goes before `b` in crossing order (R121). -/
def occBefore (a b : Occ) : Bool :=
  decide (a.cyc < b.cyc) || (a.cyc == b.cyc &&
    (if a.x = b.x then decide (a.entry < b.entry) else if a.rev then decide (b.x < a.x) else decide (a.x < b.x)))

/-- Inserts an occurrence into the pending list in crossing order. -/
def insertOcc (o : Occ) : List Occ → List Occ
  | [] => [o]
  | p :: t => if occBefore o p then o :: p :: t else p :: insertOcc o t

/-- An occurrence stays pending, or closes MISSED with reason PENDFULL (R120). A DVFS request sets out to Kettle. -/
def State.makePending (s : State) (o : Occ) (why : Nat) : State :=
  if 256 ≤ s.evt.pend.length then
    (s.raise EVT_STATUS_PENDFULL).closeOcc o.entry o.x 1 (.missed 8)
  else
    let e := s.entry o.entry
    let req : List Action := if eAction e = 4 then
        [⟨o.entry, 4, eTarget e, eParam e, stampOf o.x, o.sub, s.cyc, false, some o.id⟩] else []
    s.modEvt fun t => { t with
      pend := insertOcc { o with why := why } t.pend
      inflight := t.inflight ++ req
      nextId := t.nextId + 1 }

/-- What the matcher does with an occurrence: MISSED at once, pending or handed over (R118, R119, R121). -/
def State.newOcc (s : State) (o : Occ) : State :=
  let e := s.entry o.entry
  let act := eAction e
  let tgt := eTarget e
  if s.missedAtOnce o.entry then s.closeOcc o.entry o.x 1 (.missed 1)
  else match s.pendWhy o.entry with
  | some w =>
    let s := if act = 11 then s.raise EVT_STATUS_IRQFULL else s
    s.makePending o (if o.why = 13 then 13 else w)
  | none =>
    let waiting := s.evt.pend.any fun p => p.why == 12 &&
      (if act < 3 then eAction (s.entry p.entry) < 3 && eTarget (s.entry p.entry) % 32 == tgt % 32
       else 3 ≤ eAction (s.entry p.entry))
    if waiting || !s.handRoom act tgt then
      (s.raise EVT_STATUS_CARRY).makePending o (if o.why = 13 then 13 else 12)
    else s.handOver o

/-- The track has passed x ± TOL (R118). -/
def State.tolPassed (s : State) (o : Occ) : Bool :=
  let tol := eTol (s.entry o.entry)
  if o.rev then decide (s.tb.mtrack < o.x - tol) else decide (o.x + tol < s.tb.mtrack)

/-- Marks entry `k` judged up to the present matcher track. -/
def State.markJudged (s : State) (k : Nat) : State :=
  s.modEvt fun t => { t with judged := t.judged.set k s.tb.mtrack }

/-- The crossed points of entry `k` since it was last judged: how many, the first and the last in travel order, and
whether travel is in reverse. -/
def State.crossed (s : State) (k : Nat) : Option (Nat × Int × Int × Bool × Int) :=
  match s.evt.judged.find? (fun p => p.1 == k) with
  | none => none
  | some (_, t0) =>
    let t1 := s.tb.mtrack
    let e := s.entry k
    let rev := decide (t1 < t0)
    if !eEn e || !dirAllowed e rev then none
    else match (if rev then gridIn e t1 t0 else gridIn e t0 t1) with
    | none => none
    | some (n, lo, hi) => some (n, if rev then hi else lo, if rev then lo else hi, rev, t0)

/-- R110 to R112, R115, R118, R122: entry `k`'s points that the track has crossed. -/
def execMatcherCrossing (k : Fin 32768) (s : State) : Host.Outcome State Fault Refusal :=
  if !s.evt.running then .next s
  else match s.crossed k with
  | none =>
    .next (if (s.evt.judged.find? (fun p => p.1 == k.val)).isSome then s.markJudged k else s)
  | some (n, first, last, rev, t0) =>
    let e := s.entry k
    -- a ONCE entry makes one occurrence only, also while that one is pending (R112)
    if eOnce e && s.evt.pend.any (fun p => p.entry == k.val) then .next (s.markJudged k)
    else if s.krl.hold then
      .next ((s.markJudged k).closeOcc k first (if eOnce e then 1 else n) (.missed 4))
    else
      let passed := s.overrun k t0 first rev
      let s := s.markJudged k
      let s := if n ≤ 1 || eOnce e then s else s.closeOcc k first (n - 1) (.missed 7)
      let o : Occ := ⟨s.evt.nextId, k, last, rev, s.cyc, s.subCycle last, 0, false⟩
      if passed then
        let s := (s.raise EVT_STATUS_OVERRUN).logEv 0x0404 1 0 (unitBase 0x40) n
        let o := { o with cyc := s.cyc - 5, why := 13 }
        if s.tolPassed o then .next (s.closeOcc k last 1 (.missed 9))
        else .next (s.newOcc o)
      else .next (s.newOcc o)

/-- A pending occurrence can be handed over now. -/
def State.canHand (s : State) (o : Occ) : Bool :=
  let e := s.entry o.entry
  !s.missedAtOnce o.entry && (s.pendWhy o.entry).isNone &&
    s.handRoom (eAction e) (eTarget e)

/-- R118, R121: the first pending occurrence, in crossing order, that can be handed over. -/
def execOccurrenceHandover (s : State) : Host.Outcome State Fault Refusal :=
  if !s.evt.running then .next s
  else match s.evt.pend.find? s.canHand with
  | none => .next s
  | some o => .next ((s.dropPend o).handOver o)

/-- R118: the first pending occurrence that closes MISSED by tolerance, or by its target's state (R119). -/
def execOccurrenceMissed (s : State) : Host.Outcome State Fault Refusal :=
  let gone (o : Occ) : Bool := s.missedAtOnce o.entry
  match s.evt.pend.find? (fun o => gone o || (s.tolPassed o && decide (o.cyc + 5 ≤ s.cyc))) with
  | none => .next s
  | some o => .next (s.missPend (if gone o then 1 else if o.why = 13 then 9 else 2) o)

/-! ### Event outputs -/

/-- Inserts an edge by time; at one time an active edge goes before an inactive one (R123). -/
def insertEdge (x : EvoEdge) : List EvoEdge → List EvoEdge
  | [] => [x]
  | y :: t =>
    if x.time < y.time || (x.time == y.time && x.level && !y.level) then x :: y :: t
    else y :: insertEdge x t

/-- When an action's edge reaches its land, in steps of 55.6 ps (R124). -/
def State.edgeTime (s : State) (o : Nat) (a : Action) : Nat :=
  (a.cyc - 1) * 12 + a.sub + 96 + s.rd (EVT_EVO_CFG_TRIM o)

/-- A PULSE at `t`: it extends the present pulse or takes two places (R123, R125). -/
def Evo.pulse (e : Evo) (t w : Nat) : Evo :=
  match (e.edges.filter (fun x => x.pulseEnd)).getLast? with
  | some pe =>
    if t ≤ pe.time + 90 then
      { e with edges := insertEdge { pe with time := max pe.time (t + w) } (e.edges.erase pe) }
    else { e with edges := insertEdge ⟨t + w, false, true⟩ (insertEdge ⟨t, true, false⟩ e.edges) }
  | none => { e with edges := insertEdge ⟨t + w, false, true⟩ (insertEdge ⟨t, true, false⟩ e.edges) }

/-- A SET or CLEAR at `t`: pulse ends from then on are cancelled (R123). -/
def Evo.drive (e : Evo) (t : Nat) (lvl : Bool) : Evo :=
  { e with edges := insertEdge ⟨t, lvl, false⟩ (e.edges.filter (fun x => !(x.pulseEnd && decide (t ≤ x.time)))) }

/-- Changes output `o`. -/
def State.modEvo (s : State) (o : Nat) (f : Evo → Evo) : State :=
  s.modEvt fun t => { t with evos := t.evos.set o (f (t.evos.get {} o)) }

/-- Takes output `o`'s oldest action of a code. -/
def State.takeEvo (s : State) (code o : Nat) : Option (Action × State) :=
  s.takeAction fun a => a.code == code && a.target % 32 == o

/-- R123: PULSE. -/
def execPulse (o : Fin 32) (s : State) : Host.Outcome State Fault Refusal :=
  match s.takeEvo 0 o with
  | none => .next s
  | some (a, s) => .next (s.modEvo o fun e => e.pulse (s.edgeTime o a) a.param)

/-- R123: SET. -/
def execSet (o : Fin 32) (s : State) : Host.Outcome State Fault Refusal :=
  match s.takeEvo 1 o with
  | none => .next s
  | some (a, s) => .next (s.modEvo o fun e => e.drive (s.edgeTime o a) true)

/-- R123: CLEAR. -/
def execClear (o : Fin 32) (s : State) : Host.Outcome State Fault Refusal :=
  match s.takeEvo 2 o with
  | none => .next s
  | some (a, s) => .next (s.modEvo o fun e => e.drive (s.edgeTime o a) false)

/-- R125: the first queued edge reaches its land; held while the owner is in TEST (R127). -/
def execEvoEdge (o : Fin 32) (s : State) : Host.Outcome State Fault Refusal :=
  let owner := s.evoOwner o
  if owner < 64 ∧ (s.region owner).state = .test then .next s
  else .next (s.modEvo o fun e =>
    match e.edges with
    | [] => e
    | x :: t => { level := x.level, edges := t })

/-! ### Interrupt FIFO -/

/-- R128: an interrupt record enters the FIFO. -/
def execIrq (s : State) : Host.Outcome State Fault Refusal :=
  match s.takeAction (fun a => a.code == 11) with
  | none => .next s
  | some (a, s) => .next (s.modEvt fun t => { t with irq := t.irq ++ [⟨a.entry, a.param, a.stamp, a.late⟩] })

/-- The supervisor's event interrupt is asserted (R128). -/
def State.evtIrqLine (s : State) : Bool :=
  decide (s.rd EVT_CTRL_IRQLVL ≤ s.evt.irq.length ∧ s.evt.irq ≠ []) || s.flag EVT_STATUS_MISSIRQ

/-- A read of EVT_IRQ_POP. -/
def State.popIrq (s : State) : State :=
  match s.evt.irq with
  | [] => { s with rsp := ⟨0, 0⟩ }
  | r :: t =>
    { (s.modEvt fun e => { e with irq := t, irqCopy := r }) with
      rsp := ⟨0, 2 ^ 31 + b2n r.late * 2 ^ 30 + r.entry⟩ }

/-- R128. -/
def execEvtIrqPop (_ : Accessor) (s : State) : Host.Outcome State Fault Refusal := .next s.popIrq

/-! ### Changing the table -/

/-- Entry with word `w` replaced. -/
def eWithWord (e : BitVec 256) (w : Nat) (v : Nat) : BitVec 256 :=
  BitVec.ofNat 256 (setBits e.toNat (32 * w + 31) (32 * w) v)

/-- ACTION, TARGET and PARAM are in the ranges of R116. -/
def actionOk (act tgt par : Nat) : Bool :=
  match act with
  | 0 => decide (tgt < 32 ∧ 90 ≤ par)
  | 1 | 2 => decide (tgt < 32 ∧ par = 0)
  | 3 => decide (tgt < 64 ∧ par < 8)
  | 4 => decide (tgt < 64 ∧ par / 256 < 3 ∧ par % 256 < 4)
  | 5 => decide (tgt < 256)
  | 6 => decide (tgt < 2 ^ 17)
  | 7 => decide ((tgt < 64 ∨ tgt = 0x800000) ∧ par < 8)
  | 8 => decide (tgt < 64 ∧ 64 ≤ par ∧ par ≤ 4096)
  | 9 => decide (tgt < 64 ∧ par < 256)
  | 10 => decide (tgt < 2 ^ 11 ∧ tgt % 256 < 64)
  | 11 => decide (tgt = 0)
  | _ => false

/-- The checks of R109 and R116 on an entry. -/
def entryOk (e : BitVec 256) : Bool :=
  (ePeriod e == 0 || decide (2 ^ 44 ≤ ePeriod e)) && eDirq e != 3 && actionOk (eAction e) (eTarget e) (eParam e)

/-- A refused table write (R129, R133). -/
def State.refuseEntry (s : State) (k : Nat) : State :=
  let e := s.entry k
  (s.raise EVT_STATUS_REFUSED).logEv 0x0405 1 0xA (s.actionUnit (eAction e) (eTarget e)) (k * 2 ^ 32)

/-- A write of one word of entry `k` as the state stands (R129 to R131). -/
def State.writeEntry (s : State) (k w v : Nat) : State :=
  let e := s.entry k
  let e' := eWithWord e w v
  if w < 7 then
    if eEn e then s.refuseEntry k else s.setEntry k e'
  else if eEn e' then
    if eEn e || !entryOk e' then s.refuseEntry k
    else
      let s := s.setEntry k e'
      if s.evt.running then s.markJudged k else s
  else
    -- EN = 0: taken in full; an enabled entry is withdrawn
    let s := if eEn e then s.missAll 5 (fun o => o.entry == k) else s
    (s.setEntry k e').modEvt fun t => { t with judged := t.judged.del k }

/-- R129: words 0 to 6. -/
def execEntryWrite (_ : Accessor) (k : Fin 32768) (w : Fin 8) (v : Word) (s : State) :
    Host.Outcome State Fault Refusal := .next (s.writeEntry k w v.toNat)

/-- R129: a write of word 7 with EN = 0 withdraws the entry. -/
def execEntryWithdraw (_ : Accessor) (k : Fin 32768) (v : Word) (s : State) :
    Host.Outcome State Fault Refusal := .next (s.writeEntry k 7 (clearBit v.toNat 16))

/-- R130: a write of word 7 with EN = 1 enables the entry or is refused. -/
def execEntryEnable (_ : Accessor) (k : Fin 32768) (v : Word) (s : State) :
    Host.Outcome State Fault Refusal := .next (s.writeEntry k 7 (setBit v.toNat 16))

/-- The matcher starts at the output step: every enabled entry enters the window (R107, R114). -/
def State.startMatcher (s : State) : State :=
  s.modEvt fun t => { t with
    running := true
    judged := (t.entries.filter (fun e => eEn e.2)).map (fun e => (e.1, s.tb.mtrack)) }

end Sys2Proof.Machine
end

