-- ==== Sys2Proof/Machine/Flags.lean ====
section
/-! DEFINITION. The engine's arithmetic on 56-bit accumulators: product, rounding, saturation, transfers and every flag
group (08 R217 to R220, 09 R256, R257). Accumulators are numbers below 2^56. -/

namespace Sys2Proof.Machine

/-- An accumulator as the signed integer it holds. -/
def acc56 (a : Nat) : Int := signedOf 56 a

/-- A signed integer modulo 2^56. -/
def to56 (i : Int) : Nat := unsignedOf 56 i

/-- The product of two 24-bit registers, shifted left by one bit (R217). -/
def prod24 (a b : Nat) : Int := signedOf 24 a * signedOf 24 b * 2

/-- val of a 24-bit register (R254). -/
def val24 (a : Nat) : Int := signedOf 24 a * 2 ^ 24

/-- The true result lies outside the 56-bit range (R218). -/
def out56 (i : Int) : Bool := decide (i < -(2 ^ 55)) || decide (2 ^ 55 ≤ i)

/-- Convergent rounding (R219), and whether it wraps the result past 2^55 − 1. -/
def round56 (a : Nat) : Nat × Bool :=
  let h := a / 2 ^ 24 % 2 ^ 32
  let l := a % 2 ^ 24
  let h' := if 0x800000 < l ∨ (l = 0x800000 ∧ h % 2 = 1) then h + 1 else h
  (h' % 2 ^ 32 * 2 ^ 24, decide (h < 2 ^ 31) && decide (2 ^ 31 ≤ h'))

/-- G: An[55:47] are not all equal. -/
def guard56 (a : Nat) : Bool :=
  let t := a / 2 ^ 47 % 2 ^ 9
  t != 0 && t != 2 ^ 9 - 1

/-- Saturation to one integer bit (R218): the value, and whether it was replaced. -/
def sat56 (a : Nat) : Nat × Bool :=
  if guard56 a then (if bitOf a 55 then to56 (-(2 ^ 47)) else 2 ^ 47 - 1, true) else (a, false)

/-- A 24-bit transfer (R220): the word, and whether it saturated. -/
def transfer24 (a : Nat) (rnd s : Bool) : Nat × Bool :=
  let a := if rnd then (round56 a).1 else a
  if s && guard56 a then (if bitOf a 55 then 0x800000 else 0x7FFFFF, true) else (bitsOf a 47 24, false)

/-- An accumulator that holds a loaded word: AnH = word, AnL = 0, AnG its sign (R260). -/
def wordToAcc (w : Nat) : Nat := to56 (val24 w)

/-- What an arithmetic operation writes to SW: the bits it sets, their values, and SAT. -/
structure FlagOut where
  mask : Nat
  val : Nat
  sat : Bool := false
deriving DecidableEq, Repr

/-- A result: the accumulator and the flags that go with it. -/
structure AccOut where
  acc : Nat
  flags : FlagOut
deriving DecidableEq, Repr

/-- The bits of SW (R216). -/
def swG : Nat := 4
def swN : Nat := 3
def swZ : Nat := 2
def swV : Nat := 1
def swC : Nat := 0

/-- Flags as a field of SW. -/
def packFlags (g n z v c : Bool) : Nat := b2n g * 16 + b2n n * 8 + b2n z * 4 + b2n v * 2 + b2n c

/-- Steps 2 and 3 of R256: the final value, whether step 2 wrapped, whether step 3 replaced it. -/
def finish56 (a : Nat) (rnd s : Bool) : Nat × Bool × Bool :=
  let (a, w) := if rnd then round56 a else (a, false)
  let (a, t) := if s then sat56 a else (a, false)
  (a, w, t)

/-- Group P (R257). -/
def groupP (i : Int) (rnd s : Bool) : AccOut :=
  let (a, _, t) := finish56 (to56 i) rnd s
  ⟨a, ⟨0x1F, packFlags (guard56 a) (bitOf a 55) (a == 0) false false, t⟩⟩

/-- Group A: the exact result and its carry or borrow (R257). -/
def groupA (i : Int) (carry : Bool) (rnd s : Bool) : AccOut :=
  let (a, _, t) := finish56 (to56 i) rnd s
  ⟨a, ⟨0x1F, packFlags (guard56 a) (bitOf a 55) (a == 0) (out56 i) carry, t⟩⟩

/-- Group T: C unchanged (R257). -/
def groupT (a : Nat) (rnd s : Bool) : AccOut :=
  let (a, w, t) := finish56 a rnd s
  ⟨a, ⟨0x1E, packFlags (guard56 a) (bitOf a 55) (a == 0) w false, t⟩⟩

/-- Ad + x, with the carry out of bit 55. -/
def accAdd (a : Nat) (x : Int) (rnd s : Bool) : AccOut :=
  groupA (acc56 a + x) (decide (2 ^ 56 ≤ a + to56 x)) rnd s

/-- Ad − x, with the borrow. -/
def accSub (a : Nat) (x : Int) (rnd s : Bool) : AccOut :=
  groupA (acc56 a - x) (decide (a < to56 x)) rnd s

/-- ASL by `k` (R255, R257). -/
def accAsl (a k : Nat) (rnd s : Bool) : AccOut :=
  let i := acc56 a * 2 ^ k
  let (r, _, t) := finish56 (to56 i) rnd s
  ⟨r, ⟨0x1F, packFlags (guard56 r) (bitOf r 55) (r == 0) (out56 i) (bitOf a (56 - k)), t⟩⟩

/-- ASR by `k`, towards minus infinity (R255, R257). -/
def accAsr (a k : Nat) (rnd s : Bool) : AccOut :=
  let (r, _, t) := finish56 (to56 (acc56 a / 2 ^ k)) rnd s
  ⟨r, ⟨0x1F, packFlags (guard56 r) (bitOf r 55) (r == 0) false (bitOf a (k - 1)), t⟩⟩

/-- Group BW: AdH replaced; N is bit 47, Z of AdH, V 0 (R255, R257). -/
def accBits (a h : Nat) : AccOut :=
  ⟨setBits a 47 24 h, ⟨0x0E, packFlags false (bitOf h 23) (h % 2 ^ 24 == 0) false false, false⟩⟩

/-- A dual operation: N, Z, G and C from A0, V from either, SAT from either (R257). -/
def dualFlags (x y : AccOut) : FlagOut :=
  ⟨0x1F, setBits x.flags.val 1 1 (b2n (bitOf x.flags.val 1 || bitOf y.flags.val 1)), x.flags.sat || y.flags.sat⟩

/-- COND of R270 on SW. -/
def condHolds (cond sw : Nat) : Bool :=
  let g := bitOf sw swG
  let n := bitOf sw swN
  let z := bitOf sw swZ
  let v := bitOf sw swV
  let c := bitOf sw swC
  match cond with
  | 0x0 => true
  | 0x1 => z
  | 0x2 => !z
  | 0x3 => n
  | 0x4 => !n
  | 0x5 => v
  | 0x6 => !v
  | 0x7 => c
  | 0x8 => !c
  | 0x9 => n == v
  | 0xA => n != v
  | 0xB => !z && n == v
  | 0xC => z || n != v
  | 0xD => g
  | 0xE => !g
  | _ => bitOf sw 8

end Sys2Proof.Machine
end

