-- ==== Sys2Proof/Machine/SchOps.lean ====
section
/-! DEFINITION. Cotillion's shared operations (10): descriptors, tokens, readiness, completion records and the queue,
kernel paging, the trace. -/

namespace Sys2Proof.Machine

/-- Changes the Cotillion unit of region `n`. -/
def State.modSch (s : State) (n : Nat) (f : Sched → Sched) : State :=
  s.modRegion n fun r => { r with sch := f r.sch }

/-- The Cotillion unit of region `n`. -/
def State.sch (s : State) (n : Nat) : Sched := (s.region n).sch

/-! ### Descriptors and kernels (R284, R285) -/

def Sched.desc (c : Sched) (k : Nat) : Nat := (c.descs.get 0#512 k).toNat
def dBuf1 (d : Nat) : Nat := bitsOf d 183 164
def dBuf0 (d : Nat) : Nat := bitsOf d 163 144
/-- Successor `j`: valid, op id, flag. -/
def dSucc (d j : Nat) : Bool × Nat × Nat :=
  let x := bitsOf d (81 + 18 * j) (64 + 18 * j)
  (bitOf x 17, bitsOf x 16 3, bitsOf x 2 0)
def dDeadline (d : Nat) : Nat := bitsOf d 55 32
def dHint (d : Nat) : Nat := bitsOf d 31 24
def dKernel (d : Nat) : Nat := bitsOf d 23 16
def dEn (d : Nat) : Bool := bitOf d 15
def dTrace (d : Nat) : Bool := bitOf d 14
def dPrio (d : Nat) : Nat := bitsOf d 13 12
def dTrigf (d : Nat) : Nat := bitsOf d 10 8
def dMask (d : Nat) : Nat := bitsOf d 7 0

/-- Kernel table entry `k`: its fields. -/
def Sched.kernel (c : Sched) (k : Nat) : Nat := (c.kernels.get 0#64 k).toNat
def kLen (e : Nat) : Nat := bitsOf e 43 32
def kPaddr (e : Nat) : Nat := bitsOf e 31 20
def kBank (e : Nat) : Nat := bitsOf e 19 14
def kWord (e : Nat) : Nat := bitsOf e 13 0

/-- The P physical words a kernel occupies. -/
def kWords (e : Nat) : Nat := if kLen e = 0 then 0 else (kPaddr e + kLen e - 1) / 2 - kPaddr e / 2 + 1

/-- Two kernels' P ranges overlap. -/
def kOverlap (a b : Nat) : Bool := decide (kPaddr a < kPaddr b + kLen b) && decide (kPaddr b < kPaddr a + kLen a)

/-- The checks of R286 on a descriptor with EN = 1. -/
def State.descOk (s : State) (d : Nat) : Bool :=
  dMask d != 0 && bitOf (dMask d) (dTrigf d) && (List.range 4).all fun j =>
    let (v, op, f) := dSucc d j
    !v || bitOf (dMask ((s.sch (op / 256)).desc (op % 256))) f

/-- Slot `k`. -/
def Sched.slot (c : Sched) (k : Nat) : Slot := c.slots.get {} k

/-- Changes slot `k` of region `n`. -/
def State.modSlot (s : State) (n k : Nat) (f : Slot → Slot) : State :=
  s.modSch n fun c => { c with slots := c.slots.set k (f (c.slots.get {} k)) }

/-- The flags of a slot as a mask, and the void marks. -/
def Slot.mask (x : Slot) : Nat := (x.flags.map fun f => 2 ^ f.1).sum
def Slot.voids (x : Slot) : Nat := ((x.flags.filter fun f => f.2.void).map fun f => 2 ^ f.1).sum

/-- The urgency of R294. -/
def slotUrg (d : Nat) (x : Slot) : Nat := min 7 (2 * dPrio d + x.steps)

/-! ### Trace (R312 to R314) -/

/-- The memory address of line `w` of a ring (R308). -/
def ringAddr (lo hi w : Nat) : Nat := bitsOf lo 31 6 * 64 + bitsOf hi 3 0 * 2 ^ 32 + w * 64

/-- Capacity of a channel, its data area, and whether it is protected (16 R464, R466). -/
def State.chanCap (s : State) : Nat := 2 ^ (30 + s.rd XMC_CFG_DENS) * (1 + s.rd XMC_CFG_RANK2)
def State.chanData (s : State) : Nat :=
  let c := if s.flag XMC_CFG_ECC then s.chanCap / 8 * 7 else s.chanCap
  if s.flag XMC_CFG_PROT then c / 8 * 7 else c

/-- The channel of a memory address, and the address in it (16 R467). -/
def State.chanOf (s : State) (a : Nat) : Nat × Nat :=
  if s.flag XMC_CFG_INTLV then (a / s.chanData, a % s.chanData)
  else (bitsOf a 14 12, a / 2 ^ 15 * 4096 + a % 4096)

/-- A ring line is sent as one WRITE4 to its channel under a key index. -/
def State.sendLine (s : State) (ni a key : Nat) (line : List Line) : State :=
  let c := (s.chanOf a).1
  let p : Packet :=
    { typ := 0, opc := 0x06, src := ni, tid := 0, key := key, addr := a, be := 0xFFFF
      urg := s.rd (niFld NI_CFG_DURG ni), data := line }
  s.netRequest ni { dst := 64 + min c 7, pkt := p, why := .ring }

/-- The trace stream sends its next full line, or a part line with fillers where `flush` (R308, R314). -/
def State.streamPump (s : State) (flush : Bool := false) : State :=
  let t := s.sched
  let wp := s.rd TRC_WP_PTR
  let size := s.rd TRC_SIZE_LINES
  if t.line ≠ [] ∨ t.stream = [] ∨ (wp + 1) % size = s.rd TRC_RP_PTR then s
  else if 4 ≤ t.stream.length ∨ flush then
    let line := (t.stream.take 4) ++ List.replicate (4 - t.stream.length) (BitVec.allOnes 128)
    let s := { s with sched := { t with line := line, stream := t.stream.drop 4 } }
    s.sendLine 79 (ringAddr (s.rd TRC_BASE_LO_BASE) (s.rd TRC_BASE_HI_BASE) wp) (s.rd TRC_CTRL_KEY) line
  else s

/-- A trace record reaches TRC (R314): the ring, or the stream; a full stream ring loses it. -/
def State.tracePut (s : State) (r : Line) : State :=
  match s.rd TRC_CTRL_MODE with
  | 1 =>
    let h := s.rd TRC_STATUS_HEAD
    ({ s with sched := { s.sched with trace := s.sched.trace.set h r } }).count TRC_STATUS_HEAD
  | 2 =>
    if (s.rd TRC_WP_PTR + 1) % s.rd TRC_SIZE_LINES = s.rd TRC_RP_PTR ∧ 4 ≤ s.sched.stream.length then
      s.bump TRC_STATUS_LOST
    else ({ s with sched := { s.sched with stream := s.sched.stream ++ [r] } }).streamPump
  | _ => s

/-- A trace record of R312. -/
def State.traceRec (s : State) (id eng urg reason aux : Nat) : Line :=
  BitVec.ofNat 128 (s.nowNs % 2 ^ 40 * 2 ^ 88 + (if s.tb.running then s.stamp else 0) * 2 ^ 32 + id % 2 ^ 14 * 2 ^ 18 +
    eng % 32 * 2 ^ 13 + urg % 8 * 2 ^ 10 + reason % 64 * 2 ^ 4 + aux % 16)

/-- A slot's trace record, where its TRACE bit or ALL asks for it (R313). -/
def State.traceSlot (s : State) (n k eng urg reason aux : Nat) : State :=
  if dTrace ((s.sch n).desc k) || s.flag TRC_CTRL_ALL then s.tracePut (s.traceRec (n * 256 + k) eng urg reason aux) else s

/-- A work item's trace record (R313). -/
def State.traceItem (s : State) (n q eng reason aux : Nat) : State :=
  if s.flag TRC_CTRL_ALL then s.tracePut (s.traceRec (n * 256 + 0xF8 + q) eng 0 reason aux) else s

/-! ### Tokens and readiness (R289 to R293) -/

/-- A slot whose flags complete its mask becomes READY; `f` is the flag that completed it (R293). -/
def State.becomeReady (s : State) (n k f : Nat) : State :=
  let d := (s.sch n).desc k
  let x := (s.sch n).slot k
  if x.state = .idle ∧ bitsOf x.mask 7 0 &&& dMask d = dMask d ∧ dMask d ≠ 0 then
    let t := x.flags.get ⟨0, 0, false⟩ (dTrigf d)
    let s := s.modSlot n k fun y => { y with
      state := .ready, readyAt := s.cyc, steps := 0, trigStamp := t.stamp, trigVal := t.val
      void := x.flags.any fun g => g.2.void && bitOf (dMask d) g.1 }
    s.traceSlot n k x.eng (slotUrg d { x with steps := 0 }) 0x01 f
  else s

/-- A token that is not taken (R290, R315); `src` as R291 orders the sources. -/
def State.tokenRefused (s : State) (n k f src status : Nat) : State :=
  let s := (s.raise (SCH_STATUS_TOKREF n)).bump (SCH_CNT_ERR_TOKREF n)
  let s := s.logEvLimited (unitRegion n) 0x0A01 1 status (unitRegion n) ((n * 256 + k) * 8 + f + src * 2 ^ 17)
  s.traceSlot n k ((s.sch n).slot k).eng src 0x06 f

/-- A token for flag `f` of slot `k`: its status, and its effect (R290). -/
def State.token (s : State) (n k f src : Nat) (t : SlotFlag) : Nat × State :=
  let d := (s.sch n).desc k
  if !dEn d || !bitOf (dMask d) f then (4, s.tokenRefused n k f src 4)
  else if (((s.sch n).slot k).flags.find? (fun g => g.1 == f)).isSome then (0xA, s.tokenRefused n k f src 0xA)
  else (0, (s.modSlot n k fun x => { x with flags := x.flags.set f t }).becomeReady n k f)

/-! ### Completion (R301 to R308) -/

/-- The completion ring sends its next full line, or a part line with fillers (R308). -/
def State.ringPump (s : State) (n : Nat) (flush : Bool := false) : State :=
  let c := s.sch n
  let wp := s.rd (SCH_CQ_WP_PTR n)
  if !s.flag (SCH_CQ_CFG_SINK n) ∨ c.ring ≠ [] ∨ c.cq = [] ∨
      (wp + 1) % s.rd (SCH_CQ_SIZE_LINES n) = s.rd (SCH_CQ_RP_PTR n) then s
  else if 4 ≤ c.cq.length ∨ flush then
    let line := (c.cq.take 4) ++ List.replicate (4 - c.cq.length) (BitVec.allOnes 128)
    let s := s.modSch n fun c => { c with ring := line, cq := c.cq.drop 4, ringFail := false }
    s.sendLine n (ringAddr (s.rd (SCH_CQ_BASE_LO_BASE n)) (s.rd (SCH_CQ_BASE_HI_BASE n)) wp)
      (s.rd (SCH_CQ_CFG_KEY n)) line
  else s

/-- MARGIN of R302, and whether the completion is LATE. -/
def marginOf (trig deadline now : Nat) : Int × Bool :=
  let dl := (trig + deadline * 256) % 2 ^ 56
  let d := (dl + 2 ^ 56 - now % 2 ^ 56) % 2 ^ 56
  if d = 0 then (0, false)
  else if d < 2 ^ 54 then (min 524287 (d / 256 : Nat), false)
  else if 2 ^ 56 - 2 ^ 54 < d then (max (-524288) (((d : Int) - 2 ^ 56) / 256), true)
  else (-524288, true)

/-- The region watchdog restarts its count (02 R62). -/
def State.kickRegion (s : State) (n : Nat) : State :=
  s.modRegion n fun r => { r with wdStart := s.cyc, wdHeld := if r.state = .test then 0 else r.wdHeld }

/-- The completion record of R306. -/
def cmpRecord (stamp : Nat) (margin : Int) (nodl : Bool) (kind eng status id cycles : Nat) : Line :=
  BitVec.ofNat 128 (stamp % 2 ^ 56 * 2 ^ 72 + unsignedOf 20 margin * 2 ^ 52 + b2n nodl * 2 ^ 51 + kind * 2 ^ 50 +
    eng * 2 ^ 45 + status * 2 ^ 41 + id * 2 ^ 27 + min cycles (2 ^ 27 - 1))

/-- A token to a successor: in this region at once, else by a network request with the operation's urgency (R303). -/
def State.postSucc (s : State) (n op f urg : Nat) (t : SlotFlag) : State :=
  if op / 256 = n then (s.token n (op % 256) f 1 t).2
  else
    let p : Packet :=
      { typ := 0, opc := 0x10, src := n, tid := 0, toktgt := op * 8 + f, stamp := t.stamp, urg := urg
        psn := b2n t.void, data := [BitVec.ofNat 128 t.val] }
    s.netRequest n { dst := op / 256, pkt := p, why := .token (op * 8 + f) }

/-- The tokens a completion posts: to each valid successor, void ones where it is Not done (R303). -/
def State.postSuccs (s : State) (n : Nat) (it : OpenItem) (status : Nat) : State :=
  (List.range 4).foldl (fun s j =>
    let (v, op, f) := dSucc it.desc.toNat j
    if v then s.postSucc n op f it.urg ⟨status, it.trigStamp, !statusDone status⟩ else s) s

/-- A slot whose operation has closed: OFF when withdrawn, READY when its flags complete the mask, else IDLE
(R287, R293). -/
def State.slotClosed (s : State) (n k : Nat) : State :=
  if dEn ((s.sch n).desc k) then
    let s := s.modSlot n k fun x => { x with state := .idle }
    s.becomeReady n k ((((s.sch n).slot k).flags.getLast?.map fun g => g.1).getD 0)
  else s.modSlot n k fun x => { x with state := .off, flags := [] }

/-- The item names logical bank `b` in a buffer (11 R337). -/
def OpenItem.names (it : OpenItem) (b : Nat) : Bool :=
  it.queue.isNone && (bitsOf (dBuf0 it.desc.toNat) 19 14 == b || bitsOf (dBuf1 it.desc.toNat) 19 14 == b)

/-- Handovers of the placement engine whose old owner has no open item that names the bank begin (11 R337). -/
def State.placeOwners (s : State) (n : Nat) : State :=
  let ready (w : PlcWait) : Bool := w.region == n &&
    !((s.sch n).items.any fun x => x.1 == w.oldEng && x.2.names w.bank) &&
    !s.flag (MEM_BANK_OWN_BUSY n w.bank)
  let go := s.plc.waits.filter ready
  if go = [] then s
  else
    let r := s.rsp
    let s := { s with plc := { s.plc with waits := s.plc.waits.filter fun w => !ready w } }
    { (go.foldl (fun s w => s.writeOwn true n w.bank w.value) s) with rsp := r }

/-- An item's record enters the queue, its slot closes, its successors get their tokens. `quiet`: closed under a fence
or chip SAFE (R303, R306, R307). -/
def State.enterRecord (s : State) (n eng : Nat) (it : OpenItem) (status cycles : Nat) (quiet : Bool) : State :=
  let now := s.regionStamp
  let margin := marginOf it.trigStamp it.deadline now
  let nodl := decide (it.deadline = 0)
  let status := if margin.2 && !nodl then (if status = 0 ∨ status = 1 then 9 else status) else status
  let kind := b2n it.queue.isSome
  let id := match it.queue with
    | some q => q * 2 ^ 11 + it.index
    | none => n * 256 + it.index
  let s := if status = 9 then (s.raise (SCH_STATUS_LATE n)).count (SCH_CNT_LATE_COUNT n) else s
  let r := cmpRecord now (if nodl then 0 else margin.1) nodl kind eng status id cycles
  let s := s.modSch n fun c => { c with cq := c.cq ++ [r] }
  let s := if statusDone status && s.flag (RGN_WDOG_CMPKICK n) then s.kickRegion n else s
  -- the load of the slot's group (11 R325)
  let s := if it.queue.isNone then
      let key := n * 256 + it.index
      { s with plc := { s.plc with slotCyc := s.plc.slotCyc.put 0 key (s.plc.slotCyc.get 0 key + cycles) } }
    else s
  let s := match it.queue with
    | some q => s.traceItem n q eng 0x0B status
    | none => s.traceSlot n it.index eng it.urg (if eng = 31 then 0x05 else 0x04) (if eng = 31 then 0 else status)
  let s := if it.queue.isNone then s.slotClosed n it.index else s
  let s := if it.queue.isNone ∧ !quiet then s.postSuccs n it status else s
  (s.ringPump n).placeOwners n

/-- Takes the open item off engine `e`. -/
def State.takeItem (s : State) (n e : Nat) : State :=
  s.modSch n fun c => { c with items := c.items.del e }

/-- The item open on engine `e`. -/
def State.itemOn (s : State) (n e : Nat) : Option OpenItem :=
  ((s.sch n).items.find? fun x => x.1 == e).map fun x => x.2

/-- A closure that may use the reserve: fence, engine failure, paging failure, gate timeout (R307). -/
def State.closeItem (s : State) (n e status cycles : Nat) (quiet : Bool) : State :=
  match s.itemOn n e with
  | none => s
  | some it => (s.takeItem n e).enterRecord n e it status cycles quiet

/-- A DONE report (R301, R307): held while fewer than 33 entries are free. -/
def State.reportDone (s : State) (n e : Nat) (poison : Bool) (cycles : Nat) : State :=
  match s.itemOn n e with
  | none => s
  | some it =>
    let status := if it.gated then 0xB else if poison then 2 else if it.corrected then 1 else 0
    let s := s.takeItem n e
    if 256 - (s.sch n).cq.length < 33 then
      let s := s.raise (SCH_STATUS_CQHELD n)
      let s := if (s.sch n).heldLogged then s
        else s.logEvLimited (unitRegion n) 0x0A04 1 0 (unitRegion n) e
      s.modSch n fun c => { c with held := c.held ++ [⟨e, it, status, cycles⟩], heldLogged := true }
    else s.enterRecord n e it status cycles false

/-- The held completion that is first enters the queue where there is room; `force` at a fence (R307, R311). -/
def State.releaseHeld (s : State) (n : Nat) (force quiet : Bool) : State :=
  match (s.sch n).held with
  | [] => s
  | h :: rest =>
    if !force && decide (256 - (s.sch n).cq.length < 33) then s
    else
      (s.modSch n fun c => { c with held := rest, heldLogged := c.heldLogged && rest != [] }).enterRecord
        n h.eng h.item h.status h.cycles quiet

/-! ### Kernel paging and dispatch (R295 to R300) -/

/-- Engine `e` of region `n`. -/
def State.engAt (s : State) (n e : Nat) : Engine := (s.region n).engs.get {} e

/-- Changes it. -/
def State.modEngAt (s : State) (n e : Nat) (f : Engine → Engine) : State :=
  s.modRegion n fun r => { r with engs := r.engs.set e (f (r.engs.get {} e)) }

/-- Kernels resident on engine `e`. -/
def Sched.residents (c : Sched) (e : Nat) : List Nat := c.resident.get [] e

/-- Clears residency of the kernels that `sel` names, by kernel id and its table entry. -/
def State.evict (s : State) (n e : Nat) (sel : Nat → Nat → Bool) : State :=
  s.modSch n fun c => { c with
    resident := c.resident.put [] e ((c.residents e).filter fun k => !sel k (c.kernel k)) }

/-- Clears residency of the kernels whose range holds P address `a` (R299). -/
def State.evictAt (s : State) (n e a : Nat) : State :=
  s.evict n e fun _ x => decide (kPaddr x ≤ a) && decide (a < kPaddr x + kLen x)

/-- Engine `e` can take work: WAIT, nothing open, nothing held, HOLD 0, in a region that runs (R295). -/
def State.engineFree (s : State) (n e : Nat) : Bool :=
  let g := s.engAt n e
  let st := (s.region n).state
  (g.state == .wait) && !g.failed && (s.itemOn n e).isNone && !(s.sch n).held.any (fun h => h.eng == e) &&
    !s.flag (SCH_CFG_HOLD n) && !s.flag (PWR_RGN_DOWN n) && ((st == .active) || (st == .test))

/-- The dispatch cycle: DQ0 to DQ3 are written and source 0 pends (R297, R298). -/
def State.dispatchNow (s : State) (n e : Nat) (it : OpenItem) : State :=
  let d := it.desc.toNat
  let dq : Tbl Nat := match it.queue with
    | none => [(0, kPaddr ((s.sch n).kernel it.kernel)), (1, dBuf0 d), (2, dBuf1 d), (3, it.trigVal % 2 ^ 24)]
    | some q => [(0, kPaddr ((s.sch n).kernel it.kernel)), (1, it.trigVal % 2 ^ 24), (2, q * 2 ^ 16 + it.index), (3, 0)]
  let s := s.modEngAt n e fun g => { g with dq := dq, ipend := setBit g.ipend 0, paging := none }
  s.modSch n fun c => { c with items := c.items.set e { it with paging := none, start := (s.engAt n e).cyc } }

/-- A paging read of kernel word `w` (R299). -/
def State.pageRead (s : State) (n e : Nat) (it : OpenItem) (pg : Paging) : State :=
  let k := (s.sch n).kernel it.kernel
  let p : Packet :=
    { typ := 0, opc := 0x01, src := n, tid := 0, addr := kBank k * 2 ^ 18 + (kWord k + pg.next) % 2 ^ 14 * 16, urg := it.urg }
  let s := s.modSch n fun c => { c with items := c.items.set e { it with paging := some { pg with next := pg.next + 1 } } }
  s.netRequest n { dst := n, pkt := p, why := .page e pg.next pg.gen }

/-- Issues paging reads while fewer than 16 are outstanding and words are left. -/
def State.pageReads (s : State) (n e : Nat) : Nat → State
  | 0 => s
  | k + 1 => match s.itemOn n e with
    | some it => match it.paging with
      | some pg =>
        if pg.next < pg.words ∧ pg.next - pg.got < 16 then (s.pageRead n e it pg).pageReads n e k else s
      | none => s
    | none => s

/-- Steps 1 to 3 of R297 after the selection: a resident kernel dispatches at once, another is paged. -/
def State.startItem (s : State) (n e : Nat) (it : OpenItem) : State :=
  let c := s.sch n
  let k := c.kernel it.kernel
  let name (s : State) (paged : Bool) (ev : Nat) : State := match it.queue with
    | some q => s.traceItem n q e (if paged then 0x0A else 0x09) (min ev 15)
    | none => s.traceSlot n it.index e it.urg (if paged then 0x03 else 0x02) (min ev 15)
  let s := (s.count (SCH_CNT_DISP_COUNT n)).bump (PLC_RGN_DISP n)
  if (c.residents e).contains it.kernel then (name s false 0).dispatchNow n e it
  else
    let keep := (c.residents e).filter fun j => !kOverlap (c.kernel j) k
    let keep' := if 16 ≤ keep.length then keep.drop 1 else keep
    let ev := (c.residents e).length - keep'.length
    let s := s.modSch n fun c => { c with resident := c.resident.put [] e keep', pageGen := c.pageGen + 1 }
    let s := s.modEngAt n e fun g => { g with paging := some (kPaddr k, kPaddr k + kLen k - 1) }
    let it := { it with paging := some { gen := c.pageGen, words := kWords k, evicted := ev } }
    let s := name (s.modSch n fun c => { c with items := c.items.set e it }) true ev
    if kWords k = 0 then s.dispatchNow n e it else s.pageReads n e 16

/-- A paging read is answered (R299, R300). -/
def State.pageAnswer (s : State) (n e word gen : Nat) (rsp : Packet) : State :=
  match s.itemOn n e with
  | none => s
  | some it => match it.paging with
    | none => s
    | some pg =>
      if pg.gen ≠ gen then s
      else if !statusDone rsp.status then
        -- the dispatch ends without any interrupt
        let s := (s.raise (SCH_STATUS_PAGEFAIL n)).bump (SCH_CNT_ERR_PAGEFAIL n)
        let id := match it.queue with
          | some q => q * 2 ^ 11 + it.index
          | none => n * 256 + it.index
        let s := s.logEvLimited (unitRegion n) 0x0A03 1 rsp.status (unitRegion n) (it.kernel + e * 2 ^ 8 + id * 2 ^ 13)
        let s := s.modEngAt n e fun g => { g with paging := none }
        s.closeItem n e rsp.status 0 false
      else
        let k := (s.sch n).kernel it.kernel
        let a := (kPaddr k / 2 + word) * 2 % 4096
        let d := (rsp.data.getD 0 0#128).toNat
        let bad := rsp.status == 2 || bitOf rsp.psn 0
        let s := (s.engStoreP (engIdOf n e) a (bitsOf d 47 0) bad).engStoreP (engIdOf n e) (a + 1) (bitsOf d 95 48) bad
        let pg := { pg with got := pg.got + 1, poisoned := pg.poisoned || bad }
        let it := { it with paging := some pg }
        let s := s.modSch n fun c => { c with items := c.items.set e it }
        if pg.got < pg.words then s.pageReads n e 1
        else
          let s := if pg.poisoned then s
            else s.modSch n fun c => { c with resident := c.resident.put [] e (c.residents e ++ [it.kernel]) }
          s.dispatchNow n e it

/-! ### Answers of the network (R303, R308, R300) -/

/-- The ring of region `n` is answered; 79 stands for the trace stream (R308, R314). -/
def State.ringAnswer (s : State) (ni status : Nat) : State :=
  if ni < 64 then
    if statusDone status then
      let s := s.wr (SCH_CQ_WP_PTR ni) ((s.rd (SCH_CQ_WP_PTR ni) + 1) % max 1 (s.rd (SCH_CQ_SIZE_LINES ni)))
      (s.modSch ni fun c => { c with ring := [], ringFail := false, ringErr := false }).ringPump ni
    else
      let s := s.raise (SCH_STATUS_CQERR ni)
      let s := if (s.sch ni).ringErr then s else s.logEvLimited (unitRegion ni) 0x0A08 1 status (unitRegion ni) 0
      s.modSch ni fun c => { c with ringFail := true, ringErr := true }
  else if statusDone status then
    let s := s.wr TRC_WP_PTR ((s.rd TRC_WP_PTR + 1) % max 1 (s.rd TRC_SIZE_LINES))
    ({ s with sched := { s.sched with line := [], lineFail := false } }).streamPump
  else { s with sched := { s.sched with lineFail := true } }

/-- A source NI hands an answer to whoever asked. -/
def State.answered (s : State) (ni : Nat) (why : ReqFor) (rsp : Packet) : State :=
  match why with
  | .unit => s.modNi ni fun n => { n with last := some rsp }
  | .token t =>
    if rsp.status = 0 then s
    else (s.raise (SCH_STATUS_TOKERR ni)).logEvLimited (unitRegion ni) 0x0A02 1 rsp.status (unitRegion ni) t
  | .ring => s.ringAnswer ni rsp.status
  | .page e w g => s.pageAnswer ni e w g rsp
  | .sys k =>
    let v := if statusDone rsp.status then (rsp.data.getD 0 0#128).toNat % 2 ^ 32 else 0
    s.modEng .sup fun g => { g with
      sys := g.sys.map fun a => if a.id = k then { a with rsp := some ⟨rsp.status, v⟩ } else a }

/-- The oldest response or local answer at NI `i` for a purpose that `sel` names reaches its unit (R370, R371). -/
def State.takeResponse (s : State) (i : Nat) (sel : ReqFor → Bool) : State :=
  match (s.ni i).locals.find? (fun a => sel a.why) with
  | some a => (s.modNi i fun n => { n with locals := n.locals.erase a }).answered i a.why a.pkt
  | none =>
    let tid (p : Packet) : Option TidEntry := ((s.ni i).tids.find? fun x => x.1 == p.tid).map fun x => x.2
    let mine (p : Packet) : Bool := p.typ == 1 && p.opc == 0x30 && match tid p with
      | some e => sel e.why
      | none => sel .unit
    match (s.ni i).inbox.find? mine with
    | none => s
    | some p =>
      let s := s.modNi i fun n => { n with inbox := n.inbox.erase p }
      match tid p with
      | none => s.bump (niFld NI_CNT_LOCAL_STRAY i)
      | some e =>
        let s := s.modNi i fun n => { n with tids := n.tids.del p.tid }
        if e.timedOut then s.bump (niFld NI_CNT_TO_LATERSP i)
        else (s.nextRequest i).answered i e.why p

/-- A failed ring write is sent again with the same records (R308). -/
def State.ringRetry (s : State) (ni : Nat) : State :=
  if ni < 64 then
    let c := s.sch ni
    if c.ring ≠ [] ∧ c.ringFail then
      (s.modSch ni fun c => { c with ringFail := false }).sendLine ni
        (ringAddr (s.rd (SCH_CQ_BASE_LO_BASE ni)) (s.rd (SCH_CQ_BASE_HI_BASE ni)) (s.rd (SCH_CQ_WP_PTR ni)))
        (s.rd (SCH_CQ_CFG_KEY ni)) c.ring
    else s
  else
    let t := s.sched
    if t.line ≠ [] ∧ t.lineFail then
      ({ s with sched := { t with lineFail := false } }).sendLine 79
        (ringAddr (s.rd TRC_BASE_LO_BASE) (s.rd TRC_BASE_HI_BASE) (s.rd TRC_WP_PTR)) (s.rd TRC_CTRL_KEY) t.line
    else s

/-! ### Fences, restarts, engine failure (R311) -/

/-- A fence or chip SAFE: held completions are written with their own status, open items close ABORT. The number
closed is answered for CLOSED (02 R668). -/
def State.schFence (s : State) (n : Nat) : State :=
  let s := (List.range 32).foldl (fun s _ => s.releaseHeld n true true) s
  let items := (s.sch n).items
  let k := items.length
  let s := items.foldl (fun s x => s.closeItem n x.1 8 0 true) s
  s.modRegion n fun r => { r with closed := { r.closed with operations := satAdd 16 r.closed.operations k } }

/-- A region restart: flags and ready lists cleared and counted, residency cleared (R311). -/
def State.schRestart (s : State) (n : Nat) : State :=
  let sl := (s.sch n).slots
  let ready := (sl.filter fun x => x.2.state == .ready).length
  let flags := (sl.map fun x => x.2.flags.length).sum
  let s := s.logEvLimited (unitRegion n) 0x0A06 1 0 (unitRegion n) (ready + flags * 2 ^ 10)
  s.modSch n fun c => { c with
    resident := []
    slots := c.slots.map fun x => (x.1, { x.2 with
      flags := [], steps := 0, void := false
      state := if dEn (c.desc x.1) then .idle else .off }) }

/-- DARK or LOAD: work items are discarded and counted; what is cleared or reloaded goes (R311). -/
def State.schDark (s : State) (n : Nat) : State :=
  let k := ((s.sch n).wqs.map fun q => q.2.length).sum
  let s := if k = 0 then s else s.logEvLimited (unitRegion n) 0x0A07 1 0 (unitRegion n) k
  s.modSch n fun c => { cq := c.cq, cqCopy := c.cqCopy, ring := c.ring, ringFail := c.ringFail, ringErr := c.ringErr
                        pageGen := c.pageGen + 1 }

/-- An engine that has been marked failed executes no more, and its item closes ABORT (R244). -/
def State.abortFailed (s : State) (n e : Nat) : State :=
  let g := s.engAt n e
  if g.failed ∧ g.state ≠ .halted ∧ g.state ≠ .retired ∧ g.state ≠ .test then
    let s := s.closeItem n e 8 0 false
    (s.modEngAt n e fun g => { g with
      state := .halted, stopFrom := .halted, main := {}, shad := {}, sh := false, tmr := 0, ipend := 0, pend := []
      xfer := none, resumed := false, outst := [], paging := none }).modSch n fun c => { c with resident := c.resident.del e }
  else s

/-- An engine fails or leaves service: its item closes ABORT, its residency is cleared (R244, R299, R311). -/
def State.schEngineLost (s : State) (n e : Nat) : State :=
  (s.closeItem n e 8 0 false).modSch n fun c => { c with resident := c.resident.del e }

end Sys2Proof.Machine
end

