-- ==== Sys2Proof/Machine/Operands.lean ====
section
/-! DEFINITION. What an engine instruction reads and writes: register sets and their pending writes, register codes,
poison tags, addresses of the five modes (08 R213 to R229, R236, 09 R253, R254, R266). -/

namespace Sys2Proof.Machine

/-! ### Register sets and pending writes (R227 to R229, R240) -/

/-- The set in use. -/
def Engine.cur (g : Engine) : RegSet := if g.sh then g.shad else g.main

/-- Changes the set in use, or the one named. -/
def Engine.modSet (g : Engine) (shadow : Bool) (f : RegSet → RegSet) : Engine :=
  if shadow then { g with shad := f g.shad } else { g with main := f g.main }
def Engine.modCur (g : Engine) (f : RegSet → RegSet) : Engine := g.modSet g.sh f

/-- Whole register `c` of a set. -/
def RegSet.reg (r : RegSet) (c : Nat) : Nat := r.r.get 0 c
def RegSet.setReg (r : RegSet) (c v : Nat) : RegSet := { r with r := r.r.put 0 c v }
def RegSet.tagged (r : RegSet) (c : Nat) : Bool := r.tag.get false c
def RegSet.setTag (r : RegSet) (c : Nat) (b : Bool) : RegSet := { r with tag := r.tag.put false c b }

/-- A pending write lands in a set. -/
def RegSet.land (r : RegSet) (w : PendWrite) : RegSet :=
  let r := r.setReg w.reg ((r.reg w.reg) - ((r.reg w.reg) &&& w.mask) + (w.val &&& w.mask))
  match w.tag with
  | some b => r.setTag w.reg b
  | none => r

/-- The order of landing: by cycle, the later instruction last (R229). -/
def landBefore (a b : PendWrite) : Bool :=
  decide (a.land < b.land) || (a.land == b.land && decide (a.idx ≤ b.idx))

/-- Inserts a pending write in the order of landing. -/
def insertPend (w : PendWrite) : List PendWrite → List PendWrite
  | [] => [w]
  | x :: t => if landBefore x w then x :: insertPend w t else w :: x :: t

/-- Everything that instruction number `j` sees has landed (R228). -/
def Engine.commit (g : Engine) (j : Nat) : Engine :=
  let now := g.pend.filter fun w => decide (w.land ≤ j + 1)
  let g := now.foldl (fun (g : Engine) w => g.modSet w.shadow fun r => r.land w) g
  { g with pend := g.pend.filter fun w => !decide (w.land ≤ j + 1) }

/-- The set in use as the accumulator inputs of instruction `j` see it: with the results of j − 1 (R228). -/
def Engine.accView (g : Engine) (j : Nat) : RegSet :=
  (g.pend.filter fun w => w.shadow == g.sh && decide (w.land ≤ j + 2)).foldl (fun r w => r.land w) g.cur

/-- Adds a pending write of the instruction being issued; `k` cycles after its issue it lands. -/
def Engine.later (g : Engine) (k reg mask val : Nat) (tag : Option Bool) : Engine :=
  { g with pend := insertPend ⟨g.idx + k, g.idx, g.sh, reg, mask, val, tag⟩ g.pend }

/-- A load or register move into a data register: seen from i + 1. -/
def Engine.moveIn (g : Engine) (reg val : Nat) (tag : Bool) : Engine :=
  let m := if reg < 4 then 2 ^ 24 - 1 else 2 ^ 56 - 1
  g.later 1 reg m val (some tag)

/-- Flags and SAT of a result: seen from i + 2; SAT is sticky (R216, R228). -/
def Engine.putFlags (g : Engine) (f : FlagOut) : Engine :=
  g.later 3 0x33 (f.mask + b2n f.sat * 0x80) (f.val + b2n f.sat * 0x80) none

/-- A result in an accumulator: seen from i + 2, from i + 1 as an accumulator input. -/
def Engine.putAcc (g : Engine) (d : Nat) (v : Nat) (tag : Bool) : Engine :=
  g.later 3 (4 + d) (2 ^ 56 - 1) v (some tag)

/-- SW as software sees it: SUP and SH with the bits that are kept (R216, R268). -/
def Engine.sw (g : Engine) (sup : Bool) : Nat := g.cur.reg 0x33 + b2n sup * 0x8000 + b2n g.sh * 0x4000

/-- The bits of SW that a move, SWS or SWC writes (R268). -/
def swWritable : Nat := 0x239F

/-! ### Register codes (R253, R266) -/

/-- The data register a code of R266 belongs to: V0 to V3, A0, A1. -/
def dataReg (c : Nat) : Option Nat :=
  if c < 6 then some c
  else if c = 0x06 ∨ c = 0x07 ∨ c = 0x08 then some 4
  else if c = 0x09 ∨ c = 0x0A ∨ c = 0x0B then some 5
  else none

/-- A read of a register code: the 24-bit value; a transfer of A0 or A1 takes RND and S (R266, R267). -/
def Engine.readCode (g : Engine) (sup : Bool) (c : Nat) (rnd s : Bool) : Nat × Bool :=
  let r := g.cur
  let sext (w v : Nat) : Nat := unsignedOf 24 (signedOf w v)
  if c < 4 then (r.reg c, false)
  else if c = 4 ∨ c = 5 then transfer24 (r.reg c) rnd s
  else match dataReg c with
  | some a =>
    let v := r.reg a
    let k := (c - 6) % 3
    if k = 0 then (sext 8 (bitsOf v 55 48), false)
    else if k = 1 then (bitsOf v 47 24, false)
    else (bitsOf v 23 0, false)
  | none =>
    if 0x10 ≤ c ∧ c < 0x28 then (r.reg c, false)
    else if 0x28 ≤ c ∧ c < 0x30 then (sext 15 (r.reg c), false)
    else if c = 0x33 then (g.sw sup, false)
    else if c = 0x34 then (g.tmr, false)
    else if 0x30 ≤ c ∧ c ≤ 0x32 ∨ c = 0x35 then (r.reg c, false)
    else if 0x38 ≤ c ∧ c < 0x3C then (g.dq.get 0 (c - 0x38), false)
    else (0, false)

/-- The tag a read of a register code carries. -/
def Engine.codeTag (g : Engine) (c : Nat) : Bool :=
  match dataReg c with
  | some a => g.cur.tagged a
  | none => false

/-- A write of a register code by a move (R266, R267): data registers from i + 1, control registers from i + 2, TMR and
IRA at once. -/
def Engine.writeCode (g : Engine) (c v : Nat) (tag : Bool) : Engine :=
  if c < 4 then g.moveIn c v tag
  else if c = 4 ∨ c = 5 then g.moveIn c (wordToAcc v) tag
  else match dataReg c with
  | some a =>
    let k := (c - 6) % 3
    if k = 0 then g.later 1 a (0xFF * 2 ^ 48) (v % 256 * 2 ^ 48) (some tag)
    else if k = 1 then g.later 1 a (0xFFFFFF * 2 ^ 24) (v % 2 ^ 24 * 2 ^ 24) (some tag)
    else g.later 1 a 0xFFFFFF v (some tag)
  | none =>
    if 0x10 ≤ c ∧ c < 0x20 then g.later 3 c 0x3FFF v none
    else if 0x20 ≤ c ∧ c < 0x28 then g.later 3 c 0x7FFF (min (v % 2 ^ 15) 16384) none
    else if 0x28 ≤ c ∧ c < 0x30 then g.later 3 c 0x7FFF v none
    else if c = 0x30 then g.later 3 c 0xFFFF v none
    else if c = 0x31 ∨ c = 0x32 then g.later 3 c 0xFFF v none
    else if c = 0x33 then g.later 3 c swWritable v none
    else if c = 0x34 then { g with tmr := v % 2 ^ 24 }
    else if c = 0x35 then g.modCur fun r => r.setReg c (v % 2 ^ 12)
    else g

/-- A source of R253 as the exact integer val (R254). -/
def RegSet.srcVal (r : RegSet) (c : Nat) : Int := if c < 4 then val24 (r.reg c) else acc56 (r.reg c)

/-! ### Addresses (R225, R226) -/

/-- The updated pointer of R226. -/
def ptrStep (ap ab al : Nat) (m : Int) : Nat :=
  if al = 0 then (((ap : Int) + m) % 16384).toNat
  else (((ab : Int) + ((ap : Int) - ab + m) % (al : Int)) % 16384).toNat

/-- The address of a mode and the pointer after it (R225). -/
def RegSet.address (r : RegSet) (mode ptr : Nat) : Nat × Nat :=
  let ap := r.reg (0x10 + ptr)
  let ab := r.reg (0x18 + ptr)
  let al := r.reg (0x20 + ptr)
  let am := signedOf 15 (r.reg (0x28 + ptr))
  match mode with
  | 0 => (ap, ap)
  | 1 => (ap, ptrStep ap ab al 1)
  | 2 => (ap, ptrStep ap ab al (-1))
  | 3 => (ap, ptrStep ap ab al am)
  | _ => (ptrStep ap ab al am, ap)

/-- A pointer's own update: seen from i + 1. -/
def Engine.setPtr (g : Engine) (ptr v : Nat) : Engine := g.modCur fun r => r.setReg (0x10 + ptr) v

/-! ### Locks (R233, R279) -/

/-- The registers an outstanding request locks in set `shadow`. -/
def WinReq.locks (w : WinReq) : List Nat :=
  match w.kind with
  | .store => []
  | .load => if w.form = 0 then [0, 1, 2, 3] else [w.reg]
  | .atomic => [w.reg]

/-- A register of the set in use is locked by a window load, an atomic or a system load. -/
def Engine.locked (g : Engine) (c : Nat) : Bool :=
  g.outst.any (fun w => w.shadow == g.sh && w.locks.contains c) ||
  g.sys.any (fun a => a.load && a.shadow == g.sh && a.acc + 4 == c)

end Sys2Proof.Machine
end

