-- ==== Sys2Proof/Machine/EngOps.lean ====
section
/-! DEFINITION. The engine's shared operations (08, 09): issue with its stalls, delay slots, loops and transfers,
interrupts, poison, bank-access errors, parallel moves, window requests, the access port. -/

namespace Sys2Proof.Machine

/-! ### Records and interrupts (R234 to R238, R248) -/

/-- The unit a record about an engine names. -/
def engUnit (id : EngId) : Nat :=
  match id with
  | .rgn n e => unitId n 2 e
  | .sup => unitBase 0x12

/-- The engine is the supervisor. -/
def isSup : EngId → Bool
  | .sup => true
  | .rgn _ _ => false

/-- Pends an event source. -/
def State.pendSrc (s : State) (id : EngId) (k : Nat) : State :=
  s.modEng id fun g => { g with ipend := setBit g.ipend k }

/-- Counts in a field of a region engine's registers. -/
def State.engBump (s : State) (id : EngId) (f : Nat → Nat → Fld) : State :=
  match id with
  | .rgn n e => s.bump (f n e)
  | .sup => s

/-- A consumption (R236): PSN at once, source 4, count and record. -/
def State.consume (s : State) (id : EngId) : State :=
  let pc := (s.eng id).cur.pc
  let s := s.modEng id fun g => g.modCur fun r => r.setReg 0x33 (setBit (r.reg 0x33) 8)
  let s := (s.pendSrc id 4).engBump id ENG_STAT2_PSN
  s.logEvLimited (engUnit id) 0x0802 1 2 (engUnit id) pc

/-- Latches the first error in ENG_BERR (R222, R234). -/
def State.latchBerr (s : State) (id : EngId) (status bank addr : Nat) (pfetch : Bool) : State :=
  match id with
  | .rgn n e =>
    if s.flag (ENG_BERR_VALID n e) then s
    else ((((s.wr (ENG_BERR_VALID n e) 1).wr (ENG_BERR_STATUS n e) status).wr (ENG_BERR_BANK n e) bank).wr
      (ENG_BERR_ADDR n e) addr).wr (ENG_BERR_PFETCH n e) (b2n pfetch)
  | .sup => s

/-- A bank-access error (R234, R280); in the supervisor SYSERR (R247, R278, R279). -/
def State.bankError (s : State) (id : EngId) (status bank addr pc : Nat) : State :=
  let s := ((s.latchBerr id status bank addr false).pendSrc id 3).engBump id ENG_STAT2_BERR
  match id with
  | .rgn _ _ => s.logEvLimited (engUnit id) 0x0801 1 status (engUnit id) (bank + addr * 2 ^ 6 + pc * 2 ^ 20)
  | .sup => s

/-- A poisoned P fetch (R222): source 4, the address in ENG_BERR, the record. -/
def State.poisonFetch (s : State) (id : EngId) (pc : Nat) : State :=
  let s := (s.latchBerr id 2 0 pc true).pendSrc id 4
  s.logEvLimited (engUnit id) 0x0802 1 2 (engUnit id) (pc + 2 ^ 12)

/-- The level of an engine's stream FIFO, towards it or from it. -/
def Region.toEngLen (r : Region) (e : Nat) : Nat := (r.fab.toEng.get [] e).length
def Region.fromEngLen (r : Region) (e : Nat) : Nat := (r.fab.fromEng.get [] e).length

/-- The stream port that is bound to engine `e` (05 R161). -/
def Region.portOf (r : Region) (e : Nat) : Option Nat := (List.range 24).find? fun p => r.fab.bind.get p p == e

/-- FIRQ[k] of engine `e`: output A of T1 cell 2 + k of its port's site block (R235). -/
def Region.firq (r : Region) (e k : Nat) : Bool :=
  match r.portOf e with
  | some p => r.state == .active && FabEnv.value ⟨r, []⟩ (.out (2 * p * 48 + 46) 0 (2 + k) false)
  | none => false

/-- Region engine `e`'s pending sources: event bits and levels (R237). -/
def State.engPending (s : State) (n e : Nat) : Nat :=
  let g := s.engAt n e
  let r := s.region n
  let stream := decide (s.rd (ENG_SPT_INLVL n e) ≤ r.toEngLen e ∧ 0 < r.toEngLen e) ||
    decide (s.rd (ENG_SPT_OUTLVL n e) ≤ 64 - r.fromEngLen e)
  let ev := g.ipend % 2 ^ 5 - b2n (bitOf g.ipend 1) * 2
  ev + b2n stream * 2 + b2n (r.firq e 0) * 32 + b2n (r.firq e 1) * 64 + b2n (r.firq e 2) * 128

/-- A completion queue holds THRESH records or more (R307). -/
def State.completionLine (s : State) : Bool :=
  s.regions.any fun r => decide (0 < r.2.sch.cq.length) && decide (s.rd (SCH_CQ_CFG_THRESH r.1) ≤ r.2.sch.cq.length)

/-- The supervisor's pending sources (R247). -/
def State.supPending (s : State) : Nat :=
  let p := s.sup.eng.ipend
  let ev := p - b2n (bitOf p 0) - b2n (bitOf p 5) * 32
  ev + b2n s.evtIrqLine * 1 + b2n s.completionLine * 32

/-- Pending sources of an engine. -/
def State.pendingOf (s : State) (id : EngId) : Nat :=
  match id with
  | .rgn n e => s.engPending n e
  | .sup => s.supPending

/-- The source that is recognised now: enabled, pending, highest in priority, with IE = 1 and SH = 0; the supervisor's
source 6 also in the shadow set (R238, R247). -/
def State.irqNow (s : State) (id : EngId) : Option Nat :=
  let g := s.eng id
  let ie := bitOf (g.cur.reg 0x33) 13
  let p := s.pendingOf id
  match id with
  | .rgn n e =>
    if ie && !g.sh then
      [4, 3, 2, 0, 1, 5, 6, 7].find? fun k => bitOf p k && bitOf (s.rd (ENG_CTRL_IMASK n e)) k
    else none
  | .sup =>
    if bitOf p 6 then some 6
    else if ie && !g.sh then [4, 3, 2, 0, 1, 5, 7].find? fun k => bitOf p k
    else none

/-- The event sources, whose bits clear when they are taken. -/
def srcIsEvent (id : EngId) (k : Nat) : Bool :=
  match id with
  | .rgn _ _ => k == 0 || k == 2 || k == 3 || k == 4
  | .sup => k != 0 && k != 5

/-- Entry to the handler of source `k` (R239, R272): `ira` is the first instruction not issued. -/
def State.enterIrq (s : State) (id : EngId) (k ira : Nat) : State :=
  let s := s.modEng id fun g =>
    let g := { g with
      sh := true
      ipend := if srcIsEvent id k then clearBit g.ipend k else g.ipend
      state := .run
      shad := { (g.shad.setReg 0x35 ira) with pc := 2 * k }
      main := if g.sh then g.main else { g.main with pc := ira } }
    -- the dispatch interrupt clears SAT and PSN of the main set
    if k = 0 ∧ !isSup id then { g with main := g.main.setReg 0x33 (clearBit (clearBit (g.main.reg 0x33) 7) 8) } else g
  if isSup id ∧ k = 6 then { s with sup := { s.sup with stat := 3 } } else s

/-! ### Issue (R227 to R231, R271 to R276) -/

/-- One engine cycle passes: TMR counts down, reaching 0 pends source 2 (R245). -/
def State.engCycle (s : State) (id : EngId) : State :=
  let g := s.eng id
  let s := s.modEng id fun g => { g with cyc := g.cyc + 1, tmr := g.tmr - 1 }
  if g.tmr = 1 then s.pendSrc id 2 else s

/-- A cycle in RUN with no issue. -/
def State.stall (s : State) (id : EngId) : State :=
  let s := match id with
    | .rgn n e => s.count (ENG_CNT_STALL_COUNT n e)
    | .sup => s
  s.engCycle id

/-- The engine ends its program: WAIT, LF clear; an enabled interrupt pending is taken instead (R272). -/
def State.endProgram (s : State) (id : EngId) (next : Nat) : State :=
  let s := s.modEng id fun g => { (g.modCur fun r => { (r.setReg 0x33 (clearBit (r.reg 0x33) 9)) with pc := next }) with
    xfer := none }
  match s.irqNow id with
  | some k => s.enterIrq id k next
  | none => s.modEng id fun g => { g with state := .wait }

/-- A transfer takes effect after its second slot; `next` is the address after that slot (R271 to R273). -/
def State.takeXfer (s : State) (id : EngId) (a : XferAct) (next : Nat) : State :=
  match a with
  | .jump t => s.modEng id fun g => { (g.modCur fun r => { r with pc := t }) with xfer := none }
  | .notTaken => s.modEng id fun g => { (g.modCur fun r => { r with pc := next }) with xfer := none }
  | .rti => s.modEng id fun g =>
    if g.sh then { g with sh := false, main := { g.main with pc := g.shad.reg 0x35 }, xfer := none, resumed := true }
    else { g with main := { g.main with pc := g.main.reg 0x35 }, xfer := none }
  | .done =>
    let g := s.eng id
    let s := match id with
      | .rgn n e =>
        let start := ((s.itemOn n e).map fun (it : OpenItem) => it.start).getD 0
        s.reportDone n e (bitOf (g.cur.reg 0x33) 8) (g.cyc - start)
      | .sup => s
    s.endProgram id next
  | .wait => s.endProgram id next

/-- The address of the next instruction, with the loop hardware (R276): it acts where LE issues with LF = 1. -/
def loopNext (r : RegSet) (pc : Nat) : Nat × RegSet :=
  let next := (pc + 1) % 4096
  if bitOf (r.reg 0x33) 9 && pc == r.reg 0x32 then
    let lc := r.reg 0x30
    if 1 < lc then (r.reg 0x31, r.setReg 0x30 (lc - 1))
    else if lc = 1 then (next, (r.setReg 0x30 0).setReg 0x33 (clearBit (r.reg 0x33) 9))
    else (next, r)
  else (next, r)

/-- After an instruction has issued: counts, position, PC, loop, delay slots. `skip`: where a LOOP with a count of 0
continues. -/
def State.retire (s : State) (id : EngId) (fresh : Option Xfer) (skip : Option Nat) : State :=
  let s := match id with
    | .rgn n e => s.count (ENG_CNT_ISSUE_COUNT n e)
    | .sup => { (s.count SUP_CNT_ISSUE_COUNT) with sup := { s.sup with issued := s.sup.issued + 1 } }
  let g := s.eng id
  let pc := g.cur.pc
  let s := (s.modEng id fun g => { g with idx := g.idx + 1, resumed := false }).engCycle id
  let next := skip.getD ((pc + 1) % 4096)
  match g.xfer with
  | some x =>
    if 1 < x.left then
      s.modEng id fun g => { (g.modCur fun r => { r with pc := next }) with xfer := some { x with left := x.left - 1 } }
    else match x.act with
    | .notTaken =>
      let (nx, r) := loopNext (s.eng id).cur pc
      s.modEng id fun g => { (g.modCur fun _ => { r with pc := skip.getD nx }) with xfer := none }
    | a => s.takeXfer id a next
  | none =>
    let (nx, r) := loopNext (s.eng id).cur pc
    s.modEng id fun g => { (g.modCur fun _ => { r with pc := skip.getD nx }) with xfer := fresh }

/-- An engine that a read has marked failed stops here (R244). -/
def State.failNow (s : State) (id : EngId) : State :=
  match id with
  | .rgn n e => s.abortFailed n e
  | .sup => s

/-- What an instruction is made of: the data registers it reads or writes, whether it must wait for a FIFO, the bank or
a system access, whether it is a transfer, and its effect as instruction `j` of the engine. -/
structure Insn where
  regs : List Nat := []
  wait : Bool := false
  xfer : Option XferAct := none
  skip : Option Nat := none
  body : State → State := id

/-- A read that was corrected marks the item it serves (10 R301). -/
def State.markCorrected (s : State) (id : EngId) : State :=
  match id with
  | .rgn n e => s.modSch n fun c => { c with
      items := c.items.map fun x => if x.1 = e.val then (x.1, { x.2 with corrected := true }) else x }
  | .sup => s

/-- A read of an engine memory by the program: value and tag; a correctable word counts for the operation's status. -/
def State.dataRead (s : State) (id : EngId) (m a : Nat) : Nat × Bool × State :=
  let syn := (s.eng id).syn.get 0 (m * 4096 + a / engPer m)
  let (v, t, s) := s.engRead id m a
  (v, t, if (v144Judge syn).corrects then s.markCorrected id else s)

/-- Issues an instruction on an engine in RUN (R230, R231, R222, R274). -/
def State.issue (s : State) (id : EngId) (i : State → Insn) : State :=
  let g := s.eng id
  if g.state ≠ .run then s
  else
    let pc := g.cur.pc
    let inPaging := match g.paging with
      | some (a, b) => decide (a ≤ pc) && decide (pc ≤ b)
      | none => false
    -- the reads of this instruction see what has landed
    let s := s.modEng id fun g => g.commit g.idx
    -- R274: a slot beyond its vector pair issues as a no-operation, nothing is fetched
    let noFetch := match g.xfer with
      | some x => decide (x.src < 16) && decide (2 * (x.src / 2) + 1 < pc)
      | none => false
    let (_, bad, s') := if noFetch then (0, false, s) else s.dataRead id 2 pc
    let x : Insn := if noFetch || bad then {} else i s'
    -- R231: a transfer in a delay slot is a no-operation
    let slot := x.xfer.isSome && g.xfer.isSome
    if inPaging && !noFetch then s.stall id
    else if !slot && (x.regs.any (s.eng id).locked || x.wait) then s.stall id
    else
      let s := s'
      if bad then ((s.poisonFetch id pc).retire id none none).failNow id
      else if slot then
        let s := (s.engBump id ENG_STAT2_DSLOT).logEvLimited (engUnit id) 0x0803 1 0 (engUnit id) pc
        (s.retire id none none).failNow id
      else ((x.body s).retire id (x.xfer.map fun a => ⟨2, a, pc⟩) x.skip).failNow id

/-! ### Parallel moves (R259 to R263) -/

/-- A move of a parallel instruction is one R259 and R253 give. -/
def moveOk (m : Move) : Bool :=
  match m.kind.val with
  | 0 => true
  | 6 => decide (m.mode.val < 5)
  | 7 => true
  | _ => decide (m.mode.val < 5) && decide (m.reg.val < 6)

/-- It pops, or pushes, the stream port. -/
def movePops (m : Move) : Bool := m.kind.val == 7 && decide (m.reg.val < 2)
def movePushes (m : Move) : Bool := m.kind.val == 7 && decide (2 ≤ m.reg.val)

/-- The data registers a move reads or writes. -/
def moveRegs (m : Move) : List Nat :=
  match m.kind.val with
  | 0 | 6 => []
  | 7 => match m.reg.val with
    | 0 | 2 => [0, 1]
    | 1 | 3 => [2, 3]
    | _ => [4, 5]
  | _ => [m.reg.val]

/-- A move has to wait for the stream port (R230). -/
def State.streamWait (s : State) (id : EngId) (m : Move) : Bool :=
  match id with
  | .rgn n e =>
    let r := s.region n
    (movePops m && r.toEngLen e == 0) || (movePushes m && decide (64 ≤ r.fromEngLen e))
  | .sup => false

/-- The 24 bits a data register gives to memory: a register, or a transfer of an accumulator; SAT where it saturates
(R220, R260). -/
def storeWord (g : Engine) (c : Nat) (rnd s : Bool) : Nat × Bool :=
  if c < 4 then (g.cur.reg c, false) else transfer24 (g.cur.reg c) rnd s

/-- SAT by a transfer. -/
def State.transferSat (s : State) (id : EngId) (sat : Bool) : State :=
  if sat then s.modEng id fun g => g.later 3 0x33 0x80 0x80 none else s

/-- A STREAM move (R235, R262). -/
def State.streamMove (s : State) (id : EngId) (code : Nat) : State :=
  match id with
  | .sup => s
  | .rgn n e =>
    if code < 2 then
      match (s.region n).fab.toEng.get [] e with
      | [] => s
      | w :: t =>
        let s := s.modFab n fun f => { f with toEng := f.toEng.put [] e t }
        s.modEng id fun g => (g.moveIn (2 * code) (w.data.toNat % 2 ^ 24) w.poison).moveIn (2 * code + 1)
          (w.data.toNat / 2 ^ 24) w.poison
    else
      let g := s.eng id
      let (lo, hi) := if code = 2 then (0, 1) else if code = 3 then (2, 3) else (4, 5)
      let rnd := code == 5 || code == 7
      let sat := code == 6 || code == 7
      let (a, sa) := storeWord g lo rnd sat
      let (b, sb) := storeWord g hi rnd sat
      let w : StreamWord := ⟨BitVec.ofNat 48 (a + b * 2 ^ 24), g.cur.tagged lo || g.cur.tagged hi⟩
      (s.modFab n fun f => { f with fromEng := f.fromEng.put [] e (f.fromEng.get [] e ++ [w]) }).transferSat id (sa || sb)

/-- One move of an instruction to memory `m` (0 D, 1 K), its address taken from the registers before the instruction
(R224, R260, R261). `g0` is the engine before it. -/
def State.move (s : State) (id : EngId) (g0 : Engine) (m : Nat) (v : Move) : State :=
  let (a, p) := g0.cur.address v.mode v.ptr
  let upd (s : State) : State :=
    if v.mode.val = 0 ∨ v.mode.val = 4 then s else s.modEng id fun g => g.setPtr v.ptr p
  match v.kind.val with
  | 0 => s
  | 1 =>
    let (x, t, s) := s.dataRead id m a
    upd (s.modEng id fun g => g.moveIn v.reg (if v.reg.val < 4 then x else wordToAcc x) t)
  | 6 => upd s
  | 7 => s.streamMove id v.reg
  | k =>
    let (x, sat) := storeWord g0 v.reg (k == 3 || k == 5) (k == 4 || k == 5)
    upd ((s.engStore id m a x (g0.cur.tagged v.reg)).transferSat id sat)

/-- Both moves; of two pops or two pushes only the D-side one (R263). -/
def State.moves (s : State) (id : EngId) (dm km : Move) : State :=
  let g0 := s.eng id
  let km := if (movePops dm && movePops km) || (movePushes dm && movePushes km) then { km with kind := 0 } else km
  (s.move id g0 0 dm).move id g0 1 km

/-! ### Arithmetic (R255 to R258) -/

/-- A parallel instruction: `srcs` and `accs` the registers it uses as sources and accumulator inputs, `ok` whether its
operation's own fields are valid, `result` what it computes from the engine before it. -/
def State.parallel (s : State) (id : EngId) (p : Par) (ok : Bool) (srcs accs : List Nat)
    (result : RegSet → RegSet → List (Nat × Nat) × Option FlagOut) (dst : List Nat) : State :=
  s.issue id fun s =>
    if !ok || !moveOk p.dm || !moveOk p.km then {}
    else
      let g := s.eng id
      let view := g.accView g.idx
      let tagged := srcs.any g.cur.tagged || accs.any view.tagged
      { regs := srcs ++ accs ++ dst ++ moveRegs p.dm ++ moveRegs p.km
        wait := s.streamWait id p.dm || s.streamWait id p.km
        body := fun s =>
          let s := s.moves id p.dm p.km
          let s := if tagged then s.consume id else s
          let (outs, fl) := result g.cur view
          let s := outs.foldl (fun s x => s.modEng id fun g => g.putAcc x.1 x.2 tagged) s
          match fl with
          | some f => s.modEng id fun g => g.putFlags f
          | none => s }

/-- A source code of an operation: a multiplier's must be V0 to V3, another's any data register. -/
def mulSrc (c : Fin 8) : Bool := decide (c.val < 4)
def anySrc (c : Fin 8) : Bool := decide (c.val < 6)

/-- Ad as its accumulator code. -/
def accOf (p : Par) : Nat := 4 + b2n p.d

/-! ### Long-format moves -/

/-- A long-format instruction that reads and writes the named data registers. -/
def State.long (s : State) (id : EngId) (regs : List Nat) (body : State → State) : State :=
  s.issue id fun _ => { regs := regs, body := body }

/-- A tagged register moved into a control register is consumed (R236, R266). -/
def State.moveTo (s : State) (id : EngId) (c v : Nat) (tag : Bool) : State :=
  let s := if tag && (dataReg c).isNone then s.consume id else s
  s.modEng id fun g => g.writeCode c v tag

/-! ### Bank window (R232 to R234, R277) -/

/-- Bits [55:0] of a lane pair, and the sign-extended words of a store. -/
def lanePair (d : Nat) (lane : Nat) : Nat := if lane < 2 then bitsOf d 63 0 else bitsOf d 127 64
def laneOf (d lane : Nat) : Nat := bitsOf d (32 * lane + 31) (32 * lane)

/-- The bank holds an engine's request during a handover to it (R193, R230). -/
def State.bankHolds (s : State) (id : EngId) (b : Nat) : Bool :=
  match id with
  | .rgn n e => s.flag (MEM_BANK_OWN_BUSY n b) && s.rd (MEM_BANK_OWN_OWNER n b) == 2 &&
      s.rd (MEM_BANK_OWN_ENG n b) == e.val
  | .sup => false

/-- A window request waits while 16 are outstanding or while the bank holds it (R230). -/
def State.windowWait (s : State) (id : EngId) (b : Nat) : Bool :=
  decide (16 ≤ (s.eng id).outst.length) || s.bankHolds id b

/-- Issues a window request: its address and its pointer's update, then the request (R232). -/
def State.windowIssue (s : State) (id : EngId) (w : WinArgs) (mk : Nat → WinReq) : State :=
  let g0 := s.eng id
  let (a, p) := g0.cur.address w.mode w.ptr
  let s := if w.mode.val = 0 ∨ w.mode.val = 4 then s else s.modEng id fun g => g.setPtr w.ptr p
  s.modEng id fun g => { g with outst := g.outst ++ [mk a] }

/-- The pointer's update alone, in the supervisor (R278). -/
def State.windowNone (s : State) (id : EngId) (w : WinArgs) (dst : List Nat) (tag : Bool) : State :=
  let (_, p) := (s.eng id).cur.address w.mode w.ptr
  let s := if w.mode.val = 0 ∨ w.mode.val = 4 then s else s.modEng id fun g => g.setPtr w.ptr p
  dst.foldl (fun s c => s.modEng id fun g => g.moveIn c 0 tag) s

/-- Puts a landed value in a register of the set that issued the request; older results to it are superseded. -/
def Engine.landed (g : Engine) (shadow : Bool) (c v : Nat) (tag : Bool) : Engine :=
  let g := { g with pend := g.pend.filter fun w => !(w.shadow == shadow && w.reg == c) }
  g.modSet shadow fun r => (r.setReg c v).setTag c tag

/-- The values a window response gives to its destination registers (R277). -/
def WinReq.dest (w : WinReq) (d : Nat) : List (Nat × Nat) :=
  match w.kind with
  | .store => []
  | .load =>
    match w.form with
    | 0 => (List.range 4).map fun l => (l, laneOf d l % 2 ^ 24)
    | 1 =>
      let x := laneOf d w.lane % 2 ^ 24
      [(w.reg, if w.reg < 4 then x else wordToAcc x)]
    | _ => [(w.reg, lanePair d w.lane % 2 ^ 56)]
  | .atomic =>
    if w.reg < 4 then [(w.reg, d % 2 ^ 24)] else [(w.reg, d % 2 ^ 56)]

/-- The oldest window request lands, once it is answered (R233, R234, R236). -/
def State.windowLand (s : State) (n e : Nat) : State :=
  let id := engIdOf n e
  match (s.engAt n e).outst with
  | [] => s
  | w :: rest => match w.rsp with
    | none => s
    | some r =>
      let s := s.modEngAt n e fun g => { g with outst := rest }
      let err := !statusDone r.status
      let s := (w.dest (if err then 0 else r.data.toNat)).foldl
        (fun s x => s.modEngAt n e fun g => g.landed w.shadow x.1 x.2 (r.poison && !err)) s
      let mark (s : State) (f : OpenItem → OpenItem) : State := s.modSch n fun c => { c with
        items := c.items.map fun x => if x.1 = e then (x.1, f x.2) else x }
      let s := if r.status = 0xB then mark s fun it => { it with gated := true }
        else if r.status = 1 then mark s fun it => { it with corrected := true }
        else s
      if err then s.bankError id r.status w.bank w.word w.pc else s

/-! ### Engine states (R242, R243) -/

/-- The engine is cleared and takes a state: a fence, a restart, START (R213, R243). -/
def Engine.cleared (g : Engine) (st : EngState) : Engine :=
  { g with
    state := if g.state = .retired ∨ g.state = .test then g.state else st
    stopFrom := st, main := {}, shad := {}, sh := false, tmr := 0, ipend := 0, pend := [], xfer := none
    resumed := false, outst := [], sys := [], paging := none }

/-! ### The access port (R250) -/

/-- Memory and address of ENG_MADDR. -/
def State.maddr (s : State) (n e : Nat) : Nat × Nat :=
  let m := s.rd (ENG_MADDR_MEM n e)
  let a := s.rd (ENG_MADDR_ADDR n e)
  (m, if m = 2 then a % 4096 else a)

/-- ADDR advances by 1. -/
def State.maddrNext (s : State) (n e : Nat) : State :=
  let (m, a) := s.maddr n e
  s.wr (ENG_MADDR_ADDR n e) (if m = 2 then (a + 1) % 4096 else (a + 1) % 16384)

/-- A read of ENG_MDATA_LO. -/
def State.readMdata (s : State) (n e : Nat) : State :=
  let (m, a) := s.maddr n e
  if m = 3 then { s with rsp := ⟨0, 0⟩ }
  else
    let (v, t, s) := s.engRead (engIdOf n e) m a
    let s := ((s.wr (ENG_MDATA_LO_DATA n e) (v % 2 ^ 24)).wr (ENG_MDATA_LO_PSN n e) (b2n (t && m != 2))).wr
      (ENG_MDATA_HI_DATA n e) (if m = 2 then v / 2 ^ 24 else 0)
    let s := (s.maddrNext n e).abortFailed n e
    { s with rsp := ⟨0, v % 2 ^ 24 + b2n (t && m != 2) * 2 ^ 24⟩ }

/-- A write of ENG_MDATA_LO. A P write clears residency of the kernels that hold the address (R299). -/
def State.writeMdata (s : State) (n e v : Nat) : State :=
  let (m, a) := s.maddr n e
  let s := (s.wr (ENG_MDATA_LO_DATA n e) v).wr (ENG_MDATA_LO_PSN n e) (bitsOf v 24 24)
  let s := { s with rsp := ⟨0, 0⟩ }
  let st := (s.engAt n e).state
  if m = 3 then s
  else if m = 2 then
    if st = .wait ∨ st = .stop ∨ st = .halted then
      ((s.engStoreP (engIdOf n e) a (v % 2 ^ 24 + s.rd (ENG_MDATA_HI_DATA n e) * 2 ^ 24)).evictAt n e a).maddrNext n e
    else s.raise (ENG_STAT_REFUSED n e)
  else (s.engStore (engIdOf n e) m a (v % 2 ^ 24) (bitOf v 24)).maddrNext n e

end Sys2Proof.Machine
end

