-- ==== Sys2Proof/Machine/PlcOps.lean ====
section
/-! DEFINITION. The placement engine's shared operations (11): hints, snapshots, the decision rules of a region, moves,
transits, trace records. -/

namespace Sys2Proof.Machine

/-- Changes the placement engine. -/
def State.modPlc (s : State) (f : Plc → Plc) : State := { s with plc := f s.plc }

/-- The unit identifier of the placement engine. -/
def unitPlc : Nat := unitBase 0x10

/-! ### Trace (R345, R346) -/

/-- A placement trace record. -/
def State.plcTrace (s : State) (id arg reason aux : Nat) (stamp : Nat) : State :=
  s.tracePut (BitVec.ofNat 128 (s.nowNs % 2 ^ 40 * 2 ^ 88 + stamp % 2 ^ 56 * 2 ^ 32 + id % 2 ^ 14 * 2 ^ 18 +
    arg % 2 ^ 8 * 2 ^ 10 + reason % 64 * 2 ^ 4 + aux % 16))

/-- The measured position's stamp, 0 while the timebase does not run. -/
def State.stampNow (s : State) : Nat := if s.tb.running then s.stamp else 0

/-- A trace record stamped now. -/
def State.plcRec (s : State) (id arg reason aux : Nat) : State := s.plcTrace id arg reason aux s.stampNow

/-- A change of the mapping is counted (PLC_POINT.CHANGES). -/
def State.plcChange (s : State) : State := s.bump PLC_POINT_CHANGES

/-! ### Hints, slots and banks (R321 to R323) -/

def hintMove (d : Nat) : Nat := bitsOf (dHint d) 7 6
def hintHome (d : Nat) : Nat := bitsOf (dHint d) 4 0

/-- The logical banks a descriptor names. -/
def dBanks (d : Nat) : List Nat := [bitsOf (dBuf0 d) 19 14, bitsOf (dBuf1 d) 19 14]

/-- The enabled slots of a region, in slot order. -/
def Sched.enabled (c : Sched) : List Nat := (c.descs.filter fun p => dEn p.2.toNat).map fun p => p.1

/-- The enabled slots assigned to engine `e`. -/
def Sched.slotsOn (c : Sched) (e : Nat) : List Nat := c.enabled.filter fun k => (c.slot k).eng == e

/-- Placed banks that engine `e` owns, or will own when a waiting handover begins. -/
def State.ownerOf (s : State) (n b : Nat) : Nat × Nat :=
  match s.plc.waits.reverse.find? fun w => w.region == n && w.bank == b with
  | some w => (bitsOf w.value 2 0, bitsOf w.value 8 4)
  | none => (s.rd (MEM_BANK_OWN_OWNER n b), s.rd (MEM_BANK_OWN_ENG n b))

def State.placed (s : State) (n b : Nat) : Bool := s.flag (MEM_BANK_OWN_PLC n b)

def State.ownsPlaced (s : State) (n e b : Nat) : Bool := s.placed n b && s.ownerOf n b == (2, e)

/-- The placement engine gives bank `b` an owner (R337): at once, or when the old owner's item is done with it. -/
def State.giveBank (s : State) (n b owner eng rule : Nat) (atOnce : Bool) : State :=
  let (o, e) := s.ownerOf n b
  if o = owner ∧ e = eng then s
  else
    let v := owner + eng * 16 + s.rd (MEM_BANK_OWN_STEAL n b) * 2 ^ 11
    let s := (s.plcChange).plcRec (n * 256 + 0x80 + b) (owner * 32 + eng) 0x24 rule
    let s := s.modPlc fun p => { p with
      waits := (p.waits.filter fun w => !(w.region == n && w.bank == b)) ++ [⟨n, b, if atOnce then 32 else e, v⟩] }
    s.placeOwners n

/-! ### Snapshot (R325) -/

/-- LOAD of engine `e` over the interval. -/
def State.plcLoad (s : State) (n e : Nat) : Nat :=
  let run := (s.engAt n e).cyc - s.plc.base.get 0 (n * 32 + e)
  let all := max run (s.cyc - s.plc.since.get 0 n)
  if all = 0 then 0 else 256 * run / all

/-- The load of a slot's completions over the interval. -/
def State.plcSlotLoad (s : State) (n k : Nat) : Nat :=
  let all := s.cyc - s.plc.since.get 0 n
  if all = 0 then 0 else 256 * s.plc.slotCyc.get 0 (n * 256 + k) / all

/-- A new interval begins: a commit, or a region restart (R327). -/
def State.plcInterval (s : State) (n : Nat) : State :=
  s.modPlc fun p => { p with
    since := p.since.put 0 n s.cyc
    base := (List.range 25).foldl (fun (t : Tbl Nat) e => t.put 0 (n * 32 + e) (s.engAt n e).cyc) p.base
    slotCyc := p.slotCyc.filter fun x => x.1 / 256 != n }

/-- The region's placement is warm (R341). -/
def State.plcWarm (s : State) (n : Nat) : Bool := decide (4096 ≤ s.rd (PLC_RGN_DISP n))

/-- The spare engine's use: 0 free, 1 standing in, 2 in for good, 3 retired. -/
def State.spareUse (s : State) (n : Nat) : Nat := s.plc.spares.get 0 n

/-- Engines that are failed, retired or under test (R330). -/
def State.unfit (s : State) (n : Nat) : List Nat :=
  (List.range 25).filter fun e =>
    let g := s.engAt n e
    g.failed || g.state == .retired || g.state == .test

/-- The snapshot of region `n`; `hot` from the temperature of its sites. -/
def State.plcSnap (s : State) (n : Nat) (hot : Bool) : PlcSnap :=
  let mine (l : List Nat) : List Nat := (l.filter fun x => x / 32 == n).map fun x => x % 32
  let c := s.sch n
  { region := n
    skipped := ((s.region n).state == .dark) || ((s.region n).state == .loading)
    warm := s.plcWarm n, hot := hot
    lost := mine s.plc.lost, unfit := s.unfit n, asks := mine s.plc.asks, returns := mine s.plc.returns
    mirroring := s.rd (MEM_COPY_STATE n) == 2
    excl := s.rd (PLC_EXCL_MASK n)
    descs := c.descs
    load := (List.range 25).map fun e => (e, s.plcLoad n e)
    slotLoad := c.enabled.map fun k => (k, s.plcSlotLoad n k) }

/-! ### Moves (R330 to R334) -/

/-- What the decision rules carry along: the machine, and the loads as the pass has changed them. -/
structure PlcWork where
  s : State
  load : Tbl Nat
  slotLoad : Tbl Nat
deriving DecidableEq, Repr

/-- A valid destination (R330). -/
def State.plcDest (s : State) (p : PlcSnap) (e : Nat) : Bool :=
  let n := p.region
  !p.unfit.contains e && (s.engAt n e).state != .retired && !bitOf (s.rd (SCH_POOL_ENGMASK n)) e && !bitOf p.excl e &&
    (e != 24 || s.spareUse n == 2)

/-- Slot `k` is given engine `e` (R319, R346); a slot that was not RUNNING is at once out of transit (R340). -/
def State.giveSlot (s : State) (n k e rule : Nat) (whole : Bool) : State :=
  let x := (s.sch n).slot k
  if x.eng = e then s
  else
    let s := (s.plcChange).plcRec (n * 256 + k) e 0x21 rule
    let wait := whole || x.state == .running
    let s := s.modSlot n k fun y => { y with eng := e, transit := wait }
    if whole then s
    else if wait then s.modPlc fun p => { p with transits := p.transits ++ [{ region := n, slots := [k], whole := none }] }
    else s.plcRec (n * 256 + k) e 0x22 0

/-- A whole-engine move from `e` to `d` (R331): its slots, its placed banks, then D and K. -/
def State.wholeMove (s : State) (n e d rule : Nat) (toTest freeSpare : Bool) : State :=
  let ks := (s.sch n).slotsOn e
  let bs := (List.range 48).filter fun b => s.ownsPlaced n e b
  let s := ks.foldl (fun s k => s.giveSlot n k d rule true) s
  let s := bs.foldl (fun s b => s.giveBank n b 2 d 9 false) s
  s.modPlc fun p => { p with transits := p.transits ++ [
    { region := n, slots := ks, whole := some (e, d), fromImage := p.badMem.contains (n * 32 + e)
      toTest := toTest, freeSpare := freeSpare }] }

/-- An engine goes out of service for good: RETIRED, its item closes ABORT (R244, R346). -/
def State.retireEngine (s : State) (n e rule : Nat) : State :=
  let s := s.schEngineLost n e
  let s := s.modEngAt n e fun g => { g with state := .retired, failed := false, outst := [], pend := [], xfer := none }
  s.plcRec (n * 256 + 0xC0 + e) 5 0x28 rule

/-- The spare's use and the engine it serves. -/
def State.setSpare (s : State) (n use e : Nat) : State :=
  s.modPlc fun p => { p with spares := p.spares.put 0 n use, spareFor := p.spareFor.put 0 n e }

/-- The destination with the lowest load, or in a COLD region with the fewest slots; ties to the lower number
(R333). -/
def bestDest (ds : List Nat) (cost : Nat → Nat) : Option Nat :=
  ds.foldl (fun b d => match b with
    | none => some d
    | some x => if cost d < cost x then some d else some x) none

/-- The slots of a lost engine one by one (R333). -/
def PlcWork.spreadSlots (w : PlcWork) (p : PlcSnap) (rule : Nat) : List Nat → Nat → Nat → List (Nat × Nat) →
    PlcWork × Nat × Nat × List (Nat × Nat)
  | [], placed, lost, got => (w, placed, lost, got)
  | k :: rest, placed, lost, got =>
    let n := p.region
    let d := (p.descs.get 0#512 k).toNat
    let ds := (List.range 25).filter fun e => w.s.plcDest p e
    let cost (e : Nat) : Nat := if p.warm then w.load.get 0 e else ((w.s.sch n).slotsOn e).length
    match (if hintMove d = 2 ∨ hintMove d = 3 then none else bestDest ds cost) with
    | none =>
      let s := w.s.giveSlot n k 31 8 false
      let s := ((s.bump (PLC_RGN_STRANDED n)).raise PLC_STATUS_STRANDED).logEv 0x0B01 1 3 (unitRegion n)
        (n * 256 + k + ((w.s.sch n).slot k).eng * 2 ^ 14)
      PlcWork.spreadSlots { w with s := s } p rule rest placed (lost + 1) got
    | some e =>
      let w := { w with
        s := w.s.giveSlot n k e 7 false
        load := w.load.put 0 e (w.load.get 0 e + w.slotLoad.get 0 k) }
      w.spreadSlots p rule rest (placed + 1) lost (got ++ [(k, e)])

/-- An engine lost while no spare is free (R333): its slots, its record, its banks (R337). -/
def PlcWork.spread (w : PlcWork) (p : PlcSnap) (e rule : Nat) : PlcWork :=
  let n := p.region
  let ks := (w.s.sch n).slotsOn e
  let bs := (List.range 48).filter fun b => w.s.ownsPlaced n e b
  let (w, placed, lost, got) := w.spreadSlots p rule ks 0 0 []
  let s := (w.s.raise PLC_STATUS_SPREAD).logEv 0x0B02 1 0 (unitRegion n) (e + min placed 255 * 2 ^ 8 + min lost 255 * 2 ^ 16)
  let s := bs.foldl (fun s b =>
    match got.find? fun x => (dBanks (p.descs.get 0#512 x.1).toNat).contains b with
    | some x => s.giveBank n b 2 x.2 9 true
    | none => s.giveBank n b 4 0 11 true) s
  { w with s := s.degrade }

/-- Rule 3 for one lost engine (R332, R333, R338). -/
def PlcWork.lostEngine (w : PlcWork) (p : PlcSnap) (start : Bool) (e : Nat) : PlcWork :=
  let n := p.region
  let rule := if (w.s.engAt n e).state = .retired then 2 else 1
  let use := w.s.spareUse n
  let pool := bitOf (w.s.rd (SCH_POOL_ENGMASK n)) e
  let clear (s : State) : State := s.modPlc fun q => { q with lost := q.lost.filter fun x => x != n * 32 + e }
  let note (s : State) (typ arg : Nat) : State := if start then s else s.journal (unitId n 2 e) typ arg
  let poolBit (s : State) (en b : Nat) : State :=
    ((s.wr (SCH_POOL_ENGMASK n) (setBits (s.rd (SCH_POOL_ENGMASK n)) en en b)).plcChange).plcRec (n * 256 + 0xC0 + en) b 0x27 rule
  let spareFit := !p.unfit.contains 24
  if e ≠ 24 ∧ ((use = 0 ∧ spareFit) ∨ (start ∧ use = 2 ∧ w.s.plc.spareFor.get 0 n = e)) then
    -- the spare goes in for good
    let s := (clear w.s).setSpare n 2 e
    let s := if pool then poolBit (poolBit s e 0) 24 1 else s.wholeMove n e 24 rule false false
    { w with s := note (s.retireEngine n e rule) 1 (unitId n 2 24) }
  else if e = 24 ∧ use = 0 then
    { w with s := note (((clear w.s).setSpare n 3 0).retireEngine n e rule) 2 0 }
  else
    let s := if e = 24 then w.s.setSpare n 3 0 else w.s
    let s := if pool then (poolBit (clear s) e 0).degrade else clear s
    let w := if pool then { w with s := s } else { w with s := s }.spread p e rule
    { w with s := note (w.s.retireEngine n e rule) 2 0 }

/-! ### Rolling test (R332) -/

/-- Rule 2: the test of `e` has ended, the spare's work moves back; or R35 sends it back (a test abandoned). -/
def PlcWork.returnEngine (w : PlcWork) (p : PlcSnap) (e : Nat) : PlcWork :=
  let n := p.region
  let clear (s : State) : State := s.modPlc fun q => { q with returns := q.returns.filter fun x => x != n * 32 + e }
  if w.s.spareUse n = 1 ∧ w.s.plc.spareFor.get 0 n = e then
    let s := (clear w.s).wholeMove n 24 e 4 false true
    -- the spare is free again at the end of the transit
    { w with s := (s.modEngAt n e fun g => { g with state := .wait }).plcRec (n * 256 + 0xC0 + e) 0 0x28 4 }
  else { w with s := clear w.s }

/-- Rule 4: the rolling test asks to take `e` aside. -/
def PlcWork.standIn (w : PlcWork) (p : PlcSnap) (e : Nat) : PlcWork :=
  let n := p.region
  let clear (s : State) : State := s.modPlc fun q => { q with asks := q.asks.filter fun x => x != n * 32 + e }
  if w.s.spareUse n = 0 ∧ !p.unfit.contains 24 ∧ !p.unfit.contains e then
    { w with s := ((clear w.s).setSpare n 1 e).wholeMove n e 24 3 true false }
  else
    { w with s := ((clear w.s).raise PLC_STATUS_NOSTANDIN).logEv 0x0B04 1 0xA (unitRegion n) (unitId n 2 e) }

/-! ### Overrides (R343) -/

/-- Rule 1: one override of the region. -/
def PlcWork.override (w : PlcWork) (p : PlcSnap) (o : PlcOvr) : PlcWork :=
  let n := p.region
  let pins (f : List Nat → List Nat) (s : State) : State := s.modPlc fun q => { q with pins := f q.pins }
  match o.kind with
  | 0 =>
    if w.s.plcDest p o.eng then
      { w with s := pins (fun l => o.op :: l.filter fun x => x != o.op) (w.s.giveSlot n (o.op % 256) o.eng 10 false) }
    else
      { w with s := (w.s.raise PLC_STATUS_OVRREF).logEv 0x0B05 1 0xA (unitRegion n) (o.op + o.eng * 2 ^ 14 + o.kind * 2 ^ 19) }
  | 1 => { w with s := pins (fun l => l.filter fun x => x != o.op) w.s }
  | 2 => { w with s := pins (fun l => l.filter fun x => x / 256 != n) w.s }
  | _ => w

/-! ### Balance (R323, R335) -/

/-- A group of slots on one engine: its slots, the banks it carries, the banks it names, movable. -/
structure PlcGroup where
  eng : Nat
  slots : List Nat
  car : List Nat
  named : List Nat
  movable : Bool
deriving DecidableEq, Repr

/-- Joins slot `k` to the groups it shares a carried bank with. -/
def State.joinGroup (s : State) (p : PlcSnap) (gs : List PlcGroup) (k : Nat) : List PlcGroup :=
  let n := p.region
  let d := (p.descs.get 0#512 k).toNat
  let e := ((s.sch n).slot k).eng
  let named := (dBanks d).eraseDups
  let car := named.filter fun b => s.ownsPlaced n e b
  let mv := (hintMove d == 0 || (hintMove d == 1 && p.hot)) && !s.plc.pins.contains (n * 256 + k)
  let shares (g : PlcGroup) : Bool := g.eng == e && g.car.any fun b => car.contains b
  let mine := gs.filter shares
  let rest := gs.filter fun g => !shares g
  rest ++ [mine.foldl (fun g h =>
    { g with slots := h.slots ++ g.slots, car := (h.car ++ g.car).eraseDups, named := (h.named ++ g.named).eraseDups
             movable := g.movable && h.movable }) ⟨e, [k], car, named, mv⟩]

/-- The groups of a region from the assignment as it stands. -/
def State.plcGroups (s : State) (p : PlcSnap) : List PlcGroup :=
  ((s.sch p.region).enabled.filter fun k => ((s.sch p.region).slot k).eng != 31).foldl (fun gs k => s.joinGroup p gs k) []

/-- The load of a group. -/
def PlcWork.groupLoad (w : PlcWork) (g : PlcGroup) : Nat := (g.slots.map fun k => w.slotLoad.get 0 k).sum

/-- One pass of the loop of R335; none when it stops. -/
def PlcWork.balanceStep (w : PlcWork) (p : PlcSnap) (limit : Nat) (gs : List PlcGroup) : Option (PlcWork × List PlcGroup) :=
  let mov := gs.filter fun g => g.movable
  let srcs := (List.range 25).filter fun e => mov.any fun g => g.eng == e
  match srcs.foldl (fun (b : Option Nat) e => match b with
      | none => some e
      | some x => if w.load.get 0 x < w.load.get 0 e then some e else some x) none with
  | none => none
  | some se =>
    let want := ((gs.filter fun g => g.eng == se).map fun g => g.named.filter fun b => !g.car.contains b).flatten.eraseDups
    let owns (e : Nat) : Nat := (want.filter fun b => w.s.ownerOf p.region b == (2, e)).length
    let better (a b : Nat) : Bool := decide (w.load.get 0 a < w.load.get 0 b) ||
      (w.load.get 0 a == w.load.get 0 b && (decide (owns b < owns a) || (owns a == owns b && decide (a < b))))
    let ds := (List.range 25).filter fun e => w.s.plcDest p e
    match ds.foldl (fun (b : Option Nat) e => match b with
        | none => some e
        | some x => if better e x then some e else some x) none with
    | none => none
    | some d =>
      let gap := w.load.get 0 se - w.load.get 0 d
      if gap < limit ∨ w.load.get 0 se ≤ w.load.get 0 d then none
      else
        let ok := (mov.filter fun g => g.eng == se && decide (0 < w.groupLoad g) && decide (w.groupLoad g < gap))
        let cost (g : PlcGroup) : Nat := ((2 * w.groupLoad g : Int) - gap).natAbs
        let low (g : PlcGroup) : Nat := g.slots.foldl min 255
        match ok.foldl (fun (b : Option PlcGroup) g => match b with
            | none => some g
            | some x => if cost g < cost x ∨ (cost g = cost x ∧ low g < low x) then some g else some x) none with
        | none => none
        | some g =>
          let rule := if p.hot then 6 else 5
          let s := g.slots.foldl (fun s k => s.giveSlot p.region k d rule false) w.s
          let s := g.car.foldl (fun s b => s.giveBank p.region b 2 d 9 false) s
          let l := w.groupLoad g
          some ({ w with s := s, load := (w.load.put 0 se (w.load.get 0 se - l)).put 0 d (w.load.get 0 d + l) },
            gs.map fun h => if h = g then { h with eng := d } else h)

/-- Rule 5: at most `fuel` moves. -/
def PlcWork.balance (w : PlcWork) (p : PlcSnap) (limit : Nat) : Nat → List PlcGroup → PlcWork
  | 0, _ => w
  | k + 1, gs => match w.balanceStep p limit gs with
    | none => w
    | some (w', gs') => w'.balance p limit k gs'

/-! ### A region's commit (R326, R329) -/

/-- Rule 8: the bank switch of R207. -/
def State.plcBank (s : State) (p : PlcSnap) : State :=
  if !p.mirroring then s
  else
    let n := p.region
    let b := (s.region n).mem.copyBank
    let why := (s.region n).mem.copyReason
    let dst := s.rd (MEM_COPY_DST n)
    ((s.switchBank n).plcChange).plcRec (n * 256 + 0x80 + b) dst 0x25 why

/-- PLC_QDATA of the region after the commit (R350). -/
def State.plcQdata (s : State) (p : PlcSnap) : State :=
  let n := p.region
  let word (e : Nat) : Nat :=
    let ks := (s.sch n).slotsOn e
    min (p.load.get 0 e) 255 * 2 ^ 24 + min ks.length 255 * 2 ^ 16 +
      b2n (ks.any fun k => s.plc.pins.contains (n * 256 + k)) * 2 ^ 12 + b2n (bitOf p.excl e) * 2 ^ 11 +
      b2n (bitOf (s.rd (SCH_POOL_ENGMASK n)) e) * 2 ^ 10 +
      b2n (ks.any fun k => ((s.sch n).slot k).transit) * 2 ^ 9 + b2n p.hot * 2 ^ 8
  s.modPlc fun q => { q with
    qdata := (List.range 25).foldl (fun (t : Tbl Nat) e => t.put 0 (n * 32 + e) (word e)) q.qdata }

/-- The rules of R329 over one region of a point. -/
def State.plcRegion (s : State) (pt : PlcPoint) (p : PlcSnap) : State :=
  if p.skipped then s
  else
    let n := p.region
    let w : PlcWork := ⟨s, p.load, p.slotLoad⟩
    let w := (pt.ovrs.filter fun o => o.op / 256 == n).foldl (fun w o => w.override p o) w
    -- R35: a failure while the spare stands in sends the tested engine back first
    let back := if p.lost ≠ [] ∧ w.s.spareUse n = 1 then [w.s.plc.spareFor.get 0 n] else []
    let w := (p.returns ++ back.filter fun e => !p.returns.contains e).foldl (fun w e => w.returnEngine p e) w
    let w := if back ≠ [] then { w with s := w.s.setSpare n 0 0 } else w
    let w := p.lost.foldl (fun w e => w.lostEngine p false e) w
    let w := p.asks.foldl (fun w e => w.standIn p e) w
    let w := if p.warm ∧ pt.bal then
        w.balance p (if p.hot then pt.imbalHot else pt.imbal) pt.maxMoves (w.s.plcGroups p)
      else w
    ((w.s.plcBank p).plcQdata p).plcInterval n

/-! ### Transit (R331, R340) -/

/-- A transit can end: the source has no open item, or the slot is not RUNNING. -/
def State.transitDone (s : State) (t : Transit) : Bool :=
  match t.whole with
  | some (e, _) => (s.itemOn t.region e).isNone
  | none => t.slots.all fun k => ((s.sch t.region).slot k).state != .running

/-- D and K of engine `e` are copied to `d`, corrected or poisoned (R331); the poisoned physical words counted. -/
def State.copyDK (s : State) (n e d : Nat) : Nat × State :=
  let g := s.engAt n e
  let bad := (g.syn.filter fun x => decide (x.1 < 8192) && (v144Read (g.physLine (x.1 / 4096) (x.1 % 4096)) x.2).2.1).length
  let s := s.modEngAt n d fun h => { h with
    mem := (g.mem.filter fun x => decide (x.1 < 32768)) ++ h.mem.filter fun x => decide (32768 ≤ x.1)
    psn := g.psn
    syn := h.syn.filter fun x => decide (8192 ≤ x.1) }
  (bad, g.syn.foldl (fun s x =>
    if x.1 < 8192 then
      let (y, b, _) := v144Read (g.physLine (x.1 / 4096) (x.1 % 4096)) x.2
      s.modEngAt n d fun h => h.setPhys (x.1 / 4096) (x.1 % 4096) (if b then y ||| (0xF#128 <<< 96) else y) 0
    else s) s)

/-- Ends a transit (R331, R340, R346). `image` gives D and K of an engine as the image has them. -/
def State.endTransit (s : State) (t : Transit) (image : Nat → Nat → Tbl Nat) : State :=
  let n := t.region
  let s := s.modPlc fun p => { p with transits := p.transits.erase t }
  let s := match t.whole with
    | none => s
    | some (e, d) =>
      let (bad, s) := if t.fromImage then
          (0, s.modEngAt n d fun h => { h with
            mem := ((image n e).filter fun x => decide (x.1 < 32768)) ++ h.mem.filter fun x => decide (32768 ≤ x.1)
            psn := ((image n e).filter fun x => decide (65536 ≤ x.1)).map fun x => (x.1 - 65536, true)
            syn := h.syn.filter fun x => decide (8192 ≤ x.1) })
        else s.copyDK n e d
      let s := (s.modSch n fun c => { c with resident := c.resident.del d }).plcRec (n * 256 + 0xC0 + e) d 0x23
        (if t.fromImage then 2 else if 0 < bad then 1 else 0)
      let s := if t.fromImage ∨ 0 < bad then
          (s.raise PLC_STATUS_DKLOST).logEv 0x0B03 1 2 (unitRegion n)
            (e + d * 2 ^ 5 + b2n t.fromImage * 2 ^ 10 + min bad 65535 * 2 ^ 16)
        else s
      let s := if t.toTest then
          (s.modEngAt n e fun g => { g with state := .test }).plcRec (n * 256 + 0xC0 + e) 4 0x28 3
        else s
      if t.freeSpare ∧ s.spareUse n = 1 then s.setSpare n 0 0 else s
  t.slots.foldl (fun s k =>
    (s.modSlot n k fun x => { x with transit := false }).plcRec (n * 256 + k) ((s.sch n).slot k).eng 0x22 0) s

/-- A region going DARK ends its transits; the assignment stands (R340). -/
def State.plcDark (s : State) (n : Nat) : State :=
  let s := s.modPlc fun p => { p with
    transits := p.transits.filter fun t => t.region != n, waits := p.waits.filter fun w => w.region != n }
  s.modSch n fun c => { c with slots := c.slots.map fun x => (x.1, { x.2 with transit := false }) }

/-! ### LOAD and START (R324) -/

/-- The initial assignment of a region: HOME of each slot, the owner of each placed bank. -/
def State.plcAssign (s : State) (n : Nat) : State :=
  let c := s.sch n
  let s := c.enabled.foldl (fun s k => s.modSlot n k fun x => { x with eng := hintHome (c.desc k) }) s
  (List.range 48).foldl (fun s b =>
    if !s.placed n b then s
    else match c.enabled.find? fun k => (dBanks (c.desc k)).contains b with
    | some k => (s.wr (MEM_BANK_OWN_OWNER n b) 2).wr (MEM_BANK_OWN_ENG n b) (hintHome (c.desc k))
    | none => (s.wr (MEM_BANK_OWN_OWNER n b) 4).wr (MEM_BANK_OWN_ENG n b) 0) s

/-- The health pass of START in region `n`: rules 3 and 6 against the journal's health. -/
def State.plcStart (s : State) (n : Nat) : State :=
  let p := s.plcSnap n false
  let w := p.lost.foldl (fun w e => w.lostEngine p true e) (⟨s, p.load, p.slotLoad⟩ : PlcWork)
  w.s.plcInterval n

end Sys2Proof.Machine
end

