-- ==== Sys2Proof/Machine/NetFlip.lean ====
section
/-! DEFINITION. Routes and epochs of the network (12): link and router failures, marking flips, the route pass of
placement (11 R339). -/

namespace Sys2Proof.Machine

/-! ### Routes as paths (R360, R361) -/

/-- The links a route uses: the router each leaves and its direction. -/
def routePath : Nat → Nat → Nat → List (Nat × Nat)
  | 0, _, _ => []
  | k + 1, r, route =>
    let h := route % 8
    if h < 4 then (r, h) :: routePath k (hopTo r h) (route / 8) else []

/-- Hops of one ring from `a` to `b`: how many the shorter way, and whether that is the + way. -/
def ringHops (a b : Nat) : Nat × Bool :=
  let d := (b + 8 - a) % 8
  if d ≤ 4 then (d, true) else (8 - d, false)

/-- A route of hop codes, filled with END. -/
def packRoute (hops : List Nat) : Nat :=
  (List.range 8).foldl (fun v k => v + (hops.getD k 7) * 8 ^ k) 0

/-- The alternative routes of R361 from router `a` to router `b`. -/
def buildRoute (a b : Nat) (alt : Bool) : Nat :=
  let (nx, px) := ringHops (a % 8) (b % 8)
  let (ny, py) := ringHops (a / 8) (b / 8)
  let cols (n : Nat) (p : Bool) : List Nat := List.replicate n (if p then 0 else 1)
  let rows (n : Nat) (p : Bool) : List Nat := List.replicate n (if p then 2 else 3)
  if !alt then packRoute (cols nx px ++ rows ny py)
  else if ny = 0 ∧ nx ≠ 0 then packRoute (cols (8 - nx) (!px))
  else if nx = 0 ∧ ny ≠ 0 then packRoute (rows (8 - ny) (!py))
  else packRoute (rows ny py ++ cols nx px)

/-! ### Discards (R374) -/

/-- Router `r` discards a packet it cannot pass on: a stream packet is answered with a drop notice, anything else ends
at its source's timeout. -/
def State.routerDiscard (s : State) (r : Nat) (p : Packet) : State :=
  if p.typ = 2 then s.sendDrop r p 3 else s

/-! ### Link and router failures (R380, R381) -/

/-- The link leaving router `r` in direction `d` is dead. -/
def State.linkDead (s : State) (r d : Nat) : Bool := s.flag (RTR_LINK_DEAD r d)

/-- Router `r` becomes faulted: isolated at once, what it held is lost, its stream packets await the ledger. -/
def State.routerFault (s : State) (r reason : Nat) : State :=
  if s.routerFaulted r then s
  else
    let inR (k : Nat) : Bool := k / 64 == r
    let held := ((s.net.queues.filter fun q => inR q.1).map fun q => q.2).flatten
    let str := held.filter fun p => p.typ == 2
    let reqs := held.filter fun p => p.typ == 0 || p.typ == 3
    let s := (s.setMask64 NOC_RFAULT_LO_MASK NOC_RFAULT_HI_MASK r true).raise NOC_STATUS_RTRFAULT
    let s := s.modNet fun t => { t with
      queues := t.queues.filter fun q => !inR q.1
      ledger := t.ledger ++ str.map fun p => ⟨r, p⟩ }
    s.logEv 0x0C04 2 3 (unitId r 4 0) (reason + min reqs.length 255 * 2 ^ 8 + min str.length 255 * 2 ^ 16)

/-- A link becomes dead; with all four links that leave it dead a router is faulted. -/
def State.killLink (s : State) (r d reason : Nat) : State :=
  if s.linkDead r d then s
  else
    let s := ((s.raise (RTR_LINK_DEAD r d)).raise NOC_STATUS_LINKDOWN).logEv 0x0C03 1 3 (unitId r 7 d) reason
    if (List.range 4).all fun k => s.linkDead r k then s.routerFault r 3 else s

/-- A correction on a wire of the link is counted; a wire that reaches WIRELIM is failed (R368, R380). -/
def State.wireCorrected (s : State) (r d g w : Nat) : State :=
  let link := r * 4 + d
  let key := (link * 27 + g) * 32 + w
  let n := s.net.wires.get 0 key + 1
  let s := (s.bump (RTR_LINK_CORR r d)).modNet fun t => { t with wires := t.wires.put 0 key n }
  if n ≠ max 1 (s.rd NOC_CFG2_WIRELIM) then s
  else if s.net.repaired.get false (link * 27 + g) || s.net.failing.any fun k => k / 32 == link * 27 + g then
    s.modNet fun t => { t with second := t.second.put false (link * 27 + g) true }
  else
    let s := ((s.wr (RTR_LINK_GROUP r d) g).wr (RTR_LINK_WIRE r d) w).wr (RTR_LINK_PENDREP r d) 1
    s.modNet fun t => { t with failing := t.failing ++ [key] }

/-- At a flip each failed wire's group steers to its spare (R380). -/
def State.repairWires (s : State) : State :=
  let s := s.net.failing.foldl (fun s key =>
    let g := key / 32 % 27
    let w := key % 32
    let link := key / 32 / 27
    let r := link / 4
    let d := link % 4
    let s := s.modNet fun t => { t with repaired := t.repaired.put false (key / 32) true }
    let s := (s.wr (RTR_LINK_PENDREP r d) 0).wr (RTR_LINK_REPAIRED r d) 1
    (s.logEv 0x0C02 1 0 (unitId r 7 d) (g + w * 32)).journal (unitId r 7 d) 6 (g + w * 32)) s
  s.modNet fun t => { t with failing := [], wires := [] }

/-! ### Flips (R375 to R377) -/

/-- NI `i` copies its active bank into the inactive one. -/
def Ni.copyBank (n : Ni) (e : Nat) : Ni :=
  let move {α : Type} (t : Tbl α) (w : Nat) : Tbl α :=
    let act := t.filter fun x => x.1 / w == e
    let new := act.map fun x => ((1 - e) * w + x.1 % w, x.2)
    if e = 0 then act ++ new else new ++ act
  { n with routes := move n.routes 256, sel := move n.sel 128 }

/-- Step 1 of a flip: every NI copies its tables. -/
def State.startFlip (s : State) (marking writing : Bool) : State :=
  let e := b2n s.epoch
  let outs := s.rd NOC_ROUT_LO_MASK + s.rd NOC_ROUT_HI_MASK * 2 ^ 32
  (s.wr NOC_STATUS_FLIPPEND 1).modNet fun t => { t with
    nis := t.nis.map fun x => (x.1, x.2.copyBank e)
    flip := some { writing := writing, marking := marking, start := s.cyc, outs := outs } }

/-- Sets or clears the UNAVAIL mark of destination `n` in every NI's inactive bank. -/
def State.writeMark (s : State) (n : Nat) (v : Bool) : State :=
  let e := 1 - b2n s.epoch
  s.modNet fun t => { t with
    nis := (List.range 80).foldl (fun (m : Tbl Ni) i =>
      let x := m.get {} i
      let old := x.sel.get 0 (e * 128 + n)
      m.set i { x with sel := x.sel.put 0 (e * 128 + n) (if v then setBit old 1 else clearBit old 1) }) t.nis }

/-- A power-down or a wake asks for a marking flip; one in progress is joined (R376). -/
def State.requestMark (s : State) (n : Nat) (v : Bool) : State :=
  let s := if s.net.flip.isSome then s else s.startFlip true false
  let s := s.writeMark n v
  s.modNet fun t => { t with flip := t.flip.map fun f => { f with marks := f.marks ++ [(n, v)] } }

/-- Flits of an epoch are in flight. -/
def State.inFlight (s : State) (e : Bool) : Bool :=
  s.net.queues.any fun q => !s.routerFaulted (q.1 / 64) && q.2.any fun p => p.epoch == e

/-- The flip itself (R375 steps 3 to 5, R377, R380). -/
def State.flipNow (s : State) (f : Flip) : State :=
  let new := !s.epoch
  let s := ((s.wr NOC_STATUS_EPOCH (b2n new)).wr NOC_STATUS_FLIPPEND 0).count NOC_FLIPS_FLIPS
  let s := if f.marking then s.count NOC_FLIPS_MARKING else s
  let s := (s.wr NOC_ROUT_LO_MASK (f.outs % 2 ^ 32)).wr NOC_ROUT_HI_MASK (f.outs / 2 ^ 32)
  let s := f.marks.foldl (fun s m => s.setMask64 NOC_UNAV_LO_MASK NOC_UNAV_HI_MASK m.1 m.2) s
  let s := s.modNet fun t => { t with
    flip := none
    nis := (List.range 80).foldl (fun (m : Tbl Ni) i =>
      let x := m.get {} i
      let b := bitOf f.outs (niRouter i)
      if x.bypass = b then m else m.set i { x with bypass := b }) t.nis }
  s.repairWires.logEv 0x0C01 0 0 (unitBase 0xF)
    (b2n new + b2n f.marking * 2 + min (s.cyc - f.start) 65535 * 2 ^ 16)

/-! ### The route pass (11 R339, R382) -/

/-- A route from router `r` is blocked: it uses a dead link, or meets a router that is out. -/
def PlcNet.blocked (p : PlcNet) (r route : Nat) : Bool :=
  let path := routePath 8 r route
  let out (x : Nat) : Bool := bitOf (p.faulted ||| p.asked) x
  path.any fun l => p.dead.contains (l.1 * 4 + l.2) || out l.1 || out (hopTo l.1 l.2)

/-- A route uses a link at or above the load limit. -/
def PlcNet.isHot (p : PlcNet) (r route : Nat) : Bool :=
  (routePath 8 r route).any fun l => decide (p.hot ≤ p.load.get 0 (l.1 * 4 + l.2))

/-- The entry of a rebuilt pair: from `a` to NI `j` at router `b`, its bypass or its own (R382). -/
def rebuiltEntry (a b j : Nat) (byp alt : Bool) : Nat :=
  2 ^ 31 + ((if j < 64 then 0 else 2) + b2n byp) * 2 ^ 24 + buildRoute a b alt

/-- The pass over one pair: source NI `i`, destination `j`. `k`: changes made under rule 3 so far. -/
def State.routePair (s : State) (p : PlcNet) (k : Nat) (i j : Nat) : Nat × State :=
  let e := 1 - b2n s.epoch
  let out (x : Nat) : Bool := bitOf (p.faulted ||| p.asked) x
  let was (x : Nat) : Bool := s.mask64 NOC_ROUT_LO_MASK NOC_ROUT_HI_MASK x
  let n := s.ni i
  let entry (n : Ni) (alt : Bool) : Nat := n.routes.get 0 (e * 256 + b2n alt * 128 + j)
  if !entryValid (entry n false) && !entryValid (entry n true) then (k, s)
  else
    let ri := niRouter i
    let rj := niRouter j
    let a := if out ri then niBypass i else ri
    let b := if out rj then niBypass j else rj
    let s := if out ri || was ri || out rj || was rj then
        s.modNi i fun n =>
          let t := n.routes.put 0 (e * 256 + j) (rebuiltEntry a b j (out rj) false)
          { n with routes := t.put 0 (e * 256 + 128 + j) (rebuiltEntry a b j (out rj) true) }
      else s
    let n := s.ni i
    let sel := n.sel.get 0 (e * 128 + j)
    let cur := bitOf sel 0
    let pref := n.pref.get 0 j != 0
    let bad (alt : Bool) : Bool := out a || out b || !entryValid (entry n alt) || p.blocked a (entryRoute (entry n alt))
    let hot (alt : Bool) : Bool := p.isHot a (entryRoute (entry n alt))
    let unreach := bad pref && bad (!pref)
    let (new, aux, k) :=
      if unreach then (cur, 1, k)
      else if bad pref then (!pref, 1, k)
      else if p.warm && p.rbal && hot pref && !bad (!pref) && !hot (!pref) then
        if cur = !pref then (cur, 2, k) else if k < p.maxRoute then (!pref, 2, k + 1) else (cur, 2, k)
      else if cur = pref ∨ bad cur then (pref, 3, k)
      else if k < p.maxRoute then (pref, 3, k + 1) else (cur, 3, k)
    let marked := (s.mask64 NOC_UNAV_LO_MASK NOC_UNAV_HI_MASK j && decide (j < 64) &&
        !(s.net.flip.any fun f => f.marks.contains (j, false))) ||
      (s.net.flip.any fun f => f.marks.contains (j, true))
    let wasUn := bitOf sel 1 && !marked
    let s := s.modNi i fun n => { n with sel := n.sel.put 0 (e * 128 + j) (b2n new + b2n (unreach || marked) * 2) }
    let s := if new ≠ cur ∨ unreach ≠ wasUn then
        (s.plcChange).plcRec (i * 128 + j) (b2n new + b2n unreach * 2) 0x26 aux
      else s
    (k, if unreach && !wasUn then (s.raise NOC_STATUS_UNREACH).logEv 0x0C08 1 3 (unitBase 0xF) ((i * 128 + j) % 2 ^ 14) else s)

/-- The route pass of a chip point: every pair in order of its ID. -/
def State.routePass (s : State) (p : PlcNet) : State :=
  -- links whose repaired group has a second failed wire are taken out (R380)
  let s := (s.net.second.filter fun x => x.2).foldl (fun s x => s.killLink (x.1 / 27 / 4) (x.1 / 27 % 4) 3) s
  let pairs := (List.range 80).flatMap fun i => (List.range 80).map fun j => (i, j)
  let s := (pairs.foldl (fun (t : Nat × State) x => t.2.routePair p t.1 x.1 x.2) (0, s)).2
  let outs := p.faulted ||| p.asked
  s.modNet fun t => { t with flip := t.flip.map fun f => { f with writing := false, marking := false, outs := outs } }

/-- What a chip point's snapshot holds of the network. -/
def State.plcNet (s : State) : PlcNet :=
  let links := (List.range 256).filter fun l =>
    s.linkDead (l / 4) (l % 4) || (List.range 27).any fun g => s.net.second.get false (l * 27 + g)
  let span := s.cyc - s.plc.netSince
  { faulted := s.rd NOC_RFAULT_LO_MASK + s.rd NOC_RFAULT_HI_MASK * 2 ^ 32
    asked := s.plc.rtrAsks.foldl (fun m r => setBit m r) 0
    dead := links
    load := (List.range 256).map fun l =>
      (l, if span = 0 then 0
        else 256 * ((s.rd (RTR_FLIT_COUNT (l / 4) (l % 4)) + 2 ^ 32 - s.plc.netBase.get 0 l) % 2 ^ 32) / span)
    warm := s.regions.all fun r => r.2.state == .dark || s.plcWarm r.1
    rbal := s.flag PLC_CFG_RBAL
    maxRoute := s.rd PLC_CFG_MAXROUTE
    hot := s.rd PLC_CFG2_LINKHOT }

/-- The network's load interval begins again. -/
def State.plcNetInterval (s : State) : State :=
  s.modPlc fun p => { p with
    netSince := s.cyc
    netBase := (List.range 256).map fun l => (l, s.rd (RTR_FLIT_COUNT (l / 4) (l % 4))) }

end Sys2Proof.Machine
end

