-- ==== Sys2Proof/Machine/Crc.lean ====
section
/-! DEFINITION. Cyclic redundancy checks: the algorithms of 22 R606 and the CRC-8 of 24 R654. -/

namespace Sys2Proof.Machine

/-- The parameters of a CRC (R606). -/
structure CrcAlg where
  width : Nat
  poly : Nat
  init : Nat
  refl : Bool
  xorOut : Nat
deriving DecidableEq, Repr

/-- One bit into the register. -/
def CrcAlg.bit (a : CrcAlg) (r : Nat) (b : Bool) : Nat :=
  let top := bitOf r (a.width - 1) != b
  let r := r * 2 % 2 ^ a.width
  if top then r ^^^ a.poly else r

/-- One byte into the register, its low bit first where reflected. -/
def CrcAlg.byte (a : CrcAlg) (r v : Nat) : Nat :=
  (List.range 8).foldl (fun r i => a.bit r (bitOf v (if a.refl then i else 7 - i))) r

/-- The low `w` bits of `v` in reverse order. -/
def reflect (w v : Nat) : Nat := (List.range w).foldl (fun x i => x + b2n (bitOf v i) * 2 ^ (w - 1 - i)) 0

/-- The check value over bytes. -/
def CrcAlg.value (a : CrcAlg) (bytes : List Nat) : Nat :=
  let r := bytes.foldl a.byte a.init
  (if a.refl then reflect a.width r else r) ^^^ a.xorOut

def crc32c : CrcAlg := ⟨32, 0x1EDC6F41, 0xFFFFFFFF, true, 0xFFFFFFFF⟩
def crc32ieee : CrcAlg := ⟨32, 0x04C11DB7, 0xFFFFFFFF, true, 0xFFFFFFFF⟩
def crc16ccitt : CrcAlg := ⟨16, 0x1021, 0xFFFF, false, 0⟩
def crc64ecma : CrcAlg := ⟨64, 0x42F0E1EBA9EA3693, 0, false, 0⟩
def crc8 : CrcAlg := ⟨8, 0x07, 0, false, 0⟩

/-- The algorithm of CRC_Un_CFG.ALG. -/
def crcAlg (k : Nat) : CrcAlg :=
  match k with
  | 0 => crc32c
  | 1 => crc32ieee
  | 2 => crc16ccitt
  | _ => crc64ecma

/-- The bytes of a number, lowest first. -/
def bytesOf (n v : Nat) : List Nat := (List.range n).map fun i => v / 256 ^ i % 256

/-- The number that bytes spell, lowest first. -/
def ofBytes (bs : List Nat) : Nat := bs.foldr (fun b v => b + 256 * v) 0

end Sys2Proof.Machine
end

