-- ==== Sys2Proof/Machine/MbxOps.lean ====
section
/-! DEFINITION. The check-value units and the result mailbox (22): what a delivered stream packet does to them, and how
slots close. -/

namespace Sys2Proof.Machine

/-- The payload words of a stream packet: as many as ADDR[23:20] says (12 R358). -/
def Packet.words (p : Packet) : List Line :=
  (List.range (bitsOf p.addr 23 20 + 1)).map fun i => p.data.getD i 0#128

/-- A word of a packet carries poison. -/
def Packet.poisoned (p : Packet) : Bool :=
  (List.range (bitsOf p.addr 23 20 + 1)).any fun i => bitOf p.psn i

/-! ### Check-value units (R606 to R612) -/

/-- Check unit `k`. -/
def State.crcUnit (s : State) (k : Nat) : CrcUnit := s.crcs.get {} k

/-- Changes it. -/
def State.modCrc (s : State) (k : Nat) (f : CrcUnit → CrcUnit) : State :=
  { s with crcs := s.crcs.set k (f (s.crcs.get {} k)) }

/-- The unit identifiers of the check units and the mailbox (R620). -/
def unitCrc : Nat := unitBase 0xC
def unitMbx : Nat := unitBase 0xD

/-- Latches the result of a message (R609, R610). -/
def State.crcLatch (s : State) (k : Nat) : State :=
  let u := s.crcUnit k
  let a := crcAlg (s.rd (CRC_U_CFG_ALG k))
  let n := a.width / 8
  let bs := u.bytes.map fun b => b.toNat
  let check := s.flag (CRC_U_CFG_MODE k)
  let short := check && decide (bs.length < n)
  -- the value latched with SHORT is not given: free (log entry 9)
  let (f1, s) := if short then s.takeFree else (0, s)
  let (f2, s) := if short then s.takeFree else (0, s)
  let v := if !check then a.value bs
    else if short then ((Config.freeWord f1).toNat + (Config.freeWord f2).toNat * 2 ^ 32) % 2 ^ a.width
    else a.value (bs.take (bs.length - n))
  let expect := ofBytes (bs.drop (bs.length - n))
  let verdict := if u.poison then 4 else if short then 5 else if !check then 1 else if v = expect then 2 else 3
  let s := if s.flag (CRC_U_STAT_NEW k) then s.raise (CRC_U_STAT_OVER k) else s
  let s := ((s.wr (CRC_U_RES_LO_VALUE k) v).wr (CRC_U_RES_HI_VALUE k) (v / 2 ^ 32)).wr (CRC_U_STAT_VERDICT k) verdict
  let s := (s.raise (CRC_U_STAT_NEW k)).count (CRC_U_STAT_MSGS k)
  let s := s.modCrc k fun u => { u with bytes := [], pkts := 0, poison := false }
  if 3 ≤ verdict then
    s.logEvLimited (unitId k 0xF 0xC) 0x1601 1 (if verdict = 4 then 2 else 0) unitCrc (k + verdict * 16)
  else s

/-- Judges the alive counter of a packet (R611). -/
def State.crcAlive (s : State) (k : Nat) (p : Packet) : State :=
  if !s.flag (CRC_U_CFG_AEN k) then s
  else
    let w := if s.flag (CRC_U_CFG_AW k) then 16 else 8
    let a := (p.data.getD 0 0#128).toNat / 256 ^ s.rd (CRC_U_CFG_AOFS k) % 2 ^ w
    let prev := (s.crcUnit k).prev
    let s := s.modCrc k fun u => { u with prev := some a }
    match prev with
    | none => s
    | some q =>
      let d := (a + 2 ^ w - q) % 2 ^ w
      if d = 1 then s
      else if d = 0 then s.bump (CRC_U_ALIVE_REPEAT k)
      else if d ≤ s.rd (CRC_U_MSG_GAP k) + 1 then s.bump (CRC_U_ALIVE_LOST k) (d - 1)
      else
        (s.bump (CRC_U_ALIVE_AERR k)).logEvLimited (unitId k 0xF 0xC) 0x1602 1 0 unitCrc (k + q * 2 ^ 16 + a * 2 ^ 32)

/-- A packet of unit `k`'s tapped stream (R608, R609). -/
def State.crcTake (s : State) (k : Nat) (p : Packet) : State :=
  let per := s.rd (CRC_U_MSG_MSGPKT k)
  if p.opc = 0x21 then (if per = 0 then s.crcLatch k else s)
  else
    let s := s.crcAlive k p
    let bs : List (BitVec 8) := p.words.flatMap fun w => (bytesOf 16 w.toNat).map fun b => BitVec.ofNat 8 b
    let s := s.modCrc k fun u => { u with bytes := u.bytes ++ bs, pkts := u.pkts + 1, poison := u.poison || p.poisoned }
    if per ≠ 0 ∧ per ≤ (s.crcUnit k).pkts then s.crcLatch k else s

/-- A stream packet that NI `i` has accepted for delivery passes the units that tap it (R607). -/
def State.crcTap (s : State) (i : Nat) (p : Packet) : State :=
  (List.range 16).foldl (fun s k =>
    if s.flag (CRC_U_CFG_EN k) ∧ s.rd (CRC_U_CFG_NI k) = i ∧ s.rd (CRC_U_CFG_PORT k) = bitsOf p.addr 2 0 then s.crcTake k p
    else s) s

/-- A write of CRC_Un_CTL (R612). -/
def State.crcClear (s : State) (k v : Nat) : State :=
  let s := { s with rsp := ⟨0, 0⟩ }
  if bitOf v 0 then
    let s := ((s.wr (CRC_U_ALIVE_AERR k) 0).wr (CRC_U_ALIVE_REPEAT k) 0).wr (CRC_U_ALIVE_LOST k) 0
    ((s.wr (CRC_U_STAT_NEW k) 0).wr (CRC_U_STAT_OVER k) 0).modCrc k fun u =>
      { u with bytes := [], pkts := 0, poison := false, prev := none }
  else s

/-- The words of RES_LO, RES_HI, STAT and ALIVE as they stand. -/
def State.crcWords (s : State) (k : Nat) : Nat × Nat × Nat × Nat :=
  (s.rd (CRC_U_RES_LO_VALUE k), s.rd (CRC_U_RES_HI_VALUE k),
    s.rd (CRC_U_STAT_VERDICT k) * 2 ^ 29 + s.rd (CRC_U_STAT_NEW k) * 2 ^ 28 + s.rd (CRC_U_STAT_OVER k) * 2 ^ 27 +
      s.rd (CRC_U_STAT_MSGS k),
    s.rd (CRC_U_ALIVE_AERR k) * 2 ^ 16 + s.rd (CRC_U_ALIVE_REPEAT k) * 2 ^ 8 + s.rd (CRC_U_ALIVE_LOST k))

/-- A read of CRC_Un_RES_LO copies all four (R622). -/
def State.crcReadLo (s : State) (k : Nat) : State :=
  let w := s.crcWords k
  { (s.modCrc k fun u => { u with copy := some w }) with rsp := ⟨0, w.1⟩ }

/-! ### Mailbox (R613 to R619) -/

/-- Changes the mailbox. -/
def State.modMbx (s : State) (f : Mbx → Mbx) : State := { s with mbx := f s.mbx }

/-- Slot `k`. -/
def State.slotAt (s : State) (k : Nat) : MbxSlot := s.mbx.slots.get {} k

/-- Changes slot `k`; an EMPTY slot is not listed. -/
def State.putSlot (s : State) (k : Nat) (x : MbxSlot) : State :=
  s.modMbx fun m => { m with slots := if x.state = 0 then m.slots.del k else m.slots.set k x }

/-- Slots in a state. -/
def Mbx.inState (m : Mbx) (st : Nat) : Nat := (m.slots.filter fun x => x.2.state == st).length

/-- The first EMPTY slot after the one last allocated, ascending and wrapping (R614). -/
def Mbx.firstEmpty (m : Mbx) : Option Nat :=
  ((List.range 4096).map fun i => (m.last + 1 + i) % 4096).find? fun k => (m.slots.get {} k).state == 0

/-- A FILLING slot becomes READY (R615, R616). -/
def State.slotReady (s : State) (k : Nat) : State :=
  ((s.putSlot k { s.slotAt k with state := 2, time := s.nowNs }).count MBX_CNT_POSTED).modMbx fun m =>
    { m with opens := m.opens.filter fun o => o.slot != some k }

/-- A FILLING slot closes ABORT, of length 0 with a zeroed payload (R615, 02 R69). -/
def State.slotAbort (s : State) (k : Nat) : State :=
  (s.putSlot k { s.slotAt k with status := 8, length := 0, words := [] }).slotReady k

/-- FILLING slots that `sel` names close ABORT. -/
def State.mbxClose (s : State) (sel : MbxSlot → Bool) : State :=
  (s.mbx.slots.filter fun x => x.2.state == 1 && sel x.2).foldl (fun s x => s.slotAbort x.1) s

/-- Words of a result reach slot `k`: poison goes into its status (R615). -/
def State.slotWords (s : State) (k : Nat) (ws : List Line) (poison : Bool) (o : MbxOpen) : State :=
  let x := s.slotAt k
  let s := s.putSlot k { x with words := x.words ++ ws, status := if poison then worse x.status 2 else x.status }
  let left := o.left - ws.length
  let s := s.modMbx fun m => { m with
    opens := (m.opens.filter fun q => !(q.src == o.src && q.port == o.port)) ++ [{ o with left := left }] }
  if left = 0 then s.slotReady k else s

/-- The words of a result that is discarded pass by. -/
def State.mbxSkip (s : State) (o : MbxOpen) (n : Nat) : State :=
  s.modMbx fun m => { m with
    opens := (m.opens.filter fun q => !(q.src == o.src && q.port == o.port)) ++
      (if n < o.left then [{ o with left := o.left - n }] else []) }

/-- Words past a result's end in its last packet (R613). -/
def State.mbxExcess (s : State) (n : Nat) : State := if n = 0 then s else s.bump MBX_CNT2_EXCESS n

/-- The first packet of a result has to wait: 16 slots are FILLING (R614). -/
def State.mbxWaits (s : State) (p : Packet) : Bool :=
  p.opc == 0x20 && decide (16 ≤ s.mbx.inState 1) &&
    !(s.mbx.opens.any fun o => o.src == p.src && o.port == bitsOf p.addr 10 8) &&
    s.mbx.firstEmpty.isSome

/-- The mailbox takes an SDATA packet (R613 to R615). -/
def State.mbxTake (s : State) (p : Packet) : State :=
  let port := bitsOf p.addr 10 8
  let ws := p.words
  match s.mbx.opens.find? fun o => o.src == p.src && o.port == port with
  | some o =>
    match o.slot with
    | none => s.mbxSkip o ws.length
    | some k => (s.slotWords k (ws.take o.left) p.poisoned o).mbxExcess (ws.length - o.left)
  | none =>
    let h := (ws.getD 0 0#128).toNat
    let len := bitsOf h 8 0
    let need := (len + 15) / 16
    let rest := ws.drop 1
    if 448 < len ∨ bitsOf h 15 9 ≠ 0 ∨ bitsOf h 127 36 ≠ 0 then
      ((s.bump MBX_CNT2_BADLEN).raise MBX_STATUS_BADLEN).mbxSkip ⟨p.src, port, none, need⟩ rest.length
    else match s.mbx.firstEmpty with
    | none =>
      let s := ((s.bump MBX_CNT_OVERRUN).raise MBX_STATUS_OVERRUN).modMbx fun m => { m with lost := min 255 (m.lost + 1) }
      let s := s.logEvLimited unitMbx 0x1603 1 0xA unitMbx (p.src + port * 2 ^ 8)
      s.mbxSkip ⟨p.src, port, none, need⟩ rest.length
    | some k =>
      let x : MbxSlot := {
        state := 1, lost := s.mbx.lost, seq := s.rd MBX_SEQ_SEQ, alive := bitsOf h 31 16, length := len
        status := bitsOf h 35 32, src := p.src, port := port, stamp := p.stamp }
      let s := ((s.putSlot k x).count MBX_SEQ_SEQ).modMbx fun m => { m with last := k, lost := 0 }
      (s.slotWords k (rest.take need) p.poisoned ⟨p.src, port, some k, need⟩).mbxExcess (rest.length - need)

/-- The 64 header bytes of a slot without STATE, REPEAT and CRC (R616). -/
def MbxSlot.header (x : MbxSlot) : List Nat :=
  [0, x.lost % 256] ++ bytesOf 2 x.seq ++ bytesOf 2 x.alive ++ bytesOf 2 x.length ++ [x.status % 16, 0] ++
    bytesOf 2 (x.src % 128 + x.port % 8 * 256) ++ List.replicate 4 0 ++ bytesOf 7 x.stamp ++ [0] ++ bytesOf 8 x.time ++
    List.replicate 28 0

/-- The payload bytes of a slot. -/
def MbxSlot.payload (x : MbxSlot) : List Nat :=
  ((x.words.flatMap fun w => bytesOf 16 w.toNat).take x.length)

/-- Word `w` of a slot but word 0, as R616 and R617 give it by state. -/
def MbxSlot.word (x : MbxSlot) (w : Nat) : Nat :=
  if x.state < 2 then (if w = 2 ∧ x.state = 1 then (x.src % 128 + x.port % 8 * 256) * 2 ^ 16 else 0)
  else
    let crc := crc32c.value (x.header ++ x.payload)
    let h := x.header.set 9 (min 255 x.repeats)
    ofBytes (((h ++ bytesOf 4 crc ++ x.payload).drop (4 * w)).take 4)

/-- A slot read: word 0 (R617). -/
def State.slotRead (s : State) (k : Nat) : State :=
  let x := s.slotAt k
  let head (st : Nat) : Nat := st + x.lost % 256 * 2 ^ 8 + x.seq % 65536 * 2 ^ 16
  match x.state with
  | 0 => { s with rsp := ⟨0, 0⟩ }
  | 1 => { s with rsp := ⟨0, 1 + x.seq % 65536 * 2 ^ 16⟩ }
  | 2 => { (s.putSlot k { x with state := 3 }) with rsp := ⟨0, head 2⟩ }
  | _ => { (s.putSlot k { x with repeats := min 255 (x.repeats + 1) }) with rsp := ⟨0, head 3⟩ }

/-- A write of MBX_ACK (R618). -/
def State.mbxAck (s : State) (v : Nat) : State :=
  let k := bitsOf v 11 0
  let seq := bitsOf v 27 12
  let s := { s with rsp := ⟨0, 0⟩ }
  if !bitOf v 31 then s
  else
    let x := s.slotAt k
    if 2 ≤ x.state ∧ x.seq = seq then s.putSlot k {}
    else
      ((s.raise MBX_STATUS_BADACK).bump MBX_CNT2_BADACK).logEvLimited unitMbx 0x1605 1 0xA unitMbx (k + seq * 2 ^ 12)

/-- MBX_NEXT: the READY slot with the oldest SEQ, counted back from MBX_SEQ (R619). -/
def State.mbxNext (s : State) : Nat :=
  let age (x : MbxSlot) : Nat := (s.rd MBX_SEQ_SEQ + 65536 - x.seq - 1) % 65536
  match (s.mbx.slots.filter fun x => x.2.state == 2).foldl (fun (b : Option (Nat × MbxSlot)) x => match b with
      | none => some x
      | some y => if age y.2 < age x.2 then some x else some y) none with
  | none => 0
  | some (k, x) => 2 ^ 31 + x.seq % 65536 * 2 ^ 12 + k

end Sys2Proof.Machine
end

