-- ==== Sys2Proof/Machine/LaneOps.lean ====
section
/-! DEFINITION. The serial lanes' shared operations (15): lane states, substitution, receive packets, transmit FIFOs. -/

namespace Sys2Proof.Machine

/-- Lane `k` (quad × 4 + lane). -/
def State.lane (s : State) (k : Nat) : Lane := s.lanes.lanes.get {} k

/-- Changes it. -/
def State.modLane (s : State) (k : Nat) (f : Lane → Lane) : State :=
  { s with lanes := { s.lanes with lanes := s.lanes.lanes.set k (f (s.lanes.lanes.get {} k)) } }

/-- Changes the lanes' common state. -/
def State.modLanes (s : State) (f : Lanes → Lanes) : State := { s with lanes := f s.lanes }

/-- The I/O interface of lane `k` (R445). -/
def laneNi (k : Nat) : Nat := 76 + k / 16

/-- The slice number within the quad that serves lane `k` (R444). -/
def State.laneSlice (s : State) (k : Nat) : Nat := if (s.lane k).spare then 4 else k % 4

/-- The unit identifier of slice `sl` of quad `q`. -/
def sliceUnit (q sl : Nat) : Nat := unitId 0 8 (q * 5 + sl)

/-- A field of lane `k`. -/
def laneFld (f : Nat → Nat → Fld) (k : Nat) : Fld := f (k / 4) (k % 4)

def State.lanePcs (s : State) (k : Nat) : Nat := s.rd (laneFld LNE_LCFG_PCS k)

/-- LNE_STATE (R457, R461). -/
def State.logLane (s : State) (k : Nat) (high : Bool) : State :=
  let st := (s.lane k).state
  s.logEvLimited (unitId k 0xF 8) 0x0F02 1 (if st = 3 then 0 else 3) (sliceUnit (k / 4) (s.laneSlice k))
    (k / 4 + k % 4 * 16 + st * 2 ^ 6 + b2n high * 2 ^ 9)

/-- Adaptation starts again from PRESET (R456). -/
def Lane.coldCtle (l : Lane) (preset : Nat) : Lane := { l with code := preset, cold := true, codes := [] }

/-- A lane leaves UP: its transmit FIFO is discarded and counted, a scan ends (R453, R458). -/
def State.laneLeaves (s : State) (k : Nat) : State :=
  let l := s.lane k
  let s := if l.tx = [] then s else s.bump (laneFld LNE_LCNT_FIFO_TXDISC k) l.tx.length
  let s := if l.scan then (s.raise (laneFld LNE_ESCAN_DONE k)).raise (laneFld LNE_ESCAN_ABORT k) else s
  s.modLane k fun l => { l with tx := [], inFrame := false, scan := false, elastic := [] }

/-- A lane takes a state; entries to and exits from UP are logged, and an exit discards what R453 says (R457). -/
def State.laneTo (s : State) (k st : Nat) (high : Bool := false) : State :=
  let old := (s.lane k).state
  if old = st then s
  else
    let s := if old = 3 then s.laneLeaves k else s
    let s := s.modLane k fun l =>
      let l := { l with state := st }
      if st = 2 then l.coldCtle (s.rd (laneFld LNE_LCTLE_PRESET k))
      -- the elastic buffer starts at the fill it is held near (log entry 20)
      else if st = 3 then { l with elastic := List.replicate 32 ⟨0#128, true⟩, sinceFill := 0 }
      else l
    if old = 3 ∨ st = 3 then s.logLane k high else s

/-- The output step: lanes with a PCS leave OFF (R457); one whose slice the journal names RETIRED is DOWN. -/
def State.startLanes (s : State) : State :=
  (List.range 48).foldl (fun s k =>
    if s.lanePcs k = 0 then s else if (s.lane k).lost then s.laneTo k 4 else s.laneTo k (if s.flag (LNE_QSTAT_LOCK (k / 4)) then 2 else 1)) s

/-! ### Spare slices (R459, R460) -/

/-- A slice request is raised once for a lane and reason. -/
def State.askSlice (s : State) (k reason : Nat) : State :=
  if s.lanes.reqs.contains (k, reason) then s
  else s.modLanes fun t => { t with reqs := t.reqs ++ [(k, reason)] }

/-- Lane `k`'s slice is failing (R459): a request, or the lane is DOWN for good. -/
def State.sliceFails (s : State) (k : Nat) : State :=
  let q := k / 4
  if (s.lane k).lost then s
  else if s.rd (LNE_QSTAT_SPUSE q) = 2 ∨ s.lanes.noSpare.contains q then
    let s := (s.laneTo k 4).modLane k fun l => { l with lost := true }
    (s.logEv 0x0F04 2 3 (sliceUnit q (s.laneSlice k)) (q + k % 4 * 16)).degrade
  else s.askSlice k 1

/-- Steps 1 of R460 for a lane that is to be served by the spare (`toSpare`) or by its own slice. -/
def State.substitute (s : State) (k : Nat) (toSpare : Bool) (reason : Nat) : State :=
  let q := k / 4
  let old := s.laneSlice k
  let new := if toSpare then 4 else k % 4
  let s := s.laneTo k 5
  let s := s.modLane k fun l => { l with next := some toSpare }
  let aux := if reason = 1 then 1 else reason + 1
  let s := (s.plcChange).plcRec (q * 5 + new) (q * 5 + old) 0x2A aux
  s.logEv 0x0F03 1 0 (sliceUnit q new) (q + k % 4 * 16 + old * 2 ^ 6 + new * 2 ^ 9 + reason * 2 ^ 12)

/-- A substitution request is taken at a commit with PARAM[2] (R459; R35 while the spare stands in). -/
def State.takeSlice (s : State) (k reason : Nat) : State :=
  let q := k / 4
  let s := s.modLanes fun t => { t with reqs := t.reqs.erase (k, reason) }
  let use := s.rd (LNE_QSTAT_SPUSE q)
  let held := q * 4 + s.rd (LNE_QSTAT_SPLANE q)
  let give (s : State) (u : Nat) : State := (s.wr (LNE_QSTAT_SPUSE q) u).wr (LNE_QSTAT_SPLANE q) (k % 4)
  match reason with
  | 1 =>
    if use = 2 ∨ s.lanes.noSpare.contains q then s.sliceFails k
    else
      let s := if use = 1 ∧ held ≠ k then s.substitute held false 3 else s
      let s := if use = 1 ∧ held = k then s else s.substitute k true 1
      (give s 2).journal (sliceUnit q (k % 4)) 1 (sliceUnit q 4)
  | 2 => if use = 0 ∧ !s.lanes.noSpare.contains q then give (s.substitute k true 2) 1 else s
  | _ => if use = 1 ∧ held = k then (s.substitute k false 3).wr (LNE_QSTAT_SPUSE q) 0 else s

/-! ### Receive (R451, R454) -/

/-- Lane words of lane `k` that wait at its interface for the network. -/
def State.laneWaiting (s : State) (k : Nat) : Nat :=
  let i := laneNi k
  let mine (p : Packet) : Bool := p.src == i && bitsOf p.addr 10 8 == k % 4 && bitsOf p.addr 17 12 == k / 4
  ([false, true].map fun c =>
    ((s.net.queues.get [] (queueKey (s.niAt i) (niInPort i (s.ni i).bypass) 2 c)).filter mine).map fun p => p.data.length).flatten.sum

/-- The packet being filled is closed and sent (R451). -/
def State.laneClose (s : State) (k : Nat) : State :=
  let l := s.lane k
  if l.rx = [] then s
  else
    let i := laneNi k
    let dst := s.rd (laneFld LNE_LRX_DST k)
    let addr := s.rd (laneFld LNE_LRX_PORT k) + k % 4 * 2 ^ 8 + k / 4 * 2 ^ 12 + (l.rx.length - 1) * 2 ^ 20
    let s := s.modLane k fun l => { l with rx := [] }
    match s.lookup i dst with
    | .error st => s.dropArrives i addr st
    | .ok (alt, route, dport) =>
      s.inject i {
        typ := 2, opc := 0x20, src := i, tid := 0, key := s.rd (laneFld LNE_LRX_KEY k), addr := addr, stamp := l.rxStamp
        urg := s.rd (laneFld LNE_LRX_URG k), route := route, dport := dport, alt := alt, epoch := s.epoch
        len := flitsLess1 l.rx.length, data := l.rx }

/-- A word of PCS 2 or 3 holds a terminate character. -/
def hasTerminate (w : Line) : Bool :=
  (List.range 8).any fun i => bitOf w.toNat (64 + i) && bitsOf w.toNat (8 * i + 7) (8 * i) == 0xFD

/-- A word leaves the elastic buffer for the packet being filled. -/
def State.laneFill (s : State) (k : Nat) (w : Line) : State :=
  if !s.flag (laneFld LNE_LRX_VALID k) then s
  else if 256 ≤ s.laneWaiting k + (s.lane k).rx.length then s.bump (laneFld LNE_LCNT_FIFO_RXOVF k)
  else
    let l := s.lane k
    let stamp := if l.rx = [] then s.stampNow else l.rxStamp
    let s := s.modLane k fun l => { l with rx := l.rx ++ [w], rxStamp := stamp }
    let pcs := s.lanePcs k
    if s.rd (laneFld LNE_LPKT_WORDS k) < (s.lane k).rx.length ∨ ((pcs = 2 ∨ pcs = 3) ∧ hasTerminate w) then s.laneClose k
    else s

/-- An entry arrives at the elastic buffer (R454). -/
def State.laneArrive (s : State) (k : Nat) (w : Line) (filler bad : Bool) : State :=
  let pcs := s.lanePcs k
  let s := if bad then s.bump (laneFld LNE_LCNT_ERR_BLKERR k) else s
  if pcs = 6 then s
  else
    let fill := (s.lane k).elastic.length
    let eth := pcs = 2 ∨ pcs = 3
    let err (w : Line) : Line := w ||| (1#128 <<< 72)
    let push (s : State) (es : List LaneEntry) : State := s.modLane k fun l => { l with elastic := l.elastic ++ es }
    if filler ∧ fill ≤ 24 then (push s [⟨w, true⟩, ⟨w, true⟩]).count (laneFld LNE_LCNT_RM_INS k)
    else if filler ∧ 40 ≤ fill then s.count (laneFld LNE_LCNT_RM_DEL k)
    else if 64 ≤ fill then
      -- the newest entry is discarded; the word now last in PCS 2 and 3 is delivered with ERR
      let s := s.bump (laneFld LNE_LCNT_RM_SLIP k)
      if eth then s.modLane k fun l => { l with
          elastic := l.elastic.dropLast ++ (l.elastic.getLast?.map fun e => { e with word := err e.word }).toList }
      else s
    else push s [⟨if bad ∧ (eth ∨ pcs = 4) then err w else w, filler⟩]

/-- One cycle of the quad's clock: the oldest entry leaves; an empty buffer inserts a filler at once (R454). -/
def State.laneClock (s : State) (k : Nat) : State :=
  let pcs := s.lanePcs k
  if pcs = 6 then s
  else match (s.lane k).elastic with
  | [] =>
    let s := s.bump (laneFld LNE_LCNT_RM_SLIP k)
    if pcs = 2 ∨ pcs = 3 then s.laneFill k (1#128 <<< 72) else s
  | e :: rest => (s.modLane k fun l => { l with elastic := rest }).laneFill k e.word

/-! ### Transmit (R452, R453) -/

/-- The lane whose LNE_LTXSRC matches a packet at interface `i`. -/
def State.laneFor (s : State) (i : Nat) (p : Packet) : Option Nat :=
  ((List.range 16).map fun j => (i - 76) * 16 + j).find? fun k =>
    s.flag (laneFld LNE_LTXSRC_VALID k) && s.rd (laneFld LNE_LTXSRC_SRC k) == p.src &&
      s.rd (laneFld LNE_LTXSRC_SPORT k) == bitsOf p.addr 10 8

/-- The lane's transmit FIFO has no room for the packet yet. -/
def State.laneFull (s : State) (k : Nat) (p : Packet) : Bool := decide (256 < (s.lane k).tx.length + p.words.length)

/-- The transmit FIFO takes a packet whole. -/
def State.laneTake (s : State) (k : Nat) (p : Packet) : State :=
  let ws := (List.range p.words.length).map fun i => (p.words.getD i 0#128, bitOf p.psn i)
  s.modLane k fun l => { l with tx := l.tx ++ ws }

/-- A filler goes on the line. -/
def State.laneFiller (s : State) (k : Nat) : State :=
  s.modLane k fun l => { l with out := none, sinceFill := 0 }

/-- The error block of R453: eight error characters under control flags. -/
def errorBlock : Line := 0x1FF_FEFE_FEFE_FEFE_FEFE#128

/-- The transmitter of an UP lane sends its next block or character (R453, R455). -/
def State.laneSend (s : State) (k : Nat) : State :=
  let pcs := s.lanePcs k
  let eth := pcs = 2 ∨ pcs = 3
  let l := s.lane k
  if (pcs = 4 ∨ pcs = 5) ∧ s.rd (laneFld LNE_LPKT_FILLINT k) ≤ l.sinceFill then s.laneFiller k
  else match l.tx with
  | [] =>
    if eth ∧ l.inFrame then
      (s.bump (laneFld LNE_LCNT_FIFO_TXUND k)).modLane k fun l => { l with out := some errorBlock, inFrame := false }
    else s.laneFiller k
  | (w, psn) :: rest =>
    let s := if psn then s.bump (laneFld LNE_LCNT_FIFO_TXPSN k) else s
    let frame := if hasTerminate w then false else l.inFrame || bitOf w.toNat 73
    s.modLane k fun l => { l with
      tx := rest, sinceFill := l.sinceFill + 1, inFrame := eth && frame
      out := some (if psn ∧ eth then errorBlock else w) }

end Sys2Proof.Machine
end

