-- ==== Sys2Proof/Machine/BistOps.lean ====
section
/-! DEFINITION. Shared operations of built-in self-test and the rolling test (18, 21): unit identifiers taken apart,
result records, tests that end abandoned, the column registers. -/

namespace Sys2Proof.Machine

/-- Changes the scrubber. -/
def State.modScr (s : State) (f : Scrub → Scrub) : State := { s with scrub := f s.scrub }

/-- What the scrubber keeps of region `n`. -/
def State.scrRgn (s : State) (n : Nat) : ScrubRgn := s.scrub.rgns.get {} n

/-- Changes it. -/
def State.modScrRgn (s : State) (n : Nat) (f : ScrubRgn → ScrubRgn) : State :=
  s.modScr fun c => { c with rgns := c.rgns.set n (f (c.rgns.get {} n)) }

/-- Changes the BIST controller. -/
def State.modBist (s : State) (f : Bist → Bist) : State := { s with bist := f s.bist }

/-! The parts of a unit identifier (01 R30). -/
def uRegion (u : Nat) : Nat := bitsOf u 23 18
def uKind (u : Nat) : Nat := bitsOf u 17 14
def uIndex (u : Nat) : Nat := bitsOf u 13 0

/-- The unit of fabric column `m`: its block (m, 0) (R541). -/
def columnUnit (n m : Nat) : Nat := unitId n 0 (m * 48)

/-- The spare column goes in for good for column `m` (R536, R541). -/
def State.columnForGood (s : State) (n m : Nat) : State :=
  let s := ((s.wr (SCR_RTEST_STATE n) 0).wr (SCR_RTEST_SPUSE n) 2).wr (SCR_RTEST_SPCOL n) m
  let s := s.modScrRgn n fun c => { c with
    copyWhy := 0, goodNext := if c.goodNext = some m then none else c.goodNext }
  (s.logEv 0x1204 1 0 (columnUnit n m) 3).journal (columnUnit n m) 1 (columnUnit n 48)

/-- The BIST code of R594 for a unit. -/
def testCode (u : Nat) : Nat :=
  match uKind u with
  | 2 => 2
  | 3 => 3
  | 4 => 4
  | 8 => 5
  | _ => 1

/-- Writes a result record into the ring and counts an overwritten one that was not read (R602). -/
def State.bstRecord (s : State) (unit outcome test step detail : Nat) : State :=
  let k := s.rd BST_RES_HEAD
  let rec_ : Line := BitVec.ofNat 128
    (detail % 2 ^ 32 + step % 2 ^ 8 * 2 ^ 32 + test * 2 ^ 40 + outcome * 2 ^ 45 + unit * 2 ^ 48 + s.stampNow * 2 ^ 72)
  let s := if s.bist.unread.contains k then s.bump BST_RES_LOST else s
  let s := s.modBist fun b => { b with
    recs := b.recs.set k rec_
    unread := k :: b.unread.filter fun x => x != k }
  s.wr BST_RES_HEAD (k + 1)

/-- A record of the rolling test: 1 start, 2 pass, 3 fail, 4 abandoned, 5 refused (18 R541). -/
def State.scrTest (s : State) (unit what : Nat) : State :=
  s.logEv 0x1205 (if what = 2 then 0 else 1) (if what = 5 then 0xA else 0) unit what

/-- The test of `unit` is under way. -/
def State.testing (s : State) (unit : Nat) : Bool := s.bist.runs.any fun r => r.unit == unit

/-- Takes a test off the list of those under way. -/
def State.endRunOf (s : State) (unit code : Nat) : State :=
  s.modBist fun b => { b with runs := b.runs.erase ⟨unit, code⟩ }

/-- The column stand-in ends and column m serves again (R534 step 5, R35). -/
def State.columnBack (s : State) (n : Nat) : State :=
  let was := s.rd (SCR_RTEST_SPUSE n)
  let m := s.rd (SCR_RTEST_COLUMN n)
  let s := (s.wr (SCR_RTEST_STATE n) 0).wr (SCR_RTEST_SPUSE n) (if was = 1 then 0 else was)
  if was = 1 then s.logEv 0x1204 1 0 (columnUnit n m) 2 else s

/-- The bank of region `n` whose work a spare bank does under the rolling test. -/
def State.standInBank (s : State) (n : Nat) : Option Nat :=
  (List.range 48).find? fun b =>
    let p := s.rd (MEM_BANK_OWN_PHYS n b)
    decide (48 ≤ p) && (s.region n).mem.spareUse.get 0 p == 1

/-- A unit goes back into service: at once where nothing has moved, else by the return of R208, R332, R382, R460 or
R534. -/
def State.unitReturns (s : State) (unit : Nat) : State :=
  let n := uRegion unit
  let i := uIndex unit
  match uKind unit with
  | 0 => if i / 48 < 48 then s.columnBack n else s
  | 2 =>
    let s := s.modPlc fun p => { p with asks := p.asks.filter fun x => x != n * 32 + i }
    if i = 24 ∧ s.spareUse n = 0 then s.modEngAt n 24 fun g => { g with state := .wait }
    else if s.spareUse n = 1 ∧ s.plc.spareFor.get 0 n = i then
      s.modPlc fun p => { p with returns := p.returns ++ [n * 32 + i] }
    else s
  | 3 =>
    if s.rd (MEM_COPY_STATE n) ≠ 0 ∧ (s.region n).mem.copyReason = 2 ∧ s.rd (MEM_COPY_SRC n) = i then
      let d := s.rd (MEM_COPY_DST n)
      ((s.wr (MEM_COPY_STATE n) 0).modMem n fun m => { m with spareUse := m.spareUse.set d 0 }).nextBankCopy n
    else if 48 ≤ i then s
    else match s.standInBank n with
    | some b => s.startBankCopy n b 3 i
    | none => s
  | 4 => s.modPlc fun p => { p with rtrAsks := p.rtrAsks.filter fun r => r != n }
  | 8 =>
    let q := i / 5
    let k := q * 4 + i % 5
    let s := s.modLanes fun t => { t with reqs := t.reqs.filter fun r => r != (k, 2) }
    if i % 5 < 4 ∧ s.rd (LNE_QSTAT_SPUSE q) = 1 ∧ s.rd (LNE_QSTAT_SPLANE q) = i % 5 then s.askSlice k 3 else s
  | _ => s

/-- What a test that has run leaves behind (R598): the unit's own contents are gone. -/
def State.testLeaves (s : State) (unit : Nat) : State :=
  let n := uRegion unit
  match uKind unit with
  | 2 =>
    (s.modEngAt n (uIndex unit) fun g => { g.cleared g.state with mem := [], psn := [], syn := [] }).modSch n
      fun c => { c with resident := c.resident.del (uIndex unit) }
  | 3 => s.clearBank n (uIndex unit)
  | _ => s

/-- A test ends as abandoned (R599). -/
def State.abandon (s : State) (r : BistRun) : State :=
  let s := (s.endRunOf r.unit r.code).raise BST_STATUS_ABANDONED
  let s := s.bstRecord r.unit 3 r.code 0 0
  let s := s.logEv 0x1502 1 8 r.unit (r.code * 2 ^ 40)
  (s.scrTest r.unit 4).unitReturns r.unit

/-- Tests of units taken aside that `sel` names end as abandoned. -/
def State.abandonAll (s : State) (sel : BistRun → Bool) : State :=
  (s.bist.runs.filter fun r => decide (r.code ≤ 5) && sel r).foldl (fun s r => s.abandon r) s

end Sys2Proof.Machine
end

