-- ==== Sys2Proof/Machine/RegTable.lean ====
section
/-! DEFINITION. The register tables of the spec as data: for each register its address, its instances
and its fields with their access codes (00 R10), whether the image gives the reset value (R13) and whether the field
takes effect only when written during LOAD (R662). The lists are cut by unit. -/

namespace Sys2Proof.Machine

/-- The registers with prefix SYS. -/
def regTableSYS : List RegDesc := [
  /- SYS_STATE -/ ⟨0x10, [], [⟨8, 8, .wo, false, false⟩, ⟨7, 7, .ro, false, false⟩, ⟨6, 6, .ro, false, false⟩, ⟨2, 0, .ro, false, false⟩]⟩,
  /- SYS_SAFE_CAUSE -/ ⟨0x14, [], [⟨11, 1, .w1c, false, false⟩]⟩,
  /- SYS_LOG_STATUS -/ ⟨0x18, [], [⟨25, 16, .ro, false, false⟩, ⟨15, 0, .rw, false, false⟩]⟩,
  /- SYS_LOG_RD -/ ⟨0x1c, [], [⟨9, 0, .rw, false, false⟩]⟩,
  /- SYS_LOG_WD0 -/ ⟨0x40, [], [⟨31, 0, .rw, false, false⟩]⟩,
  /- SYS_LOG_WD1 -/ ⟨0x44, [], [⟨31, 0, .rw, false, false⟩]⟩,
  /- SYS_LOG_WUNIT -/ ⟨0x48, [], [⟨23, 0, .rw, false, false⟩]⟩,
  /- SYS_LOG_WCMD -/ ⟨0x4c, [], [⟨31, 31, .wo, false, false⟩, ⟨30, 30, .w1c, false, false⟩, ⟨23, 20, .wo, false, false⟩, ⟨19, 16, .wo, false, false⟩, ⟨15, 0, .wo, false, false⟩]⟩,
  /- SYS_CFG -/ ⟨0x30, [], [⟨0, 0, .rw, true, true⟩]⟩,
  /- SYS_WDOG -/ ⟨0x34, [], [⟨31, 24, .ro, false, false⟩, ⟨15, 0, .rw, true, true⟩]⟩,
  /- SYS_WDKICK -/ ⟨0x38, [], [⟨15, 0, .wo, false, false⟩]⟩,
  /- SYS_BADWR -/ ⟨0x20, [], [⟨31, 0, .ro, false, false⟩]⟩,
  /- SYS_BADWR_ADDR -/ ⟨0x24, [], [⟨31, 0, .ro, false, false⟩]⟩,
  /- SYS_SVCERR -/ ⟨0x28, [], [⟨31, 24, .rw, false, false⟩, ⟨23, 16, .rw, false, false⟩, ⟨15, 8, .rw, false, false⟩, ⟨7, 0, .rw, false, false⟩]⟩,
  /- SYS_SVCCFG -/ ⟨0x2c, [], [⟨0, 0, .rw, true, true⟩]⟩,
  /- SYS_SVCWk_BASE -/ ⟨0x100, [(32, 0x8)], [⟨31, 2, .rw, true, true⟩]⟩,
  /- SYS_SVCWk_CFG -/ ⟨0x104, [(32, 0x8)], [⟨31, 31, .rw, true, true⟩, ⟨30, 30, .rw, true, true⟩, ⟨4, 0, .rw, true, true⟩]⟩]

/-- The registers with prefix RGN. -/
def regTableRGN : List RegDesc := [
  /- RGN_WDOG -/ ⟨0x1000010, [(64, 0x40000)], [⟨31, 31, .rw, true, true⟩, ⟨30, 24, .rws, false, false⟩, ⟨15, 0, .rw, true, true⟩]⟩,
  /- RGN_WDKICK -/ ⟨0x1000014, [(64, 0x40000)], [⟨15, 0, .wo, false, false⟩]⟩,
  /- RGN_FAB_CFG -/ ⟨0x1000100, [(64, 0x40000)], [⟨0, 0, .rw, true, false⟩]⟩,
  /- RGN_LIFT_CNT -/ ⟨0x1000104, [(64, 0x40000)], [⟨31, 0, .rws, false, false⟩]⟩,
  /- RGN_LIFT_LAST -/ ⟨0x1000108, [(64, 0x40000)], [⟨31, 27, .rws, false, false⟩, ⟨26, 24, .rws, false, false⟩, ⟨23, 12, .rws, false, false⟩, ⟨11, 11, .rws, false, false⟩, ⟨10, 10, .rws, false, false⟩, ⟨9, 9, .rws, false, false⟩, ⟨0, 0, .rws, false, false⟩]⟩,
  /- RGN_PORT_STAT -/ ⟨0x100010c, [(64, 0x40000)], [⟨2, 2, .w1c, false, false⟩, ⟨1, 1, .w1c, false, false⟩, ⟨0, 0, .w1c, false, false⟩]⟩,
  /- RGN_STATE -/ ⟨0x1000000, [(64, 0x40000)], [⟨13, 8, .ro, false, false⟩, ⟨2, 0, .ro, false, false⟩]⟩]

/-- The registers with prefix PTB. -/
def regTablePTB : List RegDesc := [
  /- PTB_CTRL -/ ⟨0x60000, [], [⟨10, 8, .rw, true, true⟩, ⟨6, 4, .rw, true, true⟩]⟩,
  /- PTB_STATUS -/ ⟨0x60004, [], [⟨11, 11, .w1c, false, false⟩, ⟨10, 10, .w1c, false, false⟩, ⟨9, 9, .ro, false, false⟩, ⟨6, 4, .ro, false, false⟩, ⟨2, 2, .ro, false, false⟩, ⟨1, 1, .ro, false, false⟩, ⟨0, 0, .ro, false, false⟩]⟩,
  /- PTB_POS_LO -/ ⟨0x60010, [], [⟨31, 0, .ro, false, false⟩]⟩,
  /- PTB_POS_HI -/ ⟨0x60014, [], [⟨31, 0, .ro, false, false⟩]⟩,
  /- PTB_POS_FRAC -/ ⟨0x60018, [], [⟨15, 0, .ro, false, false⟩]⟩,
  /- PTB_VEL -/ ⟨0x6001c, [], [⟨31, 0, .ro, false, false⟩]⟩,
  /- PTB_PRED -/ ⟨0x60020, [], [⟨13, 0, .rw, true, false⟩]⟩,
  /- PTB_INTERP -/ ⟨0x60024, [], [⟨18, 16, .rw, true, true⟩, ⟨15, 0, .rw, true, true⟩]⟩,
  /- PTB_BUS -/ ⟨0x60028, [], [⟨6, 0, .rw, true, true⟩]⟩,
  /- PTB_INIT_LO -/ ⟨0x60030, [], [⟨31, 0, .rw, true, true⟩]⟩,
  /- PTB_INIT_HI -/ ⟨0x60034, [], [⟨31, 0, .rw, true, true⟩]⟩,
  /- PTB_SIM_VEL -/ ⟨0x60038, [], [⟨31, 0, .rw, true, false⟩]⟩,
  /- PTB_ENCk_CFG -/ ⟨0x60100, [(4, 0x40)], [⟨7, 7, .rw, true, true⟩, ⟨6, 5, .rw, true, true⟩, ⟨4, 4, .rw, true, true⟩, ⟨3, 3, .rw, true, true⟩, ⟨2, 0, .rw, true, true⟩]⟩,
  /- PTB_ENCk_FILT -/ ⟨0x60104, [(4, 0x40)], [⟨10, 8, .rw, true, true⟩, ⟨7, 0, .rw, true, true⟩]⟩,
  /- PTB_ENCk_CNT_LO -/ ⟨0x60108, [(4, 0x40)], [⟨31, 0, .ro, false, false⟩]⟩,
  /- PTB_ENCk_CNT_HI -/ ⟨0x6010c, [(4, 0x40)], [⟨31, 0, .ro, false, false⟩]⟩,
  /- PTB_ENCk_ZLAT_LO -/ ⟨0x60110, [(4, 0x40)], [⟨31, 0, .ro, false, false⟩]⟩,
  /- PTB_ENCk_ZLAT_HI -/ ⟨0x60114, [(4, 0x40)], [⟨31, 0, .ro, false, false⟩]⟩,
  /- PTB_ENCk_ZCHK -/ ⟨0x60118, [(4, 0x40)], [⟨31, 0, .rw, true, true⟩]⟩,
  /- PTB_ENCk_ERR -/ ⟨0x6011c, [(4, 0x40)], [⟨31, 16, .ro, false, false⟩, ⟨15, 8, .ro, false, false⟩, ⟨7, 0, .ro, false, false⟩]⟩,
  /- PTB_ENCk_STAT -/ ⟨0x60120, [(4, 0x40)], [⟨4, 4, .wo, false, false⟩, ⟨3, 3, .ro, false, false⟩, ⟨2, 2, .ro, false, false⟩, ⟨1, 1, .ro, false, false⟩, ⟨0, 0, .ro, false, false⟩]⟩]

/-- The registers with prefix EVT. -/
def regTableEVT : List RegDesc := [
  /- EVT_CTRL -/ ⟨0x60800, [], [⟨14, 8, .rw, true, true⟩, ⟨0, 0, .ro, false, false⟩]⟩,
  /- EVT_STATUS -/ ⟨0x60804, [], [⟨5, 5, .w1c, false, false⟩, ⟨4, 4, .w1c, false, false⟩, ⟨3, 3, .w1c, false, false⟩, ⟨2, 2, .w1c, false, false⟩, ⟨1, 1, .w1c, false, false⟩, ⟨0, 0, .w1c, false, false⟩]⟩,
  /- EVT_CNT_FIRED -/ ⟨0x60810, [], [⟨31, 0, .ro, false, false⟩]⟩,
  /- EVT_CNT_LATE -/ ⟨0x60814, [], [⟨31, 0, .ro, false, false⟩]⟩,
  /- EVT_CNT_MISSED -/ ⟨0x60818, [], [⟨31, 0, .ro, false, false⟩]⟩,
  /- EVT_PEND -/ ⟨0x6081c, [], [⟨8, 0, .ro, false, false⟩]⟩,
  /- EVT_IRQ_POP -/ ⟨0x60830, [], [⟨31, 31, .ro, false, false⟩, ⟨30, 30, .ro, false, false⟩, ⟨14, 0, .ro, false, false⟩]⟩,
  /- EVT_IRQ_PARAM -/ ⟨0x60834, [], [⟨31, 0, .ro, false, false⟩]⟩,
  /- EVT_IRQ_STAMP_LO -/ ⟨0x60838, [], [⟨31, 0, .ro, false, false⟩]⟩,
  /- EVT_IRQ_STAMP_HI -/ ⟨0x6083c, [], [⟨31, 0, .ro, false, false⟩]⟩,
  /- EVT_EVO_LEVEL -/ ⟨0x60840, [], [⟨31, 0, .ro, false, false⟩]⟩,
  /- EVT_EVOn_CFG -/ ⟨0x60900, [(32, 0x4)], [⟨30, 24, .rw, true, true⟩, ⟨20, 20, .rw, true, true⟩, ⟨19, 0, .rw, true, true⟩]⟩]

/-- The registers with prefix CTX. -/
def regTableCTX : List RegDesc := [
  /- CTX_CFG -/ ⟨0x1004000, [(64, 0x40000)], [⟨31, 24, .rws, true, false⟩, ⟨23, 8, .rws, true, false⟩, ⟨5, 5, .rws, true, false⟩, ⟨4, 4, .rws, true, false⟩, ⟨2, 0, .rws, true, false⟩]⟩,
  /- CTX_STATUS -/ ⟨0x1004004, [(64, 0x40000)], [⟨26, 26, .w1c, false, false⟩, ⟨25, 25, .w1c, false, false⟩, ⟨24, 24, .w1c, false, false⟩, ⟨23, 16, .ro, false, false⟩, ⟨15, 8, .ro, true, false⟩, ⟨7, 7, .ro, false, false⟩, ⟨6, 4, .ro, false, false⟩, ⟨3, 3, .ro, false, false⟩, ⟨2, 0, .ro, false, false⟩]⟩,
  /- CTX_REQ -/ ⟨0x1004008, [(64, 0x40000)], [⟨31, 31, .wo, false, false⟩, ⟨2, 0, .wo, false, false⟩]⟩,
  /- CTX_SWCNT -/ ⟨0x100400c, [(64, 0x40000)], [⟨31, 0, .rws, false, false⟩]⟩,
  /- CTX_REFCNT -/ ⟨0x1004010, [(64, 0x40000)], [⟨31, 16, .rws, false, false⟩, ⟨15, 0, .rws, false, false⟩]⟩,
  /- CTX_DISCARD -/ ⟨0x1004014, [(64, 0x40000)], [⟨31, 16, .rws, false, false⟩, ⟨15, 0, .rws, false, false⟩]⟩,
  /- CTX_LAST -/ ⟨0x1004018, [(64, 0x40000)], [⟨31, 30, .ro, false, false⟩, ⟨29, 27, .ro, false, false⟩, ⟨26, 24, .ro, false, false⟩]⟩,
  /- CTX_LAST_STAMP_LO -/ ⟨0x100401c, [(64, 0x40000)], [⟨31, 0, .ro, false, false⟩]⟩,
  /- CTX_LAST_STAMP_HI -/ ⟨0x1004020, [(64, 0x40000)], [⟨31, 0, .ro, false, false⟩]⟩,
  /- CTX_PUSE_LOk -/ ⟨0x1004040, [(64, 0x40000), (8, 0x8)], [⟨31, 0, .ro, true, false⟩]⟩,
  /- CTX_PUSE_HIk -/ ⟨0x1004044, [(64, 0x40000), (8, 0x8)], [⟨23, 16, .ro, true, false⟩, ⟨15, 0, .ro, true, false⟩]⟩]

/-- The registers with prefix MEM. -/
def regTableMEM : List RegDesc := [
  /- MEM_CTRL -/ ⟨0x100c000, [(64, 0x40000)], [⟨31, 16, .rws, true, false⟩, ⟨0, 0, .rws, true, false⟩]⟩,
  /- MEM_STATUS -/ ⟨0x100c004, [(64, 0x40000)], [⟨3, 3, .w1c, false, false⟩, ⟨2, 2, .w1c, false, false⟩, ⟨1, 1, .w1c, false, false⟩, ⟨0, 0, .w1c, false, false⟩]⟩,
  /- MEM_COPY -/ ⟨0x100c010, [(64, 0x40000)], [⟨31, 30, .ro, false, false⟩, ⟨29, 24, .ro, false, false⟩, ⟨23, 18, .ro, false, false⟩, ⟨14, 0, .ro, false, false⟩]⟩,
  /- MEM_ROWCOPY -/ ⟨0x100c014, [(64, 0x40000)], [⟨31, 31, .ro, false, false⟩, ⟨30, 28, .ro, false, false⟩, ⟨27, 22, .ro, false, false⟩, ⟨21, 12, .ro, false, false⟩, ⟨4, 0, .ro, false, false⟩]⟩,
  /- MEM_CNT_OWNER -/ ⟨0x100c020, [(64, 0x40000)], [⟨31, 0, .rws, false, false⟩]⟩,
  /- MEM_CNT_STEAL -/ ⟨0x100c024, [(64, 0x40000)], [⟨31, 0, .rws, false, false⟩]⟩,
  /- MEM_CNT_HO -/ ⟨0x100c028, [(64, 0x40000)], [⟨31, 16, .rws, false, false⟩, ⟨15, 0, .rws, false, false⟩]⟩,
  /- MEM_BANK_OWNb -/ ⟨0x100c100, [(64, 0x40000), (48, 0x4)], [⟨31, 26, .ro, true, false⟩, ⟨13, 13, .ro, false, false⟩, ⟨12, 12, .ro, true, false⟩, ⟨11, 11, .rws, true, false⟩, ⟨8, 4, .rws, true, false⟩, ⟨2, 0, .rws, true, false⟩]⟩,
  /- MEM_ROWUSEp -/ ⟨0x100c200, [(64, 0x40000), (50, 0x4)], [⟨25, 16, .ro, false, false⟩, ⟨4, 0, .ro, true, false⟩]⟩]

/-- The registers with prefix ENG. -/
def regTableENG : List RegDesc := [
  /- ENG_CTRL -/ ⟨0x1010000, [(64, 0x40000), (25, 0x800)], [⟨23, 16, .rw, true, false⟩, ⟨0, 0, .rw, false, false⟩]⟩,
  /- ENG_STAT -/ ⟨0x1010004, [(64, 0x40000), (25, 0x800)], [⟨31, 29, .ro, false, false⟩, ⟨28, 28, .ro, false, false⟩, ⟨27, 16, .ro, false, false⟩, ⟨15, 8, .ro, false, false⟩, ⟨5, 5, .w1c, false, false⟩, ⟨4, 0, .ro, false, false⟩]⟩,
  /- ENG_STAT2 -/ ⟨0x1010008, [(64, 0x40000), (25, 0x800)], [⟨31, 16, .rws, false, false⟩, ⟨15, 4, .rws, false, false⟩, ⟨3, 0, .rws, false, false⟩]⟩,
  /- ENG_BERR -/ ⟨0x101000c, [(64, 0x40000), (25, 0x800)], [⟨31, 31, .rws, false, false⟩, ⟨30, 27, .rws, false, false⟩, ⟨26, 26, .rws, false, false⟩, ⟨25, 20, .rws, false, false⟩, ⟨19, 6, .rws, false, false⟩]⟩,
  /- ENG_SPT -/ ⟨0x1010010, [(64, 0x40000), (25, 0x800)], [⟨22, 16, .rw, true, false⟩, ⟨6, 0, .rw, true, false⟩]⟩,
  /- ENG_CNT_ISSUE -/ ⟨0x1010020, [(64, 0x40000), (25, 0x800)], [⟨31, 0, .rws, false, false⟩]⟩,
  /- ENG_CNT_STALL -/ ⟨0x1010024, [(64, 0x40000), (25, 0x800)], [⟨31, 0, .rws, false, false⟩]⟩,
  /- ENG_MADDR -/ ⟨0x1010040, [(64, 0x40000), (25, 0x800)], [⟨31, 30, .rw, false, false⟩, ⟨13, 0, .rw, false, false⟩]⟩,
  /- ENG_MDATA_LO -/ ⟨0x1010044, [(64, 0x40000), (25, 0x800)], [⟨24, 24, .rw, false, false⟩, ⟨23, 0, .rw, false, false⟩]⟩,
  /- ENG_MDATA_HI -/ ⟨0x1010048, [(64, 0x40000), (25, 0x800)], [⟨23, 0, .rw, false, false⟩]⟩]

/-- The registers with prefix SCH. -/
def regTableSCH : List RegDesc := [
  /- SCH_CFG -/ ⟨0x1008000, [(64, 0x40000)], [⟨31, 16, .rws, true, false⟩, ⟨0, 0, .rws, false, false⟩]⟩,
  /- SCH_STATUS -/ ⟨0x1008004, [(64, 0x40000)], [⟨6, 6, .w1c, false, false⟩, ⟨5, 5, .w1c, false, false⟩, ⟨4, 4, .w1c, false, false⟩, ⟨3, 3, .w1c, false, false⟩, ⟨2, 2, .w1c, false, false⟩, ⟨1, 1, .w1c, false, false⟩, ⟨0, 0, .w1c, false, false⟩]⟩,
  /- SCH_CQ_CFG -/ ⟨0x1008010, [(64, 0x40000)], [⟨31, 24, .rws, true, false⟩, ⟨21, 16, .rws, true, false⟩, ⟨0, 0, .rws, true, true⟩]⟩,
  /- SCH_CQ_POP -/ ⟨0x1008014, [(64, 0x40000)], [⟨31, 31, .ro, false, false⟩, ⟨8, 0, .ro, false, false⟩]⟩,
  /- SCH_CQ_RECw -/ ⟨0x1008018, [(64, 0x40000), (4, 0x4)], [⟨31, 0, .ro, false, false⟩]⟩,
  /- SCH_CQ_BASE_LO -/ ⟨0x1008030, [(64, 0x40000)], [⟨31, 0, .rw, true, true⟩]⟩,
  /- SCH_CQ_BASE_HI -/ ⟨0x1008034, [(64, 0x40000)], [⟨31, 0, .rw, true, true⟩]⟩,
  /- SCH_CQ_SIZE -/ ⟨0x1008038, [(64, 0x40000)], [⟨16, 0, .rw, true, true⟩]⟩,
  /- SCH_CQ_WP -/ ⟨0x100803c, [(64, 0x40000)], [⟨15, 0, .ro, false, false⟩]⟩,
  /- SCH_CQ_RP -/ ⟨0x1008040, [(64, 0x40000)], [⟨15, 0, .rw, false, false⟩]⟩,
  /- SCH_TOKVAL -/ ⟨0x1008050, [(64, 0x40000)], [⟨31, 0, .rw, false, false⟩]⟩,
  /- SCH_TOKEN -/ ⟨0x1008054, [(64, 0x40000)], [⟨31, 31, .wo, false, false⟩, ⟨16, 0, .wo, false, false⟩]⟩,
  /- SCH_WQ_Dw -/ ⟨0x1008060, [(64, 0x40000), (4, 0x4)], [⟨31, 0, .rw, false, false⟩]⟩,
  /- SCH_WQ_PUSH -/ ⟨0x1008070, [(64, 0x40000)], [⟨31, 31, .wo, false, false⟩, ⟨30, 30, .ro, false, false⟩, ⟨29, 19, .ro, false, false⟩, ⟨2, 0, .rw, false, false⟩]⟩,
  /- SCH_WQ_LEVEL_LO -/ ⟨0x1008074, [(64, 0x40000)], [⟨31, 0, .ro, false, false⟩]⟩,
  /- SCH_WQ_LEVEL_HI -/ ⟨0x1008078, [(64, 0x40000)], [⟨31, 0, .ro, false, false⟩]⟩,
  /- SCH_POOL -/ ⟨0x1008080, [(64, 0x40000)], [⟨24, 0, .rws, true, false⟩]⟩,
  /- SCH_DADDR -/ ⟨0x1008100, [(64, 0x40000)], [⟨31, 30, .rw, false, false⟩, ⟨11, 4, .rw, false, false⟩, ⟨3, 0, .rw, false, false⟩]⟩,
  /- SCH_DDATA -/ ⟨0x1008104, [(64, 0x40000)], [⟨31, 0, .rw, false, false⟩]⟩,
  /- SCH_CNT_DISP -/ ⟨0x1008110, [(64, 0x40000)], [⟨31, 0, .rws, false, false⟩]⟩,
  /- SCH_CNT_LATE -/ ⟨0x1008114, [(64, 0x40000)], [⟨31, 0, .rws, false, false⟩]⟩,
  /- SCH_CNT_ERR -/ ⟨0x1008118, [(64, 0x40000)], [⟨31, 16, .rws, false, false⟩, ⟨15, 8, .rws, false, false⟩, ⟨7, 0, .rws, false, false⟩]⟩]

/-- The registers with prefix TRC. -/
def regTableTRC : List RegDesc := [
  /- TRC_CTRL -/ ⟨0x110000, [], [⟨31, 30, .rw, true, true⟩, ⟨29, 29, .rw, true, true⟩, ⟨21, 16, .rw, true, false⟩]⟩,
  /- TRC_STATUS -/ ⟨0x110004, [], [⟨31, 16, .ro, false, false⟩, ⟨12, 0, .ro, false, false⟩]⟩,
  /- TRC_RD_IDX -/ ⟨0x110030, [], [⟨12, 0, .rw, false, false⟩]⟩,
  /- TRC_RDw -/ ⟨0x110034, [(4, 0x4)], [⟨31, 0, .ro, false, false⟩]⟩,
  /- TRC_BASE_LO -/ ⟨0x110010, [], [⟨31, 0, .rw, true, true⟩]⟩,
  /- TRC_BASE_HI -/ ⟨0x110014, [], [⟨31, 0, .rw, true, true⟩]⟩,
  /- TRC_SIZE -/ ⟨0x110018, [], [⟨16, 0, .rw, true, true⟩]⟩,
  /- TRC_WP -/ ⟨0x11001c, [], [⟨15, 0, .ro, false, false⟩]⟩,
  /- TRC_RP -/ ⟨0x110020, [], [⟨15, 0, .rw, false, false⟩]⟩]

/-- The registers with prefix PLC. -/
def regTablePLC : List RegDesc := [
  /- PLC_CFG -/ ⟨0x100000, [], [⟨31, 24, .rw, true, false⟩, ⟨23, 16, .rw, true, false⟩, ⟨15, 12, .rw, true, false⟩, ⟨11, 4, .rw, true, false⟩, ⟨1, 1, .rw, true, false⟩, ⟨0, 0, .rw, true, false⟩]⟩,
  /- PLC_CFG2 -/ ⟨0x100004, [], [⟨31, 24, .rw, true, false⟩]⟩,
  /- PLC_STATUS -/ ⟨0x100008, [], [⟨6, 6, .w1c, false, false⟩, ⟨5, 5, .w1c, false, false⟩, ⟨4, 4, .w1c, false, false⟩, ⟨3, 3, .w1c, false, false⟩, ⟨2, 2, .w1c, false, false⟩, ⟨1, 1, .w1c, false, false⟩, ⟨0, 0, .ro, false, false⟩]⟩,
  /- PLC_POINT -/ ⟨0x100010, [], [⟨31, 16, .ro, false, false⟩, ⟨15, 8, .ro, false, false⟩, ⟨7, 7, .ro, false, false⟩, ⟨6, 4, .ro, false, false⟩]⟩,
  /- PLC_POINT_STAMP_LO -/ ⟨0x100014, [], [⟨31, 0, .ro, false, false⟩]⟩,
  /- PLC_POINT_STAMP_HI -/ ⟨0x100018, [], [⟨31, 0, .ro, false, false⟩]⟩,
  /- PLC_OVR -/ ⟨0x100020, [], [⟨31, 31, .wo, false, false⟩, ⟨30, 29, .wo, false, false⟩, ⟨28, 24, .wo, false, false⟩, ⟨13, 0, .wo, false, false⟩]⟩,
  /- PLC_OVR_STAT -/ ⟨0x100024, [], [⟨6, 0, .ro, false, false⟩]⟩,
  /- PLC_QSEL -/ ⟨0x100030, [], [⟨13, 8, .rw, false, false⟩, ⟨4, 0, .rw, false, false⟩]⟩,
  /- PLC_QDATA -/ ⟨0x100034, [], [⟨31, 24, .ro, false, false⟩, ⟨23, 16, .ro, false, false⟩, ⟨12, 12, .ro, false, false⟩, ⟨11, 11, .ro, false, false⟩, ⟨10, 10, .ro, false, false⟩, ⟨9, 9, .ro, false, false⟩, ⟨8, 8, .ro, false, false⟩]⟩,
  /- PLC_RGNn -/ ⟨0x100100, [(64, 0x4)], [⟨31, 31, .ro, false, false⟩, ⟨30, 30, .ro, false, false⟩, ⟨23, 16, .ro, false, false⟩, ⟨15, 0, .ro, false, false⟩]⟩,
  /- PLC_EXCLn -/ ⟨0x100200, [(64, 0x4)], [⟨24, 0, .rw, true, false⟩]⟩]

/-- The registers with prefix NOC. -/
def regTableNOC : List RegDesc := [
  /- NOC_CFG -/ ⟨0xf0000, [], [⟨31, 16, .rw, true, false⟩, ⟨15, 0, .rw, true, false⟩]⟩,
  /- NOC_CFG2 -/ ⟨0xf0004, [], [⟨31, 16, .rw, true, false⟩, ⟨15, 8, .rw, true, false⟩]⟩,
  /- NOC_STATUS -/ ⟨0xf0008, [], [⟨19, 12, .ro, false, false⟩, ⟨11, 11, .w1c, false, false⟩, ⟨10, 10, .w1c, false, false⟩, ⟨9, 9, .w1c, false, false⟩, ⟨2, 2, .ro, false, false⟩, ⟨1, 1, .ro, false, false⟩, ⟨0, 0, .ro, false, false⟩]⟩,
  /- NOC_FLIPS -/ ⟨0xf000c, [], [⟨31, 16, .ro, false, false⟩, ⟨15, 0, .ro, false, false⟩]⟩,
  /- NOC_RFAULT_LO -/ ⟨0xf0010, [], [⟨31, 0, .ro, false, false⟩]⟩,
  /- NOC_RFAULT_HI -/ ⟨0xf0014, [], [⟨31, 0, .ro, false, false⟩]⟩,
  /- NOC_ROUT_LO -/ ⟨0xf0018, [], [⟨31, 0, .ro, false, false⟩]⟩,
  /- NOC_ROUT_HI -/ ⟨0xf001c, [], [⟨31, 0, .ro, false, false⟩]⟩,
  /- NOC_UNAV_LO -/ ⟨0xf0020, [], [⟨31, 0, .ro, false, false⟩]⟩,
  /- NOC_UNAV_HI -/ ⟨0xf0024, [], [⟨31, 0, .ro, false, false⟩]⟩]

/-- The registers with prefix NI. -/
def regTableNI : List RegDesc := [
  /- NI_CFG -/ ⟨0x1020000, [(64, 0x40000)], [⟨2, 0, .rw, true, false⟩]⟩,
  /- NI_STAT -/ ⟨0x1020004, [(64, 0x40000)], [⟨31, 30, .ro, false, false⟩, ⟨29, 29, .ro, false, false⟩, ⟨28, 28, .w1c, false, false⟩, ⟨15, 9, .ro, false, false⟩, ⟨8, 0, .ro, false, false⟩]⟩,
  /- NI_CNT_REQ -/ ⟨0x1020008, [(64, 0x40000)], [⟨31, 0, .rws, false, false⟩]⟩,
  /- NI_CNT_TO -/ ⟨0x102000c, [(64, 0x40000)], [⟨31, 16, .rws, false, false⟩, ⟨15, 0, .rws, false, false⟩]⟩,
  /- NI_CNT_DROP -/ ⟨0x1020010, [(64, 0x40000)], [⟨31, 16, .rws, false, false⟩, ⟨15, 0, .rws, false, false⟩]⟩,
  /- NI_CNT_LOCAL -/ ⟨0x1020014, [(64, 0x40000)], [⟨31, 16, .rws, false, false⟩, ⟨15, 0, .rws, false, false⟩]⟩,
  /- NI_RADDR -/ ⟨0x1020020, [(64, 0x40000)], [⟨31, 30, .rw, false, false⟩, ⟨8, 8, .rw, false, false⟩, ⟨7, 7, .rw, false, false⟩, ⟨6, 0, .rw, false, false⟩]⟩,
  /- NI_RDATA -/ ⟨0x1020024, [(64, 0x40000)], [⟨31, 0, .rw, true, false⟩]⟩]

/-- The registers with prefix RTR. -/
def regTableRTR : List RegDesc := [
  /- RTR_STAT -/ ⟨0x1020100, [(64, 0x40000)], [⟨31, 30, .ro, false, false⟩, ⟨3, 0, .ro, false, false⟩]⟩,
  /- RTR_LINKd -/ ⟨0x1020110, [(64, 0x40000), (4, 0x4)], [⟨31, 24, .rws, false, false⟩, ⟨23, 16, .rws, false, false⟩, ⟨15, 11, .rws, false, false⟩, ⟨10, 6, .rws, false, false⟩, ⟨5, 5, .rws, false, false⟩, ⟨4, 4, .rws, false, false⟩, ⟨3, 3, .rws, false, false⟩]⟩,
  /- RTR_FLITd -/ ⟨0x1020120, [(64, 0x40000), (4, 0x4)], [⟨31, 0, .ro, false, false⟩]⟩]

/-- The registers with prefix ECC. -/
def regTableECC : List RegDesc := [
  /- ECC_CFG -/ ⟨0x100c800, [(64, 0x40000)], [⟨31, 24, .rws, true, false⟩, ⟨23, 16, .rws, true, false⟩, ⟨2, 2, .rws, true, false⟩, ⟨1, 1, .rws, true, false⟩, ⟨0, 0, .rws, true, false⟩]⟩,
  /- ECC_PATROL -/ ⟨0x100c804, [(64, 0x40000)], [⟨31, 16, .rws, true, false⟩, ⟨15, 0, .rws, true, false⟩]⟩,
  /- ECC_STATUS -/ ⟨0x100c808, [(64, 0x40000)], [⟨4, 4, .ro, false, false⟩, ⟨3, 3, .w1c, false, false⟩, ⟨2, 2, .w1c, false, false⟩, ⟨1, 1, .w1c, false, false⟩, ⟨0, 0, .ro, false, false⟩]⟩,
  /- ECC_CNT_CE -/ ⟨0x100c810, [(64, 0x40000)], [⟨31, 0, .rws, false, false⟩]⟩,
  /- ECC_CNT_UE -/ ⟨0x100c814, [(64, 0x40000)], [⟨31, 0, .rws, false, false⟩]⟩,
  /- ECC_PASS -/ ⟨0x100c818, [(64, 0x40000)], [⟨31, 16, .rws, false, false⟩, ⟨15, 0, .rws, false, false⟩]⟩,
  /- ECC_TBL_OVF -/ ⟨0x100c81c, [(64, 0x40000)], [⟨31, 16, .rws, false, false⟩, ⟨15, 0, .rws, false, false⟩]⟩,
  /- ECC_INJ -/ ⟨0x100c820, [(64, 0x40000)], [⟨31, 31, .wo, false, false⟩, ⟨30, 29, .wo, false, false⟩, ⟨28, 23, .wo, false, false⟩, ⟨22, 15, .wo, false, false⟩, ⟨13, 0, .wo, false, false⟩]⟩,
  /- ECC_TBLk_W0 -/ ⟨0x100c900, [(64, 0x40000), (32, 0x10)], [⟨31, 31, .rws, false, false⟩, ⟨30, 29, .ro, false, false⟩, ⟨28, 23, .ro, false, false⟩, ⟨22, 22, .ro, false, false⟩, ⟨21, 20, .ro, false, false⟩, ⟨13, 0, .ro, false, false⟩]⟩,
  /- ECC_TBLk_W1 -/ ⟨0x100c904, [(64, 0x40000), (32, 0x10)], [⟨31, 24, .ro, false, false⟩, ⟨15, 0, .ro, false, false⟩]⟩,
  /- ECC_TBLk_STAMP_LO -/ ⟨0x100c908, [(64, 0x40000), (32, 0x10)], [⟨31, 0, .ro, false, false⟩]⟩,
  /- ECC_TBLk_STAMP_HI -/ ⟨0x100c90c, [(64, 0x40000), (32, 0x10)], [⟨31, 0, .ro, false, false⟩]⟩]

/-- The registers with prefix KRL. -/
def regTableKRL : List RegDesc := [
  /- KRL_CTRL -/ ⟨0x70000, [], [⟨31, 31, .rw, true, true⟩, ⟨30, 30, .rw, true, true⟩, ⟨29, 24, .rw, true, true⟩, ⟨23, 22, .rw, true, true⟩, ⟨21, 20, .rw, true, true⟩, ⟨19, 19, .rw, true, true⟩, ⟨18, 18, .rw, true, true⟩]⟩,
  /- KRL_CFG -/ ⟨0x70004, [], [⟨31, 16, .rw, true, false⟩, ⟨15, 0, .rw, true, false⟩]⟩,
  /- KRL_CFG2 -/ ⟨0x70008, [], [⟨31, 16, .rw, true, false⟩, ⟨15, 0, .rw, true, false⟩]⟩,
  /- KRL_STATUS -/ ⟨0x7000c, [], [⟨31, 31, .ro, false, false⟩, ⟨30, 30, .ro, false, false⟩, ⟨29, 29, .ro, false, false⟩, ⟨28, 28, .ro, false, false⟩, ⟨27, 27, .ro, false, false⟩, ⟨26, 26, .ro, false, false⟩, ⟨25, 25, .ro, false, false⟩, ⟨24, 24, .w1c, false, false⟩, ⟨23, 23, .ro, false, false⟩, ⟨21, 16, .ro, false, false⟩, ⟨15, 0, .ro, false, false⟩]⟩,
  /- KRL_LINKp -/ ⟨0x70010, [(2, 0x4)], [⟨31, 30, .ro, false, false⟩, ⟨29, 28, .ro, false, false⟩, ⟨27, 26, .ro, false, false⟩]⟩,
  /- KRL_HOPLATp -/ ⟨0x70018, [(2, 0x4)], [⟨31, 0, .ro, false, false⟩]⟩,
  /- KRL_TOPO -/ ⟨0x70020, [], [⟨14, 8, .ro, false, false⟩, ⟨5, 0, .ro, false, false⟩]⟩,
  /- KRL_REEL_DELAY -/ ⟨0x70024, [], [⟨31, 0, .ro, false, false⟩]⟩,
  /- KRL_REEL_TIME_LO -/ ⟨0x70028, [], [⟨31, 0, .ro, false, false⟩]⟩,
  /- KRL_REEL_TIME_HI -/ ⟨0x7002c, [], [⟨31, 0, .ro, false, false⟩]⟩,
  /- KRL_CNT_REEL -/ ⟨0x70040, [], [⟨31, 16, .rws, false, false⟩, ⟨15, 0, .rws, false, false⟩]⟩,
  /- KRL_CNT_LINK -/ ⟨0x70044, [], [⟨31, 16, .rws, false, false⟩, ⟨15, 0, .rws, false, false⟩]⟩,
  /- KRL_CNT_DATA -/ ⟨0x70048, [], [⟨31, 20, .rws, false, false⟩, ⟨19, 8, .rws, false, false⟩, ⟨7, 0, .rws, false, false⟩]⟩,
  /- KRL_CNT_RX -/ ⟨0x7004c, [], [⟨31, 16, .rws, false, false⟩, ⟨15, 8, .rws, false, false⟩, ⟨7, 0, .rws, false, false⟩]⟩,
  /- KRL_LEDGER -/ ⟨0x70050, [], [⟨12, 0, .ro, false, false⟩]⟩,
  /- KRL_TADDR -/ ⟨0x70100, [], [⟨31, 31, .rw, false, false⟩, ⟨8, 0, .rw, false, false⟩]⟩,
  /- KRL_TDATA -/ ⟨0x70104, [], [⟨31, 0, .rw, true, true⟩]⟩]

/-- The registers with prefix LNE. -/
def regTableLNE : List RegDesc := [
  /- LNE_QPLL -/ ⟨0x80000, [(12, 0x1000)], [⟨31, 24, .rw, true, true⟩, ⟨23, 0, .rw, true, true⟩]⟩,
  /- LNE_QCFG -/ ⟨0x80004, [(12, 0x1000)], [⟨7, 0, .rw, true, true⟩]⟩,
  /- LNE_QSTAT -/ ⟨0x80008, [(12, 0x1000)], [⟨31, 31, .ro, false, false⟩, ⟨30, 30, .ro, false, false⟩, ⟨5, 4, .ro, false, false⟩, ⟨3, 2, .ro, false, false⟩]⟩,
  /- LNE_QSUB -/ ⟨0x8000c, [(12, 0x1000)], [⟨31, 31, .wo, false, false⟩, ⟨1, 0, .wo, false, false⟩]⟩,
  /- LNE_LCFG -/ ⟨0x80100, [(12, 0x1000), (4, 0x100)], [⟨31, 28, .rw, true, true⟩, ⟨27, 25, .rw, true, true⟩, ⟨24, 24, .rw, true, true⟩, ⟨23, 23, .rw, true, true⟩, ⟨22, 22, .rw, true, true⟩, ⟨21, 21, .rw, true, true⟩, ⟨20, 19, .rw, true, true⟩, ⟨18, 16, .rw, true, true⟩, ⟨15, 15, .rw, true, true⟩, ⟨14, 13, .rw, true, true⟩]⟩,
  /- LNE_LCTLE -/ ⟨0x80104, [(12, 0x1000), (4, 0x100)], [⟨31, 31, .rw, true, false⟩, ⟨20, 16, .rw, true, false⟩, ⟨4, 0, .ro, false, false⟩]⟩,
  /- LNE_LSTAT -/ ⟨0x80108, [(12, 0x1000), (4, 0x100)], [⟨31, 29, .ro, false, false⟩, ⟨28, 28, .ro, false, false⟩, ⟨27, 27, .ro, false, false⟩, ⟨26, 26, .ro, false, false⟩, ⟨25, 23, .ro, true, true⟩]⟩,
  /- LNE_LRX -/ ⟨0x8010c, [(12, 0x1000), (4, 0x100)], [⟨31, 31, .rw, true, true⟩, ⟨22, 20, .rw, true, true⟩, ⟨19, 14, .rw, true, true⟩, ⟨13, 11, .rw, true, true⟩, ⟨6, 0, .rw, true, true⟩]⟩,
  /- LNE_LTXSRC -/ ⟨0x80110, [(12, 0x1000), (4, 0x100)], [⟨31, 31, .rw, true, true⟩, ⟨10, 8, .rw, true, true⟩, ⟨6, 0, .rw, true, true⟩]⟩,
  /- LNE_LPKT -/ ⟨0x80114, [(12, 0x1000), (4, 0x100)], [⟨31, 28, .rw, true, true⟩, ⟨27, 14, .rw, true, true⟩, ⟨13, 0, .rw, true, true⟩]⟩,
  /- LNE_LFILL_LO -/ ⟨0x80118, [(12, 0x1000), (4, 0x100)], [⟨31, 0, .rw, true, true⟩]⟩,
  /- LNE_LFILL_HI -/ ⟨0x8011c, [(12, 0x1000), (4, 0x100)], [⟨31, 0, .rw, true, true⟩]⟩,
  /- LNE_LCNT_RM -/ ⟨0x80120, [(12, 0x1000), (4, 0x100)], [⟨31, 24, .rws, false, false⟩, ⟨23, 12, .rws, false, false⟩, ⟨11, 0, .rws, false, false⟩]⟩,
  /- LNE_LCNT_FIFO -/ ⟨0x80124, [(12, 0x1000), (4, 0x100)], [⟨31, 24, .rws, false, false⟩, ⟨23, 16, .rws, false, false⟩, ⟨15, 8, .rws, false, false⟩, ⟨7, 0, .rws, false, false⟩]⟩,
  /- LNE_LCNT_ERR -/ ⟨0x80128, [(12, 0x1000), (4, 0x100)], [⟨31, 16, .rws, false, false⟩, ⟨15, 8, .rws, false, false⟩, ⟨7, 0, .rws, false, false⟩]⟩,
  /- LNE_ESCAN -/ ⟨0x80130, [(12, 0x1000), (4, 0x100)], [⟨31, 31, .wo, false, false⟩, ⟨30, 30, .ro, false, false⟩, ⟨29, 29, .ro, false, false⟩, ⟨28, 28, .ro, false, false⟩, ⟨27, 22, .rw, false, false⟩, ⟨21, 14, .rw, false, false⟩, ⟨13, 8, .rw, false, false⟩, ⟨4, 0, .ro, false, false⟩]⟩,
  /- LNE_ESCAN_ERR -/ ⟨0x80134, [(12, 0x1000), (4, 0x100)], [⟨31, 0, .ro, false, false⟩]⟩]

/-- The registers with prefix XMC. -/
def regTableXMC : List RegDesc := [
  /- XMC_CTRL -/ ⟨0x90000, [], [⟨31, 31, .rw, false, false⟩, ⟨30, 30, .ro, false, false⟩]⟩,
  /- XMC_CFG -/ ⟨0x90004, [], [⟨31, 28, .rw, true, true⟩, ⟨27, 26, .rw, true, true⟩, ⟨25, 25, .rw, true, true⟩, ⟨24, 24, .rw, true, true⟩, ⟨23, 23, .rw, true, true⟩, ⟨22, 22, .rw, true, true⟩, ⟨15, 8, .rw, true, false⟩]⟩,
  /- XMC_STATUS -/ ⟨0x90008, [], [⟨6, 6, .ro, false, false⟩, ⟨5, 5, .w1c, false, false⟩, ⟨4, 4, .w1c, false, false⟩, ⟨3, 3, .w1c, false, false⟩, ⟨2, 2, .w1c, false, false⟩, ⟨1, 1, .w1c, false, false⟩, ⟨0, 0, .ro, false, false⟩]⟩,
  /- XMC_CHSTATc -/ ⟨0x90010, [(8, 0x4)], [⟨31, 30, .ro, false, false⟩, ⟨29, 29, .ro, false, false⟩, ⟨12, 0, .ro, false, false⟩]⟩,
  /- XMC_RETIRE -/ ⟨0x90030, [], [⟨31, 31, .wo, false, false⟩, ⟨11, 6, .wo, false, false⟩, ⟨5, 0, .wo, false, false⟩]⟩,
  /- XMC_WALK -/ ⟨0x90034, [], [⟨23, 0, .ro, false, false⟩]⟩,
  /- XMC_CNT_SEC -/ ⟨0x90040, [], [⟨31, 16, .rws, false, false⟩, ⟨15, 0, .rws, false, false⟩]⟩,
  /- XMC_CNT_MISC -/ ⟨0x90044, [], [⟨31, 8, .rws, false, false⟩, ⟨7, 0, .rws, false, false⟩]⟩,
  /- XMC_CNT_ECC -/ ⟨0x90048, [], [⟨31, 16, .rws, false, false⟩, ⟨15, 0, .rws, false, false⟩]⟩,
  /- XMC_KRANGE_LOk -/ ⟨0x90400, [(64, 0x8)], [⟨31, 31, .ro, true, true⟩, ⟨23, 0, .ro, true, true⟩]⟩,
  /- XMC_KRANGE_HIk -/ ⟨0x90404, [(64, 0x8)], [⟨31, 31, .ro, true, true⟩, ⟨23, 0, .ro, true, true⟩]⟩,
  /- XMC_RMODE_LOr -/ ⟨0x90620, [(4, 0x8)], [⟨31, 31, .rw, true, true⟩, ⟨29, 24, .rw, true, true⟩, ⟨23, 0, .rw, true, true⟩]⟩,
  /- XMC_RMODE_HIr -/ ⟨0x90624, [(4, 0x8)], [⟨31, 31, .rw, true, true⟩, ⟨29, 24, .rw, true, true⟩, ⟨23, 0, .rw, true, true⟩]⟩,
  /- XMC_URANGE_LOu -/ ⟨0x90600, [(4, 0x8)], [⟨31, 31, .ro, true, true⟩, ⟨23, 0, .ro, true, true⟩]⟩,
  /- XMC_URANGE_HIu -/ ⟨0x90604, [(4, 0x8)], [⟨31, 31, .ro, true, true⟩, ⟨23, 0, .ro, true, true⟩]⟩]

/-- The registers with prefix SEC. -/
def regTableSEC : List RegDesc := [
  /- SEC_CFG -/ ⟨0xa0000, [], [⟨31, 31, .rw, true, true⟩, ⟨30, 30, .rw, true, true⟩, ⟨29, 29, .rw, true, true⟩]⟩,
  /- SEC_STATUS -/ ⟨0xa0004, [], [⟨31, 31, .w1c, false, false⟩, ⟨30, 30, .w1c, false, false⟩, ⟨15, 8, .ro, false, false⟩, ⟨3, 0, .ro, false, false⟩]⟩,
  /- SEC_KGEN -/ ⟨0xa0010, [], [⟨31, 31, .wo, false, false⟩, ⟨9, 9, .wo, false, false⟩, ⟨8, 8, .wo, false, false⟩, ⟨5, 0, .wo, false, false⟩]⟩,
  /- SEC_SLOTn -/ ⟨0xa0100, [(64, 0x4)], [⟨31, 29, .ro, false, false⟩, ⟨28, 28, .ro, false, false⟩, ⟨27, 27, .ro, false, false⟩, ⟨26, 26, .ro, false, false⟩]⟩]

/-- The registers with prefix CFG. -/
def regTableCFG : List RegDesc := [
  /- CFG_STATUS -/ ⟨0x10000, [], [⟨31, 28, .ro, false, false⟩, ⟨27, 26, .ro, false, false⟩, ⟨25, 25, .ro, false, false⟩, ⟨24, 24, .ro, false, false⟩, ⟨23, 23, .ro, false, false⟩, ⟨22, 22, .ro, false, false⟩, ⟨21, 21, .ro, false, false⟩, ⟨20, 20, .ro, false, false⟩, ⟨19, 16, .ro, false, false⟩]⟩,
  /- CFG_ERR -/ ⟨0x10004, [], [⟨23, 16, .ro, false, false⟩, ⟨15, 8, .ro, false, false⟩, ⟨7, 0, .ro, false, false⟩]⟩,
  /- CFG_ID -/ ⟨0x10008, [], [⟨31, 28, .ro, false, false⟩, ⟨27, 12, .ro, false, false⟩, ⟨11, 0, .ro, false, false⟩]⟩,
  /- CFG_IMAGE -/ ⟨0x1000c, [], [⟨31, 0, .ro, false, false⟩]⟩,
  /- CFG_LOADTIME -/ ⟨0x10010, [], [⟨31, 0, .ro, false, false⟩]⟩,
  /- CFG_REGMASK_LO -/ ⟨0x10014, [], [⟨31, 0, .ro, false, false⟩]⟩,
  /- CFG_REGMASK_HI -/ ⟨0x10018, [], [⟨31, 0, .ro, false, false⟩]⟩,
  /- CFG_FUSE -/ ⟨0x1001c, [], [⟨2, 2, .ro, false, false⟩, ⟨1, 1, .ro, false, false⟩, ⟨0, 0, .ro, false, false⟩]⟩,
  /- CFG_PLOAD -/ ⟨0x10020, [], [⟨31, 31, .wo, false, false⟩, ⟨7, 0, .wo, false, false⟩]⟩,
  /- CFG_PSTAT -/ ⟨0x10024, [], [⟨31, 31, .ro, false, false⟩, ⟨30, 30, .ro, false, false⟩, ⟨29, 26, .ro, false, false⟩, ⟨23, 16, .ro, false, false⟩, ⟨15, 8, .ro, false, false⟩, ⟨7, 0, .ro, false, false⟩]⟩,
  /- CFG_PCNT -/ ⟨0x10028, [], [⟨31, 16, .rw, false, false⟩, ⟨15, 0, .rw, false, false⟩]⟩,
  /- CFG_JRNL -/ ⟨0x10030, [], [⟨31, 31, .ro, false, false⟩, ⟨30, 16, .ro, false, false⟩, ⟨15, 8, .ro, false, false⟩, ⟨7, 0, .ro, false, false⟩]⟩,
  /- CFG_JSEQ -/ ⟨0x10034, [], [⟨31, 0, .ro, false, false⟩]⟩,
  /- CFG_JCNT -/ ⟨0x10038, [], [⟨31, 16, .rw, false, false⟩, ⟨15, 8, .rw, false, false⟩, ⟨7, 0, .rw, false, false⟩]⟩,
  /- CFG_START -/ ⟨0x1003c, [], [⟨23, 0, .ro, false, false⟩]⟩,
  /- CFG_WAKEn -/ ⟨0x10100, [(64, 0x4)], [⟨8, 8, .rw, true, false⟩, ⟨7, 0, .rw, true, false⟩]⟩]

/-- The registers with prefix SCR. -/
def regTableSCR : List RegDesc := [
  /- SCR_CTRL -/ ⟨0x20000, [], [⟨31, 31, .rw, true, false⟩, ⟨30, 30, .rw, true, false⟩, ⟨29, 29, .rw, true, false⟩, ⟨28, 28, .rw, true, false⟩, ⟨15, 0, .rw, true, false⟩]⟩,
  /- SCR_TOUR -/ ⟨0x20004, [], [⟨31, 24, .rw, true, false⟩, ⟨4, 0, .rw, true, false⟩]⟩,
  /- SCR_AGECFG -/ ⟨0x20008, [], [⟨31, 24, .rw, true, true⟩, ⟨23, 16, .rw, true, true⟩, ⟨15, 8, .rw, true, true⟩, ⟨7, 0, .rw, true, true⟩]⟩,
  /- SCR_AGEPER -/ ⟨0x2000c, [], [⟨15, 0, .rw, true, false⟩]⟩,
  /- SCR_STATUS -/ ⟨0x20010, [], [⟨4, 4, .w1c, false, false⟩, ⟨3, 3, .w1c, false, false⟩, ⟨2, 2, .w1c, false, false⟩, ⟨1, 1, .w1c, false, false⟩, ⟨0, 0, .ro, false, false⟩]⟩,
  /- SCR_HOURS -/ ⟨0x20014, [], [⟨31, 0, .rw, false, false⟩]⟩,
  /- SCR_CNT_CE -/ ⟨0x20020, [], [⟨31, 0, .rw, false, false⟩]⟩,
  /- SCR_CNT_UE -/ ⟨0x20024, [], [⟨31, 16, .rw, false, false⟩, ⟨15, 0, .rw, false, false⟩]⟩,
  /- SCR_STEEPS -/ ⟨0x20028, [], [⟨31, 0, .ro, false, false⟩]⟩,
  /- SCR_RELEASE -/ ⟨0x20030, [], [⟨31, 31, .wo, false, false⟩, ⟨5, 0, .wo, false, false⟩]⟩,
  /- SCR_TEST -/ ⟨0x20034, [], [⟨31, 31, .wo, false, false⟩, ⟨23, 0, .wo, false, false⟩]⟩,
  /- SCR_RSTATn -/ ⟨0x20100, [(64, 0x10)], [⟨31, 31, .ro, false, false⟩, ⟨30, 30, .ro, false, false⟩, ⟨29, 29, .ro, false, false⟩, ⟨28, 22, .ro, false, false⟩, ⟨15, 13, .ro, false, false⟩, ⟨12, 0, .ro, false, false⟩]⟩,
  /- SCR_RTESTn -/ ⟨0x20104, [(64, 0x10)], [⟨31, 29, .ro, false, false⟩, ⟨28, 23, .ro, false, false⟩, ⟨22, 21, .ro, false, false⟩, ⟨20, 15, .ro, false, false⟩]⟩,
  /- SCR_RAGEn -/ ⟨0x20108, [(64, 0x10)], [⟨31, 24, .ro, false, false⟩, ⟨23, 17, .ro, false, false⟩, ⟨16, 15, .ro, true, false⟩]⟩,
  /- SCR_RPROJn -/ ⟨0x2010c, [(64, 0x10)], [⟨31, 0, .ro, false, false⟩]⟩]

/-- The registers with prefix CLK. -/
def regTableCLK : List RegDesc := [
  /- CLK_STATUS -/ ⟨0x30000, [], [⟨3, 3, .w1c, false, false⟩, ⟨2, 2, .w1c, false, false⟩, ⟨1, 1, .w1c, false, false⟩, ⟨0, 0, .w1c, false, false⟩]⟩,
  /- CLK_READY -/ ⟨0x30004, [], [⟨15, 0, .ro, false, false⟩]⟩,
  /- CLK_TOL -/ ⟨0x30008, [], [⟨7, 0, .rw, true, true⟩]⟩,
  /- CLK_CNT_GATED -/ ⟨0x3000c, [], [⟨31, 0, .rw, false, false⟩]⟩,
  /- CLK_DOMd -/ ⟨0x30020, [(9, 0x4)], [⟨8, 8, .ro, false, false⟩, ⟨0, 0, .rw, false, false⟩]⟩,
  /- CLK_CKOc -/ ⟨0x30060, [(2, 0x4)], [⟨31, 24, .rw, true, false⟩, ⟨15, 0, .rw, true, false⟩]⟩,
  /- CLK_PLLs_CFG -/ ⟨0x30100, [(8, 0x10)], [⟨31, 30, .rw, true, true⟩, ⟨29, 28, .rw, true, true⟩, ⟨27, 16, .rw, true, true⟩, ⟨15, 15, .ro, false, false⟩, ⟨14, 14, .ro, false, false⟩]⟩,
  /- CLK_PLLs_FRAC -/ ⟨0x30104, [(8, 0x10)], [⟨23, 0, .rw, true, true⟩]⟩,
  /- CLK_PLLs_SSC -/ ⟨0x30108, [(8, 0x10)], [⟨31, 31, .rw, true, true⟩, ⟨20, 16, .rw, true, true⟩, ⟨5, 0, .rw, true, true⟩]⟩]

/-- The registers with prefix PWR. -/
def regTablePWR : List RegDesc := [
  /- PWR_STATUS -/ ⟨0x40000, [], [⟨6, 6, .ro, false, false⟩, ⟨5, 5, .ro, false, false⟩, ⟨4, 4, .ro, false, false⟩, ⟨3, 3, .w1c, false, false⟩, ⟨2, 2, .w1c, false, false⟩, ⟨1, 1, .w1c, false, false⟩, ⟨0, 0, .w1c, false, false⟩]⟩,
  /- PWR_VIN -/ ⟨0x40004, [], [⟨31, 16, .ro, false, false⟩, ⟨15, 0, .ro, false, false⟩]⟩,
  /- PWR_POWER -/ ⟨0x40008, [], [⟨31, 16, .ro, false, false⟩, ⟨15, 0, .ro, false, false⟩]⟩,
  /- PWR_KCFG -/ ⟨0x40010, [], [⟨31, 24, .rw, true, false⟩, ⟨23, 16, .rw, true, false⟩, ⟨15, 0, .rw, true, false⟩]⟩,
  /- PWR_KCOST -/ ⟨0x40014, [], [⟨31, 24, .rw, true, false⟩, ⟨23, 16, .rw, true, false⟩, ⟨15, 8, .rw, true, false⟩, ⟨7, 0, .rw, true, false⟩]⟩,
  /- PWR_KSTAT -/ ⟨0x40018, [], [⟨31, 24, .ro, false, false⟩, ⟨23, 16, .ro, false, false⟩]⟩,
  /- PWR_PCAP -/ ⟨0x4001c, [], [⟨31, 16, .rw, true, false⟩, ⟨15, 0, .rw, true, false⟩]⟩,
  /- PWR_REQ -/ ⟨0x40020, [], [⟨31, 31, .wo, false, false⟩, ⟨30, 28, .wo, false, false⟩, ⟨27, 26, .wo, false, false⟩, ⟨25, 24, .wo, false, false⟩, ⟨23, 22, .wo, false, false⟩, ⟨5, 0, .wo, false, false⟩]⟩,
  /- PWR_ARST -/ ⟨0x40024, [], [⟨31, 31, .rw, true, true⟩, ⟨1, 0, .ro, false, false⟩]⟩,
  /- PWR_DOWN -/ ⟨0x40028, [], [⟨15, 0, .rw, true, false⟩]⟩,
  /- PWR_RGNn -/ ⟨0x40100, [(64, 0x4)], [⟨31, 30, .ro, false, false⟩, ⟨29, 28, .ro, false, false⟩, ⟨27, 26, .rw, true, false⟩, ⟨25, 24, .rw, true, false⟩, ⟨23, 23, .ro, false, false⟩, ⟨22, 22, .ro, false, false⟩, ⟨21, 21, .ro, false, false⟩, ⟨20, 18, .ro, false, false⟩, ⟨17, 16, .ro, false, false⟩, ⟨15, 0, .rw, true, false⟩]⟩,
  /- PWR_RAILr -/ ⟨0x40200, [(137, 0x4)], [⟨31, 28, .ro, true, false⟩, ⟨27, 24, .ro, false, false⟩, ⟨15, 0, .ro, false, false⟩]⟩]

/-- The registers with prefix THM. -/
def regTableTHM : List RegDesc := [
  /- THM_CFG -/ ⟨0x50000, [], [⟨31, 24, .rw, true, true⟩, ⟨23, 16, .rw, true, true⟩, ⟨15, 8, .rw, true, true⟩, ⟨7, 4, .rw, true, true⟩, ⟨2, 0, .rw, true, true⟩]⟩,
  /- THM_STATUS -/ ⟨0x50004, [], [⟨3, 3, .ro, false, false⟩, ⟨2, 2, .w1c, false, false⟩, ⟨1, 1, .ro, false, false⟩, ⟨0, 0, .ro, false, false⟩]⟩,
  /- THM_MAX -/ ⟨0x50008, [], [⟨23, 16, .ro, false, false⟩, ⟨15, 0, .ro, false, false⟩]⟩,
  /- THM_SITEs -/ ⟨0x50100, [(208, 0x4)], [⟨31, 31, .ro, false, false⟩, ⟨30, 30, .ro, false, false⟩, ⟨29, 29, .ro, false, false⟩, ⟨15, 0, .ro, false, false⟩]⟩,
  /- THM_RGNn -/ ⟨0x50800, [(64, 0x4)], [⟨31, 31, .ro, false, false⟩, ⟨30, 30, .ro, false, false⟩, ⟨29, 29, .ro, false, false⟩, ⟨28, 26, .ro, false, false⟩, ⟨15, 0, .ro, false, false⟩]⟩]

/-- The registers with prefix BST. -/
def regTableBST : List RegDesc := [
  /- BST_CTRL -/ ⟨0xb0000, [], [⟨31, 31, .rw, true, false⟩, ⟨10, 0, .rw, true, false⟩]⟩,
  /- BST_STATUS -/ ⟨0xb0004, [], [⟨31, 16, .ro, false, false⟩, ⟨2, 2, .w1c, false, false⟩, ⟨1, 1, .w1c, false, false⟩, ⟨0, 0, .w1c, false, false⟩]⟩,
  /- BST_CNT -/ ⟨0xb0008, [], [⟨31, 16, .rw, false, false⟩, ⟨15, 0, .rw, false, false⟩]⟩,
  /- BST_RES -/ ⟨0xb000c, [], [⟨31, 16, .ro, false, false⟩, ⟨5, 0, .ro, false, false⟩]⟩,
  /- BST_RECk_Ww -/ ⟨0xb1000, [(64, 0x10), (4, 0x4)], [⟨31, 0, .ro, false, false⟩]⟩]

/-- The registers with prefix CRC. -/
def regTableCRC : List RegDesc := [
  /- CRC_Un_CFG -/ ⟨0xc0000, [(16, 0x20)], [⟨31, 31, .rw, true, true⟩, ⟨30, 29, .rw, true, true⟩, ⟨28, 28, .rw, true, true⟩, ⟨27, 27, .rw, true, true⟩, ⟨26, 26, .rw, true, true⟩, ⟨25, 22, .rw, true, true⟩, ⟨21, 15, .rw, true, true⟩, ⟨14, 12, .rw, true, true⟩]⟩,
  /- CRC_Un_MSG -/ ⟨0xc0004, [(16, 0x20)], [⟨23, 16, .rw, true, true⟩, ⟨15, 0, .rw, true, true⟩]⟩,
  /- CRC_Un_RES_LO -/ ⟨0xc0008, [(16, 0x20)], [⟨31, 0, .ro, false, false⟩]⟩,
  /- CRC_Un_RES_HI -/ ⟨0xc000c, [(16, 0x20)], [⟨31, 0, .ro, false, false⟩]⟩,
  /- CRC_Un_STAT -/ ⟨0xc0010, [(16, 0x20)], [⟨31, 29, .ro, false, false⟩, ⟨28, 28, .ro, false, false⟩, ⟨27, 27, .ro, false, false⟩, ⟨15, 0, .ro, false, false⟩]⟩,
  /- CRC_Un_ALIVE -/ ⟨0xc0014, [(16, 0x20)], [⟨31, 16, .ro, false, false⟩, ⟨15, 8, .ro, false, false⟩, ⟨7, 0, .ro, false, false⟩]⟩,
  /- CRC_Un_CTL -/ ⟨0xc0018, [(16, 0x20)], [⟨0, 0, .wo, false, false⟩]⟩]

/-- The registers with prefix MBX. -/
def regTableMBX : List RegDesc := [
  /- MBX_CFG -/ ⟨0xd0000, [], [⟨31, 16, .rw, true, false⟩, ⟨15, 15, .rw, true, false⟩, ⟨12, 0, .rw, true, false⟩]⟩,
  /- MBX_STATUS -/ ⟨0xd0004, [], [⟨4, 4, .w1c, false, false⟩, ⟨3, 3, .w1c, false, false⟩, ⟨2, 2, .w1c, false, false⟩, ⟨1, 1, .w1c, false, false⟩]⟩,
  /- MBX_LEVEL -/ ⟨0xd0008, [], [⟨31, 27, .ro, false, false⟩, ⟨25, 13, .ro, false, false⟩, ⟨12, 0, .ro, false, false⟩]⟩,
  /- MBX_NEXT -/ ⟨0xd000c, [], [⟨31, 31, .ro, false, false⟩, ⟨27, 12, .ro, false, false⟩, ⟨11, 0, .ro, false, false⟩]⟩,
  /- MBX_ACK -/ ⟨0xd0010, [], [⟨31, 31, .wo, false, false⟩, ⟨27, 12, .wo, false, false⟩, ⟨11, 0, .wo, false, false⟩]⟩,
  /- MBX_CNT -/ ⟨0xd0014, [], [⟨31, 16, .rw, false, false⟩, ⟨15, 0, .rw, false, false⟩]⟩,
  /- MBX_CNT2 -/ ⟨0xd0018, [], [⟨31, 24, .rw, false, false⟩, ⟨23, 16, .rw, false, false⟩, ⟨15, 8, .rw, false, false⟩, ⟨7, 0, .rw, false, false⟩]⟩,
  /- MBX_SEQ -/ ⟨0xd001c, [], [⟨15, 0, .ro, false, false⟩]⟩]

/-- The registers with prefix IOB. -/
def regTableIOB : List RegDesc := [
  /- IOB_STATUS -/ ⟨0xe0000, [], [⟨2, 2, .w1c, false, false⟩, ⟨1, 1, .w1c, false, false⟩, ⟨0, 0, .w1c, false, false⟩]⟩,
  /- IOB_VIO -/ ⟨0xe0004, [], [⟨31, 30, .rw, true, true⟩, ⟨29, 28, .rw, true, true⟩, ⟨17, 17, .ro, false, false⟩, ⟨16, 16, .ro, false, false⟩, ⟨15, 8, .ro, false, false⟩, ⟨7, 0, .ro, false, false⟩]⟩,
  /- IOB_SBb_CFG -/ ⟨0xe0100, [(8, 0x4)], [⟨31, 31, .rw, true, true⟩, ⟨10, 0, .rw, true, true⟩]⟩,
  /- IOB_SBb_LOCK_LO -/ ⟨0xe0200, [(8, 0x8)], [⟨31, 0, .ro, false, false⟩]⟩,
  /- IOB_SBb_LOCK_HI -/ ⟨0xe0204, [(8, 0x8)], [⟨31, 0, .ro, false, false⟩]⟩,
  /- IOB_SBb_OVF -/ ⟨0xe0300, [(8, 0x4)], [⟨31, 0, .rw, false, false⟩]⟩,
  /- IOB_SBPb_i -/ ⟨0xe1000, [(8, 0xc0), (48, 0x4)], [⟨31, 31, .rw, true, true⟩, ⟨30, 30, .rw, true, true⟩, ⟨29, 27, .rw, true, true⟩]⟩,
  /- IOB_GIOg -/ ⟨0xe2000, [(64, 0x4)], [⟨31, 25, .rw, true, true⟩, ⟨24, 23, .rw, true, true⟩, ⟨22, 21, .rw, true, true⟩, ⟨20, 20, .rw, true, true⟩, ⟨2, 2, .ro, false, false⟩, ⟨1, 1, .rw, false, false⟩, ⟨0, 0, .rw, false, false⟩]⟩]

/-- The registers with prefix SUP. -/
def regTableSUP : List RegDesc := [
  /- SUP_STAT -/ ⟨0x120000, [], [⟨31, 29, .ro, false, false⟩, ⟨28, 28, .ro, false, false⟩, ⟨27, 16, .ro, false, false⟩, ⟨15, 8, .ro, false, false⟩]⟩,
  /- SUP_LOCK -/ ⟨0x120004, [], [⟨31, 31, .ro, false, false⟩, ⟨30, 28, .ro, false, false⟩, ⟨27, 16, .ro, false, false⟩]⟩,
  /- SUP_CNT_ISSUE -/ ⟨0x120008, [], [⟨31, 0, .ro, false, false⟩]⟩]

/-- The registers with prefix SVC. -/
def regTableSVC : List RegDesc := [
  /- SVC_FRAMES -/ ⟨0x120100, [], [⟨31, 0, .ro, false, false⟩]⟩]

/-- The registers with prefix DBG. -/
def regTableDBG : List RegDesc := [
  /- DBG_STAT -/ ⟨0x120104, [], [⟨31, 31, .ro, false, false⟩, ⟨30, 30, .ro, false, false⟩, ⟨15, 0, .ro, false, false⟩]⟩]

/-- The registers with prefix LTA. -/
def regTableLTA : List RegDesc := [
  /- LTA_SITEj -/ ⟨0x1030000, [(64, 0x40000), (3, 0x4)], [⟨31, 0, .ro, false, false⟩]⟩,
  /- LTA_AGEm -/ ⟨0x1030100, [(64, 0x40000), (74, 0x4)], [⟨7, 0, .ro, false, false⟩]⟩]

/-- Every register of the base tier (24 R646). -/
def regTableBase : List RegDesc :=
  regTableSYS ++ regTablePTB ++ regTableEVT ++ regTableTRC ++ regTablePLC ++ regTableNOC ++ regTableKRL ++ regTableLNE ++ regTableXMC ++ regTableSEC ++ regTableCFG ++ regTableSCR ++ regTableCLK ++ regTablePWR ++ regTableTHM ++ regTableBST ++ regTableCRC ++ regTableMBX ++ regTableIOB ++ regTableSUP ++ regTableSVC ++ regTableDBG

/-- Every register of a region (24 R647). -/
def regTableRegion : List RegDesc :=
  regTableRGN ++ regTableCTX ++ regTableMEM ++ regTableENG ++ regTableSCH ++ regTableNI ++ regTableRTR ++ regTableECC ++ regTableLTA

end Sys2Proof.Machine
end

