-- ==== Sys2Proof/Machine/Fence.lean ====
section
/-! DEFINITION. A region's changes of state (02 R44 to R48, R55, R64 to R69, R668): the fence and what it closes, the
restart, DARK, LOADING. -/

namespace Sys2Proof.Machine

/-- The codes of R57 for region states. -/
def RegionState.code : RegionState → Nat
  | .dark => 0
  | .loading => 1
  | .active => 2
  | .fenced => 3
  | .test => 4

/-- A state in which the region works or is held at work: ACTIVE or TEST. -/
def Region.live (r : Region) : Bool := (r.state == .active) || (r.state == .test)

/-- CLOSED_SUMMARY, written when the region leaves FENCED (R668); not in POR, where accounting has ended (R43). -/
def State.closedSummary (s : State) (n : Nat) : State :=
  let c := (s.region n).closed
  (s.logEv 0x0003 1 0 (unitRegion n)
    (c.requests + c.operations * 2 ^ 16 + c.packets * 2 ^ 32 + c.events * 2 ^ 48)).modRegion n
    fun r => { r with closed := {} }

/-- The region takes a state, with its REGION_STATE record (R57); `cause` is written for a fence. -/
def State.rgnTo (s : State) (n : Nat) (st : RegionState) (cause : Nat := 0) : State :=
  let old := (s.region n).state
  let s := if old = .fenced ∧ st ≠ .fenced ∧ s.chip.state ≠ .por then s.closedSummary n else s
  let s := s.modRegion n fun r => { r with
    state := st
    cause := if st = .fenced then cause else r.cause
    heldUE := r.heldUE && st == .fenced
    stuck := r.stuck && st == .fenced
    testSince := if st = .test then s.cyc else r.testSince
    -- the watchdog holds its count in TEST and starts from 0 at an entry to ACTIVE (R62)
    wdHeld := if st = .test then s.cyc - r.wdStart else 0
    wdStart := if st = .active then (if old = .test then s.cyc - r.wdHeld else s.cyc) else r.wdStart }
  -- a clock output that follows the region's fabric clock stops with it (19 R562)
  let s := if old = .active ∧ st ≠ .active ∧ s.chip.outputs ∧
      ((List.range 2).any fun c => s.rd (CLK_CKO_SEL c) == 64 + n) then s.raise CLK_STATUS_CKOSTOP else s
  s.logEv 0x0002 (if st = .fenced then 2 else 0) 0 (unitRegion n) (old.code + st.code * 2 ^ 8 + cause * 2 ^ 16)

/-! ### Partial loads that end (17 R515) -/

/-- A PARTDIR entry and its fields (17 R503). -/
def State.partEntry (s : State) (part : Nat) : Nat := (s.ldr.partDir.get 0#128 part).toNat
def pdAddr (e : Nat) : Nat := bitsOf e 127 96
def pdFallback (e : Nat) : Nat := bitsOf e 95 88
def pdCtx (e : Nat) : Nat := bitsOf e 87 80
def pdValid (e : Nat) : Bool := bitOf e 79
def pdWhole (e : Nat) : Bool := bitOf e 78
def pdRegion (e : Nat) : Nat := bitsOf e 77 72

/-- One request of a partial load is closed: CFG_PSTAT, CFG_PCNT and the CFG_PARTIAL record. -/
def State.partOutcome (s : State) (part rgn mask path status err : Nat) : State :=
  let s := ((s.wr CFG_PSTAT_STATUS status).wr CFG_PSTAT_ERR err).wr CFG_PSTAT_LAST part
  let s := if status = 0 then s.count CFG_PCNT_OK else s.bump CFG_PCNT_FAIL
  s.logEv 0x1103 (if status = 0 then 0 else 1) status (unitRegion rgn)
    (part + rgn * 2 ^ 8 + mask * 2 ^ 14 + err * 2 ^ 22 + path * 2 ^ 30)

/-- A request's outcome is written, or kept for an early wake's occurrence (20 R580). -/
def State.closePart (s : State) (q : PartReq) (rgn mask status err : Nat) : State :=
  if q.early then
    match s.ldr.early.find? fun e => e.part == q.part && e.entry == q.entry with
    | some e =>
      let s := { s with ldr := { s.ldr with early := s.ldr.early.erase e } }
      if e.due then s.partOutcome q.part rgn mask 0 status err
      else { s with ldr := { s.ldr with
        early := s.ldr.early ++ [{ e with region := rgn, mask := mask, outcome := some (status, err) }] } }
    | none => s.partOutcome q.part rgn mask q.path status err
  else s.partOutcome q.part rgn mask q.path status err

/-- A wake for a LOAD_PARTIAL occurrence leaves Kettle's queue without being admitted: its request closes ABORT, an early
one's if its occurrence has fallen due. -/
def State.wakeDropped (s : State) (q : KReq) : State :=
  let mask := pdCtx (s.partEntry q.part)
  if q.kind ≠ 2 then s
  else if q.path = 4 then
    match s.ldr.early.find? fun e => e.entry == q.entry with
    | none => s
    | some e =>
      let s := { s with ldr := { s.ldr with early := s.ldr.early.erase e } }
      if e.due then s.partOutcome q.part q.region mask 0 8 0 else s
  else if q.path = 2 then s
  else s.partOutcome q.part q.region mask q.path 8 0

/-- The running partial ends with an outcome. -/
def State.endPartial (s : State) (status err : Nat) : State :=
  match s.ldr.run with
  | none => s
  | some p =>
    let s := { s with ldr := { s.ldr with run := none } }
    let s := ((s.wr CFG_PSTAT_BUSY 0).wr CFG_PSTAT_FB 0).wr CFG_PSTAT_CUR 0
    let s := s.modCtx p.region fun c => { c with
      loading := (List.range 8).foldl (fun m k => if bitOf p.mask k then clearBit m k else m) c.loading }
    s.closePart p.req p.region p.mask status err

/-! ### Leaving ACTIVE (R55, 04 R119, R127; 05 R160 to R163; 06 R181; 20 R578) -/

/-- Queued requests at Kettle for region `n` are withdrawn; event-table occurrences close MISSED with them. `wake`:
wakes too. -/
def State.kettleWithdraw (s : State) (n : Nat) (wake : Bool) : State :=
  let mine (q : KReq) : Bool := q.region == n && (if q.kind = 2 then wake else true)
  let gone := s.kettle.queue.filter fun q => mine q && q.occ.isNone
  let s := gone.foldl (fun s q =>
    (s.logEv 0x1403 1 8 (unitBase 4) (n + (if q.kind = 4 then 0 else q.kind) * 2 ^ 6)).wakeDropped q) s
  { s with kettle := { s.kettle with queue := s.kettle.queue.filter fun q => !(mine q && q.occ.isNone) } }

/-- What leaves with ACTIVE or TEST, once the new state stands. -/
def State.leaveActive (s : State) (n : Nat) : State :=
  let s := (s.evosOf n).foldl (fun s o => s.clearEvo o) s
  let s := s.ctxRefuseAll n
  let s := s.modFab n fun f => { f.leave with sensors := [] }
  let s := s.kettleWithdraw n false
  let t := s.evt
  let out (o : Occ) : Bool :=
    let e := t.entries.get 0#256 o.entry
    s.actionRegion (eAction e) (eTarget e) == some n && s.missedAtOnce o.entry
  s.missAll 1 out

/-! ### The fence -/

/-- Requests closed at the fence (R668). -/
def State.closedRequests (s : State) (n k : Nat) : State :=
  s.modRegion n fun r => { r with closed := { r.closed with requests := satAdd 16 r.closed.requests k } }

/-- NI `i` closes its own outstanding and waiting requests ABORT (R65); a response that comes later is late. The number
closed. -/
def State.abortOwn (s : State) (i : Nat) : Nat × State :=
  let n := s.ni i
  let tids := n.tids.filter fun e => !e.2.timedOut
  let s := s.modNi i fun n => { n with
    tids := n.tids.map fun e => (e.1, { e.2 with timedOut := true })
    waiting := [] }
  let answer (s : State) (why : ReqFor) (opc : Nat) : State :=
    s.answered i why { typ := 1, opc := 0x30, status := 8, src := i, tid := 0, data := [], addr := opc }
  let s := tids.foldl (fun s e => answer s e.2.why e.2.opc) s
  let s := n.waiting.foldl (fun s a => answer s a.why a.pkt.opc) s
  (tids.length + n.waiting.length, s)

/-- The NI of region `n` answers every accepted request that is not done ABORT, and drops the stream packets it holds
(R65, R66, 12 R372, R373). -/
def State.abortHeld (s : State) (n : Nat) : State :=
  let m := (s.region n).mem
  let held := (s.ni n).held ++ (m.steals.map fun q => q.2).flatten ++ (m.netHeld.map fun q => q.2).flatten
  let drops := (s.ni n).inbox.filter fun p => p.typ == 2
  let s := s.modMem n fun m => { m with steals := [], netHeld := [] }
  let s := s.modNi n fun i => { i with held := [], inbox := i.inbox.filter fun p => p.typ != 2 }
  let s := held.foldl (fun s p => s.respond n p 8 [] 0) (s.closedRequests n held.length)
  drops.foldl (fun s p => s.dropAt n p 3) s

/-- Window requests of engine `e` that the region has accepted complete at their banks; the answers are discarded
(08 R243). -/
def State.finishWindow (s : State) (n e : Nat) : State :=
  (s.engAt n e).outst.foldl (fun s r => if r.rsp.isNone then s.engineRequest n r.bank e r.op (r.mask == 0xFFFF) else s) s

/-- Engines of a region that is fenced (08 R243). -/
def State.haltEngines (s : State) (n : Nat) : State :=
  let s := (List.range 25).foldl (fun s e => s.finishWindow n e) s
  (List.range 25).foldl (fun s e => s.modEngAt n e fun g => g.cleared .halted) s

/-- A region doubt condition fences region `n` (R48); nothing in a region that is FENCED or DARK. -/
def State.fence (s : State) (n cause : Nat) : State :=
  let old := (s.region n).state
  if old = .fenced ∨ old = .dark then s
  else
    let s := (s.modRegion n fun r => { r with closed := {} }).rgnTo n .fenced cause
    let s := s.modScrRgn n fun c => { c with window := false }
    let s := match s.ldr.run with
      | some p => if p.region = n then s.endPartial 8 0 else s
      | none => s
    if old = .loading then s
    else
      let s := s.leaveActive n
      let s := s.abortHeld n
      let (k, s) := s.abortOwn n
      let s := s.closedRequests n k
      let s := (s.haltEngines n).schFence n
      s.mbxClose fun x => x.src == n

/-! ### Restart (R40, R46, R62, R13) -/

/-- Ten seconds in timebase cycles. -/
def tenSeconds : Nat := 15000000000

/-- What R13 keeps of a region's registers at a restart: sticky fields, and what the memory tier holds of its banks
(07 R205). -/
def keptAtRestart (a : Nat) (f : FieldDesc) : Bool :=
  let o := a % 0x40000
  f.acc == .rws || o == 0xC010 || o == 0xC014 || (decide (0xC100 ≤ o) && decide (o < 0xC300))

/-- The offset `o` is one of the instances that `dims` gives. -/
def inDims : Nat → List (Nat × Nat) → Bool
  | o, [] => o == 0
  | o, (c, st) :: t => decide (o / st < c) && inDims (o % st) t

/-- The register at an address, in a table. -/
def regAt (t : List RegDesc) (a : Nat) : Option RegDesc :=
  t.find? fun d => decide (d.base ≤ a) && inDims (a - d.base) d.dims

/-- The field of a region's registers that the register file keeps at key `k`. -/
def regionField (k : Nat) : Option FieldDesc :=
  match regAt regTableRegion (k / 32) with
  | some d => d.fields.find? fun f => f.lo == k % 32
  | none => none

/-- Key `k` belongs to region `n`'s registers. -/
def keyOfRegion (n k : Nat) : Bool := k / 32 / 0x40000 == 64 + n

/-- A key of region `n` that a restart returns to its Reset value. -/
def returnsAtRestart (n k : Nat) : Bool :=
  keyOfRegion n k && (match regionField k with
    | some f => !keptAtRestart (k / 32) f
    | none => false)

/-- The registers of region `n` after a restart (R13). -/
def State.restartRegs (s : State) (n : Nat) : State :=
  let kept := s.regs.filter fun x => !returnsAtRestart n x.1
  let image (k : Nat) : Bool := match regionField k with
    | some f => f.image
    | none => false
  let back := s.imgRegs.filter fun x => returnsAtRestart n x.1 && image x.1
  { s with regs := back.foldl (fun (t : Tbl Nat) x => t.put 0 x.1 x.2) kept }

/-- Restarts of region `n` within the last 10 s (01 R40). -/
def State.restartsNow (s : State) (n : Nat) : List Nat :=
  (s.region n).restarts.filter fun t => decide (s.cyc < t + tenSeconds)

/-- The restart limit is reached: the region is FENCED with cause LIMIT until the next load (R46). -/
def State.limitReached (s : State) (n : Nat) : State :=
  ((s.rgnTo n .fenced 0x25).modRegion n fun r => { r with limit := true }).degrade

/-- Region `n` restarts into ACTIVE from FENCED or LOADING, or reaches the limit (01 R40, R46). -/
def State.restart (s : State) (n : Nat) : State :=
  let r := s.region n
  if r.limit ∨ s.chip.state = .safe ∨ !(r.state == .fenced || r.state == .loading) then s
  else if 3 ≤ (s.restartsNow n).length then s.limitReached n
  else
    let s := s.modRegion n fun r => { r with restarts := s.cyc :: s.restartsNow n }
    let s := (s.restartRegs n).schRestart n
    let s := s.modFab n Fabric.initialise
    let s := (List.range 25).foldl (fun s e => s.modEngAt n e fun g => g.cleared .wait) s
    let s := s.ctxRestart n
    let s := (s.plcInterval n).rgnTo n .active
    -- a mark of UNAVAIL left by a power-down is cleared by a marking flip (12 R379)
    let asked := match s.net.flip with
      | some f => f.marks.contains (n, true)
      | none => false
    if s.mask64 NOC_UNAV_LO_MASK NOC_UNAV_HI_MASK n || asked then s.requestMark n false else s

/-! ### DARK and LOADING -/

/-- The words of the banks of region `n` and their codes are gone or zeroed (07 R205). -/
def State.zeroBanks (s : State) (n : Nat) : State :=
  { s with
    bankMem := s.bankMem.filter fun x => x.1 / 16 / 16640 / 50 != n
    bankSyn := s.bankSyn.filter fun x => x.1 / 16640 / 50 != n }

/-- Banks and engine memories of region `n` are zeroed with a valid code (07 R205, 08 R223). -/
def State.zeroRegion (s : State) (n : Nat) : State :=
  (s.zeroBanks n).modRegion n fun r => { r with
    engs := r.engs.map fun x => (x.1, { x.2 with mem := [], psn := [], syn := [] }) }

/-- Bank copies of a region that goes DARK: nothing is left to copy, so a copy for good or a return ends as a switch
(log entry 40). -/
def State.endCopies (s : State) (n : Nat) : Nat → State
  | 0 => s
  | k + 1 =>
    if s.rd (MEM_COPY_STATE n) = 0 then s
    else ((s.wr (MEM_COPY_STATE n) 2).switchBank n).endCopies n k

/-- What region `n` loses with its power (R44; 07 R205, 13 R397, 10 R311, 11 R340). -/
def State.loseContents (s : State) (n : Nat) : State :=
  let s := s.abandonAll fun r => uRegion r.unit == n && decide (uKind r.unit < 8)
  let s := s.endCopies n 50
  let s := ((s.plcDark n).schDark n).zeroBanks n
  -- a column copy for good has nothing left to copy and ends as if done (log entry 40)
  let s := if s.rd (SCR_RTEST_STATE n) = 0 then s
    else if (s.scrRgn n).copyWhy = 3 then s.columnForGood n (s.rd (SCR_RTEST_COLUMN n))
    else s.columnBack n
  let s := s.modScrRgn n fun c => { c with
    rows := c.rows.map fun x => (x.1, { spare := x.2.spare }), prio := [], clean := false, window := false, restartAfter := false }
  let s := s.modScr fun c => { c with refetch := c.refetch.filter fun f => f.region != n }
  let s := ((s.wr (MEM_COPY_STATE n) 0).wr (MEM_ROWCOPY_ACTIVE n) 0).wr (MEM_ROWCOPY_QUEUED n) 0
  let s := (List.range 48).foldl (fun s b => s.wr (MEM_BANK_OWN_BUSY n b) 0) s
  s.modRegion n fun r => { r with
    engs := r.engs.map fun x => (x.1,
      { (({} : Engine).cleared .halted) with
        state := if x.2.state = .retired then .retired else .halted, failed := x.2.failed, cyc := x.2.cyc })
    fab := { bind := r.fab.bind }
    ctx := {}
    mem := { rowMap := r.mem.rowMap, rowUsed := r.mem.rowUsed, spareUse := r.mem.spareUse }
    ecc := {} }

/-- Region `n` goes DARK (R45). -/
def State.toDark (s : State) (n : Nat) : State :=
  let live := (s.region n).live
  let s := s.rgnTo n .dark
  let s := if live then s.leaveActive n else s
  s.loseContents n

/-- Region `n` enters LOADING from DARK or FENCED (R45); wakes that waited for it are withdrawn (20 R578). -/
def State.toLoading (s : State) (n : Nat) : State :=
  let s := s.rgnTo n .loading
  let s := s.modScrRgn n fun c => { c with clean := false }
  let out (o : Occ) : Bool :=
    let e := s.evt.entries.get 0#256 o.entry
    s.actionRegion (eAction e) (eTarget e) == some n && s.missedAtOnce o.entry
  (s.kettleWithdraw n true).missAll 1 out

end Sys2Proof.Machine
end

