-- ==== Sys2Proof/Machine/Safe.lean ====
section
/-! DEFINITION. The chip's changes of state (02 R41 to R51, R667): SAFE and the causes that lead to it, HALT, POR, OFF,
LOAD. -/

namespace Sys2Proof.Machine

/-- The codes of R57 for chip states. -/
def ChipState.code : ChipState → Nat
  | .off => 0
  | .por => 1
  | .load => 2
  | .start => 3
  | .run => 4
  | .safe => 5
  | .halt => 6

/-- Changes the chip's own state. -/
def State.modChip (s : State) (f : Chip → Chip) : State := { s with chip := f s.chip }

/-- A CHIP_STATE record (R57). -/
def State.logChip (s : State) (old new : ChipState) (mask : Nat) (stamp : Option Nat := none) : State :=
  let cls := if new = .safe ∨ new = .halt then 3 else 0
  s.logRec (s.mkRec 0x0001 cls 0 (unitBase 0) (old.code + new.code * 2 ^ 8 + mask * 2 ^ 16) stamp)

/-- The after-state of a cause is HALT (R47). -/
def haltAfter (cause : Nat) : Bool := cause == 0x02 || cause == 0x04 || cause == 0x0B

/-- SYS_SAFE_CAUSE latches a cause; its field begins at bit 1. -/
def State.latchCause (s : State) (cause : Nat) : State :=
  s.wr SYS_SAFE_CAUSE_CAUSE (setBit (s.rd SYS_SAFE_CAUSE_CAUSE) (cause - 1))

/-! ### HALT, POR, OFF -/

/-- Every region goes DARK with its REGION_STATE record (R45). -/
def State.allDark (s : State) : State :=
  (List.range 64).foldl (fun s n => if (s.region n).state = .dark then s else s.rgnTo n .dark) s

/-- What keeps its contents without the stack: the event log, the count of auto-restarts, the time (R41,
R60, 20 R589), and the model's queue and free values. -/
def State.housekeeping (s : State) : State :=
  { State.reset with
    pending := s.pending
    cyc := s.cyc
    freeCount := s.freeCount
    rsp := s.rsp
    log := s.log
    kettle := { restarts := s.kettle.restarts } }

/-- The chip enters HALT: the stack rails are off (R41, R49). -/
def State.toHalt (s : State) (mask : Nat) : State :=
  let s := s.logChip s.chip.state .halt mask
  let s := s.allDark
  let k := s.housekeeping
  { k with
    regs := s.regs
    jrn := s.jrn
    -- the sensors' marks stand until the next load; the hottest site is not known before the first reading (20 R589)
    therm := { broken := s.therm.broken }
    kettle := { restarts := s.kettle.restarts, haltHot := 100000 }
    chip := { state := .halt, degraded := s.chip.degraded, golden := s.chip.golden, haltMask := mask } }

/-- The chip enters POR (R43): work in flight is discarded, registers take their Reset values; SUP_LOCK holds since the
last exit from OFF (24 R659). -/
def State.toPor (s : State) : State :=
  let s := s.logChip s.chip.state .por 0
  let s := (s.modChip fun c => { c with state := .por, outputs := false, hlth := false }).allDark
  let k := s.housekeeping
  ((k.wr SUP_LOCK_VALID (s.rd SUP_LOCK_VALID)).wr SUP_LOCK_WHERE (s.rd SUP_LOCK_WHERE)).wr SUP_LOCK_PC (s.rd SUP_LOCK_PC)

/-- The chip enters OFF: the event log is cleared too (R43, R60). -/
def State.toOff (s : State) : State :=
  let k := s.housekeeping
  { k with log := {}, kettle := {}, chip := { state := .off } }

/-! ### SAFE -/

/-- Memory contents of the LPDDR5X channels are lost, the channels are down (R49 step 4). -/
def State.xmcStop (s : State) : State :=
  let s := (List.range 8).foldl (fun s c => (s.wr (XMC_CHSTAT_STATE c) 0).wr (XMC_CHSTAT_CACHED c) 0) s
  let s := (s.wr XMC_STATUS_WALK 0).wr XMC_CTRL_MODEBUSY 0
  { s with xmc := { keys := s.xmc.keys, nextKey := s.xmc.nextKey } }

/-- Every Caddy slot is zeroised and EMPTY (16 R469, R486). -/
def State.zeroise (s : State) : State :=
  let s := (List.range 64).foldl (fun s k =>
    (((s.wr (SEC_SLOT_STATE k) 0).wr (SEC_SLOT_MEM k) 0).wr (SEC_SLOT_LINK k) 0).wr (SEC_SLOT_GEN k) 0) s
  { s with xmc := { s.xmc with keys := [] } }

/-- Every source NI closes its own requests ABORT (R65). -/
def State.abortAllOwn (s : State) : State :=
  (List.range 80).foldl (fun s i => (s.abortOwn i).2) s

/-- Step 3 of R49: regions, work in flight, the mailbox, tests, keys. -/
def State.safeClose (s : State) : State :=
  let s := s.abandonAll fun _ => true
  let s := (List.range 64).foldl (fun s n => s.fence n 0x26) s
  let s := s.abortAllOwn
  let s := s.mbxClose fun _ => true
  if s.flag SEC_CFG_ZEROISE then s.zeroise else s

/-- The supervisor stops under SUP_LOCK and WATCHDOG (R51); else its SAFE source pends (08 R247). -/
def State.supInSafe (s : State) (cause : Nat) (first : Bool) : State :=
  if s.sup.stat = 1 ∨ s.sup.stat = 3 then
    if cause = 0x07 then { s with sup := { s.sup with stat := 2 } }
    else if cause = 0x0A then { s with sup := { s.sup with stat := 4 } }
    else if first then ({ s with sup := { s.sup with stat := 3 } }).pendSrc .sup 6
    else s
  else s

/-- Steps 1 to 5 of R49. -/
def State.enterSafe (s : State) (cause : Nat) : State :=
  let old := s.chip.state
  let stamp := if s.tb.running then some s.stamp else none
  let s := s.latchCause cause
  let s := s.modChip fun c => { c with
    state := .safe, entering := true, entryOld := old, entryMask := 2 ^ cause, stayMask := 2 ^ cause
    entryStamp := stamp, haltPending := haltAfter cause, reloadHeld := false
    outputs := false, hlth := false, wdRun := false }
  let s := s.supInSafe cause true
  let s := s.stopMatcher
  let s := (List.range 32).foldl (fun s o => s.clearEvo o) s
  (s.safeClose).xmcStop

/-- A chip doubt condition (R47): SAFE is entered from LOAD, START or RUN; in SAFE the cause is added (R50). -/
def State.doubt (s : State) (cause : Nat) : State :=
  match s.chip.state with
  | .load | .start | .run => s.enterSafe cause
  | .safe =>
    let fresh := !bitOf s.chip.stayMask cause
    let s := (s.latchCause cause).supInSafe cause false
    let s := s.modChip fun c => { c with
      stayMask := setBit c.stayMask cause, haltPending := c.haltPending || haltAfter cause }
    if s.chip.entering then s.modChip fun c => { c with entryMask := setBit c.entryMask cause }
    else
      let s := if fresh then s.logChip .safe .safe (2 ^ cause) else s
      if haltAfter cause then s.toHalt s.chip.stayMask else s
  | _ => s

/-! ### LOAD -/

/-- No PLL is ready, and no domain but HK runs from one, from the entry to LOAD (19 R546, R548). -/
def State.pllsOff (s : State) : State :=
  let s := s.wr CLK_READY_READY (s.rd CLK_READY_READY % 256)
  let s := (List.range 8).foldl (fun s i => (s.wr (CLK_PLL_CFG_LOCK i) 0).wr (CLK_PLL_CFG_HOLD i) 0) s
  [0, 1, 2, 3, 4, 5, 6, 8].foldl (fun s d => s.wr (CLK_DOM_ACT d) 0) s

/-- Registers that show what a load begins anew (04 R132, 12 R380 to R382, 17 R523, 16 R491, 20 R588, 11 R341,
23 R632, R637). -/
def State.loadRegs (s : State) : State :=
  let s := ((s.wr EVT_CNT_FIRED_COUNT 0).wr EVT_CNT_LATE_COUNT 0).wr EVT_CNT_MISSED_COUNT 0
  let s := [NOC_RFAULT_LO_MASK, NOC_RFAULT_HI_MASK, NOC_ROUT_LO_MASK, NOC_ROUT_HI_MASK, NOC_UNAV_LO_MASK, NOC_UNAV_HI_MASK,
    NOC_STATUS_EPOCH, NOC_STATUS_FLIPPEND, SEC_STATUS_COUNT, CFG_STATUS_PHASE, CFG_STATUS_ATTEMPT, CFG_STATUS_GOLDEN,
    CFG_STATUS_DEFBOOT, CFG_STATUS_JFAIL, CFG_STATUS_OCTAL, CFG_STATUS_SIGNED, CFG_STATUS_ENCRYPTED, CFG_STATUS_CTXCOUNT,
    CFG_ERR_ERR0, CFG_ERR_ERR1, CFG_ERR_ERR2, CFG_JCNT_WRITTEN].foldl (fun s f => s.wr f 0) s
  let s := (List.range 256).foldl (fun s l =>
    ((s.wr (RTR_LINK_DEAD (l / 4) (l % 4)) 0).wr (RTR_LINK_PENDREP (l / 4) (l % 4)) 0).wr (RTR_LINK_REPAIRED (l / 4) (l % 4)) 0) s
  let s := (List.range 208).foldl (fun s k =>
    ((s.wr (THM_SITE_BROKEN0 k) 0).wr (THM_SITE_BROKEN1 k) 0).wr (THM_SITE_SUBST k) 0) s
  let s := (List.range 64).foldl (fun s n =>
    [SCR_RTEST_STATE n, SCR_RTEST_COLUMN n, SCR_RTEST_SPUSE n, SCR_RTEST_SPCOL n, SCR_RSTAT_CTX n, SCR_RSTAT_FRAME n,
      SCR_RAGE_AGE n, SCR_RAGE_MON n].foldl (fun s f => s.wr f 0) s) s
  let s := (s.wr IOB_VIO_OKA 0).wr IOB_VIO_OKB 0
  let s := (List.range 8).foldl (fun s b => (s.wr (IOB_SB_LOCK_LO_LOCK b) 0).wr (IOB_SB_LOCK_HI_LOCK b) 0) s
  (List.range 64).foldl (fun s n => ((s.wr (THM_RGN_SUBST n) 0).wr (PLC_RGN_DISP n) 0).wr (PLC_RGN_STRANDED n) 0) s

/-- The chip enters LOAD from POR or SAFE: units other than memories, log, mailbox and registers begin anew (log entry
41). -/
def State.toLoad (s : State) : State :=
  let s := s.logChip s.chip.state .load 0
  let s := s.zeroise
  let s := (s.xmcStop.pllsOff.loadRegs).wr XMC_CTRL_MODE 0
  { s with
    chip := { state := .load }
    imgRegs := []
    tb := {}
    evt := {}
    kettle := { restarts := s.kettle.restarts }
    therm := {}
    clk := { wins := s.clk.wins.filter fun x => decide (x.1 < 8) }
    xmc := {}
    bist := { s.bist with runs := [], comps := [] }
    iob := {}
    net := {}
    plc := {}
    krl := {}
    scrub := {}
    sup := { issued := s.sup.issued }
    lanes := {}
    crcs := []
    ldr := { since := s.cyc } }

/-- Step 6 and 7 of R49, and a RELOAD that was held (R667). -/
def State.safeDone (s : State) : State :=
  let s := s.logChip s.chip.entryOld .safe s.chip.entryMask s.chip.entryStamp
  let s := s.modChip fun c => { c with entering := false }
  if s.chip.haltPending then s.toHalt s.chip.stayMask
  else if s.chip.reloadHeld then s.toLoad
  else s

end Sys2Proof.Machine
end

