-- ==== Sys2Proof/Machine/KettleOps.lean ====
section
/-! DEFINITION. Kettle's and the thermal unit's shared operations (20): the bucket, queueing and replacing requests, the
sequencer, power-down, skip levels, broken sensors. -/

namespace Sys2Proof.Machine

/-- Changes Kettle. -/
def State.modKet (s : State) (f : Kettle → Kettle) : State := { s with kettle := f s.kettle }

/-- The unit identifiers of PWR and THM records (R590). -/
def unitPwr : Nat := unitBase 4

/-! ### The bucket (R574) -/

/-- The bucket as it stands, in 1/1,500 of 0.1 A: RATE per cycle up to CAP. -/
def State.creditNow (s : State) : Nat :=
  min (s.rd PWR_KCFG_CAP * 1500) (s.kettle.credit + s.rd PWR_KCFG_RATE * (s.cyc - s.kettle.creditAt))

/-- Settles the bucket at the present cycle, `cost` (0.1 A) taken out. -/
def State.spend (s : State) (cost : Nat) : State :=
  let c := s.creditNow
  s.modKet fun k => { k with credit := c - cost * 1500, creditAt := s.cyc }

/-- The point of a region's domain in force: 0 fabric, 1 engine. -/
def State.pointOf (s : State) (n d : Nat) : Nat := if d = 0 then s.rd (PWR_RGN_FPT n) else s.rd (PWR_RGN_EPT n)

/-- Points apart. -/
def apart (a b : Nat) : Nat := (a - b) + (b - a)

/-- The domains a request changes. -/
def KReq.doms (q : KReq) : List Nat :=
  match q.kind with
  | 0 => [0]
  | 1 => [1]
  | 2 => []
  | _ => [0, 1]

/-- The kinds of R575 a request occupies. -/
def KReq.kinds (q : KReq) : List Nat :=
  match q.kind with
  | 4 => [0, 1]
  | k => [k]

/-- What a request costs, in 0.1 A (R574). -/
def State.costOf (s : State) (q : KReq) : Nat :=
  match q.kind with
  | 2 => s.rd PWR_KCOST_WAKE
  | 3 => s.rd PWR_KCOST_MSTEP
  | _ => (q.doms.map fun d => apart q.point (s.pointOf q.region d) *
      (if d = 0 then s.rd PWR_KCOST_FSTEP else s.rd PWR_KCOST_ESTEP)).sum

/-! ### Queueing (R575, R578) -/

/-- A request that is replaced or withdrawn, and is not an occurrence (R575, R578). -/
def State.replaced (s : State) (q : KReq) : State :=
  (s.logEv 0x1403 1 8 unitPwr (q.region + (if q.kind = 4 then 0 else q.kind) * 2 ^ 6)).wakeDropped q

/-- An older request gives way to a new one of its kind (R575). -/
def State.giveWay (s : State) (q : KReq) : State :=
  let s := s.modKet fun k => { k with queue := k.queue.erase q }
  match q.occ with
  | none => s.replaced q
  | some id => match s.evt.pend.find? fun o => o.id == id with
    | some o => s.missPend 5 o
    | none => s

/-- A request joins the queue. A point or margin request for a region that is neither ACTIVE nor TEST is withdrawn at
once (log entry 42). -/
def State.kettleQueue (s : State) (q : KReq) : State :=
  if q.kind ≠ 2 ∧ !(s.region q.region).live then
    match q.occ with
    | none => s.replaced q
    | some _ => s
  else
    let old := s.kettle.queue.filter fun x => x.region == q.region && x.kinds.any fun k => q.kinds.contains k
    let s := old.foldl (fun s x => s.giveWay x) s
    s.modKet fun k => { k with queue := k.queue ++ [q] }

/-! ### The sequencer (R571, R572) -/

/-- The voltage of a point in mV, with the region's margin steps. -/
def State.pointMv (s : State) (n p : Nat) : Nat := 700 - 50 * p + 10 * s.rd (SCR_RAGE_MARGIN n)

/-- The rail of a region's domain (R568). -/
def railOf (n d : Nat) : Nat := if d = 0 then n else 64 + n

/-- The domain is busy with a change. -/
def State.setBusy (s : State) (n d v : Nat) : State :=
  if d = 0 then s.wr (PWR_RGN_FBUSY n) v else s.wr (PWR_RGN_EBUSY n) v

def State.setPoint (s : State) (n d v : Nat) : State :=
  if d = 0 then s.wr (PWR_RGN_FPT n) v else s.wr (PWR_RGN_EPT n) v

def State.domBusy (s : State) (n d : Nat) : Bool :=
  if d = 0 then s.flag (PWR_RGN_FBUSY n) else s.flag (PWR_RGN_EBUSY n)

/-- A change begins: the rail takes its new target; a lower point's clock is switched at once (R572). -/
def State.startMove (s : State) (n d p : Nat) : State :=
  let s := (s.setBusy n d 1).wr (PWR_RAIL_MV (railOf n d)) (s.pointMv n p)
  let s := if s.pointOf n d < p then s.setPoint n d p else s
  s.modKet fun k => { k with moves := k.moves ++ [⟨n, d, p⟩] }

/-- The region rises to its initial points (R573, R579 step 6, 17 R511 step 1). -/
def State.raiseInitial (s : State) (n : Nat) : State :=
  (s.startMove n 0 (s.rd (PWR_RGN_INITF n))).startMove n 1 (s.rd (PWR_RGN_INITE n))

/-! ### Power-down (R581) -/

/-- A power-down is taken (step 1): from now on R119 and R512 treat the region as DARK. -/
def State.takeDown (s : State) (n : Nat) : State :=
  if (s.region n).state ≠ .active ∨ s.flag (PWR_RGN_DOWN n) then s
  else
    let s := s.raise (PWR_RGN_DOWN n)
    let out (o : Occ) : Bool :=
      let e := s.evt.entries.get 0#256 o.entry
      s.actionRegion (eAction e) (eTarget e) == some n && s.missedAtOnce o.entry
    s.missAll 1 out

/-- A power-down request: taken, waiting while the region is in TEST, or refused. -/
def State.askDown (s : State) (n : Nat) : Bool × State :=
  match (s.region n).state with
  | .active => (true, s.takeDown n)
  | .test => (true, if s.kettle.downWait.contains n then s else s.modKet fun k => { k with downWait := k.downWait ++ [n] })
  | _ => (false, s)

/-! ### Skip levels (R582, R585, R586, R588) -/

/-- Site `x` reads its substitute value. -/
def State.substSite (s : State) (x : Nat) : Bool :=
  s.therm.broken.contains (x * 2) && s.therm.broken.contains (x * 2 + 1)

/-- A site's reading: its higher unbroken sensor, or throttle + 1 °C (R583, R588); none before the first sample. -/
def State.siteReading (s : State) (x : Nat) : Option Int :=
  if s.substSite x then some ((s.rd THM_CFG_THROT + 1 : Nat) * 8)
  else
    let v (i : Nat) : Option Int :=
      if s.therm.broken.contains (x * 2 + i) then none
      else (s.therm.raw.find? fun r => r.1 == x * 2 + i).map fun r => r.2
    match v 0, v 1 with
    | some a, some b => some (max a b)
    | some a, none => some a
    | none, b => b

/-- The highest of some readings. -/
def hottest (l : List (Option Int)) : Option Int :=
  l.foldl (fun m r => match m, r with
    | some a, some b => some (max a b)
    | none, b => b
    | a, none => a) none

/-- The sites of a region (01 R32). -/
def sitesOf (n : Nat) : List Nat := [3 * n, 3 * n + 1, 3 * n + 2]

/-- The skip level K of region `n` (R585). -/
def State.skipLevel (s : State) (n : Nat) : Nat :=
  let floor := if (sitesOf n).any s.substSite then s.rd THM_CFG_SUBK else 0
  max (max (s.rd (THM_RGN_KT n)) s.kettle.pk) floor

/-- A temperature as a register field holds it. -/
def tempBits (t : Int) : Nat := unsignedOf 16 t

/-- A sensor is marked broken (R588): reason 1 out of range, 2 stuck, 3 reference failed. -/
def State.sensorBroken (s : State) (x reason : Nat) : State :=
  if s.therm.broken.contains x then s
  else
    let site := x / 2
    let s := { s with therm := { s.therm with broken := s.therm.broken ++ [x] } }
    let s := (if x % 2 = 0 then s.raise (THM_SITE_BROKEN0 site) else s.raise (THM_SITE_BROKEN1 site)).raise THM_STATUS_BROKEN
    let sub := s.substSite site
    let s := s.logEv 0x1407 1 (if sub then 3 else 0) (unitId 0 9 x) (reason + b2n sub * 2 ^ 3)
    if sub then
      let s := (s.raise (THM_SITE_SUBST site)).raise THM_STATUS_SUBST
      let s := if site < 192 then s.raise (THM_RGN_SUBST (site / 3)) else s
      s.degrade
    else s

/-- The reference check of a sensor starts, or joins the one that runs (21 R601). -/
def State.askSensor (s : State) (x : Nat) : State :=
  let r : BistRun := ⟨unitId 0 9 x, 6⟩
  if s.bist.runs.contains r then s else s.modBist fun b => { b with runs := b.runs ++ [r] }

/-- Both sensors of a site take the reference check (R588). -/
def State.askSite (s : State) (x : Nat) : State :=
  let s := (s.askSensor (2 * x)).askSensor (2 * x + 1)
  { s with therm := { s.therm with
    asked := if s.therm.asked.contains x then s.therm.asked else s.therm.asked ++ [x]
    passed := s.therm.passed.filter fun y => y / 2 != x } }

/-- The phases built into a rail (R568). -/
def phasesBuilt (r : Nat) : Nat :=
  if r < 64 then 6 else if r < 128 then 4
  else match r with
  | 128 | 131 | 133 => 5
  | 129 => 10
  | 130 => 4
  | 132 => 6
  | _ => 3

/-- Phases in service on a rail. -/
def State.phasesLeft (s : State) (r : Nat) : Nat :=
  phasesBuilt r - (s.kettle.shed.filter fun x => x / 16 == r).length

end Sys2Proof.Machine
end

