-- ==== Sys2Proof/Machine/XmcOps.lean ====
section
/-! DEFINITION. External memory and Caddy, shared operations (16): the security alarm, the judgement of a request, lines
with their counters and marks, the metadata cache. -/

namespace Sys2Proof.Machine

/-- Changes the controller. -/
def State.modXmc (s : State) (f : Xmc → Xmc) : State := { s with xmc := f s.xmc }

/-- The unit identifiers of XMC and SEC records (R488). -/
def unitXmc : Nat := unitBase 9
def unitSec : Nat := unitBase 0xA

/-! ### Channels (R465) -/

/-- A channel is DOWN: reason 1 training, 2 tracking lost. -/
def State.channelDown (s : State) (c reason : Nat) : State :=
  ((s.wr (XMC_CHSTAT_STATE c) 0).logEv 0x1005 2 3 unitXmc (c + 2 ^ 3 + reason * 2 ^ 4)).degrade

/-- Every channel is DOWN, with one record (19 R555). -/
def State.allChannelsDown (s : State) : State :=
  let s := (List.range 8).foldl (fun s c => s.wr (XMC_CHSTAT_STATE c) 0) s
  (s.logEv 0x1005 2 3 unitXmc (2 ^ 3 + 2 * 2 ^ 4)).degrade

/-! ### The security alarm (R486) -/

/-- The alarm rises from a source. -/
def State.secAlarm (s : State) (src : Nat) : State :=
  let s := ((s.raise SEC_STATUS_ALARM).bump SEC_STATUS_COUNT).wr SEC_STATUS_LASTSRC src
  let safe := s.flag SEC_CFG_POL
  let s := s.logEvLimited src 0x1007 (if safe then 3 else 1) 6 unitSec src
  if safe then s.doubt 0x09 else s

/-- A failure of R480 or of a walk that raises the alarm: counted and logged, its alarm still to rise. -/
def State.tagFailed (s : State) (la key case : Nat) : State :=
  ((s.bump XMC_CNT_SEC_TAGFAIL).raise XMC_STATUS_TAGFAIL).logEvLimited unitXmc 0x1001 1 6 unitXmc
    (la * 2 ^ 6 + key * 2 ^ 36 + case * 2 ^ 42)

/-- A block (R472): reason 1 range, 2 retired or empty, 3 external source, 4 clear request to protected memory. -/
def State.xmBlock (s : State) (a key reason : Nat) : State :=
  ((s.bump XMC_CNT_SEC_BLOCK).raise XMC_STATUS_BLOCK).logEvLimited unitXmc 0x1002 1 6 unitXmc
    (a / 64 * 2 ^ 6 + key * 2 ^ 36 + reason * 2 ^ 42)

/-! ### Judging a request (R472, R473, R485) -/

/-- The page lies in a range whose registers are `lo` and `hi`. -/
def State.inRange (s : State) (valid lo hi : Fld) (page : Nat) : Bool :=
  s.flag valid && decide (s.rd lo ≤ page) && decide (page < s.rd hi)

def State.inUrange (s : State) (page : Nat) : Bool :=
  (List.range 4).any fun u => s.inRange (XMC_URANGE_LO_VALID u) (XMC_URANGE_LO_PAGE u) (XMC_URANGE_HI_PAGE u) page

def State.inKrange (s : State) (k page : Nat) : Bool :=
  s.inRange (XMC_KRANGE_LO_VALID k) (XMC_KRANGE_LO_PAGE k) (XMC_KRANGE_HI_PAGE k) page

/-- The range-mode key of a page. -/
def State.rangeKey (s : State) (page : Nat) : Option Nat :=
  ((List.range 4).find? fun r => s.inRange (XMC_RMODE_LO_VALID r) (XMC_RMODE_LO_PAGE r) (XMC_RMODE_HI_PAGE r) page).map
    fun r => s.rd (XMC_RMODE_LO_KEY r)

/-- What the judgement says: served under a slot (0 clear), or answered with a status, by a block's reason or 0. -/
inductive XmVerdict where
  | serve (slot : Nat)
  | refuse (status reason : Nat)
deriving DecidableEq, Repr

/-- The page is in the range of a running walk and the key is one of its two: the slot that serves it (R485). -/
def State.walkSlot (s : State) (key page : Nat) : Option Nat :=
  match s.xmc.walk with
  | none => none
  | some w =>
    if (key = w.old ∨ key = w.new) ∧ w.base ≤ page ∧ page < w.limit then
      some (if page < w.base + w.done then w.new else w.old)
    else none

/-- The rows on the slot of a key. -/
def State.slotVerdict (s : State) (key page : Nat) (keyed write : Bool) : XmVerdict :=
  let st := s.rd (SEC_SLOT_STATE key)
  if st = 0 ∨ st = 4 ∨ !s.flag (SEC_SLOT_MEM key) then .refuse 6 2
  else match s.walkSlot key page with
  | some k => if write && s.rd (SEC_SLOT_STATE k) == 2 then .refuse 0xA 0 else .serve k
  | none =>
    if keyed && !s.inKrange key page then .refuse 6 1
    else if write && st == 2 then .refuse 0xA 0
    else .serve key

/-- R472 and R473. -/
def State.xmJudge (s : State) (src key a : Nat) (write : Bool) : XmVerdict :=
  let page := a / 4096
  let keyed := s.flag XMC_CTRL_MODE
  if 8 * s.chanData ≤ a then .refuse 4 0
  else
    let key? := if keyed then some key else s.rangeKey page
    match key? with
    | none => .refuse 6 1
    | some key =>
      let clear := s.inUrange page
      if 76 ≤ src ∧ (key ≠ 0 ∨ !clear) then .refuse 6 3
      else if !s.flag XMC_CFG_PROT then (if key = 0 then .serve 0 else .refuse 6 1)
      else if !keyed then (if key = 0 then .serve 0 else s.slotVerdict key page false write)
      else if key = 0 then (if clear then .serve 0 else .refuse 6 4)
      else if clear then .refuse 6 1
      else s.slotVerdict key page true write

/-! ### The metadata cache (R477, R481) -/

/-- Levels of the counter tree that are stored: up to the first with at most 64 nodes. -/
def treeLevels : Nat → Nat → Nat
  | 0, _ => 0
  | k + 1, pages => if (pages + 7) / 8 ≤ 64 then 1 else 1 + treeLevels k ((pages + 7) / 8)

/-- A metadata line's name: its kind (0 counter, 1 to 12 tree level, 14 tag, 15 ECC) and its number. -/
def metaLine (kind i : Nat) : Nat := kind * 2 ^ 48 + i

/-- Metadata lines enter the cache of channel `c`; the oldest make room (log entry 44). -/
def State.cacheLines (s : State) (c : Nat) (ids : List Nat) : State :=
  let l := ids.foldl (fun (l : List Nat) x => if l.contains x then l else (l ++ [x])) (s.xmc.cached.get [] c)
  let l := l.drop (l.length - 4096)
  (s.wr (XMC_CHSTAT_CACHED c) l.length).modXmc fun x => { x with
    cached := x.cached.set c l
    warm := if 2048 ≤ l.length ∧ !x.warm.contains c then x.warm ++ [c] else x.warm }

/-- The nodes fetched on the way to a cached one or to the roots. -/
def fetchedNodes (have_ : List Nat) (page : Nat) : Nat → Nat → List Nat
  | 0, _ => []
  | k + 1, level =>
    let id := metaLine level (page / 8 ^ level)
    if have_.contains id then [] else id :: fetchedNodes have_ page k (level + 1)

/-- What an access of a line caches. -/
def State.touchMeta (s : State) (la : Nat) (prot : Bool) : State :=
  let (c, x) := s.chanOf (la * 64)
  let line := x / 64
  let page := x / 4096
  let dc := s.chanData
  let have_ := s.xmc.cached.get [] c
  let ctr := metaLine 0 page
  let tree := if prot then
      (if have_.contains ctr then [] else ctr :: fetchedNodes have_ page (treeLevels 12 (dc / 4096)) 1) ++
        [metaLine 14 (line / 8)]
    else []
  let ecc := if s.flag XMC_CFG_ECC then
      metaLine 15 (line / 8) ::
        (if prot then [metaLine 15 ((dc + 8 * line) / 512), metaLine 15 ((dc * 9 / 8 + 64 * page) / 512)] else [])
    else []
  s.cacheLines c (tree ++ ecc).eraseDups

/-! ### Lines -/

/-- Line `la` (A div 64). -/
def State.xmLine (s : State) (la : Nat) : XmLine := s.xmc.lines.get {} la

def State.setXmLine (s : State) (la : Nat) (l : XmLine) : State := s.modXmc fun x => { x with lines := x.lines.set la l }

/-- MAJOR of the page of line `la`. -/
def State.xmMajor (s : State) (la : Nat) : Nat := s.xmc.majors.get 0 (la / 64)

/-- The page of line `la` is sealed. -/
def State.xmSealed (s : State) (la : Nat) : Bool :=
  let (c, x) := s.chanOf (la * 64)
  s.xmc.sealed.any fun r => r.1 == c && decide (r.2.1 ≤ x / 4096) && decide (x / 4096 < r.2.1 + r.2.2)

/-- Seals the pages below the node of a level above line `la`: level 0 its own page. -/
def State.sealPages (s : State) (la level : Nat) : State :=
  let (c, x) := s.chanOf (la * 64)
  let n := 8 ^ level
  (s.raise XMC_STATUS_SEALED).modXmc fun m => { m with sealed := m.sealed ++ [(c, x / 4096 / n * n, n)] }

/-- Word `w` of a line. -/
def lineWord (d : BitVec 512) (w : Nat) : Line := BitVec.ofNat 128 (d.toNat / 2 ^ (128 * w))

/-- A line with word `w` replaced. -/
def setLineWord (d : BitVec 512) (w : Nat) (x : Line) : BitVec 512 :=
  BitVec.ofNat 512 (setBits d.toNat (128 * w + 127) (128 * w) x.toNat)

/-- What an access does to one line: words read; words written as (word, mask, data, poison); an atomic. -/
inductive LineOp where
  | read (ws : List Nat)
  | write (ws : List (Nat × Nat × Line × Bool))
  | atomic (op : BankOp) (w mask : Nat) (d : Line) (psn : Bool)
deriving DecidableEq, Repr

def LineOp.isRead : LineOp → Bool
  | .read _ => true
  | _ => false

/-- A whole-line write (R479). -/
def LineOp.isWhole : LineOp → Bool
  | .write ws => ws.length == 4 && ws.all fun x => x.2.1 == 0xFFFF
  | _ => false

/-- An operand carries poison. -/
def LineOp.poisoned : LineOp → Bool
  | .read _ => false
  | .write ws => ws.any fun x => x.2.2.2
  | .atomic _ _ _ _ p => p

/-- What an operation makes of a line: its contents, the words then poisoned, the words answered with their poison, the
status, and whether it writes. -/
structure LineRes where
  data : BitVec 512
  psn : Nat
  words : List (Line × Bool) := []
  status : Nat := 0
  writes : Bool := true
deriving DecidableEq, Repr

/-- One written word. -/
def LineRes.writeWord (r : LineRes) (x : Nat × Nat × Line × Bool) : LineRes :=
  let (w, mask, d, p) := x
  let old := bitOf r.psn w
  let full := mask == 0xFFFF
  { r with
    data := setLineWord r.data w (if full then d else mergeLine (lineWord r.data w) d mask)
    psn := setBits r.psn w w (b2n (p || (old && !full)))
    status := if old && !full then worse r.status 2 else r.status }

/-- The operation on the line as it stands. -/
def lineApply (d : BitVec 512) (psn : Nat) : LineOp → LineRes
  | .read ws =>
    { data := d, psn := psn, words := ws.map fun w => (lineWord d w, bitOf psn w)
      status := if ws.any fun w => bitOf psn w then 2 else 0, writes := false }
  | .write ws => ws.foldl (fun r x => r.writeWord x) { data := d, psn := psn }
  | .atomic op w mask x p =>
    match atomicTarget op mask with
    | none => { data := d, psn := psn, status := 4, writes := false }
    | some (lo, wd) =>
      let cur := lineWord d w
      let old := bitsOf cur.toNat (lo + wd - 1) lo
      let bad := bitOf psn w
      let arg := x.toNat % 2 ^ wd
      let new := if op = .swap64 then arg else (old + arg) % 2 ^ wd
      { data := if p then d else setLineWord d w (BitVec.ofNat 128 (setBits cur.toNat (lo + wd - 1) lo new))
        psn := psn, words := [(BitVec.ofNat 128 old, bad)], status := if bad || p then 2 else 0, writes := !p }

/-- What an access of a line answers: status, words with poison, alarms that rise. -/
structure LineAns where
  status : Nat
  words : List (Line × Bool) := []
  alarms : List Nat := []
deriving DecidableEq, Repr

/-- The number of words an operation answers. -/
def LineOp.answers : LineOp → Nat
  | .read ws => ws.length
  | .write _ => 0
  | .atomic _ _ _ _ _ => 1

/-- An answer without data. -/
def noData (op : LineOp) (status : Nat) (alarms : List Nat) : LineAns :=
  ⟨status, List.replicate op.answers (0#128, false), alarms⟩

/-! ### Access in clear -/

/-- The line as a clear read sees it: data never written, and ciphertext, are free values (log entry 9). -/
def State.clearData (s : State) (la : Nat) : BitVec 512 :=
  let free (k : Nat) : BitVec 512 := (List.range 4).foldl (fun (d : BitVec 512) w =>
    setLineWord d w (Config.freeDram k (la * 4 + w))) 0#512
  match s.xmc.lines.find? fun x => x.1 == la with
  | none => free (2 * s.ldr.since)
  | some (_, l) => if l.key = 0 then l.data else free (2 * (l.key + l.minor * 2 ^ 32 + s.xmMajor la * 2 ^ 40) + 1)

/-- An access of a line in clear (R472, R478 to R480). -/
def State.clearAccess (s : State) (la : Nat) (what : XmWhat) (op : LineOp) : LineAns × State :=
  let ecc := s.flag XMC_CFG_ECC
  let l := s.xmLine la
  let (ue, st, s) := if !ecc || op.isWhole then (0, 0, s) else match what with
    | .corrected n => (0, if n.val = 0 then 0 else 1, s.bump XMC_CNT_ECC_CE n)
    | .dataUe m => (m.val, 0, s.bump XMC_CNT_ECC_UE ((List.range 4).filter fun w => bitOf m w).length)
    | _ => (0, 0, s)
  let old := if l.key = 0 then l.psn else 0
  let r := lineApply (s.clearData la) (old ||| ue) op
  let s := s.touchMeta la false
  let s := if !r.writes then s
    else
      let s := if !ecc && op.poisoned then s.bump XMC_CNT_MISC_PSNLOST else s
      s.setXmLine la { l with data := r.data, key := 0, psn := if ecc then r.psn else 0 }
  (⟨worse r.status st, r.words, []⟩, s)

/-! ### Access under a key (R475 to R480) -/

/-- The key value of a slot. -/
def State.keyNo (s : State) (slot : Nat) : Nat := s.xmc.keys.get 0 slot

/-- A line after the re-encryption of its page (R476): one that fails verification becomes sealed-poisoned, as under a
walk (log entry 45). -/
def reencrypted (key major : Nat) (l : XmLine) : XmLine × Bool :=
  let fail := !(major == 0 && l.minor == 0) && l.mark == 0 && l.key != key
  let l := if major = 0 ∧ l.minor = 0 then {} else l
  ({ l with key := key, minor := 1, mark := if fail then 2 else l.mark }, fail)

/-- A line is written under slot `slot` with `mark`: its counters advance; alarms that rise (R476). -/
def State.keyedWrite (s : State) (la slot : Nat) (d : BitVec 512) (psn mark : Nat) : Nat × List Nat × State :=
  let key := s.keyNo slot
  let l := s.xmLine la
  let major := s.xmMajor la
  if l.minor < 127 then (0, [], s.setXmLine la { data := d, key := key, minor := l.minor + 1, psn := psn, mark := mark })
  else if major + 1 = 2 ^ 64 - 1 then
    let s := if s.rd (SEC_SLOT_STATE slot) = 1 then s.wr (SEC_SLOT_STATE slot) 2 else s
    (0xA, [3], (s.raise XMC_STATUS_EXHAUST).logEv 0x1003 2 0xA unitXmc (slot + la / 64 * 2 ^ 12))
  else
    let page := la / 64
    let (al, s) := (List.range 64).foldl (fun (x : List Nat × State) i =>
      let (al, s) := x
      let k := page * 64 + i
      if k = la then (al, s)
      else
        let (n, fail) := reencrypted key major (s.xmLine k)
        let s := s.setXmLine k n
        if fail then (al ++ [1], s.tagFailed k slot 2) else (al, s)) ([], s)
    let s := (s.setXmLine la { data := d, key := key, minor := 1, psn := psn, mark := mark }).modXmc fun x => { x with
      majors := x.majors.set page (major + 1) }
    (0, al, s.count XMC_CNT_MISC_REENC)

/-- The operation on a protected line whose checks have passed. -/
def State.keyedApply (s : State) (la slot : Nat) (d : BitVec 512) (psn mark : Nat) (st : Nat) (op : LineOp) :
    LineAns × State :=
  let ecc := s.flag XMC_CFG_ECC
  let r := lineApply d psn op
  if !r.writes then (⟨worse r.status st, r.words, []⟩, s)
  else
    let st := if mark = 1 then worse st 2 else st
    let mark := if op.isWhole then 0 else mark
    let mark := if !ecc && op.poisoned then 1 else mark
    let (bad, al, s) := s.keyedWrite la slot r.data (if ecc then r.psn else 0) mark
    (⟨if bad = 0 then worse r.status st else bad, r.words, al⟩, s)

/-- An access of a protected line (R480, by its rows). -/
def State.keyedAccess (s : State) (la slot : Nat) (what : XmWhat) (op : LineOp) : LineAns × State :=
  let ecc := s.flag XMC_CFG_ECC
  let (c, x) := s.chanOf (la * 64)
  if s.xmSealed la then (noData op 6 [], s)
  else
    let s := s.touchMeta la true
    match what, ecc with
    | .tree level, _ => (noData op 6 [2], (s.sealPages la level).tagFailed la slot (if level.val = 0 then 4 else 5))
    | .metaUe, true =>
      (noData op 6 [],
        ((s.sealPages la 0).bump XMC_CNT_ECC_UE).logEv 0x1006 1 6 unitXmc (c + x / 64 * 2 ^ 6))
    | _, _ =>
      let l := s.xmLine la
      if s.xmMajor la = 0 ∧ l.minor = 0 then s.keyedApply la slot 0#512 0 0 0 op
      else if op.isWhole then s.keyedApply la slot l.data 0 0 0 op
      else match what, ecc with
      | .dataUe m, true =>
        let s := s.bump XMC_CNT_ECC_UE ((List.range 4).filter fun w => bitOf m w).length
        s.keyedApply la slot l.data (l.psn ||| m.val) l.mark 2 op
      | _, _ =>
        let (st, s) := match what, ecc with
          | .corrected n, true => (if n.val = 0 then 0 else 1, s.bump XMC_CNT_ECC_CE n)
          | _, _ => (0, s)
        if l.mark = 2 then (noData op 6 [1], s.tagFailed la slot 3)
        else if l.mark = 1 ∧ op.isRead then s.keyedApply la slot l.data 0xF 1 2 op
        else if l.mark = 0 ∧ (what = .tag ∨ l.key ≠ s.keyNo slot) then
          if op.isRead then (noData op 6 [1], s.tagFailed la slot 1)
          else (noData op 6 [1], (s.setXmLine la { l with mark := 2 }).tagFailed la slot 2)
        else s.keyedApply la slot l.data l.psn l.mark st op

/-! ### Requests (R357, R358, R467, R479) -/

/-- The words a request names, as (line, word of the line, payload word). -/
def xmWords (a k : Nat) : List (Nat × Nat × Nat) :=
  (List.range k).map fun i => ((a / 16 + i) / 4, (a / 16 + i) % 4, i)

/-- The operation a request makes on line `la`. -/
def xmLineOp (p : Packet) (op : BankOp) (ws : List (Nat × Nat × Nat)) (la : Nat) : LineOp :=
  let mine := ws.filter fun x => x.1 == la
  match op with
  | .read => .read (mine.map fun x => x.2.1)
  | .write => .write (mine.map fun x =>
      (x.2.1, if x.2.2 = 0 ∧ p.opc ≠ 0x07 then p.be else 0xFFFF, p.data.getD x.2.2 0#128, bitOf p.psn x.2.2))
  | _ => .atomic op ((mine.map fun x => x.2.1).getD 0 0) p.be (p.data.getD 0 0#128) (bitOf p.psn 0)

/-- One line of a request. -/
def State.xmAccess (s : State) (la slot : Nat) (what : XmWhat) (op : LineOp) : LineAns × State :=
  if slot = 0 then s.clearAccess la what op else s.keyedAccess la slot what op

/-- The first line of a request that is not served, with what it is answered. -/
def State.xmRefusal (s : State) (p : Packet) (write : Bool) (las : List Nat) : Option (Nat × Nat × Nat) :=
  las.findSome? fun la => match s.xmJudge p.src p.key (la * 64) write with
    | .refuse st reason => some (la, st, reason)
    | .serve _ => none

/-- Channel `j`'s interface carries out a request and answers it. -/
def State.memRequest (s : State) (j : Nat) (p : Packet) (f : XmFind) : State :=
  let i := 64 + j
  match opcBank p.opc with
  | none => s.respond i p 4 [] 0
  | some (op, k) =>
    let ws := xmWords p.addr k
    let las := (ws.map fun x => x.1).eraseDups
    let atomicBad := op ≠ .read ∧ op ≠ .write ∧ (atomicTarget op p.be).isNone
    if 2 ^ 36 ≤ p.addr ∨ p.addr % 16 ≠ 0 ∨ atomicBad ∨ las.any (fun la => (s.chanOf (la * 64)).1 != j) then s.respond i p 4 [] 0
    else if s.rd (XMC_CHSTAT_STATE j) ≠ 2 then s.respond i p 3 [] 0
    else match s.xmRefusal p (op != .read) las with
    | some (la, st, reason) =>
      let s := if reason = 0 then s else s.xmBlock (la * 64) p.key reason
      let s := s.respond i p st [] 0
      if reason ≠ 0 ∧ s.flag SEC_CFG_ALARMBLK then s.secAlarm 6 else s
    | none =>
      let go (x : LineAns × State) (la : Nat) : LineAns × State :=
        let (a, s) := x
        match s.xmJudge p.src p.key (la * 64) (op != .read) with
        | .refuse st _ => (⟨worse a.status st, a.words, a.alarms⟩, s)
        | .serve slot =>
          let what := if la = las.getD f.line 0 then f.what else .clean
          let (b, s) := s.xmAccess la slot what (xmLineOp p op ws la)
          (⟨worse a.status b.status, a.words ++ b.words, a.alarms ++ b.alarms⟩, s)
      let (a, s) := las.foldl go (⟨0, [], []⟩, s)
      let psn := (List.range a.words.length).foldl (fun v w => v + b2n (a.words.getD w (0#128, false)).2 * 2 ^ w) 0
      let s := s.respond i p a.status (a.words.map fun w => w.1) psn
      a.alarms.foldl (fun s src => s.secAlarm src) s

/-! ### Mode, retirement, keys (R470, R474, R483, R484) -/

/-- A retirement or a mode change is refused. -/
def State.retref (s : State) : State := s.raise XMC_STATUS_RETREF

/-- A write of XMC_CTRL. -/
def State.writeXmcCtrl (s : State) (v : Nat) : State :=
  let m := bitOf v 31
  if s.chip.state = .load then s.modXmc fun x => { x with modeWait := some m }
  else if m = s.flag XMC_CTRL_MODE then (s.modXmc fun x => { x with modeWait := none }).wr XMC_CTRL_MODEBUSY 0
  else if s.xmc.walk.isSome then s.retref
  else (s.modXmc fun x => { x with modeWait := some m }).wr XMC_CTRL_MODEBUSY 1

/-- A write of XMC_RETIRE. -/
def State.writeXmcRetire (s : State) (v : Nat) : State :=
  if !bitOf v 31 then s
  else
    let old := bitsOf v 5 0
    let new := bitsOf v 11 6
    let so := s.rd (SEC_SLOT_STATE old)
    let ok := (so == 1 || so == 2) && s.flag (SEC_SLOT_MEM old) && s.flag (XMC_KRANGE_LO_VALID old) &&
      !s.flag (SEC_SLOT_LINK old) && s.rd (SEC_SLOT_STATE new) == 1 && s.flag (SEC_SLOT_MEM new) &&
      !s.flag (XMC_KRANGE_LO_VALID new) && s.xmc.walk.isNone && s.flag XMC_CTRL_MODE
    if !ok then s.retref
    else
      let w : XmWalk := {
        old := old, new := new, base := s.rd (XMC_KRANGE_LO_PAGE old), limit := s.rd (XMC_KRANGE_HI_PAGE old) }
      (((s.wr (SEC_SLOT_STATE old) 3).wr XMC_STATUS_WALK 1).wr XMC_WALK_PAGES 0).modXmc fun x => { x with walk := some w }

/-- Every channel's cache is written back and invalid (R484 step 2). -/
def State.flushMeta (s : State) : State :=
  let s := (List.range 8).foldl (fun s c => s.wr (XMC_CHSTAT_CACHED c) 0) s
  s.modXmc fun x => { x with cached := [], warm := [], walk := x.walk.map fun w => { w with flushed := true } }

/-- Step 4 of R484. -/
def State.walkDone (s : State) (w : XmWalk) : State :=
  let pages := w.limit - w.base
  let s := ((s.wr (XMC_KRANGE_LO_VALID w.new) 1).wr (XMC_KRANGE_LO_PAGE w.new) w.base).wr (XMC_KRANGE_HI_PAGE w.new) w.limit
  let s := ((s.wr (XMC_KRANGE_LO_VALID w.old) 0).wr (XMC_KRANGE_LO_PAGE w.old) 0).wr (XMC_KRANGE_HI_PAGE w.old) 0
  let s := (s.wr (SEC_SLOT_STATE w.old) 4).modXmc fun x => { x with keys := x.keys.del w.old, walk := none }
  (s.wr XMC_STATUS_WALK 0).logEv 0x1004 0 0 unitXmc (w.old + w.new * 2 ^ 6 + pages * 2 ^ 16)

/-- One line of a page that is walked; whether the alarm rises. -/
def State.walkLine (s : State) (w : XmWalk) (la : Nat) (bad : Bool) : Bool × State :=
  let l := s.xmLine la
  if s.xmMajor la = 0 ∧ l.minor = 0 then (false, s)
  else
    let fail := l.mark == 0 && (bad || l.key != s.keyNo w.old)
    let s := s.setXmLine la { l with key := s.keyNo w.new, minor := 1, mark := if fail then 2 else l.mark }
    (fail, if fail then s.tagFailed la w.old 6 else s)

/-- The walk takes its next page (R484 step 3). The lines of a sealed page cannot be verified and stay as they are. -/
def State.walkPage (s : State) (w : XmWalk) (f : XmFind) : State :=
  let page := w.base + w.done
  let la := page * 64
  let (al, s) := if s.xmSealed la then ([], s)
    else match f.what, s.flag XMC_CFG_ECC with
    | .tree level, _ => ([2], (s.sealPages la level).tagFailed la w.old (if level.val = 0 then 4 else 5))
    | .metaUe, true =>
      let (c, x) := s.chanOf (la * 64)
      ([], ((s.sealPages la 0).bump XMC_CNT_ECC_UE).logEv 0x1006 1 6 unitXmc (c + x / 64 * 2 ^ 6))
    | _, _ =>
      let (al, s) := (List.range 64).foldl (fun (x : List Nat × State) i =>
        let (b, s) := x.2.walkLine w (la + i) (f.what == .tag && i == f.line.val)
        (if b then x.1 ++ [1] else x.1, s)) ([], s)
      (al, s.modXmc fun x => { x with majors := x.majors.put 0 page 0 })
  let w := { w with done := w.done + 1 }
  let s := (s.modXmc fun x => { x with walk := some w }).count XMC_WALK_PAGES
  let s := if w.limit ≤ w.base + w.done then s.walkDone w else s
  al.foldl (fun s src => s.secAlarm src) s

/-- A slot takes a key of its own. -/
def State.newKey (s : State) (slot : Nat) (mem link gen : Bool) : State :=
  let s := (((s.wr (SEC_SLOT_STATE slot) 1).wr (SEC_SLOT_MEM slot) (b2n mem)).wr (SEC_SLOT_LINK slot) (b2n link)).wr
    (SEC_SLOT_GEN slot) (b2n gen)
  s.modXmc fun x => { x with keys := x.keys.set slot x.nextKey, nextKey := x.nextKey + 1 }

/-- A write of SEC_KGEN. -/
def State.writeKgen (s : State) (v : Nat) : State :=
  if !bitOf v 31 then s
  else
    let k := bitsOf v 5 0
    let st := s.rd (SEC_SLOT_STATE k)
    if k = 0 ∨ bitOf v 9 ∨ !(st == 0 || st == 4) then s.raise SEC_STATUS_REFUSED
    else s.newKey k (bitOf v 8) false true

end Sys2Proof.Machine
end

