-- ==== Sys2Proof/Machine/Clock.lean ====
section
/-! DEFINITION. Clocks (19): sources judged, lost and held over, domains and their switches, gates. -/

namespace Sys2Proof.Machine

/-- Changes the clock unit. -/
def State.modClk (s : State) (f : Clocks → Clocks) : State := { s with clk := f s.clk }

/-- The unit identifiers of CLK records (R564). -/
def unitClk : Nat := unitBase 3
def srcUnit (k : Nat) : Nat := unitId 0 0xA k

/-! ### Sources (R544, R549) -/

/-- The numbers R544 gives to sources. -/
def isSource (k : Nat) : Bool := decide (k ≤ 4) || (decide (8 ≤ k) && decide (k ≤ 15))

/-- The judges of a source, in order. -/
def judges (k : Nat) : List Nat :=
  match k with
  | 0 => [1, 3, 4]
  | 1 => [0, 3, 4]
  | 8 | 9 | 10 | 14 => [0, 1]
  | _ => [0, 1, 3, 4].filter fun j => j != k

/-- The tolerance R550 counts for a source, in millionths. -/
def srcTol (k : Nat) : Nat :=
  match k with
  | 0 | 1 => 50000
  | 2 => 100000
  | _ => 1000

def State.srcReady (s : State) (k : Nat) : Bool := bitOf (s.rd CLK_READY_READY) k

/-- CLK_TOL, in 0.05 %; its default before the image has given it. -/
def State.clkTol (s : State) : Nat := if s.rd CLK_TOL_TOL = 0 then 10 else s.rd CLK_TOL_TOL

/-- `j` judges source `k` now: the first ready judge of its list, or any of the list while none is ready (log entry
46). -/
def State.judgeNow (s : State) (k j : Nat) : Bool :=
  match (judges k).find? fun x => s.srcReady x with
  | some x => x == j
  | none => (judges k).contains j

/-- The register index of PLL `k`. -/
def pllAt (k : Nat) : Nat := k - 8

/-- The crystal a PLL takes its reference from. -/
def State.refOf (s : State) (k : Nat) : Nat :=
  if s.clk.onAlt.contains k then 2 + s.rd (CLK_PLL_CFG_ALTREF (pllAt k)) else 3 + s.rd (CLK_PLL_CFG_REF (pllAt k))

/-- A CLK_READY record. -/
def State.logReady (s : State) (k : Nat) (ready : Bool) (reason judge : Nat) : State :=
  s.logEv 0x1301 (b2n !ready) (if ready then 0 else 3) (srcUnit k) (b2n ready + reason * 2 + judge * 16)

/-! ### Domains (R554, R555) -/

/-- A position in a domain's list: a source, or another domain's clock. -/
inductive ClkIn where
  | src (k : Nat)
  | dom (d : Nat)
deriving DecidableEq, Repr

/-- The source lists of R554. -/
def domList (d : Nat) : List ClkIn :=
  match d with
  | 0 => [.src 8, .src 10]
  | 1 => [.src 9, .src 10]
  | 2 => [.src 12, .dom 0]
  | 3 => [.src 12, .dom 1]
  | 4 => [.src 11, .dom 0]
  | 5 => [.src 13, .dom 0]
  | 6 => [.src 15, .dom 0]
  | 7 => [.src 2, .src 0]
  | _ => [.src 14]

/-- The entry in use. -/
def State.domIn (s : State) (d : Nat) : ClkIn := (domList d).getD (s.rd (CLK_DOM_ACT d)) (.src 0)

/-- An entry is ready; a domain's clock is ready with the source it has in use. -/
def State.inReady (s : State) : ClkIn → Bool
  | .src k => s.srcReady k
  | .dom d => match s.domIn d with
    | .src k => s.srcReady k
    | .dom _ => false

/-- The domains run from their own lists: from step 1 of START on; HK always. -/
def State.domTaken (s : State) (d : Nat) : Bool := d == 7 || decide (0 < s.ldr.started)

/-- A domain takes a position of its list. -/
def State.domTo (s : State) (d p : Nat) (auto : Bool) : State :=
  let old := s.rd (CLK_DOM_ACT d)
  let s := s.wr (CLK_DOM_ACT d) p
  let s := if auto then s.raise CLK_STATUS_FAILOVER else s
  s.logEv 0x1302 1 0 unitClk (d + old * 2 ^ 4 + p * 2 ^ 5 + b2n auto * 2 ^ 6)

/-- A clock output's source has stopped (R562). -/
def State.ckoStop (s : State) (sel : Nat) : State :=
  if s.chip.outputs ∧ (List.range 2).any (fun c => s.rd (CLK_CKO_SEL c) == sel) then s.raise CLK_STATUS_CKOSTOP else s

/-- No ready source is left for a domain (R555). -/
def State.domLost (s : State) (d : Nat) : State :=
  match d with
  | 0 | 1 => (s.ckoStop (16 + d)).doubt 0x05
  | 7 => if s.rd (CLK_DOM_ACT 7) = 0 then s else s.domTo 7 0 true
  | 8 => (s.ckoStop 24).allChannelsDown
  | _ => s

/-- The source in use of domain `d` has lost ready: the first ready source after it. -/
def State.domFailover (s : State) (d : Nat) : State :=
  let l := domList d
  let act := s.rd (CLK_DOM_ACT d)
  match ((List.range l.length).drop (act + 1)).find? fun p => s.inReady (l.getD p (.src 0)) with
  | some p => s.domTo d p true
  | none => s.domLost d

/-! ### Losing ready (R551, R555, R557) -/

/-- A source is out for good until the next load: a fabric PLL or FIO0 (R555, R558). -/
def failsForGood (k : Nat) : Bool := k == 0 || k == 8 || k == 9 || k == 10

/-- What the journal keeps of a failed source: the spare that takes its place, or its retirement (01 R34, R39). -/
def State.srcFails (s : State) (k : Nat) : State :=
  if !failsForGood k || s.clk.failed.contains k then s
  else
    let spare := if k = 0 then 1 else 10
    let s := s.modClk fun c => { c with failed := c.failed ++ [k] }
    if k ≠ 10 ∧ s.srcReady spare then s.journal (srcUnit k) 1 (srcUnit spare)
    else (s.journal (srcUnit k) 2 0).degrade

/-- A running PLL whose reference is lost enters holdover (R557). -/
def State.holdover (s : State) (ref : Nat) : State :=
  (List.range 8).foldl (fun s i =>
    let k := 8 + i
    if s.refOf k = ref ∧ s.flag (CLK_PLL_CFG_LOCK i) ∧ !s.flag (CLK_PLL_CFG_HOLD i) then
      ((s.raise (CLK_PLL_CFG_HOLD i)).raise CLK_STATUS_HOLDOVER).logEv 0x1304 1 0 (srcUnit k) 1
    else s) s

/-- A ready source loses ready: 1 stability, 2 stopped, 3 lock lost, 5 holdover ended. -/
def State.loseReady (s : State) (k reason judge : Nat) : State :=
  if !s.srcReady k then s
  else
    let s := s.wr CLK_READY_READY (clearBit (s.rd CLK_READY_READY) k)
    let s := (s.modClk fun c => { c with wins := c.wins.del k }).logReady k false reason judge
    let s := (s.srcFails k).ckoStop k
    let s := if k = 3 ∨ k = 4 then s.holdover k else s
    (List.range 9).foldl (fun s d =>
      if s.domTaken d ∧ s.domIn d = .src k then s.domFailover d else s) s

/-! ### Windows (R550 to R552) -/

/-- Eight windows lie within TOL of their mean. -/
def stable (tol : Nat) (l : List Nat) : Bool := l.all fun r => decide ((8 * r - l.sum) + (l.sum - 8 * r) ≤ l.sum * tol / 2000)

/-- A window lies within TOL of the mean of `l`. -/
def nearMean (tol : Nat) (l : List Nat) (r : Nat) : Bool :=
  decide ((l.length * r - l.sum) + (l.sum - l.length * r) ≤ l.sum * tol / 2000)

/-- Eight windows' mean lies within the range limit of the expected ratio. -/
def inLimit (k j : Nat) (l : List Nat) : Bool :=
  decide ((8000000 - l.sum) + (l.sum - 8000000) ≤ 8 * (srcTol k + srcTol j + 10000))

/-- A source whose windows meet R550 becomes ready; a PLL not before START (R548). -/
def State.gainReady (s : State) (k j : Nat) : State :=
  let l := (s.clk.wins.get [] k).take 8
  if l.length = 8 ∧ stable s.clkTol l ∧ inLimit k j l ∧
      (k < 8 ∨ (s.flag (CLK_PLL_CFG_LOCK (pllAt k)) ∧ s.chip.state ≠ .load)) then
    (s.wr CLK_READY_READY (setBit (s.rd CLK_READY_READY) k)).logReady k true 0 j
  else s

/-- The judge of R552 for an oscillator of a pair that disagrees. -/
def State.umpire (s : State) : Nat := if s.srcReady 3 then 3 else if s.srcReady 4 then 4 else 2

/-- One window of source `k` against judge `j`: `r` millionths of the expected ratio. -/
def State.window1 (s : State) (k j r : Nat) : State :=
  if s.clk.disagree.contains k then
    if j ≠ s.umpire then s
    else
      let old := ((s.clk.wins.get [] k).drop 2).take 8
      let s := s.modClk fun c => { c with disagree := c.disagree.erase k, wins := c.wins.set k old }
      if old.length = 8 ∧ !nearMean s.clkTol old r then s.loseReady k 1 j else s
  else if !s.judgeNow k j then s
  else
    let l := (r :: s.clk.wins.get [] k).take 10
    let s := s.modClk fun c => { c with wins := c.wins.set k l }
    if !s.srcReady k then s.gainReady k j
    else
      let before := (l.drop 2).take 8
      if before.length = 8 ∧ (l.take 2).all (fun x => !nearMean s.clkTol before x) then
        if k + j = 1 ∧ s.srcReady j then s.modClk fun c => { c with disagree := [0, 1] }
        else s.loseReady k 1 j
      else s

/-- Sources run and are judged: not in OFF or HALT (02 R53). -/
def State.clocksRun (s : State) : Bool := !((s.chip.state == .off) || (s.chip.state == .halt))

/-! ### START (R546, R548, 17 R511) -/

/-- Domains move to the first ready source of their lists, without a record; one with none takes R555 (step 1). -/
def State.takeDomains (s : State) : State :=
  [0, 1, 2, 3, 4, 5, 6, 8].foldl (fun s d =>
    let l := domList d
    match (List.range l.length).find? fun p => s.inReady (l.getD p (.src 0)) with
    | some p => s.wr (CLK_DOM_ACT d) p
    | none => s.domLost d) s

/-- Changes the loader. -/
def State.modLdr (s : State) (f : Loader → Loader) : State := { s with ldr := f s.ldr }

/-- Step 1 of START goes on: the domains have their clocks and Kettle wakes every region in LOADING (17 R511). -/
def State.clocksStart (s : State) : State :=
  let s := (s.modLdr fun l => { l with started := 1 }).takeDomains
  if s.chip.state ≠ .start then s
  else
    let s := s.spend 0
    let ns := (List.range 64).filter fun n => (s.region n).state == .loading
    s.modKet fun k => { k with startWakes := ns }

/-- Every PLL the image starts is ready. -/
def State.pllsReady (s : State) : Bool :=
  (List.range 8).all fun i => s.rd (CLK_PLL_CFG_NINT i) == 0 || s.srcReady (8 + i) || s.clk.failed.contains (8 + i)

/-- R550 to R552: a window ends. -/
def execSourceWindow (k j : Fin 16) (r : Word) (s : State) : Host.Outcome State Fault Refusal :=
  if !isSource k || !s.clocksRun || s.clk.failed.contains k.val || (decide (8 ≤ k.val) && s.chip.state == .por) then .next s
  else
    let s := s.window1 k j r.toNat
    -- the PLLs the image starts are ready: step 1 of START goes on (17 R511)
    .next (if s.chip.state = .start ∧ s.ldr.started = 0 ∧ s.pllsReady then s.clocksStart else s)

/-- R551: no edge within 64 judge cycles. -/
def execSourceNoEdge (k j : Fin 16) (s : State) : Host.Outcome State Fault Refusal :=
  .next (if s.clocksRun && s.judgeNow k j then s.loseReady k 2 j else s)

/-- R546: a PLL that the loader has started locks. -/
def execPllLock (k : Fin 16) (s : State) : Host.Outcome State Fault Refusal :=
  if k.val < 8 ∨ s.rd (CLK_PLL_CFG_NINT (pllAt k)) = 0 ∨ s.clk.failed.contains k.val ∨ !s.clocksRun ∨ s.chip.state = .por then .next s
  else .next (s.raise (CLK_PLL_CFG_LOCK (pllAt k)))

/-- R551: a PLL loses lock. -/
def execPllLockLoss (k : Fin 16) (s : State) : Host.Outcome State Fault Refusal :=
  if k.val < 8 ∨ !s.flag (CLK_PLL_CFG_LOCK (pllAt k)) then .next s
  else
    let s := (s.wr (CLK_PLL_CFG_LOCK (pllAt k)) 0).wr (CLK_PLL_CFG_HOLD (pllAt k)) 0
    .next (if s.srcReady k then s.loseReady k 3 (((judges k).find? fun j => s.srcReady j).getD 0)
      else s.modClk fun c => { c with wins := c.wins.del k })

/-- R557: a PLL in holdover moves to the crystal ALTREF names, where that is ready. -/
def execAltrefMove (k : Fin 16) (s : State) : Host.Outcome State Fault Refusal :=
  let i := pllAt k
  let a := s.rd (CLK_PLL_CFG_ALTREF i)
  if k.val < 8 ∨ !s.flag (CLK_PLL_CFG_HOLD i) ∨ a = 0 ∨ 2 < a ∨ !s.srcReady (2 + a) ∨ s.clk.onAlt.contains k.val then .next s
  else
    let s := (s.wr (CLK_PLL_CFG_HOLD i) 0).modClk fun (c : Clocks) => { c with onAlt := c.onAlt ++ [k.val] }
    .next (s.logEv 0x1304 1 0 (srcUnit k) 2)

/-- R557: the 1 ms of a holdover ends without a reference. -/
def execHoldoverEnd (k : Fin 16) (s : State) : Host.Outcome State Fault Refusal :=
  let i := pllAt k
  if k.val < 8 ∨ !s.flag (CLK_PLL_CFG_HOLD i) then .next s
  else
    let s := (s.wr (CLK_PLL_CFG_HOLD i) 0).logEv 0x1304 1 0 (srcUnit k) 0
    .next (s.loseReady k 5 (((judges k).find? fun j => s.srcReady j).getD 0))

/-! ### START, the limit of 10 ms (R546) -/

/-- R546: 10 ms have passed since the last image byte. -/
def execStartPllTimeout (s : State) : Host.Outcome State Fault Refusal :=
  .next (if s.chip.state = .start ∧ s.ldr.started = 0 then s.clocksStart else s)

/-! ### Switches by firmware (R558) -/

/-- A write of CLK_DOMd. -/
def State.writeDom (s : State) (d v : Nat) : State :=
  let p := v % 2
  let s := { s with rsp := ⟨0, 0⟩ }
  if p = s.rd (CLK_DOM_ACT d) then s.wr (CLK_DOM_SEL d) p
  else if (domList d).length ≤ p ∨ !s.inReady ((domList d).getD p (.src 0)) then
    (s.raise CLK_STATUS_REFUSED).logEv 0x1303 1 0xA unitClk (d + p * 2 ^ 4)
  else (s.wr (CLK_DOM_SEL d) p).domTo d p false

/-- R558: a write of CLK_DOMd. -/
def execDomainSelect (_ : Accessor) (d : Fin 9) (v : Word) (s : State) : Host.Outcome State Fault Refusal :=
  .next (s.writeDom d v.toNat)

/-! ### Gates (R559, R560) -/

/-- Puts a gate in a state. -/
def State.setGate (s : State) (u st : Nat) : State :=
  s.modClk fun c => { c with
    gates := (c.gates.filter fun g => g.unit != u) ++ (if st = 0 then [] else [{ unit := u, state := st }]) }

/-- R559 step 1. -/
def execGateCloseRequest (u : BitVec 24) (s : State) : Host.Outcome State Fault Refusal :=
  .next (if s.gateOf u.toNat = 0 then s.setGate u.toNat 1 else s)

/-- One access ends GATED. -/
def State.gated (s : State) (u : Nat) : State :=
  (s.bump CLK_CNT_GATED_COUNT).logEvLimited u 0x1305 1 0xB u 0

/-- The logical bank that physical bank `p` serves. -/
def State.logicalBank (s : State) (n p : Nat) : Option Nat :=
  (List.range 48).find? fun b => s.rd (MEM_BANK_OWN_PHYS n b) == p

/-- Outstanding accesses of a bank whose first beat has not crossed end GATED: window requests, requests of the network
in its steal queue and those that wait for a new owner (R559 step 3). -/
def State.gateBank (s : State) (u n p : Nat) : State :=
  match s.logicalBank n p with
  | none => s
  | some b =>
    let r := s.region n
    let mine (w : WinReq) : Bool := w.rsp.isNone && w.bank == b
    let cnt := (r.engs.map fun (e : Nat × Engine) => (e.2.outst.filter mine).length).sum
    let q := r.mem.steals.get [] b ++ r.mem.netHeld.get [] b
    let end_ (w : WinReq) : WinReq := if mine w then { w with rsp := some ⟨0xB, 0#128, false⟩ } else w
    let s := s.modRegion n fun r => { r with
      engs := r.engs.map fun e => (e.1, { e.2 with outst := e.2.outst.map end_ })
      mem := { r.mem with steals := r.mem.steals.del b, netHeld := r.mem.netHeld.del b
                          handovers := r.mem.handovers.map fun h => if h.1 = b then (b, { h.2 with left := 0 }) else h } }
    let s := q.foldl (fun s x => s.respond n x 0xB [] 0) s
    (List.range (cnt + q.length)).foldl (fun s _ => s.gated u) s

/-- Requests a region NI holds end GATED. -/
def State.gateNi (s : State) (u n : Nat) : State :=
  let q := (s.ni n).held
  let s := s.modNi n fun i => { i with held := [] }
  q.foldl (fun s x => (s.respond n x 0xB [] 0).gated u) s

/-- R559 step 3: accesses are still outstanding 256 cycles after the close was requested. Accesses of units other than
banks and region NIs are whole commands of this model and are never outstanding. -/
def execGateTimeout (u : BitVec 24) (s : State) : Host.Outcome State Fault Refusal :=
  let u := u.toNat
  if s.gateOf u ≠ 1 then .next s
  else .next (match uKind u with
    | 3 => s.gateBank u (uRegion u) (uIndex u)
    | 4 => s.gateNi u (uRegion u)
    | _ => s)

/-- An access is outstanding at a unit's interface. -/
def State.gateBusy (s : State) (u : Nat) : Bool :=
  let n := uRegion u
  match uKind u with
  | 3 => match s.logicalBank n (uIndex u) with
    | none => false
    | some b => (s.region n).engs.any fun e => e.2.outst.any fun w => w.rsp.isNone && w.bank == b
  | 4 => (s.ni n).held != []
  | _ => false

/-- R559 step 4: the interface is idle and the gate closes. -/
def execGateClosed (u : BitVec 24) (s : State) : Host.Outcome State Fault Refusal :=
  .next (if s.gateOf u.toNat = 1 ∧ !s.gateBusy u.toNat then s.setGate u.toNat 2 else s)

/-- R560: an access that waits opens the gate again. -/
def execGateReopen (u : BitVec 24) (s : State) : Host.Outcome State Fault Refusal :=
  .next (if s.gateOf u.toNat = 2 then s.setGate u.toNat 0 else s)

end Sys2Proof.Machine
end

