-- ==== Sys2Proof/Machine/Power.lean ====
section
/-! DEFINITION. Power and temperature (20): PWR_REQ, Kettle's admissions, the sequencer's ends, wake and power-down, the
power envelope, sensors, skip levels, HALT and auto-restart. -/

namespace Sys2Proof.Machine

/-- The stack is powered. -/
def State.stackOn (s : State) : Bool :=
  (s.chip.state == .load) || (s.chip.state == .start) || (s.chip.state == .run) || (s.chip.state == .safe)

/-- Kettle admits requests. -/
def State.kettleRuns (s : State) : Bool := (s.chip.state == .start) || (s.chip.state == .run)

/-! ### PWR_REQ (R575, R579, R581) -/

/-- A PWR_REQ write's fields. -/
def reqGo (v : Nat) : Bool := bitOf v 31
def reqKind (v : Nat) : Nat := bitsOf v 30 28
def reqPrio (v : Nat) : Nat := min 1 (bitsOf v 27 26)
def reqRegion (v : Nat) : Nat := bitsOf v 5 0

/-- A point change is queued; DOMAIN 3 is reserved and refused (log entry 43). -/
def State.askPoint (s : State) (v : Nat) : State :=
  let d := bitsOf v 25 24
  if d = 3 then s.raise PWR_STATUS_REFUSED
  else s.kettleQueue
    { region := reqRegion v, kind := if d = 2 then 4 else d, point := bitsOf v 23 22, prio := reqPrio v, arrived := s.cyc }

/-- A wake is queued, or refused (R579). -/
def State.askWake (s : State) (v : Nat) : State :=
  let n := reqRegion v
  if !s.flag (CFG_WAKE_VALID n) || (s.region n).state != .dark then s.raise PWR_STATUS_REFUSED
  else s.kettleQueue
    { region := n, kind := 2, point := 0, prio := reqPrio v, arrived := s.cyc, part := s.rd (CFG_WAKE_PART n), path := 2 }

/-- A power-down is taken, waits, or is refused (R581). -/
def State.askPowerDown (s : State) (v : Nat) : State :=
  match s.askDown (reqRegion v) with
  | (true, s) => s
  | (false, s) => s.raise PWR_STATUS_REFUSED

/-- A write of PWR_REQ; a reserved KIND is refused (log entry 43). -/
def State.writePwrReq (s : State) (v : Nat) : State :=
  if !reqGo v then s
  else match reqKind v with
  | 0 => s.askPoint v
  | 1 => s.askWake v
  | 2 => s.askPowerDown v
  | _ => s.raise PWR_STATUS_REFUSED

/-- R575: a PWR_REQ write of KIND 0. -/
def execPointChangeRequest (_ : Accessor) (v : Word) (s : State) : Host.Outcome State Fault Refusal :=
  .next (if reqGo v.toNat ∧ reqKind v.toNat = 0 then s.askPoint v.toNat else s)

/-- R579 step 1: a PWR_REQ write of KIND 1. -/
def execWakeRequest (_ : Accessor) (v : Word) (s : State) : Host.Outcome State Fault Refusal :=
  .next (if reqGo v.toNat ∧ reqKind v.toNat = 1 then s.askWake v.toNat else s)

/-- R581: a PWR_REQ write of KIND 2. -/
def execPowerDownRequest (_ : Accessor) (v : Word) (s : State) : Host.Outcome State Fault Refusal :=
  .next (if reqGo v.toNat ∧ reqKind v.toNat = 2 then s.askPowerDown v.toNat else s)

/-- R119, R575: the oldest DVFS request on its way to region `n` reaches Kettle; one whose occurrence has closed is
gone. -/
def execDvfs (n : Fin 64) (s : State) : Host.Outcome State Fault Refusal :=
  match s.takeAction fun a => a.code == 4 && a.target % 64 == n.val with
  | none => .next s
  | some (a, s) => match s.evt.pend.find? fun o => some o.id == a.occ with
    | none => .next s
    | some o =>
      let d := bitsOf a.param 9 8
      let s := s.modEvt fun t => { t with pend := t.pend.map fun x => if x.id = o.id then { x with queued := true } else x }
      .next (s.kettleQueue
        { region := n, kind := if d = 2 then 4 else d, point := a.param % 4, prio := 2, arrived := s.cyc, occ := a.occ })

/-! ### Admission (R576, R577) -/

/-- `a` is examined before `b`: priority, age, region, fabric before engine. -/
def kettleBefore (a b : KReq) : Bool :=
  let rank (q : KReq) : Nat := if q.kind = 4 then 0 else q.kind
  decide (b.prio < a.prio) || (a.prio == b.prio &&
    (decide (a.arrived < b.arrived) || (a.arrived == b.arrived &&
      (decide (a.region < b.region) || (a.region == b.region && decide (rank a ≤ rank b))))))

/-- The first of some requests in the order of R576. -/
def kettleFirst : List KReq → Option KReq
  | [] => none
  | q :: t => match kettleFirst t with
    | none => some q
    | some p => if kettleBefore q p then some q else some p

/-- No domain of the request is busy and its region is not in TEST (R576); a wake waits for the end of a power-down of
its region (R581). -/
def State.eligible (s : State) (q : KReq) : Bool :=
  (s.region q.region).state != .test && !(q.kind == 2 && s.flag (PWR_RGN_DOWN q.region)) && q.doms.all fun d => !s.domBusy q.region d

/-- The request Kettle admits now: the first eligible one, or one that costs nothing (R576). -/
def State.admissible (s : State) : Option KReq :=
  let l := s.kettle.queue.filter fun q => s.eligible q
  match kettleFirst l with
  | none => none
  | some q =>
    if s.costOf q * 1500 ≤ s.creditNow then some q
    else kettleFirst (l.filter fun x => s.costOf x == 0)

/-- How an admitted request is closed or found late (R577). -/
def State.admitted (s : State) (q : KReq) : State :=
  match q.occ with
  | some id => match s.evt.pend.find? fun o => o.id == id with
    | none => s
    | some o =>
      let s := s.dropPend o
      s.closeOcc o.entry o.x 1 (if s.cyc ≤ q.arrived + 4 then .fired else .late o.why)
  | none =>
    let us := (s.cyc - q.arrived) / usCycles
    if q.path ≠ 4 ∧ s.rd PWR_KCFG_WAITMAX * usCycles < s.cyc - q.arrived then
      (s.raise PWR_STATUS_LATE).logEv 0x1402 1 9 unitPwr
        (q.region + (if q.kind = 4 then 0 else q.kind) * 2 ^ 6 + min us 65535 * 2 ^ 16)
    else s

/-- The region's switches close and its rails ramp to 0.60 V: it is LOADING (R579 step 3). -/
def State.startWake (s : State) (q : KReq) : State :=
  let n := q.region
  if (s.region n).state ≠ .dark then s.replaced q
  else
    let s := ((s.wr (PWR_RAIL_MV n) 600).wr (PWR_RAIL_MV (64 + n)) 600).toLoading n
    let s := (s.wr (PLC_RGN_DISP n) 0).modScrRgn n fun c => { c with cold := true, clean := false }
    s.modKet fun k => { k with wakes := k.wakes ++ [⟨n, q.part, q.path, q.entry⟩] }

/-- An admitted request starts. -/
def State.startRequest (s : State) (q : KReq) : State :=
  match q.kind with
  | 2 => s.startWake q
  | 3 => (s.startMove q.region 0 (s.pointOf q.region 0)).startMove q.region 1 (s.pointOf q.region 1)
  | _ => q.doms.foldl (fun s d => if s.pointOf q.region d = q.point then s else s.startMove q.region d q.point) s

/-- R576: START wakes go first. -/
def execKettleAdmit (s : State) : Host.Outcome State Fault Refusal :=
  if !s.kettleRuns then .next s
  else match s.kettle.startWakes with
  | n :: rest =>
    if s.rd PWR_KCOST_WAKE * 1500 ≤ s.creditNow then
      .next (((s.spend (s.rd PWR_KCOST_WAKE)).modKet fun k => { k with startWakes := rest }).raiseInitial n)
    else .next s
  | [] => match s.admissible with
    | none => .next s
    | some q =>
      let s := (s.spend (s.costOf q)).modKet fun k => { k with queue := k.queue.erase q }
      .next ((s.admitted q).startRequest q)

/-- R572: the change is complete. -/
def execPointChangeDone (n : Fin 64) (d : Fin 2) (s : State) : Host.Outcome State Fault Refusal :=
  match s.kettle.moves.find? fun m => m.region == n.val && m.dom == d.val with
  | none => .next s
  | some m =>
    .next (((s.modKet fun k => { k with moves := k.moves.erase m }).setPoint n d m.dest).setBusy n d 0)

/-! ### Wake and power-down -/

/-- R579 step 4: the region's memories are zeroed and its partial waits for the loader. -/
def execWakeZeroingDone (n : Fin 64) (s : State) : Host.Outcome State Fault Refusal :=
  match s.kettle.wakes.find? fun w => w.region == n.val with
  | none => .next s
  | some w =>
    let s := (s.modKet fun k => { k with wakes := k.wakes.erase w }).zeroRegion n
    let q : PartReq := { part := w.part, path := if w.path = 4 then 0 else w.path, entry := w.entry, woken := true
                         region := n, early := w.path == 4 }
    .next { s with ldr := { s.ldr with waiting := s.ldr.waiting ++ [q] } }

/-- An entry is among the 1,024 nearest in the direction of travel: it sits in the window list (R113). -/
def State.inWindow (s : State) (k : Nat) (rev : Bool) (x : Int) : Bool :=
  decide ((s.evt.judged.filter fun (j : Nat × Int) =>
    j.1 != k && dirAllowed (s.entry j.1) rev &&
    match gridNext (s.entry j.1) s.measured rev with
    | some y => if rev then decide (x < y) else decide (y < x)
    | none => false).length < 1024)

/-- An entry whose next point is within LEAD µs at the present velocity (R580). -/
def State.wakesEarly (s : State) (k n : Nat) : Bool :=
  let e := s.entry k
  let v := signedOf 32 s.velReg
  let rev := s.tb.rev
  eEn e && eAction e == 9 && eTarget e % 64 == n && dirAllowed e rev &&
  match gridNext e s.measured rev with
  | none => false
  | some x =>
    v != 0 && s.inWindow k rev x &&
    decide ((x - s.measured).natAbs ≤ v.natAbs * (s.rd (PWR_RGN_LEAD n) * usCycles) * 2 ^ 16)

/-- R580: while the timebase is warm, DARK regions with a LEAD are woken early. -/
def execEarlyWakeCheck (s : State) : Host.Outcome State Fault Refusal :=
  if !s.evt.running || !s.tb.running || s.tb.cold then .next s
  else
    let cand := s.evt.judged.map fun j => j.1
    .next (cand.foldl (fun s k =>
      let n := eTarget (s.entry k) % 64
      if eAction (s.entry k) = 9 ∧ (s.region n).state = .dark ∧ s.rd (PWR_RGN_LEAD n) ≠ 0 ∧
          !s.ldr.early.any (fun e => e.entry == k) ∧
          !s.kettle.queue.any (fun q => q.kind == 2 && q.region == n) ∧ s.wakesEarly k n then
        let part := eParam (s.entry k) % 256
        let w : EarlyLoad := { entry := k, part := part, region := n }
        let s := { s with ldr := { s.ldr with early := s.ldr.early ++ [w] } }
        s.kettleQueue { region := n, kind := 2, point := 0, prio := 2, arrived := s.cyc, part := part, path := 4, entry := k }
      else s) s)

/-- R581 steps 2 to 4: open work closes ABORT, work queues go, clocks stop, the NI drains. -/
def execPowerDownWaitEnd (n : Fin 64) (s : State) : Host.Outcome State Fault Refusal :=
  if !s.flag (PWR_RGN_DOWN n) || (s.region n).state != .active || (s.ni n).drain then .next s
  else
    let s := s.schFence n
    let k := ((s.sch n).wqs.map fun q => q.2.length).sum
    let s := if k = 0 then s else s.logEvLimited (unitRegion n) 0x0A07 1 0 (unitRegion n) k
    let s := s.modSch n fun c => { c with wqs := [] }
    let s := (s.haltEngines n).leaveActive n
    let s := s.modNi n fun i => { i with drain := true, drainAt := s.cyc }
    .next (s.requestMark n true)

/-- The NI of region `n` has nothing left to do (R378). -/
def State.drained (s : State) (n : Nat) : Bool :=
  let i := s.ni n
  i.drain && i.inbox.isEmpty && i.held.isEmpty && i.waiting.isEmpty && s.niAccepted n == 0 && i.out == 0 &&
    !(match s.net.flip with
      | some f => f.marks.contains (n, true)
      | none => false)

/-- R378 step 5, R581 step 5: the drain is complete and the region is DARK. -/
def execDrainComplete (n : Fin 64) (s : State) : Host.Outcome State Fault Refusal :=
  if !s.drained n then .next s
  else
    let s := s.logEv 0x0C07 0 0 (unitId n 4 0) (n.val + min ((s.cyc - (s.ni n).drainAt) / 64) 65535 * 2 ^ 16)
    let s := s.toDark n
    let s := ((s.wr (PWR_RGN_DOWN n) 0).wr (PWR_RAIL_MV n) 0).wr (PWR_RAIL_MV (64 + n.val)) 0
    .next (s.modNi n fun i => { i with drain := false })

/-! ### Power envelope (R567, R569, R582) -/

/-- R582: VIN in 10 mV and 10 mA, input and stack power in 0.1 W. -/
def execPowerMeasure (vin iin inp stk : BitVec 16) (s : State) : Host.Outcome State Fault Refusal :=
  if !s.stackOn then .next s
  else
    let s := (((s.wr PWR_VIN_VIN vin.toNat).wr PWR_VIN_IIN iin.toNat).wr PWR_POWER_INPUT inp.toNat).wr PWR_POWER_STACK stk.toNat
    let a := s.rd PWR_PCAP_INCAP * 10
    let b := s.rd PWR_PCAP_STACKCAP * 10
    .next (s.modKet fun k => { k with
      reached := decide (a ≤ inp.toNat) || decide (b ≤ stk.toNat)
      below := decide (inp.toNat * 100 < a * 95) && decide (stk.toNat * 100 < b * 95) })

/-- R582: PK rises, falls or holds at a 1 ms boundary. -/
def execPowerThrottleStep (s : State) : Host.Outcome State Fault Refusal :=
  if !s.kettleRuns then .next s
  else
    let pk := s.kettle.pk
    let pk := if s.kettle.reached then min 6 (pk + 1) else if s.kettle.below then pk - 1 else pk
    .next ((s.modKet fun k => { k with pk := pk }).wr PWR_STATUS_PCAP (b2n (pk != 0)))

/-- R582: the current limit has acted for 1 ms. -/
def execCurrentLimit (iin : BitVec 16) (s : State) : Host.Outcome State Fault Refusal :=
  if !s.stackOn then .next s
  else
    let s := ((s.modKet fun k => { k with pk := 6 }).wr PWR_STATUS_PCAP 1).raise PWR_STATUS_ILIMIT
    .next (s.logEv 0x1404 1 0 unitPwr iin.toNat)

/-- A phase is failed (R569): reason 1 overcurrent, 2 not switching, 3 BIST. -/
def State.phaseFails (s : State) (r p reason : Nat) : State :=
  if s.kettle.shed.contains (r * 16 + p) then s
  else
    let s := s.modKet fun k => { k with shed := k.shed ++ [r * 16 + p] }
    let left := s.phasesLeft r
    let third := decide (left + 3 ≤ phasesBuilt r)
    let unit := unitId 0 0xB (r * 16 + p)
    let s := (s.raise PWR_STATUS_PHASE).logEv 0x1401 (if third then 3 else 1) (if third then 3 else 0) unit
      (reason + left * 2 ^ 2)
    let s := s.journal unit 2 0
    if third then s.doubt 0x0B else s

/-- R569. -/
def execPhaseFailure (r : Fin 137) (p : Fin 16) (reason : Fin 4) (s : State) : Host.Outcome State Fault Refusal :=
  if phasesBuilt r ≤ p.val ∨ reason.val = 0 then .refused (.illFormed "PHASE_FAILURE")
  else if !s.stackOn then .next s
  else .next (s.phaseFails r p reason)

/-! ### Temperature (R583 to R588) -/

/-- One site's sample: range, difference, shutdown (R583, R587, R588). -/
def State.sampleSite (s : State) (x : SiteRead) : State :=
  let k := x.site.val
  let out (t : Int) : Bool := decide (t < -320) || decide (1200 < t)
  let s := { s with therm := { s.therm with raw := (s.therm.raw.set (2 * k) x.a).set (2 * k + 1) x.b } }
  let s := if out x.a then s.sensorBroken (2 * k) 1 else s
  let s := if out x.b then s.sensorBroken (2 * k + 1) 1 else s
  let sound := !s.therm.broken.contains (2 * k) && !s.therm.broken.contains (2 * k + 1)
  let d := if sound && decide (48 < (x.a - x.b).natAbs) then s.therm.differ.get 0 k + 1 else 0
  let s := { s with therm := { s.therm with differ := s.therm.differ.put 0 k (min d 4) } }
  let s := if d = 4 then s.askSite k else s
  match s.siteReading k with
  | none => s
  | some t =>
    let s := s.wr (THM_SITE_TEMP k) (tempBits t)
    let hot := s.rd THM_CFG_SHUT != 0 && !s.substSite k && decide ((s.rd THM_CFG_SHUT * 8 : Nat) ≤ t)
    let h := if hot then s.therm.hot.get 0 k + 1 else 0
    let s := { s with therm := { s.therm with hot := s.therm.hot.put 0 k (min h 2) } }
    if h = 2 then s.doubt 0x02 else s

/-- Warning of a region, or of a site of T0 as 64 + its number (R584). -/
def State.judgeWarn (s : State) (key : Nat) (t : Option Int) : State :=
  match t with
  | none => s
  | some t =>
    let was := s.therm.warned.contains key
    let warn := s.rd THM_CFG_WARN * 8
    let now := if was then decide (((warn : Nat) : Int) - (s.rd THM_CFG_HYST * 8 : Nat) < t) else decide ((warn : Int) ≤ t)
    let s := if key < 64 then (s.wr (THM_RGN_TEMP key) (tempBits t)).wr (THM_RGN_WARN key) (b2n now) else s
    if was = now then s
    else
      let s := { s with therm := { s.therm with
        warned := if now then s.therm.warned ++ [key] else s.therm.warned.filter fun k => k != key } }
      if key < 64 then s.logEv 0x1406 1 0 (unitRegion key) (b2n now + unsignedOf 15 t * 2) else s

/-- The chip's reading and its site (R583): the highest, the lowest site among equals. -/
def State.chipReading (s : State) : Option (Nat × Int) :=
  (List.range 208).foldl (fun (m : Option (Nat × Int)) k => match s.siteReading k, m with
    | some t, some (_, u) => if u < t then some (k, t) else m
    | some t, none => some (k, t)
    | none, m => m) none

/-- R583 to R588: both sensors of each site are read. -/
def execTempSample (l : List SiteRead) (s : State) : Host.Outcome State Fault Refusal :=
  if !s.stackOn then .next s
  else
    let s := l.foldl (fun s x => s.sampleSite x) s
    if !s.stackOn then .next s
    else
      let s := if s.rd THM_CFG_WARN = 0 then s
        else
          let s := (List.range 64).foldl (fun s n => s.judgeWarn n (hottest ((sitesOf n).map s.siteReading))) s
          (List.range 16).foldl (fun s i => s.judgeWarn (64 + (192 + i)) (s.siteReading (192 + i))) s
      let s := s.wr THM_STATUS_WARN (b2n (s.therm.warned != []))
      .next (match s.chipReading with
        | some (k, t) => (s.wr THM_MAX_SITE k).wr THM_MAX_TEMP (tempBits t)
        | none => s)

/-- R585: KT rises, falls or holds in every region; a substitute value does not drive it (R588). -/
def execThermalSkipStep (s : State) : Host.Outcome State Fault Refusal :=
  if !s.kettleRuns then .next s
  else
    let step (s : State) (n : Nat) : State :=
      let kt := s.rd (THM_RGN_KT n)
      let t := hottest (((sitesOf n).filter fun x => !s.substSite x).map s.siteReading)
      let up := match t with
        | some t => decide ((s.rd THM_CFG_THROT * 8 : Nat) ≤ t)
        | none => false
      let down := match t with
        | some t => decide (t ≤ ((s.rd THM_CFG_THROT * 8 : Nat) : Int) - (s.rd THM_CFG_HYST * 8 : Nat))
        | none => true
      let kt := if up then min 6 (kt + 1) else if down then kt - 1 else kt
      (s.wr (THM_RGN_KT n) kt).wr (THM_RGN_THROT n) (b2n (kt != 0))
    let s := (List.range 64).foldl step s
    .next (s.wr THM_STATUS_THROT (b2n ((List.range 64).any fun n => s.rd (THM_RGN_KT n) != 0)))

/-- R586: K of region `n` has been 6 for 10 ms. -/
def execDivisionStart (n : Fin 64) (s : State) : Host.Outcome State Fault Refusal :=
  if s.kettle.div.isSome || s.skipLevel n != 6 || !s.kettleRuns then .next s
  else .next (((s.modKet fun k => { k with div := some n.val }).raise PWR_STATUS_DIV).logEv 0x1405 1 0 unitPwr (1 + n.val * 2))

/-- R586: every region's K has been 2 or less for 100 ms. -/
def execDivisionEnd (s : State) : Host.Outcome State Fault Refusal :=
  match s.kettle.div with
  | none => .next s
  | some n =>
    if (List.range 64).all fun n => decide (s.skipLevel n ≤ 2) then
      .next (((s.modKet fun k => { k with div := none }).wr PWR_STATUS_DIV 0).logEv 0x1405 1 0 unitPwr (n * 2))
    else .next s

/-- R588: one raw code for 1 s while the partner changes by 2 °C or more. -/
def execSensorStuck (x : Fin 416) (s : State) : Host.Outcome State Fault Refusal :=
  .next (if s.stackOn then s.sensorBroken x 2 else s)

/-- R588: one second after a check that both sensors of a site passed, it repeats. -/
def execSensorRecheck (x : Fin 208) (s : State) : Host.Outcome State Fault Refusal :=
  if s.therm.passed.contains (2 * x.val) && s.therm.passed.contains (2 * x.val + 1) then .next (s.askSite x)
  else .next s

/-! ### HALT (R589) -/

/-- R589: sites 192 to 195 are read in HALT. -/
def execHaltSensorRead (l : List SiteRead) (s : State) : Host.Outcome State Fault Refusal :=
  if s.chip.state ≠ .halt then .next s
  else
    let s := (l.filter fun x => decide (192 ≤ x.site.val) && decide (x.site.val < 196)).foldl (fun s x =>
      { s with therm := { s.therm with raw := (s.therm.raw.set (2 * x.site.val) x.a).set (2 * x.site.val + 1) x.b } }) s
    .next (match hottest ([192, 193, 194, 195].map fun k => if s.substSite k then none else s.siteReading k) with
      | some t => s.modKet fun k => { k with haltHot := t }
      | none => s)

/-- One hour in timebase cycles. -/
def hourCycles : Nat := 5400000000000

/-- Auto-restarts of the last hour. -/
def State.restartsOfHour (s : State) : List Nat := s.kettle.restarts.filter fun t => decide (s.cyc < t + hourCycles)

/-- The only cause with after-state HALT is TEMP. -/
def tempOnly (mask : Nat) : Bool := bitOf mask 2 && !bitOf mask 4 && !bitOf mask 0xB

/-- R42, R589: the hottest site has been below 80 °C for 1 s in a HALT by TEMP. -/
def execAutoRestart (s : State) : Host.Outcome State Fault Refusal :=
  if s.chip.state ≠ .halt ∨ !tempOnly s.chip.haltMask ∨ !s.flag PWR_ARST_EN ∨ 640 ≤ s.kettle.haltHot ∨
      s.flag PWR_STATUS_ARSTOFF then .next s
  else if 3 ≤ s.restartsOfHour.length then .next (s.raise PWR_STATUS_ARSTOFF)
  else .next ((s.modKet fun k => { k with restarts := s.cyc :: s.restartsOfHour }).toPor)

end Sys2Proof.Machine
end

