-- ==== Sys2Proof/Machine/Placement.lean ====
section
/-! DEFINITION. Placement's own commands (11): points opened and committed, route passes, transits, overrides. -/

namespace Sys2Proof.Machine

/-- Region `n` is hot (R325): its hottest site is at or above the warning threshold. -/
def State.regionHot (s : State) (n : Nat) : Bool :=
  match hottest ((sitesOf n).map s.siteReading) with
  | some t => s.rd THM_CFG_WARN != 0 && decide ((s.rd THM_CFG_WARN * 8 : Nat) ≤ t)
  | none => false

/-- The regions a point covers. -/
def pointRegions (scope param : Nat) : List Nat :=
  if !bitOf param 0 then [] else if scope = 64 then List.range 64 else [scope]

/-- A point opens (R320, R325): its snapshot and its records. -/
def State.openPoint (s : State) (scope raw : Nat) : State :=
  let ignored := decide (scope < 64 ∧ 2 ≤ raw)
  let param := if ignored then raw % 2 else raw
  let s := if ignored then s.raise PLC_STATUS_IGNORED else s
  let snaps := (pointRegions scope param).map fun n => s.plcSnap n (s.regionHot n)
  let covers (n : Nat) : Bool := snaps.any fun p => p.region == n && !p.skipped
  let pt : PlcPoint := {
    scope := scope, param := param, raw := raw, snaps := snaps
    ovrs := s.plc.ovrs.filter fun o => covers (o.op / 256)
    bal := s.flag PLC_CFG_BAL, imbal := s.rd PLC_CFG_IMBAL, imbalHot := s.rd PLC_CFG_IMBALHOT
    maxMoves := s.rd PLC_CFG_MAXMOVES, net := s.plcNet, slices := if bitOf param 2 then s.lanes.reqs else [] }
  let s := s.modPlc fun p => { p with points := p.points ++ [pt] }
  snaps.foldl (fun s p =>
    s.plcRec (p.region * 256 + 0xFF) (param + b2n (scope == 64) * 8 + b2n p.warm * 16 + b2n p.skipped * 32) 0x20 0) s

/-- R117, R320: the oldest MIGRATE action on its way opens its point. -/
def execMigrate (s : State) : Host.Outcome State Fault Refusal :=
  match s.takeAction fun a => a.code == 7 with
  | none => .next s
  | some (a, s) => .next (s.openPoint (migrateScope a.target) (a.param % 8))

/-- A tested unit's request that the commit turned down: the test is refused (18 R541). -/
def State.engineAskRefused (s : State) (p : PlcSnap) (e : Nat) : Bool :=
  !(s.spareUse p.region == 1 && s.plc.spareFor.get 0 p.region == e)

/-- One region's commit; its changes are counted afresh (R346). -/
def State.commitRegion (s : State) (pt : PlcPoint) (p : PlcSnap) : State :=
  if p.skipped then s
  else
    let s := (s.wr PLC_POINT_CHANGES 0).plcRegion pt p
    let s := (p.asks.filter fun e => s.engineAskRefused p e).foldl (fun s e =>
      let u := unitId p.region 2 e
      let r : BistRun := ⟨u, 2⟩
      if s.bist.runs.contains r then (s.endRunOf u 2).scrTest u 5 else s) s
    s.plcRec (p.region * 256 + 0xFF) (s.rd PLC_POINT_CHANGES) 0x29 0

/-- A point's commit (R326). -/
def State.commitPoint (s : State) (pt : PlcPoint) : State :=
  let (n, s) := pt.snaps.foldl (fun (x : Nat × State) p =>
    let s := x.2.commitRegion pt p
    (x.1 + (if p.skipped then 0 else s.rd PLC_POINT_CHANGES), s)) (0, s)
  let s := s.wr PLC_POINT_CHANGES 0
  let s := s.modPlc fun p => { p with ovrs := pt.ovrs.foldl (fun (l : List PlcOvr) o => l.erase o) p.ovrs }
  let s := pt.slices.foldl (fun s q => if s.lanes.reqs.contains q then s.takeSlice q.1 q.2 else s) s
  let s := (pt.slices.filter fun q => q.2 == 2).foldl (fun s q =>
    let u := sliceUnit (q.1 / 4) (q.1 % 4)
    if s.bist.runs.contains ⟨u, 5⟩ && !(s.rd (LNE_QSTAT_SPUSE (q.1 / 4)) == 1 && s.rd (LNE_QSTAT_SPLANE (q.1 / 4)) == q.1 % 4)
    then (s.endRunOf u 5).scrTest u 5 else s) s
  let s := s.wr PLC_POINT_CHANGES (min 255 (n + s.rd PLC_POINT_CHANGES))
  let s := ((s.count PLC_POINT_COUNT).wr PLC_POINT_CHIP (b2n (pt.scope == 64))).wr PLC_POINT_PARAM pt.raw
  let s := (s.wr PLC_POINT_STAMP_LO_STAMP (s.stampNow % 2 ^ 32)).wr PLC_POINT_STAMP_HI_STAMP (s.stampNow / 2 ^ 32)
  s.modPlc fun p => { p with
    points := if bitOf pt.param 1 then p.points.map fun x => if x = pt then { x with routing := true } else x
      else p.points.erase pt }

/-- R326, R329: the decision pass of the oldest point that has not committed ends. -/
def execPointCommit (s : State) : Host.Outcome State Fault Refusal :=
  match s.plc.points.find? fun p => !p.routing with
  | none => .next s
  | some pt =>
    let s := s.commitPoint pt
    -- a route pass starts with the copy of the active bank, unless a flip is in progress (12 R375, R376)
    .next (if bitOf pt.param 1 && s.net.flip.isNone then s.startFlip false true else s)

/-- R326, R339: the route pass ends; a flip that it found in progress goes first (12 R376). -/
def execRoutePassEnd (s : State) : Host.Outcome State Fault Refusal :=
  match s.plc.points.find? fun p => p.routing with
  | none => .next s
  | some pt =>
    let wait := match s.net.flip with
      | some f => !f.writing
      | none => false
    if wait then .next s
    else
      let s := if s.net.flip.isNone then s.startFlip false true else s
      let s := (s.routePass pt.net).plcNetInterval
      .next (s.modPlc fun p => { p with points := p.points.erase pt })

/-- R331, R340: a transit of region `n` ends. -/
def execTransitEnd (n : Fin 64) (s : State) : Host.Outcome State Fault Refusal :=
  match s.plc.transits.find? fun t => t.region == n.val && s.transitDone t with
  | none => .next s
  | some t => .next (s.endTransit t fun n e => s.ldr.engImage.get [] (n * 32 + e))

/-- A write of PLC_OVR; the reserved KIND 3 is refused (log entry 47). -/
def State.writePlcOvr (s : State) (v : Nat) : State :=
  let o : PlcOvr := ⟨bitsOf v 30 29, bitsOf v 28 24, bitsOf v 13 0⟩
  if !bitOf v 31 then s
  else if 64 ≤ s.plc.ovrs.length ∨ o.kind = 3 then
    (s.raise PLC_STATUS_OVRREF).logEv 0x0B05 1 0xA (unitRegion (o.op / 256)) (o.op + o.eng * 2 ^ 14 + o.kind * 2 ^ 19)
  else s.modPlc fun p => { p with ovrs := p.ovrs ++ [o] }

/-- R343. -/
def execPlcOvr (_ : Accessor) (v : Word) (s : State) : Host.Outcome State Fault Refusal :=
  .next (s.writePlcOvr v.toNat)

end Sys2Proof.Machine
end

