-- ==== Sys2Proof/Machine/ScrubOps.lean ====
section
/-! DEFINITION. Shared operations of the steep, the rolling test, repair and ageing (18, 21). -/

namespace Sys2Proof.Machine

/-! ### Regions that leave TEST (02 R44, R45; 12 R372; 20 R581) -/

/-- TEST ends and the region is ACTIVE: the NI takes up the requests it held, a power-down that waited is taken. -/
def State.leaveTest (s : State) (n : Nat) : State :=
  let s := s.rgnTo n .active
  let s := s.modNi n fun i => { i with inbox := i.held ++ i.inbox, held := [] }
  if s.kettle.downWait.contains n then
    (s.modKet fun k => { k with downWait := k.downWait.erase n }).takeDown n
  else s

/-! ### Configuration rows (R526, R527) -/

/-- The unit of a frame (01 R31). -/
def frameUnit (n f : Nat) : Nat := unitId n 1 f

/-- A row's key. -/
def rowKey (ctx f : Nat) : Nat := ctx * 4704 + f

/-- The row that serves frame `f` of context `ctx`. -/
def State.cfgRow (s : State) (n ctx f : Nat) : CfgRow := (s.scrRgn n).rows.get {} (rowKey ctx f)

/-- Puts a row. -/
def State.putRow (s : State) (n ctx f : Nat) (r : CfgRow) : State :=
  s.modScrRgn n fun c => { c with rows := c.rows.put {} (rowKey ctx f) r }

/-- The first free spare row of region `n`. -/
def State.freeRow (s : State) (n : Nat) : Option Nat := (List.range 64).find? fun k => !(s.scrRgn n).taken.contains k

/-- A row is remapped to spare row `k` (R527, R528); `ue`: for an uncorrectable frame. -/
def State.remapCfg (s : State) (n ctx f k : Nat) (ue : Bool) : State :=
  let s := (s.modScrRgn n fun c => { c with taken := k :: c.taken }).putRow n ctx f { spare := k + 1 }
  let left := 64 - (s.scrRgn n).taken.length
  let s := s.logEv 0x1202 1 0 (frameUnit n f) (ctx + k * 2 ^ 3 + left * 2 ^ 9 + b2n ue * 2 ^ 16)
  s.journal (frameUnit n f) 4 (ctx + k * 2 ^ 3)

/-- Words of a frame were corrected at a visit (R527). -/
def State.rowCorrected (s : State) (n ctx f cells : Nat) : State :=
  let s := s.count SCR_CNT_CE_COUNT cells
  let r := s.cfgRow n ctx f
  let c := min 15 (r.count + 1)
  let s := s.putRow n ctx f { r with count := c }
  if c < 8 then s
  else match s.freeRow n with
  | some k => s.remapCfg n ctx f k false
  | none => (s.raise SCR_STATUS_NOSPARE).logEv 0x1203 1 1 (frameUnit n f) ctx

/-! ### Uncorrectable frames (R528 to R530) -/

/-- The region is fenced for an uncorrectable frame, or held for firmware (R529). -/
def State.fenceUE (s : State) (n : Nat) : State :=
  let was := (s.region n).state
  let s := s.fence n 0x20
  if was != .fenced && was != .dark && s.flag SCR_CTRL_UEHOLD then s.modRegion n fun r => { r with heldUE := true } else s

/-- An uncorrectable frame is found: its group is to be re-fetched. -/
def State.frameUE (s : State) (n ctx f : Nat) (crcOnly : Bool) : State :=
  if s.scrub.refetch.any fun x => x.region == n && x.ctx == ctx && x.frame == f then s
  else
    let r := s.cfgRow n ctx f
    let act := (s.region n).ctx.active == ctx
    let s := s.putRow n ctx f { r with ue := true }
    let s := s.bump (if act then SCR_CNT_UE_ACTIVE else SCR_CNT_UE_INACTIVE)
    let x : Refetch := { region := n, ctx := ctx, frame := f, active := act, crcOnly := crcOnly, marked := r.ue }
    let s := s.modScr fun c => { c with refetch := c.refetch ++ [x] }
    if act then s.fenceUE n else s

/-- The frame of a re-fetch that is served next: active ones first, in the order found (R530). -/
def State.nextRefetch (s : State) : Option Refetch :=
  match s.scrub.refetch.find? fun x => x.active with
  | some x => some x
  | none => s.scrub.refetch.head?

/-- Writes the 32 words of a frame. -/
def State.writeFrame (s : State) (n ctx f : Nat) (ws : List Line) : State :=
  s.modFab n fun b => { b with
    cfg := (List.range 32).foldl (fun (t : Tbl Line) i => t.put 0#128 (rowKey ctx f * 32 + i) (ws.getD i 0#128)) b.cfg }

/-- Some lift wire would have both drivers enabled with these words in frame `f` (17 R508). -/
def State.liftConflict (s : State) (n ctx f : Nat) (ws : List Line) : Bool :=
  let other := if f % 2 = 0 then f + 1 else f - 1
  (List.range 32).any fun i =>
    wLiftEn (ws.getD i 0#128).toNat && wLiftEn ((s.region n).fab.cfg.get 0#128 (rowKey ctx other * 32 + i)).toNat

/-- The context is not loaded any more. -/
def State.unloadCtx (s : State) (n ctx : Nat) : State := s.modCtx n fun c => { c with loaded := clearBit c.loaded ctx }

/-- A re-fetched frame arrives (R528, R529): `ok` its group passes its checks, `clean` its read-back. -/
def State.refetchDone (s : State) (x : Refetch) (ws : List Line) (ok clean : Bool) : State :=
  let n := x.region
  let s := (s.raise SCR_STATUS_REFETCH).modScr fun c => { c with refetch := c.refetch.erase x }
  let good := ok && !s.liftConflict n x.ctx x.frame ws
  let spare := if x.marked || !clean then s.freeRow n else none
  let need := x.marked || !clean
  let s := if good && need && spare.isNone then s.raise SCR_STATUS_NOSPARE else s
  let (out, s) :=
    if !good then (if x.active then (5, s) else (3, s.unloadCtx n x.ctx))
    else match spare with
    | some k => (2, (s.remapCfg n x.ctx x.frame k true).writeFrame n x.ctx x.frame ws)
    | none =>
      if need && !x.active then (3, s.unloadCtx n x.ctx)
      else (1, s.writeFrame n x.ctx x.frame ws)
  let out := if x.active && out != 5 && (s.region n).heldUE && !(need && spare.isNone) then 4 else out
  let s := if x.lift then s else s.logEv 0x1201 (if x.active then 2 else 1) 2 (frameUnit n x.frame)
    (x.ctx + b2n x.active * 2 ^ 3 + b2n x.crcOnly * 2 ^ 4 + out * 2 ^ 5)
  if out = 5 then (s.modRegion n fun r => { r with stuck := true }).degrade else s

/-- Nothing keeps a FENCED region from its restart (R529, R530, R536; 02 R62). -/
def State.restartReady (s : State) (n : Nat) : Bool :=
  let r := s.region n
  r.state == .fenced && !r.limit && !r.heldUE && !r.stuck && decide (0x20 ≤ r.cause ∧ r.cause ≤ 0x23) &&
    !(s.scrRgn n).restartAfter && !(s.scrub.refetch.any fun x => x.region == n && x.active)

/-- A write of SCR_RELEASE (R529). -/
def State.writeRelease (s : State) (v : Nat) : State :=
  let n := v % 64
  if bitOf v 31 && (s.region n).heldUE && (s.region n).state == .fenced then
    let s := s.modRegion n fun r => { r with heldUE := false }
    if s.restartReady n then s.restart n else s
  else s

/-! ### The walk (R524, R525, R531) -/

/-- A slot of the walker reads no row of context `ctx` of region `n` (R525). -/
def State.steepSkips (s : State) (n ctx : Nat) : Bool :=
  let r := s.region n
  r.state == .dark || r.state == .loading || !bitOf r.ctx.loaded ctx || bitOf r.ctx.loading ctx ||
    s.bist.runs.contains ⟨unitRegion n, 1⟩

/-- What a visit finds is handled. -/
def State.steepFound (s : State) (n ctx f : Nat) (x : SteepFind) : State :=
  if s.steepSkips n ctx then s
  else match x with
  | .clean => s
  | .corrected k => if k.val = 0 then s else s.rowCorrected n ctx f k
  | .uncorrectable crc => s.frameUE n ctx f crc

/-- The walk moves on by one slot; a pass that ends is counted (R524, R531). -/
def State.steepStep (s : State) (n : Nat) : State :=
  let st := (s.region n).state
  let s := if st = .dark ∨ st = .loading then s.modScrRgn n fun c => { c with clean := false } else s
  let ctx := s.rd (SCR_RSTAT_CTX n)
  let f := s.rd (SCR_RSTAT_FRAME n)
  if ctx < 7 then s.wr (SCR_RSTAT_CTX n) (ctx + 1)
  else
    let s := s.wr (SCR_RSTAT_CTX n) 0
    if f < 4607 then s.wr (SCR_RSTAT_FRAME n) (f + 1)
    else
      ((s.wr (SCR_RSTAT_FRAME n) 0).count SCR_STEEPS_COUNT).modScrRgn n fun c => { c with
        cold := c.cold && !c.clean, clean := true }

/-- One slot of region `n`'s walker. -/
def State.steepSlot (s : State) (n : Nat) (x : SteepFind) : State :=
  match (s.scrRgn n).prio with
  | (ctx, f) :: rest => (s.modScrRgn n fun c => { c with prio := rest }).steepFound n ctx f x
  | [] => (s.steepFound n (s.rd (SCR_RSTAT_CTX n)) (s.rd (SCR_RSTAT_FRAME n)) x).steepStep n

/-! ### Columns (R534 to R536) -/

/-- The rows of column `m` start to be copied to the spare column. -/
def State.copyColumn (s : State) (n m why : Nat) : State :=
  ((s.wr (SCR_RTEST_STATE n) 1).wr (SCR_RTEST_COLUMN n) m).modScrRgn n fun c => { c with copyWhy := why }

/-- The test that has the spare column standing in is abandoned (01 R35). -/
def State.abandonColumn (s : State) (n : Nat) : State :=
  let u := columnUnit n (s.rd (SCR_RTEST_COLUMN n))
  let s := if s.bist.runs.contains ⟨u, 1⟩ then s.abandon ⟨u, 1⟩ else s
  if s.rd (SCR_RTEST_STATE n) = 0 then s else s.columnBack n

/-- The region stays FENCED: no spare column is left (01 R39, R40). -/
def State.staysFenced (s : State) (n : Nat) : State :=
  ((s.raise SCR_STATUS_NOSPARE).modRegion n fun r => { r with stuck := true }).degrade

/-- Column `k` of region `n` fails as a block failure (01 R40, R536). -/
def State.columnFails (s : State) (n k : Nat) : State :=
  let use := s.rd (SCR_RTEST_SPUSE n)
  let s := s.fence n 0x22
  if k = 48 then
    -- the spare column itself: the tested column returns, the spare is retired
    let good := use = 2
    let s := if use = 1 then s.abandonColumn n else s
    let s := (s.wr (SCR_RTEST_SPUSE n) 3).logEv 0x1204 1 0 (columnUnit n 48) 4
    let s := s.journal (columnUnit n 48) 2 0
    if good then s.staysFenced n else s
  else if use ≥ 2 then s.staysFenced n
  else if (s.scrRgn n).restartAfter then s.staysFenced n
  else
    let s := s.abandonColumn n
    (s.copyColumn n k 3).modScrRgn n fun c => { c with restartAfter := true }

/-- The column copy is done (R534, R536). -/
def State.columnCopied (s : State) (n : Nat) : State :=
  if s.rd (SCR_RTEST_STATE n) ≠ 1 then s
  else if (s.scrRgn n).restartAfter then
    (s.columnForGood n (s.rd (SCR_RTEST_COLUMN n))).modScrRgn n fun c => { c with restartAfter := false }
  else s.wr (SCR_RTEST_STATE n) 2

/-- A column that is to go in for good gets its copy as soon as the spare column is free (R538). -/
def State.startGood (s : State) (n : Nat) : State :=
  match (s.scrRgn n).goodNext with
  | some m => if s.rd (SCR_RTEST_STATE n) = 0 ∧ s.rd (SCR_RTEST_SPUSE n) = 0 then s.copyColumn n m 3 else s
  | none => s

/-- Frames of column `m` are being re-fetched or rewritten (R535). -/
def State.columnBusy (s : State) (n m : Nat) : Bool := s.scrub.refetch.any fun x => x.region == n && x.frame / 96 == m

/-- The one column transfer of a window (R535): for good, a return, a stand-in. -/
def State.columnTransfer (s : State) (n : Nat) : State :=
  let m := s.rd (SCR_RTEST_COLUMN n)
  let st := s.rd (SCR_RTEST_STATE n)
  if s.columnBusy n m then s
  else if st = 2 ∧ (s.scrRgn n).copyWhy = 3 then s.columnForGood n m
  else if st = 4 then
    -- a column whose bond group was steered has failed its test: no pass record
    let steered := decide ((s.scrRgn n).copyWhy = 4)
    let s := (s.columnBack n).modScrRgn n fun c => { c with copyWhy := 0 }
    (if steered then s else s.scrTest (columnUnit n m) 2).startGood n
  else if st = 2 then
    ((s.wr (SCR_RTEST_STATE n) 3).wr (SCR_RTEST_SPUSE n) 1).logEv 0x1204 1 0 (columnUnit n m) 1
  else s

/-- Bond-link groups whose repair is pending steer to their spare links (01 R24, R535). -/
def State.steerBonds (s : State) (n : Nat) : State :=
  let s := (s.scrRgn n).bonds.foldl (fun s x =>
    (s.journal (unitId n 6 x.1) 5 x.2).modScrRgn n fun c => { c with steered := c.steered.set x.1 (x.2 + 1) }) s
  s.modScrRgn n fun c => { c with bonds := [] }

/-- A bond link fails (01 R24, R40): the group steers at the next window; a second failure fails the block. -/
def State.bondFails (s : State) (n g link : Nat) : Bool × State :=
  let c := s.scrRgn n
  if c.steered.get 0 g ≠ 0 ∨ (c.bonds.any fun x => x.1 == g) then (false, s)
  else (true, s.modScrRgn n fun c => { c with bonds := c.bonds ++ [(g, link)] })

/-- A QUIET window opens (R535). -/
def State.quietWindow (s : State) (n : Nat) : State :=
  if (s.region n).state ≠ .active then s
  else
    let s := (s.rgnTo n .test).modScrRgn n fun c => { c with window := true }
    (s.steerBonds n).columnTransfer n

/-! ### The rolling test (R532, R533) -/

/-- The kind of R532 a unit belongs to: 0 column, 1 engine, 2 bank, 3 router, 4 slice; none where it is not testable. -/
def tourKind (u : Nat) : Option Nat :=
  let i := uIndex u
  match uKind u with
  | 0 => if i < 2352 then some 0 else none
  | 2 => if i < 25 then some 1 else none
  | 3 => if i < 50 then some 2 else none
  | 4 => if i = 0 then some 3 else none
  | 8 => if i < 60 ∧ uRegion u = 0 then some 4 else none
  | 5 => if i = 0 then some 0 else none
  | _ => none

/-- The scope a test of a unit counts in: its region, its quad, or the chip. -/
def tourScope (u : Nat) : Nat :=
  match uKind u with
  | 4 => 0
  | 8 => uIndex u / 5
  | _ => uRegion u

/-- A unit of the kind and scope is in service or a free spare (R533). -/
def State.tourUnits (s : State) (kind sc : Nat) : List Nat :=
  match kind with
  | 0 =>
    let use := s.rd (SCR_RTEST_SPUSE sc)
    if use = 0 then (List.range 49).map (columnUnit sc)
    else ((List.range 48).filter fun m => !(use == 2 && m == s.rd (SCR_RTEST_SPCOL sc))).map (columnUnit sc)
  | 1 => ((List.range 25).filter fun e =>
      (s.engAt sc e).state != .retired && !(s.engAt sc e).failed && (e != 24 || s.spareUse sc == 0)).map (unitId sc 2)
  | 2 => ((List.range 50).filter fun p =>
      (s.logicalOf sc p).isSome || (decide (48 ≤ p) && (s.region sc).mem.spareUse.get 0 p == 0)).map (unitId sc 3)
  | 3 => ((List.range 64).filter fun r => !s.routerFaulted r).map fun r => unitId r 4 0
  | _ => ((List.range 5).filter fun i =>
      if i = 4 then s.rd (LNE_QSTAT_SPUSE sc) == 0 && !s.lanes.noSpare.contains sc
      else !s.flag (LNE_LCFG_NOTEST sc i) && !(s.lane (sc * 4 + i)).lost).map (sliceUnit sc)

/-- A unit is a spare, tested with no stand-in. -/
def isSpareUnit (u : Nat) : Bool :=
  match uKind u with
  | 0 => uIndex u / 48 == 48
  | 2 => uIndex u == 24
  | 3 => decide (48 ≤ uIndex u)
  | 8 => uIndex u % 5 == 4
  | _ => false

/-- The test of a unit could start now: its spare is free, its region ACTIVE where it needs a stand-in. -/
def State.testSpare (s : State) (u : Nat) : Bool :=
  let n := uRegion u
  match uKind u with
  | 0 => s.rd (SCR_RTEST_SPUSE n) == 0 && s.rd (SCR_RTEST_STATE n) == 0 && (s.scrRgn n).goodNext.isNone
  | 2 => s.spareUse n == 0
  | 3 => if isSpareUnit u && (s.logicalOf n (uIndex u)).isNone then (s.region n).mem.spareUse.get 0 (uIndex u) == 0
    else (s.freeSpareBank n).isSome
  | 8 => s.rd (LNE_QSTAT_SPUSE (uIndex u / 5)) == 0 && !s.lanes.noSpare.contains (uIndex u / 5)
  | _ => true

/-- The stand-in for a unit is asked for, or a free spare is taken for its test (R532, R534). -/
def State.standInAsk (s : State) (u : Nat) : State :=
  let n := uRegion u
  let i := uIndex u
  match uKind u with
  | 0 => if i / 48 < 48 then s.copyColumn n (i / 48) 1 else s
  | 2 =>
    if i = 24 then s.modEngAt n 24 fun g => { g with state := .test }
    else s.modPlc fun p => { p with asks := p.asks ++ [n * 32 + i] }
  | 3 =>
    match s.logicalOf n i, s.freeSpareBank n with
    | some b, some d => s.startBankCopy n b 2 d
    | _, _ => s
  | 4 => s.modPlc fun p => { p with rtrAsks := p.rtrAsks ++ [n] }
  | 8 => if i % 5 < 4 then s.askSlice (i / 5 * 4 + i % 5) 2 else s
  | 5 => s.rgnTo n .test
  | _ => s

/-- A test refused at its start (21 R599). -/
def State.refuseTest (s : State) (u : Nat) : State :=
  (s.bstRecord u 4 (if (tourKind u).isSome then testCode u else 0) 0 0).scrTest u 5

/-- A column test runs in region `n`, or a region BIST. -/
def State.columnTests (s : State) (n : Nat) : Bool :=
  s.bist.runs.any fun r => r.code == 1 && uRegion r.unit == n

/-- The kind tests a unit in that scope now (R532). -/
def State.kindBusy (s : State) (kind sc : Nat) : Bool :=
  s.bist.runs.any fun r => decide (r.code ≤ 5) && tourKind r.unit == some kind && tourScope r.unit == sc

/-- A test starts. -/
def State.startTest (s : State) (u : Nat) : State :=
  let bank := s.standInAsk u
  let s := bank.modBist fun b => { b with runs := b.runs ++ [⟨u, testCode u⟩] }
  s.scrTest u 1

/-- The next test of a kind and scope starts (R533): a unit asked for, else the one longest untested. -/
def State.tourStart (s : State) (kind sc : Nat) : State :=
  if s.chip.state ≠ .run ∨ s.kindBusy kind sc then s
  else
    let needsActive (u : Nat) : Bool :=
      let k := uKind u
      k == 5 || (decide (k < 4) && !isSpareUnit u)
    let active (u : Nat) : Bool := !needsActive u || (s.region (uRegion u)).state == .active
    match s.scrub.asked.find? fun u => tourKind u == some kind && tourScope u == sc && active u with
    | some u =>
      let s := s.modScr fun c => { c with asked := c.asked.erase u }
      if (uKind u = 5 ∧ s.columnTests sc) ∨ (uKind u ≠ 5 ∧ !(s.tourUnits kind sc).contains u) ∨ !s.testSpare u then s.refuseTest u
      else s.startTest u
    | none =>
      if !s.flag SCR_CTRL_TOUR || !bitOf (s.rd SCR_TOUR_KINDS) kind then s
      else
        let pick := (s.tourUnits kind sc).foldl (fun (b : Option Nat) u => match b with
          | none => some u
          | some x => if s.scrub.tested.get 0 u < s.scrub.tested.get 0 x then some u else some x) none
        match pick with
        | some u => if s.testSpare u && active u then s.startTest u else s
        | none => s

/-- A write of SCR_TEST (R533). -/
def State.writeTest (s : State) (v : Nat) : State :=
  let u := v % 2 ^ 24
  -- a column is named by any of its blocks
  let u := if uKind u = 0 then columnUnit (uRegion u) (uIndex u / 48) else u
  if !bitOf v 31 then s
  else if (tourKind u).isNone then s.refuseTest u
  else s.modScr fun c => { c with asked := c.asked ++ [u] }

/-- Units of region `n` that are overdue (R533). -/
def State.overdue (s : State) (n : Nat) : Nat :=
  let limit := s.rd SCR_TOUR_PERIOD * 3600 * 1000 * msCycles
  let late (u : Nat) : Bool := decide (max (s.scrub.testedAt.get 0 u) s.scrub.runAt + limit < s.cyc)
  let on (k : Nat) : Bool := bitOf (s.rd SCR_TOUR_KINDS) k
  let of_ (k sc : Nat) : Nat := if on k then ((s.tourUnits k sc).filter late).length else 0
  of_ 0 n + of_ 1 n + of_ 2 n +
    (if on 3 && late (unitId n 4 0) && !s.routerFaulted n then 1 else 0) +
    (if n = 0 then ((List.range 12).map fun q => of_ 4 q).sum else 0)

/-! ### The end of a test (R534, R536; 21 R594 to R600) -/

/-- The unit stands aside, so that its test can run to its end. -/
def State.standInMade (s : State) (u : Nat) : Bool :=
  let n := uRegion u
  let i := uIndex u
  match uKind u with
  | 0 => i / 48 == 48 || s.rd (SCR_RTEST_STATE n) == 3
  | 2 => (s.engAt n i).state == .test
  | 3 => (s.logicalOf n i).isNone && !(s.rd (MEM_COPY_STATE n) != 0 && s.rd (MEM_COPY_SRC n) == i)
  | 4 => s.mask64 NOC_ROUT_LO_MASK NOC_ROUT_HI_MASK n
  | 8 => i % 5 == 4 || (s.lane (i / 5 * 4 + i % 5)).spare
  | _ => (s.region n).state == .test

/-- A unit that has been tested goes to the end of the order. -/
def State.wasTested (s : State) (u : Nat) : State :=
  s.modScr fun c => { c with tested := c.tested.set u c.testNo, testedAt := c.testedAt.set u s.cyc, testNo := c.testNo + 1 }

/-- A unit passes: it returns; a column waits for its window with the record of the pass (R534). -/
def State.testPassed (s : State) (u : Nat) : State :=
  let n := uRegion u
  match uKind u with
  | 0 =>
    if uIndex u / 48 < 48 then s.wr (SCR_RTEST_STATE n) 4 else (s.scrTest u 2).startGood n
  | 5 => ((s.scrTest u 2).modFab n Fabric.initialise).leaveTest n
  | _ => (s.scrTest u 2).unitReturns u

/-- A unit fails its test: no return, its spare goes in for good or is retired (01 R35, R40; R536). -/
def State.testFailed (s : State) (a : TestEnd) : State :=
  let u := a.unit.toNat
  let n := uRegion u
  let i := uIndex u
  let s := s.scrTest u 3
  match uKind u with
  | 0 =>
    let m := i / 48
    let (steered, s) := match a.bond with
      | some g => s.bondFails n ((m * 48 + bitsOf a.detail.toNat 5 0) * 5 + g) (bitsOf a.detail.toNat 20 16)
      | none => (false, s)
    if m = 48 then
      if steered then s
      else ((s.wr (SCR_RTEST_SPUSE n) 3).logEv 0x1204 1 0 (columnUnit n 48) 4).journal (columnUnit n 48) 2 0
    else if steered then (s.wr (SCR_RTEST_STATE n) 4).modScrRgn n fun c => { c with copyWhy := 4 }
    else s.columnForGood n m
  | 2 =>
    let bad (s : State) : State :=
      if bitsOf a.detail.toNat 15 14 = 0 then s else s.modPlc fun p => { p with badMem := p.badMem ++ [n * 32 + i] }
    if i = 24 ∧ s.spareUse n = 0 then ((s.setSpare n 3 0).retireEngine n 24 1).journal u 2 0
    else if s.spareUse n = 1 ∧ s.plc.spareFor.get 0 n = i then
      -- its work is on the spare already, which stays for good
      ((s.setSpare n 2 i).retireEngine n i 1).journal u 1 (unitId n 2 24)
    else (bad s).markFailed n i
  | 3 =>
    if 48 ≤ i then (s.modMem n fun m => { m with spareUse := m.spareUse.set i 3 }).journal u 2 0
    else match s.standInBank n with
    | some b =>
      let p := s.rd (MEM_BANK_OWN_PHYS n b)
      (s.modMem n fun m => { m with spareUse := m.spareUse.set p 2 }).journal u 1 (unitId n 3 p)
    | none => s
  | 4 => (s.modPlc fun p => { p with rtrAsks := p.rtrAsks.filter fun r => r != n }).routerFault n 2
  | 8 =>
    let q := i / 5
    if i % 5 = 4 then (s.modLanes fun t => { t with noSpare := q :: t.noSpare }).journal u 2 0
    else ((s.wr (LNE_QSTAT_SPUSE q) 2)).journal u 1 (sliceUnit q 4)
  | _ =>
    let s := s.modFab n Fabric.initialise
    let s := s.fence n 0x22
    if a.cols = [] then s.staysFenced n else a.cols.foldl (fun (s : State) (c : Fin 49) => s.columnFails n c.val) s

/-- A test of a unit taken aside ends (R595, R598, R602, R603). -/
def State.testEnds (s : State) (a : TestEnd) : State :=
  let u := a.unit.toNat
  let code := testCode u
  if !s.bist.runs.contains ⟨u, code⟩ || !s.standInMade u then s
  else
    let s := ((s.endRunOf u code).testLeaves u).wasTested u
    if a.pass then
      ((s.count BST_CNT_PASS).bstRecord u 1 code 0 0).testPassed u
    else
      let s := ((s.raise BST_STATUS_FAIL).bump BST_CNT_FAIL).bstRecord u 2 code a.step.toNat a.detail.toNat
      let s := s.logEv 0x1501 (if uKind u = 5 then 2 else 1) 0 u (a.detail.toNat + a.step.toNat * 2 ^ 32 + code * 2 ^ 40)
      s.testFailed a

/-! ### Ageing (R537 to R540) -/

/-- The unit of a monitor: a column's block or an engine (R541). -/
def ageUnit (n m : Nat) : Nat := if m < 49 then columnUnit n m else unitId n 2 (m - 49)

/-- A monitor's unit is in service. -/
def State.ageInService (s : State) (n m : Nat) : Bool :=
  if m < 48 then !(s.rd (SCR_RTEST_SPUSE n) == 2 && s.rd (SCR_RTEST_SPCOL n) == m)
  else if m = 48 then s.rd (SCR_RTEST_SPUSE n) == 1 || s.rd (SCR_RTEST_SPUSE n) == 2
  else if m = 73 then s.spareUse n == 1 || s.spareUse n == 2
  else (s.engAt n (m - 49)).state != .retired

/-- A monitor's AGE: the mean of its last measurements (R537). -/
def State.ageOf (s : State) (n m : Nat) : Nat :=
  let l := (s.scrRgn n).ages.get [] m
  if l = [] then 0 else min 255 ((l.sum + l.length / 2) / l.length)

/-- An SCR_AGE record. -/
def State.logAge (s : State) (n m action : Nat) : State :=
  (s.raise SCR_STATUS_AGE).logEv 0x1207 1 0 (ageUnit n m)
    (s.ageOf n m + action * 2 ^ 8 + s.rd (SCR_RAGE_MARGIN n) * 2 ^ 10)

/-- The projection of R540; its value below 0 is not stated and is free (log entry 53). -/
def State.ageProject (s : State) (n age : Nat) : State :=
  let hours := s.rd SCR_HOURS_HOURS
  let thr := s.rd SCR_AGECFG_THRFAIL
  if hours = 0 ∨ age = 0 then s.wr (SCR_RPROJ_HOURS n) 0xFFFFFFFF
  else if thr < age then
    let (k, s) := s.takeFree
    s.wr (SCR_RPROJ_HOURS n) (Config.freeWord k).toNat
  else s.wr (SCR_RPROJ_HOURS n) (min 0xFFFFFFFF (hours * (thr ^ 5 - age ^ 5) / age ^ 5))

/-- A unit has no spare to take it. -/
def State.ageNoSpare (s : State) (n m : Nat) : Bool :=
  if m < 49 then s.rd (SCR_RTEST_SPUSE n) != 0 && s.rd (SCR_RTEST_SPUSE n) != 1 else s.spareUse n != 0 && s.spareUse n != 1

/-- A failing unit by age gets its spare at the next window or point (R538 2). -/
def State.ageSpare (s : State) (n m : Nat) : State :=
  let s := s.logAge n m 2
  if m < 49 then
    -- a stand-in for another column is abandoned; its column returns at a window of its own (01 R35)
    let u := columnUnit n (s.rd (SCR_RTEST_COLUMN n))
    let s := if s.bist.runs.contains ⟨u, 1⟩ ∧ s.rd (SCR_RTEST_COLUMN n) ≠ m then
        let st := s.rd (SCR_RTEST_STATE n)
        let s := (s.endRunOf u 1).raise BST_STATUS_ABANDONED
        let s := ((s.bstRecord u 3 1 0 0).logEv 0x1502 1 8 u (1 * 2 ^ 40)).scrTest u 4
        s.wr (SCR_RTEST_STATE n) (if st = 3 then 4 else 0)
      else s
    (s.modScrRgn n fun c => { c with goodNext := some m }).startGood n
  else s.markFailed n (m - 49)

/-- A measurement of region `n`'s monitors is judged (R537 to R540). -/
def State.ageMeasured (s : State) (n : Nat) (ages : List (Fin 74 × Byte)) : State :=
  let s := s.modScrRgn n fun c => { c with
    ages := ages.foldl (fun (t : Tbl (List Nat)) x => t.set x.1 ((x.2.toNat :: t.get [] x.1).take 16)) c.ages }
  let ms := List.range 74
  let worst := (ms.filter (s.ageInService n)).foldl (fun b m => if s.ageOf n b < s.ageOf n m ∨ !s.ageInService n b then m else b) 0
  let age := s.ageOf n worst
  let s := (s.wr (SCR_RAGE_AGE n) age).wr (SCR_RAGE_MON n) worst
  let m0 := s.rd (SCR_RAGE_MARGIN n)
  let up := (decide (m0 = 0) && decide (s.rd SCR_AGECFG_THR1 ≤ age)) || (decide (m0 = 1) && decide (s.rd SCR_AGECFG_THR2 ≤ age))
  let s := if up then
      let s := (s.wr (SCR_RAGE_MARGIN n) (m0 + 1)).journal (unitRegion n) 8 (m0 + 1)
      (s.logAge n worst 1).kettleQueue { region := n, kind := 3, point := 0, prio := 1, arrived := s.cyc }
    else s
  let due (s : State) (m thr : Nat) : Bool := s.ageInService n m && decide (thr ≤ s.ageOf n m)
  let handled (s : State) (m : Nat) : Bool :=
    if m < 49 then (s.scrRgn n).goodNext == some m || (s.rd (SCR_RTEST_STATE n) != 0 && (s.scrRgn n).copyWhy == 3 && s.rd (SCR_RTEST_COLUMN n) == m)
    else (s.engAt n (m - 49)).failed
  let s := ms.foldl (fun s m =>
    if m0 = 2 ∧ due s m (s.rd SCR_AGECFG_THRSPARE) ∧ !handled s m ∧ !s.ageNoSpare n m ∧ m ≠ 48 ∧ m ≠ 73 then s.ageSpare n m else s) s
  let s := ms.foldl (fun s m =>
    if due s m (s.rd SCR_AGECFG_THRFAIL) ∧ !handled s m ∧ s.ageNoSpare n m ∧ (s.region n).state ≠ .fenced then
      let s := s.logAge n m 3
      if m < 49 then s.columnFails n m else s.markFailed n (m - 49)
    else s) s
  let thr := s.rd SCR_AGECFG_THRFAIL
  let s := if s.rd (SCR_RTEST_SPUSE n) = 0 ∧ thr ≤ s.ageOf n 48 ∧ s.rd (SCR_RTEST_STATE n) = 0 then
      ((s.wr (SCR_RTEST_SPUSE n) 3).logAge n 48 4).journal (columnUnit n 48) 2 0 else s
  let s := if s.spareUse n = 0 ∧ thr ≤ s.ageOf n 73 then
      (((s.setSpare n 3 0).retireEngine n 24 1).logAge n 73 4).journal (unitId n 2 24) 2 0 else s
  s.ageProject n age

end Sys2Proof.Machine
end

