-- ==== Sys2Proof/Machine/Scrub.lean ====
section
/-! DEFINITION. The rows of the steep, QUIET windows, the rolling test, ageing and the analogue checks (05, 06, 18, 21). -/

namespace Sys2Proof.Machine

/-! ### The steep (R524 to R531) -/

/-- R524 to R528: one slot of the walker of region `n`; it pauses while a column is copied (R534). -/
def execSteepVisit (n : Fin 64) (x : SteepFind) (s : State) : Host.Outcome State Fault Refusal :=
  .next (if s.stackOn ∧ s.flag SCR_CTRL_STEEP ∧ s.rd (SCR_RTEST_STATE n) ≠ 1 then s.steepSlot n x else s)

/-- R528 to R530: the frame group that is served next arrives from flash; not in SAFE. -/
def execFrameRefetchDone (words : List Line) (ok clean : Bool) (s : State) : Host.Outcome State Fault Refusal :=
  match s.nextRefetch with
  | some x => .next (if s.kettleRuns then s.refetchDone x words ok clean else s)
  | none => .next s

/-- R179, R529: a cell finds a word of the active context uncorrectable at use. -/
def execConfigWordUeAtUse (n : Fin 64) (frame : Fin 4704) (_ : Fin 32) (s : State) : Host.Outcome State Fault Refusal :=
  if !(s.region n).live then .next s
  else
    let ctx := (s.region n).ctx.active
    let s := s.frameUE n ctx frame false
    let s := s.modScr fun c => { c with refetch := c.refetch.map fun x =>
      if x.region = n.val ∧ x.ctx = ctx ∧ x.frame = frame.val then { x with active := true } else x }
    .next (s.fenceUE n)

/-- R529: a write of SCR_RELEASE. -/
def execScrRelease (_ : Accessor) (v : Word) (s : State) : Host.Outcome State Fault Refusal := .next (s.writeRelease v.toNat)

/-- R530, R536, 02 R62: nothing keeps a FENCED region from its restart. -/
def execRegionRestart (n : Fin 64) (s : State) : Host.Outcome State Fault Refusal :=
  .next (if s.chip.state = .run ∧ s.restartReady n then s.restart n else s)

/-! ### Lift contention (05 R150, R151) -/

/-- A block's frames in the active context are to be rewritten from flash. -/
def State.rewriteBlock (s : State) (n blk : Nat) : State :=
  let ctx := (s.region n).ctx.active
  [0, 1].foldl (fun s tier =>
    let f := blk * 2 + tier
    if s.scrub.refetch.any fun x => x.region == n && x.ctx == ctx && x.frame == f then s
    else s.modScr fun c => { c with refetch := c.refetch ++ [{ region := n, ctx := ctx, frame := f, active := true, lift := true }] }) s

/-- R150, R151: contention on lift wire `w` of a block. -/
def execLiftContention (n : Fin 64) (blk : Fin 2352) (w : Fin 32) (s : State) : Host.Outcome State Fault Refusal :=
  let r := s.region n
  if r.state ≠ .active then .next s
  else
    let t1 := wLiftEn (r.word blk 0 w)
    let t2 := wLiftEn (r.word blk 1 w)
    let both := t1 && t2
    let none_ := !t1 && !t2
    let tier := b2n (t2 && !t1)
    let ctx := r.ctx.active
    let s := s.bump (RGN_LIFT_CNT_COUNT n)
    let s := (((s.wr (RGN_LIFT_LAST_WIRE n) w).wr (RGN_LIFT_LAST_CTX n) ctx).wr (RGN_LIFT_LAST_BLOCK n) blk).wr (RGN_LIFT_LAST_TIER n) tier
    let s := ((s.wr (RGN_LIFT_LAST_NONE n) (b2n none_)).wr (RGN_LIFT_LAST_BOTH n) (b2n both)).wr (RGN_LIFT_LAST_VALID n) 1
    let fence := s.flag (RGN_FAB_CFG_LIFTPOL n)
    let s := s.logEvLimited n 0x0501 (if fence then 2 else 1) 0 (unitId n 0 blk)
      (w.val + tier * 2 ^ 5 + b2n none_ * 2 ^ 6 + ctx * 2 ^ 7 + b2n both * 2 ^ 10)
    if fence then .next ((s.rewriteBlock n blk).fence n 0x21)
    else
      let fs := [(ctx, blk.val * 2), (ctx, blk.val * 2 + 1)]
      .next (s.modScrRgn n fun c => { c with
        prio := if 8 ≤ c.prio.length ∨ c.prio.contains (ctx, blk.val * 2) then c.prio else c.prio ++ fs })

/-! ### QUIET windows (R535) -/

/-- R535: a QUIET action reaches region `n`. -/
def execQuiet (n : Fin 64) (s : State) : Host.Outcome State Fault Refusal :=
  match s.takeAction fun a => a.code == 8 && a.target % 64 == n.val with
  | none => .next s
  | some (_, s) => .next (s.quietWindow n)

/-- R535, R116: the window's length has passed. -/
def execQuietWindowEnd (n : Fin 64) (s : State) : Host.Outcome State Fault Refusal :=
  if (s.scrRgn n).window ∧ (s.region n).state = .test then
    .next ((s.modScrRgn n fun c => { c with window := false }).leaveTest n)
  else .next s

/-! ### The rolling test (R532 to R536) -/

/-- R533: a write of SCR_TEST. -/
def execScrTest (_ : Accessor) (v : Word) (s : State) : Host.Outcome State Fault Refusal := .next (s.writeTest v.toNat)

/-- R533: the time for the next test of a kind in its region, the chip (scope 0) or a quad has come. -/
def execTourTestStart (kind : Fin 5) (sc : Fin 64) (s : State) : Host.Outcome State Fault Refusal :=
  .next (s.tourStart kind sc)

/-- R533: the hourly check for overdue units. -/
def execTourlateCheck (n : Fin 64) (s : State) : Host.Outcome State Fault Refusal :=
  let k := s.overdue n
  if s.chip.state ≠ .run ∨ !s.flag SCR_CTRL_TOUR ∨ k = 0 then .next s
  else .next ((s.raise SCR_STATUS_TOURLATE).logEv 0x1206 1 0 (unitRegion n) (min k 65535))

/-- R534, R536: the 768 rows of a column have been copied. -/
def execColumnCopyDone (n : Fin 64) (s : State) : Host.Outcome State Fault Refusal := .next (s.columnCopied n)

/-- R534, R536, 21 R595 to R600: a test of a unit taken aside ends. -/
def execBistTestEnd (a : TestEnd) (s : State) : Host.Outcome State Fault Refusal := .next (s.testEnds a)

/-! ### Ageing (R537 to R540) -/

/-- R537 to R540: region `n`'s monitors have been measured. -/
def execAgeMeasure (n : Fin 64) (ages : List (Fin 74 × Byte)) (s : State) : Host.Outcome State Fault Refusal :=
  .next (if s.kettleRuns ∧ s.flag SCR_CTRL_AGEING ∧ (s.region n).state ≠ .dark then s.ageMeasured n ages else s)

/-- R540: an hour of service. -/
def execHoursTick (s : State) : Host.Outcome State Fault Refusal :=
  .next (if s.stackOn ∧ s.rd SCR_HOURS_HOURS ≠ 0 then s.count SCR_HOURS_HOURS else s)

/-! ### Analogue checks in service (21 R601) -/

/-- The unit and the code of a check (log entry 54). -/
def checkRun : CheckWhat → BistRun
  | .sensor x => ⟨unitId 0 9 x, 6⟩
  | .osc k => ⟨srcUnit k, 7⟩
  | .pll i => ⟨srcUnit (8 + i), 8⟩
  | .monitor m c => ⟨unitId 0 0xB (m * 16 + 14 + c), 9⟩
  | .phase r p => ⟨unitId 0 0xB (r * 16 + p), 10⟩

/-- A check starts; one that runs already is joined. -/
def State.startCheck (s : State) (w : CheckWhat) : State :=
  let r := checkRun w
  if s.bist.runs.contains r then s else s.modBist fun b => { b with runs := b.runs ++ [r] }

/-- The phase checks of a rail: refused where it has lost a phase (R601). -/
def State.startPhases (s : State) (r : Fin 137) : State :=
  ((List.range (phasesBuilt r)).filter fun p => decide (p < 16)).foldl (fun s p =>
    let u := unitId 0 0xB (r * 16 + p)
    if s.phasesLeft r < phasesBuilt r then
      -- a phase that is out is not checked at all
      if s.kettle.shed.contains (r * 16 + p) then s else s.bstRecord u 4 10 0 0
    else s.startCheck (.phase r (Fin.ofNat 16 p))) s

/-- R601: a check period begins. In HALT only sensors of sites 192 to 195 are checked. -/
def execAnalogCheckPeriod (s : State) : Host.Outcome State Fault Refusal :=
  if !s.flag BST_CTRL_ACHK then .next s
  else if s.chip.state = .halt then
    .next ((List.range 8).foldl (fun (s : State) i =>
      if s.therm.broken.contains (384 + i) then s else s.startCheck (.sensor (Fin.ofNat 416 (384 + i)))) s)
  else if !s.stackOn then .next s
  else
    let s := (List.finRange 416).foldl (fun (s : State) (x : Fin 416) =>
      if s.therm.broken.contains x.val then s else s.startCheck (.sensor x)) s
    let s := (List.finRange 3).foldl (fun (s : State) (k : Fin 3) => s.startCheck (.osc k)) s
    let s := (List.finRange 8).foldl (fun (s : State) (i : Fin 8) => s.startCheck (.pll i)) s
    let s := (List.finRange 138).foldl (fun (s : State) (m : Fin 138) =>
      (List.finRange 2).foldl (fun (s : State) (c : Fin 2) =>
        if s.bist.comps.contains (m.val * 2 + c.val) then s else s.startCheck (.monitor m c)) s) s
    .next ((List.finRange 137).foldl (fun (s : State) (r : Fin 137) => s.startPhases r) s)

/-- A sensor passes its reference check: when both of a site that disagreed have passed, one record (20 R588). -/
def State.sensorPassed (s : State) (x : Nat) : State :=
  if !s.therm.asked.contains (x / 2) then s
  else
    let s := { s with therm := { s.therm with passed := x :: s.therm.passed.filter fun y => y != x } }
    let both := s.therm.passed.contains (x / 2 * 2) && s.therm.passed.contains (x / 2 * 2 + 1)
    if both then
      let s := { s with therm := { s.therm with asked := s.therm.asked.erase (x / 2) } }
      s.logEv 0x1407 1 0 (unitId 0 9 x) 4
    else s

/-- What a failed check does to its unit (R601). -/
def State.checkFails (s : State) (w : CheckWhat) : State :=
  let judge (k : Nat) : Nat := ((judges k).find? fun j => s.srcReady j).getD 0
  match w with
  | .sensor x => s.sensorBroken x 3
  | .osc k => s.loseReady k 1 (judge k)
  | .pll i => s.loseReady (8 + i) 4 (judge (8 + i))
  | .monitor m c => s.modBist fun b => { b with comps := b.comps ++ [m.val * 2 + c.val] }
  | .phase r p => s.phaseFails r p 3

/-- R601 to R603: an analogue check that runs ends. -/
def execAnalogCheckEnd (a : CheckEnd) (s : State) : Host.Outcome State Fault Refusal :=
  let r := checkRun a.what
  if !s.bist.runs.contains r then .next s
  else
    let s := s.endRunOf r.unit r.code
    if a.pass then
      let s := (s.count BST_CNT_PASS).bstRecord r.unit 1 r.code 0 0
      .next (match a.what with
        | .sensor x => s.sensorPassed x
        | _ => s)
    else
      let detail := a.value.toNat + a.limit.toNat * 2 ^ 16
      let s := ((s.raise BST_STATUS_ACHKFAIL).bump BST_CNT_FAIL).bstRecord r.unit 2 r.code 0 detail
      let alone : Bool := match a.what with
        | .monitor m c => s.bist.comps.contains (m.val * 2 + 1 - c.val)
        | _ => false
      let s := s.logEv 0x1501 (if alone then 3 else 1) 0 r.unit (detail + r.code * 2 ^ 40)
      .next (s.checkFails a.what)

end Sys2Proof.Machine
end

