-- ==== Sys2Proof/Machine/Chip.lean ====
section
/-! DEFINITION. The rows of chip states, the chip watchdog and the event log (02, 08 R246); loading stands in Loader. -/

namespace Sys2Proof.Machine

/-! ### OFF, POR (R42, R43) -/

/-- R42: VIN rises above 8.8 V; TIME counts from here (R56). -/
def execVinLockoutRise (s : State) : Host.Outcome State Fault Refusal :=
  .next (if s.chip.state = .off then ({ s with cyc := 0 }).toPor else s)

/-- R43, R60: VIN falls below 8.4 V. -/
def execVinLockoutFall (s : State) : Host.Outcome State Fault Refusal :=
  .next (if s.chip.state = .off then s else s.toOff)

/-- R43: PORST_N goes low. -/
def execPorstNLow (s : State) : Host.Outcome State Fault Refusal :=
  .next (if s.chip.state = .off ∨ s.chip.state = .por then s else s.toPor)

/-- R42: PORST_N is high and the rails are in regulation, and FIO is ready. -/
def execPorToLoad (s : State) : Host.Outcome State Fault Refusal :=
  .next (if s.chip.state = .por ∧ (s.srcReady 0 ∨ s.srcReady 1) then s.toLoad else s)

/-! ### Chip doubt (R47 to R51) -/

/-- R49 steps 6 and 7, R667. -/
def execSafeEntryComplete (s : State) : Host.Outcome State Fault Refusal :=
  .next (if s.chip.state = .safe ∧ s.chip.entering then s.safeDone else s)

/-- R47 0x03. -/
def execVinLow (s : State) : Host.Outcome State Fault Refusal := .next (s.doubt 0x03)

/-- R47 0x04. -/
def execVinHigh (s : State) : Host.Outcome State Fault Refusal := .next (s.doubt 0x04)

/-- R47 0x08. -/
def execSafeNLow (s : State) : Host.Outcome State Fault Refusal := .next (s.doubt 0x08)

/-- R47 0x01. -/
def execBaseStateUe (s : State) : Host.Outcome State Fault Refusal := .next (s.doubt 0x01)

/-- The supervisor pair runs (24 R659). -/
def State.supRuns (s : State) : Bool := (s.sup.stat == 1) || (s.sup.stat == 3)

/-- 08 R246, 24 R659: the pair disagrees at a bus (0), memory (1) or register (2) output, or in interrupt logic (3). -/
def execLockstepMismatch (where_ : Fin 4) (s : State) : Host.Outcome State Fault Refusal :=
  if !s.supRuns then .next s
  else
    let s := ((s.raise SUP_LOCK_VALID).wr SUP_LOCK_WHERE where_.val).wr SUP_LOCK_PC s.sup.eng.cur.pc
    .next (s.doubt 0x07)

/-- A write of SYS_STATE (R667). -/
def State.writeReload (s : State) (v : Nat) : State :=
  let s := { s with rsp := ⟨0, 0⟩ }
  if !bitOf v 8 ∨ s.chip.state ≠ .safe ∨ s.chip.haltPending then s
  else if s.chip.entering then s.modChip fun c => { c with reloadHeld := true }
  else s.toLoad

/-- R667: by firmware, or by the host where a window opens the field (24 R651). -/
def execReload (_ : Accessor) (v : Word) (s : State) : Host.Outcome State Fault Refusal := .next (s.writeReload v.toNat)

/-! ### The chip watchdog (R61) -/

/-- The watchdog counts. -/
def State.wdCounts (s : State) : Bool :=
  s.chip.wdRun && s.rd SYS_WDOG_PERIOD != 0 && ((s.chip.state == .start) || (s.chip.state == .run))

/-- A write of SYS_WDKICK. -/
def State.writeSysKick (s : State) (acc : Accessor) (v : Nat) : State :=
  let s := { s with rsp := ⟨0, 0⟩ }
  if acc = .firmware ∧ v % 65536 = 0xC35A then s.modChip fun c => { c with wdStart := s.cyc, wdWarned := false }
  else s.bump SYS_WDOG_BADKICK

/-- R61. -/
def execSysWdkick (acc : Accessor) (v : Word) (s : State) : Host.Outcome State Fault Refusal :=
  .next (s.writeSysKick acc v.toNat)

/-- R61: half of PERIOD, once per count. -/
def execWdwarn (s : State) : Host.Outcome State Fault Refusal :=
  if s.wdCounts ∧ !s.chip.wdWarned ∧ s.chip.wdStart + s.rd SYS_WDOG_PERIOD / 2 * msCycles ≤ s.cyc then
    .next ((s.modChip fun c => { c with wdWarned := true }).pendSrc .sup 7)
  else .next s

/-- R61, R47 0x0A. -/
def execChipWatchdogExpire (s : State) : Host.Outcome State Fault Refusal :=
  if s.wdCounts ∧ s.chip.wdStart + s.rd SYS_WDOG_PERIOD * msCycles ≤ s.cyc then .next (s.doubt 0x0A) else .next s

/-! ### The event log (R58, R664, R665) -/

/-- A write of SYS_LOG_RD (R58). -/
def State.writeTail (s : State) (t : Nat) : State :=
  let l := s.log
  let d := (t % 1024 + 1024 - l.tail) % 1024
  { s with rsp := ⟨0, 0⟩, log := { l with tail := if d ≤ l.unread then t % 1024 else l.head } }

/-- R58. -/
def execLogTailWrite (_ : Accessor) (v : Word) (s : State) : Host.Outcome State Fault Refusal := .next (s.writeTail v.toNat)

/-- A write of SYS_LOG_WCMD (R665). -/
def State.writeWcmd (s : State) (v : Nat) : State :=
  let s := { s with rsp := ⟨0, 0⟩ }
  let s := if bitOf v 30 then s.wr SYS_LOG_WCMD_REFUSED 0 else s
  let code := bitsOf v 15 0
  if !bitOf v 31 then s
  else if code < 0xF000 then s.raise SYS_LOG_WCMD_REFUSED
  else s.logEv code (bitsOf v 23 20) (bitsOf v 19 16) (s.rd SYS_LOG_WUNIT_UNIT)
    (s.rd SYS_LOG_WD0_DETAIL + s.rd SYS_LOG_WD1_DETAIL * 2 ^ 32)

/-- R665. -/
def execLogWcmd (_ : Accessor) (v : Word) (s : State) : Host.Outcome State Fault Refusal := .next (s.writeWcmd v.toNat)

/-- R58: the millisecond of the last LOG_LOST record ends with records given up. -/
def execLogLost (s : State) : Host.Outcome State Fault Refusal :=
  match s.log.lastLost with
  | some t => .next (if 0 < s.log.given ∧ t + msCycles ≤ s.cyc then s.logLostNow else s)
  | none => .next s

/-- R664 steps 3 and 4: a code's millisecond ends for its scope with occurrences held. -/
def execRateLimitFlush (code : BitVec 16) (scope : BitVec 24) (s : State) : Host.Outcome State Fault Refusal :=
  let mine := fun (l : RateLimit) => l.code = code.toNat && l.scope = scope.toNat
  match s.log.limits.find? mine with
  | none => .next s
  | some l =>
    if l.held = 0 ∨ s.cyc < l.last + msCycles then .next s
    else
      let s := s.logRec (l.record.withCountAt l.held)
      let rest := s.log.limits.filter fun x => !mine x
      .next { s with log := { s.log with limits := ⟨l.code, l.scope, s.cyc, 0, l.record⟩ :: rest } }

end Sys2Proof.Machine
end

