-- ==== Sys2Proof/Machine/Contexts.lean ====
section
/-! DEFINITION. The rows of the context unit (06): CTX, CTX_REQ, CREQ, CONTEXT_SWITCH, GUARD_TIMEOUT. -/

namespace Sys2Proof.Machine

/-- R168: a CTX occurrence reaches the context unit of region `n`. -/
def execCtx (n : Fin 64) (s : State) : Host.Outcome State Fault Refusal :=
  match s.takeAction (fun a => a.code == 3 && a.target % 64 == n.val) with
  | none => .next s
  | some (a, s) =>
    let q : CtxReqst := ⟨0, a.param % 8, a.entry, s.regionStamp⟩
    .next (if (s.region n).out then s.ctxRefuse n q 4 else s.ctxRegister n q)

/-- R168: a write of CTX_REQ; GO = 1 requests a switch. -/
def State.writeCtxReq (s : State) (n v : Nat) : State :=
  if bitOf v 31 then s.ctxSupervisor n (v % 8) else s

/-- R168, R170, R180. -/
def execCtxReq (_ : Accessor) (n : Fin 64) (v : Word) (s : State) : Host.Outcome State Fault Refusal :=
  .next (s.writeCtxReq n v.toNat)

/-- R168: the fabric's request, sampled at a region edge, so only while the region is ACTIVE (R180). -/
def execCreq (n : Fin 64) (ctx : Fin 8) (s : State) : Host.Outcome State Fault Refusal :=
  if (s.region n).state = .active then
    .next (s.ctxRegister n ⟨2, ctx, 0, s.regionStamp⟩)
  else .next s

/-- Judges and ranks the registered requests (R169, R170) and makes the switch unless a hold stands (R171, R175,
R178). `force`: GUARDMAX has run out. -/
def State.ctxEdge (s : State) (n : Nat) (force : Bool) : State :=
  if (s.region n).state ≠ .active then s
  else
    -- after TEST the held supervisor request is registered with the others (R180)
    let s := match (s.region n).ctx.supHeld with
      | some q => (s.modCtx n fun c => { c with supHeld := none }).ctxRegister n q
      | none => s
    let reqs := (s.region n).ctx.reqs
    let bad := reqs.filter fun q => (s.ctxReason n q).isSome
    let good := reqs.filter fun q => (s.ctxReason n q).isNone
    let s := bad.foldl (fun s q => s.ctxRefuse n q ((s.ctxReason n q).getD 4)) s
    match ctxBest good with
    | none => s.modCtx n fun c => { c with reqs := [], heldSince := none, heldSteep := false }
    | some q =>
      let s := (good.erase q).foldl (fun s p => s.ctxSupersede n p) s
      let act := (s.region n).ctx.active
      if q.ctx = act then
        s.modCtx n fun c => { c with reqs := [], heldSince := none, heldSteep := false }
      else
        let (nb, ns) := s.ctxBusy n act q.ctx
        let guard := s.flag (CTX_CFG_GUARD n) && decide (0 < nb + ns) && !force
        let steep := s.steepHolds n q.ctx
        if guard || steep then
          s.modCtx n fun c => { c with
            reqs := [q]
            heldSince := some (c.heldSince.getD (s.region n).fab.edges)
            heldSteep := c.heldSteep || steep }
        else
          let c := (s.region n).ctx
          let s := if force && decide (0 < nb + ns) then
              (s.raise (CTX_STATUS_GUARDTO n)).ctxLog n 0x0603 1 0x7
                (q.ctx + min nb 255 * 2 ^ 8 + min ns 255 * 2 ^ 16) q.stamp
            else s
          let s := if c.heldSteep then
              s.ctxLog n 0x0604 1 0 (q.ctx + min ((s.region n).fab.edges - c.heldSince.getD 0) 65535 * 2 ^ 16) q.stamp
            else s
          let s := s.ctxSwitch n q q.path
          s.modCtx n fun c => { c with reqs := [], heldSince := none, heldSteep := false }

/-- R169 to R175, R178: the switching edge after registration. -/
def execContextSwitch (n : Fin 64) (s : State) : Host.Outcome State Fault Refusal :=
  .next (if (s.region n).ctx.reqs = [] ∧ (s.region n).ctx.supHeld = none then s else s.ctxEdge n false)

/-- R175: GUARDMAX has run out; the switch proceeds with its discards. -/
def execGuardTimeout (n : Fin 64) (s : State) : Host.Outcome State Fault Refusal :=
  .next (if (s.region n).ctx.heldSince.isSome then s.ctxEdge n true else s)

end Sys2Proof.Machine
end

