-- ==== Sys2Proof/Machine/EccScrub.lean ====
section
/-! DEFINITION. Error correction (13): write-backs and poison rewrites, patrol of banks and engine memories, injection,
the table's registers. Unit 64 is the supervisor (R401). -/

namespace Sys2Proof.Machine

/-- Takes the rewrite that a bank or engine memory holds. -/
def State.takeWb (s : State) (n mem unit : Nat) (poison : Bool) : Option (WriteBack × State) :=
  match (s.eccOf n).wbs.find? (fun w => w.mem == mem && w.unit == unit && w.poison == poison) with
  | none => none
  | some w => some (w, s.modEccOf n fun e => { e with wbs := e.wbs.erase w })

/-- A word is rewritten as it stands, corrected or poisoned; a bank copy mirrors it (R395, R399). -/
def State.rewrite (s : State) (n : Nat) (w : WriteBack) : State :=
  if w.mem = 0 then
    let a := bankWord n w.unit w.word
    let d := s.lineAt a
    if w.poison then s.setLineAt a d 0xFFFF
    else s.setLineAt a (v144Read d (s.bankSyn.get 0 a)).1 0
  else
    let m := w.mem - 1
    s.modEng (engIdOf n w.unit) fun g =>
      let d := g.physLine m w.word
      if w.poison then
        if m = 2 then g.setPhys m w.word d 0xFFFF
        else g.setPhys m w.word (d ||| (0xF#128 <<< 96)) 0
      else g.setPhys m w.word (v144Read d (g.syn.get 0 (m * 4096 + w.word))).1 0

/-- R399, R400, R401: a write-back issues; its entry is written back. -/
def execWriteBack (n : Fin 65) (mem : Fin 4) (unit : Fin 50) (s : State) : Host.Outcome State Fault Refusal :=
  match s.takeWb n mem unit false with
  | none => .next s
  | some (w, s) =>
    .next ((s.rewrite n w).modEccOf n fun e => { e with
      table := e.table.map fun p =>
        if p.2.mem = w.mem ∧ p.2.unit = w.unit ∧ p.2.word = w.word then
          (p.1, { p.2 with wb := 2, pass := e.passesOf w.mem w.unit })
        else p })

/-- R395. -/
def execPoisonRewrite (n : Fin 65) (mem : Fin 4) (unit : Fin 50) (s : State) : Host.Outcome State Fault Refusal :=
  match s.takeWb n mem unit true with
  | none => .next s
  | some (w, s) => .next (s.rewrite n w)

/-- After `i` the next word of a bank's patrol walk (R402): rows in order without the remapped ones, then the spare rows
in use; none at the end of the pass. -/
def Region.patrolFrom (r : Region) (p used : Nat) : Nat → Nat → Option Nat
  | 0, _ => none
  | k + 1, i =>
    if 16384 + used * 16 ≤ i then none
    else if i < 16384 ∧ r.bankRow p i ≠ i then r.patrolFrom p used k (i + 16)
    else some i

/-- Entries written back and clean for a whole pass leave the table (R400). -/
def EccUnit.clearSoft (e : EccUnit) (bank : Bool) (unit : Nat) : EccUnit :=
  { e with table := e.table.filter fun p =>
      !((p.2.mem == 0) == bank && p.2.unit == unit && p.2.wb == 2 &&
        decide (p.2.pass + 2 ≤ e.passesOf p.2.mem unit)) }

/-- Patrol is no longer COLD once every bank and every engine memory has completed a pass (R405). -/
def EccUnit.warm (e : EccUnit) (sup : Bool) : EccUnit :=
  if (sup || (List.range 50).all fun p => 0 < e.passes.get 0 p) &&
      (List.range (if sup then 1 else 25)).all fun k => 0 < e.epasses.get 0 k then
    { e with cold := false }
  else e

/-- R402, R403, R405: the patrol read of a physical bank. -/
def execPatrolRead (n : Fin 64) (p : Fin 50) (s : State) : Host.Outcome State Fault Refusal :=
  if !s.flag (ECC_CFG_PATROL n) ∨ (s.region n).state = .dark then .next s
  else
    let used := s.rd (MEM_ROWUSE_USED n p)
    let start := (s.region n).ecc.ptr.get 0 p
    match (s.region n).patrolFrom p used 1040 start with
    | none => .next s
    | some i =>
      let a := bankWord n p i
      let syn := s.bankSyn.get 0 a
      let j := v144Judge syn
      let s := if j.corrects then s.correction n 0 p i (decide (16384 ≤ i)) syn true
        else if j = Judgement.uncorrectable then s.uncorrectable n 0 p i syn true
        else s
      match (s.region n).patrolFrom p used 1040 (i + 1) with
      | some k => .next (s.modEcc n fun e => { e with ptr := e.ptr.put 0 p k })
      | none =>
        let s := s.count (ECC_PASS_PASSES n)
        .next (s.modEcc n fun e =>
          let e := { e with ptr := e.ptr.put 0 p 0, passes := e.passes.put 0 p (e.passes.get 0 p + 1) }
          (e.clearSoft true p).warm false)

/-- R401, R404: the patrol read of an engine's memories. -/
def execEnginePatrolRead (n : Fin 65) (e : Fin 25) (s : State) : Host.Outcome State Fault Refusal :=
  if n.val < 64 ∧ (!s.flag (ECC_CFG_EPATROL n) ∨ (s.region n).state = .dark) then .next s
  else
    let i := (s.eccOf n).eptr.get 0 e
    let m := if i < 4096 then 0 else if i < 8192 then 1 else 2
    let w := i - m * 4096
    let id := engIdOf n e
    let syn := (s.eng id).syn.get 0 (m * 4096 + w)
    let j := v144Judge syn
    let s := if j.corrects then s.correction n (m + 1) e w false syn true
      else if j = Judgement.uncorrectable then s.uncorrectable n (m + 1) e w syn true
      else s
    let s := if n.val < 64 then s.abortFailed n e else s
    -- a poisoned P word clears residency (10 R299)
    let s := if m = 2 ∧ n.val < 64 ∧ (j = Judgement.poisoned ∨ j = Judgement.uncorrectable) then
        (s.evictAt n e (2 * w)).evictAt n e (2 * w + 1)
      else s
    if i + 1 < 10240 then .next (s.modEccOf n fun u => { u with eptr := u.eptr.put 0 e (i + 1) })
    else
      .next (s.modEccOf n fun u =>
        let u := { u with eptr := u.eptr.put 0 e 0, epasses := u.epasses.put 0 e (u.epasses.get 0 e + 1) }
        (u.clearSoft false e).warm (n.val == 64))

/-- A write of ECC_INJ (R406). -/
def State.writeInj (s : State) (n v : Nat) : State :=
  let s := { s with rsp := ⟨0, 0⟩ }
  if !bitOf v 31 then s
  else if bitsOf v 30 29 = 0 then s.modEcc n fun e => { e with inj := none }
  else s.modEcc n fun e => { e with inj := some ⟨bitsOf v 30 29, bitsOf v 28 23, bitsOf v 22 15, bitsOf v 13 0⟩ }

/-- R406. -/
def execEccInj (_ : Accessor) (n : Fin 64) (v : Word) (s : State) : Host.Outcome State Fault Refusal :=
  .next (s.writeInj n v.toNat)

/-- The four words of a table entry (R409); a free entry reads 0. -/
def EccUnit.words (e : Option EccEntry) (w : Nat) : Nat :=
  match e with
  | none => 0
  | some x => match w with
    | 0 => 2 ^ 31 + x.mem * 2 ^ 29 + x.unit * 2 ^ 23 + b2n x.spareRow * 2 ^ 22 + x.wb * 2 ^ 20 + x.word % 2 ^ 14
    | 1 => x.count * 2 ^ 24 + x.synd
    | 2 => x.stamp % 2 ^ 32
    | _ => x.stamp / 2 ^ 32

/-- A read of ECC_TBLk_W0 copies the entry. -/
def State.readEccW0 (s : State) (n k : Nat) : State :=
  let x := ((s.eccOf n).table.find? fun p => p.1 == k).map fun p => p.2
  { (s.modEccOf n fun e => { e with copy := x }) with rsp := ⟨0, EccUnit.words x 0⟩ }

/-- R409. -/
def execEccTblW0Read (_ : Accessor) (n : Fin 65) (k : Fin 32) (s : State) : Host.Outcome State Fault Refusal :=
  .next (s.readEccW0 n k)

/-- A write of ECC_TBLk_W0 with VALID = 0. -/
def State.clearEcc (s : State) (n k : Nat) : State :=
  { (s.modEccOf n fun e => { e with table := e.table.del k }) with rsp := ⟨0, 0⟩ }

/-- R409. -/
def execEccTblClear (_ : Accessor) (n : Fin 65) (k : Fin 32) (s : State) : Host.Outcome State Fault Refusal :=
  .next (s.clearEcc n k)

end Sys2Proof.Machine
end

