-- ==== Sys2Proof/Machine/EngineArith.lean ====
section
/-! DEFINITION. The parallel format of the engine instruction set (09): the arithmetic operations and the moves. -/

namespace Sys2Proof.Machine

/-- A result in Ad. -/
def outAd (p : Par) (o : AccOut) : List (Nat × Nat) × Option FlagOut := ([(b2n p.d, o.acc)], some o.flags)

/-- The two results of a dual operation. -/
def outDual (x y : AccOut) : List (Nat × Nat) × Option FlagOut := ([(0, x.acc), (1, y.acc)], some (dualFlags x y))

/-- prod(SA, SB) and prod(SC, SD) of the engine before the instruction. -/
def RegSet.prodAB (r : RegSet) (p : Par) : Int := prod24 (r.reg p.sa) (r.reg p.sb)
def RegSet.prodCD (r : RegSet) (p : Par) : Int := prod24 (r.reg p.sc) (r.reg p.sd)

/-- The product instructions: both sources from V0 to V3. -/
def State.product (s : State) (g : EngId) (p : Par) (accs : List Nat) (f : RegSet → RegSet → AccOut) : State :=
  s.parallel g p (mulSrc p.sa && mulSrc p.sb) [p.sa, p.sb] accs (fun r v => outAd p (f r v)) [(accOf p)]

/-- The dual product instructions: four sources, both accumulators. -/
def State.dualProduct (s : State) (g : EngId) (p : Par) (accs : List Nat) (f : RegSet → RegSet → AccOut × AccOut) :
    State :=
  s.parallel g p (mulSrc p.sa && mulSrc p.sb && mulSrc p.sc && mulSrc p.sd) [p.sa, p.sb, p.sc, p.sd] accs
    (fun r v => outDual (f r v).1 (f r v).2) [4, 5]

/-- An operation on Ad and val(SA). -/
def State.onSource (s : State) (g : EngId) (p : Par) (accs : List Nat) (f : Int → Nat → AccOut) : State :=
  s.parallel g p (anySrc p.sa) [p.sa] accs (fun r v => outAd p (f (r.srcVal p.sa) (v.reg (accOf p)))) [(accOf p)]

/-- An operation on Ad alone. -/
def State.onAcc (s : State) (g : EngId) (p : Par) (ok : Bool) (accs : List Nat) (f : Nat → AccOut) : State :=
  s.parallel g p ok [] accs (fun _ v => outAd p (f (v.reg (accOf p)))) [(accOf p)]

/-- A bitwise operation on AdH and SA. -/
def State.onBits (s : State) (g : EngId) (p : Par) (f : Nat → Nat → Nat) : State :=
  s.parallel g p (mulSrc p.sa) [p.sa] [(accOf p)]
    (fun r v => outAd p (accBits (v.reg (accOf p)) (f (bitsOf (v.reg (accOf p)) 47 24) (r.reg p.sa)))) [(accOf p)]

/-- R255 NOP: does no arithmetic; its moves take place. -/
def execNop (g : EngId) (p : Par) (s : State) : Host.Outcome State Fault Refusal :=
  .next (s.parallel g p true [] [] (fun _ _ => ([], none)) [])

/-- R255 MPY. -/
def execMpy (g : EngId) (p : Par) (s : State) : Host.Outcome State Fault Refusal :=
  .next (s.product g p [] fun r _ => groupP (r.prodAB p) p.rnd p.s)

/-- R255 MPYN. -/
def execMpyn (g : EngId) (p : Par) (s : State) : Host.Outcome State Fault Refusal :=
  .next (s.product g p [] fun r _ => groupP (-(r.prodAB p)) p.rnd p.s)

/-- R255 MAC. -/
def execMac (g : EngId) (p : Par) (s : State) : Host.Outcome State Fault Refusal :=
  .next (s.product g p [(accOf p)] fun r v => accAdd (v.reg (accOf p)) (r.prodAB p) p.rnd p.s)

/-- R255 MACN. -/
def execMacn (g : EngId) (p : Par) (s : State) : Host.Outcome State Fault Refusal :=
  .next (s.product g p [(accOf p)] fun r v => accSub (v.reg (accOf p)) (r.prodAB p) p.rnd p.s)

/-- R255 DMPY. -/
def execDmpy (g : EngId) (p : Par) (s : State) : Host.Outcome State Fault Refusal :=
  .next (s.dualProduct g p [] fun r _ => (groupP (r.prodAB p) p.rnd p.s, groupP (r.prodCD p) p.rnd p.s))

/-- R255 DMAC. -/
def execDmac (g : EngId) (p : Par) (s : State) : Host.Outcome State Fault Refusal :=
  .next (s.dualProduct g p [4, 5] fun r v =>
    (accAdd (v.reg 4) (r.prodAB p) p.rnd p.s, accAdd (v.reg 5) (r.prodCD p) p.rnd p.s))

/-- R255 DMACX. -/
def execDmacx (g : EngId) (p : Par) (s : State) : Host.Outcome State Fault Refusal :=
  .next (s.dualProduct g p [4, 5] fun r v =>
    (accAdd (v.reg 4) (r.prodAB p) p.rnd p.s, accSub (v.reg 5) (r.prodCD p) p.rnd p.s))

/-- R255 ADD. -/
def execAdd (g : EngId) (p : Par) (s : State) : Host.Outcome State Fault Refusal :=
  .next (s.onSource g p [(accOf p)] fun x a => accAdd a x p.rnd p.s)

/-- R255 SUB. -/
def execSub (g : EngId) (p : Par) (s : State) : Host.Outcome State Fault Refusal :=
  .next (s.onSource g p [(accOf p)] fun x a => accSub a x p.rnd p.s)

/-- R255 CMP: RND and S apply to nothing. -/
def execCmp (g : EngId) (p : Par) (s : State) : Host.Outcome State Fault Refusal :=
  .next (s.parallel g p (anySrc p.sa) [p.sa] [(accOf p)]
    (fun r v => ([], some (accSub (v.reg (accOf p)) (r.srcVal p.sa) false false).flags)) [])

/-- R255 COPY. -/
def execCopy (g : EngId) (p : Par) (s : State) : Host.Outcome State Fault Refusal :=
  .next (s.onSource g p [] fun x _ => groupT (to56 x) p.rnd p.s)

/-- R255 NEG: carry as 0 − Ad. -/
def execNeg (g : EngId) (p : Par) (s : State) : Host.Outcome State Fault Refusal :=
  .next (s.onAcc g p true [(accOf p)] fun a => groupA (-(acc56 a)) (a != 0) p.rnd p.s)

/-- R255 ABS: carry as 0 − Ad. -/
def execAbs (g : EngId) (p : Par) (s : State) : Host.Outcome State Fault Refusal :=
  .next (s.onAcc g p true [(accOf p)] fun a => groupA (acc56 a).natAbs (a != 0) p.rnd p.s)

/-- R255 CLR. -/
def execClr (g : EngId) (p : Par) (s : State) : Host.Outcome State Fault Refusal :=
  .next (s.onAcc g p true [] fun _ => groupT 0 p.rnd p.s)

/-- R255 RNDC: RND is implied. -/
def execRndc (g : EngId) (p : Par) (s : State) : Host.Outcome State Fault Refusal :=
  .next (s.onAcc g p true [(accOf p)] fun a => groupT a true p.s)

/-- R255 ASL: COUNT 1 to 55. -/
def execAsl (g : EngId) (p : Par) (s : State) : Host.Outcome State Fault Refusal :=
  .next (s.onAcc g p (decide (1 ≤ p.count ∧ p.count ≤ 55)) [(accOf p)] fun a => accAsl a p.count p.rnd p.s)

/-- R255 ASR: COUNT 1 to 55. -/
def execAsr (g : EngId) (p : Par) (s : State) : Host.Outcome State Fault Refusal :=
  .next (s.onAcc g p (decide (1 ≤ p.count ∧ p.count ≤ 55)) [(accOf p)] fun a => accAsr a p.count p.rnd p.s)

/-- R255 AND. -/
def execAnd (g : EngId) (p : Par) (s : State) : Host.Outcome State Fault Refusal :=
  .next (s.onBits g p fun h x => h &&& x)

/-- R255 OR. -/
def execOr (g : EngId) (p : Par) (s : State) : Host.Outcome State Fault Refusal :=
  .next (s.onBits g p fun h x => h ||| x)

/-- R255 XOR. -/
def execXor (g : EngId) (p : Par) (s : State) : Host.Outcome State Fault Refusal :=
  .next (s.onBits g p fun h x => h ^^^ x)

/-- R255 MAX. -/
def execMax (g : EngId) (p : Par) (s : State) : Host.Outcome State Fault Refusal :=
  .next (s.onSource g p [(accOf p)] fun x a => groupT (if acc56 a < x then to56 x else a) p.rnd p.s)

/-- R255 MIN. -/
def execMin (g : EngId) (p : Par) (s : State) : Host.Outcome State Fault Refusal :=
  .next (s.onSource g p [(accOf p)] fun x a => groupT (if x < acc56 a then to56 x else a) p.rnd p.s)

/-! ### Moves, each as the one move of a NOP instruction; `k` names the K-side (R260) -/

/-- The instruction whose only part is one move. -/
def moveOnly (k : Bool) (m : Move) : Par := if k then { km := m } else { dm := m }

/-- It issues. -/
def State.oneMove (s : State) (g : EngId) (k : Bool) (m : Move) : State :=
  s.parallel g (moveOnly k m) true [] [] (fun _ _ => ([], none)) []

/-- R260 LOAD, R261. -/
def execLoad (g : EngId) (k : Bool) (reg mode ptr : Fin 8) (s : State) : Host.Outcome State Fault Refusal :=
  .next (s.oneMove g k ⟨1, reg, mode, ptr⟩)

/-- R260 STORE, R261. -/
def execStore (g : EngId) (k : Bool) (reg mode ptr : Fin 8) (s : State) : Host.Outcome State Fault Refusal :=
  .next (s.oneMove g k ⟨2, reg, mode, ptr⟩)

/-- R260 STORE R, R261. -/
def execStoreR (g : EngId) (k : Bool) (reg mode ptr : Fin 8) (s : State) : Host.Outcome State Fault Refusal :=
  .next (s.oneMove g k ⟨3, reg, mode, ptr⟩)

/-- R260 STORE S, R261. -/
def execStoreS (g : EngId) (k : Bool) (reg mode ptr : Fin 8) (s : State) : Host.Outcome State Fault Refusal :=
  .next (s.oneMove g k ⟨4, reg, mode, ptr⟩)

/-- R260 STORE RS, R261. -/
def execStoreRs (g : EngId) (k : Bool) (reg mode ptr : Fin 8) (s : State) : Host.Outcome State Fault Refusal :=
  .next (s.oneMove g k ⟨5, reg, mode, ptr⟩)

/-- R260 UPDATE. -/
def execUpdate (g : EngId) (k : Bool) (mode ptr : Fin 8) (s : State) : Host.Outcome State Fault Refusal :=
  .next (s.oneMove g k ⟨6, 0, mode, ptr⟩)

/-- R262 STREAM. -/
def execStream (g : EngId) (k : Bool) (code : Fin 8) (s : State) : Host.Outcome State Fault Refusal :=
  .next (s.oneMove g k ⟨7, code, 0, 0⟩)

end Sys2Proof.Machine
end

