-- ==== Sys2Proof/Machine/EngineLong.lean ====
section
/-! DEFINITION. The long format of the engine instruction set (09): register moves, immediates, control transfers,
loops, the bank window; and what happens to an engine beside its instructions (08): landings, interrupts, the timer,
STOP, the access port. -/

namespace Sys2Proof.Machine

/-! ### Register moves (R266, R267) -/

/-- The data register a code needs free of locks. -/
def codeRegs (c : Nat) : List Nat := (dataReg c).toList

/-- R267 LDI. -/
def execLdi (g : EngId) (dst : Fin 64) (imm : BitVec 24) (s : State) : Host.Outcome State Fault Refusal :=
  .next (s.long g (codeRegs dst) fun s => s.modEng g fun e => e.writeCode dst imm.toNat false)

/-- R267 MOVR. -/
def execMovr (g : EngId) (dst src : Fin 64) (rnd sat : Bool) (s : State) : Host.Outcome State Fault Refusal :=
  .next (s.long g (codeRegs dst ++ codeRegs src) fun s =>
    let e := s.eng g
    let (v, t) := e.readCode (isSup g) src rnd sat
    (s.moveTo g dst v (e.codeTag src)).transferSat g t)

/-- R267 MOVM: a reserved MODE makes it a no-operation (R281). -/
def execMovm (g : EngId) (a : MovmArgs) (s : State) : Host.Outcome State Fault Refusal :=
  if !a.abs && decide (5 ≤ a.mode.val) then .next (s.long g [] id)
  else .next (s.long g (codeRegs a.reg) fun s =>
    let e := s.eng g
    let m := b2n a.k
    let (x, p) := e.cur.address a.mode a.ptr
    let addr := if a.abs then a.addr.val else x
    let s := if a.abs || a.mode.val == 0 || a.mode.val == 4 then s else s.modEng g fun e => e.setPtr a.ptr p
    if a.store then
      let (v, t) := e.readCode (isSup g) a.reg a.rnd a.s
      (s.engStore g m addr v (e.codeTag a.reg)).transferSat g t
    else
      let (v, t, s) := s.dataRead g m addr
      s.moveTo g a.reg v t)

/-! ### Immediates and status bits (R268) -/

/-- R268 ADDI. -/
def execAddi (g : EngId) (d : Bool) (rnd sat : Bool) (imm : BitVec 24) (s : State) : Host.Outcome State Fault Refusal :=
  let a := 4 + b2n d
  .next (s.long g [a] fun s =>
    let e := s.eng g
    let v := e.accView e.idx
    let s := if v.tagged a then s.consume g else s
    let o := accAdd (v.reg a) (val24 imm.toNat) rnd sat
    s.modEng g fun e => (e.putAcc (b2n d) o.acc (v.tagged a)).putFlags o.flags)

/-- R268 CMPI. -/
def execCmpi (g : EngId) (d : Bool) (imm : BitVec 24) (s : State) : Host.Outcome State Fault Refusal :=
  let a := 4 + b2n d
  .next (s.long g [a] fun s =>
    let e := s.eng g
    let v := e.accView e.idx
    let s := if v.tagged a then s.consume g else s
    s.modEng g fun e => e.putFlags (accSub (v.reg a) (val24 imm.toNat) false false).flags)

/-- R268 SWS. -/
def execSws (g : EngId) (m : BitVec 16) (s : State) : Host.Outcome State Fault Refusal :=
  .next (s.long g [] fun s => s.modEng g fun e => e.later 3 0x33 (m.toNat &&& swWritable) (m.toNat &&& swWritable) none)

/-- R268 SWC. -/
def execSwc (g : EngId) (m : BitVec 16) (s : State) : Host.Outcome State Fault Refusal :=
  .next (s.long g [] fun s => s.modEng g fun e => e.later 3 0x33 (m.toNat &&& swWritable) 0 none)

/-! ### Control transfer (R269 to R273) -/

/-- A transfer: what it does after its slots is settled as it issues. -/
def State.transfer (s : State) (g : EngId) (act : Engine → XferAct) (body : State → State) : State :=
  s.issue g fun s => { xfer := some (act (s.eng g)), body := body }

/-- R269 BRA: `ind` takes the target from an AP register. -/
def execBra (g : EngId) (cond : Fin 16) (ind : Bool) (ptr : Fin 8) (target : Fin 4096) (s : State) :
    Host.Outcome State Fault Refusal :=
  .next (s.transfer g (fun e =>
    if condHolds cond (e.cur.reg 0x33) then
      .jump (if ind then e.cur.reg (0x10 + ptr) % 4096 else target)
    else .notTaken) id)

/-- R269 CALL: LINK takes the address of the CALL plus 3 when COND holds. -/
def execCall (g : EngId) (cond : Fin 16) (link : Fin 8) (target : Fin 4096) (s : State) :
    Host.Outcome State Fault Refusal :=
  .next (s.transfer g (fun e => if condHolds cond (e.cur.reg 0x33) then .jump target else .notTaken) fun s =>
    s.modEng g fun e =>
      if condHolds cond (e.cur.reg 0x33) then e.later 3 (0x10 + link) 0x3FFF ((e.cur.pc + 3) % 4096) none else e)

/-- R273 RTI. -/
def execRti (g : EngId) (s : State) : Host.Outcome State Fault Refusal := .next (s.transfer g (fun _ => .rti) id)

/-- R272 DONE. -/
def execDone (g : EngId) (s : State) : Host.Outcome State Fault Refusal := .next (s.transfer g (fun _ => .done) id)

/-- R272 WAIT. -/
def execWait (g : EngId) (s : State) : Host.Outcome State Fault Refusal := .next (s.transfer g (fun _ => .wait) id)

/-- R275 LOOP: `imm` the immediate count, else the register `reg`. A count of 0, or an END below the body, continues at
END + 1 with LF 0. -/
def execLoop (g : EngId) (imm : Bool) (count : BitVec 16) (reg : Fin 64) (last : Fin 4096) (s : State) :
    Host.Outcome State Fault Refusal :=
  .next (s.issue g fun s =>
    let e := s.eng g
    let pc := e.cur.pc
    let n := if imm then count.toNat else (e.readCode (isSup g) reg false false).1 % 2 ^ 16
    let tag := !imm && e.codeTag reg
    let none' := n == 0 || decide (last.val < pc + 1)
    { regs := if imm then [] else codeRegs reg
      skip := if none' then some ((last.val + 1) % 4096) else none
      body := fun s =>
        let s := if tag then s.consume g else s
        s.modEng g fun e => e.modCur fun r =>
          if none' then (r.setReg 0x30 0).setReg 0x33 (clearBit (r.reg 0x33) 9)
          else (((r.setReg 0x30 n).setReg 0x31 ((pc + 1) % 4096)).setReg 0x32 last).setReg 0x33 (setBit (r.reg 0x33) 9) })

/-! ### Bank window (R277, R278) -/

/-- The form, mode and register codes of a window instruction are ones R277 gives. -/
def winOk (w : WinArgs) (ok : Nat → Nat → Bool) : Bool := decide (w.mode.val < 5) && ok w.form w.reg

/-- In the supervisor nothing is issued and SYSERR is raised (R278). -/
def State.supWindow (s : State) (g : EngId) (w : WinArgs) (dst : List Nat) : State :=
  (s.windowNone g w dst false).pendSrc g 3

/-- R277 WLD. -/
def execWld (g : EngId) (w : WinArgs) (s : State) : Host.Outcome State Fault Refusal :=
  let ok := winOk w fun f r => f == 0 || (f == 1 && decide (r < 6)) || (f == 2 && (r == 4 || r == 5))
  let dst : List Nat := if w.form.val = 0 then [0, 1, 2, 3] else [w.reg.val]
  .next (s.issue g fun s =>
    if !ok then {}
    else
      { regs := dst
        wait := !isSup g && s.windowWait g w.bank
        body := fun s =>
          if isSup g then s.supWindow g w dst
          else
            let e := s.eng g
            s.windowIssue g w fun a =>
              ⟨.load, .read, e.sh, w.form, w.lane, w.reg, w.bank, a, 0xFFFF, 0#128, false, e.cur.pc, none⟩ })

/-- What a WST stores: data, byte enables, poison, and whether a transfer saturated (R277). -/
def wstData (e : Engine) (w : WinArgs) : Line × Nat × Bool × Bool :=
  let ext (v : Nat) : Nat := unsignedOf 32 (signedOf 24 v)
  match w.form.val with
  | 0 =>
    (BitVec.ofNat 128 ((List.range 4).foldl (fun a l => a + ext (e.cur.reg l) * 2 ^ (32 * l)) 0), 0xFFFF,
      (List.range 4).any e.cur.tagged, false)
  | 1 =>
    let (v, t) := storeWord e w.reg w.rnd w.s
    (BitVec.ofNat 128 (ext v * 2 ^ (32 * w.lane.val)), 0xF * 2 ^ (4 * w.lane.val), e.cur.tagged w.reg, t)
  | _ =>
    let h := if w.lane.val < 2 then 0 else 1
    (BitVec.ofNat 128 (unsignedOf 64 (signedOf 56 (e.cur.reg w.reg)) * 2 ^ (64 * h)), 0xFF * 2 ^ (8 * h),
      e.cur.tagged w.reg, false)

/-- R277 WST. A store from a tagged register writes the word poisoned (R236). -/
def execWst (g : EngId) (w : WinArgs) (s : State) : Host.Outcome State Fault Refusal :=
  let ok := winOk w fun f r => f == 0 || (f == 1 && decide (r < 6)) || (f == 2 && (r == 4 || r == 5))
  .next (s.issue g fun s =>
    if !ok then {}
    else
      { regs := if w.form.val = 0 then [0, 1, 2, 3] else [w.reg.val]
        wait := !isSup g && s.windowWait g w.bank
        body := fun s =>
          if isSup g then s.supWindow g w []
          else
            let e := s.eng g
            let (d, m, t, sat) := wstData e w
            (s.windowIssue g w fun a =>
              ⟨.store, .write, e.sh, w.form, w.lane, w.reg, w.bank, a, m, d, t, e.cur.pc, none⟩).transferSat g sat })

/-- R277 WATM. A tagged operand is consumed: nothing is issued, the destination takes 0 with its tag set. -/
def execWatm (g : EngId) (w : WinArgs) (s : State) : Host.Outcome State Fault Refusal :=
  let ok := winOk w fun f r => (f == 0 && decide (r < 4)) || ((f == 1 || f == 2) && (r == 4 || r == 5))
  .next (s.issue g fun s =>
    if !ok then {}
    else
      { regs := [w.reg.val]
        wait := !isSup g && s.windowWait g w.bank
        body := fun s =>
          let e := s.eng g
          if isSup g then s.supWindow g w [w.reg.val]
          else if e.cur.tagged w.reg then (s.consume g).windowNone g w [w.reg.val] true
          else
            let h := if w.lane.val < 2 then 0 else 1
            let op : BankOp := if w.form.val = 0 then .add32 else if w.form.val = 1 then .add64 else .swap64
            let m := if w.form.val = 0 then 0xF * 2 ^ (4 * w.lane.val) else 0xFF * 2 ^ (8 * h)
            let v := if w.form.val = 0 then unsignedOf 32 (signedOf 24 (e.cur.reg w.reg))
              else unsignedOf 64 (signedOf 56 (e.cur.reg w.reg))
            s.windowIssue g w fun a =>
              ⟨.atomic, op, e.sh, w.form, w.lane, w.reg, w.bank, a, m, BitVec.ofNat 128 v, false, e.cur.pc, none⟩ })

/-- R281: a reserved encoding issues as a no-operation. -/
def execReservedEncoding (g : EngId) (s : State) : Host.Outcome State Fault Refusal := .next (s.long g [] id)

/-! ### Beside the program -/

/-- R233, R234. -/
def execWindowLoadLand (n : Fin 64) (e : Fin 25) (s : State) : Host.Outcome State Fault Refusal :=
  .next (s.windowLand n e)

/-- R238, R239, R241: from RUN between instructions, or from WAIT. -/
def execInterruptEntry (g : EngId) (s : State) : Host.Outcome State Fault Refusal :=
  let e := s.eng g
  let s := s.modEng g fun e => e.commit e.idx
  if (e.state = .run ∨ e.state = .wait) ∧ e.xfer.isNone ∧ !e.resumed then
    match s.irqNow g with
    | none => .next s
    | some k => .next (s.enterIrq g k e.cur.pc)
  else .next s

/-- R245: TMR reaches 0 in cycles without an instruction. -/
def execTmrExpire (g : EngId) (s : State) : Host.Outcome State Fault Refusal :=
  if (s.eng g).tmr = 0 then .next s
  else .next ((s.modEng g fun e => { e with cyc := e.cyc + e.tmr, tmr := 0 }).pendSrc g 2)

/-- R242: STOP = 1 is reached at an instruction boundary. -/
def execEngStop (n : Fin 64) (e : Fin 25) (s : State) : Host.Outcome State Fault Refusal :=
  let st := (s.engAt n e).state
  if s.flag (ENG_CTRL_STOP n e) ∧ (st = .run ∨ st = .wait) then
    .next (s.modEngAt n e fun g => { g with stopFrom := g.state, state := .stop })
  else .next s

/-- A write of ENG_CTRL (R242, R250): with STOP = 0 an engine in STOP resumes. -/
def State.writeEngCtrl (s : State) (n e v : Nat) : State :=
  let s := (s.wr (ENG_CTRL_IMASK n e) (bitsOf v 23 16)).wr (ENG_CTRL_STOP n e) (bitsOf v 0 0)
  let s := { s with rsp := ⟨0, 0⟩ }
  if bitOf v 0 then s
  else s.modEngAt n e fun g => if g.state = .stop then { g with state := g.stopFrom } else g

/-- R250. -/
def execEngResume (_ : Accessor) (n : Fin 64) (e : Fin 25) (v : Word) (s : State) : Host.Outcome State Fault Refusal :=
  .next (s.writeEngCtrl n e (clearBit v.toNat 0))

/-- R250. -/
def execEngMdataRead (_ : Accessor) (n : Fin 64) (e : Fin 25) (s : State) : Host.Outcome State Fault Refusal :=
  .next (s.readMdata n e)

/-- R250. -/
def execEngMdataWrite (_ : Accessor) (n : Fin 64) (e : Fin 25) (v : Word) (s : State) :
    Host.Outcome State Fault Refusal := .next (s.writeMdata n e v.toNat)

end Sys2Proof.Machine
end

