-- ==== Sys2Proof/Machine/FabricRows.lean ====
section
/-! DEFINITION. The edge of a region's clocks with its ports, the region watchdog, sensor pairs and GIO banks (02, 05, 23). -/

namespace Sys2Proof.Machine

/-! ### The region edge (05 R140 to R163) -/

/-- Bank ports deliver one response each, in request order (R159); a discarded one is not delivered (06 R174). -/
def State.deliverPorts (s : State) (n : Nat) : State :=
  let heads := (s.region n).fab.ports.filterMap fun p => p.2.head?
  let s := if heads.any fun x => !x.discard && x.status == 5 then s.raise (RGN_PORT_STAT_OWNER n) else s
  s.modFab n fun f => { f with ports := f.ports.foldl (fun (t : Tbl (List PortRsp)) p => t.put [] p.1 p.2.tail) [] }

/-- The engine site stream port `p` is to be bound to (R161). -/
def State.bindWanted (s : State) (n p : Nat) : Nat :=
  let use := s.plc.spares.get 0 n
  if (use = 1 ∨ use = 2) ∧ s.plc.spareFor.get 0 n = p then 24 else p

/-- Ports whose engine's work has moved rebind once both FIFOs are empty (R161). -/
def State.rebind (s : State) (n : Nat) : State :=
  (List.range 24).foldl (fun s p =>
    let f := (s.region n).fab
    let now := f.bind.get p p
    let want := s.bindWanted n p
    if now ≠ want ∧ f.toEng.get [] now = [] ∧ f.fromEng.get [] now = [] then
      (s.modFab n fun f => { f with bind := if want = p then f.bind.del p else f.bind.set p want }).raise (RGN_PORT_STAT_REBIND n)
    else s) s

/-- A word that the fabric gives to stream port `p`: taken while READY is 1 (R158, R161). -/
def State.streamIn (s : State) (n p : Nat) (w : StreamWord) : State :=
  let f := (s.region n).fab
  let e := f.bind.get p p
  if e ≠ s.bindWanted n p ∨ 64 ≤ (f.toEng.get [] e).length then s
  else s.modFab n fun f => { f with toEng := f.toEng.put [] e (f.toEng.get [] e ++ [w]) }

/-- The fabric takes a word from stream port `p`. -/
def State.streamOut (s : State) (n p : Nat) : State :=
  let e := (s.region n).fab.bind.get p p
  s.modFab n fun f => { f with fromEng := f.fromEng.put [] e (f.fromEng.get [] e).tail }

/-- A network stream port accepts a word without LAST (R162); with the sixteenth a packet has to end. -/
def State.netWordIn (s : State) (n p dest : Nat) (w : Line) : State :=
  let o : OpenPkt := (s.region n).fab.opens.get ⟨dest, s.regionStamp, []⟩ p
  if 15 ≤ o.words.length then s
  else s.modFab n fun f => { f with opens := f.opens.set p { o with words := o.words ++ [w] } }

/-- Flip-flops, wire registers and keepers at an edge of the clocks in `spines`. -/
def Region.clock (r : Region) (spines : Nat) (down : List (Nat × Bool)) : Region :=
  let ffs := r.clockFfs spines down
  if bitOf spines 0 then
    let r' := { r with fab := { r.fab with wires := r.clockWires down, ffs := ffs, edges := r.fab.edges + 1 } }
    { r' with fab := { r'.fab with keepers := r'.keep down } }
  else { r with fab := { r.fab with ffs := ffs } }

/-- What an edge of region spine 0 does at the ports. -/
def State.portEdge (s : State) (n : Nat) (pins : FabricPins) : State :=
  let s := (s.deliverPorts n).rebind n
  let s := s.modFab n fun f => { f with
    sensors := f.sensors.foldl (fun (t : Tbl (List (BitVec 8))) p => t.put [] p.1 p.2.tail) [] }
  let s := pins.popStreams.foldl (fun (s : State) (p : Fin 24) => s.streamOut n p.val) s
  let s := pins.pushStreams.foldl (fun (s : State) (p : Fin 24 × BitVec 48 × Bool) => s.streamIn n p.1.val ⟨p.2.1, p.2.2⟩) s
  let s := pins.netWords.foldl (fun (s : State) (p : Fin 8 × Fin 64 × Line) => s.netWordIn n p.1.val p.2.1.val p.2.2) s
  pins.netPops.foldl (fun (s : State) (p : Fin 8) =>
    s.modFab n fun f => { f with rx := f.rx.put [] p.val (f.rx.get [] p.val).tail }) s

/-- R140, R145, R149, R158: clocks of the region have an edge: only in ACTIVE, and not once a power-down has begun its
drain (20 R581). -/
def execRegionFabricClockEdge (n : Fin 64) (pins : FabricPins) (s : State) : Host.Outcome State Fault Refusal :=
  if (s.region n).state ≠ .active ∨ (s.ni n).drain then .next s
  else
    let s := s.modRegion n fun r => r.clock pins.spines.toNat pins.down
    .next (if pins.spines.getLsbD 0 then s.portEdge n pins else s)

/-! ### The region watchdog (02 R62) -/

/-- R62: the fabric strobes WDK, sampled at region edges. -/
def execWdk (n : Fin 64) (s : State) : Host.Outcome State Fault Refusal :=
  .next (if (s.region n).state = .active then s.modRegion n fun r => { r with wdStart := s.cyc } else s)

/-- A write of RGN_WDKICK. -/
def State.writeRgnKick (s : State) (acc : Accessor) (n v : Nat) : State :=
  if acc = .firmware ∧ v % 65536 = 0xC35A then
    s.modRegion n fun r => if r.state = .test then { r with wdHeld := 0 } else { r with wdStart := s.cyc }
  else s.bump (RGN_WDOG_BADKICK n)

/-- R62. -/
def execRgnWdkick (acc : Accessor) (n : Fin 64) (v : Word) (s : State) : Host.Outcome State Fault Refusal :=
  .next (s.writeRgnKick acc n v.toNat)

/-- R62: the count has reached PERIOD. -/
def execRegionWatchdogExpire (n : Fin 64) (s : State) : Host.Outcome State Fault Refusal :=
  let p := s.rd (RGN_WDOG_PERIOD n)
  let r := s.region n
  .next (if r.state = .active ∧ p ≠ 0 ∧ r.wdStart + p * usCycles ≤ s.cyc then s.fence n 0x23 else s)

/-! ### Sensor pairs (05 R163; 23 R637) -/

/-- The unit identifier of the IOB unit (23 R643). -/
def unitIob : Nat := unitBase 0xE

/-- Pair `i` of bank `b` is an input in use, and its receiver is on (02 R53). -/
def State.pairIn (s : State) (b i : Nat) : Bool := s.chip.windows && s.flag (IOB_SBP_EN b i) && !s.flag (IOB_SBP_OUT b i)

/-- Where the lock bit of a pair lies. -/
def lockField (b i : Nat) : Fld := if i < 32 then IOB_SB_LOCK_LO_LOCK b else IOB_SB_LOCK_HI_LOCK b

/-- The pair has locked. -/
def State.pairLocked (s : State) (b i : Nat) : Bool := bitOf (s.rd (lockField b i)) (i % 32)

/-- R163: an input pair delivers a word to its owner region's FIFO of 8. -/
def execSensorWord (b : Fin 8) (i : Fin 48) (w : Byte) (s : State) : Host.Outcome State Fault Refusal :=
  let n := b.val + 8 * s.rd (IOB_SBP_ROW b i)
  if !s.pairIn b i || !s.pairLocked b i || !(s.region n).live then .next s
  else
    let q := (s.region n).fab.sensors.get [] i
    if q.length < 8 then .next (s.modFab n fun f => { f with sensors := f.sensors.set i (q ++ [w]) })
    else .next (((s.raise IOB_STATUS_SBOVF).bump (IOB_SB_OVF_COUNT b)).logEvLimited b 0x1702 1 0 unitIob
      (b.val + i.val * 2 ^ 3 + 1 * 2 ^ 16))

/-- R637: an input pair gains or loses lock. -/
def execSensorPairLock (b : Fin 8) (i : Fin 48) (lock : Bool) (s : State) : Host.Outcome State Fault Refusal :=
  if !s.pairIn b i || s.pairLocked b i == lock then .next s
  else
    let v := s.rd (lockField b i)
    if lock then .next (s.wr (lockField b i) (setBit v (i.val % 32)))
    else .next (((s.wr (lockField b i) (clearBit v (i.val % 32))).raise IOB_STATUS_SBLOCK).logEvLimited b 0x1703 1 0 unitIob
      (b.val + i.val * 2 ^ 3))

/-! ### GIO banks (23 R632) -/

/-- A measured voltage, in 20 mV, lies in the range of what the image declares. -/
def vioInRange (decl v : Nat) : Bool :=
  match decl with
  | 1 => decide (1710 ≤ v * 20 ∧ v * 20 ≤ 1890)
  | 2 => decide (3135 ≤ v * 20 ∧ v * 20 ≤ 3465)
  | _ => false

/-- Bank `b` (0 A, 1 B) is compared. -/
def State.vioBank (s : State) (b v : Nat) : State :=
  let ok := if b = 0 then IOB_VIO_OKA else IOB_VIO_OKB
  let was := s.flag ok
  let s := s.wr (if b = 0 then IOB_VIO_VIOA else IOB_VIO_VIOB) v
  let record (s : State) (entry : Bool) : State :=
    (s.raise IOB_STATUS_VIOERR).logEv 0x1701 1 (if entry then 4 else 0) unitIob (b + b2n entry * 2 + v * 4)
  if vioInRange (s.rd (if b = 0 then IOB_VIO_DECLA else IOB_VIO_DECLB)) v then
    if was then s
    else if !s.iob.judged then s.wr ok 1
    else if (s.iob.since.find? fun x => x.1 == b).isNone then { s with iob := { s.iob with since := s.iob.since.set b s.cyc } }
    else if s.iob.since.get 0 b + 10 * msCycles ≤ s.cyc then record (s.wr ok 1) false
    else s
  else
    let s := { s with iob := { s.iob with since := s.iob.since.del b } }
    if was ∨ !s.iob.judged then record (s.wr ok 0) true else s

/-- R632: the comparison of the output step, then every 1 ms (log entry 55). -/
def execVioCheck (a b : Byte) (s : State) : Host.Outcome State Fault Refusal :=
  if !s.chip.outputs then .next s
  else
    let s := (s.vioBank 0 a.toNat).vioBank 1 b.toNat
    .next { s with iob := { s.iob with judged := true } }

end Sys2Proof.Machine
end

