-- ==== Sys2Proof/Machine/KrlOps.lean ====
section
/-! DEFINITION. Kraerlink's shared operations (14): frames sent and forwarded, wraps, the ring's topology, reels and the
position rebuilt from them, masters, result streams, the ledger, management. -/

namespace Sys2Proof.Machine

/-! ### Ports and frames (R410 to R418, R432) -/

/-- The ring is in use: enabled, and outputs are past the output step (R419, R438). -/
def State.krlOn (s : State) : Bool := s.flag KRL_CTRL_EN && s.chip.outputs

/-- This device's node number. -/
def State.krlNode (s : State) : Nat := s.rd KRL_CTRL_NODE

/-- Port `p`: 0 east, 1 west. -/
def State.krlPort (s : State) (p : Nat) : KrlPort := if p = 0 then s.krl.east else s.krl.west

/-- Changes port `p`. -/
def State.modPortK (s : State) (p : Nat) (f : KrlPort → KrlPort) : State :=
  s.modKrl fun k => if p = 0 then { k with east := f k.east } else { k with west := f k.west }

/-- The link at port `p` is UP. -/
def State.linkUp (s : State) (p : Nat) : Bool := s.rd (KRL_LINK_STATE p) == 2

/-- What the ports have sent is gone: a new command begins (log entry 51). -/
def State.krlFresh (s : State) : State :=
  (s.modPortK 0 fun p => { p with out := [] }).modPortK 1 fun p => { p with out := [] }

/-- Port `p` sends a frame. -/
def State.krlPut (s : State) (p : Nat) (x : KSent) : State := s.modPortK p fun q => { q with out := q.out ++ [x] }

/-- The time in stamp units since the last exit from OFF. -/
def State.stampUnits (s : State) : Int := (s.cyc * 256 : Nat)

/-- The link word of a frame that port `p` sends now (R417). -/
def State.linkWord (s : State) (p : Nat) : LinkWord :=
  let tx : Nat := s.cyc * 256
  match (s.krlPort p).heard with
  | some (t, at_) => ⟨BitVec.ofNat 48 tx, BitVec.ofNat 48 t, BitVec.ofInt 32 (s.stampUnits - at_)⟩
  | none => ⟨BitVec.ofNat 48 tx, 0, 0⟩

/-- A DATA or MGMT frame leaves on its ring, or wraps where its port has no link (R432). False: no link at all. -/
def State.krlSend (s : State) (typ sub : Nat) (f : KFrame) : Bool × State :=
  let p := b2n f.ring
  if s.linkUp p then (true, s.krlPut p { typ := typ, sub := sub, f := f })
  else if s.linkUp (1 - p) then
    (true, s.krlPut (1 - p) { typ := typ, sub := sub, f := { f with ring := !f.ring, wrap := true } })
  else (false, s)

/-! ### Topology (R437, R443) -/

/-- The node of a TOPO item. -/
def itemNode (i : Nat) : Nat := i % 64

/-- This device's item of TOPO. -/
def State.krlItem (s : State) : Nat :=
  s.krlNode + b2n (s.flag KRL_CTRL_ROLE) * 64 + b2n (s.flag KRL_STATUS_MASTER) * 128

/-- Every node number of the ring. -/
def State.krlNodes (s : State) : List Nat := s.krlNode :: s.krl.topo.map itemNode

/-- Devices in the ring as TOPO gives them. -/
def State.krlSize (s : State) : Nat := s.krl.topo.length + 1

/-- Hops to a node on ring A: to itself all the way round. -/
def State.eastHops (s : State) (node : Nat) : Nat :=
  match s.krl.topo.findIdx? fun i => itemNode i == node with
  | some k => k + 1
  | none => s.krlSize

/-- The ring on which a node is fewer hops away, ring A at equal distance: true for B (R434). -/
def State.krlRing (s : State) (node : Nat) : Bool :=
  let e := s.eastHops node
  e < s.krlSize && decide (s.krlSize - e < e)

/-- The node is in TOPO once. -/
def State.krlPresent (s : State) (node : Nat) : Bool := (s.krlNodes.filter fun n => n == node).length == 1

/-- The master as far as this device knows it. -/
def State.krlMaster (s : State) : Option Nat :=
  if s.flag KRL_STATUS_MASTER || s.krl.reel.isSome then some (s.rd KRL_STATUS_MNODE)
  else (s.krl.topo.find? fun i => bitOf i 7).map itemNode

/-- Hops from the master on the ring whose reels are in use (KRL_TOPO). -/
def State.krlHops (s : State) : State :=
  match s.krlMaster with
  | none => s
  | some m =>
    let e := s.eastHops m
    let b := match s.krl.reel with
      | some r => r.ring
      | none => s.krl.prefB
    s.wr KRL_TOPO_HOPS (if m = s.krlNode ∨ s.krlSize ≤ e then 0 else if b then e else s.krlSize - e)

/-- A new node list: size, preference, doubled numbers (R419, R423). -/
def State.newTopo (s : State) (l : List Nat) : State :=
  let s := s.modKrl fun k => { k with topo := l.take 63 }
  let s := s.wr KRL_TOPO_SIZE s.krlSize
  let s := match s.krlMaster with
    | some m => if s.krl.topo.any fun i => itemNode i == m then
        s.modKrl fun k => { k with prefB := decide (s.eastHops m < s.krlSize - s.eastHops m) } else s
    | none => s
  let s := s.krlHops
  match s.krlNodes.find? fun n => !s.krlPresent n with
  | none => s.wr KRL_STATUS_DUPNODE 0
  | some n =>
    if s.flag KRL_STATUS_DUPNODE then s else (s.raise KRL_STATUS_DUPNODE).logEv 0x0E09 2 4 unitKrl n

/-- TOPO sets out on ring A and on ring B (R419). Its transaction number is the ring it starts on (log entry 52). -/
def State.sendTopo (s : State) : State :=
  let f (b : Bool) : KFrame := { dst := Fin.ofNat 64 s.krlNode, org := Fin.ofNat 64 s.krlNode, ring := b, seq := BitVec.ofNat 16 (b2n b),
                                 items := [BitVec.ofNat 8 s.krlItem] }
  ((s.krlSend 3 6 (f false)).2.krlSend 3 6 (f true)).2

/-! ### Links (R413, R419, R420, R432) -/

/-- The link at port `p` changes state, with its record; TOPO circles again. -/
def State.linkTo (s : State) (p st : Nat) : State :=
  let lanes := s.rd (KRL_LINK_RXUP p) &&& s.rd (KRL_LINK_TXUP p)
  let s := (s.wr (KRL_LINK_STATE p) st).logEv 0x0E01 1 (if st = 0 then 3 else 0) unitKrl (p + st * 2 + lanes * 8)
  let wrapped := if p = 0 then KRL_STATUS_WRAPE else KRL_STATUS_WRAPW
  let s := if st = 0 && !s.flag wrapped then (s.raise wrapped).logEv 0x0E02 1 0 unitKrl (p + 2)
    else if st = 2 && s.flag wrapped then (s.wr wrapped 0).logEv 0x0E02 1 0 unitKrl p
    else s
  s.sendTopo

/-- A number into a rising list. -/
def insertNat (x : Nat) : List Nat → List Nat
  | [] => [x]
  | y :: t => if x ≤ y then x :: y :: t else y :: insertNat x t

/-- The median of an even number of samples: the mean of the two in the middle. -/
def medianOf (l : List Nat) : Nat :=
  let t := l.foldr insertNat []
  (t.getD (t.length / 2 - 1) 0 + t.getD (t.length / 2) 0) / 2

/-- The mean of some samples, rounded. -/
def meanOf (l : List Nat) : Nat := if l = [] then 0 else (l.sum + l.length / 2) / l.length

/-- A REEL or FILL frame received at port `p` gives a sample of the link's latency (R417, R419, R420). -/
def State.krlSample (s : State) (p : Nat) (w : LinkWord) (age : Nat) : State :=
  let t4 := s.stampUnits - age
  let l := unsignedOf 48 (t4 - w.echo.toNat - w.turn.toNat) / 2
  let s := s.modPortK p fun q => { q with heard := some (w.tx.toNat, t4) }
  let q := s.krlPort p
  let st := s.rd (KRL_LINK_STATE p)
  if st = 1 ∧ s.rd (KRL_LINK_RXUP p) = 3 ∧ s.rd (KRL_LINK_TXUP p) = 3 then
    let s := s.modPortK p fun q => { q with exch := q.exch + 1, samples := l :: q.samples }
    if q.exch + 1 < 1024 then s
    else
      let s := (s.wr (KRL_HOPLAT_LAT p) (medianOf (l :: q.samples))).modPortK p fun q => { q with samples := q.samples.take 256 }
      s.linkTo p 2
  else if st = 2 then
    let m := s.rd (KRL_HOPLAT_LAT p)
    if m + 384 < l ∨ l + 384 < m then s.bump KRL_CNT_LINK_OUTLIER
    else
      let ls := (l :: q.samples).take 256
      (s.wr (KRL_HOPLAT_LAT p) (meanOf ls)).modPortK p fun q => { q with samples := ls }
  else s

/-- Block lock on lanes of one direction of port `p` (R413, R419). -/
def State.linkLock (s : State) (p : Nat) (tx : Bool) (lanes : Nat) : State :=
  let f := if tx then KRL_LINK_TXUP p else KRL_LINK_RXUP p
  let s := s.wr f (s.rd f ||| lanes)
  let st := s.rd (KRL_LINK_STATE p)
  if s.rd (KRL_LINK_RXUP p) = 0 ∨ s.rd (KRL_LINK_TXUP p) = 0 then s
  else if 1024 ≤ (s.krlPort p).exch then (if st = 2 then s else s.linkTo p 2)
  else if st = 0 then s.linkTo p 1
  else s

/-- Every lane of one direction of port `p` has lost block lock (R413, R432). -/
def State.linkDown (s : State) (p : Nat) (tx : Bool) : State :=
  let s := s.wr (if tx then KRL_LINK_TXUP p else KRL_LINK_RXUP p) 0
  if s.rd (KRL_LINK_STATE p) = 0 then s
  else
    let s := s.modPortK p fun q => if q.exch < 1024 then { q with exch := 0, samples := [] } else q
    s.linkTo p 0

/-! ### Reels (R421 to R424, R427 to R430) -/

/-- `a` is ahead of `b`, eras compared as R97 compares stamps (R429). -/
def eraAhead (a b : Nat) : Bool :=
  let d := (a + 2 ^ 16 - b) % 2 ^ 16
  decide (0 < d ∧ d < 2 ^ 14)

/-- This device follows a reel of that era and master (R429). -/
def State.follows (s : State) (era mnode : Nat) : Bool :=
  let m := s.flag KRL_STATUS_MASTER
  if !m && s.krl.reel.isNone then true
  else
    let e := s.rd KRL_STATUS_ERA
    let n := s.rd KRL_STATUS_MNODE
    eraAhead era e || (era == e && (decide (mnode < n) || (mnode == n && !m)))

/-- The source in use changes, with its record (03 R83, R102). -/
def State.newSource (s : State) (src : Nat) : State :=
  let old := s.tb.srcAct
  let s := s.goCold 4
  let s := s.modTb fun t => { t with srcAct := src, times := [] }
  s.logEv 0x0306 1 0 unitPtb (old % 8 + src * 8)

/-- A designated master, or a backup that had taken over, becomes a follower (R429). -/
def State.becomeFollower (s : State) : State :=
  (((s.wr KRL_STATUS_MASTER 0).newSource 4).startHold 3)

/-- The position of the REEL source after a reel has been taken: the first one sets the tracks, no point is crossed. -/
def State.reelPosition (s : State) (r : Reel) : State :=
  let turned := r.rev != s.tb.rev
  let cold := r.cold || s.flag KRL_STATUS_COLD
  let s := if cold then s.goCold 3
    else if s.tb.cold then
      let s := s.modTb fun t => { t with cold := false }
      s.logEv 0x0302 0 0 unitPtb s.velReg
    else s
  let s := s.modTb fun t => { t with rev := r.rev, still := r.still }
  if s.krl.first then
    let s := (s.modKrl fun k => { k with first := false }).trackNow true
    let s := s.modTb fun t => { t with pmPrev := t.pm }
    s.modEvt fun t => { t with judged := t.judged.map fun e => (e.1, s.tb.mtrack) }
  else
    let s := s.trackNow turned
    if turned then s.dirTurned else s

/-- A reel that the device follows is used: the first copy that comes, and the preferred ring's copy in its place
(R423, R424, R427, R428; log entry 48). -/
def State.useReel (s : State) (r : Reel) : State :=
  let k := s.krl
  let same := match k.reel with
    | some o => o.era == r.era && o.mnode == r.mnode
    | none => false
  let old := match k.reel with
    | some o => if same then o.time / 384 else 0
    | none => 0
  let seq := r.time / 384
  let again := same && seq == old
  let oldRing := match k.reel with
    | some o => o.ring
    | none => r.ring
  if same && (decide (seq < old) || (again && (oldRing == r.ring || r.ring != k.prefB))) then s
  else
    let gap := if same && !again then seq - old - 1 else 0
    let s := s.bump KRL_CNT_REEL_MISSED (gap - k.missing)
    let s := if again then s.wr KRL_CNT_REEL_OTHER (s.rd KRL_CNT_REEL_OTHER - 1)
      else if r.ring != k.prefB then s.bump KRL_CNT_REEL_OTHER
      else s
    let warm := if r.cold then 0 else if again then k.warmReels else if same ∧ gap = 0 then k.warmReels + 1 else 1
    let s := s.modKrl fun k => { k with reel := some r, missing := 0, frozen := none, warmReels := warm }
    let s := ((s.wr KRL_STATUS_ERA r.era).wr KRL_STATUS_MNODE r.mnode).wr KRL_STATUS_RINGB (b2n r.ring)
    let s := ((s.wr KRL_REEL_DELAY_DELAY r.delay).wr KRL_REEL_TIME_LO_TIME (r.time % 2 ^ 32)).wr KRL_REEL_TIME_HI_TIME (r.time / 2 ^ 32)
    let s := s.krlHops
    let s := if s.krl.hold && decide (16 ≤ warm) then s.endHold else s
    if s.tb.srcAct = 4 then s.reelPosition r else s

/-- The reel's frame as the follower keeps it. -/
def reelTaken (a : ReelArgs) (at_ : Int) : Reel :=
  { time := a.reel.time.toNat, era := a.reel.era.toNat, mnode := a.reel.mnode, cold := a.reel.cold, rev := a.reel.rev
    still := a.reel.still, delay := a.reel.delay.toNat, vel := signedOf 32 a.reel.vel.toNat
    pos := signedOf 80 a.reel.pos.toNat * 2 ^ 32, at_ := at_, ring := a.port == 0 }

/-- The node of the device behind port `p`, where TOPO names it. -/
def State.neighbour (s : State) (p : Nat) : Option Nat :=
  (if p = 0 then s.krl.topo.head? else s.krl.topo.getLast?).map itemNode

/-- A follower forwards a reel on its ring (R422). -/
def State.forwardReel (s : State) (a : ReelArgs) : State :=
  let out := 1 - a.port.val
  if s.flag KRL_STATUS_MASTER || !s.linkUp out || decide (a.ttl.toNat ≤ 1) || s.neighbour out == some a.reel.mnode.val then s
  else
    let d := a.reel.delay + a.residence + BitVec.ofNat 32 (s.rd (KRL_HOPLAT_LAT out))
    s.krlPut out { typ := 1, f := { ring := a.port == 0, ttl := a.ttl - 1 }, reel := some { a.reel with delay := d }
                   link := some (s.linkWord out) }

/-- The master's reel at port `p` (R421; log entry 49). -/
def State.sendReel (s : State) (p : Nat) : State :=
  if !s.linkUp p then s
  else
    let r : ReelPay :=
      { time := BitVec.ofNat 64 ((s.cyc - s.tb.startCyc) / 384 * 384), era := BitVec.ofNat 16 (s.rd KRL_STATUS_ERA)
        mnode := Fin.ofNat 64 s.krlNode, cold := s.tb.cold, rev := s.tb.rev, still := s.tb.still
        delay := BitVec.ofNat 32 (s.rd (KRL_HOPLAT_LAT p))
        vel := BitVec.ofInt 32 (roundDiv (s.veTimes 1) (2 ^ 16)), pos := BitVec.ofNat 80 (pos80 s.measured) }
    s.krlPut p { typ := 1, f := { ring := p == 1, stamp := BitVec.ofNat 56 s.stamp }, reel := some r, link := some (s.linkWord p) }

/-- This device starts to send reels of an era (R429, R430). -/
def State.becomeMaster (s : State) (era : Nat) : State :=
  (((s.wr KRL_STATUS_ERA era).wr KRL_STATUS_MNODE s.krlNode).raise KRL_STATUS_MASTER).krlHops

/-- A backup takes over (R430). -/
def State.takeOver (s : State) : State :=
  let era := (s.rd KRL_STATUS_ERA + 1) % 2 ^ 16
  let old := s.rd KRL_STATUS_MNODE
  let c := s.measured / countUnit
  let s := s.startHold 2
  let s := s.modTb fun t => { t with c := c }
  let s := (s.newSource (s.rd KRL_CTRL_BPORT)).trackNow
  (s.becomeMaster era).logEv 0x0E03 1 0 unitKrl (old + s.krlNode * 2 ^ 6 + era * 2 ^ 12)

/-- Reels n + 1 to n + 4 are missing (R427, R428, R430). -/
def State.reelsLost (s : State) : State :=
  if s.flag KRL_STATUS_MASTER || s.krl.reel.isNone || decide (4 ≤ s.krl.missing) then s
  else
    let s := s.bump KRL_CNT_REEL_MISSED (4 - s.krl.missing)
    let s := s.modKrl fun k => { k with missing := 4 }
    if s.rd KRL_CTRL_TEMPO = 2 && s.chip.state != .safe && !(s.port (s.rd KRL_CTRL_BPORT)).faulted then s.takeOver
    else s.startHold 2

/-- Kraerlink starts at the output step (R419, R428). -/
def State.startKrl (s : State) : State :=
  if !s.flag KRL_CTRL_EN then s
  else
    let s := [KRL_STATUS_MASTER, KRL_STATUS_HOLD, KRL_STATUS_WRAPE, KRL_STATUS_WRAPW, KRL_STATUS_RINGB, KRL_STATUS_DUPNODE
      , KRL_STATUS_MNODE, KRL_STATUS_ERA, KRL_TOPO_HOPS].foldl (fun s f => s.wr f 0) s
    let s := (s.raise KRL_STATUS_COLD).wr KRL_TOPO_SIZE 1
    let s := [0, 1].foldl (fun s p => (((s.wr (KRL_LINK_STATE p) 1).wr (KRL_LINK_TXUP p) 0).wr (KRL_LINK_RXUP p) 0).wr (KRL_HOPLAT_LAT p) 0) s
    if s.rd KRL_CTRL_TEMPO = 1 then s else s.startHold 1

/-! ### Frames on their way (R414, R422, R432, R436) -/

/-- A frame fails its CRC at a port (R414, R441). -/
def State.krlCrc (s : State) (p lane : Nat) : State :=
  (s.bump KRL_CNT_LINK_CRC).logEvLimited unitKrl 0x0E05 1 7 unitKrl (p + lane * 2)

/-- A MGMT frame to a node, on the shorter ring. False: no link. -/
def State.krlMgmt (s : State) (dst sub status seq : Nat) (words : List Word) : Bool × State :=
  let alive := s.krl.mgmtTx.get 0 dst
  let (ok, s) := s.krlSend 3 sub
    { dst := Fin.ofNat 64 dst, org := Fin.ofNat 64 s.krlNode, ttl := BitVec.ofNat 7 (2 * s.krlSize - 1), ring := s.krlRing dst
      status := Fin.ofNat 16 status, seq := BitVec.ofNat 16 seq, alive := BitVec.ofNat 8 alive, words := words }
  (ok, if ok then s.modKrl fun k => { k with mgmtTx := k.mgmtTx.put 0 dst ((alive + 1) % 256) } else s)

/-- A DATA frame is dropped here: one DROP frame to its origin (R436). -/
def State.krlDrop (s : State) (f : KFrame) (status : Nat) : State :=
  (s.krlMgmt f.org 5 status 0 [BitVec.ofNat 32 (f.stream.toNat + f.seq.toNat * 2 ^ 8)]).2

/-- A frame for another node goes on, one hop less to go. False: dropped for want of hops or of a link. -/
def State.krlForward (s : State) (typ sub : Nat) (a : FrameArgs) : Bool × State :=
  if a.f.ttl.toNat ≤ 1 then (false, s)
  else s.krlSend typ sub { a.f with ttl := a.f.ttl - 1, ring := a.port == 0 }

/-- A MGMT frame arrives: true when it is for this node and its CRC passes; its alive counter is checked (R416). -/
def State.krlArrive (s : State) (sub : Nat) (a : FrameArgs) : Bool × State :=
  if !s.krlOn then (false, s)
  else
    let s := s.krlFresh
    if !a.crcOk then (false, s.krlCrc a.port a.lane)
    else if a.f.dst.val ≠ s.krlNode then (false, (s.krlForward 3 sub a).2)
    else
      let last := s.krl.mgmtRx.get 0 a.f.org
      let s := if last ≠ 0 ∧ last % 256 ≠ a.f.alive.toNat then s.bump KRL_CNT_RX_GAP else s
      (true, s.modKrl fun k => { k with mgmtRx := k.mgmtRx.set a.f.org (a.f.alive.toNat + 1) })

/-- A TOPO frame arrives (R419, R437): this device adds its item and passes it on, or it is back at its origin. -/
def State.topoArrives (s : State) (a : FrameArgs) : State :=
  let start := a.f.seq.toNat % 2 == 1
  let ring := a.port == 0
  let items := a.f.items.map fun i => i.toNat
  let known (s : State) : State :=
    match s.krl.seenA, s.krl.seenB with
    | some (oa, la), some (ob, lb) => if oa = ob then s.newTopo (lb.reverse ++ la.tail) else s
    | _, _ => s
  if a.f.org.val = s.krlNode ∧ ring = start then
    s.newTopo (if start then items.tail.reverse else items.tail)
  else if ring ≠ start then (s.krlForward 3 6 a).2
  else
    let s := s.modKrl fun k =>
      if start then { k with seenB := some (a.f.org.val, items) } else { k with seenA := some (a.f.org.val, items) }
    let s := known s
    let f : KFrame := { a.f with items := a.f.items ++ [BitVec.ofNat 8 s.krlItem] }
    (s.krlForward 3 6 { a with f := f }).2

/-! ### Result streams (R434 to R436, R439, R440) -/

/-- A slot whose key serves the ring (16 R469). -/
def State.linkKey (s : State) (k : Nat) : Bool := s.rd (SEC_SLOT_STATE k) == 1 && s.flag (SEC_SLOT_LINK k)

/-- Both journal sectors fail: no START can be written (17 R520). -/
def State.noJournal (s : State) : Bool := s.jrn.badA && s.jrn.badB

/-- A new START is asked for, or START is exhausted (R439; 17 R520). -/
def State.askStart (s : State) : State :=
  let next := s.rd CFG_START_START + 1
  if 2 ^ 24 ≤ next ∨ s.noJournal then
    if s.flag KRL_STATUS_EXHAUST then s
    else ((s.raise KRL_STATUS_EXHAUST).logEv 0x0E0A 2 0xA unitKrl (s.rd CFG_START_START)).secAlarm 5
  else if s.jrn.queue.any fun r => r.typ == 7 then s
  else s.journal (unitBase 1) 7 next

/-- The START record has been written: its value is in use, every CTR restarts (R439). -/
def State.startWritten (s : State) (v : Nat) : State :=
  (s.wr CFG_START_START v).modKrl fun k => { k with startUsed := true, ctrs := [] }

/-- Interface 12 sends a stream packet as a DATA frame, or drops it (R434, R439). False: it waits. -/
def State.krlData (s : State) (p : Packet) : Bool × State :=
  let e := if p.src < 64 then s.krl.tables.get 0 (p.src * 8 + bitsOf p.addr 10 8) else 0
  let dst := bitsOf e 23 18
  let stream := bitsOf e 17 10
  let key := bitsOf e 29 24
  let enc := bitOf e 30
  let drop (s : State) (st : Nat) : Bool × State := (true, s.dropAt 76 p st)
  if !bitOf e 31 then drop s 4
  else if !s.krlPresent dst || !(s.linkUp 0 || s.linkUp 1) then drop s 3
  else if 4096 ≤ s.krl.ledger.length then (false, s)
  else if enc && !s.linkKey key then drop s 6
  else
    let ctr := s.krl.ctrs.get 0 stream
    -- a START that is not written yet, or a CTR that would pass its end, waits for a new START
    let fresh := enc && (!s.krl.startUsed || decide (2 ^ 40 ≤ ctr) || s.noJournal)
    let s := if fresh then (s.modKrl fun k => { k with startUsed := false }).askStart else s
    if enc && s.flag KRL_STATUS_EXHAUST then drop s 0xA
    else if fresh then (false, s)
    else
      let seq := s.krl.seqs.get 0 stream
      let f : KFrame :=
        { dst := Fin.ofNat 64 dst, org := Fin.ofNat 64 s.krlNode, ttl := BitVec.ofNat 7 (2 * s.krlSize - 1), ring := s.krlRing dst
          enc := enc, key := Fin.ofNat 64 key, seq := BitVec.ofNat 16 seq, stream := BitVec.ofNat 8 stream
          alive := BitVec.ofNat 8 seq, mark := p.opc == 0x21, psn := BitVec.ofNat 16 p.psn, stamp := BitVec.ofNat 56 p.stamp
          start := if enc then BitVec.ofNat 24 (s.rd CFG_START_START) else 0, ctr := if enc then BitVec.ofNat 40 ctr else 0
          data := p.words }
      let (_, s) := (s.crcTap 76 p).krlSend 2 0 f
      (true, s.modKrl fun k => { k with
        seqs := k.seqs.put 0 stream ((seq + 1) % 2 ^ 16)
        ctrs := if enc then k.ctrs.put 0 stream (ctr + 1) else k.ctrs
        ledger := k.ledger ++ [⟨stream, seq, p.src, p.tid, p.addr⟩] })

/-- What destination state (ORG, STREAM) is kept under. -/
def rxKey (org stream : Nat) : Nat := org * 256 + stream

/-- An ACK to the origin of a ring stream (R436, R437). -/
def State.krlAck (s : State) (k : Nat) : State :=
  let x := s.krl.rx.get {} k
  match x.high with
  | none => s
  | some h =>
    let (_, s) := s.krlMgmt (k / 256) 4 0 0 [BitVec.ofNat 32 (k % 256 + h * 2 ^ 8), BitVec.ofNat 32 x.map]
    s.modKrl fun r => { r with rx := r.rx.set k { x with since := 0 } }

/-- A delivered SEQ enters the highest and the map of the 32 below it (R436). -/
def KrlRx.deliver (x : KrlRx) (seq : Nat) : KrlRx :=
  match x.high with
  | none => { x with high := some seq, map := 0, since := x.since + 1 }
  | some h =>
    let up := (seq + 2 ^ 16 - h) % 2 ^ 16
    let down := (h + 2 ^ 16 - seq) % 2 ^ 16
    if up = 0 then { x with since := x.since + 1 }
    else if up < 2 ^ 15 then { x with high := some seq, map := (x.map * 2 + 1) * 2 ^ (min up 33 - 1) % 2 ^ 32, since := x.since + 1 }
    else { x with map := if down ≤ 32 then setBit x.map (down - 1) else x.map, since := x.since + 1 }

/-- The check of R440 that a frame fails, 0 none. -/
def State.krlCheck (s : State) (e : Nat) (x : KrlRx) (a : FrameArgs) : Nat :=
  if a.f.enc then
    if a.f.key.val ≠ bitsOf e 29 24 then 1
    else if !a.tagOk || !s.linkKey a.f.key then 2
    else match x.pair with
      | some q => if a.f.start.toNat * 2 ^ 40 + a.f.ctr.toNat ≤ q then 3 else 0
      | none => 0
  else if bitOf e 30 then 1 else 0

/-- A DATA frame at its destination (R416, R436, R440; log entry 50). -/
def State.krlDeliver (s : State) (a : FrameArgs) : State :=
  let f := a.f
  let st := f.stream.toNat
  let e := s.krl.tables.get 0 (512 + st)
  let key := rxKey f.org st
  let x := s.krl.rx.get {} key
  let c := s.krlCheck e x a
  if !bitOf e 31 then s.krlDrop f 4
  else if c ≠ 0 then
    let s := (s.bump KRL_CNT_RX_TAGFAIL).raise KRL_STATUS_TAGFAIL
    let s := (s.logEv 0x0E07 1 6 unitKrl (st + f.org * 2 ^ 8 + c * 2 ^ 14)).krlDrop f 6
    s.secAlarm 4
  else
    let lost := match x.alive with
      | some v => (f.alive.toNat + 255 - v) % 256
      | none => 0
    let s := if lost = 0 then s
      else (s.bump KRL_CNT_RX_GAP).logEvLimited unitKrl 0x0E06 1 0 unitKrl (st + f.org * 2 ^ 8 + lost * 2 ^ 16)
    let x := { x.deliver f.seq.toNat with
      alive := some f.alive.toNat
      pair := if f.enc then some (f.start.toNat * 2 ^ 40 + f.ctr.toNat) else x.pair }
    let s := s.modKrl fun k => { k with rx := k.rx.set key x }
    let s := if 32 ≤ x.since then s.krlAck key else s
    let ni := bitsOf e 6 0
    let addr := bitsOf e 13 11 + f.org * 2 ^ 12 + (f.data.length - 1) % 16 * 2 ^ 20
    match s.lookup 76 ni with
    | .error v => s.dropArrives 76 addr v (256 + st)
    | .ok (alt, route, dport) =>
      s.inject 76 {
        typ := 2, opc := if f.mark then 0x21 else 0x20, src := 76, tid := 256 + st, addr := addr, stamp := f.stamp.toNat
        psn := f.psn.toNat, route := route, dport := dport, alt := alt, epoch := s.epoch
        len := flitsLess1 f.data.length, data := f.data }

/-! ### The ledger (R435) -/

/-- A ledger entry closes with a drop notice to its source NI. -/
def State.ledgerDrop (s : State) (x : KrlOpen) (status : Nat) : State :=
  let s := s.modKrl fun k => { k with ledger := k.ledger.erase x }
  s.dropAt 76 { typ := 2, opc := 0x20, src := x.src, tid := x.tid, addr := x.addr } status

/-- An ACK's words: the stream, the highest SEQ and the map. -/
def ackCovers (w0 map : Nat) (x : KrlOpen) : Bool :=
  let d := (bitsOf w0 23 8 + 2 ^ 16 - x.seq) % 2 ^ 16
  x.stream == w0 % 256 && (d == 0 || (decide (d ≤ 32) && bitOf map (d - 1)))

/-! ### Management (R437, R438) -/

/-- A proxy request is answered: to the network, or to the service port. -/
def State.answerAsk (s : State) (a : KrlAsk) (status : Nat) (words : List Word) : State :=
  let v := (words.getD 0 0).toNat
  match a.pkt with
  | some p => s.respond 76 p status (if a.write then [] else [BitVec.ofNat 128 v]) 0
  | none => s.modKrl fun k => { k with proxy := some ⟨status, if a.write then 0 else v⟩ }

/-- A proxy access of node `node` (R438): sent, or answered here. -/
def State.krlAsk (s : State) (node addr : Nat) (write : Option Word) (pkt : Option Packet) : State :=
  let s := s.krlFresh
  let t := s.krl.tran
  let a : KrlAsk := { node := node, seq := t, pkt := pkt, write := write.isSome }
  let words : List Word := match write with
    | some v => [BitVec.ofNat 32 addr, v]
    | none => [BitVec.ofNat 32 addr, 0]
  if !s.krlOn || !s.krlPresent node || !(s.linkUp 0 || s.linkUp 1) then s.answerAsk a 3 []
  else
    let (_, s) := s.krlMgmt node (if write.isSome then 2 else 1) 0 t words
    s.modKrl fun k => { k with asks := k.asks ++ [a], tran := (t + 1) % 2 ^ 16 }

end Sys2Proof.Machine
end

