-- ==== Sys2Proof/Machine/Krl.lean ====
section
/-! DEFINITION. Commands of Kraerlink (14). The management frames that reach registers stand with the bus. -/

namespace Sys2Proof.Machine

/-- R421: the tempo master sends a reel on each ring. -/
def execReelSend (s : State) : Host.Outcome State Fault Refusal :=
  .next (if s.krlOn && s.flag KRL_STATUS_MASTER then (s.krlFresh.sendReel 0).sendReel 1 else s)

/-- R422 to R424, R429: a reel arrives. -/
def execReel (a : ReelArgs) (s : State) : Host.Outcome State Fault Refusal :=
  if !s.krlOn then .next s
  else
    let s := s.krlFresh
    if !a.crcOk then .next (s.krlCrc a.port a.lane)
    else
      let at_ := s.stampUnits - a.age.toNat
      let s := s.krlSample a.port a.link a.age.toNat
      let own := a.reel.mnode.val == s.krlNode && s.flag KRL_STATUS_MASTER
      if own then .next s
      else if s.follows a.reel.era.toNat a.reel.mnode then
        let lead := s.flag KRL_STATUS_MASTER || (s.rd KRL_CTRL_TEMPO == 1 && s.tb.srcAct != 4)
        let s := if lead then s.becomeFollower else s
        .next ((s.useReel (reelTaken a at_)).forwardReel a)
      else .next (s.forwardReel a)

/-- R418: a FILL frame is sent on lane 0 of port `p`. -/
def execFillSend (p : Fin 2) (s : State) : Host.Outcome State Fault Refusal :=
  if !s.krlOn then .next s
  else
    let s := s.krlFresh
    let n := (s.krlPort p).fillTx
    let s := s.modPortK p fun q => { q with fillTx := (n + 1) % 256 }
    .next (s.krlPut p { typ := 4, f := { alive := BitVec.ofNat 8 n }, link := some (s.linkWord p) })

/-- R416, R419, R420: a FILL frame arrives; its link word gives a sample. -/
def execFill (p : Fin 2) (crcOk : Bool) (link : LinkWord) (age alive : Byte) (s : State) : Host.Outcome State Fault Refusal :=
  if !s.krlOn then .next s
  else
    let s := s.krlFresh
    if !crcOk then .next (s.krlCrc p 0)
    else
      let s := match (s.krlPort p).fillRx with
        | some v => if (v + 1) % 256 = alive.toNat then s else s.bump KRL_CNT_LINK_CRC
        | none => s
      let s := s.modPortK p fun q => { q with fillRx := some alive.toNat }
      .next (s.krlSample p link age.toNat)

/-- R414, R432, R436, R440: a DATA frame is forwarded, dropped or delivered. -/
def execData (a : FrameArgs) (s : State) : Host.Outcome State Fault Refusal :=
  if !s.krlOn then .next s
  else
    let s := s.krlFresh
    if !a.crcOk then .next ((s.krlCrc a.port a.lane).krlDrop a.f 7)
    else if a.f.dst.val = s.krlNode then .next (s.krlDeliver a)
    else
      let (ok, s) := s.krlForward 2 0 a
      .next (if ok then s else s.krlDrop a.f 3)

/-- R438: a RESPONSE answers its proxy request; a late one is discarded and counted. -/
def execMgmtResponse (a : FrameArgs) (s : State) : Host.Outcome State Fault Refusal :=
  let (ours, s) := s.krlArrive 3 a
  if !ours then .next s
  else match s.krl.asks.find? fun x => x.seq == a.f.seq.toNat && x.node == a.f.org.val with
  | none => .next (s.bump (niFld NI_CNT_TO_LATERSP 76))
  | some x => .next ((s.modKrl fun k => { k with asks := k.asks.erase x }).answerAsk x a.f.status a.f.words)

/-- R435: an ACK closes the ledger entries it covers as delivered. -/
def execMgmtAck (a : FrameArgs) (s : State) : Host.Outcome State Fault Refusal :=
  let (ours, s) := s.krlArrive 4 a
  if !ours then .next s
  else
    let w0 := (a.f.words.getD 0 0).toNat
    let map := (a.f.words.getD 1 0).toNat
    if s.krl.ledger.any (ackCovers w0 map) then
      .next (s.modKrl fun k => { k with ledger := k.ledger.filter fun x => !ackCovers w0 map x })
    else .next (s.bump KRL_CNT_DATA_LATE)

/-- R435: a DROP closes a ledger entry and sends a drop notice to the source NI. -/
def execMgmtDrop (a : FrameArgs) (s : State) : Host.Outcome State Fault Refusal :=
  let (ours, s) := s.krlArrive 5 a
  if !ours then .next s
  else
    let w := (a.f.words.getD 0 0).toNat
    match s.krl.ledger.find? fun x => x.stream == w % 256 && x.seq == bitsOf w 23 8 with
    | none => .next (s.bump KRL_CNT_DATA_LATE)
    | some x => .next ((s.bump KRL_CNT_DATA_DROPPED).ledgerDrop x a.f.status)

/-- R419, R437: a TOPO frame arrives. -/
def execTopo (a : FrameArgs) (s : State) : Host.Outcome State Fault Refusal :=
  if !s.krlOn then .next s
  else
    let s := s.krlFresh
    .next (if a.crcOk then s.topoArrives a else s.krlCrc a.port a.lane)

/-- R436: ACKs of every ring stream from which frames have come since the last. -/
def execAckSend (s : State) : Host.Outcome State Fault Refusal :=
  if !s.krlOn then .next s
  else
    let due := (s.krl.rx.filter fun x => decide (0 < x.2.since)).map fun x => x.1
    .next (due.foldl (fun s k => s.krlAck k) s.krlFresh)

/-- R413, R419: lanes of one direction of port `p` come into block lock. -/
def execLinkBlockLock (p : Fin 2) (tx : Bool) (lanes : BitVec 2) (s : State) : Host.Outcome State Fault Refusal :=
  .next (if s.krlOn then s.krlFresh.linkLock p tx lanes.toNat else s)

/-- R413, R432. -/
def execLinkDown (p : Fin 2) (tx : Bool) (s : State) : Host.Outcome State Fault Refusal :=
  .next (if s.krlOn then s.krlFresh.linkDown p tx else s)

/-- R427, R428, R430. -/
def execReelsLost (s : State) : Host.Outcome State Fault Refusal := .next (if s.krlOn then s.reelsLost else s)

/-- R427: after 1 ms without a reel the position stays constant. -/
def execReelFreeze (s : State) : Host.Outcome State Fault Refusal :=
  .next (if s.krlOn && s.krl.reel.isSome && s.krl.frozen.isNone && s.tb.srcAct == 4 then
    s.modKrl fun k => { k with frozen := some s.cyc } else s)

/-- R429: a designated master that hears no reel starts sending with era 1. -/
def execMasterStart (s : State) : Host.Outcome State Fault Refusal :=
  .next (if s.krlOn && s.rd KRL_CTRL_TEMPO == 1 && !s.flag KRL_STATUS_MASTER && s.krl.reel.isNone then
    (s.becomeMaster 1).wr KRL_STATUS_COLD 0 else s)

/-- R431: the hold has lasted HOLDMAX. -/
def execHoldLimit (s : State) : Host.Outcome State Fault Refusal :=
  if !s.krlOn || !s.krl.hold || s.krl.limitLogged then .next s
  else
    let s := s.modKrl fun k => { k with limitLogged := true }
    .next (if s.flag KRL_CTRL_LOSTPOL then s.doubt 0x06 else s.logHold 3)

/-- R435: the oldest ledger entry has had neither ACK nor DROP within DTIMEOUT. -/
def execLedgerTimeout (s : State) : Host.Outcome State Fault Refusal :=
  match s.krl.ledger with
  | [] => .next s
  | x :: _ => .next ((s.bump KRL_CNT_DATA_TIMEOUT).ledgerDrop x 7)

/-- R438: the oldest proxy request has had no RESPONSE within MTIMEOUT. -/
def execMgmtTimeout (s : State) : Host.Outcome State Fault Refusal :=
  match s.krl.asks with
  | [] => .next s
  | x :: _ => .next ((s.modKrl fun k => { k with asks := k.asks.erase x }).answerAsk x 7 [])

end Sys2Proof.Machine
end

