-- ==== Sys2Proof/Machine/LaneRows.lean ====
section
/-! DEFINITION. Commands of the serial lanes (15). -/

namespace Sys2Proof.Machine

/-- R447: a quad PLL gains or loses lock; `ok`: its reference is within ±1,000 ppm. -/
def execQpllLock (q : Fin 12) (lock ok : Bool) (s : State) : Host.Outcome State Fault Refusal :=
  let was := s.flag (LNE_QSTAT_LOCK q)
  let s := s.wr (LNE_QSTAT_REFOK q) (b2n ok)
  if was = lock then .next s
  else
    let s := s.wr (LNE_QSTAT_LOCK q) (b2n lock)
    let ks := (List.range 4).map fun l => q.val * 4 + l
    if lock then
      let s := if s.lanes.lostPll.contains q then
          (s.modLanes fun t => { t with lostPll := t.lostPll.erase q }).logEv 0x0F01 1 0 (unitBase 8) (q + b2n ok * 32)
        else s
      .next (ks.foldl (fun s k => if (s.lane k).state = 1 then s.laneTo k 2 else s) s)
    else
      let s := (s.modLanes fun t => { t with lostPll := q :: t.lostPll.erase q }).logEv 0x0F01 1 3 (unitBase 8)
        (q + 16 + b2n ok * 32)
      .next (ks.foldl (fun s k =>
        if (s.lane k).state = 0 ∨ (s.lane k).state = 5 ∨ (s.lane k).lost then s else s.laneTo k 1) s)

/-- R447: an unlocked PLL tries again after 1 ms; its next lock is a recovery. -/
def execQpllRetry (q : Fin 12) (s : State) : Host.Outcome State Fault Refusal :=
  .next (if s.flag (LNE_QSTAT_LOCK q) then s else s.modLanes fun t => { t with lostPll := q :: t.lostPll.erase q })

/-- R457: lock gained. -/
def execLaneLock (q : Fin 12) (l : Fin 4) (s : State) : Host.Outcome State Fault Refusal :=
  let k := q.val * 4 + l
  let st := (s.lane k).state
  if (st = 2 ∨ st = 4) ∧ !(s.lane k).lost then
    .next ((s.modLane k fun x => { x with sigdet := true, hiber := false }).laneTo k 3)
  else .next s

/-- R457, R459: an UP lane loses lock, or enters high BER (`high`); `sig`: its signal is still present. -/
def execLaneLoss (q : Fin 12) (l : Fin 4) (high sig : Bool) (s : State) : Host.Outcome State Fault Refusal :=
  let k := q.val * 4 + l
  if (s.lane k).state ≠ 3 then .next s
  else
    let s := s.modLane k fun x => { x with sigdet := sig, hiber := high }
    let s := if high then s.bump (laneFld LNE_LCNT_ERR_HIBER k) else s.bump (laneFld LNE_LCNT_ERR_LOSS k)
    let s := s.laneTo k 2 high
    if high || !sig then .next s
    else
      let recent := s.cyc :: (s.lane k).losses.filter fun t => s.cyc < t + 1000 * msCycles
      let s := s.modLane k fun x => { x with losses := recent }
      if max 1 (s.rd (LNE_QCFG_LOSLIM q)) ≤ recent.length then
        .next ((s.modLane k fun x => { x with losses := [] }).sliceFails k)
      else .next s

/-- R457: 10 ms in ACQUIRE without lock. -/
def execLaneAcquireTimeout (q : Fin 12) (l : Fin 4) (s : State) : Host.Outcome State Fault Refusal :=
  .next (if (s.lane (q.val * 4 + l)).state = 2 then s.laneTo (q.val * 4 + l) 4 else s)

/-- R457: a DOWN lane tries ACQUIRE again. -/
def execLaneRetry (q : Fin 12) (l : Fin 4) (s : State) : Host.Outcome State Fault Refusal :=
  let x := s.lane (q.val * 4 + l)
  .next (if x.state = 4 ∧ !x.lost then s.laneTo (q.val * 4 + l) 2 else s)

/-- R451, R454: an entry at the elastic buffer. -/
def execLaneRxWord (q : Fin 12) (l : Fin 4) (e : LaneRx) (s : State) : Host.Outcome State Fault Refusal :=
  let k := q.val * 4 + l
  if (s.lane k).state ≠ 3 then .next s
  else match e with
  | .line w filler bad => .next (s.laneArrive k w filler bad)
  | .clock => .next (s.laneClock k)

/-- R451: HOLD has passed since the packet's first word. -/
def execLanePacketHold (q : Fin 12) (l : Fin 4) (s : State) : Host.Outcome State Fault Refusal :=
  .next (s.laneClose (q.val * 4 + l))

/-- R455. -/
def execForcedFiller (q : Fin 12) (l : Fin 4) (s : State) : Host.Outcome State Fault Refusal :=
  let k := q.val * 4 + l
  let pcs := s.lanePcs k
  .next (if (s.lane k).state = 3 ∧ (pcs = 4 ∨ pcs = 5) ∧ s.rd (laneFld LNE_LPKT_FILLINT k) ≤ (s.lane k).sinceFill then
    s.laneFiller k else s)

/-- R453: the transmitter sends its next block; a lane without lock sends fillers (R457). -/
def execLaneTxBlock (q : Fin 12) (l : Fin 4) (s : State) : Host.Outcome State Fault Refusal :=
  let k := q.val * 4 + l
  let st := (s.lane k).state
  if !s.chip.outputs ∨ st = 0 ∨ st = 1 ∨ st = 5 then .next s
  else if st = 3 then .next (s.laneSend k)
  else .next (s.laneFiller k)

/-- R456: one adaptation step, by `up` or `down`, or none. -/
def execCtleStep (q : Fin 12) (l : Fin 4) (up down : Bool) (s : State) : Host.Outcome State Fault Refusal :=
  let k := q.val * 4 + l
  let x := s.lane k
  if !s.flag (laneFld LNE_LCTLE_ADAPT k) ∨ x.scan ∨ (x.state ≠ 2 ∧ x.state ≠ 3) then .next s
  else
    let code := if up && !down then min 31 (x.code + 1) else if down && !up then x.code - 1 else x.code
    let codes := (code :: x.codes).take 64
    let steady := decide (64 ≤ codes.length) && decide (codes.foldl max 0 ≤ codes.foldl min 31 + 1)
    .next (s.modLane k fun x => { x with code := code, codes := codes, cold := x.cold && !steady })

/-- A write of LNE_ESCAN (R458). -/
def State.writeEscan (s : State) (k v : Nat) : State :=
  let s := { s with rsp := ⟨0, 0⟩ }
  if bitOf v 31 ∧ ((s.lane k).scan ∨ (s.lane k).state ≠ 3) then s.raise (laneFld LNE_ESCAN_REFUSED k)
  else
    let s := ((s.wr (laneFld LNE_ESCAN_PHASE k) (bitsOf v 27 22)).wr (laneFld LNE_ESCAN_VERT k) (bitsOf v 21 14)).wr
      (laneFld LNE_ESCAN_NBITS k) (bitsOf v 13 8)
    if bitOf v 31 then
      let s := ((s.wr (laneFld LNE_ESCAN_REFUSED k) 0).wr (laneFld LNE_ESCAN_DONE k) 0).wr (laneFld LNE_ESCAN_ABORT k) 0
      (s.wr (laneFld LNE_ESCAN_CODE k) (s.lane k).code).modLane k fun x => { x with scan := true }
    else s

/-- R458. -/
def execEscanStart (_ : Accessor) (q : Fin 12) (l : Fin 4) (v : Word) (s : State) : Host.Outcome State Fault Refusal :=
  .next (s.writeEscan (q.val * 4 + l) v.toNat)

/-- R458: the count is done with that many disagreements. -/
def execEscanDone (q : Fin 12) (l : Fin 4) (errors : Word) (s : State) : Host.Outcome State Fault Refusal :=
  let k := q.val * 4 + l
  if (s.lane k).scan then
    .next (((s.wr (laneFld LNE_ESCAN_ERR_ERRORS k) errors.toNat).raise (laneFld LNE_ESCAN_DONE k)).modLane k
      fun x => { x with scan := false })
  else .next s

/-- A write of LNE_QSUB (R459). -/
def State.writeQsub (s : State) (q v : Nat) : State :=
  let s := { s with rsp := ⟨0, 0⟩ }
  if bitOf v 31 then s.sliceFails (q * 4 + v % 4) else s

/-- R459. -/
def execLneQsub (_ : Accessor) (q : Fin 12) (v : Word) (s : State) : Host.Outcome State Fault Refusal :=
  .next (s.writeQsub q v.toNat)

/-- R460 steps 2 and 3: the new slice is connected; it waits for the quad's PLL. -/
def execSliceSwitchDone (q : Fin 12) (l : Fin 4) (s : State) : Host.Outcome State Fault Refusal :=
  let k := q.val * 4 + l
  let x := s.lane k
  match x.next with
  | none => .next s
  | some sp =>
    if x.state = 5 ∧ s.flag (LNE_QSTAT_LOCK q) then
      .next ((s.modLane k fun x => { x with spare := sp, next := none }).laneTo k 2)
    else .next s

end Sys2Proof.Machine
end

