-- ==== Sys2Proof/Machine/PartOps.lean ====
section
/-! DEFINITION. Requests for partial loads (17 R512 to R515): asked for, taken, failed, completed. -/

namespace Sys2Proof.Machine

/-- The status that follows a code of R507. -/
def failStatus (code : Nat) : Nat :=
  if code = 1 then 7
  else if code = 8 ∨ code = 9 ∨ code = 12 ∨ code = 16 then 6
  else 4

/-- A request joins those that wait for the loader. -/
def State.queuePart (s : State) (q : PartReq) : State := s.modLdr fun l => { l with waiting := l.waiting ++ [q] }

/-- A write of CFG_PLOAD: refused when the loader is busy (R512). -/
def State.writePload (s : State) (v : Nat) : State :=
  let s := { s with rsp := ⟨0, 0⟩ }
  let part := v % 256
  let e := s.partEntry part
  if !bitOf v 31 then s
  else if s.ldr.run.isSome then s.partOutcome part (pdRegion e) (pdCtx e) 1 0xA 0
  else s.queuePart { part := part, path := 1 }

/-- A DARK region's WHOLE partial is asked for: Kettle wakes the region first (20 R579). -/
def State.askWakeFor (s : State) (part path entry : Nat) : State :=
  s.kettleQueue
    { region := pdRegion (s.partEntry part), kind := 2, point := 0, prio := if path = 0 then 2 else 0, arrived := s.cyc
      part := part, path := path, entry := entry }

/-- The region counts as DARK for R512: DARK, or with a power-down taken (20 R581). -/
def State.partDark (s : State) (n : Nat) : Bool := (s.region n).state == .dark || s.flag (PWR_RGN_DOWN n)

/-- A LOAD_PARTIAL occurrence reaches the loader (R512; 20 R579, R580). -/
def State.partAction (s : State) (a : Action) : State :=
  let part := a.param % 256
  match s.ldr.early.find? fun e => e.entry == a.entry with
  | some e =>
    match e.outcome with
    | some (st, err) =>
      (s.modLdr fun l => { l with early := l.early.erase e }).partOutcome e.part e.region e.mask 0 st err
    | none => s.modLdr fun l => { l with early := l.early.map fun x => if x = e then { x with due := true } else x }
  | none =>
    let d := s.partEntry part
    if pdValid d && pdWhole d && s.partDark (pdRegion d) && s.chip.state != .safe then s.askWakeFor part 0 a.entry
    else s.queuePart { part := part, path := 0, entry := a.entry }

/-! ### Failure (R513, R514) -/

/-- A failure that leaves its region FENCED starts the fall-back that the directory names, but none of a fall-back. -/
def State.fallBack (s : State) (q : PartReq) : State :=
  let f := pdFallback (s.partEntry q.part)
  if q.path = 3 ∨ f = 0xFF ∨ !pdValid (s.partEntry f) then s else s.queuePart { part := f, path := 3 }

/-- Region `n` goes FENCED with cause PARTIAL; no restart of its own ends that. -/
def State.fencePartial (s : State) (n : Nat) : State := (s.fence n 0x24).modRegion n fun r => { r with stuck := true }

/-- The running partial fails a check. -/
def State.failPartial (s : State) (code : Nat) : State :=
  match s.ldr.run with
  | none => s
  | some p =>
    let s := s.endPartial (failStatus code) code
    if code = 17 ∨ (s.region p.region).state = .loading then (s.fencePartial p.region).fallBack p.req else s

/-! ### Taking a request (R512) -/

/-- What the loader makes of a request: taken, the region woken first, or closed with a status and a code. -/
inductive PartVerdict where
  | take
  | wake
  | close (status err : Nat)
  /-- refused with reason ACTIVE_TARGET (06 R176) -/
  | active
deriving DecidableEq, Repr

/-- R512. A woken region's request is for that region and WHOLE. -/
def State.partJudge (s : State) (q : PartReq) : PartVerdict :=
  let e := s.partEntry q.part
  let n := pdRegion e
  let r := s.region n
  if !pdValid e then .close 4 19
  else if q.woken && q.region != n then .close 4 18
  else if s.chip.state = .safe ∨ r.limit then .close 0xA 0
  else if s.partDark n then (if pdWhole e then .wake else .close 0xA 0)
  else match r.state with
  | .loading => if q.woken && pdWhole e then .take else .close 0xA 0
  | .fenced => .take
  | _ =>
    if pdWhole e then .close 0xA 0
    else if bitOf (pdCtx e) r.ctx.active then .active
    else .take

/-- A request is closed without a load: a region woken for it goes FENCED (R514). -/
def State.closeTaken (s : State) (q : PartReq) (status err : Nat) : State :=
  let e := s.partEntry q.part
  let s := s.closePart q (pdRegion e) (pdCtx e) status err
  if q.woken && (s.region q.region).state == .loading then (s.fencePartial q.region).fallBack q else s

/-- A partial load starts. -/
def State.startPartial (s : State) (q : PartReq) : State :=
  let e := s.partEntry q.part
  let n := pdRegion e
  let live := (s.region n).live
  let s := if (s.region n).state = .fenced then s.toLoading n else s
  let p : PartRun := { req := q, region := n, mask := pdCtx e, whole := pdWhole e, live := live }
  let s := s.modLdr fun l => { l with run := some p }
  let s := ((s.wr CFG_PSTAT_BUSY 1).wr CFG_PSTAT_FB (b2n (q.path == 3))).wr CFG_PSTAT_CUR q.part
  if live then s.modCtx n fun c => { c with loading := c.loading ||| pdCtx e } else s

/-- The request the loader takes next: a fall-back before any other (R512). -/
def Loader.nextPart (l : Loader) : Option PartReq :=
  match l.waiting.find? fun q => q.path == 3 with
  | some q => some q
  | none => l.waiting.head?

/-- The loader takes a waiting request. -/
def State.takePartial (s : State) : State :=
  if s.ldr.run.isSome ∨ !(s.chip.state == .run || s.chip.state == .safe) then s
  else match s.ldr.nextPart with
  | none => s
  | some q =>
    let s := s.modLdr fun l => { l with waiting := l.waiting.erase q }
    match s.partJudge q with
    | .take => s.startPartial q
    | .wake => s.askWakeFor q.part q.path q.entry
    | .close st err => s.closeTaken q st err
    | .active =>
      let n := pdRegion (s.partEntry q.part)
      let s := s.ctxRefuse n ⟨3, (s.region n).ctx.active, 0, s.regionStamp⟩ 5
      s.closeTaken q 0xA 0

/-! ### Completion (R513) -/

/-- The running partial has passed every check. -/
def State.completePartial (s : State) (p : PartRun) : State :=
  let n := p.region
  let s := s.modCtx n fun c => { c with loaded := c.loaded ||| p.mask }
  let s := s.endPartial 0 0
  if p.live then s
  else
    let s := if p.whole then s.plcAssign n else s
    let s := if p.req.woken then s.raiseInitial n else s
    s.restart n

/-- The last byte of a partial has been read: IMGCRC, then the signature, are judged. -/
def State.endOfPartial (s : State) (crcOk sigOk : Bool) : State :=
  match s.ldr.run with
  | none => s
  | some p =>
    if !p.header then s
    else if !crcOk then s.failPartial 15
    else if bitOf s.ldr.hdr.flags 0 && !sigOk then s.failPartial 16
    else s.completePartial p

end Sys2Proof.Machine
end

