-- ==== Sys2Proof/Machine/Network.lean ====
section
/-! DEFINITION. The network's own commands (12): hops, ageing, timeouts, failures, flips, table writes, responses and
drop notices at their source, stream packets and marks sent. Requests and stream packets at their targets stand in
NetServe. -/

namespace Sys2Proof.Machine

/-! ### Hops (R360, R364 to R368, R374) -/

/-- Where the packet at the head of a queue goes next: a link 0 to 3, or 4 + DPORT. -/
def nextOut (p : Packet) : Option Nat :=
  let h := p.route % 8
  if h < 4 then some h
  else if h = 7 then (if p.dport < 4 then some (4 + p.dport) else none)
  else none

/-- The flits of room a packet needs in the next queue: its own and 4 more where it enters a ring (R365). -/
def roomFor (port d : Nat) (p : Packet) : Nat :=
  p.len + 1 + (if port < 4 ∧ port / 2 = d / 2 then 0 else 4)

/-- The NI behind an ejection port can take the packet now (R365, R372, R373). -/
def State.canEject (s : State) (i : Nat) (p : Packet) : Bool :=
  match p.typ with
  | 1 => true
  | 2 => !(decide (i < 64) && (s.region i).state == .test)
  | _ => decide (64 ≤ i) || decide (s.niAccepted i + ((s.ni i).inbox.filter fun q => q.typ == 0 || q.typ == 3).length < 64)

/-- The packet at the head of a queue can leave by `out` now. -/
def State.canHop (s : State) (r port out : Nat) (p : Packet) : Bool :=
  nextOut p == some out &&
  (if out < 4 then
    let r' := hopTo r out
    s.linkDead r out || s.routerFaulted r' ||
      decide (flitsOf (s.net.queues.get [] (queueKey r' out p.typ p.alt)) + roomFor port out p ≤ 8)
  else match portNi r (out - 4) with
    | some i => s.canEject i p
    | none => true)

/-- The rank of a channel in R366. -/
def vcRank (t : Nat) : Nat :=
  match t with
  | 3 => 0
  | 1 => 1
  | 0 => 2
  | _ => 3

/-- `a` goes before `b` at an output (R366): urgency, channel, wait at the head, input port. -/
def hopBefore (a b : Nat × Packet) : Bool :=
  decide (b.2.urg < a.2.urg) || (a.2.urg == b.2.urg &&
    (decide (vcRank a.2.typ < vcRank b.2.typ) || (vcRank a.2.typ == vcRank b.2.typ &&
      (decide (a.2.headAt < b.2.headAt) || (a.2.headAt == b.2.headAt && decide (a.1 < b.1))))))

/-- The packet that output `out` of router `r` takes next, with its queue. -/
def State.hopPick (s : State) (r out : Nat) : Option (Nat × Packet) :=
  let heads := (s.net.queues.filter fun q => q.1 / 64 == r).filterMap fun q => match q.2 with
    | p :: _ => if s.canHop r (q.1 / 8 % 8) out p then some (q.1, p) else none
    | [] => none
  heads.foldl (fun b x => match b with
    | none => some x
    | some y => if hopBefore (x.1 / 8 % 8, x.2) (y.1 / 8 % 8, y.2) then some x else some y) none

/-- What the receiving end of a link finds (R368); the link may become dead. -/
def State.linkCheck (s : State) (r d : Nat) (l : LinkEvent) : State :=
  match l with
  | .clean => s
  | .corrected g w => s.wireCorrected r d g w
  | .replays k =>
    let s := s.bump (RTR_LINK_REPLAY r d) k
    if k.val = 4 then s.killLink r d 1 else s

/-- R360, R364 to R368: the packet R366 chooses takes its hop, or is ejected. -/
def execRouterHop (r : Fin 64) (out : Fin 8) (l : LinkEvent) (s : State) : Host.Outcome State Fault Refusal :=
  if s.routerFaulted r then .next s
  else match s.hopPick r out with
  | none => .next s
  | some (key, p) =>
    let s := s.dequeue key
    if out.val < 4 then
      let s := if s.linkDead r out then s else s.linkCheck r out l
      let r' := hopTo r out
      if s.linkDead r out || s.routerFaulted r' then .next (s.routerDiscard r p)
      else
        let s := s.count (RTR_FLIT_COUNT r out) (p.len + 1)
        .next (s.enqueue (queueKey r' out p.typ p.alt) { p with route := p.route / 8 + 7 * 2 ^ 21 })
    else match portNi r (out.val - 4) with
    | some i => .next (s.modNi i fun n => { n with inbox := n.inbox ++ [p] })
    | none => .next (s.routerDiscard r p)

/-- R367: a packet has waited AGESTEP cycles at the head of a queue. -/
def execPacketAgeStep (r : Fin 64) (port : Fin 8) (vc : Fin 4) (cls : Bool) (s : State) : Host.Outcome State Fault Refusal :=
  let key := queueKey r port vc cls
  .next (match s.net.queues.get [] key with
    | [] => s
    | p :: rest => s.modNet fun t => { t with
        queues := t.queues.put [] key ({ p with urg := min 7 (p.urg + 1) } :: rest) })

/-! ### Timeouts (R370, R371) -/

/-- R371: an outstanding request is answered TIMEOUT by its NI. -/
def execRequestTimeout (i : Fin 80) (t : Fin 4096) (s : State) : Host.Outcome State Fault Refusal :=
  match (s.ni i).tids.find? fun x => x.1 == t.val && !x.2.timedOut with
  | none => .next s
  | some (_, e) =>
    let s := s.bump (niFld NI_CNT_TO_TIMEOUT i)
    let s := s.modNi i fun n => { n with tids := n.tids.set t { e with timedOut := true } }
    let s := s.logEvLimited (unitId i 0xF 0xF) 0x0C05 1 7 (niUnit i) (t + e.dst % 128 * 2 ^ 12)
    .next ((s.nextRequest i).answered i e.why { typ := 1, opc := 0x30, status := 7, src := e.dst, tid := t })

/-- R370: 16 × TIMEOUT later the TID is FREE again. -/
def execTidRelease (i : Fin 80) (t : Fin 4096) (s : State) : Host.Outcome State Fault Refusal :=
  if (s.ni i).tids.any fun x => x.1 == t.val && x.2.timedOut then
    .next ((s.modNi i fun n => { n with tids := n.tids.del t }).nextRequest i)
  else .next s

/-- R380: an output holds a packet and no credit has come back for CREDTO × 256 cycles. -/
def execCreditTimeout (r : Fin 64) (d : Fin 4) (s : State) : Host.Outcome State Fault Refusal :=
  let waits := s.net.queues.any fun q => q.1 / 64 == r.val && match q.2 with
    | p :: _ => nextOut p == some d.val
    | [] => false
  .next (if waits && !s.routerFaulted r then s.killLink r d 2 else s)

/-- R381: a queue head makes no progress while it has credits. -/
def execRouterStall (r : Fin 64) (s : State) : Host.Outcome State Fault Refusal :=
  .next (if s.net.queues.any fun q => q.1 / 64 == r.val && q.2 != [] then s.routerFault r 1 else s)

/-- R381: the NOC reads one ledger entry of a faulted router; `bad`: it reads uncorrectable. -/
def execLedgerDrop (r : Fin 64) (bad : Bool) (s : State) : Host.Outcome State Fault Refusal :=
  match s.net.ledger.find? fun x => x.router == r.val with
  | none => .next s
  | some x =>
    let s := s.modNet fun t => { t with ledger := t.ledger.erase x }
    if bad then
      .next ((s.bump NOC_STATUS_LEDGERUE).logEv 0x0C04 2 3 (unitId r 4 0) (1 * 2 ^ 24))
    else if s.sourceGone x.pkt.src then .next (s.bump (niFld NI_CNT_DROP_UNSENT r))
    else .next (s.dropArrives x.pkt.src x.pkt.addr 3 x.pkt.tid)

/-! ### Flips and tables (R362, R375) -/

/-- R375 step 3: the inactive epoch has been quiet; the flip is made. -/
def execEpochFlip (s : State) : Host.Outcome State Fault Refusal :=
  match s.net.flip with
  | none => .next s
  | some f => .next (if f.writing || s.inFlight (!s.epoch) then s else s.flipNow f)

/-- A route entry that R362 refuses: a reserved hop code, a DPORT from 4 on, or not at the destination's attachment. -/
def State.badRoute (s : State) (i idx v : Nat) : Bool :=
  decide (4 ≤ entryDport v) ||
  match routeEnd 8 (s.niAt i) (entryRoute v) with
  | none => true
  | some r => portNi r (entryDport v) != some idx

/-- A write of NI_RDATA of NI `i` (R362, R385). -/
def State.writeRdata (s : State) (i v : Nat) : State :=
  let space := s.rd (niFld NI_RADDR_SPACE i)
  let ep := s.rd (niFld NI_RADDR_EPOCH i)
  let idx := s.rd (niFld NI_RADDR_INDEX i)
  let s := { s with rsp := ⟨0, 0⟩ }
  let refuse := s.raise (niFld NI_STAT_REFUSED i)
  let act := decide (ep = b2n s.epoch)
  match space with
  | 0 =>
    let v := bitsOf v 31 31 * 2 ^ 31 + bitsOf v 27 0
    if act || s.badRoute i idx v then refuse
    else s.modNi i fun n => { n with
      routes := n.routes.put 0 (ep * 256 + s.rd (niFld NI_RADDR_ALT i) * 128 + idx) v }
  | 1 => if act then refuse else s.modNi i fun n => { n with sel := n.sel.put 0 (ep * 128 + idx) (v % 4) }
  | 2 =>
    let v := bitsOf v 31 31 * 2 ^ 31 + bitsOf v 22 11 * 2 ^ 11 + bitsOf v 6 0
    s.modNi i fun n => { n with streams := n.streams.put 0 (idx % 64) v }
  | _ => s

/-- What NI_RDATA reads as: the item that NI_RADDR names. -/
def State.readRdata (s : State) (i : Nat) : Nat :=
  let ep := s.rd (niFld NI_RADDR_EPOCH i)
  let idx := s.rd (niFld NI_RADDR_INDEX i)
  let n := s.ni i
  match s.rd (niFld NI_RADDR_SPACE i) with
  | 0 => n.routes.get 0 (ep * 256 + s.rd (niFld NI_RADDR_ALT i) * 128 + idx)
  | 1 => n.sel.get 0 (ep * 128 + idx)
  | 2 => n.streams.get 0 (idx % 64)
  | _ => 0

/-- R362: a write through NI_RDATA. -/
def execRouteEntryWrite (_ : Accessor) (i : Fin 80) (v : Word) (s : State) : Host.Outcome State Fault Refusal :=
  .next (s.writeRdata i v.toNat)

/-! ### Answers at the source (R370, R371, R373) -/

/-- R370, R371: the oldest response at NI `i`, or one made there (R363), reaches its requester. -/
def execResp (i : Fin 80) (s : State) : Host.Outcome State Fault Refusal := .next (s.takeResponse i fun _ => true)

/-- R373: the oldest drop notice at NI `i`. -/
def execDrop (i : Fin 80) (s : State) : Host.Outcome State Fault Refusal :=
  match (s.ni i).inbox.find? fun p => p.typ == 1 && p.opc == 0x31 with
  | none => .next s
  | some p => .next ((s.modNi i fun n => { n with inbox := n.inbox.erase p }).dropArrives i p.addr p.status p.tid)

/-! ### Stream packets and marks (05 R162, R359, R363, R373) -/

/-- Region NI `n` sends a stream packet of port `p` to stream table entry `dest`. -/
def State.sendStream (s : State) (n p dest opc stamp : Nat) (words : List Line) (psn : Nat) : State :=
  let e := (s.ni n).streams.get 0 dest
  let dst := bitsOf e 6 0
  let addr := bitsOf e 13 11 + p * 2 ^ 8 + dest * 2 ^ 12 + (words.length - 1) * 2 ^ 20
  if !entryValid e then s.dropArrives n addr 4
  else match s.lookup n dst with
  | .error st => s.dropArrives n addr st
  | .ok (alt, route, dport) =>
    s.inject n {
      typ := 2, opc := opc, src := n, tid := 0, key := bitsOf e 19 14, addr := addr, be := 0, stamp := stamp
      urg := bitsOf e 22 20, psn := psn, route := route, dport := dport, alt := alt, epoch := s.epoch
      len := flitsLess1 words.length, data := words }

/-- R162, R373: network stream port `p` accepts the LAST word of a packet. Its fabric outputs are taken in ACTIVE only. -/
def execStreamPacketSend (n : Fin 64) (p : Fin 8) (dest : Fin 64) (last : Line) (s : State) : Host.Outcome State Fault Refusal :=
  if (s.region n).state ≠ .active then .next s
  else
    let o : OpenPkt := (s.region n).fab.opens.get ⟨dest, s.regionStamp, []⟩ p
    let s := s.modFab n fun f => { f with opens := f.opens.del p }
    .next (s.sendStream n p o.dest 0x20 o.stamp ((o.words ++ [last]).take 16) 0)

/-- R117, R162: the oldest MARK action for region `n`, between packets of its port, to the port's present DEST. -/
def execMark (n : Fin 64) (dest : Fin 64) (s : State) : Host.Outcome State Fault Refusal :=
  let free (a : Action) : Bool :=
    ((s.region n).fab.opens.find? fun x => x.1 == bitsOf a.target 10 8).isNone
  match s.takeAction (fun a => a.code == 10 && a.target % 64 == n.val && free a) with
  | none => .next s
  | some (a, s) =>
    let st := (s.region n).state
    if st = .active ∨ st = .test then
      .next (s.sendStream n (bitsOf a.target 10 8) dest 0x21 a.stamp [BitVec.ofNat 128 a.param] 0)
    else .next s

end Sys2Proof.Machine
end

