-- ==== Sys2Proof/Machine/RegOps.lean ====
section
/-! DEFINITION. Registers by address (24 R646, R647): which register an address names, what each reads as, and the
table windows. -/

namespace Sys2Proof.Machine

/-! ### Addresses -/

/-- The units of region `n` begin here. -/
def regionBase (n : Nat) : Nat := 0x1000000 + n * 0x40000

/-- The region whose registers hold address `a`. -/
def addrRegion (a : Nat) : Option Nat :=
  if 0x1000000 ≤ a ∧ a < 0x2000000 then some ((a - 0x1000000) / 0x40000) else none

/-- The register at an address; the NI registers of an I/O interface have a region NI's layout (12 R385). -/
def regFind (a : Nat) : Option RegDesc :=
  if 0xF1000 ≤ a ∧ a < 0xF2000 then regAt regTableNI (0x1020000 + a % 0x100)
  else if (addrRegion a).isSome then regAt regTableRegion a
  else regAt regTableBase a

/-- The word of an event-log record (02 R56). -/
def LogRec.word (r : LogRec) (w : Nat) : Nat :=
  match w with
  | 0 => r.time % 2 ^ 32
  | 1 => r.time / 2 ^ 32 % 2 ^ 32
  | 2 => r.stamp % 2 ^ 32
  | 3 => r.stamp / 2 ^ 32 % 2 ^ 24 + r.flags * 2 ^ 24
  | 4 => r.unit % 2 ^ 24 + r.status * 2 ^ 24 + r.cls * 2 ^ 28
  | 5 => r.code + r.seq * 2 ^ 16
  | 6 => r.detail % 2 ^ 32
  | _ => r.detail / 2 ^ 32 % 2 ^ 32

/-! ### What the device shows of itself in read-only fields -/

/-- The codes of R242. -/
def EngState.code : EngState → Nat
  | .wait => 0
  | .run => 1
  | .stop => 2
  | .halted => 3
  | .test => 4
  | .retired => 5

/-- The codes of R288. -/
def SlotState.code : SlotState → Nat
  | .off => 0
  | .idle => 1
  | .ready => 2
  | .running => 3

/-- SYS. -/
def State.viewSys (s : State) (a : Nat) : Nat :=
  match a with
  | 0x10 => s.chip.state.code + b2n s.chip.golden * 2 ^ 6 + b2n s.chip.degraded * 2 ^ 7
  | 0x18 => s.log.head * 2 ^ 16
  | 0x1C => s.log.tail
  | _ => 0

/-- CFG (17 R523). -/
def State.viewCfg (s : State) (a : Nat) : Nat :=
  match a with
  | 0x10008 => 2 ^ 28 + 0x8064 * 2 ^ 12 + 0x5CE
  | 0x10030 => s.jrn.recs.length * 2 ^ 16 + s.jrn.queue.length
  | _ => 0

/-- A region shows COLD under R531. -/
def State.scrCold (s : State) (n : Nat) : Bool := (s.scrRgn n).cold

/-- SCR (18 R543). -/
def State.viewScr (s : State) (a : Nat) : Nat :=
  if a = 0x20010 then b2n ((List.range 64).any fun n => (s.region n).state != .dark && s.scrCold n)
  else if 0x20100 ≤ a ∧ a < 0x20500 ∧ a % 16 = 0 then
    let n := (a - 0x20100) / 16
    let r := s.region n
    b2n (s.scrCold n) * 2 ^ 31 + b2n (r.heldUE && r.state == .fenced) * 2 ^ 30 +
      b2n (s.scrub.refetch.any fun x => x.region == n) * 2 ^ 29 + (s.scrRgn n).taken.length * 2 ^ 22
  else 0

/-- PWR (20 R592). -/
def State.viewPwr (s : State) (a : Nat) : Nat :=
  if a = 0x40018 then s.creditNow / 1500 * 2 ^ 24 + min s.kettle.queue.length 255 * 2 ^ 16
  else if a = 0x40024 then min s.restartsOfHour.length 3
  else if 0x40100 ≤ a ∧ a < 0x40200 then
    s.skipLevel ((a - 0x40100) / 4) * 2 ^ 18 + min s.kettle.pk 3 * 2 ^ 16
  else if 0x40200 ≤ a then
    let r := (a - 0x40200) / 4
    phasesBuilt r * 2 ^ 28 + (if s.stackOn then s.phasesLeft r else 0) * 2 ^ 24
  else 0

/-- PTB (03 R104) but the reads of R106, which `regRead` makes. -/
def State.viewPtb (s : State) (a : Nat) : Nat :=
  let t := s.tb
  let k := (a - 0x60100) / 0x40
  let fault := decide (t.srcAct < 4) && (s.port t.srcAct).faulted
  if a < 0x60100 then
    match a with
    | 0x60004 => b2n fault * 2 ^ 9 + t.srcAct * 2 ^ 4 + b2n t.rev * 2 ^ 2 + b2n t.still * 2 + b2n t.cold
    | 0x60010 => bitsOf (pos80 s.measured) 47 16
    | 0x60014 => bitsOf t.holdPos 79 48
    | 0x60018 => bitsOf t.holdPos 15 0
    | 0x6001C => t.holdVel
    | _ => 0
  else
    let p := s.port k
    match a % 0x40 with
    | 0x08 => unsignedOf 64 p.cnt % 2 ^ 32
    | 0x0C => t.holdCnt.get 0 k / 2 ^ 32
    | 0x10 => unsignedOf 64 p.zlat % 2 ^ 32
    | 0x14 => t.holdZlat.get 0 k / 2 ^ 32
    | 0x20 => b2n p.wire * 2 ^ 3 + b2n p.z * 2 ^ 2 + b2n p.b * 2 + b2n p.a
    | _ => 0

/-- EVT (04 R134). -/
def State.viewEvt (s : State) (a : Nat) : Nat :=
  let c := s.evt.irqCopy
  match a with
  | 0x60800 => b2n s.evt.running
  | 0x6081C => s.evt.pend.length
  | 0x60830 => match s.evt.irq with
    | [] => 0
    | r :: _ => 2 ^ 31 + b2n r.late * 2 ^ 30 + r.entry
  | 0x60834 => c.param
  | 0x60838 => c.stamp % 2 ^ 32
  | 0x6083C => c.stamp / 2 ^ 32
  | 0x60840 => (s.evt.evos.map fun x => b2n x.2.level * 2 ^ x.1).sum
  | _ => 0

/-- The entry of the Kraerlink tables that KRL_TADDR names: 0 to 511 send, 512 on receive. -/
def State.krlEntry (s : State) : Nat := s.rd KRL_TADDR_SPACE * 512 + s.rd KRL_TADDR_INDEX % (if s.flag KRL_TADDR_SPACE then 256 else 512)

/-- KRL (14 R443); the high word of the reel's time reads from its copy, and stands in no field of its own. -/
def State.viewKrl (s : State) (a : Nat) : Nat :=
  match a with
  | 0x70050 => s.krl.ledger.length
  | 0x70104 => s.krl.tables.get 0 s.krlEntry
  | _ => 0

/-- LNE (15 R463). -/
def State.viewLne (s : State) (a : Nat) : Nat :=
  let k := (a - 0x80000) / 0x1000 * 4 + a % 0x1000 / 0x100 - 1
  let l := s.lane k
  if a % 0x1000 < 0x100 then 0
  else match a % 0x100 with
  | 0x04 => l.code
  | 0x08 => l.state * 2 ^ 29 + b2n l.cold * 2 ^ 28 + b2n l.sigdet * 2 ^ 27 + b2n l.hiber * 2 ^ 26 + s.laneSlice k * 2 ^ 23
  | _ => 0

/-- XMC (16 R491). -/
def State.viewXmc (s : State) (a : Nat) : Nat :=
  if a = 0x90008 then b2n ((List.range 8).any fun c => !s.xmc.warm.contains c)
  else if 0x90010 ≤ a ∧ a < 0x90030 then b2n (!s.xmc.warm.contains ((a - 0x90010) / 4)) * 2 ^ 29
  else 0

/-- BST (21 R604). -/
def State.viewBst (s : State) (a : Nat) : Nat :=
  if a = 0xB0004 then min s.bist.runs.length 65535 * 2 ^ 16
  else if 0xB1000 ≤ a then
    let w := a % 16 / 4
    let r := if w = 0 then s.bist.recs.get 0#128 ((a - 0xB1000) / 16) else s.bist.copy
    bitsOf r.toNat (32 * w + 31) (32 * w)
  else 0

/-- MBX (22 R623). -/
def State.viewMbx (s : State) (a : Nat) : Nat :=
  match a with
  | 0xD0008 => s.mbx.inState 1 * 2 ^ 27 + s.mbx.inState 2 * 2 ^ 13 + s.mbx.inState 3
  | 0xD000C => s.mbxNext
  | _ => 0

/-- The NI registers of NI `i` at offset `o` (12 R386). -/
def State.viewNi (s : State) (i o : Nat) : Nat :=
  let n := s.ni i
  match o with
  | 0x04 =>
    let closed := decide (i < 64) && (((s.region i).state == .fenced) || ((s.region i).state == .loading))
    let hold := decide (i < 64) && ((s.region i).state == .test)
    (if n.drain then 1 else if hold then 2 else if closed then 3 else 0) * 2 ^ 30 + b2n n.bypass * 2 ^ 29 +
      min (s.niAccepted i) 127 * 2 ^ 9 + n.out
  | 0x24 => s.readRdata i
  | _ => 0

/-- NOC (12 R385). -/
def State.viewNoc (s : State) (a : Nat) : Nat :=
  if 0xF1000 ≤ a then s.viewNi (64 + (a - 0xF1000) / 0x100) (a % 0x100)
  else if a = 0xF0008 then b2n (s.inFlight (!s.epoch)) * 2 ^ 2
  else 0

/-- PLC (11 R350). -/
def State.viewPlc (s : State) (a : Nat) : Nat :=
  if a = 0x100008 then b2n (!s.plc.points.isEmpty)
  else if a = 0x100024 then s.plc.ovrs.length
  else if a = 0x100034 then s.plc.qdata.get 0 (s.rd PLC_QSEL_REGION * 32 + s.rd PLC_QSEL_ENG)
  else if 0x100100 ≤ a ∧ a < 0x100200 then
    let n := (a - 0x100100) / 4
    b2n (!s.plcWarm n) * 2 ^ 31 + b2n (s.plc.transits.any fun t => t.region == n) * 2 ^ 30
  else 0

/-- TRC (10 R318). -/
def State.viewTrc (s : State) (a : Nat) : Nat :=
  if 0x110034 ≤ a ∧ a < 0x110044 then
    let w := (a - 0x110034) / 4
    bitsOf s.sched.traceCopy.toNat (32 * w + 31) (32 * w)
  else 0

/-- SUP (24 R659). -/
def State.viewSup (s : State) (a : Nat) : Nat :=
  match a with
  | 0x120000 =>
    let g := s.sup.eng
    s.sup.stat * 2 ^ 29 + b2n g.sh * 2 ^ 28 + g.cur.pc * 2 ^ 16 + s.pendingOf .sup % 256 * 2 ^ 8
  | 0x120008 => s.sup.issued % 2 ^ 32
  | 0x120104 => s.rd SYS_SVCCFG_DEBUG * 2 ^ 31
  | _ => 0

/-- A slot's state word (10 R317). -/
def Sched.slotWord (c : Sched) (k : Nat) : Nat :=
  let x := c.slot k
  x.state.code * 2 ^ 30 + slotUrg (c.desc k) x * 2 ^ 27 + x.eng * 2 ^ 22 + x.voids * 2 ^ 8 + x.mask

/-- What SCH_DDATA reads as (10 R287, R317). -/
def State.readDdata (s : State) (n : Nat) : Nat :=
  let c := s.sch n
  let k := s.rd (SCH_DADDR_INDEX n)
  let w := s.rd (SCH_DADDR_WORD n)
  match s.rd (SCH_DADDR_SPACE n) with
  | 0 => bitsOf (c.desc k) (32 * w + 31) (32 * w)
  | 1 => if w = 0 then c.slotWord k else 0
  | 2 => if w < 2 then bitsOf (c.kernel k) (32 * w + 31) (32 * w) else 0
  | _ => 0

/-- The unit registers of a region below the engines: RGN, CTX, SCH, MEM and ECC. -/
def State.viewRegionLow (s : State) (n o : Nat) : Nat :=
  let r := s.region n
  let c := r.ctx
  let level (q : Nat) : Nat := (r.sch.wqs.get [] q).length
  let levels (q : Nat) : Nat := level q + level (q + 1) * 2 ^ 8 + level (q + 2) * 2 ^ 16 + level (q + 3) * 2 ^ 24
  if o < 0x8000 then
    match o with
    | 0x0000 => r.state.code + (r.cause - 0x20) * 2 ^ 8
    | 0x4004 =>
      let held := match c.supHeld with
        | some q => q.ctx
        | none => match ctxBest c.reqs with
          | some q => q.ctx
          | none => 0
      c.loading * 2 ^ 16 + c.loaded * 2 ^ 8 + b2n c.heldSince.isSome * 2 ^ 7 + held * 2 ^ 4 + b2n c.supHeld.isSome * 2 ^ 3 + c.active
    | 0x4018 => c.lastSrc * 2 ^ 30 + c.lastFrom * 2 ^ 27 + c.lastTo * 2 ^ 24
    | 0x401C => c.lastStamp % 2 ^ 32
    | 0x4020 => c.lastStamp / 2 ^ 32
    | _ => 0
  else if o < 0xC000 then
    match o with
    | 0x8014 =>
      let k := r.sch.cq.length
      if s.flag (SCH_CQ_CFG_SINK n) ∨ k = 0 then k else 2 ^ 31 + k
    | 0x8018 => bitsOf r.sch.cqCopy.toNat 31 0
    | 0x801C => bitsOf r.sch.cqCopy.toNat 63 32
    | 0x8020 => bitsOf r.sch.cqCopy.toNat 95 64
    | 0x8024 => bitsOf r.sch.cqCopy.toNat 127 96
    | 0x8074 => levels 0
    | 0x8078 => levels 4
    | 0x8104 => s.readDdata n
    | _ => 0
  else if o = 0xC014 then
    match r.mem.rowQueue with
    | [] => 0
    | (p, row) :: _ => p * 2 ^ 22 + row * 2 ^ 12
  else if o = 0xC808 then b2n r.ecc.inj.isSome * 2 ^ 4 + b2n r.ecc.cold
  else if 0xC900 ≤ o ∧ o < 0xCB00 then
    let w := o % 16 / 4
    if w = 0 then EccUnit.words ((r.ecc.table.find? fun p => p.1 == (o - 0xC900) / 16).map fun p => p.2) 0
    else EccUnit.words r.ecc.copy w
  else 0

/-- ENG_STAT of engine `e` (08 R250). -/
def State.viewEng (s : State) (n e : Nat) : Nat :=
  let g := s.engAt n e
  g.state.code * 2 ^ 29 + b2n g.sh * 2 ^ 28 + g.cur.pc * 2 ^ 16 + s.pendingOf (engIdOf n e) % 256 * 2 ^ 8 + g.outst.length

/-- A router's state (12 R387). -/
def State.viewRouter (s : State) (r : Nat) : Nat :=
  let out := s.mask64 NOC_ROUT_LO_MASK NOC_ROUT_HI_MASK r
  let st := if s.routerFaulted r then 3 else if out && s.testing (unitId r 4 0) then 2 else b2n out
  st * 2 ^ 30 + ((List.range 4).map fun d => b2n (s.linkDead r d) * 2 ^ d).sum

/-- THM_SITE of a site. -/
def State.siteWord (s : State) (k : Nat) : Nat :=
  s.rd (THM_SITE_BROKEN0 k) * 2 ^ 31 + s.rd (THM_SITE_BROKEN1 k) * 2 ^ 30 + s.rd (THM_SITE_SUBST k) * 2 ^ 29 + s.rd (THM_SITE_TEMP k)

/-- A region's units. -/
def State.viewRegion (s : State) (n o : Nat) : Nat :=
  if o < 0x10000 then s.viewRegionLow n o
  else if o < 0x20000 then if o % 0x800 = 4 then s.viewEng n ((o - 0x10000) / 0x800) else 0
  else if o < 0x20100 then s.viewNi n (o - 0x20000)
  else if o < 0x30000 then if o = 0x20100 then s.viewRouter n else 0
  else if o < 0x30100 then s.siteWord (3 * n + (o - 0x30000) / 4)
  else s.ageOf n ((o - 0x30100) / 4)

/-- The fields of the register at `a` that show the device's own state. -/
def State.viewOf (s : State) (a : Nat) : Nat :=
  match addrRegion a with
  | some n => s.viewRegion n (a % 0x40000)
  | none =>
    match a / 0x10000 with
    | 0x0 => s.viewSys a
    | 0x1 => s.viewCfg a
    | 0x2 => s.viewScr a
    | 0x4 => s.viewPwr a
    | 0x6 => if a < 0x60800 then s.viewPtb a else s.viewEvt a
    | 0x7 => s.viewKrl a
    | 0x8 => s.viewLne a
    | 0x9 => s.viewXmc a
    | 0xB => s.viewBst a
    | 0xD => s.viewMbx a
    | 0xF => s.viewNoc a
    | 0x10 => s.viewPlc a
    | 0x11 => s.viewTrc a
    | 0x12 => s.viewSup a
    | _ => 0

/-- The level of GIO land `g` as received: free while its bank is in range, else 0 (23 R632). -/
def State.gioIn (s : State) (g : Nat) : Nat :=
  if s.flag (if g < 32 then IOB_VIO_OKA else IOB_VIO_OKB) then (Config.freeWord s.freeCount).toNat % 2 else 0

/-- The present word of register `d` at `a`: fields that hold a value, and fields that show the device's state. Write-only
and reserved fields read 0 (00 R10, R11). -/
def State.regWord (s : State) (d : RegDesc) (a : Nat) : Nat :=
  let stored (v : Nat) (f : FieldDesc) : Nat :=
    if f.acc = .wo then v else v + s.regs.get 0 (a * 32 + f.lo) * 2 ^ f.lo
  let gio := if 0xE2000 ≤ a ∧ a < 0xE2100 then s.gioIn ((a - 0xE2000) / 4) * 4 else 0
  -- KRL_REEL_TIME_HI reads from the copy, and the words of a CRC unit after RES_LO from theirs (14 R443, 22 R622)
  let crc (k : Nat) : Nat × Nat × Nat × Nat := ((s.crcUnit k).copy).getD (0, 0, 0, 0)
  if a = 0x7002C then s.krl.timeCopy
  else if 0xC0000 ≤ a ∧ a < 0xC0200 ∧ 0xC ≤ a % 0x20 ∧ a % 0x20 < 0x18 then
    let c := crc ((a - 0xC0000) / 0x20)
    if a % 0x20 = 0xC then c.2.1 else if a % 0x20 = 0x10 then c.2.2.1 else c.2.2.2
  else (d.fields.foldl stored 0 ||| s.viewOf a) + gio

/-! ### Table windows -/

/-- A word of a table window. -/
inductive WindowWord where
  /-- the supervisor's error table: entry and word -/
  | supEcc (k w : Nat)
  | log (k w : Nat)
  | entry (k w : Nat)
  | slot (k w : Nat)
  | graph (g w : Nat)
deriving DecidableEq, Repr

/-- The window word at an address (24 R646, 10 R318). -/
def windowAt (a : Nat) : Option WindowWord :=
  if 0x4000 ≤ a ∧ a < 0x4200 then some (.supEcc ((a - 0x4000) / 16) (a % 16 / 4))
  else if 0x8000 ≤ a ∧ a < 0x10000 then some (.log ((a - 0x8000) / 32) (a % 32 / 4))
  else if 0x400000 ≤ a ∧ a < 0x500000 then some (.entry ((a - 0x400000) / 32) (a % 32 / 4))
  else if 0x600000 ≤ a ∧ a < 0x800000 then some (.slot ((a - 0x600000) / 512) (a % 512 / 4))
  else if 0x111000 ≤ a ∧ a < 0x112000 then some (.graph ((a - 0x111000) / 16) (a % 16 / 4))
  else none

/-- What a window word reads as. -/
def State.windowWord (s : State) (x : WindowWord) : Nat :=
  match x with
  | .supEcc k w =>
    if w = 0 then EccUnit.words ((s.sup.ecc.table.find? fun p => p.1 == k).map fun p => p.2) 0 else EccUnit.words s.sup.ecc.copy w
  | .log k w => (s.log.recs.get {} k).word w
  | .entry k w => bitsOf (s.entry k).toNat (32 * w + 31) (32 * w)
  | .slot k w => if w = 0 then
      let x := s.slotAt k
      if x.state = 0 then 0 else if x.state = 1 then 1 + x.seq % 65536 * 2 ^ 16
      else x.state + x.lost % 256 * 2 ^ 8 + x.seq % 65536 * 2 ^ 16
    else (s.slotAt k).word w
  | .graph g w => bitsOf (s.sched.graphs.get 0#128 g).toNat (32 * w + 31) (32 * w)

end Sys2Proof.Machine
end

