-- ==== Sys2Proof/Machine/Scheduler.lean ====
section
/-! DEFINITION. Cotillion (10): tokens, urgency, dispatch, paging responses, completion queue, descriptor and kernel
table writes, work queues, trace reads. -/

namespace Sys2Proof.Machine

/-! ### Tokens -/

/-- R117, R289, R292: the oldest START_GRAPH action reaches the home region of its graph. -/
def execStartGraph (s : State) : Host.Outcome State Fault Refusal :=
  match s.takeAction (fun a => a.code == 5) with
  | none => .next s
  | some (a, s) =>
    let g := (s.sched.graphs.get 0#128 (a.target % 256)).toNat
    .next ((List.range 4).foldl (fun s j =>
      let t := bitsOf g (25 + 18 * j) (8 + 18 * j)
      if bitOf t 17 then
        (s.token (bitsOf t 16 11) (bitsOf t 10 3) (bitsOf t 2 0) 0 ⟨a.param, a.stamp, false⟩).2
      else s) s)

/-- R289: the oldest TOKEN action reaches its slot flag. -/
def execEventToken (s : State) : Host.Outcome State Fault Refusal :=
  match s.takeAction (fun a => a.code == 6) with
  | none => .next s
  | some (a, s) =>
    .next (s.token (bitsOf a.target 16 11) (bitsOf a.target 10 3) (bitsOf a.target 2 0) 0 ⟨a.param, a.stamp, false⟩).2

/-- A write of SCH_TOKEN in region `n` (R289, R317). -/
def State.writeSchToken (s : State) (n v : Nat) : State :=
  let t := bitsOf v 16 0
  let s := { s with rsp := ⟨0, 0⟩ }
  if !bitOf v 31 then s
  else if bitsOf t 16 11 ≠ n then
    let s := (s.raise (SCH_STATUS_TOKREF n)).bump (SCH_CNT_ERR_TOKREF n)
    s.logEvLimited (unitRegion n) 0x0A01 1 4 (unitRegion n) (t + 3 * 2 ^ 17)
  else (s.token n (bitsOf t 10 3) (bitsOf t 2 0) 3 ⟨s.rd (SCH_TOKVAL_VALUE n), s.stamp, false⟩).2

/-- R289: firmware posts a token. -/
def execSchToken (_ : Accessor) (n : Fin 64) (v : Word) (s : State) : Host.Outcome State Fault Refusal :=
  .next (s.writeSchToken n v.toNat)

/-! ### Urgency and dispatch -/

/-- R294: AGESTEP engine cycles have passed for a READY slot. -/
def execUrgencyStep (n : Fin 64) (k : Fin 256) (s : State) : Host.Outcome State Fault Refusal :=
  let x := (s.sch n).slot k
  let d := (s.sch n).desc k
  if x.state ≠ .ready then .next s
  else
    let s := s.modSlot n k fun y => { y with steps := y.steps + 1 }
    if slotUrg d x < 7 ∧ slotUrg d ((s.sch n).slot k) = 7 then .next (s.traceSlot n k x.eng 7 0x07 0)
    else .next s

/-- `a` is selected before `b` (R296). -/
def selectBefore (c : Sched) (a b : Nat × Slot) : Bool :=
  let ua := slotUrg (c.desc a.1) a.2
  let ub := slotUrg (c.desc b.1) b.2
  decide (ub < ua) || (ua == ub && (decide (a.2.readyAt < b.2.readyAt) ||
    (a.2.readyAt == b.2.readyAt && decide (a.1 < b.1))))

/-- The slot R296 selects for engine `e`. -/
def Sched.select (c : Sched) (e : Nat) : Option (Nat × Slot) :=
  (c.slots.filter fun x => x.2.state == .ready && !x.2.void && !x.2.transit && x.2.eng == e).foldl (fun b x =>
    match b with
    | none => some x
    | some y => if selectBefore c x y then some x else some y) none

/-- The item of a slot at its selection. -/
def slotItem (c : Sched) (k : Nat) (x : Slot) : OpenItem :=
  let d := c.desc k
  { queue := none, index := k, kernel := dKernel d, trigStamp := x.trigStamp, trigVal := x.trigVal,
    deadline := dDeadline d, urg := slotUrg d x, desc := c.descs.get 0#512 k }

/-- A selected slot: RUNNING, its flags clear (R297 step 1). -/
def State.selectSlot (s : State) (n k : Nat) : State :=
  s.modSlot n k fun x => { x with state := .running, flags := [] }

/-- R295 to R299: the lowest-numbered available engine with a READY slot takes it. -/
def execDispatch (n : Fin 64) (s : State) : Host.Outcome State Fault Refusal :=
  let ok (e : Nat) : Bool :=
    s.engineFree n e && !bitOf (s.rd (SCH_POOL_ENGMASK n)) e && ((s.sch n).select e).isSome
  match (List.range 25).find? ok with
  | none => .next s
  | some e => match (s.sch n).select e with
    | none => .next s
    | some (k, x) => .next ((s.selectSlot n k).startItem n e (slotItem (s.sch n) k x))

/-- R304, 11 R334: a READY slot with a void mark, or stranded, closes ABORT with no engine. -/
def execVoidDispatch (n : Fin 64) (k : Fin 256) (s : State) : Host.Outcome State Fault Refusal :=
  let x := (s.sch n).slot k
  let st := (s.region n).state
  if x.state = .ready ∧ (x.void ∨ x.eng = 31) ∧ !x.transit ∧ (st = .active ∨ st = .test) then
    .next ((s.selectSlot n k).enterRecord n 31 (slotItem (s.sch n) k x) 8 0 false)
  else .next s

/-- R299, R300: the oldest answered paging read of engine `e`. -/
def execPagingResponse (n : Fin 64) (e : Fin 25) (s : State) : Host.Outcome State Fault Refusal :=
  .next (s.takeResponse n fun w => match w with
    | .page e' _ _ => e' == e.val
    | _ => false)

/-! ### Completion queue -/

/-- R307. -/
def execCqHeldRelease (n : Fin 64) (s : State) : Host.Outcome State Fault Refusal :=
  .next (s.releaseHeld n false false)

/-- A read of SCH_CQ_POP (R308, R317). -/
def State.popCq (s : State) (n : Nat) : State :=
  let c := s.sch n
  match c.cq with
  | [] => { s with rsp := ⟨0, 0⟩ }
  | r :: t =>
    if s.flag (SCH_CQ_CFG_SINK n) then { s with rsp := ⟨0, c.cq.length⟩ }
    else { (s.modSch n fun c => { c with cq := t, cqCopy := r }) with rsp := ⟨0, 2 ^ 31 + c.cq.length⟩ }

/-- R308. -/
def execSchCqPop (_ : Accessor) (n : Fin 64) (s : State) : Host.Outcome State Fault Refusal := .next (s.popCq n)

/-- R308: a line not full after 1 µs; 64 is the trace stream (R314). -/
def execCqLineFlush (n : Fin 65) (s : State) : Host.Outcome State Fault Refusal :=
  .next (if n.val < 64 then s.ringPump n true else s.streamPump true)

/-- R308: the retry after 1 µs; 64 is the trace stream (R314). -/
def execCqRingRetry (n : Fin 65) (s : State) : Host.Outcome State Fault Refusal :=
  .next (if n.val < 64 then s.ringRetry n else s.ringRetry 79)

/-! ### Descriptors and kernel table (R287) -/

/-- A descriptor write that is refused. -/
def State.refuseDesc (s : State) (n : Nat) : State := s.raise (SCH_STATUS_TOKREF n)

/-- Descriptor `k` with word `w` replaced. -/
def descWord (d : BitVec 512) (w v : Nat) : BitVec 512 :=
  BitVec.ofNat 512 (setBits d.toNat (32 * w + 31) (32 * w) v)

/-- A write of word `w` of a descriptor (R287). -/
def State.writeDesc (s : State) (n k w v : Nat) : State :=
  let s := { s with rsp := ⟨0, 0⟩ }
  let c := s.sch n
  let old := c.descs.get 0#512 k
  let new := descWord old w v
  let run := (c.slot k).state == .running
  let put (s : State) (d : BitVec 512) : State :=
    s.modSch n fun c => { c with descs := c.descs.put 0#512 k d }
  if dEn old.toNat then
    if w = 0 ∧ !bitOf v 15 then
      -- withdrawn: it leaves its ready list and its flags clear; a RUNNING slot completes first
      (put s new).modSlot n k fun x => { x with flags := [], state := if run then .running else .off }
    else s.refuseDesc n
  else if run then s.refuseDesc n
  else if w = 0 ∧ bitOf v 15 then
    if s.descOk new.toNat then
      (put s new).modSlot n k fun x => { x with flags := [], state := .idle, steps := 0, void := false }
    else (put s (descWord old 0 (clearBit v 15))).refuseDesc n
  else put s new

/-- R287: a write of word 0 with EN = 1. -/
def execSlotEnable (_ : Accessor) (n : Fin 64) (k : Fin 256) (v : Word) (s : State) :
    Host.Outcome State Fault Refusal := .next (s.writeDesc n k 0 (setBit v.toNat 15))

/-- R287: a write of word 0 that clears EN. -/
def execSlotWithdraw (_ : Accessor) (n : Fin 64) (k : Fin 256) (v : Word) (s : State) :
    Host.Outcome State Fault Refusal := .next (s.writeDesc n k 0 (clearBit v.toNat 15))

/-- R287. -/
def execDescriptorWrite (_ : Accessor) (n : Fin 64) (k : Fin 256) (w : Fin 16) (v : Word) (s : State) :
    Host.Outcome State Fault Refusal := .next (s.writeDesc n k w v.toNat)

/-- A write of word `w` of kernel table entry `k`: residency of the kernel clears on every engine (R287, R299). -/
def State.writeKernel (s : State) (n k w v : Nat) : State :=
  let s := { s with rsp := ⟨0, 0⟩ }
  s.modSch n fun c => { c with
    kernels := c.kernels.put 0#64 k (BitVec.ofNat 64 (setBits (c.kernel k) (32 * w + 31) (32 * w) v))
    resident := c.resident.map fun x => (x.1, x.2.filter fun j => j != k) }

/-- R287. -/
def execKernelTableWrite (_ : Accessor) (n : Fin 64) (k : Fin 256) (w : Fin 2) (v : Word) (s : State) :
    Host.Outcome State Fault Refusal := .next (s.writeKernel n k w v.toNat)

/-! ### Work queues (R309, R310) -/

/-- Pushes a work item: its sequence number, or none when the queue is full. -/
def State.wqPush (s : State) (n q : Nat) (item : Line) : Option Nat × State :=
  let c := s.sch n
  let l := c.wqs.get [] q
  if 32 ≤ l.length then
    (none, (s.raise (SCH_STATUS_WQREF n)).logEvLimited (unitRegion n) 0x0A05 1 0xA (unitRegion n) q)
  else
    let seq := c.wqSeq.get 0 q
    let item := if item.getLsbD 8 then BitVec.ofNat 128 (setBits item.toNat 127 72 s.regionStamp) else item
    (some seq, s.modSch n fun c => { c with
      wqs := c.wqs.put [] q (l ++ [(seq, item)]), wqSeq := c.wqSeq.put 0 q ((seq + 1) % 2048) })

/-- A write of SCH_WQ_PUSH (R310, R317). -/
def State.writeWqPush (s : State) (n v : Nat) : State :=
  let q := bitsOf v 2 0
  let s := (s.wr (SCH_WQ_PUSH_QUEUE n) q)
  let s := { s with rsp := ⟨0, 0⟩ }
  if !bitOf v 31 then s
  else
    let item := BitVec.ofNat 128 ((List.range 4).foldl (fun a w => a + s.rd (SCH_WQ_D_ITEM n w) * 2 ^ (32 * w)) 0)
    match s.wqPush n q item with
    | (some seq, s) => (s.wr (SCH_WQ_PUSH_ACC n) 1).wr (SCH_WQ_PUSH_SEQ n) seq
    | (none, s) => s.wr (SCH_WQ_PUSH_ACC n) 0

/-- R310: firmware. -/
def execSchWqPush (_ : Accessor) (n : Fin 64) (v : Word) (s : State) : Host.Outcome State Fault Refusal :=
  .next (s.writeWqPush n v.toNat)

/-- R310: the lowest free pool engine takes the oldest item of the lowest non-empty queue. -/
def execPoolTake (n : Fin 64) (s : State) : Host.Outcome State Fault Refusal :=
  let ok (e : Nat) : Bool := s.engineFree n e && bitOf (s.rd (SCH_POOL_ENGMASK n)) e
  match (List.range 25).find? ok, (List.range 8).find? (fun q => (s.sch n).wqs.get [] q != []) with
  | some e, some q => match (s.sch n).wqs.get [] q with
    | [] => .next s
    | (seq, item) :: rest =>
      let i := item.toNat
      let s := s.modSch n fun c => { c with wqs := c.wqs.put [] q rest }
      let it : OpenItem :=
        { queue := some q, index := seq, kernel := bitsOf i 7 0, trigStamp := bitsOf i 127 72,
          trigVal := bitsOf i 47 24, deadline := bitsOf i 71 48, urg := 0, desc := 0#512 }
      .next ((s.traceItem n q e 0x08 q).startItem n e it)
  | _, _ => .next s

/-! ### Trace -/

/-- A write of TRC_RD_IDX copies the named ring record (R318). -/
def State.writeTrcIdx (s : State) (v : Nat) : State :=
  let i := v % 8192
  { (s.wr TRC_RD_IDX_IDX i) with
    rsp := ⟨0, 0⟩, sched := { s.sched with traceCopy := s.sched.trace.get 0#128 i } }

/-- R312, R318. -/
def execTrcRdIdxWrite (_ : Accessor) (v : Word) (s : State) : Host.Outcome State Fault Refusal :=
  .next (s.writeTrcIdx v.toNat)

end Sys2Proof.Machine
end

