-- ==== Sys2Proof/Machine/Bus.lean ====
section
/-! DEFINITION. Accesses of the service address space (24, 00 R10 to R13, R662): what a write does field by field, the
registers with a behaviour of their own, what a read does beside reading, and who may reach what. -/

namespace Sys2Proof.Machine

/-- An access is answered. -/
def State.answerWith (s : State) (status data : Nat) : State := { s with rsp := ⟨status, data⟩ }

/-! ### Writes field by field (R10 to R12, R662) -/

/-- A field's bits of a word. -/
def FieldDesc.of (f : FieldDesc) (v : Nat) : Nat := bitsOf v f.hi f.lo

/-- The field takes no write now: read-only, or to be written during LOAD only. -/
def State.fixed (s : State) (f : FieldDesc) : Bool := f.acc == .ro || (f.loadOnly && s.chip.state != .load)

/-- A write access that would change a field that takes none (R12, R662). -/
def State.badWrite (s : State) (a : Nat) : State := (s.bump SYS_BADWR_COUNT).wr SYS_BADWR_ADDR_ADDR a

/-- Counts a write of `v` at `a` where it would change such a field; the timebase flags it too (03 R105). -/
def State.judgeWrite (s : State) (d : RegDesc) (a v : Nat) : State :=
  let old := s.regWord d a
  let bad (f : FieldDesc) : Bool := s.fixed f && f.of v != f.of old
  let s := if d.fields.any bad then s.badWrite a else s
  if 0x60000 ≤ a ∧ a < 0x60800 ∧ d.fields.any (fun f => bad f && f.acc != .ro) then s.raise PTB_STATUS_REFUSED else s

/-- What a field keeps of a write. -/
def State.writeField (s : State) (a v : Nat) (f : FieldDesc) : State :=
  let key := a * 32 + f.lo
  let old := s.regs.get 0 key
  let put (x : Nat) : State := { s with regs := s.regs.put 0 key x }
  if s.fixed f then s
  else match f.acc with
  | .rw | .rws => put (f.of v)
  | .w1c => put (old - (old &&& f.of v))
  | .wo | .ro => s

/-- Every field takes the write by its access code. -/
def State.writeFields (s : State) (d : RegDesc) (a v : Nat) : State :=
  d.fields.foldl (fun s f => s.writeField a v f) s

/-! ### Registers with a behaviour of their own -/

/-- SCH_DDATA (10 R287, R317); the slot states read only. -/
def State.writeDdata (s : State) (n v : Nat) : State :=
  let k := s.rd (SCH_DADDR_INDEX n)
  let w := s.rd (SCH_DADDR_WORD n)
  match s.rd (SCH_DADDR_SPACE n) with
  | 0 => s.writeDesc n k w v
  | 2 => if w < 2 then s.writeKernel n k w v else s
  | _ => if v = s.readDdata n then s else s.badWrite (regionBase n + 0x8104)

/-- KRL_TDATA takes a write during LOAD only (14 R443). -/
def State.writeTdata (s : State) (v : Nat) : State :=
  if s.chip.state = .load then s.modKrl fun k => { k with tables := k.tables.put 0 s.krlEntry (v % 2 ^ 32) } else s

/-- IOB_GIOg: OE and O are the host's while no region owns the land (23 R632). -/
def State.writeGio (s : State) (d : RegDesc) (a v : Nat) : State :=
  let g := (a - 0xE2000) / 4
  let own := s.rd (IOB_GIO_OWNER g) == 64
  d.fields.foldl (fun s f => if f.lo < 2 ∧ !own then s else s.writeField a v f) s

/-- A write of ECC_TBLk_W0: VALID = 0 clears the entry (13 R409). -/
def State.writeEccW0 (s : State) (n k v : Nat) : State := if bitOf v 31 then s else s.clearEcc n k

/-- A write at offset `o` of region `n` (24 R647); none where the register has no behaviour of its own. -/
def State.ownRegionWrite (s : State) (acc : Accessor) (n o v : Nat) : Option State :=
  if o = 0x14 then some (s.writeRgnKick acc n v)
  else if o = 0x4008 then some (s.writeCtxReq n v)
  else if o = 0x8054 then some (s.writeSchToken n v)
  else if o = 0x8070 then some (s.writeWqPush n v)
  else if o = 0x8104 then some (s.writeDdata n v)
  else if 0xC100 ≤ o ∧ o < 0xC1C0 then some (s.writeOwn false n ((o - 0xC100) / 4) v)
  else if o = 0xC820 then some (s.writeInj n v)
  else if 0xC900 ≤ o ∧ o < 0xCB00 ∧ o % 16 = 0 then some (s.writeEccW0 n ((o - 0xC900) / 16) v)
  else if 0x10000 ≤ o ∧ o < 0x20000 ∧ o % 0x800 = 0 then some (s.writeEngCtrl n ((o - 0x10000) / 0x800) v)
  else if 0x10000 ≤ o ∧ o < 0x20000 ∧ o % 0x800 = 0x44 then some (s.writeMdata n ((o - 0x10000) / 0x800) v)
  else if o = 0x20024 then some (s.writeRdata n v)
  else none

/-- A write of a base-tier register (24 R646); none where it has no behaviour of its own. -/
def State.ownBaseWrite (s : State) (acc : Accessor) (d : RegDesc) (a v : Nat) : Option State :=
  match a with
  | 0x10 => some (s.writeReload v)
  | 0x14 => if s.chip.state = .safe then some s else none
  | 0x1C => some (s.writeTail v)
  | 0x38 => some (s.writeSysKick acc v)
  | 0x4C => some (s.writeWcmd v)
  | 0x10020 => some (s.writePload v)
  | 0x20030 => some (s.writeRelease v)
  | 0x20034 => some (s.writeTest v)
  | 0x40010 => some ((s.spend 0).writeFields d a v)
  | 0x40020 => some (s.writePwrReq v)
  | 0x60038 => some (s.newSimVel v)
  | 0x70104 => some (s.writeTdata v)
  | 0x90000 => some (s.writeXmcCtrl v)
  | 0x90030 => some (s.writeXmcRetire v)
  | 0xA0010 => some (s.writeKgen v)
  | 0xD0010 => some (s.mbxAck v)
  | 0x100020 => some (s.writePlcOvr v)
  | 0x110030 => some (s.writeTrcIdx v)
  | _ =>
    let q := (a - 0x80000) / 0x1000
    if 0x30020 ≤ a ∧ a < 0x30044 then some (s.writeDom ((a - 0x30020) / 4) v)
    else if 0x60100 ≤ a ∧ a < 0x60200 ∧ a % 0x40 = 0x20 then some (s.clearEncErr ((a - 0x60100) / 0x40) v)
    else if 0x80000 ≤ a ∧ a < 0x8C000 ∧ a % 0x1000 = 0x0C then some (s.writeQsub q v)
    else if 0x80000 ≤ a ∧ a < 0x8C000 ∧ 0x100 ≤ a % 0x1000 ∧ a % 0x100 = 0x30 then some (s.writeEscan (q * 4 + a % 0x1000 / 0x100 - 1) v)
    else if 0xC0000 ≤ a ∧ a < 0xC0200 ∧ a % 0x20 = 0x18 then some (s.crcClear ((a - 0xC0000) / 0x20) v)
    else if 0xE2000 ≤ a ∧ a < 0xE2100 then some (s.writeGio d a v)
    else if 0xF1000 ≤ a ∧ a < 0xF2000 ∧ a % 0x100 = 0x24 then some (s.writeRdata (64 + (a - 0xF1000) / 0x100) v)
    else none

/-- A write of the register at `a`. -/
def State.writeReg (s : State) (acc : Accessor) (d : RegDesc) (a v : Nat) : State :=
  -- the comparison with a received level takes a free value
  let gio := decide (0xE2000 ≤ a ∧ a < 0xE2100)
  let s := s.judgeWrite d a v
  let s := if gio then s.takeFree.2 else s
  let s := s.answerWith 0 0
  let own := match addrRegion a with
    | some n => s.ownRegionWrite acc n (a % 0x40000) v
    | none => s.ownBaseWrite acc d a v
  own.getD (s.writeFields d a v)

/-- A write of a table window: the event table's entries; the others read only but for a cleared error entry. -/
def State.writeWindow (s : State) (x : WindowWord) (a v : Nat) : State :=
  let ro (s : State) : State := (if v = s.windowWord x then s else s.badWrite a).answerWith 0 0
  match x with
  | .entry k w => (s.answerWith 0 0).writeEntry k w v
  | .supEcc k 0 => (ro s).writeEccW0 64 k v
  | _ => ro s

/-! ### Reads and what they do beside -/

/-- BST_RECk word 0: the copy is taken, the record counts as read (21 R603). -/
def State.readBstRec (s : State) (k : Nat) : State :=
  let r := s.bist.recs.get 0#128 k
  { s with bist := { s.bist with copy := r, unread := s.bist.unread.erase k }, rsp := ⟨0, r.toNat % 2 ^ 32⟩ }

/-- A read at offset `o` of region `n` that does more than read. -/
def State.ownRegionRead (s : State) (n o : Nat) : Option State :=
  if o = 0x8014 then some (s.popCq n)
  else if 0xC900 ≤ o ∧ o < 0xCB00 ∧ o % 16 = 0 then some (s.readEccW0 n ((o - 0xC900) / 16))
  else if 0x10000 ≤ o ∧ o < 0x20000 ∧ o % 0x800 = 0x44 then some (s.readMdata n ((o - 0x10000) / 0x800))
  else none

/-- A read of a base-tier register that does more than read. -/
def State.ownBaseRead (s : State) (a : Nat) : Option State :=
  if a = 0x60010 then some s.readPosLo
  else if a = 0x60830 then some s.popIrq
  else if a = 0x70028 then some { s with krl := { s.krl with timeCopy := s.rd KRL_REEL_TIME_HI_TIME }
                                         rsp := ⟨0, s.rd KRL_REEL_TIME_LO_TIME⟩ }
  else if 0x60100 ≤ a ∧ a < 0x60200 ∧ a % 0x40 = 0x08 then some (s.readCntLo ((a - 0x60100) / 0x40))
  else if 0x60100 ≤ a ∧ a < 0x60200 ∧ a % 0x40 = 0x10 then some (s.readZlatLo ((a - 0x60100) / 0x40))
  else if 0xB1000 ≤ a ∧ a < 0xB1400 ∧ a % 16 = 0 then some (s.readBstRec ((a - 0xB1000) / 16))
  else if 0xC0000 ≤ a ∧ a < 0xC0200 ∧ a % 0x20 = 0x08 then some (s.crcReadLo ((a - 0xC0000) / 0x20))
  else none

/-- A read of the register at `a`. -/
def State.readReg (s : State) (d : RegDesc) (a : Nat) : State :=
  let own := match addrRegion a with
    | some n => s.ownRegionRead n (a % 0x40000)
    | none => s.ownBaseRead a
  let v := s.regWord d a
  -- a received level of a GIO land is a free value
  own.getD ((if 0xE2000 ≤ a ∧ a < 0xE2100 then s.takeFree.2 else s).answerWith 0 v)

/-- A read of a table window. -/
def State.readWindow (s : State) (x : WindowWord) : State :=
  match x with
  | .supEcc k 0 => s.readEccW0 64 k
  | .slot k 0 => s.slotRead k
  | _ => s.answerWith 0 (s.windowWord x)

/-! ### An access (R648) -/

/-- The word of an assigned address is read or written; an unassigned one is answered DECODE. -/
def State.doAccess (s : State) (acc : Accessor) (a : Nat) (w : Option Nat) : State :=
  match windowAt a, regFind a, w with
  | some x, _, none => s.readWindow x
  | some x, _, some v => s.writeWindow x a v
  | none, some d, none => s.readReg d a
  | none, some d, some v => s.writeReg acc d a v
  | none, none, _ => s.answerWith 4 0

/-- An address that names a word of the device. -/
def assigned (a : Nat) : Bool := (windowAt a).isSome || (regFind a).isSome

/-- The address lies in a DARK region (R649). -/
def State.inDark (s : State) (a : Nat) : Bool :=
  match addrRegion a with
  | some n => (s.region n).state == .dark
  | none => false

/-- An access that is permitted. -/
def State.access (s : State) (acc : Accessor) (a : Nat) (w : Option Nat) : State :=
  if a % 4 ≠ 0 then s.answerWith 4 0
  else if s.inDark a then s.answerWith 3 0
  else s.doAccess acc a w

/-! ### Who may reach what (R650, R651, R657) -/

/-- SYS, and CFG_STATUS, CFG_ERR, CFG_ID, CFG_IMAGE. -/
def alwaysReadable (a : Nat) : Bool := decide (a < 0x10010)

/-- A service window permits a read or a write of an address. -/
def State.windowPermits (s : State) (a : Nat) (write : Bool) : Bool :=
  (List.range 32).any fun k =>
    let base := s.rd (SYS_SVCW_BASE_BASE k) * 4
    let size := s.rd (SYS_SVCW_CFG_SIZE k)
    size != 0 && decide (base ≤ a) && decide (a < base + 2 ^ size) &&
      (if write then s.flag (SYS_SVCW_CFG_W k) else s.flag (SYS_SVCW_CFG_R k))

/-- What the service port, management and the test port may reach. -/
def State.hostMay (s : State) (a : Nat) (write : Bool) : Bool :=
  (!write && alwaysReadable a) || (s.chip.windows && s.windowPermits a write)

/-- A refused access (R650). -/
def State.refuseAccess (s : State) (acc : Accessor) : State :=
  let s := s.bump SYS_SVCERR_REFUSED
  (if acc = .testPort then s.bump DBG_STAT_REFUSED else s).answerWith 0xA 0

/-- What stands against an access by the service port, management or the test port: a status, 0 nothing. -/
def State.hostCheck (s : State) (a : Nat) (write : Bool) : Nat :=
  if a % 4 ≠ 0 then 4
  else if s.inDark a then 3
  else if !assigned a then 4
  else if s.hostMay a write then 0
  else 0xA

/-- An access by the service port, Kraerlink management or the test port. -/
def State.hostAccess (s : State) (acc : Accessor) (a : Nat) (w : Option Nat) : State :=
  match s.chip.state with
  | .off | .por => s
  | st =>
    if st = .halt ∧ 0x10000 ≤ a then s.answerWith 3 0
    else if st ≠ .halt ∧ !s.chip.windows ∧ !(w.isNone ∧ alwaysReadable a) then s.refuseAccess acc
    else match s.hostCheck a w.isSome with
    | 0 => s.access acc a w
    | 0xA => s.refuseAccess acc
    | c => s.answerWith c 0

/-- An access by an accessor, under its rules. -/
def State.busAccess (s : State) (acc : Accessor) (a : Nat) (w : Option Nat) : State :=
  match acc with
  | .device => s.access acc a w
  | .firmware => if s.supRuns then s.access acc a w else s
  | _ => s.hostAccess acc a w

/-! ### Proxy addresses (R658, 14 R438) -/

/-- The node and the address that a proxy address names. -/
def proxyNode (a : Nat) : Nat := (a - 0x80000000) / 0x2000000
def proxyAddr (a : Nat) : Nat := (a - 0x80000000) % 0x2000000

/-- A write of a register that has no behaviour of its own, or any other, by an accessor (R10). -/
def execRegisterWrite (acc : Accessor) (a v : Word) (s : State) : Host.Outcome State Fault Refusal :=
  .next (s.busAccess acc a.toNat (some v.toNat))

end Sys2Proof.Machine
end

