-- ==== Sys2Proof/Machine/JournalOps.lean ====
section
/-! DEFINITION. The repair journal (17 R516 to R520): reading a sector, applying its records, writing, compacting. -/

namespace Sys2Proof.Machine

/-- Changes the journal. -/
def State.modJrn (s : State) (f : Journal → Journal) : State := { s with jrn := f s.jrn }

/-- The loader's unit in its records (R521). -/
def unitCfg : Nat := unitBase 1

/-- A CFG_JOURNAL record: 1 compaction, 2 write failure, 3 records skipped. -/
def State.logJournal (s : State) (what status count : Nat) : State :=
  s.logEv 0x1104 1 status unitCfg (what + min count 65535 * 2 ^ 16)

/-! ### Sectors (R517, R518) -/

/-- A sector's header is valid. -/
def sectorValid (x : FlashSector) : Bool :=
  let h := x.header.toNat
  bitsOf h 31 0 == 0x4C4E524A && bitsOf h 511 480 == crc32c.value (bytesOf 60 h)

/-- SEQ of a sector. -/
def sectorSeq (x : FlashSector) : Nat := bitsOf x.header.toNat 63 32

/-- The records of a sector up to the erased one that ends them. -/
def sectorWritten (x : FlashSector) (slots : Nat) : List Line :=
  (x.recs.take slots).takeWhile fun r => r != BitVec.allOnes 128

/-- The record slots of a sector of 2^j bytes. -/
def sectorSlots (j : Nat) : Nat := (2 ^ j - 64) / 16

/-- A record with its NUMBER, none where its CRC is bad or its TYPE reserved (R518). -/
def jrnRecord (r : Line) : Option (Nat × JrnRec) :=
  let v := r.toNat
  let typ := bitsOf v 31 24
  if bitsOf v 127 96 = crc32c.value (bytesOf 12 v) ∧ 1 ≤ typ ∧ typ ≤ 8 then
    some (bitsOf v 95 64, { unit := bitsOf v 23 0, typ := typ, arg := bitsOf v 63 32 })
  else none

/-- Puts a record into NUMBER order. -/
def insertRec (r : Nat × JrnRec) : List (Nat × JrnRec) → List (Nat × JrnRec)
  | [] => [r]
  | x :: l => if r.1 < x.1 then r :: x :: l else x :: insertRec r l

/-! ### Applying records (R518, R519; 01 R34) -/

/-- The journal, and none of its repairs, applies: the spares of every kind are free (07 R189). -/
def State.clearRepairs (s : State) : State :=
  let s := (List.range 64).foldl (fun s n =>
    let s := (List.range 48).foldl (fun s b => s.wr (MEM_BANK_OWN_PHYS n b) b) s
    let s := (List.range 50).foldl (fun s p => (s.wr (MEM_ROWUSE_USED n p) 0).wr (MEM_ROWUSE_LASTROW n p) 0) s
    let s := ((s.wr (SCR_RTEST_SPUSE n) 0).wr (SCR_RTEST_SPCOL n) 0).wr (SCR_RAGE_MARGIN n) 0
    s.modRegion n fun r => { r with
      mem := { r.mem with rowMap := [], rowUsed := [], rowQueue := [], spareUse := [], copyQueue := [] }
      engs := r.engs.map fun e => (e.1, { e.2 with failed := false, state := .halted }) }) s
  let s := (List.range 12).foldl (fun s q => (s.wr (LNE_QSTAT_SPUSE q) 0).wr (LNE_QSTAT_SPLANE q) 0) s
  s.wr CFG_START_START 0

/-- A SPARE_IN record; false where the spare it names is in use already. -/
def State.applySpare (s : State) (r : JrnRec) : Bool × State :=
  let n := uRegion r.unit
  let i := uIndex r.unit
  let spare := uIndex r.arg
  match uKind r.unit with
  | 0 =>
    if s.rd (SCR_RTEST_SPUSE n) ≠ 0 then (false, s)
    else (true, (s.wr (SCR_RTEST_SPUSE n) 2).wr (SCR_RTEST_SPCOL n) (i / 48))
  | 2 =>
    if s.spareUse n ≠ 0 then (false, s)
    else (true, (s.setSpare n 2 i).modPlc fun p => { p with lost := p.lost ++ [n * 32 + i] })
  | 3 =>
    if (s.region n).mem.spareUse.get 0 spare ≠ 0 then (false, s)
    else
      let s := match s.logicalOf n i with
        | some b => s.wr (MEM_BANK_OWN_PHYS n b) spare
        | none => s
      let use (m : MemUnit) : Tbl Nat := if i < 48 then m.spareUse.set spare 2 else (m.spareUse.set spare 2).set i 3
      (true, s.modMem n fun m => { m with spareUse := use m })
  | 8 =>
    let q := i / 5
    if s.rd (LNE_QSTAT_SPUSE q) ≠ 0 ∨ s.lanes.noSpare.contains q then (false, s)
    else (true, ((s.wr (LNE_QSTAT_SPUSE q) 2).wr (LNE_QSTAT_SPLANE q) (i % 5)).modLane (q * 4 + i % 5) fun l => { l with spare := true })
  | 0xA =>
    -- 0 is served by 1, the fabric PLLs 8 and 9 by 10; a spare in for another source is in use
    let taken := s.clk.failed.contains spare || s.clk.failed.any fun k => k != 10 && (k == 0) == (i == 0)
    if taken then (false, s)
    else (true, s.modClk fun c => { c with failed := c.failed ++ [i] })
  | _ => (true, s)

/-- A RETIRED record: the unit is out with no spare; RUN-degraded where it did not stand free (01 R39). -/
def State.applyRetired (s : State) (u : Nat) : State :=
  let n := uRegion u
  let i := uIndex u
  match uKind u with
  | 0 => if i / 48 = 48 then s.wr (SCR_RTEST_SPUSE n) 3 else s.degrade
  | 2 =>
    if i = 24 then (s.setSpare n 3 0).modEngAt n 24 fun g => { g with state := .retired }
    else s.modPlc fun p => { p with lost := p.lost ++ [n * 32 + i] }
  | 3 =>
    match s.logicalOf n i with
    | some b => (s.wr (MEM_BANK_OWN_PHYS n b) 63).degrade
    | none => s.modMem n fun m => { m with spareUse := m.spareUse.set i 3 }
  | 8 =>
    let q := i / 5
    if i % 5 = 4 then s.modLanes fun t => { t with noSpare := q :: t.noSpare }
    else (s.modLane (q * 4 + i % 5) fun l => { l with lost := true }).degrade
  | 0xA => (s.modClk fun c => { c with failed := c.failed ++ [i] }).degrade
  | 0xB => s.modKet fun k => { k with shed := k.shed ++ [i] }
  | _ => s

/-- One record takes effect; false where it names a spare already in use. -/
def State.applyRecord (s : State) (r : JrnRec) : Bool × State :=
  let n := uRegion r.unit
  let i := uIndex r.unit
  match r.typ with
  | 1 => s.applySpare r
  | 2 => (true, s.applyRetired r.unit)
  | 3 =>
    let k := bitsOf r.arg 13 10
    if bitOf ((s.region n).mem.rowUsed.get 0 i) k then (false, s) else (true, s.useRow n i (bitsOf r.arg 9 0) k)
  | 4 =>
    let k := bitsOf r.arg 8 3
    if (s.scrRgn n).taken.contains k then (false, s)
    else (true, (s.modScrRgn n fun c => { c with taken := k :: c.taken }).putRow n (bitsOf r.arg 2 0) i { spare := k + 1 })
  | 5 =>
    if (s.scrRgn n).steered.get 0 i ≠ 0 then (false, s)
    else (true, s.modScrRgn n fun c => { c with steered := c.steered.set i (bitsOf r.arg 4 0 + 1) })
  | 6 =>
    -- a link's unit names its router and direction
    let g := (n * 4 + i % 4) * 27 + bitsOf r.arg 4 0
    if s.net.repaired.get false g then (false, s)
    else (true, (s.modNet fun t => { t with repaired := t.repaired.put false g true }).wr (RTR_LINK_REPAIRED n (i % 4)) 1)
  | 7 => (true, s.wr CFG_START_START (max (s.rd CFG_START_START) (bitsOf r.arg 23 0)))
  | _ => (true, s.wr (SCR_RAGE_MARGIN n) (min 2 (bitsOf r.arg 1 0)))

/-- The loader's choice of a sector: valid, the higher SEQ; true for B (R519). -/
def sectorChosen (a b : FlashSector) : Option (Bool × FlashSector) :=
  if sectorValid a && !(sectorValid b && decide (sectorSeq a < sectorSeq b)) then some (false, a)
  else if sectorValid b then some (true, b)
  else none

/-- The journal of the chosen sector is read and applied (step 4 of R506). The fuses name nothing (log entry 6). -/
def State.readJournal (s : State) (a b : FlashSector) : State :=
  let s := s.clearRepairs
  let (sect, seq, lines, used) := match sectorChosen a b with
    | some (isB, x) => (b2n isB, sectorSeq x, sectorWritten x (sectorSlots s.ldr.jsect), true)
    | none => (0, 0, ([] : List Line), false)
  let all := lines.map jrnRecord
  let recs := (all.filterMap fun x => x).foldl (fun l r => insertRec r l) []
  let bad0 := (all.filter fun x => x.isNone).length
  let (bad, s) := recs.foldl (fun (x : Nat × State) r =>
    let (ok, s) := x.2.applyRecord r.2
    (if ok then x.1 else x.1 + 1, s)) (bad0, s)
  let s := ((s.wr CFG_JRNL_SECTOR sect).wr CFG_JSEQ_SEQ seq).wr CFG_JRNL_BAD (min 255 bad)
  let s := s.modJrn fun j => { j with
    -- a slot whose record cannot be read stays taken
    recs := recs ++ List.replicate bad0 (0, { unit := 0, typ := 0, arg := 0 })
    number := match recs.getLast? with
      | some r => r.1 + 1
      | none => 0
    open_ := used }
  if bad = 0 then s else s.logJournal 3 0 bad

/-! ### Writing (R516, R519, R520) -/

/-- The failing state of the sector in use, or of the other. -/
def State.sectorBad (s : State) (other : Bool) : Bool :=
  if s.flag CFG_JRNL_SECTOR != other then s.jrn.badB else s.jrn.badA

/-- Sector A or B has failed a program or an erase. -/
def State.sectorFails (s : State) (other : Bool) : State :=
  let s := (s.bump CFG_JCNT_FAILS).raise CFG_STATUS_JFAIL
  let s := s.modJrn fun j => if s.flag CFG_JRNL_SECTOR != other then { j with badB := true } else { j with badA := true }
  s.logJournal 2 7 (s.rd CFG_JCNT_FAILS)

/-- Every valid record but superseded START records, numbered anew. -/
def compacted (l : List (Nat × JrnRec)) : List (Nat × JrnRec) :=
  let top := ((l.filter fun r => r.2.typ == 7).map fun r => bitsOf r.2.arg 23 0).foldl max 0
  let keep := l.filter fun r => r.2.typ != 0 && (r.2.typ != 7 || bitsOf r.2.arg 23 0 == top)
  (List.range keep.length).zip (keep.map fun r => r.2)

/-- The other sector takes the journal. -/
def State.compact (s : State) : State :=
  let l := compacted s.jrn.recs
  let s := s.modJrn fun j => { j with recs := l, number := l.length, open_ := true }
  let s := (s.wr CFG_JRNL_SECTOR (1 - s.rd CFG_JRNL_SECTOR)).wr CFG_JSEQ_SEQ (s.rd CFG_JSEQ_SEQ + 1)
  s.logJournal 1 0 l.length

/-- Fewer than 64 record slots remain free. -/
def State.journalFull (s : State) : Bool := decide (sectorSlots s.ldr.jsect < s.jrn.recs.length + 64)

/-- Flash commands for the journal start now: not in SAFE (R516), nor without the stack. -/
def State.journalOpen (s : State) : Bool := (s.chip.state == .load) || (s.chip.state == .start) || (s.chip.state == .run)

/-- The oldest queued record has been programmed and read back, or the attempt has failed. -/
def State.writeRecord (s : State) (ok : Bool) : State :=
  match s.jrn.queue with
  | [] => s
  | r :: rest =>
    if !s.journalOpen || s.sectorBad false then s
    else if ok then
      let s := if s.jrn.open_ then s else (s.wr CFG_JRNL_SECTOR 0).wr CFG_JSEQ_SEQ 1
      let s := s.modJrn fun j => { j with queue := rest, recs := j.recs ++ [(j.number, r)], number := j.number + 1, open_ := true }
      let s := s.count CFG_JCNT_WRITTEN
      if r.typ = 7 then s.startWritten (bitsOf r.arg 23 0) else s
    else
      let s := s.sectorFails false
      if s.sectorBad true then s else s.compact

/-- A compaction for want of slots ends, or its erase fails. -/
def State.compactNow (s : State) (ok : Bool) : State :=
  if !s.journalOpen || !s.journalFull || s.sectorBad true then s
  else if ok then s.compact
  else s.sectorFails true

end Sys2Proof.Machine
end

