-- ==== Sys2Proof/Machine/ImageOps.lean ====
section
/-! DEFINITION. Ronset images (17 R496 to R508): the boot record, the header, the codec, groups, register records and
load records. -/

namespace Sys2Proof.Machine

/-! ### The boot record (R496, R497) -/

/-- A copy of the boot record, 128 bytes, is valid. -/
def bootValid (b : Nat) : Bool :=
  bitsOf b 31 0 == 0x54425352 && bitsOf b 1023 992 == crc32c.value (bytesOf 124 b) &&
    decide (4 ≤ bitsOf b 207 200 ∧ bitsOf b 207 200 ≤ 32) && decide (12 ≤ bitsOf b 215 208 ∧ bitsOf b 215 208 ≤ 18) &&
    bitsOf b 255 216 == 0 && bitsOf b 991 512 == 0

/-- SEQ of a copy. -/
def bootSeq (b : Nat) : Nat := bitsOf b 63 32

/-- The copy the loader takes: valid, the higher SEQ, the first when equal. -/
def bootChosen (a b : Nat) : Option Nat :=
  if bootValid a && !(bootValid b && decide (bootSeq a < bootSeq b)) then some a
  else if bootValid b then some b
  else none

/-! ### The header (R498, R499, R507) -/

/-- The parts of a header, 256 bytes. -/
def hFlags (h : Nat) : Nat := bitsOf h 95 80
def hLength (h : Nat) : Nat := bitsOf h 127 96
def hCtx (h : Nat) : Nat := bitsOf h 135 128
def hRegion (h : Nat) : Nat := bitsOf h 143 136
def hRegmask (h : Nat) : Nat := bitsOf h 255 192
def hSect (h j : Nat) : Nat × Nat := (bitsOf h (64 * j + 287) (64 * j + 256), bitsOf h (64 * j + 319) (64 * j + 288))

/-- The bits set in a mask of eight. -/
def bitCount (m : Nat) : Nat := ((List.range 8).filter fun k => bitOf m k).length

/-- The number of groups in an image. -/
def groupCount (partialImage : Bool) (ctx : Nat) : Nat := (if partialImage then bitCount ctx else 64 * ctx) * 72

/-- The least multiple of 16 from `n` on. -/
def align16 (n : Nat) : Nat := (n + 15) / 16 * 16

/-- FORMAT, FLAGS, CTX, REGION and REGMASK are as R498 allows for an image of the kind. -/
def formatOk (partialImage : Bool) (h : Nat) : Bool :=
  let fl := hFlags h
  bitsOf h 79 64 == 1 && decide (fl < 16) && bitOf fl 2 == partialImage &&
    if partialImage then hCtx h != 0 && decide (hRegion h < 64) && hRegmask h == 2 ^ hRegion h
    else !bitOf fl 3 && decide (1 ≤ hCtx h ∧ hCtx h ≤ 8) && hRegion h == 0

/-- Whether section `j` may, must or must not stand in an image: 0 absent, 1 optional, 2 required (R499). -/
def sectRule (flags j : Nat) : Nat :=
  let part := bitOf flags 2
  let whole := bitOf flags 3
  match j with
  | 0 => 2
  | 1 => if part then 0 else 2
  | 4 | 6 => 1
  | 5 | 9 => if part && !whole then 0 else 1
  | 10 => if bitOf flags 0 then 2 else 0
  | 11 => 0
  | _ => if part then 0 else 1

/-- Sections stand in order without gaps from offset `at_` on; the frame area follows section 0. -/
def sectsInOrder (at_ : Nat) (free : Bool) : List (Nat × Nat × Nat) → Option Nat
  | [] => some at_
  | (j, off, len) :: l =>
    if off % 16 = 0 ∧ (if free then at_ ≤ off else off = at_) then sectsInOrder (align16 (off + len)) (j == 0) l else none

/-- The layout of R499 holds. -/
def sectionsOk (partialImage : Bool) (h : Nat) : Bool :=
  let all := (List.range 12).map fun j => (j, hSect h j)
  let here := all.filter fun x => x.2.2 != 0
  let lenOk (x : Nat × Nat × Nat) : Bool :=
    (x.1 != 0 || x.2.2 == groupCount partialImage (hCtx h) * 16) && (x.1 != 8 || x.2.2 == 4096) && (x.1 != 10 || x.2.2 == 208)
  (all.all fun x => match sectRule (hFlags h) x.1 with
    | 0 => x.2.2 == 0
    | 2 => x.2.2 != 0
    | _ => true) && here.all lenOk &&
    match sectsInOrder 0x100 false here with
    | some e => decide (e ≤ align16 (hLength h)) && here.all fun x => decide (x.2.1 + x.2.2 ≤ hLength h)
    | none => false

/-- The first check of R507 that a header fails, 0 none; `unwrap`: IKW unwraps. -/
def State.headerCode (s : State) (partialImage : Bool) (addr h : Nat) (unwrap : Bool) : Nat :=
  let id := bitsOf h 63 32
  if bitsOf h 31 0 ≠ 0x524E5354 then 2
  else if bitsOf id 11 0 ≠ 0x5CE ∨ bitsOf id 27 12 ≠ 0x8064 ∨ 1 < bitsOf id 31 28 then 3
  else if !formatOk partialImage h then 4
  else if bitsOf h 2047 2016 ≠ crc32c.value (bytesOf 252 h) then 5
  else if hLength h < 0x200 ∨ 2 ^ 31 < addr % 2 ^ 31 + hLength h then 6
  else if !sectionsOk partialImage h then 7
  else if s.flag CFG_FUSE_SIGREQ ∧ !bitOf (hFlags h) 0 then 8
  else if bitOf (hFlags h) 1 ∧ !unwrap then 9
  else 0

/-- What the loader keeps of a header. -/
def headerOf (addr h : Nat) : ImgHdr :=
  { addr := addr, flags := hFlags h, ctx := hCtx h, region := hRegion h, regmask := hRegmask h, length := hLength h
    sects := (List.range 12).map fun j => hSect h j }

/-- The image is a partial. -/
def ImgHdr.isPartial (h : ImgHdr) : Bool := bitOf h.flags 2

/-- A region the image fills: named in REGMASK. -/
def ImgHdr.fills (h : ImgHdr) (n : Nat) : Bool := bitOf h.regmask n

/-! ### The codec (R501) -/

/-- `n` words, each taken from `d` words back; the output stands newest first. -/
def codecCopy : Nat → Nat → List Line → Option (List Line)
  | 0, _, out => some out
  | n + 1, d, out => match out.drop (d - 1) with
    | [] => none
    | w :: _ => codecCopy n d (w :: out)

/-- The words of `n` times 16 bytes. -/
def wordsOf : Nat → List Nat → List Line
  | 0, _ => []
  | n + 1, bs => BitVec.ofNat 128 (ofBytes (bs.take 16)) :: wordsOf n (bs.drop 16)

/-- Decodes tokens; the output stands newest first. The first argument bounds the tokens. -/
def codecGo : Nat → List Nat → List Line → Option (List Line)
  | _, [], out => some out
  | 0, _, _ => none
  | f + 1, t :: bs, out =>
    let n := t % 64 + 1
    match t / 64, out, bs with
    | 0, _, _ => if bs.length < 16 * n then none else codecGo f (bs.drop (16 * n)) ((wordsOf n bs).reverse ++ out)
    | 1, _, _ => codecGo f bs (List.replicate n 0#128 ++ out)
    | 2, w :: _, _ => codecGo f bs (List.replicate n w ++ out)
    | 3, _, lo :: hi :: rest => match codecCopy n (1 + lo + 256 * hi) out with
      | some out => codecGo f rest out
      | none => none
    | _, _, _ => none

/-- The words that stored bytes decode to; none on a codec error. -/
def codec (bs : List Byte) : Option (List Line) :=
  (codecGo bs.length (bs.map fun b => b.toNat) []).map fun l => l.reverse

/-- An item's words, from its stored bytes and what decryption gives of them; a code of R507 where that fails. -/
def ImgHdr.words (h : ImgHdr) (stored : List Byte) (plain : Option (List Byte)) : Except Nat (List Line) :=
  let bytes := if bitOf h.flags 1 then plain else some stored
  match bytes with
  | none => .error 12
  | some bs => match codec bs with
    | none => .error 10
    | some ws => .ok ws

/-! ### Groups (R500, R508) -/

/-- The region, context and group that a position of the frame index implies. -/
def ImgHdr.place (h : ImgHdr) (pos : Nat) : Nat × Nat × Nat :=
  if h.isPartial then
    (h.region, ((List.range 8).filter fun k => bitOf h.ctx k).getD (pos / 72) 0, pos % 72)
  else (pos / 72 / h.ctx, pos / 72 % h.ctx, pos % 72)

/-- The 64 frames of a group are written, the drivers of their lift wires compared; 13 where both of one are enabled. -/
def State.writeGroup (s : State) (every : Bool) (n k g : Nat) (ws : List Line) : Nat × State :=
  (List.range 64).foldl (fun (x : Nat × State) j =>
    if x.1 ≠ 0 then x
    else
      let f := 64 * g + j
      let fw := (ws.drop (32 * j)).take 32
      let s := x.2.writeFrame n k f fw
      (if (every || f % 2 == 1) && s.liftConflict n k f fw then 13 else 0, s)) (0, s)

/-- A group arrives with its index entry. The code of the check it fails, 0 none. -/
def State.loadGroup (s : State) (pos entry : Nat) (stored : List Byte) (plain : Option (List Byte)) : Nat × State :=
  let h := s.ldr.hdr
  let (n, k, g) := h.place pos
  let en := bitsOf entry 31 26
  let ek := bitsOf entry 25 23
  let off := bitsOf entry 95 64
  if h.isPartial && (en != h.region || !bitOf h.ctx ek) then (17, s)
  else if en ≠ n ∨ ek ≠ k ∨ bitsOf entry 22 16 ≠ g then (10, s)
  else if stored ≠ [] ∧ (off % 16 ≠ 0 ∨ off < 0x100 + groupCount h.isPartial h.ctx * 16 ∨ h.length < off + stored.length) then (7, s)
  else if crc32c.value (stored.map fun b => b.toNat) ≠ bitsOf entry 127 96 then (11, s)
  else
    let words : Except Nat (List Line) := if stored = [] then .ok (List.replicate 2048 0#128) else h.words stored plain
    match words with
    | .error c => (c, s)
    | .ok ws =>
      if ws.length ≠ 2048 then (10, s)
      else if !h.fills n then (0, s)
      else
        -- the first frame of a context that a partial fills clears its LOADED bit (06 R167)
        let s := if h.isPartial then s.modCtx n fun c => { c with loaded := clearBit c.loaded k } else s
        s.writeGroup h.isPartial n k g ws

/-! ### Register records (R502) -/

/-- Fields with Reset "image" that are read-only and take the image's value: MEM_BANK_OWN.PLC (07 R211), the port-use
masks (06 R186), XMC_KRANGE and XMC_URANGE (16 R490). The others show what the device makes of the load. -/
def roFromImage (a : Nat) (f : FieldDesc) : Bool :=
  let o := a % 0x40000
  if (addrRegion a).isSome then (decide (0xC100 ≤ o ∧ o < 0xC1C0) && f.lo == 12) || decide (0x4040 ≤ o ∧ o < 0x4080)
  else decide (0x90400 ≤ a ∧ a < 0x90620)

/-- A record may write the field. -/
def recordMay (f : FieldDesc) : Bool := f.acc == .rw || f.acc == .rws || (f.acc == .ro && f.image)

/-- A field takes a record's bits; a restart gives it this value again (00 R13). -/
def State.recordField (s : State) (a new : Nat) (f : FieldDesc) : State :=
  if f.acc = .ro ∧ !roFromImage a f then s
  else
    let key := a * 32 + f.lo
    { s with regs := s.regs.put 0 key (f.of new), imgRegs := s.imgRegs.set key (f.of new) }

/-- A register that a record reaches through its own operation. -/
def State.recordOwn (s : State) (a v : Nat) : Option State :=
  match addrRegion a with
  | some n =>
    let o := a % 0x40000
    if o = 0x8104 ∨ o = 0x20024 ∨ (0x10000 ≤ o ∧ o < 0x20000 ∧ o % 0x800 = 0x44) then s.ownRegionWrite .device n o v else none
  | none =>
    if a = 0x1C then some (s.writeTail v)
    else if a = 0x90000 then some (s.writeXmcCtrl v)
    else if a = 0x70104 then some (s.writeTdata v)
    else if 0xF1000 ≤ a ∧ a < 0xF2000 ∧ a % 0x100 = 0x24 then some (s.writeRdata (64 + (a - 0xF1000) / 0x100) v)
    else none

/-- A record's VALUE under its MASK on the register's present word. -/
def masked (old mask value : Nat) : Nat := (old &&& (mask ^^^ (2 ^ 32 - 1))) ||| (value &&& mask)

/-- One register record; 14 where it breaks R502. -/
def State.registerRecord (s : State) (r : Line) : Nat × State :=
  let v := r.toNat
  let a := bitsOf v 31 0
  let mask := bitsOf v 63 32
  match regFind a with
  | none => (14, s)
  | some d =>
    let open_ (b : Nat) : Bool := d.fields.any fun f => decide (f.lo ≤ b ∧ b ≤ f.hi) && recordMay f
    if bitsOf v 127 96 ≠ 0 ∨ a % 4 ≠ 0 ∨ (windowAt a).isSome ∨ !((List.range 32).all fun b => !bitOf mask b || open_ b) then (14, s)
    else
      let old := if a = 0x90000 then b2n (s.xmc.modeWait.getD false) * 2 ^ 31 else s.regWord d a
      let new := masked old mask (bitsOf v 95 64)
      match s.recordOwn a new with
      | some s => (0, s)
      | none =>
        let named (f : FieldDesc) : Bool := (List.range 32).any fun b => bitOf mask b && decide (f.lo ≤ b ∧ b ≤ f.hi)
        (0, (d.fields.filter named).foldl (fun s f => s.recordField a new f) s)

/-- Records one after the other, to the first that fails. -/
def State.registerRecords (s : State) : List Line → Nat × State
  | [] => (0, s)
  | r :: l => match s.registerRecord r with
    | (0, s) => s.registerRecords l
    | x => x

/-! ### Load records (R503) -/

/-- The parts of a load record's header. -/
def lrNi (h : Nat) : Nat := bitsOf h 75 68
def lrUnit (h : Nat) : Nat := bitsOf h 67 62
def lrRegion (h : Nat) : Nat := bitsOf h 61 56
def lrDest (h : Nat) : Nat := bitsOf h 55 48
def lrStart (h : Nat) : Nat := bitsOf h 47 32
def lrCount (h : Nat) : Nat := bitsOf h 31 0

/-- The number of NI_RDATA items: route entries, selections, and the 64 entries of the stream table. -/
def niItems : Nat := 1088

/-- A load record's header keeps to R503. -/
def loadRecordOk (h : Nat) : Bool :=
  let st := lrStart h
  let c := lrCount h
  let u := lrUnit h
  bitsOf h 127 76 == 0 && match lrDest h with
  | 1 | 2 => decide (u < 24 ∧ st + c ≤ 4096)
  | 3 => decide (u < 24 ∧ st + c ≤ 2048)
  | 4 => decide (u < 48 ∧ st + c ≤ 16384)
  | 5 | 6 => decide (u = 0 ∧ st + c ≤ 4096)
  | 7 => decide (u = 0 ∧ st + c ≤ 2048)
  | 8 => decide (u = 0 ∧ c % 4 = 0 ∧ st + c / 4 ≤ 256)
  | 9 => decide (u = 0 ∧ st + 2 * c ≤ 256)
  | 0xA => decide (u = 0 ∧ lrNi h < 80 ∧ st + 4 * c ≤ niItems)
  | 0xB => decide (u = 0 ∧ st + 4 * c ≤ 768)
  | 0xC => decide (u = 0 ∧ st + c ≤ 8)
  | _ => false

/-- A partial's load record keeps to its region and its contexts (R513). -/
def ImgHdr.inside (p : ImgHdr) (h : Nat) : Bool :=
  lrRegion h == p.region && match lrDest h with
  | 5 | 6 | 7 | 0xB => false
  | 0xA => lrNi h == p.region
  | 0xC => (List.range (lrCount h)).all fun i => bitOf p.ctx (lrStart h + i)
  | _ => true

/-- Physical word `q` of memory `m` of engine `e`; D and K are kept as the image gives them (11 R331). -/
def State.loadEngine (s : State) (n e m q : Nat) (d : Line) : State :=
  let s := (s.modEngAt n e fun g => g.setPhys m q d 0).modEcc n fun u => u.cancelWb (m + 1) e q
  if m = 2 then (s.evictAt n e (2 * q)).evictAt n e (2 * q + 1)
  else
    let old : Tbl Nat := s.ldr.engImage.get [] (n * 32 + e)
    let new := (List.range 4).foldl (fun (t : Tbl Nat) i =>
      let a := m * 16384 + 4 * q + i
      (t.put 0 a (bitsOf d.toNat (24 * i + 23) (24 * i))).put 0 (65536 + a) (b2n (d.getLsbD (96 + i)))) old
    s.modLdr fun l => { l with engImage := l.engImage.set (n * 32 + e) new }

/-- NI_RDATA item `t` of NI `i`, in NI_RADDR order (12 R362). A selection names the preferred alternative too. -/
def State.loadNi (s : State) (i t v : Nat) : State :=
  let x := t % 512
  if t < 512 then
    let v := bitsOf v 31 31 * 2 ^ 31 + bitsOf v 27 0
    if entryValid v && s.badRoute i (x % 128) v then s.raise (niFld NI_STAT_REFUSED i)
    else s.modNi i fun n => { n with routes := n.routes.put 0 x v }
  else if t < 1024 then s.modNi i fun n => { n with
    sel := n.sel.put 0 (x / 256 * 128 + x % 128) (v % 4), pref := n.pref.put 0 (x % 128) (v % 2) }
  else s.modNi i fun n => { n with
    streams := n.streams.put 0 x (bitsOf v 31 31 * 2 ^ 31 + bitsOf v 22 11 * 2 ^ 11 + bitsOf v 6 0) }

/-- Both words of a context's port-use mask (06 R186). -/
def State.loadPuse (s : State) (n k v : Nat) : State :=
  let a := regionBase n + 0x4040 + k * 8
  let put (s : State) (a v : Nat) : State := match regFind a with
    | some d => d.fields.foldl (fun s f => s.recordField a v f) s
    | none => s
  put (put s a (bitsOf v 31 0)) (a + 4) (bitsOf v 63 32)

/-- A descriptor comes into its slot (10 R284): IDLE where it is enabled. -/
def State.loadDesc (s : State) (n k : Nat) (d : BitVec 512) : State :=
  (s.modSch n fun c => { c with descs := c.descs.put 0#512 k d }).modSlot n k fun x => { x with
    flags := [], steps := 0, void := false, state := if dEn d.toNat then .idle else .off }

/-- Word `i` of a load record reaches its destination. -/
def State.loadWord (s : State) (h i : Nat) (ws : List Line) (d : Line) : State :=
  let n := lrRegion h
  let at_ := lrStart h + i
  let quad (f : State → Nat → Nat → State) : State :=
    (List.range 4).foldl (fun s j => f s (lrStart h + 4 * i + j) (bitsOf d.toNat (32 * j + 31) (32 * j))) s
  match lrDest h with
  | 1 | 2 | 3 => s.loadEngine n (lrUnit h) (lrDest h - 1) at_ d
  | 4 =>
    let p := s.rd (MEM_BANK_OWN_PHYS n (lrUnit h))
    if 50 ≤ p then s else s.bankWrite n p at_ d false
  | 5 | 6 | 7 => { s with sup := { s.sup with eng := s.sup.eng.setPhys (lrDest h - 5) at_ d 0 } }
  | 8 =>
    if i % 4 ≠ 3 then s
    else
      let w := (ws.drop (i - 3)).take 4
      let v := (List.range 4).foldl (fun v j => v + (w.getD j 0#128).toNat * 2 ^ (128 * j)) 0
      s.loadDesc n (lrStart h + i / 4) (BitVec.ofNat 512 v)
  | 9 => s.modSch n fun c => { c with kernels :=
      (c.kernels.put 0#64 (lrStart h + 2 * i) (d.extractLsb' 0 64)).put 0#64 (lrStart h + 2 * i + 1) (d.extractLsb' 64 64) }
  | 0xA => quad fun s t v => s.loadNi (lrNi h) t v
  | 0xB => quad fun s t v => s.modKrl fun k => { k with tables := k.tables.put 0 t v }
  | _ => s.loadPuse n at_ d.toNat

/-- Region tables go to regions that the image fills; what stands outside the regions, and the NIs, always. -/
def ImgHdr.reaches (p : ImgHdr) (h : Nat) : Bool :=
  match lrDest h with
  | 5 | 6 | 7 | 0xA | 0xB => true
  | _ => p.fills (lrRegion h)

/-- One load record with its words. -/
def State.loadRecord (s : State) (h : Nat) (ws : List Line) : State :=
  if !s.ldr.hdr.reaches h then s
  else ((List.range ws.length).zip ws).foldl (fun s x => s.loadWord h x.1 ws x.2) s

/-- The load records of a section, to the first that fails. The first argument bounds their number. -/
def State.loadRecords (s : State) : Nat → List Line → Nat × State
  | _, [] => (0, s)
  | 0, _ => (10, s)
  | f + 1, r :: ws =>
    let h := r.toNat
    if !loadRecordOk h then (14, s)
    else if s.ldr.hdr.isPartial && !s.ldr.hdr.inside h then (17, s)
    else if ws.length < lrCount h then (10, s)
    else (s.loadRecord h (ws.take (lrCount h))).loadRecords f (ws.drop (lrCount h))

/-! ### The other sections (R503) -/

/-- EVENTS: the entries, then the graph table. -/
def State.loadEvents (s : State) (ws : List Line) : Nat × State :=
  let n := bitsOf ((ws.headD 0#128).toNat) 15 0
  if ws.length ≠ 257 + 3 * n then (10, s)
  else
    let word (i : Nat) : Nat := (ws.getD i 0#128).toNat
    let entries := (List.range n).foldl (fun (t : Tbl (BitVec 256)) j =>
      t.put 0#256 (bitsOf (word (1 + 3 * j)) 14 0)
        (BitVec.ofNat 256 (word (2 + 3 * j) + word (3 + 3 * j) * 2 ^ 128))) []
    let graphs := (List.range 256).foldl (fun (t : Tbl Line) g => t.put 0#128 g (ws.getD (1 + 3 * n + g) 0#128)) []
    (0, { (s.modEvt fun t => { t with entries := entries }) with sched := { s.sched with graphs := graphs } })

/-- KEYWRAP: three words to a slot; `wraps` says which of the wraps unwrap (16 R469). -/
def State.loadKeys (s : State) (wraps : List Bool) : List Line → Nat × State
  | [] => (0, s)
  | w :: _ :: _ :: rest =>
    let v := w.toNat
    let slot := bitsOf v 5 0
    if slot = 0 ∨ (bitOf v 10 ∧ bitOf v 9) then (14, s)
    else if !bitOf v 10 && !wraps.headD true then (9, s)
    else (s.newKey slot (bitOf v 8) (bitOf v 9) (bitOf v 10)).loadKeys wraps.tail rest
  | _ => (10, s)

/-- PARTDIR: 256 entries, stored plain. -/
def State.loadPartDir (s : State) (stored : List Byte) : State :=
  let ws := wordsOf 256 (stored.map fun b => b.toNat)
  s.modLdr fun l => { l with partDir :=
    ((List.range 256).zip ws).foldl (fun (t : Tbl Line) x => t.put 0#128 x.1 x.2) [] }

/-- A section arrives. The code of the check it fails, 0 none. -/
def State.loadSection (s : State) (num : Nat) (stored : List Byte) (plain : Option (List Byte)) (wraps : List Bool) : Nat × State :=
  match num with
  | 0 | 10 | 11 => (0, s)
  | 8 => (0, s.loadPartDir stored)
  | _ => match s.ldr.hdr.words stored plain with
    | .error c => (c, s)
    | .ok ws => match num with
      | 1 | 2 => s.registerRecords ws
      | 3 => s.loadEvents ws
      | 7 => s.loadKeys wraps ws
      | _ => s.loadRecords ws.length ws

end Sys2Proof.Machine
end

