-- ==== Sys2Proof/Machine/Loader.lean ====
section
/-! DEFINITION. The loader's commands (17): the attempts of a full load, START's last steps, partial loads, the
journal. -/

namespace Sys2Proof.Machine

/-! ### Entry to LOAD, the boot record (R496, R497, R506) -/

/-- Step 1 of R506: every mailbox slot empties; those READY are counted (02 R69). -/
def State.loadEntry (s : State) : State :=
  let s := s.logEv 0x1105 1 0 unitCfg (s.mbx.inState 2)
  let s := (s.modMbx fun m => { m with slots := [], opens := [] }).modJrn fun j => { j with badA := false, badB := false }
  s.wr CFG_STATUS_PHASE 1

/-- R506: the chip has entered LOAD. -/
def execLoadEntry (s : State) : Host.Outcome State Fault Refusal :=
  .next (if s.chip.state = .load ∧ s.rd CFG_STATUS_PHASE = 0 then s.loadEntry else s)

/-- The loader goes on without a valid copy: the defaults of R497. -/
def State.bootDefaults (s : State) : State :=
  let s := (s.raise CFG_STATUS_DEFBOOT).logEv 0x1106 1 4 unitCfg 0
  (s.modLdr fun l => { l with
    primary := 0x00100000, golden := 0x0C000000, jrnA := 0x00020000, jrnB := 0x00030000, jsect := 16 }).wr CFG_STATUS_PHASE 2

/-- A copy of the boot record is taken. -/
def State.bootTaken (s : State) (b : Nat) : State :=
  let word (i : Nat) : Nat := bitsOf b (32 * i + 31) (32 * i)
  let s := s.wr CFG_STATUS_OCTAL (bitsOf b 192 192)
  (s.modLdr fun l => { l with
    primary := word 2, golden := word 3, jrnA := word 4, jrnB := word 5, jsect := bitsOf b 215 208 }).wr CFG_STATUS_PHASE 2

/-- R497: both copies have been read. -/
def execBootRecordRead (a b : BitVec 1024) (s : State) : Host.Outcome State Fault Refusal :=
  .next (if s.chip.state ≠ .load ∨ s.rd CFG_STATUS_PHASE ≠ 1 then s
    else match bootChosen a.toNat b.toNat with
    | some x => s.bootTaken x
    | none => s.bootDefaults)

/-! ### Attempts (R507, R509, R510) -/

/-- The flash address of the image of the attempt that runs. -/
def State.attemptAddr (s : State) : Nat := if s.rd CFG_STATUS_ATTEMPT = 1 then s.ldr.golden else s.ldr.primary

/-- What a failed attempt wrote goes (R510). -/
def State.attemptCleared (s : State) : State :=
  let s := s.zeroise
  let s := { s with regs := s.imgRegs.foldl (fun (t : Tbl Nat) (x : Nat × Nat) => t.put 0 x.1 (resetRegs.get 0 x.1)) s.regs, imgRegs := [] }
  let s := (s.modEvt fun t => { t with entries := [] }).modXmc fun x => { x with modeWait := none }
  let s := { s with sched := { s.sched with graphs := [] } }
  let s := (s.modKrl fun k => { k with tables := [] }).modLdr fun l => { l with partDir := [], engImage := [], hdr := {} }
  let s := (List.range 80).foldl (fun s i => s.modNi i fun n => { n with routes := [], sel := [], streams := [], pref := [] }) s
  (List.range 64).foldl (fun s n => s.modSch n fun c => { c with descs := [], kernels := [], slots := [] }) s

/-- Attempt `k` has failed with a code at a flash address. -/
def State.attemptRecord (s : State) (k code addr : Nat) : State :=
  let s := s.wr (if k = 0 then CFG_ERR_ERR0 else if k = 1 then CFG_ERR_ERR1 else CFG_ERR_ERR2) code
  (s.logEv 0x1101 3 (failStatus code) unitCfg (code + k * 2 ^ 8 + addr % 2 ^ 32 * 2 ^ 32)).attemptCleared

/-- Attempt 1 has failed: the loader waits 100 ms. -/
def State.goldenFailed (s : State) : State :=
  (s.modLdr fun l => { l with failed := some s.cyc }).wr CFG_STATUS_PHASE 2

/-- The attempt that runs fails its first check. -/
def State.failAttempt (s : State) (code addr : Nat) : State :=
  let k := s.rd CFG_STATUS_ATTEMPT
  let s := s.attemptRecord k code addr
  match k with
  | 0 =>
    let s := (s.wr CFG_STATUS_ATTEMPT 1).wr CFG_STATUS_PHASE 2
    if s.ldr.golden = 0xFFFFFFFF then (s.attemptRecord 1 19 0xFFFFFFFF).goldenFailed else s
  | 1 => s.goldenFailed
  | _ => s.toHalt 0

/-- A full load is under way: between the boot record and START, an attempt runs. -/
def State.attemptRuns (s : State) : Bool :=
  s.chip.state == .load && decide (2 ≤ s.rd CFG_STATUS_PHASE) && s.ldr.failed.isNone

/-- R509: 100 ms after attempt 1 failed. -/
def execPrimaryRetry (s : State) : Host.Outcome State Fault Refusal :=
  .next (if s.chip.state = .load ∧ s.ldr.failed.isSome then
      ((s.modLdr fun l => { l with failed := none }).wr CFG_STATUS_ATTEMPT 2).wr CFG_STATUS_PHASE 2
    else s)

/-- A partial's header runs through the checks of R507 too, and must match its directory entry (R513). -/
def State.partHeader (s : State) (p : PartRun) (h : Nat) (unwrap : Bool) : State :=
  let e := s.partEntry p.req.part
  let code := s.headerCode true (pdAddr e) h unwrap
  if code ≠ 0 then s.failPartial code
  else if hRegion h ≠ pdRegion e ∨ hCtx h ≠ pdCtx e ∨ bitOf (hFlags h) 3 ≠ pdWhole e then s.failPartial 18
  else s.modLdr fun l => { l with hdr := headerOf (pdAddr e) h, run := some { p with header := true } }

/-- R507: a header has been read. -/
def execImageHeaderRead (h : BitVec 2048) (unwrap : Bool) (s : State) : Host.Outcome State Fault Refusal :=
  .next (if s.chip.state = .load then
      if !s.attemptRuns ∨ s.rd CFG_STATUS_PHASE ≠ 2 then s
      else
        let addr := s.attemptAddr
        match s.headerCode false addr h.toNat unwrap with
        | 0 => (s.modLdr fun l => { l with hdr := headerOf addr h.toNat }).wr CFG_STATUS_PHASE 3
        | c => s.failAttempt c addr
    else match s.ldr.run with
    | some p => if p.header then s else s.partHeader p h.toNat unwrap
    | none => s)

/-! ### The journal and the zeroing (R506 steps 4 and 5, R519) -/

/-- R519: both journal sectors have been read. -/
def execJournalRead (a b : FlashSector) (s : State) : Host.Outcome State Fault Refusal :=
  .next (if s.attemptRuns ∧ s.rd CFG_STATUS_PHASE = 3 ∧ !s.ldr.journalDone then
      (s.readJournal a b).modLdr fun l => { l with journalDone := true }
    else s)

/-- A region of REGMASK enters LOADING: its memories are zeroed, its units begin anew (02 R45; 07 R205, 08 R223,
10 R311; 20 R568). -/
def State.loadRegion (s : State) (n : Nat) : State :=
  let s := if (s.region n).state = .loading then s
    else ((s.toLoading n).wr (PWR_RAIL_MV n) 600).wr (PWR_RAIL_MV (64 + n)) 600
  let s := ((s.plcDark n).schDark n).zeroRegion n
  let s := ((s.wr (MEM_COPY_STATE n) 0).wr (MEM_ROWCOPY_ACTIVE n) 0).wr (MEM_ROWCOPY_QUEUED n) 0
  let s := (List.range 48).foldl (fun s b => s.wr (MEM_BANK_OWN_BUSY n b) 0) s
  s.modRegion n fun r => { r with
    engs := r.engs.map fun x => (x.1, { (({} : Engine).cleared .halted) with
      state := if x.2.state = .retired then .retired else .halted, cyc := x.2.cyc })
    fab := { cfg := r.fab.cfg, bind := r.fab.bind }
    ctx := {}
    mem := { rowMap := r.mem.rowMap, rowUsed := r.mem.rowUsed, spareUse := r.mem.spareUse }
    ecc := {}
    limit := false, stuck := false, heldUE := false }

/-- A region left in LOADING by an attempt that failed, and not named now, is written all-zero words (R510). -/
def State.emptyRegion (s : State) (n : Nat) : State :=
  s.modRegion n fun r => { r with fab := { bind := r.fab.bind }, ctx := {} }

/-- R506 step 5: every region of REGMASK is in LOADING and zeroed. -/
def execLoadZeroingDone (s : State) : Host.Outcome State Fault Refusal :=
  .next (if s.attemptRuns ∧ s.rd CFG_STATUS_PHASE = 3 ∧ s.ldr.journalDone then
      ((List.range 64).foldl (fun s n =>
        if s.ldr.hdr.fills n then s.loadRegion n
        else if (s.region n).state = .loading then s.emptyRegion n
        else s) s).wr CFG_STATUS_PHASE 4
    else s)

/-! ### Items (R506 step 6, R513) -/

/-- An item is checked, decoded and written; `at_` is its offset, for the record of a failure. -/
def State.itemDone (s : State) (at_ : Nat) (r : Nat × State) : State :=
  if r.1 = 0 then r.2
  else if s.chip.state = .load then r.2.failAttempt r.1 (s.ldr.hdr.addr + at_)
  else r.2.failPartial r.1

/-- The loader takes the items of an image now. -/
def State.streaming (s : State) : Bool :=
  if s.chip.state = .load then s.attemptRuns && s.rd CFG_STATUS_PHASE == 4
  else match s.ldr.run with
  | some p => p.header
  | none => false

/-- An item's stored length is what its index entry gives. -/
def ImageItem.wellFormed : ImageItem → Bool
  | .group _ index stored _ => stored.length == bitsOf index.toNat 63 40
  | .sect _ _ _ _ => true

/-- R506 step 6: an item of the image arrives. -/
def execImageItem (it : ImageItem) (s : State) : Host.Outcome State Fault Refusal :=
  if !ImageItem.wellFormed it then .refused (.illFormed "IMAGE_ITEM")
  else if !s.streaming then .next s
  else match it with
  | .group pos index stored plain =>
    if groupCount s.ldr.hdr.isPartial s.ldr.hdr.ctx ≤ pos.val then .next s
    else .next (s.itemDone (bitsOf index.toNat 95 64) (s.loadGroup pos index.toNat stored plain))
  | .sect num stored plain wraps =>
    let (off, len) := s.ldr.hdr.sects.getD num (0, 0)
    if len = 0 ∨ stored.length ≠ len then .next s
    else .next (s.itemDone off (s.loadSection num stored plain wraps))

/-! ### The last byte, START (R506 step 7, R509, R511) -/

/-- Microseconds since the entry to LOAD. -/
def State.loadUs (s : State) : Nat := (s.cyc - s.ldr.since) / usCycles

/-- The image has passed: what is loaded is shown and the chip enters START. -/
def State.enterStart (s : State) : State :=
  let h := s.ldr.hdr
  let k := s.rd CFG_STATUS_ATTEMPT
  let golden := b2n (k == 1)
  let s := s.logEv 0x1102 0 0 unitCfg
    (k + golden * 2 ^ 2 + s.rd CFG_STATUS_DEFBOOT * 2 ^ 3 + min s.loadUs (2 ^ 24 - 1) * 2 ^ 8 + h.addr * 2 ^ 32)
  let s := ((s.wr CFG_IMAGE_ADDR h.addr).wr CFG_REGMASK_LO_MASK (h.regmask % 2 ^ 32)).wr CFG_REGMASK_HI_MASK (h.regmask / 2 ^ 32)
  let s := ((s.wr CFG_STATUS_SIGNED (bitsOf h.flags 0 0)).wr CFG_STATUS_ENCRYPTED (bitsOf h.flags 1 1)).wr CFG_STATUS_CTXCOUNT h.ctx
  let s := (s.wr CFG_STATUS_GOLDEN golden).wr CFG_STATUS_PHASE 6
  let s := (List.range 64).foldl (fun s n =>
    if !h.fills n then s
    else ((s.modCtx n fun c => { c with loaded := 2 ^ h.ctx - 1 }).plcAssign n).modFab n Fabric.initialise) s
  let s := (s.logChip .load .start 0).modChip fun c => { c with state := .start, golden := k == 1, outputs := false, hlth := false }
  let s := (List.range 8).foldl (fun s c => s.wr (XMC_CHSTAT_STATE c) 1) s
  if s.pllsReady then s.clocksStart else s

/-- R506 step 7: IMGCRC and the signature are judged. -/
def execImageLastByte (crcOk sigOk : Bool) (s : State) : Host.Outcome State Fault Refusal :=
  .next (if !s.streaming then s
    else if s.chip.state ≠ .load then s.endOfPartial crcOk sigOk
    else if !crcOk then s.failAttempt 15 s.ldr.hdr.addr
    else if bitOf s.ldr.hdr.flags 0 ∧ !sigOk then s.failAttempt 16 (s.ldr.hdr.addr + (s.ldr.hdr.sects.getD 10 (0, 0)).1)
    else s.enterStart)

/-- R495: a flash failure ends the attempt, or the partial, that reads. -/
def execFlashFailure (s : State) : Host.Outcome State Fault Refusal :=
  .next (if s.chip.state = .load then
      if s.rd CFG_STATUS_PHASE = 1 then s.bootDefaults
      else if s.attemptRuns then s.failAttempt 1 s.attemptAddr
      else s
    else s.failPartial 1)

/-- 16 R465: training of a channel ends. -/
def execChannelTrainingDone (c : Fin 8) (ok : Bool) (s : State) : Host.Outcome State Fault Refusal :=
  .next (if s.chip.state ≠ .start ∨ s.rd (XMC_CHSTAT_STATE c) ≠ 1 then s
    else if ok then s.wr (XMC_CHSTAT_STATE c) 2
    else s.channelDown c 1)

/-- Step 5 of R511: the START pass of placement, XMC's mode, the engines, the supervisor, the watchdog (02 R61). -/
def State.releaseEngines (s : State) : State :=
  let s := (List.range 64).foldl (fun s n => if (s.region n).state = .loading then s.plcStart n else s) s
  let s := (s.wr XMC_CTRL_MODE (b2n (s.xmc.modeWait.getD false))).modXmc fun x => { x with modeWait := none }
  let s := (List.range 64).foldl (fun s n =>
    if (s.region n).state ≠ .loading then s
    else (List.range 25).foldl (fun s e =>
      s.modEngAt n e fun g => if g.state = .retired then g else g.cleared .wait) s) s
  let s := { s with sup := { s.sup with stat := 1, eng := s.sup.eng.cleared .run } }
  s.modChip fun c => { c with wdRun := s.rd SYS_WDOG_PERIOD != 0, wdStart := s.cyc, wdWarned := false }

/-- Step 6 of R511: regions work, outputs and service windows are enabled, timebase, matcher, lanes, Kraerlink start. -/
def State.enableOutputs (s : State) : State :=
  let s := s.modChip fun c => { c with outputs := c.state == .start, windows := true }
  let s := s.startTimebase.startMatcher.startLanes.startKrl
  let s := (List.range 64).foldl (fun s n => if (s.region n).state = .loading then s.rgnTo n .active else s) s
  s.modScr fun c => { c with runAt := s.cyc }

/-- Step 7 of R511: HLTH, RUN; a region that the image does not fill is powered down (R510). -/
def State.enterRun (s : State) : State :=
  let s := (s.logChip .start .run 0).modChip fun c => { c with state := .run, hlth := true }
  let s := (s.wr CFG_LOADTIME_US (min s.loadUs (2 ^ 32 - 1))).wr CFG_STATUS_PHASE 7
  (List.range 64).foldl (fun s n =>
    if (s.region n).state = .active ∧ !s.ldr.hdr.fills n then (s.askDown n).2 else s) s

/-- R511: training is done, the trees are built, and Kettle has raised every region. -/
def execEnginesReleased (s : State) : Host.Outcome State Fault Refusal :=
  let ready := s.chip.state == .start && s.ldr.started != 0 && s.kettle.startWakes.isEmpty && s.kettle.moves.isEmpty &&
    (List.range 8).all fun c => s.rd (XMC_CHSTAT_STATE c) != 1
  .next (if ready then s.releaseEngines.enableOutputs.enterRun else s)

/-! ### Partial loads (R512 to R515) -/

/-- R512: a LOAD_PARTIAL occurrence reaches the loader. -/
def execLoadPartial (s : State) : Host.Outcome State Fault Refusal :=
  match s.takeAction fun a => a.code == 9 with
  | none => .next s
  | some (a, s) => .next (s.partAction a)

/-- R512: a write of CFG_PLOAD. -/
def execCfgPload (_ : Accessor) (v : Word) (s : State) : Host.Outcome State Fault Refusal := .next (s.writePload v.toNat)

/-- R512: the loader takes a waiting request. -/
def execPartialLoadTake (s : State) : Host.Outcome State Fault Refusal := .next s.takePartial

/-- R513: the last byte of a partial has been read and judged. -/
def execPartialLoadComplete (crcOk sigOk : Bool) (s : State) : Host.Outcome State Fault Refusal :=
  .next (s.endOfPartial crcOk sigOk)

/-! ### The journal (R519, R520) -/

/-- R519: a record has been programmed and read back, or that failed. -/
def execJournalWrite (ok : Bool) (s : State) : Host.Outcome State Fault Refusal := .next (s.writeRecord ok)

/-- R520: a compaction ends, or its erase fails. -/
def execJournalCompact (ok : Bool) (s : State) : Host.Outcome State Fault Refusal := .next (s.compactNow ok)

end Sys2Proof.Machine
end

