-- ==== Sys2Proof/Machine/Mailbox.lean ====
section
/-! DEFINITION. Commands of the check units and the mailbox (22). -/

namespace Sys2Proof.Machine

/-- R615: no word of slot `k`'s result has arrived for FILLTO. -/
def execMailboxFillTimeout (k : Fin 4096) (s : State) : Host.Outcome State Fault Refusal :=
  let x := s.slotAt k
  if x.state = 1 then
    let s := ((s.slotAbort k).raise MBX_STATUS_FILLTO).bump MBX_CNT2_FILLTO
    .next (s.logEvLimited unitMbx 0x1604 1 8 unitMbx (k + x.seq % 65536 * 2 ^ 12))
  else .next s

/-- R617. -/
def execSlotRead (_ : Accessor) (k : Fin 4096) (s : State) : Host.Outcome State Fault Refusal := .next (s.slotRead k)

/-- R618. -/
def execMbxAck (_ : Accessor) (v : Word) (s : State) : Host.Outcome State Fault Refusal := .next (s.mbxAck v.toNat)

/-- R612. -/
def execCrcClr (_ : Accessor) (k : Fin 16) (v : Word) (s : State) : Host.Outcome State Fault Refusal :=
  .next (s.crcClear k v.toNat)

/-- R622. -/
def execCrcResLoRead (_ : Accessor) (k : Fin 16) (s : State) : Host.Outcome State Fault Refusal := .next (s.crcReadLo k)

end Sys2Proof.Machine
end

