-- ==== Sys2Proof/Machine/Xmc.lean ====
section
/-! DEFINITION. External memory and Caddy, their own commands (16): channels lost, key retirement, mode changes, keys.
Requests to memory stand in NetServe. -/

namespace Sys2Proof.Machine

/-- R465: a channel loses training in service. -/
def execChannelDown (c : Fin 8) (s : State) : Host.Outcome State Fault Refusal :=
  .next (if s.rd (XMC_CHSTAT_STATE c) = 2 then s.channelDown c 2 else s)

/-- R483, R484 step 1: a write of XMC_RETIRE. -/
def execXmcRetire (_ : Accessor) (v : Word) (s : State) : Host.Outcome State Fault Refusal :=
  .next (s.writeXmcRetire v.toNat)

/-- R484 step 2. -/
def execRetireFlushDone (s : State) : Host.Outcome State Fault Refusal :=
  match s.xmc.walk with
  | none => .next s
  | some w =>
    if w.flushed then .next s
    else .next (if w.limit ≤ w.base then s.flushMeta.walkDone w else s.flushMeta)

/-- R484 steps 3 and 4: the walk takes its next page, with what its checks find. -/
def execRetireWalkPage (f : XmFind) (s : State) : Host.Outcome State Fault Refusal :=
  match s.xmc.walk with
  | none => .next s
  | some w => .next (if w.flushed then s.walkPage w f else s)

/-- R474: a write of XMC_CTRL. -/
def execXmcModeWrite (_ : Accessor) (v : Word) (s : State) : Host.Outcome State Fault Refusal :=
  .next (s.writeXmcCtrl v.toNat)

/-- R474: no request is in progress and the waiting mode takes effect; a walk that has begun meanwhile refuses it. -/
def execModeChange (s : State) : Host.Outcome State Fault Refusal :=
  match s.xmc.modeWait with
  | none => .next s
  | some m =>
    if s.chip.state = .load ∨ !s.flag XMC_CTRL_MODEBUSY then .next s
    else
      let t := (s.modXmc fun x => { x with modeWait := none }).wr XMC_CTRL_MODEBUSY 0
      .next (if s.xmc.walk.isSome then t.retref else t.wr XMC_CTRL_MODE (b2n m))

/-- R470: a write of SEC_KGEN. -/
def execSecKgen (_ : Accessor) (v : Word) (s : State) : Host.Outcome State Fault Refusal :=
  .next (s.writeKgen v.toNat)

end Sys2Proof.Machine
end

