-- ==== Sys2Proof/Machine/NetServe.lean ====
section
/-! DEFINITION. Requests and stream packets of the network at their source and at their target (12), and the system
accesses of SLD and SST (09). -/

namespace Sys2Proof.Machine

/-! ### At the source (R356, R363) -/

/-- Payload words of a request (R357). -/
def reqWords (opc : Nat) : Nat :=
  match opc with
  | 0x01 | 0x02 | 0x03 | 0x18 => 0
  | 0x06 => 4
  | 0x07 => 16
  | _ => 1

/-- A requester gives its NI a request; a region's units work while it is ACTIVE or TEST. -/
def State.issueRequest (s : State) (opc : Nat) (a : ReqArgs) : State :=
  if a.src.val < 64 && !(s.region a.src).live then s
  else
    let n := reqWords opc
    let p : Packet :=
      { typ := opcType opc, opc := opc, src := a.src, tid := 0, key := a.key, addr := a.addr.toNat, be := a.be.toNat
        toktgt := a.toktgt, stamp := a.stamp.toNat, urg := s.rd (niFld NI_CFG_DURG a.src), psn := a.psn.toNat % 2 ^ n
        len := flitsLess1 n, data := (List.range n).map fun i => a.data.getD i 0#128 }
    s.netRequest a.src { dst := a.dst, pkt := p, why := .unit }

/-! ### At the target (R357 to R359, R372) -/

/-- A token for a slot of region `n` (10 R289, R290). -/
def State.tokenRequest (s : State) (n : Nat) (p : Packet) : State :=
  if bitsOf p.toktgt 16 11 ≠ n then s.respond n p 4 [] 0
  else
    let v := (p.data.getD 0 0#128).toNat % 2 ^ 32
    let (st, s) := s.token n (bitsOf p.toktgt 10 3) (bitsOf p.toktgt 2 0) 2 ⟨v, p.stamp, bitOf p.psn 0⟩
    s.respond n p st [] 0

/-- A work item for a queue of region `n` (10 R309, R310). -/
def State.enqueueRequest (s : State) (n : Nat) (p : Packet) : State :=
  if 8 ≤ p.addr then s.respond n p 4 [] 0
  else if bitOf p.psn 0 then s.respond n p 0xA [] 0
  else match s.wqPush n p.addr (p.data.getD 0 0#128) with
  | (some seq, s) => s.respond n p 0 [BitVec.ofNat 128 seq] 0
  | (none, s) => s.respond n p 0xA [] 0

/-- A request at an open region NI. -/
def State.regionRequest (s : State) (n : Nat) (p : Packet) : State :=
  match p.opc with
  | 0x10 => s.tokenRequest n p
  | 0x11 => s.enqueueRequest n p
  | _ => s.bankRequest n p

/-- A bank's interface takes no access now: its gate is closing or closed (19 R559). -/
def State.bankGated (s : State) (n : Nat) (p : Packet) : Bool :=
  let b := bitsOf p.addr 23 18
  (opcBank p.opc).isSome && decide (b < 48) && s.gateOf (unitId n 3 (s.rd (MEM_BANK_OWN_PHYS n b))) != 0

/-- Request `p`, the oldest at NI `i`, is served, refused or held; it stays where it waits. -/
def State.serveRequest (s : State) (i : Nat) (p : Packet) (f : XmFind) : State :=
  let taken := s.modNi i fun n => { n with inbox := n.inbox.erase p }
  if i < 64 then
    if s.niRefuses i then taken.respond i p 3 [] 0
    else if s.gateOf (unitId i 4 0) ≠ 0 then s
    else if (s.region i).state = .test then
      if 64 ≤ (s.ni i).held.length then s else taken.modNi i fun n => { n with held := n.held ++ [p] }
    else if s.bankGated i p then s
    else taken.regionRequest i p
  else if s.niRefuses i then taken.respond i p 3 [] 0
  else if i < 72 then
    -- requests wait while a mode change drains (16 R474)
    if s.flag XMC_CTRL_MODEBUSY then s else taken.memRequest (i - 64) p f
  else taken.respond i p 4 [] 0

/-- A register access at NI `i` (R358, R359; 24 R648, R649): a region's registers, the proxy window, the base tier. -/
def State.serveReg (s : State) (i : Nat) (p : Packet) : State :=
  let s := s.modNi i fun n => { n with inbox := n.inbox.erase p }
  let write := decide (p.opc = 0x19)
  let v := (p.data.getD 0 0#128).toNat % 2 ^ 32
  let acc : Accessor := if p.src = 72 then .firmware else .mgmt
  let mine : Bool := if i < 64 then addrRegion p.addr == some i else i == 79 && decide (p.addr < 0x1000000)
  if i < 64 ∧ (s.region i).state = .dark then s.respond i p 3 [] 0
  else if write && bitOf p.psn 0 then s.respond i p 2 [] 0
  else if i = 76 ∧ 0x80000000 ≤ p.addr ∧ p.addr < 2 ^ 32 then
    s.krlAsk (proxyNode p.addr) (proxyAddr p.addr) (if write then some (BitVec.ofNat 32 v) else none) (some p)
  else if !mine then s.respond i p 4 [] 0
  else
    let s := s.access acc p.addr (if write then some v else none)
    s.respond i p s.rsp.status (if write then [] else [BitVec.ofNat 128 s.rsp.data]) 0

/-- The oldest request of its channel at NI `i`, where it has this opcode. -/
def State.oldestRequest (s : State) (i opc : Nat) : Option Packet :=
  match (s.ni i).inbox.find? fun p => p.typ == opcType opc with
  | some p => if p.opc = opc then some p else none
  | none => none

/-- A request command. -/
def State.netCmd (s : State) (opc : Nat) (c : NetCmd) : State :=
  match c with
  | .issue a => s.issueRequest opc a
  | .serve i f => match s.oldestRequest i opc with
    | none => s
    | some p => if opcType opc = 3 then s.serveReg i p else s.serveRequest i p f

/-- R289, R290, R357. -/
def execToken (c : NetCmd) (s : State) : Host.Outcome State Fault Refusal := .next (s.netCmd 0x10 c)

/-- R310, R357. -/
def execEnqueue (c : NetCmd) (s : State) : Host.Outcome State Fault Refusal := .next (s.netCmd 0x11 c)

/-- R357. -/
def execRead1 (c : NetCmd) (s : State) : Host.Outcome State Fault Refusal := .next (s.netCmd 0x01 c)

/-- R357. -/
def execRead4 (c : NetCmd) (s : State) : Host.Outcome State Fault Refusal := .next (s.netCmd 0x02 c)

/-- R357. -/
def execRead16 (c : NetCmd) (s : State) : Host.Outcome State Fault Refusal := .next (s.netCmd 0x03 c)

/-- R357. -/
def execWrite1 (c : NetCmd) (s : State) : Host.Outcome State Fault Refusal := .next (s.netCmd 0x05 c)

/-- R357. -/
def execWrite4 (c : NetCmd) (s : State) : Host.Outcome State Fault Refusal := .next (s.netCmd 0x06 c)

/-- R357. -/
def execWrite16 (c : NetCmd) (s : State) : Host.Outcome State Fault Refusal := .next (s.netCmd 0x07 c)

/-- R202, R357. -/
def execAdd32 (c : NetCmd) (s : State) : Host.Outcome State Fault Refusal := .next (s.netCmd 0x08 c)

/-- R202, R357. -/
def execAdd64 (c : NetCmd) (s : State) : Host.Outcome State Fault Refusal := .next (s.netCmd 0x09 c)

/-- R202, R357. -/
def execSwap64 (c : NetCmd) (s : State) : Host.Outcome State Fault Refusal := .next (s.netCmd 0x0A c)

/-- R357, R649. -/
def execRegrd (c : NetCmd) (s : State) : Host.Outcome State Fault Refusal := .next (s.netCmd 0x18 c)

/-- R357, R359, R649. -/
def execRegwr (c : NetCmd) (s : State) : Host.Outcome State Fault Refusal := .next (s.netCmd 0x19 c)

/-! ### Stream packets at their target (R373) -/

/-- A stream packet enters a stream port of region `n`, if the active context uses it (05 R162). -/
def State.portDeliver (s : State) (n : Nat) (p : Packet) : State :=
  let port := bitsOf p.addr 2 0
  if !bitOf (s.rd (CTX_PUSE_HI_STREAM n (s.region n).ctx.active)) port then s.dropAt n p 4
  else
    let k := p.words.length
    let ws : List NetWord := (List.range k).map fun w =>
      ⟨p.words.getD w 0#128, w + 1 == k, bitOf p.psn w, p.stamp, p.opc == 0x21⟩
    (s.modFab n fun f => { f with rx := f.rx.put [] port (f.rx.get [] port ++ ws) }).crcTap n p

/-- A stream packet at an interface of the lanes: to the lane that takes its stream, at interface 12 else to Kraerlink. -/
def State.lanesDeliver (s taken : State) (i : Nat) (p : Packet) : State :=
  match s.laneFor i p with
  | some k =>
    if (s.lane k).state ≠ 3 then taken.dropAt i p 3
    else if s.laneFull k p then s
    else (taken.laneTake k p).crcTap i p
  | none =>
    if i = 76 ∧ s.flag KRL_CTRL_EN then
      if !s.krlOn then taken.dropAt i p 3
      else match taken.krlFresh.krlData p with
      | (true, s') => s'
      | (false, s') => s'.modNi i fun n => { n with inbox := p :: n.inbox }
    else taken.dropAt i p 4

/-- The oldest stream packet at NI `i`, where it has this opcode, is delivered or dropped; it stays where it waits. -/
def State.deliver (s : State) (i opc : Nat) : State :=
  match (s.ni i).inbox.find? fun p => p.typ == 2 with
  | none => s
  | some p =>
    let taken := s.modNi i fun n => { n with inbox := n.inbox.erase p }
    if p.opc ≠ opc then s
    else if i < 64 then
      if s.niRefuses i then taken.dropAt i p 3
      else if (s.region i).state = .test then s
      else taken.portDeliver i p
    else if s.niRefuses i then taken.dropAt i p 3
    else if i = 74 then
      if opc = 0x21 then taken.crcTap i p
      else if s.mbxWaits p then s
      else (taken.mbxTake p).crcTap i p
    else if 76 ≤ i ∧ i < 79 then s.lanesDeliver taken i p
    else taken.dropAt i p 4

/-- R373. -/
def execSdata (i : Fin 80) (s : State) : Host.Outcome State Fault Refusal := .next (s.deliver i 0x20)

/-- R373. -/
def execSmark (i : Fin 80) (s : State) : Host.Outcome State Fault Refusal := .next (s.deliver i 0x21)

/-! ### System accesses (09 R279, R280) -/

/-- The supervisor's system access with number `id` is answered. -/
def State.sysAnswer (s : State) (id : Nat) (r : Rsp) : State :=
  s.modEng .sup fun g => { g with sys := g.sys.map fun a => if a.id = id then { a with rsp := some r } else a }

/-- A system access leaves: the base tier answers at once, a region and another node over the network. -/
def State.sysIssue (s : State) (d : Nat) (a : Nat) (w : Option Nat) : State :=
  let id := s.sup.nextSys
  let x : SysAcc := { load := w.isNone, acc := d, shadow := s.sup.eng.sh, id := id }
  let s := { s with sup := { s.sup with nextSys := id + 1 } }
  let s := s.modEng .sup fun g => { g with sys := g.sys ++ [x] }
  let opc := if w.isSome then 0x19 else 0x18
  let p : Packet :=
    { typ := 3, opc := opc, src := 72, tid := 0, addr := a, be := 0xFFFF, urg := s.rd (niFld NI_CFG_DURG 72)
      data := (w.toList).map fun v => BitVec.ofNat 128 v }
  let net (dst : Nat) : State := s.netRequest 72 { dst := dst, pkt := p, why := .sys id }
  if 0x80000000 ≤ a then net 76
  else match addrRegion a with
  | some n => if a % 4 ≠ 0 then s.sysAnswer id ⟨4, 0⟩ else net n
  | none =>
    let s := s.access .firmware a w
    s.sysAnswer id s.rsp

/-- The service address of an instruction. -/
def sysAddr (g : Engine) (ind : Bool) (a : Word) : Nat :=
  if ind then g.cur.reg 1 % 256 * 2 ^ 24 + g.cur.reg 0 % 2 ^ 24 else a.toNat

/-- Registers a system access reads beside An. -/
def indRegs (ind : Bool) : List Nat := if ind then [0, 1] else []

/-- The supervisor is in reset again once its own write has begun a load. -/
def State.supReset (s : State) : State :=
  if s.chip.state = .load then { s with sup := { s.sup with eng := {} } } else s

/-- SLD of an engine: R280 in a region's. -/
def State.sld (s : State) (g : EngId) (d ind : Bool) (a : Word) : State :=
  let c := 4 + b2n d
  s.issue g fun s =>
    { regs := c :: indRegs ind
      wait := isSup g && decide (4 ≤ (s.eng g).sys.length)
      body := fun s =>
        let e := s.eng g
        if isSup g then s.sysIssue (b2n d) (sysAddr e ind a) none
        else (s.modEng g fun g => g.moveIn c 0 false).bankError g 0xA 63 e.cur.pc e.cur.pc }

/-- SST of an engine: from a tagged An it is a consumption and writes nothing (R279). -/
def State.sst (s : State) (g : EngId) (d ind : Bool) (a : Word) : State :=
  let c := 4 + b2n d
  s.issue g fun s =>
    { regs := c :: indRegs ind
      wait := isSup g && decide (4 ≤ (s.eng g).sys.length)
      body := fun s =>
        let e := s.eng g
        if !isSup g then s.bankError g 0xA 63 e.cur.pc e.cur.pc
        else if e.cur.tagged c then s.consume g
        else s.sysIssue (b2n d) (sysAddr e ind a) (some (e.cur.reg c % 2 ^ 32)) }

/-- R279, R280. -/
def execSld (g : EngId) (d : Bool) (ind : Bool) (a : Word) (s : State) : Host.Outcome State Fault Refusal :=
  .next (s.sld g d ind a).supReset

/-- R279, R280. -/
def execSst (g : EngId) (d : Bool) (ind : Bool) (a : Word) (s : State) : Host.Outcome State Fault Refusal :=
  .next (s.sst g d ind a).supReset

/-- The oldest system access of the supervisor lands, once it is answered (R279). -/
def State.sysLand (s : State) : State :=
  match s.sup.eng.sys with
  | [] => s
  | x :: rest => match x.rsp with
    | none => s
    | some r =>
      let bad := !statusDone r.status
      let s := s.modEng .sup fun g => { g with sys := rest }
      let s := if x.load then
          s.modEng .sup fun g => g.landed x.shadow (4 + x.acc) (if bad then 0 else r.data % 2 ^ 32) false
        else s
      if bad then s.pendSrc .sup 3 else s

/-- R279. -/
def execSystemAccessResponse (s : State) : Host.Outcome State Fault Refusal := .next s.sysLand

end Sys2Proof.Machine
end

