-- ==== Sys2Proof/Machine/Service.lean ====
section
/-! DEFINITION. The service port, the test port and management frames that reach registers (24 R652 to R658, 14 R437,
R438). -/

namespace Sys2Proof.Machine

/-- An access by the service port or the test port; proxy addresses go to Kraerlink (R658). The answer of another node
comes later, in the state of Kraerlink. -/
def State.portAccess (s : State) (acc : Accessor) (a : Nat) (w : Option Nat) : State :=
  if a < 0x80000000 then s.hostAccess acc a w
  else match s.chip.state with
  | .off | .por => s
  | .halt => s.answerWith 3 0
  | _ =>
    if !s.chip.windows then s.refuseAccess acc
    else if !s.flag KRL_CTRL_EN then s.answerWith 4 0
    else if proxyNode a = s.krlNode then s.hostAccess acc (proxyAddr a) w
    else s.krlAsk (proxyNode a) (proxyAddr a) (w.map fun v => BitVec.ofNat 32 v) none

/-! ### Service port (R654 to R657) -/

/-- The number four bytes spell, most significant first. -/
def beWord (bs : List Nat) : Nat := bs.foldl (fun v b => v * 256 + b) 0

/-- A whole frame: bytes 0 to 9, byte 0 in the lowest bits. -/
def State.serviceFrame (s : State) (f : BitVec 80) : State :=
  let bs := bytesOf 10 f.toNat
  let cmd := bs.getD 0 0
  let a := beWord ((bs.drop 1).take 4)
  let v := beWord ((bs.drop 5).take 4)
  match s.chip.state with
  | .off | .por => s
  | _ =>
    let bad (s : State) : State := (s.bump SYS_SVCERR_CRCERR).answerWith 4 0
    if crc8.value (bs.take 9) ≠ bs.getD 9 0 then bad s
    else
      let s := s.count SVC_FRAMES_COUNT
      if cmd = 1 then s.portAccess .service a none
      else if cmd = 2 then s.portAccess .service a (some v)
      else bad s

/-- R654, R655. -/
def execServiceFrame (f : BitVec 80) (s : State) : Host.Outcome State Fault Refusal := .next (s.serviceFrame f)

/-- R656: SVC_CS_N rises before byte 9, or after it, when the access is carried out and its response discarded. -/
def execServiceFrameShort (f : Option (BitVec 80)) (s : State) : Host.Outcome State Fault Refusal :=
  match s.chip.state, f with
  | .off, _ | .por, _ => .next s
  | _, none => .next (s.bump SYS_SVCERR_SHORT)
  | _, some f =>
    let t := (s.serviceFrame f).bump SYS_SVCERR_LOSTRSP
    .next { t with rsp := s.rsp }

/-! ### Test port (R658) -/

/-- R658: without `service.debug` every access is answered REFUSED. -/
def execTestPortAccess (wr : Bool) (a v : Word) (s : State) : Host.Outcome State Fault Refusal :=
  match s.chip.state with
  | .off | .por => .next s
  | _ =>
    let s := s.raise DBG_STAT_REGACC
    if !s.flag SYS_SVCCFG_DEBUG then .next ((s.bump DBG_STAT_REFUSED).answerWith 0xA 0)
    else .next (s.portAccess .testPort a.toNat (if wr then some v.toNat else none))

/-! ### Management frames (R652) -/

/-- The words of a READ are read in ascending order. -/
def State.readWords (s : State) (a : Nat) : Nat → List Word × State
  | 0 => ([], s)
  | k + 1 =>
    let s := s.access .mgmt a none
    let (ws, t) := s.readWords (a + 4) k
    (BitVec.ofNat 32 s.rsp.data :: ws, t)

/-- A READ is permitted only when every word is; else no word is read. -/
def State.mgmtRead (s : State) (a k : Nat) : Nat × List Word × State :=
  let st := (List.range k).foldl (fun st i => worse st (s.hostCheck (a + 4 * i) false)) 0
  if st = 0xA then (st, [], s.bump SYS_SVCERR_REFUSED)
  else if st ≠ 0 then (st, [], s)
  else
    let (ws, s) := s.readWords a k
    (0, ws, s)

/-- R438, R652: a READ frame. -/
def execMgmtRead (a : FrameArgs) (s : State) : Host.Outcome State Fault Refusal :=
  let (ours, s) := s.krlArrive 1 a
  if !ours then .next s
  else
    let adr := (a.f.words.getD 0 0).toNat
    let (st, ws, s) := s.mgmtRead adr ((a.f.words.getD 1 0).toNat % 64 + 1)
    .next (s.krlMgmt a.f.org 3 st a.f.seq.toNat ws).2

/-- R438: a WRITE frame. -/
def execMgmtWrite (a : FrameArgs) (s : State) : Host.Outcome State Fault Refusal :=
  let (ours, s) := s.krlArrive 2 a
  if !ours then .next s
  else
    let s := s.hostAccess .mgmt (a.f.words.getD 0 0).toNat (some (a.f.words.getD 1 0).toNat)
    .next (s.krlMgmt a.f.org 3 s.rsp.status a.f.seq.toNat []).2

end Sys2Proof.Machine
end

