-- ==== Sys2Proof/Machine/Dispatch.lean ====
section
/-! DEFINITION. What each command does: one arm per constructor, each one direct call of its meaning. -/

namespace Sys2Proof.Machine

/-- The effect of a command on everything but the queue. -/
def exec (i : Instr) (s : State) : Host.Outcome State Fault Refusal :=
  match i with
  | .vinLockoutRise => Sys2Proof.Machine.execVinLockoutRise s
  | .vinLockoutFall => Sys2Proof.Machine.execVinLockoutFall s
  | .porstNLow => Sys2Proof.Machine.execPorstNLow s
  | .porToLoad => Sys2Proof.Machine.execPorToLoad s
  | .loadEntry => Sys2Proof.Machine.execLoadEntry s
  | .bootRecordRead a b => Sys2Proof.Machine.execBootRecordRead a b s
  | .imageHeaderRead h unwrap => Sys2Proof.Machine.execImageHeaderRead h unwrap s
  | .journalRead a b => Sys2Proof.Machine.execJournalRead a b s
  | .loadZeroingDone => Sys2Proof.Machine.execLoadZeroingDone s
  | .imageItem it => Sys2Proof.Machine.execImageItem it s
  | .imageLastByte crcOk sigOk => Sys2Proof.Machine.execImageLastByte crcOk sigOk s
  | .flashFailure => Sys2Proof.Machine.execFlashFailure s
  | .primaryRetry => Sys2Proof.Machine.execPrimaryRetry s
  | .channelTrainingDone c ok => Sys2Proof.Machine.execChannelTrainingDone c ok s
  | .enginesReleased => Sys2Proof.Machine.execEnginesReleased s
  | .safeEntryComplete => Sys2Proof.Machine.execSafeEntryComplete s
  | .reload acc v => Sys2Proof.Machine.execReload acc v s
  | .vinLow => Sys2Proof.Machine.execVinLow s
  | .vinHigh => Sys2Proof.Machine.execVinHigh s
  | .safeNLow => Sys2Proof.Machine.execSafeNLow s
  | .baseStateUe => Sys2Proof.Machine.execBaseStateUe s
  | .lockstepMismatch where_ => Sys2Proof.Machine.execLockstepMismatch where_ s
  | .autoRestart => Sys2Proof.Machine.execAutoRestart s
  | .haltSensorRead l => Sys2Proof.Machine.execHaltSensorRead l s
  | .sysWdkick acc v => Sys2Proof.Machine.execSysWdkick acc v s
  | .wdwarn => Sys2Proof.Machine.execWdwarn s
  | .chipWatchdogExpire => Sys2Proof.Machine.execChipWatchdogExpire s
  | .rgnWdkick acc n v => Sys2Proof.Machine.execRgnWdkick acc n v s
  | .wdk n => Sys2Proof.Machine.execWdk n s
  | .regionWatchdogExpire n => Sys2Proof.Machine.execRegionWatchdogExpire n s
  | .regionRestart n => Sys2Proof.Machine.execRegionRestart n s
  | .logTailWrite acc v => Sys2Proof.Machine.execLogTailWrite acc v s
  | .logWcmd acc v => Sys2Proof.Machine.execLogWcmd acc v s
  | .logLost => Sys2Proof.Machine.execLogLost s
  | .rateLimitFlush code scope => Sys2Proof.Machine.execRateLimitFlush code scope s
  | .registerWrite acc a v => Sys2Proof.Machine.execRegisterWrite acc a v s
  | .encoderEdge k e => Sys2Proof.Machine.execEncoderEdge k e s
  | .indexEdge k e => Sys2Proof.Machine.execIndexEdge k e s
  | .wireFault k x => Sys2Proof.Machine.execWireFault k x s
  | .wireFaultClear k x => Sys2Proof.Machine.execWireFaultClear k x s
  | .interpolatorTimeout => Sys2Proof.Machine.execInterpolatorTimeout s
  | .ptbSimVelWrite acc v => Sys2Proof.Machine.execPtbSimVelWrite acc v s
  | .ptbPosLoRead acc => Sys2Proof.Machine.execPtbPosLoRead acc s
  | .ptbEncCntLoRead acc k => Sys2Proof.Machine.execPtbEncCntLoRead acc k s
  | .ptbEncZlatLoRead acc k => Sys2Proof.Machine.execPtbEncZlatLoRead acc k s
  | .encErrClr acc k v => Sys2Proof.Machine.execEncErrClr acc k v s
  | .busUpdate => Sys2Proof.Machine.execBusUpdate s
  | .busStale n => Sys2Proof.Machine.execBusStale n s
  | .matcherCrossing k => Sys2Proof.Machine.execMatcherCrossing k s
  | .occurrenceHandover => Sys2Proof.Machine.execOccurrenceHandover s
  | .occurrenceMissed => Sys2Proof.Machine.execOccurrenceMissed s
  | .pulse o => Sys2Proof.Machine.execPulse o s
  | .set o => Sys2Proof.Machine.execSet o s
  | .clear o => Sys2Proof.Machine.execClear o s
  | .evoEdge o => Sys2Proof.Machine.execEvoEdge o s
  | .ctx n => Sys2Proof.Machine.execCtx n s
  | .dvfs n => Sys2Proof.Machine.execDvfs n s
  | .startGraph => Sys2Proof.Machine.execStartGraph s
  | .eventToken => Sys2Proof.Machine.execEventToken s
  | .migrate => Sys2Proof.Machine.execMigrate s
  | .quiet n => Sys2Proof.Machine.execQuiet n s
  | .quietWindowEnd n => Sys2Proof.Machine.execQuietWindowEnd n s
  | .loadPartial => Sys2Proof.Machine.execLoadPartial s
  | .mark n dest => Sys2Proof.Machine.execMark n dest s
  | .irq => Sys2Proof.Machine.execIrq s
  | .evtIrqPop acc => Sys2Proof.Machine.execEvtIrqPop acc s
  | .entryWrite acc k w v => Sys2Proof.Machine.execEntryWrite acc k w v s
  | .entryWithdraw acc k v => Sys2Proof.Machine.execEntryWithdraw acc k v s
  | .entryEnable acc k v => Sys2Proof.Machine.execEntryEnable acc k v s
  | .liftContention n blk w => Sys2Proof.Machine.execLiftContention n blk w s
  | .sensorWord b p w => Sys2Proof.Machine.execSensorWord b p w s
  | .sensorPairLock b p lock => Sys2Proof.Machine.execSensorPairLock b p lock s
  | .streamPacketSend n p dest last => Sys2Proof.Machine.execStreamPacketSend n p dest last s
  | .ctxReq acc n v => Sys2Proof.Machine.execCtxReq acc n v s
  | .creq n ctx => Sys2Proof.Machine.execCreq n ctx s
  | .contextSwitch n => Sys2Proof.Machine.execContextSwitch n s
  | .guardTimeout n => Sys2Proof.Machine.execGuardTimeout n s
  | .ownershipWrite acc n b v => Sys2Proof.Machine.execOwnershipWrite acc n b v s
  | .handoverEnd n b => Sys2Proof.Machine.execHandoverEnd n b s
  | .bankRead n b q => Sys2Proof.Machine.execBankRead n b q s
  | .bankWrite n b q => Sys2Proof.Machine.execBankWrite n b q s
  | .bankMaskedWrite n b q => Sys2Proof.Machine.execBankMaskedWrite n b q s
  | .bankAdd32 n b q => Sys2Proof.Machine.execBankAdd32 n b q s
  | .bankAdd64 n b q => Sys2Proof.Machine.execBankAdd64 n b q s
  | .bankSwap64 n b q => Sys2Proof.Machine.execBankSwap64 n b q s
  | .stealTimeout n b => Sys2Proof.Machine.execStealTimeout n b s
  | .rowRemapDone n => Sys2Proof.Machine.execRowRemapDone n s
  | .bankCopyDone n => Sys2Proof.Machine.execBankCopyDone n s
  | .nop g p => Sys2Proof.Machine.execNop g p s
  | .mpy g p => Sys2Proof.Machine.execMpy g p s
  | .mpyn g p => Sys2Proof.Machine.execMpyn g p s
  | .mac g p => Sys2Proof.Machine.execMac g p s
  | .macn g p => Sys2Proof.Machine.execMacn g p s
  | .dmpy g p => Sys2Proof.Machine.execDmpy g p s
  | .dmac g p => Sys2Proof.Machine.execDmac g p s
  | .dmacx g p => Sys2Proof.Machine.execDmacx g p s
  | .add g p => Sys2Proof.Machine.execAdd g p s
  | .sub g p => Sys2Proof.Machine.execSub g p s
  | .cmp g p => Sys2Proof.Machine.execCmp g p s
  | .copy g p => Sys2Proof.Machine.execCopy g p s
  | .neg g p => Sys2Proof.Machine.execNeg g p s
  | .abs g p => Sys2Proof.Machine.execAbs g p s
  | .clr g p => Sys2Proof.Machine.execClr g p s
  | .rndc g p => Sys2Proof.Machine.execRndc g p s
  | .asl g p => Sys2Proof.Machine.execAsl g p s
  | .asr g p => Sys2Proof.Machine.execAsr g p s
  | .and g p => Sys2Proof.Machine.execAnd g p s
  | .or g p => Sys2Proof.Machine.execOr g p s
  | .xor g p => Sys2Proof.Machine.execXor g p s
  | .max g p => Sys2Proof.Machine.execMax g p s
  | .min g p => Sys2Proof.Machine.execMin g p s
  | .load g k reg mode ptr => Sys2Proof.Machine.execLoad g k reg mode ptr s
  | .store g k reg mode ptr => Sys2Proof.Machine.execStore g k reg mode ptr s
  | .storeR g k reg mode ptr => Sys2Proof.Machine.execStoreR g k reg mode ptr s
  | .storeS g k reg mode ptr => Sys2Proof.Machine.execStoreS g k reg mode ptr s
  | .storeRs g k reg mode ptr => Sys2Proof.Machine.execStoreRs g k reg mode ptr s
  | .update g k mode ptr => Sys2Proof.Machine.execUpdate g k mode ptr s
  | .stream g k code => Sys2Proof.Machine.execStream g k code s
  | .ldi g dst imm => Sys2Proof.Machine.execLdi g dst imm s
  | .movr g dst src rnd sat => Sys2Proof.Machine.execMovr g dst src rnd sat s
  | .movm g a => Sys2Proof.Machine.execMovm g a s
  | .addi g d rnd sat imm => Sys2Proof.Machine.execAddi g d rnd sat imm s
  | .cmpi g d imm => Sys2Proof.Machine.execCmpi g d imm s
  | .sws g m => Sys2Proof.Machine.execSws g m s
  | .swc g m => Sys2Proof.Machine.execSwc g m s
  | .bra g cond ind ptr target => Sys2Proof.Machine.execBra g cond ind ptr target s
  | .call g cond link target => Sys2Proof.Machine.execCall g cond link target s
  | .rti g => Sys2Proof.Machine.execRti g s
  | .done g => Sys2Proof.Machine.execDone g s
  | .wait g => Sys2Proof.Machine.execWait g s
  | .loop g imm count reg last => Sys2Proof.Machine.execLoop g imm count reg last s
  | .wld g w => Sys2Proof.Machine.execWld g w s
  | .wst g w => Sys2Proof.Machine.execWst g w s
  | .watm g w => Sys2Proof.Machine.execWatm g w s
  | .sld g d ind a => Sys2Proof.Machine.execSld g d ind a s
  | .sst g d ind a => Sys2Proof.Machine.execSst g d ind a s
  | .reservedEncoding g => Sys2Proof.Machine.execReservedEncoding g s
  | .windowLoadLand n e => Sys2Proof.Machine.execWindowLoadLand n e s
  | .systemAccessResponse => Sys2Proof.Machine.execSystemAccessResponse s
  | .interruptEntry g => Sys2Proof.Machine.execInterruptEntry g s
  | .tmrExpire g => Sys2Proof.Machine.execTmrExpire g s
  | .engStop n e => Sys2Proof.Machine.execEngStop n e s
  | .engMdataRead acc n e => Sys2Proof.Machine.execEngMdataRead acc n e s
  | .engMdataWrite acc n e v => Sys2Proof.Machine.execEngMdataWrite acc n e v s
  | .token c => Sys2Proof.Machine.execToken c s
  | .schToken acc n v => Sys2Proof.Machine.execSchToken acc n v s
  | .urgencyStep n k => Sys2Proof.Machine.execUrgencyStep n k s
  | .dispatch n => Sys2Proof.Machine.execDispatch n s
  | .voidDispatch n k => Sys2Proof.Machine.execVoidDispatch n k s
  | .pagingResponse n e => Sys2Proof.Machine.execPagingResponse n e s
  | .cqHeldRelease n => Sys2Proof.Machine.execCqHeldRelease n s
  | .schCqPop acc n => Sys2Proof.Machine.execSchCqPop acc n s
  | .cqLineFlush n => Sys2Proof.Machine.execCqLineFlush n s
  | .cqRingRetry n => Sys2Proof.Machine.execCqRingRetry n s
  | .slotEnable acc n k v => Sys2Proof.Machine.execSlotEnable acc n k v s
  | .slotWithdraw acc n k v => Sys2Proof.Machine.execSlotWithdraw acc n k v s
  | .descriptorWrite acc n k w v => Sys2Proof.Machine.execDescriptorWrite acc n k w v s
  | .kernelTableWrite acc n k w v => Sys2Proof.Machine.execKernelTableWrite acc n k w v s
  | .schWqPush acc n v => Sys2Proof.Machine.execSchWqPush acc n v s
  | .poolTake n => Sys2Proof.Machine.execPoolTake n s
  | .trcRdIdxWrite acc v => Sys2Proof.Machine.execTrcRdIdxWrite acc v s
  | .pointCommit => Sys2Proof.Machine.execPointCommit s
  | .routePassEnd => Sys2Proof.Machine.execRoutePassEnd s
  | .transitEnd n => Sys2Proof.Machine.execTransitEnd n s
  | .plcOvr acc v => Sys2Proof.Machine.execPlcOvr acc v s
  | .read1 c => Sys2Proof.Machine.execRead1 c s
  | .read4 c => Sys2Proof.Machine.execRead4 c s
  | .read16 c => Sys2Proof.Machine.execRead16 c s
  | .write1 c => Sys2Proof.Machine.execWrite1 c s
  | .write4 c => Sys2Proof.Machine.execWrite4 c s
  | .write16 c => Sys2Proof.Machine.execWrite16 c s
  | .add32 c => Sys2Proof.Machine.execAdd32 c s
  | .add64 c => Sys2Proof.Machine.execAdd64 c s
  | .swap64 c => Sys2Proof.Machine.execSwap64 c s
  | .enqueue c => Sys2Proof.Machine.execEnqueue c s
  | .regrd c => Sys2Proof.Machine.execRegrd c s
  | .regwr c => Sys2Proof.Machine.execRegwr c s
  | .sdata ni => Sys2Proof.Machine.execSdata ni s
  | .smark ni => Sys2Proof.Machine.execSmark ni s
  | .resp ni => Sys2Proof.Machine.execResp ni s
  | .drop ni => Sys2Proof.Machine.execDrop ni s
  | .routerHop r out l => Sys2Proof.Machine.execRouterHop r out l s
  | .packetAgeStep r port vc cls => Sys2Proof.Machine.execPacketAgeStep r port vc cls s
  | .requestTimeout ni t => Sys2Proof.Machine.execRequestTimeout ni t s
  | .tidRelease ni t => Sys2Proof.Machine.execTidRelease ni t s
  | .creditTimeout r d => Sys2Proof.Machine.execCreditTimeout r d s
  | .routerStall r => Sys2Proof.Machine.execRouterStall r s
  | .ledgerDrop r bad => Sys2Proof.Machine.execLedgerDrop r bad s
  | .epochFlip => Sys2Proof.Machine.execEpochFlip s
  | .drainComplete n => Sys2Proof.Machine.execDrainComplete n s
  | .routeEntryWrite acc ni v => Sys2Proof.Machine.execRouteEntryWrite acc ni v s
  | .writeBack n mem unit => Sys2Proof.Machine.execWriteBack n mem unit s
  | .poisonRewrite n mem unit => Sys2Proof.Machine.execPoisonRewrite n mem unit s
  | .patrolRead n p => Sys2Proof.Machine.execPatrolRead n p s
  | .enginePatrolRead n e => Sys2Proof.Machine.execEnginePatrolRead n e s
  | .eccInj acc n v => Sys2Proof.Machine.execEccInj acc n v s
  | .eccTblW0Read acc n k => Sys2Proof.Machine.execEccTblW0Read acc n k s
  | .eccTblClear acc n k => Sys2Proof.Machine.execEccTblClear acc n k s
  | .reelSend => Sys2Proof.Machine.execReelSend s
  | .reel a => Sys2Proof.Machine.execReel a s
  | .fillSend p => Sys2Proof.Machine.execFillSend p s
  | .fill p crcOk link age alive => Sys2Proof.Machine.execFill p crcOk link age alive s
  | .data a => Sys2Proof.Machine.execData a s
  | .mgmtRead a => Sys2Proof.Machine.execMgmtRead a s
  | .mgmtWrite a => Sys2Proof.Machine.execMgmtWrite a s
  | .mgmtResponse a => Sys2Proof.Machine.execMgmtResponse a s
  | .mgmtAck a => Sys2Proof.Machine.execMgmtAck a s
  | .mgmtDrop a => Sys2Proof.Machine.execMgmtDrop a s
  | .topo a => Sys2Proof.Machine.execTopo a s
  | .ackSend => Sys2Proof.Machine.execAckSend s
  | .linkBlockLock p tx lanes => Sys2Proof.Machine.execLinkBlockLock p tx lanes s
  | .linkDown p tx => Sys2Proof.Machine.execLinkDown p tx s
  | .reelsLost => Sys2Proof.Machine.execReelsLost s
  | .reelFreeze => Sys2Proof.Machine.execReelFreeze s
  | .masterStart => Sys2Proof.Machine.execMasterStart s
  | .holdLimit => Sys2Proof.Machine.execHoldLimit s
  | .ledgerTimeout => Sys2Proof.Machine.execLedgerTimeout s
  | .mgmtTimeout => Sys2Proof.Machine.execMgmtTimeout s
  | .qpllLock q lock ok => Sys2Proof.Machine.execQpllLock q lock ok s
  | .qpllRetry q => Sys2Proof.Machine.execQpllRetry q s
  | .laneLock q l => Sys2Proof.Machine.execLaneLock q l s
  | .laneLoss q l high sig => Sys2Proof.Machine.execLaneLoss q l high sig s
  | .laneAcquireTimeout q l => Sys2Proof.Machine.execLaneAcquireTimeout q l s
  | .laneRetry q l => Sys2Proof.Machine.execLaneRetry q l s
  | .laneRxWord q l e => Sys2Proof.Machine.execLaneRxWord q l e s
  | .lanePacketHold q l => Sys2Proof.Machine.execLanePacketHold q l s
  | .forcedFiller q l => Sys2Proof.Machine.execForcedFiller q l s
  | .ctleStep q l up down => Sys2Proof.Machine.execCtleStep q l up down s
  | .escanStart acc q l v => Sys2Proof.Machine.execEscanStart acc q l v s
  | .escanDone q l errors => Sys2Proof.Machine.execEscanDone q l errors s
  | .lneQsub acc q v => Sys2Proof.Machine.execLneQsub acc q v s
  | .sliceSwitchDone q l => Sys2Proof.Machine.execSliceSwitchDone q l s
  | .channelDown c => Sys2Proof.Machine.execChannelDown c s
  | .xmcRetire acc v => Sys2Proof.Machine.execXmcRetire acc v s
  | .retireFlushDone => Sys2Proof.Machine.execRetireFlushDone s
  | .retireWalkPage f => Sys2Proof.Machine.execRetireWalkPage f s
  | .xmcModeWrite acc v => Sys2Proof.Machine.execXmcModeWrite acc v s
  | .modeChange => Sys2Proof.Machine.execModeChange s
  | .secKgen acc v => Sys2Proof.Machine.execSecKgen acc v s
  | .cfgPload acc v => Sys2Proof.Machine.execCfgPload acc v s
  | .partialLoadTake => Sys2Proof.Machine.execPartialLoadTake s
  | .partialLoadComplete crcOk sigOk => Sys2Proof.Machine.execPartialLoadComplete crcOk sigOk s
  | .journalWrite ok => Sys2Proof.Machine.execJournalWrite ok s
  | .journalCompact ok => Sys2Proof.Machine.execJournalCompact ok s
  | .steepVisit n x => Sys2Proof.Machine.execSteepVisit n x s
  | .frameRefetchDone words ok clean => Sys2Proof.Machine.execFrameRefetchDone words ok clean s
  | .scrRelease acc v => Sys2Proof.Machine.execScrRelease acc v s
  | .scrTest acc v => Sys2Proof.Machine.execScrTest acc v s
  | .tourTestStart kind sc => Sys2Proof.Machine.execTourTestStart kind sc s
  | .tourlateCheck n => Sys2Proof.Machine.execTourlateCheck n s
  | .columnCopyDone n => Sys2Proof.Machine.execColumnCopyDone n s
  | .bistTestEnd a => Sys2Proof.Machine.execBistTestEnd a s
  | .analogCheckPeriod => Sys2Proof.Machine.execAnalogCheckPeriod s
  | .ageMeasure n ages => Sys2Proof.Machine.execAgeMeasure n ages s
  | .hoursTick => Sys2Proof.Machine.execHoursTick s
  | .pllLock k => Sys2Proof.Machine.execPllLock k s
  | .sourceWindow k j r => Sys2Proof.Machine.execSourceWindow k j r s
  | .sourceNoEdge k j => Sys2Proof.Machine.execSourceNoEdge k j s
  | .pllLockLoss k => Sys2Proof.Machine.execPllLockLoss k s
  | .altrefMove k => Sys2Proof.Machine.execAltrefMove k s
  | .holdoverEnd k => Sys2Proof.Machine.execHoldoverEnd k s
  | .domainSelect acc d v => Sys2Proof.Machine.execDomainSelect acc d v s
  | .gateCloseRequest u => Sys2Proof.Machine.execGateCloseRequest u s
  | .gateTimeout u => Sys2Proof.Machine.execGateTimeout u s
  | .gateClosed u => Sys2Proof.Machine.execGateClosed u s
  | .gateReopen u => Sys2Proof.Machine.execGateReopen u s
  | .pointChangeRequest acc v => Sys2Proof.Machine.execPointChangeRequest acc v s
  | .wakeRequest acc v => Sys2Proof.Machine.execWakeRequest acc v s
  | .powerDownRequest acc v => Sys2Proof.Machine.execPowerDownRequest acc v s
  | .kettleAdmit => Sys2Proof.Machine.execKettleAdmit s
  | .pointChangeDone n d => Sys2Proof.Machine.execPointChangeDone n d s
  | .wakeZeroingDone n => Sys2Proof.Machine.execWakeZeroingDone n s
  | .earlyWakeCheck => Sys2Proof.Machine.execEarlyWakeCheck s
  | .powerDownWaitEnd n => Sys2Proof.Machine.execPowerDownWaitEnd n s
  | .powerMeasure vin iin inp stk => Sys2Proof.Machine.execPowerMeasure vin iin inp stk s
  | .powerThrottleStep => Sys2Proof.Machine.execPowerThrottleStep s
  | .currentLimit iin => Sys2Proof.Machine.execCurrentLimit iin s
  | .phaseFailure r p reason => Sys2Proof.Machine.execPhaseFailure r p reason s
  | .tempSample l => Sys2Proof.Machine.execTempSample l s
  | .thermalSkipStep => Sys2Proof.Machine.execThermalSkipStep s
  | .divisionStart n => Sys2Proof.Machine.execDivisionStart n s
  | .divisionEnd => Sys2Proof.Machine.execDivisionEnd s
  | .sensorStuck x => Sys2Proof.Machine.execSensorStuck x s
  | .sensorRecheck x => Sys2Proof.Machine.execSensorRecheck x s
  | .vioCheck a b => Sys2Proof.Machine.execVioCheck a b s
  | .mailboxFillTimeout k => Sys2Proof.Machine.execMailboxFillTimeout k s
  | .slotRead acc k => Sys2Proof.Machine.execSlotRead acc k s
  | .mbxAck acc v => Sys2Proof.Machine.execMbxAck acc v s
  | .crcClr acc k v => Sys2Proof.Machine.execCrcClr acc k v s
  | .crcResLoRead acc k => Sys2Proof.Machine.execCrcResLoRead acc k s
  | .serviceFrame f => Sys2Proof.Machine.execServiceFrame f s
  | .serviceFrameShort f => Sys2Proof.Machine.execServiceFrameShort f s
  | .testPortAccess wr a v => Sys2Proof.Machine.execTestPortAccess wr a v s
  | .configWordUeAtUse n frame cell => Sys2Proof.Machine.execConfigWordUeAtUse n frame cell s
  | .regionFabricClockEdge n pins => Sys2Proof.Machine.execRegionFabricClockEdge n pins s
  | .startPllTimeout => Sys2Proof.Machine.execStartPllTimeout s
  | .analogCheckEnd a => Sys2Proof.Machine.execAnalogCheckEnd a s
  | .laneTxBlock q l => Sys2Proof.Machine.execLaneTxBlock q l s
  | .engResume acc n e v => Sys2Proof.Machine.execEngResume acc n e v s

end Sys2Proof.Machine
end

