-- ==== Sys2Proof/WellFormed.lean ====
section
/-! DEFINITION. Which commands are well-formed: the others name a phase that no rail has, no reason of 20 R569, or an
item whose stored bytes are not as many as its index entry says. Every other operand is held by its type. -/

namespace Sys2Proof

/-- The command can happen on the hardware. -/
def Instr.wellFormed (i : Instr) : Bool :=
  match i with
  | .phaseFailure r p reason => decide (p.val < Machine.phasesBuilt r) && decide (reason.val ≠ 0)
  | .imageItem it => Machine.ImageItem.wellFormed it
  | _ => true

end Sys2Proof
end

