-- ==== Sys2Proof/Safety.lean ====
section
/-! DEFINITION. What counts as a sound state and a safe step, in the terms the statements use. -/

namespace Sys2Proof

/-- The commands that can change a byte of a memory bank: operations of a bank and what carries them out, repairs and
rewrites of bank words, and what can end with a region's banks zeroed or without power. -/
def Instr.reachesBanks (i : Instr) : Bool :=
  match i with
  | .vinLockoutRise .. | .vinLockoutFall .. | .porstNLow .. | .imageHeaderRead .. | .loadZeroingDone ..
  | .imageItem .. | .imageLastByte .. | .flashFailure .. | .safeEntryComplete .. | .vinLow .. | .vinHigh ..
  | .safeNLow .. | .baseStateUe .. | .lockstepMismatch .. | .autoRestart .. | .chipWatchdogExpire ..
  | .regionWatchdogExpire .. | .liftContention .. | .handoverEnd .. | .bankRead .. | .bankWrite ..
  | .bankMaskedWrite .. | .bankAdd32 .. | .bankAdd64 .. | .bankSwap64 .. | .rowRemapDone .. | .bankCopyDone ..
  | .token .. | .read1 .. | .read4 .. | .read16 .. | .write1 .. | .write4 .. | .write16 .. | .add32 .. | .add64 ..
  | .swap64 .. | .enqueue .. | .regrd .. | .regwr .. | .sdata .. | .smark .. | .drainComplete .. | .writeBack ..
  | .poisonRewrite .. | .data .. | .holdLimit .. | .retireWalkPage .. | .partialLoadTake ..
  | .partialLoadComplete .. | .steepVisit .. | .bistTestEnd .. | .ageMeasure .. | .sourceWindow ..
  | .sourceNoEdge .. | .pllLockLoss .. | .holdoverEnd .. | .wakeZeroingDone .. | .powerDownWaitEnd ..
  | .phaseFailure .. | .tempSample .. | .configWordUeAtUse .. | .startPllTimeout .. | .analogCheckEnd .. => true
  | _ => false

/-- The commands that can change the chip state (02 R41): the pins, chip doubt, what can raise it, loading and START, and
the accesses that can carry a RELOAD or bring about one of these. -/
def Instr.reachesChipState (i : Instr) : Bool :=
  match i with
  | .vinLockoutRise .. | .vinLockoutFall .. | .porstNLow .. | .porToLoad .. | .imageHeaderRead .. | .imageItem ..
  | .imageLastByte .. | .flashFailure .. | .enginesReleased .. | .safeEntryComplete .. | .reload .. | .vinLow ..
  | .vinHigh .. | .safeNLow .. | .baseStateUe .. | .lockstepMismatch .. | .autoRestart .. | .chipWatchdogExpire ..
  | .registerWrite .. | .sld .. | .sst .. | .token .. | .read1 .. | .read4 .. | .read16 .. | .write1 ..
  | .write4 .. | .write16 .. | .add32 .. | .add64 .. | .swap64 .. | .enqueue .. | .regrd .. | .regwr .. | .sdata ..
  | .smark .. | .data .. | .mgmtRead .. | .mgmtWrite .. | .holdLimit .. | .retireWalkPage .. | .sourceWindow ..
  | .sourceNoEdge .. | .pllLockLoss .. | .holdoverEnd .. | .phaseFailure .. | .tempSample .. | .serviceFrame ..
  | .serviceFrameShort .. | .testPortAccess .. | .startPllTimeout .. | .analogCheckEnd .. => true
  | _ => false

end Sys2Proof

namespace Sys2Proof.Machine

/-- The memories of the banks and the register file are in canonical form: keys rising, nothing listed that an unlisted
key reads as. -/
def State.Canonical (s : State) : Prop := Memory.wf s.bankMem = true ∧ Tbl.wf 0 s.regs = true

/-- The lands are driven in START and RUN only, HLTH is high in RUN only (02 R41, R53). -/
def State.OutputsSound (s : State) : Prop :=
  (s.chip.outputs = true → s.chip.state = .start ∨ s.chip.state = .run) ∧ (s.chip.hlth = true → s.chip.state = .run)

/-- What every step keeps. -/
def State.Inv (s : State) : Prop := s.Canonical ∧ s.OutputsSound

/-- An outcome that is a next state. -/
def Answers (o : Host.Outcome State Fault Refusal) : Prop := ∃ t, o = .next t

/-- Command `c` in state `s` completes, in a next state with `P`. -/
def Gives (c : Instr) (s : State) (P : State → Prop) : Prop := ∃ t, exec c s = .next t ∧ P t

/-- Bank port `b` of region `n` is served by physical bank `p`: the region is ACTIVE and the bank's owner the fabric, no
handover runs, a response has room, the bank's gate is not closed, no injection is armed, and no copy mirrors a bank
(07 R189, R191, R193, R207; 05 R159; 19 R560; 13 R406). -/
def State.FabricServed (s : State) (n b p : Nat) : Prop :=
  b < 48 ∧ p < 50 ∧ (s.region n).state = .active ∧ s.rd (MEM_BANK_OWN_OWNER n b) = 1 ∧ s.rd (MEM_BANK_OWN_BUSY n b) = 0 ∧
    s.rd (MEM_BANK_OWN_PHYS n b) = p ∧ ((s.region n).fab.ports.get [] b).length < 16 ∧ s.gateOf (unitId n 3 p) ≠ 2 ∧
    (s.region n).ecc.inj = none ∧ s.rd (MEM_COPY_STATE n) ≠ 2

/-- Where word `w` of physical bank `p` lies, by the row map (07 R206). -/
def State.bankAt (s : State) (n p w : Nat) : Nat := bankWord n p ((s.region n).bankRow p w)

/-- Port `b` has received the response, and every byte of the banks outside word `a` reads as before. -/
def State.PortFrame (s t : State) (n b a : Nat) (r : PortRsp) : Prop :=
  (t.region n).fab.ports.get [] b = (s.region n).fab.ports.get [] b ++ [r] ∧
    (∀ k, k < a * 16 ∨ a * 16 + 16 ≤ k → Memory.readByte t.bankMem k = Memory.readByte s.bankMem k) ∧ t.log = s.log ∧ t.chip = s.chip

/-! ### One instruction of an engine (08 R227 to R231, R271) -/

/-- The registers the next instruction sees as sources, pointers, flags and in moves: everything that has landed for it
(R228). -/
def Engine.sees (g : Engine) : RegSet := (g.commit g.idx).cur

/-- The registers it sees as accumulator inputs, with the results of the instruction before it (R228). -/
def Engine.inputs (g : Engine) : RegSet := (g.commit g.idx).accView g.idx

/-- One register set with every result that is under way landed. -/
def Engine.settled (g : Engine) (shadow : Bool) : RegSet :=
  (g.pend.filter fun w => w.shadow == shadow).foldl (fun r w => r.land w) (if shadow then g.shad else g.main)

/-- The set in use, settled. -/
def Engine.final (g : Engine) : RegSet := g.settled g.sh

/-- The results under way stand in the order they land in, none later than two cycles after the last instruction's
successor, and nothing is tagged as poisoned (R228, R236). -/
def Engine.Timely (g : Engine) : Prop :=
  (∀ w ∈ g.pend, w.land ≤ g.idx + 2 ∧ w.tag ≠ some true) ∧ g.pend.Pairwise (fun a b => landBefore a b = true) ∧
    g.main.tag = [] ∧ g.shad.tag = []

/-- An engine that can issue: in RUN, no request under way, not being paged, no word of its memories in error or
poisoned. -/
def State.EngineReady (s : State) (g : EngId) : Prop :=
  (s.eng g).state = .run ∧ (s.eng g).outst = [] ∧ (s.eng g).sys = [] ∧ (s.eng g).paging = none ∧
    (s.eng g).failed = false ∧ (s.eng g).syn = [] ∧ (s.eng g).psn = [] ∧ (s.eng g).Timely

/-- It is in no delay slot and in no loop. -/
def State.EngineFree (s : State) (g : EngId) : Prop :=
  s.EngineReady g ∧ (s.eng g).xfer = none ∧ bitOf ((s.eng g).sees.reg 0x33) 9 = false

/-- The register that counts an engine's instructions. -/
def issueCount : EngId → Fld
  | .rgn n e => ENG_CNT_ISSUE_COUNT n e
  | .sup => SUP_CNT_ISSUE_COUNT

/-- One instruction has issued on `g`, the next is at `next`; of its registers only those of `chg` and of its memory
words only those of `mems` may differ, and so of everything else only what the command's statement names. -/
def State.EngineStep (s t : State) (g : EngId) (next : Nat) (chg mems : List Nat) : Prop :=
  (t.eng g).state = .run ∧ (t.eng g).sh = (s.eng g).sh ∧ (t.eng g).idx = (s.eng g).idx + 1 ∧ (t.eng g).cur.pc = next ∧
    (t.eng g).Timely ∧ (0x34 ∈ chg ∨ (t.eng g).tmr = (s.eng g).tmr - 1) ∧
    (∀ b c, ¬(b = (s.eng g).sh ∧ c ∈ chg) → ((t.eng g).settled b).reg c = ((s.eng g).settled b).reg c) ∧
    (∀ k, k ∉ mems → (t.eng g).mem.get 0 k = (s.eng g).mem.get 0 k) ∧ (t.eng g).psn = [] ∧
    (∀ h, h ≠ g → t.eng h = s.eng h) ∧ (∀ k, k ≠ (issueCount g).key → t.regs.get 0 k = s.regs.get 0 k) ∧
    t.bankMem = s.bankMem ∧ t.log = s.log ∧ t.chip = s.chip ∧ t.evt = s.evt

/-- The address after the instruction. -/
def State.nextPc (s : State) (g : EngId) : Nat := ((s.eng g).cur.pc + 1) % 4096

/-- An instruction that is no transfer and makes no request. -/
def State.EngineOp (s t : State) (g : EngId) (chg mems : List Nat) : Prop :=
  s.EngineStep t g (s.nextPc g) chg mems ∧ (t.eng g).xfer = none ∧ (t.eng g).outst = [] ∧ (t.eng g).sys = []

/-- Accumulator Ad is to hold `o`: the next instruction has it as accumulator input, its transfers still the old value
(R228). -/
def State.AccIs (s t : State) (g : EngId) (d : Bool) (o : AccOut) : Prop :=
  (t.eng g).inputs.reg (4 + b2n d) % 2 ^ 56 = o.acc % 2 ^ 56 ∧ (t.eng g).sees.reg (4 + b2n d) = (s.eng g).final.reg (4 + b2n d)

/-- SW is to hold the flags of `f` that its group sets, SAT also where it was set, the other bits as they were (R216,
R257). -/
def State.FlagsAre (s t : State) (g : EngId) (f : FlagOut) : Prop :=
  ∀ i < 16, bitOf ((t.eng g).final.reg 0x33) i =
    if bitOf f.mask i then bitOf f.val i else (decide (i = 7) && f.sat) || bitOf ((s.eng g).final.reg 0x33) i

/-- Command `c` completes as an instruction with result `o` in Ad and its flags. -/
def GivesAcc (c : Instr) (s : State) (g : EngId) (d : Bool) (o : AccOut) : Prop :=
  Gives c s fun t => s.EngineOp t g [4 + b2n d, 0x33] [] ∧ s.AccIs t g d o ∧ s.FlagsAre t g o.flags

/-- Command `c` completes as an instruction that does nothing. -/
def GivesNop (c : Instr) (s : State) (g : EngId) : Prop := Gives c s fun t => s.EngineOp t g [] []

/-- Register code `c` is to hold `v`, cut as its register wants (R266, R267). -/
def Engine.CodeIs (e e' : Engine) (c v : Nat) : Prop :=
  let old := fun r => e.final.reg r
  let new := fun r => e'.final.reg r
  let acc := 4 + (c - 6) / 3
  (c < 4 → new c % 2 ^ 24 = v % 2 ^ 24) ∧
  (c = 4 ∨ c = 5 → new c % 2 ^ 56 = wordToAcc v) ∧
  (c = 0x06 ∨ c = 0x09 → bitsOf (new acc) 55 48 = v % 2 ^ 8 ∧ bitsOf (new acc) 47 0 = bitsOf (old acc) 47 0) ∧
  (c = 0x07 ∨ c = 0x0A → bitsOf (new acc) 47 24 = v % 2 ^ 24 ∧ bitsOf (new acc) 55 48 = bitsOf (old acc) 55 48 ∧
    bitsOf (new acc) 23 0 = bitsOf (old acc) 23 0) ∧
  (c = 0x08 ∨ c = 0x0B → bitsOf (new acc) 23 0 = v % 2 ^ 24 ∧ bitsOf (new acc) 55 24 = bitsOf (old acc) 55 24) ∧
  (0x10 ≤ c ∧ c < 0x20 → new c % 2 ^ 14 = v % 2 ^ 14) ∧
  (0x20 ≤ c ∧ c < 0x28 → new c % 2 ^ 15 = Nat.min (v % 2 ^ 15) 16384) ∧
  (0x28 ≤ c ∧ c < 0x30 → new c % 2 ^ 15 = v % 2 ^ 15) ∧
  (c = 0x30 → new c % 2 ^ 16 = v % 2 ^ 16) ∧
  (c = 0x31 ∨ c = 0x32 → new c % 2 ^ 12 = v % 2 ^ 12) ∧
  (c = 0x33 → ∀ i < 16, bitOf (new c) i = if i < 5 ∨ i = 7 ∨ i = 8 ∨ i = 9 ∨ i = 13 then bitOf v i else bitOf (old c) i) ∧
  (c = 0x34 → e'.tmr = v % 2 ^ 24 - 1) ∧
  (c = 0x35 → new c = v % 2 ^ 12)

/-! ### Requests and answers of the network (12 R356, R363, R372) -/

/-- The queue in which an answer of NI `i` to NI `dst` leaves. -/
def State.replyKey (s : State) (i dst : Nat) : Nat :=
  queueKey (s.niAt i) (niInPort i (s.ni i).bypass) 1 (bitOf ((s.ni i).sel.get 0 (b2n s.epoch * 128 + dst)) 0)

/-- NI `i` has a route to NI `dst`, and its router works. -/
def State.canReply (s : State) (i dst : Nat) : Bool :=
  entryValid ((s.ni i).routes.get 0
    (b2n s.epoch * 256 + b2n (bitOf ((s.ni i).sel.get 0 (b2n s.epoch * 128 + dst)) 0) * 128 + dst)) && !s.routerFaulted (s.niAt i)

/-- NI `i` has taken request `p` and answered it once with `status` and `data`; no other queue has changed. -/
def State.Replied (s t : State) (i : Nat) (p : Packet) (status : Nat) (data : List Line) : Prop :=
  (t.ni i).inbox = (s.ni i).inbox.erase p ∧
    (∀ k, k ≠ s.replyKey i p.src → t.net.queues.get [] k = s.net.queues.get [] k) ∧
    ∃ r, t.net.queues.get [] (s.replyKey i p.src) = s.net.queues.get [] (s.replyKey i p.src) ++ [r] ∧ r.opc = 0x30 ∧ r.typ = 1 ∧
      r.status = status ∧ r.src = i ∧ r.tid = p.tid ∧ r.data = data

/-- The oldest request at the NI of region `n` is `p`, and the NI is open: the region ACTIVE, no drain, no gate (R372). -/
def State.NiOpen (s : State) (n : Nat) (p : Packet) : Prop :=
  (s.region n).state = .active ∧ (s.ni n).drain = false ∧ s.gateOf (unitId n 4 0) = 0 ∧ s.oldestRequest n p.opc = some p ∧
    s.canReply n p.src = true

/-- `p` addresses words `w` to `w + k - 1` of a bank whose owner the network is, with nothing that hinders the access
(R358; 07 R189, R191), all with valid codes, each in a word of its own of physical bank `q`. -/
def State.NetBank (s : State) (n q k : Nat) (p : Packet) : Prop :=
  let b := bitsOf p.addr 23 18
  let w := bitsOf p.addr 17 4
  p.addr < 2 ^ 24 ∧ p.addr % 16 = 0 ∧ b < 48 ∧ w + k ≤ 16384 ∧ s.netOwns n b p.src = true ∧ s.rd (MEM_BANK_OWN_BUSY n b) = 0 ∧
    s.rd (MEM_BANK_OWN_PHYS n b) = q ∧ q < 50 ∧ s.gateOf (unitId n 3 q) = 0 ∧ (s.region n).ecc.inj = none ∧ s.rd (MEM_COPY_STATE n) ≠ 2 ∧
    (∀ i < k, s.bankSyn.get 0 (s.bankAt n q (w + i)) = 0) ∧
    ∀ i < k, ∀ j < k, s.bankAt n q (w + i) = s.bankAt n q (w + j) → i = j

end Sys2Proof.Machine
end

