-- ==== Sys2Proof/Certificates/Slice0/Obligations.lean ====
section
/-! DEFINITION. The statements for the provers. -/

open Sys2Proof Sys2Proof.Machine

/-- O1 (95_what_each_step_holds.md). For every state s, command c and list of commands rest: step of s with c :: rest
as its queue is exec of c on s with rest as its queue. The queue is the model's form of a block that takes commands
first in, first out (the instructions of this task; log entry 3). -/
def Obligations.StepRunsTheFrontCommand : Prop :=
  ∀ (s : State) (c : Instr) (rest : List Instr),
    step { s with pending := c :: rest } = exec c { s with pending := rest }

/-- O2 (R70). For every state whose queue is empty, step answers the state after one timebase cycle: the cycle count
is one more and the queue stays empty. That a step on an empty queue is one cycle of the 1.5 GHz timebase clock is the
model's choice (log entry 3). -/
def Obligations.AnEmptyQueueLetsOneTimebaseCyclePass : Prop :=
  ∀ s : State, s.pending = [] → step s = .next s.tickTimebase ∧ s.tickTimebase.cyc = s.cyc + 1 ∧ s.tickTimebase.pending = []

/-- O3 (95_what_each_step_holds.md). For every command and state: a well-formed command answers a next state; a
command that is not well-formed is refused as such; no command ever faults. The table's rows are steps each whole and
indivisible, and none of them stops the part. -/
def Obligations.EveryWellFormedCommandCompletes : Prop :=
  ∀ (c : Instr) (s : State),
    (c.wellFormed = true → Answers (exec c s)) ∧
    (c.wellFormed = false → ∃ m, exec c s = .refused (.illFormed m)) ∧ ∀ r, exec c s ≠ .fault r

/-- O4 (R41, R43, R13). State.reset meets the invariant of Safety: the bank memories and the register file are in
canonical form, no land is driven and HLTH is low. -/
def Obligations.ResetStateIsSound : Prop :=
  State.reset.Inv

/-- O5 (R41, R53, 02_safe_state.md). For every state s that meets the invariant of Safety, if step answers next t,
then t meets it: the bank memories keep their canonical form (keys strictly rising, no byte listed that an unlisted
byte reads as), so does the register file, outputs are enabled in START and RUN only, and HLTH is driven high in RUN
only. -/
def Obligations.EveryStepKeepsTheInvariant : Prop :=
  ∀ s t : State, s.Inv → step s = .next t → t.Inv

/-- O6 (95_what_each_step_holds.md). For every command c and sound state s, if exec of c on s answers next t, then the
queue of t is the queue of s. -/
def Obligations.CommandsLeaveTheQueueAlone : Prop :=
  ∀ (c : Instr) (s t : State), s.Inv → exec c s = .next t → t.pending = s.pending

/-- O7 (R200, R205, R393, R395, R399). Frame of all other commands over the memory tier: for every command c that is
not one of those Instr.reachesBanks lists (bank operations, network requests and what can carry them out, repairs and
rewrites of bank words, and what can end with banks zeroed or without power) and every sound state s, if exec of c
answers next t, then every byte of the banks, spare rows included, reads in t as it read in s. -/
def Obligations.OnlyBankCommandsReachBankBytes : Prop :=
  ∀ (c : Instr) (s t : State), c.reachesBanks = false → s.Inv → exec c s = .next t →
    ∀ a : Nat, Memory.readByte t.bankMem a = Memory.readByte s.bankMem a

/-- O8 (R41, R42, R47, R49, R667). For every command c that is not one of those Instr.reachesChipState lists (supply,
reset and SAFE pins, chip doubt conditions and what can raise one, the steps of loading and START, and accesses of
registers that can carry RELOAD or restrict an operation that can raise a doubt) and every sound state s, if exec of c
answers next t, then the chip state of t is that of s. -/
def Obligations.OnlyTheseCommandsChangeTheChipState : Prop :=
  ∀ (c : Instr) (s t : State), c.reachesChipState = false → s.Inv → exec c s = .next t → t.chip.state = s.chip.state

/-- O9 (R42, R43, R60, R13). VIN rising above lockout takes the chip from OFF to POR and TIME begins at 0; PORST_N low
takes every powered state to POR; both leave every register field at its Reset value (SUP_LOCK apart) and no land
driven. VIN falling below lockout takes every state to OFF with an empty event log and no land driven. With FIO0 or
FIO1 ready the chip leaves POR for LOAD, no land driven. In any other state each of the four leaves everything as it
is. -/
def Obligations.SupplyAndResetPinsMoveTheChip : Prop :=
  (∀ s : State, s.chip.state = .off → Gives .vinLockoutRise s fun t =>
    t.chip.state = .por ∧ t.chip.outputs = false ∧ t.chip.hlth = false ∧
      ∀ f : Fld, f.key ∉ [SUP_LOCK_VALID.key, SUP_LOCK_WHERE.key, SUP_LOCK_PC.key] → t.rd f = State.reset.rd f) ∧
  (∀ s : State, s.chip.state ≠ .off → exec .vinLockoutRise s = .next s) ∧
  (∀ s : State, s.chip.state ≠ .off → s.chip.state ≠ .por → Gives .porstNLow s fun t =>
    t.chip.state = .por ∧ t.chip.outputs = false ∧ t.chip.hlth = false ∧
      ∀ f : Fld, f.key ∉ [SUP_LOCK_VALID.key, SUP_LOCK_WHERE.key, SUP_LOCK_PC.key] → t.rd f = State.reset.rd f) ∧
  (∀ s : State, s.chip.state = .off ∨ s.chip.state = .por → exec .porstNLow s = .next s) ∧
  (∀ s : State, s.chip.state ≠ .off → Gives .vinLockoutFall s fun t =>
    t.chip.state = .off ∧ t.chip.outputs = false ∧ t.chip.hlth = false ∧ t.log = {} ∧ t.bankMem = []) ∧
  (∀ s : State, s.chip.state = .off → exec .vinLockoutFall s = .next s) ∧
  (∀ s : State, s.chip.state = .por → (s.srcReady 0 || s.srcReady 1) = true → Gives .porToLoad s fun t =>
    t.chip.state = .load ∧ t.chip.outputs = false ∧ t.chip.hlth = false) ∧
  (∀ s : State, s.chip.state ≠ .por ∨ (s.srcReady 0 || s.srcReady 1) = false → exec .porToLoad s = .next s)

/-- O10 (R47, R49, R53, R61, R246). In a sound state in LOAD, START or RUN each of the chip doubt conditions base-tier
state lost (0x01), VIN_LOW (0x03), VIN_HIGH (0x04), supervisor lockstep mismatch (0x07), SAFE_N (0x08) and the expired
chip watchdog (0x0A) enters SAFE: the state left is kept for the record, the cause is this stay's, and no land and not
HLTH is driven. In OFF, POR and HALT those of the pins and of base-tier state change nothing. A watchdog that has not
expired, and a mismatch of a pair that does not run, change nothing. -/
def Obligations.ChipDoubtEntersSafe : Prop :=
  ∀ s : State,
    (∀ (c : Instr) (k : Nat),
      (c = .vinLow ∧ k = 0x03 ∨ c = .vinHigh ∧ k = 0x04 ∨ c = .safeNLow ∧ k = 0x08 ∨ c = .baseStateUe ∧ k = 0x01 ∨
        (∃ w, c = .lockstepMismatch w) ∧ k = 0x07 ∧ s.supRuns = true ∨
        c = .chipWatchdogExpire ∧ k = 0x0A ∧ s.wdCounts = true ∧ s.chip.wdStart + s.rd SYS_WDOG_PERIOD * msCycles ≤ s.cyc) →
      s.Inv → s.chip.state = .load ∨ s.chip.state = .start ∨ s.chip.state = .run → Gives c s fun t =>
        t.chip.state = .safe ∧ t.chip.entering = true ∧ t.chip.entryOld = s.chip.state ∧ t.chip.stayMask = 2 ^ k ∧
          t.chip.outputs = false ∧ t.chip.hlth = false ∧ t.chip.haltPending = haltAfter k) ∧
    (∀ c : Instr, c = .vinLow ∨ c = .vinHigh ∨ c = .safeNLow ∨ c = .baseStateUe →
      s.chip.state = .off ∨ s.chip.state = .por ∨ s.chip.state = .halt → exec c s = .next s) ∧
    (∀ w, s.supRuns = false → exec (.lockstepMismatch w) s = .next s) ∧
    (s.wdCounts = false ∨ s.cyc < s.chip.wdStart + s.rd SYS_WDOG_PERIOD * msCycles → exec .chipWatchdogExpire s = .next s)

/-- O11 (R497, R498, R506, R507, R509, R69). In LOAD: the entry empties every mailbox slot and opens phase 1, leaving
chip state, regions, banks and journal records alone; of the two boot-record copies the valid one with the higher SEQ
(the first when equal) gives PRIMARY, GOLDEN, JRNLA, JRNLB and JSECT, and with no valid copy the defaults stand,
DEFBOOT is set and CFG_BOOT 0x1106 logged; a header that passes every check is kept with the address of its attempt,
one that fails a check fails the attempt with that code; 100 ms after attempt 1 failed attempt 2 begins. -/
def Obligations.LoaderReadsTheBootRecordAndTheHeader : Prop :=
  (∀ s : State, s.chip.state = .load → s.rd CFG_STATUS_PHASE = 0 → Gives .loadEntry s fun t =>
    t.rd CFG_STATUS_PHASE = 1 ∧ t.mbx = { s.mbx with slots := [], opens := [] } ∧
      t.jrn = { s.jrn with badA := false, badB := false } ∧ t.chip = s.chip ∧ t.regions = s.regions ∧ t.bankMem = s.bankMem) ∧
  (∀ (s : State) (a b x : BitVec 1024), s.chip.state = .load → s.rd CFG_STATUS_PHASE = 1 →
    (x = a ∧ bootValid a.toNat = true ∧ (bootValid b.toNat = true → bootSeq b.toNat ≤ bootSeq a.toNat) ∨
      x = b ∧ bootValid b.toNat = true ∧ (bootValid a.toNat = true → bootSeq a.toNat < bootSeq b.toNat)) →
    exec (.bootRecordRead a b) s = .next { s with
      regs := (s.regs.put 0 CFG_STATUS_OCTAL.key (bitsOf x.toNat 192 192)).put 0 CFG_STATUS_PHASE.key 2
      ldr := { s.ldr with
        primary := bitsOf x.toNat 95 64, golden := bitsOf x.toNat 127 96
        jrnA := bitsOf x.toNat 159 128, jrnB := bitsOf x.toNat 191 160, jsect := bitsOf x.toNat 215 208 } }) ∧
  (∀ (s : State) (a b : BitVec 1024), s.chip.state = .load → s.rd CFG_STATUS_PHASE = 1 →
    bootValid a.toNat = false → bootValid b.toNat = false →
    exec (.bootRecordRead a b) s = .next ((((s.wr CFG_STATUS_DEFBOOT 1).logEv 0x1106 1 4 unitCfg 0).modLdr fun l => { l with
      primary := 0x00100000, golden := 0x0C000000, jrnA := 0x00020000, jrnB := 0x00030000, jsect := 16 }).wr CFG_STATUS_PHASE 2)) ∧
  (∀ (s : State) (h : BitVec 2048) (u : Bool), s.attemptRuns = true → s.rd CFG_STATUS_PHASE = 2 →
    s.headerCode false s.attemptAddr h.toNat u = 0 → exec (.imageHeaderRead h u) s =
      .next ((s.modLdr fun l => { l with hdr := headerOf s.attemptAddr h.toNat }).wr CFG_STATUS_PHASE 3)) ∧
  (∀ (s : State) (h : BitVec 2048) (u : Bool) (c : Nat), s.attemptRuns = true → s.rd CFG_STATUS_PHASE = 2 →
    s.headerCode false s.attemptAddr h.toNat u = c + 1 → exec (.imageHeaderRead h u) s = .next (s.failAttempt (c + 1) s.attemptAddr)) ∧
  (∀ s : State, s.chip.state = .load → s.ldr.failed.isSome = true → exec .primaryRetry s =
    .next (((s.modLdr fun l => { l with failed := none }).wr CFG_STATUS_ATTEMPT 2).wr CFG_STATUS_PHASE 2))

/-- O12 (R495, R500, R506, R507, R519). In an attempt: with no valid sector the journal is empty and unopened, no
repair applies; after the zeroing the regions the image names have been through LOADING and items are taken; an item
that passes its checks has written what it holds, a group whose CRC differs from its index entry fails the attempt
with code 11; an item whose stored length is not that of its index entry is refused as ill-formed; a flash failure
takes the boot defaults in phase 1 and fails the attempt with code 1 later. While no image is read items change
nothing. -/
def Obligations.LoaderTakesTheJournalAndTheItems : Prop :=
  (∀ (s : State) (a b : FlashSector), s.attemptRuns = true → s.rd CFG_STATUS_PHASE = 3 → s.ldr.journalDone = false →
    sectorValid a = false → sectorValid b = false → Gives (.journalRead a b) s fun t =>
      t.ldr = { s.ldr with journalDone := true } ∧ t.jrn.recs = [] ∧ t.jrn.open_ = false ∧ t.jrn.number = 0 ∧
        t.rd CFG_JSEQ_SEQ = 0 ∧ t.rd CFG_JRNL_BAD = 0 ∧ t.chip = s.chip) ∧
  (∀ s : State, s.attemptRuns = true → s.rd CFG_STATUS_PHASE = 3 → s.ldr.journalDone = true →
    exec .loadZeroingDone s = .next (((List.range 64).foldl (fun s n =>
      if s.ldr.hdr.fills n then s.loadRegion n
      else if (s.region n).state = .loading then s.emptyRegion n
      else s) s).wr CFG_STATUS_PHASE 4)) ∧
  (∀ (s : State) (pos : Fin 36864) (x : Line) (l : List Byte) (p : Option (List Byte)) (t : State),
    s.streaming = true → l.length = bitsOf x.toNat 63 40 → pos.val < groupCount s.ldr.hdr.isPartial s.ldr.hdr.ctx →
    s.loadGroup pos x.toNat l p = (0, t) → exec (.imageItem (.group pos x l p)) s = .next t) ∧
  (∀ (s : State) (pos : Fin 36864) (x : Line) (l : List Byte) (p : Option (List Byte)),
    s.streaming = true → s.chip.state = .load → s.ldr.hdr.isPartial = false → l.length = bitsOf x.toNat 63 40 →
    pos.val < groupCount false s.ldr.hdr.ctx →
    (bitsOf x.toNat 31 26, bitsOf x.toNat 25 23, bitsOf x.toNat 22 16) = s.ldr.hdr.place pos →
    l = [] → crc32c.value [] ≠ bitsOf x.toNat 127 96 →
    exec (.imageItem (.group pos x l p)) s = .next (s.failAttempt 11 (s.ldr.hdr.addr + bitsOf x.toNat 95 64))) ∧
  (∀ (s : State) (k : Fin 12) (l : List Byte) (p : Option (List Byte)) (w : List Bool) (t : State),
    s.streaming = true → (s.ldr.hdr.sects.getD k (0, 0)).2 = l.length → l ≠ [] → s.loadSection k l p w = (0, t) →
    exec (.imageItem (.sect k l p w)) s = .next t) ∧
  (∀ (s : State) (pos : Fin 36864) (x : Line) (l : List Byte) (p : Option (List Byte)), l.length ≠ bitsOf x.toNat 63 40 →
    exec (.imageItem (.group pos x l p)) s = .refused (.illFormed "IMAGE_ITEM")) ∧
  (∀ (s : State) (k : Fin 12) (l : List Byte) (p : Option (List Byte)) (w : List Bool), s.streaming = false →
    exec (.imageItem (.sect k l p w)) s = .next s) ∧
  (∀ s : State, s.chip.state = .load → s.rd CFG_STATUS_PHASE = 1 → exec .flashFailure s = .next s.bootDefaults) ∧
  (∀ s : State, s.attemptRuns = true → exec .flashFailure s = .next (s.failAttempt 1 s.attemptAddr))

/-- O13 (R506, R509, R510, R511, R53). In a sound state: when the last image byte has been read and IMGCRC and the
signature pass, the chip enters START with no land driven and GOLDEN as the attempt has it; when either fails the
attempt fails with code 15 or 16. A failure of attempt 2 puts the chip in HALT with no land driven, one of attempt 0
goes on with attempt 1 where a golden image is named. In START a trained channel is READY; once training, the PLLs and
the region wakes are done and the engines are released, the chip is in RUN with lands and HLTH driven. -/
def Obligations.LoadingEndsInStartAndRun : Prop :=
  ∀ s : State, s.Inv →
    (s.streaming = true → s.chip.state = .load → Gives (.imageLastByte true true) s fun t =>
      t.chip.state = .start ∧ t.chip.golden = (s.rd CFG_STATUS_ATTEMPT == 1) ∧ t.chip.outputs = false ∧ t.chip.hlth = false) ∧
    (∀ sig, s.streaming = true → s.chip.state = .load →
      exec (.imageLastByte false sig) s = .next (s.failAttempt 15 s.ldr.hdr.addr)) ∧
    (s.streaming = true → s.chip.state = .load → bitOf s.ldr.hdr.flags 0 = true → exec (.imageLastByte true false) s =
      .next (s.failAttempt 16 (s.ldr.hdr.addr + (s.ldr.hdr.sects.getD 10 (0, 0)).1))) ∧
    (∀ code addr, s.rd CFG_STATUS_ATTEMPT = 2 → (s.failAttempt code addr).chip.state = .halt ∧
      (s.failAttempt code addr).chip.outputs = false ∧ (s.failAttempt code addr).chip.hlth = false) ∧
    (∀ code addr, s.rd CFG_STATUS_ATTEMPT = 0 → s.ldr.golden ≠ 0xFFFFFFFF →
      (s.failAttempt code addr).rd CFG_STATUS_ATTEMPT = 1 ∧ (s.failAttempt code addr).rd CFG_STATUS_PHASE = 2) ∧
    (∀ c : Fin 8, s.chip.state = .start → s.rd (XMC_CHSTAT_STATE c) = 1 →
      exec (.channelTrainingDone c true) s = .next (s.wr (XMC_CHSTAT_STATE c) 2) ∧
      exec (.channelTrainingDone c false) s = .next (s.channelDown c 1)) ∧
    (s.chip.state = .start → s.ldr.started ≠ 0 → s.kettle.startWakes = [] → s.kettle.moves = [] →
      (∀ c : Nat, c < 8 → s.rd (XMC_CHSTAT_STATE c) ≠ 1) → Gives .enginesReleased s fun t =>
        t.chip.state = .run ∧ t.chip.outputs = true ∧ t.chip.hlth = true ∧ t.chip.windows = true)

/-- O14 (R41, R42, R49, R589, R667). When the SAFE entry completes, the CHIP_STATE record is written with the state
left, the causes and the stamp of step 1; with a cause latched whose after-state is HALT the chip is in HALT, else
with a RELOAD held it is in LOAD, else it stays in SAFE. A write of RELOAD goes to LOAD, is held while the entry runs,
and is dropped in every other state, without bit 8, and when HALT is latched. In a HALT by TEMP alone with auto-
restart enabled and the hottest site below 80 °C the chip returns to POR, unless three restarts of the last hour have
been counted, when ARSTOFF is set. In HALT a reading of sites 192 to 195 changes the sensors' readings and the hottest
reading only. -/
def Obligations.SafeIsLeftByHaltReloadOrReset : Prop :=
  ∀ s : State,
    (s.chip.state = .safe → s.chip.entering = true → s.chip.haltPending = true → Gives .safeEntryComplete s fun t =>
      t.chip.state = .halt ∧ t.chip.haltMask = s.chip.stayMask ∧ t.chip.outputs = false ∧ t.bankMem = []) ∧
    (s.chip.state = .safe → s.chip.entering = true → s.chip.haltPending = false → s.chip.reloadHeld = true →
      Gives .safeEntryComplete s fun t => t.chip = { state := .load }) ∧
    (s.chip.state = .safe → s.chip.entering = true → s.chip.haltPending = false → s.chip.reloadHeld = false →
      exec .safeEntryComplete s = .next ((s.logRec (s.mkRec 0x0001 3 0 (unitBase 0)
        (s.chip.entryOld.code + 5 * 2 ^ 8 + s.chip.entryMask * 2 ^ 16) s.chip.entryStamp)).modChip fun c => { c with entering := false })) ∧
    (∀ acc v, bitOf v.toNat 8 = true → s.chip.state = .safe → s.chip.haltPending = false → s.chip.entering = false →
      Gives (.reload acc v) s fun t => t.chip = { state := .load }) ∧
    (∀ acc v, bitOf v.toNat 8 = true → s.chip.state = .safe → s.chip.haltPending = false → s.chip.entering = true →
      exec (.reload acc v) s = .next { s with rsp := ⟨0, 0⟩, chip := { s.chip with reloadHeld := true } }) ∧
    (∀ acc v, bitOf v.toNat 8 = false ∨ s.chip.state ≠ .safe ∨ s.chip.haltPending = true →
      exec (.reload acc v) s = .next { s with rsp := ⟨0, 0⟩ }) ∧
    (s.chip.state = .halt → tempOnly s.chip.haltMask = true → s.flag PWR_ARST_EN = true → s.kettle.haltHot < 640 →
      s.flag PWR_STATUS_ARSTOFF = false → s.restartsOfHour.length < 3 → Gives .autoRestart s fun t =>
        t.chip.state = .por ∧ t.kettle.restarts = s.cyc :: s.restartsOfHour) ∧
    (s.chip.state = .halt → tempOnly s.chip.haltMask = true → s.flag PWR_ARST_EN = true → s.kettle.haltHot < 640 →
      s.flag PWR_STATUS_ARSTOFF = false → 3 ≤ s.restartsOfHour.length → exec .autoRestart s = .next (s.raise PWR_STATUS_ARSTOFF)) ∧
    (∀ l, s.chip.state = .halt → Gives (.haltSensorRead l) s fun t =>
      t = { s with therm := { s.therm with raw := t.therm.raw }, kettle := { s.kettle with haltHot := t.kettle.haltHot } }) ∧
    (∀ l, s.chip.state ≠ .halt → exec (.haltSensorRead l) s = .next s)

/-- O15 (R40, R46, R61, R62, R529). A write of SYS_WDKICK with the key 0xC35A from firmware restarts the chip
watchdog; any other counts in BADKICK. At half of PERIOD WDWARN pends once per count. A write of RGN_WDKICK with the
key from firmware restarts the region's count, or clears the count held in TEST; any other counts in BADKICK. WDK
restarts the count of an ACTIVE region only. At PERIOD an ACTIVE region is fenced with cause RWATCHDOG 0x23, and not
before. In RUN a region that nothing keeps FENCED restarts; with three restarts in 10 s it is FENCED with cause LIMIT
until the next load, and the chip is degraded. -/
def Obligations.WatchdogsCountAndRestart : Prop :=
  ∀ s : State,
    (∀ v : Word, v.toNat % 65536 = 0xC35A → exec (.sysWdkick .firmware v) s =
      .next { s with rsp := ⟨0, 0⟩, chip := { s.chip with wdStart := s.cyc, wdWarned := false } }) ∧
    (∀ (a : Accessor) (v : Word), a ≠ .firmware ∨ v.toNat % 65536 ≠ 0xC35A → exec (.sysWdkick a v) s =
      .next (({ s with rsp := ⟨0, 0⟩ } : State).bump SYS_WDOG_BADKICK)) ∧
    (s.wdCounts = true → s.chip.wdWarned = false → s.chip.wdStart + s.rd SYS_WDOG_PERIOD / 2 * msCycles ≤ s.cyc →
      exec .wdwarn s = .next (({ s with chip := { s.chip with wdWarned := true } } : State).pendSrc .sup 7)) ∧
    (s.wdCounts = false ∨ s.chip.wdWarned = true ∨ s.cyc < s.chip.wdStart + s.rd SYS_WDOG_PERIOD / 2 * msCycles →
      exec .wdwarn s = .next s) ∧
    (∀ (n : Fin 64) (v : Word), v.toNat % 65536 = 0xC35A → exec (.rgnWdkick .firmware n v) s =
      .next (s.modRegion n fun r => if r.state = .test then { r with wdHeld := 0 } else { r with wdStart := s.cyc })) ∧
    (∀ (a : Accessor) (n : Fin 64) (v : Word), a ≠ .firmware ∨ v.toNat % 65536 ≠ 0xC35A →
      exec (.rgnWdkick a n v) s = .next (s.bump (RGN_WDOG_BADKICK n))) ∧
    (∀ n : Fin 64, exec (.wdk n) s =
      .next (if (s.region n).state = .active then s.modRegion n fun r => { r with wdStart := s.cyc } else s)) ∧
    (∀ n : Fin 64, (s.region n).state = .active → s.rd (RGN_WDOG_PERIOD n) ≠ 0 →
      (s.region n).wdStart + s.rd (RGN_WDOG_PERIOD n) * usCycles ≤ s.cyc → exec (.regionWatchdogExpire n) s = .next (s.fence n 0x23)) ∧
    (∀ n : Fin 64, (s.region n).state ≠ .active ∨ s.rd (RGN_WDOG_PERIOD n) = 0 ∨
      s.cyc < (s.region n).wdStart + s.rd (RGN_WDOG_PERIOD n) * usCycles → exec (.regionWatchdogExpire n) s = .next s) ∧
    (∀ n : Fin 64, s.chip.state = .run → s.restartReady n = true → (s.restartsNow n).length < 3 →
      exec (.regionRestart n) s = .next (s.restart n)) ∧
    (∀ n : Fin 64, s.chip.state = .run → s.restartReady n = true → 3 ≤ (s.restartsNow n).length →
      Gives (.regionRestart n) s fun t => (t.region n).state = .fenced ∧ (t.region n).cause = 0x25 ∧
        (t.region n).limit = true ∧ t.chip.degraded = true) ∧
    (∀ n : Fin 64, s.restartReady n = false → exec (.regionRestart n) s = .next s)

/-- O16 (R56, R58, R664, R665). A write of TAIL moves TAIL to the value when it lies within the unread records, else
to HEAD, and changes nothing else. A GO write of SYS_LOG_WCMD with a CODE from 0xF000 on writes that record with
class, status, unit and detail of its registers, with a lower CODE it sets REFUSED; CLR clears REFUSED. A millisecond
after the last LOG_LOST record one is written when records were given up since, and the count begins anew. A rate-
limited code whose millisecond has ended with occurrences held writes one record with their count and begins a new
millisecond. In a log whose HEAD is in the ring, with fewer than 1,023 unread records and none given up, writing a
record puts code, class, status, unit, DETAIL, SEQ, FLAGS, stamp and TIME at HEAD; HEAD and SEQ rise by 1 modulo 1,024
and 65,536, TAIL stays, one more record is unread and every other record of the ring stays as it is. With 1,023 unread
records TAIL moves past the oldest, so that 1,023 remain unread, and LOST counts it. -/
def Obligations.EventLogRecordsAndCommands : Prop :=
  ∀ s : State,
    (∀ (a : Accessor) (v : Word), exec (.logTailWrite a v) s = .next { s with
      rsp := ⟨0, 0⟩
      log := { s.log with tail :=
        if (v.toNat % 1024 + 1024 - s.log.tail) % 1024 ≤ s.log.unread then v.toNat % 1024 else s.log.head } }) ∧
    (∀ (a : Accessor) (v : Word), bitOf v.toNat 31 = true → bitOf v.toNat 30 = false → 0xF000 ≤ bitsOf v.toNat 15 0 →
      exec (.logWcmd a v) s = .next (({ s with rsp := ⟨0, 0⟩ } : State).logEv (bitsOf v.toNat 15 0) (bitsOf v.toNat 23 20)
        (bitsOf v.toNat 19 16) (s.rd SYS_LOG_WUNIT_UNIT) (s.rd SYS_LOG_WD0_DETAIL + s.rd SYS_LOG_WD1_DETAIL * 2 ^ 32))) ∧
    (∀ (a : Accessor) (v : Word), bitOf v.toNat 31 = true → bitsOf v.toNat 15 0 < 0xF000 → Gives (.logWcmd a v) s fun t =>
      t.rd SYS_LOG_WCMD_REFUSED = 1 ∧ t.log = s.log) ∧
    (∀ (a : Accessor) (v : Word), bitOf v.toNat 31 = false → bitOf v.toNat 30 = true →
      exec (.logWcmd a v) s = .next (({ s with rsp := ⟨0, 0⟩ } : State).wr SYS_LOG_WCMD_REFUSED 0)) ∧
    (∀ t0, s.log.lastLost = some t0 → 0 < s.log.given → t0 + msCycles ≤ s.cyc → Gives .logLost s fun t =>
      t.log.given = 0 ∧ t.log.lastLost = some s.cyc ∧ (t.log.recs.get {} s.log.head).code = 0x0004 ∧ t.log.seq = (s.log.seq + 1) % 65536) ∧
    (s.log.lastLost = none → exec .logLost s = .next s) ∧
    (∀ (c : BitVec 16) (u : BitVec 24) (l : RateLimit) (rest : List RateLimit), s.log.limits = l :: rest →
      l.code = c.toNat → l.scope = u.toNat → l.held ≠ 0 → l.last + msCycles ≤ s.cyc → Gives (.rateLimitFlush c u) s fun t =>
        t.log.limits.head? = some ⟨c.toNat, u.toNat, s.cyc, 0, l.record⟩ ∧
          (t.log.recs.get {} s.log.head).detail = (l.record.withCountAt l.held).detail ∧ t.chip = s.chip) ∧
    (∀ (c : BitVec 16) (u : BitVec 24), s.log.limits = [] → exec (.rateLimitFlush c u) s = .next s) ∧
    (∀ r : LogRec, s.log.head < 1024 → s.log.tail < 1024 →
    (s.log.unread < 1023 → s.log.given = 0 →
      (s.logRec r).log.recs.get {} s.log.head = { r with seq := s.log.seq } ∧ (s.logRec r).log.head = (s.log.head + 1) % 1024 ∧
        (s.logRec r).log.seq = (s.log.seq + 1) % 65536 ∧ (s.logRec r).log.tail = s.log.tail ∧
        (s.logRec r).log.unread = s.log.unread + 1 ∧
        ∀ k, k ≠ s.log.head → (s.logRec r).log.recs.get {} k = s.log.recs.get {} k) ∧
    (s.log.unread = 1023 →
      (s.logPut r).log.unread = 1023 ∧ (s.logPut r).log.tail = (s.log.tail + 1) % 1024 ∧
        (s.logPut r).log.recs.get {} s.log.head = { r with seq := s.log.seq } ∧
        (s.logPut r).log.given = s.log.given + 1 ∧
        (s.logPut r).rd SYS_LOG_STATUS_LOST = satAdd SYS_LOG_STATUS_LOST.width (s.rd SYS_LOG_STATUS_LOST) 1))

/-- O17 (R572, R574, R575, R576, R579, R581, R119). A GO write of PWR_REQ with no older request of that region queues
a point change for a region in ACTIVE or TEST, a wake for a DARK region with a VALID wake partial; a wake is otherwise
refused, a power-down of an ACTIVE region sets DOWN, of a region in TEST waits, otherwise it is refused. Without GO or
with another KIND each leaves the state alone. A DVFS occurrence that is still pending joins the queue at priority 2.
START wakes go first when the bucket can pay; then the first admissible request leaves the queue and its cost leaves
the bucket. A finished change puts the point in force and ends busy. -/
def Obligations.KettleTakesRequestsAndAdmitsThem : Prop :=
  ∀ s : State,
    (∀ (a : Accessor) (v : Word), reqGo v.toNat = true → reqKind v.toNat = 0 → bitsOf v.toNat 25 24 < 2 →
      (s.region (reqRegion v.toNat)).live = true → (∀ x ∈ s.kettle.queue, x.region ≠ reqRegion v.toNat) →
      exec (.pointChangeRequest a v) s = .next { s with kettle := { s.kettle with queue := s.kettle.queue ++
        [{ region := bitsOf v.toNat 5 0, kind := bitsOf v.toNat 25 24, point := bitsOf v.toNat 23 22, prio := reqPrio v.toNat, arrived := s.cyc }] } }) ∧
    (∀ (a : Accessor) (v : Word), reqGo v.toNat = false → exec (.pointChangeRequest a v) s = .next s ∧
      exec (.wakeRequest a v) s = .next s ∧ exec (.powerDownRequest a v) s = .next s) ∧
    (∀ (a : Accessor) (v : Word), reqGo v.toNat = true → reqKind v.toNat = 1 → s.flag (CFG_WAKE_VALID (reqRegion v.toNat)) = true →
      (s.region (reqRegion v.toNat)).state = .dark → (∀ x ∈ s.kettle.queue, x.region ≠ reqRegion v.toNat) →
      exec (.wakeRequest a v) s = .next { s with kettle := { s.kettle with queue := s.kettle.queue ++
        [{ region := bitsOf v.toNat 5 0, kind := 2, point := 0, prio := reqPrio v.toNat, arrived := s.cyc,
           part := s.rd (CFG_WAKE_PART (reqRegion v.toNat)), path := 2 }] } }) ∧
    (∀ (a : Accessor) (v : Word), reqGo v.toNat = true → reqKind v.toNat = 1 →
      s.flag (CFG_WAKE_VALID (reqRegion v.toNat)) = false ∨ (s.region (reqRegion v.toNat)).state ≠ .dark →
      exec (.wakeRequest a v) s = .next (s.raise PWR_STATUS_REFUSED)) ∧
    (∀ (a : Accessor) (v : Word), reqGo v.toNat = true → reqKind v.toNat = 2 → (s.region (reqRegion v.toNat)).state = .active →
      exec (.powerDownRequest a v) s = .next (s.takeDown (reqRegion v.toNat))) ∧
    (∀ (a : Accessor) (v : Word), reqGo v.toNat = true → reqKind v.toNat = 2 → (s.region (reqRegion v.toNat)).state = .test →
      s.kettle.downWait = [] → exec (.powerDownRequest a v) s =
        .next { s with kettle := { s.kettle with downWait := [reqRegion v.toNat] } }) ∧
    (∀ (a : Accessor) (v : Word), reqGo v.toNat = true → reqKind v.toNat = 2 → (s.region (reqRegion v.toNat)).live = false →
      exec (.powerDownRequest a v) s = .next (s.raise PWR_STATUS_REFUSED)) ∧
    (∀ (n : Fin 64) (a : Action) (l : List Action) (o : Occ), s.evt.inflight = a :: l → a.code = 4 → a.target % 64 = n.val →
      s.evt.pend = [o] → a.occ = some o.id → (s.region n).live = true → s.kettle.queue = [] → Gives (.dvfs n) s fun t =>
        t.evt.inflight = l ∧ t.evt.pend = [{ o with queued := true }] ∧ t.kettle.queue =
          [{ region := n, kind := if bitsOf a.param 9 8 = 2 then 4 else bitsOf a.param 9 8, point := a.param % 4, prio := 2,
             arrived := s.cyc, occ := a.occ }]) ∧
    (∀ (n : Nat) (l : List Nat), s.kettleRuns = true → s.kettle.startWakes = n :: l → s.rd PWR_KCOST_WAKE * 1500 ≤ s.creditNow →
      exec .kettleAdmit s = .next (((s.spend (s.rd PWR_KCOST_WAKE)).modKet fun k => { k with startWakes := l }).raiseInitial n)) ∧
    (∀ q : KReq, s.kettleRuns = true → s.kettle.startWakes = [] → s.admissible = some q →
      exec .kettleAdmit s = .next ((((s.spend (s.costOf q)).modKet fun k => { k with queue := k.queue.erase q }).admitted q).startRequest q)) ∧
    (s.kettleRuns = false → exec .kettleAdmit s = .next s) ∧
    (∀ (n : Fin 64) (p : Nat) (l : List PointMove), s.kettle.moves = ⟨n, 0, p⟩ :: l →
      exec (.pointChangeDone n 0) s = .next (({ s with kettle := { s.kettle with moves := l } } : State).wr (PWR_RGN_FPT n) p |>.wr (PWR_RGN_FBUSY n) 0)) ∧
    (∀ (n : Fin 64) (p : Nat) (l : List PointMove), s.kettle.moves = ⟨n, 1, p⟩ :: l →
      exec (.pointChangeDone n 1) s = .next (({ s with kettle := { s.kettle with moves := l } } : State).wr (PWR_RGN_EPT n) p |>.wr (PWR_RGN_EBUSY n) 0))

/-- O18 (R574, R576). Whatever request Kettle admits stands in its queue, is eligible (no domain of it busy, its
region not in TEST, no wake of a region whose power-down is under way) and costs no more than the bucket holds; if it
costs something, no eligible request goes before it in the order of priority, age, region and kind. -/
def Obligations.KettleAdmitsWhatTheBucketCanPay : Prop :=
  ∀ (s : State) (q : KReq), s.admissible = some q →
    q ∈ s.kettle.queue ∧ s.eligible q = true ∧ s.costOf q * 1500 ≤ s.creditNow ∧
      (s.costOf q ≠ 0 → ∀ x ∈ s.kettle.queue, s.eligible x = true → kettleBefore q x = true)

/-- O19 (R378, R567, R569, R579, R580, R581, R582). When a woken region is zeroed its wake ends and its partial waits
for the loader, marked woken for that region. The early-wake check does nothing while the matcher or the timebase
stands or is COLD. The end of the power-down wait starts the drain of an ACTIVE region with DOWN set; the complete
drain leaves the region DARK, logged with NOC_DRAIN 0x0C07. A measurement fills PWR_VIN and PWR_POWER and judges both
limits; PK rises by 1 up to 6 when a limit is reached, falls by 1 when both are below 95 %, else holds; the current
limit sets PK to 6, PCAP and ILIMIT and logs 0x1404. A failed phase of a powered rail is shed once. -/
def Obligations.WakePowerDownAndEnvelope : Prop :=
  ∀ s : State,
    (∀ (n : Fin 64) (w : Waking) (l : List Waking), s.kettle.wakes = w :: l → w.region = n.val → w.path ≠ 4 →
      Gives (.wakeZeroingDone n) s fun t => t.kettle.wakes = l ∧ t.ldr.waiting = s.ldr.waiting ++
        [{ part := w.part, path := w.path, entry := w.entry, woken := true, region := n, early := false }] ∧
        ∀ b a i : Nat, b < 50 → a < 16640 → i < 16 → Memory.readByte t.bankMem (((n.val * 50 + b) * 16640 + a) * 16 + i) = 0#8) ∧
    (∀ n : Fin 64, s.kettle.wakes = [] → exec (.wakeZeroingDone n) s = .next s) ∧
    (s.evt.running = false ∨ s.tb.running = false ∨ s.tb.cold = true → exec .earlyWakeCheck s = .next s) ∧
    (∀ n : Fin 64, s.flag (PWR_RGN_DOWN n) = true → (s.region n).state = .active → (s.ni n).drain = false →
      Gives (.powerDownWaitEnd n) s fun t => (t.ni n).drain = true ∧ t.cyc = s.cyc) ∧
    (∀ n : Fin 64, s.flag (PWR_RGN_DOWN n) = false → exec (.powerDownWaitEnd n) s = .next s) ∧
    (∀ n : Fin 64, s.drained n = true → Gives (.drainComplete n) s fun t =>
      (t.ni n).drain = false ∧ t.rd (PWR_RGN_DOWN n) = 0 ∧ t.rd (PWR_RAIL_MV n) = 0 ∧ t.rd (PWR_RAIL_MV (64 + n.val)) = 0) ∧
    (∀ n : Fin 64, s.drained n = false → exec (.drainComplete n) s = .next s) ∧
    (∀ v i p k : BitVec 16, s.stackOn = true → Gives (.powerMeasure v i p k) s fun t =>
      t.rd PWR_VIN_VIN = v.toNat ∧ t.rd PWR_VIN_IIN = i.toNat ∧ t.rd PWR_POWER_INPUT = p.toNat ∧ t.rd PWR_POWER_STACK = k.toNat ∧
        (t.kettle.reached = true ↔ s.rd PWR_PCAP_INCAP * 10 ≤ p.toNat ∨ s.rd PWR_PCAP_STACKCAP * 10 ≤ k.toNat)) ∧
    (s.kettleRuns = true → Gives .powerThrottleStep s fun t => t.kettle.pk =
        (if s.kettle.reached then min 6 (s.kettle.pk + 1) else if s.kettle.below then s.kettle.pk - 1 else s.kettle.pk) ∧
      (t.rd PWR_STATUS_PCAP = 1 ↔ t.kettle.pk ≠ 0)) ∧
    (∀ i : BitVec 16, s.stackOn = true → exec (.currentLimit i) s = .next (((({ s with kettle := { s.kettle with pk := 6 } } : State).wr
      PWR_STATUS_PCAP 1).raise PWR_STATUS_ILIMIT).logEv 0x1404 1 0 unitPwr i.toNat)) ∧
    (∀ (r : Fin 137) (p : Fin 16) (k : Fin 4), p.val < phasesBuilt r → k.val ≠ 0 → s.stackOn = true →
      s.kettle.shed.contains (r.val * 16 + p.val) = true → exec (.phaseFailure r p k) s = .next s) ∧
    (∀ (r : Fin 137) (p : Fin 16) (k : Fin 4), p.val < phasesBuilt r → k.val ≠ 0 → s.stackOn = true → s.kettle.shed = [] →
      Gives (.phaseFailure r p k) s fun t => t.kettle.shed = [r.val * 16 + p.val] ∧ t.chip.state = s.chip.state ∧
        t.rd PWR_STATUS_PHASE = 1) ∧
    (∀ (r : Fin 137) (p : Fin 16) (k : Fin 4), phasesBuilt r ≤ p.val ∨ k.val = 0 →
      exec (.phaseFailure r p k) s = .refused (.illFormed "PHASE_FAILURE"))

/-- O20 (R583, R585, R586, R587, R588, R632). A sample of one site with both sensors whole and in range gives the site
the higher reading; two samples in a row at or above shutdown raise chip doubt TEMP; the chip's reading stands in
THM_MAX. A 1 ms boundary lets KT of each region rise, fall or hold. Clock division starts once, when a region's K is
6, and ends when every K is 2 or less. A stuck sensor is marked broken. The reference check repeats for a site whose
both sensors passed. While outputs are disabled the VIO comparison is not made, and with the stack off nothing is
sampled. -/
def Obligations.TemperatureAndDivision : Prop :=
  ∀ s : State,
    (∀ l, s.stackOn = false → exec (.tempSample l) s = .next s) ∧
    (∀ (k : Fin 208) (a b : Int), s.stackOn = true → s.therm.broken = [] → s.rd THM_CFG_SHUT = 0 → s.rd THM_CFG_WARN = 0 →
      -320 ≤ a → a ≤ 1200 → -320 ≤ b → b ≤ 1200 → (a - b).natAbs ≤ 48 → Gives (.tempSample [⟨k, a, b⟩]) s fun t =>
        t.siteReading k = some (max a b) ∧ t.therm.broken = [] ∧ t.chip = s.chip) ∧
    (∀ (k : Fin 208) (a b : Int), s.Inv → s.chip.state = .run → s.therm.broken = [] → s.rd THM_CFG_SHUT ≠ 0 →
      (s.rd THM_CFG_SHUT * 8 : Nat) ≤ a → a ≤ 1200 → b = a → s.therm.hot.get 0 k = 1 → Gives (.tempSample [⟨k, a, b⟩]) s fun t =>
        t.chip.state = .safe ∧ t.chip.stayMask = 2 ^ 2 ∧ t.chip.haltPending = true) ∧
    (s.kettleRuns = false → exec .thermalSkipStep s = .next s) ∧
    (s.kettleRuns = true → Gives .thermalSkipStep s fun t =>
      (t.rd THM_STATUS_THROT = 1 ↔ ∃ n < 64, t.rd (THM_RGN_KT n) ≠ 0) ∧ t.kettle = s.kettle ∧ t.log = s.log ∧ t.regions = s.regions) ∧
    (∀ n : Fin 64, s.kettle.div = none → s.skipLevel n = 6 → s.kettleRuns = true → exec (.divisionStart n) s =
      .next ((({ s with kettle := { s.kettle with div := some n.val } } : State).raise PWR_STATUS_DIV).logEv 0x1405 1 0 unitPwr (1 + n.val * 2))) ∧
    (∀ (n m : Fin 64), s.kettle.div = some m.val → exec (.divisionStart n) s = .next s) ∧
    (∀ n : Nat, s.kettle.div = some n → (∀ m < 64, s.skipLevel m ≤ 2) → exec .divisionEnd s =
      .next ((({ s with kettle := { s.kettle with div := none } } : State).wr PWR_STATUS_DIV 0).logEv 0x1405 1 0 unitPwr (n * 2))) ∧
    (s.kettle.div = none → exec .divisionEnd s = .next s) ∧
    (∀ x : Fin 416, s.stackOn = true → s.therm.broken = [] → Gives (.sensorStuck x) s fun t =>
      t.therm.broken = [x.val] ∧ t.rd THM_STATUS_BROKEN = 1 ∧ t.chip = s.chip) ∧
    (∀ x : Fin 416, s.stackOn = true → s.therm.broken.contains x.val = true → exec (.sensorStuck x) s = .next s) ∧
    (∀ x : Fin 208, s.therm.passed = [2 * x.val, 2 * x.val + 1] → s.bist.runs = [] → s.therm.asked = [] →
      exec (.sensorRecheck x) s = .next { s with
        bist := { s.bist with runs := [⟨unitId 0 9 (2 * x.val), 6⟩, ⟨unitId 0 9 (2 * x.val + 1), 6⟩] }
        therm := { s.therm with asked := [x.val], passed := [] } }) ∧
    (∀ x : Fin 208, s.therm.passed = [] → exec (.sensorRecheck x) s = .next s) ∧
    (∀ a b : Byte, s.chip.outputs = false → exec (.vioCheck a b) s = .next s) ∧
    (∀ a b : Byte, s.chip.outputs = true → Gives (.vioCheck a b) s fun t => t.iob.judged = true ∧ t.chip = s.chip ∧ t.regions = s.regions) ∧
    (∀ a b : Byte, s.chip.outputs = true → s.iob.judged = false → s.rd IOB_VIO_OKA = 0 → s.rd IOB_VIO_OKB = 0 →
      vioInRange (s.rd IOB_VIO_DECLA) a.toNat = true → vioInRange (s.rd IOB_VIO_DECLB) b.toNat = true → Gives (.vioCheck a b) s fun t =>
        t.rd IOB_VIO_OKA = 1 ∧ t.rd IOB_VIO_OKB = 1 ∧ t.rd IOB_VIO_VIOA = a.toNat ∧ t.rd IOB_VIO_VIOB = b.toNat ∧ t.log = s.log)

/-- O21 (R71, R72, R74, R76). For a port in x4 mode without DIRINV and without wire faults, after the first 16 cycles,
while another source drives the position: with q the place of the levels (A, B) in the order 00, 10, 11, 01, an
accepted change to the next place counts +1, to the previous one -1, two places count nothing and add one quadrature
error, no change counts nothing. Position, track and log of the timebase stay as they are except for that error.
Before the timebase runs and in its first 16 cycles the levels are taken and nothing counts. A discarded pulse counts
in GLITCH. -/
def Obligations.EncoderPortsCountQuadrature : Prop :=
  ∀ (s : State) (k : Fin 4) (a b a' b' : Bool),
    (s.tb.running = true → s.tb.startCyc + 16 ≤ s.cyc → s.rd (PTB_ENC_CFG_MODE k) = 3 → s.flag (PTB_ENC_CFG_DIRINV k) = false →
      (s.port k).wireA = false → (s.port k).wireB = false → s.tb.srcAct ≠ k.val → (s.port k).a = a → (s.port k).b = b →
      Gives (.encoderEdge k (.levels a' b')) s fun t =>
        let q := fun x y : Bool => if x then (if y then 2 else 1) else (if y then 3 else 0)
        (t.port k).a = a' ∧ (t.port k).b = b' ∧ t.tb.c = s.tb.c ∧ t.tb.track = s.tb.track ∧ t.evt = s.evt ∧
          (q a' b' = (q a b + 1) % 4 → (t.port k).cnt = signedOf 64 (unsignedOf 64 ((s.port k).cnt + 1)) ∧ t.log = s.log) ∧
          (q a b = (q a' b' + 1) % 4 → (t.port k).cnt = signedOf 64 (unsignedOf 64 ((s.port k).cnt - 1)) ∧ t.log = s.log) ∧
          (q a' b' = (q a b + 2) % 4 → (t.port k).cnt = (s.port k).cnt ∧
            t.rd (PTB_ENC_ERR_QERR k) = satAdd (PTB_ENC_ERR_QERR k).width (s.rd (PTB_ENC_ERR_QERR k)) 1) ∧
          (q a' b' = q a b → (t.port k).cnt = (s.port k).cnt ∧ t.log = s.log)) ∧
    (s.tb.running = false ∨ s.cyc < s.tb.startCyc + 16 → exec (.encoderEdge k (.levels a' b')) s =
      .next (s.modPort k fun p => { p with a := a', b := b' })) ∧
    exec (.encoderEdge k .glitch) s = .next (s.bump (PTB_ENC_ERR_GLITCH k))

/-- O22 (R76, R79, R80, R81, R83, R92). A rising index edge of a running timebase latches the count of a port with
INDEX latch and without a Z wire fault, qualified by A and B where ZQUAL asks it, and changes neither count nor
position; in check mode a difference from the last latched count other than PERREV adds to ZERR and logs 0x0305. A
falling edge lowers Z, a discarded pulse counts in GLITCH. A new wire fault is marked and logged 0x0303, and its end
too; a repeated one changes nothing. A timeout of an encoder source makes the interpolator COLD and STILL. -/
def Obligations.IndexEdgesAndWireFaults : Prop :=
  ∀ (s : State) (k : Fin 4),
    exec (.indexEdge k .glitch) s = .next (s.bump (PTB_ENC_ERR_GLITCH k)) ∧
    exec (.indexEdge k .fall) s = .next (s.modPort k fun p => { p with z := false }) ∧
    (s.rd (PTB_ENC_CFG_INDEX k) ≠ 0 → (s.port k).z = false → (s.port k).wireZ = false → s.flag (PTB_ENC_CFG_ZQUAL k) = false →
      s.tb.running = true → Gives (.indexEdge k .rise) s fun t =>
        (t.port k).zlat = (s.port k).cnt ∧ (t.port k).zPrev = some (s.port k).cnt ∧ (t.port k).z = true ∧
          (t.port k).cnt = (s.port k).cnt ∧ t.measured = s.measured ∧
          (s.rd (PTB_ENC_CFG_INDEX k) = 1 ∨ (s.port k).zPrev = none → t.log = s.log ∧ t.regs = s.regs) ∧
          (∀ old, s.rd (PTB_ENC_CFG_INDEX k) = 2 → (s.port k).zPrev = some old →
            ((s.port k).cnt - old).natAbs ≠ s.rd (PTB_ENC_ZCHK_PERREV k) →
            t.rd (PTB_ENC_ERR_ZERR k) = satAdd (PTB_ENC_ERR_ZERR k).width (s.rd (PTB_ENC_ERR_ZERR k)) 1)) ∧
    (s.rd (PTB_ENC_CFG_INDEX k) = 0 → exec (.indexEdge k .rise) s = .next (s.modPort k fun p => { p with z := true })) ∧
    (∀ x : EncInput, (s.port k).getWire x = true → exec (.wireFault k x) s = .next s) ∧
    (∀ x : EncInput, (s.port k).getWire x = false → s.tb.srcAct ≠ k.val → exec (.wireFault k x) s =
      .next ((s.modPort k fun p => p.setWire x true).logEv 0x0303 1 0x3 unitPtb (k.val + encInputNo x * 4 + 16))) ∧
    (∀ x : EncInput, (s.port k).getWire x = false → x ≠ .z → s.tb.running = true → s.tb.srcAct = k.val → (s.port k).faulted = false →
      Gives (.wireFault k x) s fun t => t.tb.cold = true ∧ (t.port k).faulted = true) ∧
    (∀ x : EncInput, (s.port k).getWire x = true → exec (.wireFaultClear k x) s =
      .next ((s.modPort k fun p => p.setWire x false).logEv 0x0303 1 0 unitPtb (k.val + encInputNo x * 4))) ∧
    (∀ x : EncInput, (s.port k).getWire x = false → exec (.wireFaultClear k x) s = .next s) ∧
    (s.tb.running = true → s.tb.srcAct < 4 → Gives .interpolatorTimeout s fun t => t.tb.cold = true ∧ t.tb.still = true ∧ t.tb.c = s.tb.c) ∧
    (s.tb.running = false ∨ 4 ≤ s.tb.srcAct → exec .interpolatorTimeout s = .next s)

/-- O23 (R71, R82, R99, R101, R106). A write of PTB_SIM_VEL takes the value; with the SIM source running DIR follows
its sign and STILL its being zero. A read of PTB_POS_LO answers bits 31 to 0 of the integer and copies all 80 bits and
the velocity; a read of CNT_LO or ZLAT_LO answers the low word and copies all 64 bits. CLR = 1 clears the port's three
error counters, CLR = 0 nothing. A bus update puts position, DIR and COLD into the inactive half and makes it current,
leaving the other half as it was; a stale reader sets BUSSTALE and logs 0x0307. -/
def Obligations.TimebaseRegistersAndBus : Prop :=
  ∀ s : State,
    (∀ (a : Accessor) (v : Word), s.tb.running = false ∨ s.tb.srcAct ≠ 5 → exec (.ptbSimVelWrite a v) s = .next (s.wr PTB_SIM_VEL_SIMVEL v.toNat)) ∧
    (∀ (a : Accessor) (v : Word), s.tb.running = true → s.tb.srcAct = 5 → Gives (.ptbSimVelWrite a v) s fun t =>
      t.simVel = v.toInt ∧ t.tb.still = (v == 0) ∧ (0 < v.toInt → t.tb.rev = false) ∧ (v.toInt < 0 → t.tb.rev = true) ∧ (v = 0 → t.tb.rev = s.tb.rev)) ∧
    (∀ a : Accessor, exec (.ptbPosLoRead a) s = .next { s with
      rsp := ⟨0, bitsOf (pos80 s.measured) 47 16⟩, tb := { s.tb with holdPos := pos80 s.measured, holdVel := s.velReg } }) ∧
    (∀ (a : Accessor) (k : Fin 4), exec (.ptbEncCntLoRead a k) s = .next { s with
      rsp := ⟨0, unsignedOf 64 (s.port k).cnt % 2 ^ 32⟩
      tb := { s.tb with holdCnt := s.tb.holdCnt.put 0 k (unsignedOf 64 (s.port k).cnt) } }) ∧
    (∀ (a : Accessor) (k : Fin 4), exec (.ptbEncZlatLoRead a k) s = .next { s with
      rsp := ⟨0, unsignedOf 64 (s.port k).zlat % 2 ^ 32⟩
      tb := { s.tb with holdZlat := s.tb.holdZlat.put 0 k (unsignedOf 64 (s.port k).zlat) } }) ∧
    (∀ (a : Accessor) (k : Fin 4) (v : Word), bitOf v.toNat 4 = true → Gives (.encErrClr a k v) s fun t =>
      t.rd (PTB_ENC_ERR_GLITCH k) = 0 ∧ t.rd (PTB_ENC_ERR_QERR k) = 0 ∧ t.rd (PTB_ENC_ERR_ZERR k) = 0 ∧
        (t.port k).cnt = (s.port k).cnt ∧ t.log = s.log) ∧
    (∀ (a : Accessor) (k : Fin 4) (v : Word), bitOf v.toNat 4 = false → exec (.encErrClr a k v) s = .next s) ∧
    (s.tb.running = true → Gives .busUpdate s fun t =>
      t.busNow = ⟨s.measured, s.tb.rev, s.tb.cold⟩ ∧ t.tb.busToggle = !s.tb.busToggle ∧
        (if s.tb.busToggle then t.tb.busB = s.tb.busB else t.tb.busA = s.tb.busA)) ∧
    (s.tb.running = false → exec .busUpdate s = .next s) ∧
    (∀ n : Fin 64, exec (.busStale n) s = .next ((s.wr PTB_STATUS_BUSSTALE 1).logEv 0x0307 2 0 (unitRegion n) 0))

/-- O24 (R129, R130, R131, R133). A write of words 0 to 6 of an entry with EN = 0 replaces that word and nothing else
of the table; with EN = 1 it is refused: REFUSED is set, 0x0405 logged and the entry stays. A write of word 7 with EN
= 0 is taken, the entry leaves the window and its pending occurrences are closed. A write of word 7 with EN = 1 on a
disabled entry whose fields are in range enables it and the matcher judges its grid from the present track on; out of
range, or on an enabled entry, it is refused. -/
def Obligations.TheEventTableIsChangedByItsRules : Prop :=
  ∀ (s : State) (acc : Accessor) (k : Fin 32768) (v : Word),
    (∀ w : Fin 8, w.val < 7 → eEn (s.entry k) = false → exec (.entryWrite acc k w v) s =
      .next { s with evt := { s.evt with entries := s.evt.entries.put 0#256 k (eWithWord (s.entry k) w v.toNat) } }) ∧
    (∀ w : Fin 8, w.val < 7 → eEn (s.entry k) = true → Gives (.entryWrite acc k w v) s fun t =>
      t.rd EVT_STATUS_REFUSED = 1 ∧ t.evt = s.evt) ∧
    (eEn (s.entry k) = false → Gives (.entryWithdraw acc k v) s fun t =>
      t.entry k = eWithWord (s.entry k) 7 (clearBit v.toNat 16) ∧ eEn (t.entry k) = false ∧
        (∀ p ∈ t.evt.judged, p.1 ≠ k.val) ∧ t.evt.pend = s.evt.pend ∧ t.log = s.log) ∧
    (eEn (s.entry k) = true → Gives (.entryWithdraw acc k v) s fun t =>
      eEn (t.entry k) = false ∧ (∀ p ∈ t.evt.judged, p.1 ≠ k.val) ∧ ∀ o ∈ t.evt.pend, o.entry ≠ k.val) ∧
    (eEn (s.entry k) = false → entryOk (eWithWord (s.entry k) 7 (setBit v.toNat 16)) = true → Gives (.entryEnable acc k v) s fun t =>
      t.entry k = eWithWord (s.entry k) 7 (setBit v.toNat 16) ∧ eEn (t.entry k) = true ∧
        (s.evt.running = true → t.evt.judged = s.evt.judged.set k s.tb.mtrack)) ∧
    (eEn (s.entry k) = true ∨ entryOk (eWithWord (s.entry k) 7 (setBit v.toNat 16)) = false → Gives (.entryEnable acc k v) s fun t =>
      t.rd EVT_STATUS_REFUSED = 1 ∧ t.evt = s.evt)

/-- O25 (R110, R115, R117, R118, R132). With the matcher running and no hold: the track crossing the one grid point of
an enabled IRQ entry, with room in the interrupt FIFO and nothing pending, puts that entry's action on its way with
the stamp of the grid point, closes the occurrence FIRED and judges the entry up to the track. Where nothing was
crossed only that judging moves. A pending occurrence that can be handed over is, and leaves the pending list; one
whose tolerance the track has passed closes MISSED. With nothing pending hand-over and miss change nothing. -/
def Obligations.TheMatcherMakesAndClosesOccurrences : Prop :=
  ∀ s : State,
    (∀ (k : Fin 32768) (t0 : Int), s.evt.running = true → s.krl.hold = false → s.evt.judged = [(k.val, t0)] → s.evt.pend = [] →
      s.evt.inflight = [] → s.evt.irq.length < 64 → s.evt.handCyc ≠ s.cyc → eEn (s.entry k) = true → eDirq (s.entry k) = 2 →
      eOnce (s.entry k) = false → eAction (s.entry k) = 11 → ePeriod (s.entry k) = 0 → t0 < ePos (s.entry k) →
      ePos (s.entry k) ≤ s.tb.mtrack → Gives (.matcherCrossing k) s fun t =>
        (∃ sub ≤ 12, t.evt.inflight =
          [⟨k.val, 11, eTarget (s.entry k), eParam (s.entry k), stampOf (ePos (s.entry k)), sub, s.cyc, false, none⟩]) ∧
        t.evt.judged = [(k.val, s.tb.mtrack)] ∧ t.evt.pend = [] ∧ t.evt.entries = s.evt.entries ∧
        t.rd EVT_CNT_FIRED_COUNT = (s.rd EVT_CNT_FIRED_COUNT + 1) % 2 ^ EVT_CNT_FIRED_COUNT.width) ∧
    (∀ (k : Fin 32768) (t0 : Int), s.evt.running = true → s.evt.judged = [(k.val, t0)] → eEn (s.entry k) = true →
      ePeriod (s.entry k) = 0 → t0 ≤ s.tb.mtrack → ePos (s.entry k) ≤ t0 ∨ s.tb.mtrack < ePos (s.entry k) →
      exec (.matcherCrossing k) s = .next { s with evt := { s.evt with judged := [(k.val, s.tb.mtrack)] } }) ∧
    (∀ k : Fin 32768, s.evt.running = false → exec (.matcherCrossing k) s = .next s) ∧
    (∀ o : Occ, s.evt.running = true → s.evt.pend = [o] → s.canHand o = true → Gives .occurrenceHandover s fun t =>
      t.evt.pend = [] ∧ ∃ a : Action, t.evt.inflight = s.evt.inflight ++ [a] ∧ a.entry = o.entry ∧
        a.code = eAction (s.entry o.entry) ∧ a.stamp = stampOf o.x ∧ a.cyc = s.cyc ∧ a.late = decide (o.cyc + 4 < s.cyc)) ∧
    (s.evt.pend = [] → exec .occurrenceHandover s = .next s ∧ exec .occurrenceMissed s = .next s) ∧
    (∀ o : Occ, s.evt.pend = [o] → s.missedAtOnce o.entry = false → s.tolPassed o = true → o.cyc + 5 ≤ s.cyc → eMissIrq (s.entry o.entry) = true →
      Gives .occurrenceMissed s fun t => t.evt.pend = [] ∧ t.evt.inflight = s.evt.inflight ∧ t.rd EVT_STATUS_MISSIRQ = 1 ∧
        t.rd EVT_CNT_MISSED_COUNT = (s.rd EVT_CNT_MISSED_COUNT + 1) % 2 ^ EVT_CNT_MISSED_COUNT.width)

/-- O26 (R123, R124, R125, R127, R128). The oldest action of its kind for an output leaves the way and queues its
edges at the output's edge time: PULSE an active edge and an inactive one its width later, SET an active edge, CLEAR
an inactive one. A queued edge sets the level and leaves the queue, except while the owner region is in TEST. IRQ
appends its record to the interrupt FIFO; a read of EVT_IRQ_POP removes and copies the oldest record and answers VALID
with it, and answers 0 when the FIFO is empty. With no such action on its way nothing changes. -/
def Obligations.ActionsReachOutputsAndInterrupts : Prop :=
  ∀ s : State,
    (∀ (o : Fin 32) (a : Action) (l : List Action), s.evt.inflight = a :: l → a.target % 32 = o.val → (s.evt.evos.get {} o.val).edges = [] →
      (a.code = 0 → Gives (.pulse o) s fun t => t.evt.inflight = l ∧ t.evt.evos.get {} o.val =
        ⟨(s.evt.evos.get {} o.val).level, [⟨s.edgeTime o a, true, false⟩, ⟨s.edgeTime o a + a.param, false, true⟩]⟩) ∧
      (a.code = 1 → Gives (.set o) s fun t => t.evt.inflight = l ∧ t.evt.evos.get {} o.val =
        ⟨(s.evt.evos.get {} o.val).level, [⟨s.edgeTime o a, true, false⟩]⟩) ∧
      (a.code = 2 → Gives (.clear o) s fun t => t.evt.inflight = l ∧ t.evt.evos.get {} o.val =
        ⟨(s.evt.evos.get {} o.val).level, [⟨s.edgeTime o a, false, false⟩]⟩)) ∧
    (∀ o : Fin 32, s.evt.inflight = [] → exec (.pulse o) s = .next s ∧ exec (.set o) s = .next s ∧ exec (.clear o) s = .next s) ∧
    (∀ (o : Fin 32) (x : EvoEdge) (l : List EvoEdge), s.evoOwner o = 64 → (s.evt.evos.get {} o.val).edges = x :: l →
      exec (.evoEdge o) s = .next { s with evt := { s.evt with evos := s.evt.evos.set o ⟨x.level, l⟩ } }) ∧
    (∀ o : Fin 32, s.evoOwner o < 64 → (s.region (s.evoOwner o)).state = .test → exec (.evoEdge o) s = .next s) ∧
    (∀ (a : Action) (l : List Action), s.evt.inflight = a :: l → a.code = 11 → exec .irq s = .next { s with
      evt := { s.evt with inflight := l, irq := s.evt.irq ++ [⟨a.entry, a.param, a.stamp, a.late⟩] } }) ∧
    (∀ (acc : Accessor) (r : IrqRec) (l : List IrqRec), s.evt.irq = r :: l → exec (.evtIrqPop acc) s = .next { s with
      rsp := ⟨0, 2 ^ 31 + b2n r.late * 2 ^ 30 + r.entry⟩, evt := { s.evt with irq := l, irqCopy := r } }) ∧
    (∀ acc : Accessor, s.evt.irq = [] → exec (.evtIrqPop acc) s = .next { s with rsp := ⟨0, 0⟩ })

/-- O27 (R140). In an ACTIVE region that does not drain, at an edge of the clock a flip-flop of a configured cell is
clocked from (CLKW = 0): with SR = 1 and I3 = 1 it holds INIT afterwards; otherwise, with CE = 0 or I4 = 1, its D
value; otherwise what it held. I3 and I4 are the same inputs that form the index into the truth table: with DSEL = 1,
FRAC = 0 and CARRY = 0 the D value is LUT[i] with i formed by I5 to I0. -/
def Obligations.FlipFlopsLoadInitOrDOrHold : Prop :=
  ∀ (s : State) (n : Fin 64) (pins : FabricPins) (blk tier c : Nat) (b : Bool) (w : Line), blk < 2352 → tier < 2 → c < 32 →
    let r := s.region n
    let e : FabEnv := ⟨r, pins.down⟩
    let i := fun j => e.value (.input blk tier c j)
    let f := wFf w.toNat b
    r.state = .active → (s.ni n).drain = false → (cfgKey r.ctx.active blk tier c, w) ∈ r.fab.cfg →
    r.fab.cfg.get 0#128 (cfgKey r.ctx.active blk tier c) = w → ffClkW f = false → bitOf pins.spines.toNat (ffClk f) = true →
    Gives (.regionFabricClockEdge n pins) s fun t =>
      let q := (t.region n).fab.ffs.get false ((blk * 64 + tier * 32 + c) * 2 + b2n b)
      (ffSr f = true → i 3 = true → q = ffInit f) ∧
      (¬(ffSr f = true ∧ i 3 = true) → ffCe f = false ∨ i 4 = true → q = e.ffD blk tier c b) ∧
      (¬(ffSr f = true ∧ i 3 = true) → ¬(ffCe f = false ∨ i 4 = true) →
        q = r.fab.ffs.get false ((blk * 64 + tier * 32 + c) * 2 + b2n b)) ∧
      (ffDsel f = 1 → wFrac w.toNat = false → wCarry w.toNat = 0 → e.ffD blk tier c b =
        bitOf (wLut w.toNat) (b2n (i 0) + b2n (i 1) * 2 + b2n (i 2) * 4 + b2n (i 3) * 8 + b2n (i 4) * 16 + b2n (i 5) * 32))

/-- O28 (R168, R170, R180, R184). A CTX action that reaches its region is registered in ACTIVE and TEST and refused
otherwise. A CTX_REQ write with GO is registered in ACTIVE, held in TEST and refused otherwise; without GO it does
nothing. The fabric's request is registered in ACTIVE only. A refused request sets REFUSED, counts and is logged
0x0601; the active context stays. -/
def Obligations.ContextRequestsAreRegisteredOrRefused : Prop :=
  ∀ (s : State) (n : Fin 64),
    (∀ (a : Action) (l : List Action), s.evt.inflight = a :: l → a.code = 3 → a.target % 64 = n.val → Gives (.ctx n) s fun t =>
      t.evt.inflight = l ∧ (t.region n).ctx.active = (s.region n).ctx.active ∧
        ((s.region n).state = .active ∨ (s.region n).state = .test →
          (t.region n).ctx.reqs = (s.region n).ctx.reqs ++ [⟨0, a.param % 8, a.entry, s.regionStamp⟩] ∧ t.log = s.log) ∧
        ((s.region n).live = false → t.regions = s.regions ∧ t.rd (CTX_STATUS_REFUSED n) = 1)) ∧
    (s.evt.inflight = [] → exec (.ctx n) s = .next s) ∧
    (∀ (acc : Accessor) (v : Word), bitOf v.toNat 31 = false → exec (.ctxReq acc n v) s = .next s) ∧
    (∀ (acc : Accessor) (v : Word), bitOf v.toNat 31 = true → (s.region n).state = .active → exec (.ctxReq acc n v) s =
      .next (s.modRegion n fun r => { r with ctx := { r.ctx with reqs := r.ctx.reqs ++ [⟨1, v.toNat % 8, 0, s.regionStamp⟩] } })) ∧
    (∀ (acc : Accessor) (v : Word), bitOf v.toNat 31 = true → (s.region n).state = .test → (s.region n).ctx.supHeld = none →
      exec (.ctxReq acc n v) s =
        .next (s.modRegion n fun r => { r with ctx := { r.ctx with supHeld := some ⟨1, v.toNat % 8, 0, s.regionStamp⟩ } })) ∧
    (∀ (acc : Accessor) (v : Word), bitOf v.toNat 31 = true → (s.region n).live = false → Gives (.ctxReq acc n v) s fun t =>
      t.regions = s.regions ∧ t.rd (CTX_STATUS_REFUSED n) = 1) ∧
    (∀ c : Fin 8, (s.region n).state = .active → exec (.creq n c) s =
      .next (s.modRegion n fun r => { r with ctx := { r.ctx with reqs := r.ctx.reqs ++ [⟨2, c, 0, s.regionStamp⟩] } })) ∧
    (∀ c : Fin 8, (s.region n).state ≠ .active → exec (.creq n c) s = .next s)

/-- O29 (R169, R170, R171, R172, R174, R175, R178). In an ACTIVE region with no held supervisor request: a sole
request for another context that is loaded and not loading, permitted when it is the fabric's, no frame of which is
being re-fetched and that costs nothing outstanding, becomes the active context, with from, to and path kept and the
count of switches one more; a request for a context that is not loaded is refused and the active context stays; of an
event-table request and a supervisor request that both may switch the event table's wins. With nothing registered
nothing changes. When GUARDMAX runs out on a held request the switch is made although responses are outstanding; with
none held the timeout changes nothing. -/
def Obligations.ContextSwitchSelectsTheRankedRequest : Prop :=
  ∀ (s : State) (n : Fin 64) (q : CtxReqst),
    let c := (s.region n).ctx
    let may := fun x : CtxReqst => s.ctxReason n x = none ∧ s.steepHolds n x.ctx = false ∧ x.ctx ≠ c.active
    ((s.region n).state = .active → c.supHeld = none → c.reqs = [q] → may q → s.ctxBusy n c.active q.ctx = (0, 0) →
      Gives (.contextSwitch n) s fun t => (t.region n).ctx.active = q.ctx ∧ (t.region n).ctx.reqs = [] ∧
        (t.region n).ctx.lastFrom = c.active ∧ (t.region n).ctx.lastTo = q.ctx ∧ (t.region n).ctx.lastSrc = q.path ∧
        t.rd (CTX_SWCNT_COUNT n) = (s.rd (CTX_SWCNT_COUNT n) + 1) % 2 ^ (CTX_SWCNT_COUNT n).width ∧
        (t.region n).fab.cfg = (s.region n).fab.cfg ∧ (t.region n).fab.ffs = (s.region n).fab.ffs) ∧
    ((s.region n).state = .active → c.supHeld = none → c.reqs = [q] → bitOf c.loaded q.ctx = false →
      Gives (.contextSwitch n) s fun t => (t.region n).ctx.active = c.active ∧ (t.region n).ctx.reqs = [] ∧
        t.rd (CTX_STATUS_REFUSED n) = 1) ∧
    (∀ p : CtxReqst, (s.region n).state = .active → c.supHeld = none → c.reqs = [p, q] → p.path = 1 → q.path = 0 → may p → may q →
      s.ctxBusy n c.active q.ctx = (0, 0) → Gives (.contextSwitch n) s fun t => (t.region n).ctx.active = q.ctx ∧
        t.rd (CTX_STATUS_SUPERSEDED n) = 1) ∧
    (c.reqs = [] → c.supHeld = none → exec (.contextSwitch n) s = .next s) ∧
    (∀ e0 : Nat, (s.region n).state = .active → c.supHeld = none → c.reqs = [q] → c.heldSince = some e0 → may q →
      Gives (.guardTimeout n) s fun t => (t.region n).ctx.active = q.ctx ∧ (t.region n).ctx.heldSince = none ∧
        (0 < (s.ctxBusy n c.active q.ctx).1 → t.rd (CTX_STATUS_GUARDTO n) = 1)) ∧
    (c.heldSince = none → exec (.guardTimeout n) s = .next s)

/-- O30 (R150, R163, R637). Contention of an ACTIVE region is counted and latched with wire, block, context and
validity; with policy LOG the block's two frames are visited next and the region works on, with policy FENCE it is
rewritten and fenced; elsewhere nothing changes. A word of a locked input pair of an ACTIVE or TEST region enters its
FIFO of 8; with the FIFO full it is discarded, SBOVF set and counted. A change of lock is taken, its loss raises
SBLOCK; a pair that is no input in use changes nothing. -/
def Obligations.LiftContentionAndSensorPairs : Prop :=
  ∀ s : State,
    (∀ (n : Fin 64) (k : Fin 2352) (w : Fin 32), (s.region n).state ≠ .active → exec (.liftContention n k w) s = .next s) ∧
    (∀ (n : Fin 64) (k : Fin 2352) (w : Fin 32), (s.region n).state = .active → s.flag (RGN_FAB_CFG_LIFTPOL n) = false →
      (s.scrRgn n).prio = [] → Gives (.liftContention n k w) s fun t =>
        (t.scrRgn n).prio = [((s.region n).ctx.active, k.val * 2), ((s.region n).ctx.active, k.val * 2 + 1)] ∧ t.regions = s.regions ∧
        t.rd (RGN_LIFT_CNT_COUNT n) = satAdd (RGN_LIFT_CNT_COUNT n).width (s.rd (RGN_LIFT_CNT_COUNT n)) 1 ∧
        t.rd (RGN_LIFT_LAST_WIRE n) = w.val ∧ t.rd (RGN_LIFT_LAST_BLOCK n) = k.val ∧ t.rd (RGN_LIFT_LAST_VALID n) = 1) ∧
    (∀ (b : Fin 8) (i : Fin 48) (w : Byte), s.pairIn b i = false ∨ s.pairLocked b i = false → exec (.sensorWord b i w) s = .next s) ∧
    (∀ (b : Fin 8) (i : Fin 48) (w : Byte) (n : Nat), s.pairIn b i = true → s.pairLocked b i = true → n = b.val + 8 * s.rd (IOB_SBP_ROW b i) →
      (s.region n).live = true → ((s.region n).fab.sensors.get [] i.val).length < 8 → exec (.sensorWord b i w) s =
        .next (s.modRegion n fun r => { r with fab := { r.fab with sensors := r.fab.sensors.set i (r.fab.sensors.get [] i.val ++ [w]) } })) ∧
    (∀ (b : Fin 8) (i : Fin 48) (w : Byte) (n : Nat), s.pairIn b i = true → s.pairLocked b i = true → n = b.val + 8 * s.rd (IOB_SBP_ROW b i) →
      (s.region n).live = true → 8 ≤ ((s.region n).fab.sensors.get [] i.val).length → Gives (.sensorWord b i w) s fun t =>
        t.regions = s.regions ∧ t.rd IOB_STATUS_SBOVF = 1 ∧ t.rd (IOB_SB_OVF_COUNT b) = satAdd (IOB_SB_OVF_COUNT b).width (s.rd (IOB_SB_OVF_COUNT b)) 1) ∧
    (∀ (b : Fin 8) (i : Fin 48), s.pairIn b i = true → s.pairLocked b i = false → Gives (.sensorPairLock b i true) s fun t =>
      t.pairLocked b i = true ∧ t.log = s.log ∧ t.regions = s.regions) ∧
    (∀ (b : Fin 8) (i : Fin 48), s.pairIn b i = true → s.pairLocked b i = true → Gives (.sensorPairLock b i false) s fun t =>
      t.pairLocked b i = false ∧ t.rd IOB_STATUS_SBLOCK = 1 ∧ t.regions = s.regions) ∧
    (∀ (b : Fin 8) (i : Fin 48) (l : Bool), s.pairIn b i = false ∨ s.pairLocked b i = l → exec (.sensorPairLock b i l) s = .next s)

/-- O31 (R200, R202, R206, R388, R393). At a bank port that is served, on a word whose code is valid: a read answers
the word and changes no byte; a full write stores the data; a masked write stores the enabled bytes and keeps the
others; ADD32, ADD64 and SWAP64 answer the old value of the lane or lane pair their byte enables name and store the
sum modulo 2^32 or 2^64, or the new value, in it alone. Each answers OK at its port, no byte outside the word changes,
and the stored word reads with a valid code. The word is the one the row map names. -/
def Obligations.BankOperationsByTheFabric : Prop :=
  ∀ (s : State) (n b : Fin 64) (p : Nat) (w : Fin 16384) (m : BitVec 16) (d : Line), s.FabricServed n b p →
    let a := s.bankAt n p w
    let x := (s.lineAt a).toNat
    s.bankSyn.get 0 a = 0 →
    Gives (.bankRead n b (.fabric w m d)) s (fun t => s.PortFrame t n b a ⟨s.lineAt a, 0, false, false⟩ ∧ t.bankMem = s.bankMem) ∧
    Gives (.bankWrite n b (.fabric w m d)) s (fun t => s.PortFrame t n b a ⟨0#128, 0, false, false⟩ ∧ t.lineAt a = d ∧ t.bankSyn.get 0 a = 0) ∧
    Gives (.bankMaskedWrite n b (.fabric w m d)) s (fun t => s.PortFrame t n b a ⟨0#128, 0, false, false⟩ ∧ t.bankSyn.get 0 a = 0 ∧
      ∀ i < 16, Memory.readByte t.bankMem (a * 16 + i) =
        if bitOf m.toNat i then BitVec.ofNat 8 (d.toNat / 256 ^ i) else Memory.readByte s.bankMem (a * 16 + i)) ∧
    (∀ l < 4, m.toNat = 0xF * 2 ^ (4 * l) → Gives (.bankAdd32 n b (.fabric w m d)) s fun t =>
      s.PortFrame t n b a ⟨BitVec.ofNat 128 (bitsOf x (32 * l + 31) (32 * l)), 0, false, false⟩ ∧
        t.lineAt a = BitVec.ofNat 128 (setBits x (32 * l + 31) (32 * l) ((bitsOf x (32 * l + 31) (32 * l) + d.toNat % 2 ^ 32) % 2 ^ 32))) ∧
    (∀ h < 2, m.toNat = 0xFF * 2 ^ (8 * h) → Gives (.bankAdd64 n b (.fabric w m d)) s fun t =>
      s.PortFrame t n b a ⟨BitVec.ofNat 128 (bitsOf x (64 * h + 63) (64 * h)), 0, false, false⟩ ∧
        t.lineAt a = BitVec.ofNat 128 (setBits x (64 * h + 63) (64 * h) ((bitsOf x (64 * h + 63) (64 * h) + d.toNat % 2 ^ 64) % 2 ^ 64))) ∧
    (∀ h < 2, m.toNat = 0xFF * 2 ^ (8 * h) → Gives (.bankSwap64 n b (.fabric w m d)) s fun t =>
      s.PortFrame t n b a ⟨BitVec.ofNat 128 (bitsOf x (64 * h + 63) (64 * h)), 0, false, false⟩ ∧
        t.lineAt a = BitVec.ofNat 128 (setBits x (64 * h + 63) (64 * h) (d.toNat % 2 ^ 64)))

/-- O32 (R191, R193, R195, R197, R206, R207). A write of MEM_BANK_OWNb that names a reserved owner or an engine above
24, or changes the owner while BUSY, is refused with status REFUSED and leaves owner and BUSY alone; one that changes
the owner of a free bank takes owner and engine, sets BUSY and counts a handover; one that changes neither sets STEAL
only. The end of a handover with nothing outstanding clears BUSY. The oldest stealing request that waits STEALMAX
leaves the queue and is counted. A row remap serves the row from a spare row with the bytes it held. A bank copy that
has copied its last word mirrors. -/
def Obligations.BankOwnershipAndCopies : Prop :=
  ∀ (s : State) (n : Fin 64),
    (∀ (acc : Accessor) (b : Fin 48) (v : Word), s.flag (MEM_BANK_OWN_BUSY n b) = true ∧ bitsOf v.toNat 2 0 ≠ s.rd (MEM_BANK_OWN_OWNER n b) ∨
      5 ≤ bitsOf v.toNat 2 0 ∨ bitsOf v.toNat 2 0 = 2 ∧ 24 < bitsOf v.toNat 8 4 → Gives (.ownershipWrite acc n b v) s fun t =>
        t.rsp = ⟨0xA, 0⟩ ∧ t.rd (MEM_STATUS_REFUSED n) = 1 ∧ t.rd (MEM_BANK_OWN_OWNER n b) = s.rd (MEM_BANK_OWN_OWNER n b) ∧
          t.rd (MEM_BANK_OWN_BUSY n b) = s.rd (MEM_BANK_OWN_BUSY n b) ∧ t.regions = s.regions) ∧
    (∀ (acc : Accessor) (b : Fin 48) (v : Word), s.flag (MEM_BANK_OWN_BUSY n b) = false → bitsOf v.toNat 2 0 ≠ s.rd (MEM_BANK_OWN_OWNER n b) →
      bitsOf v.toNat 2 0 < 5 → (bitsOf v.toNat 2 0 = 2 → bitsOf v.toNat 8 4 ≤ 24) → s.flag (MEM_BANK_OWN_PLC n b) = false →
      bitOf v.toNat 11 = true → Gives (.ownershipWrite acc n b v) s fun t =>
        t.rsp = ⟨0, 0⟩ ∧ t.rd (MEM_BANK_OWN_OWNER n b) = bitsOf v.toNat 2 0 ∧ t.rd (MEM_BANK_OWN_ENG n b) = bitsOf v.toNat 8 4 ∧
          t.rd (MEM_BANK_OWN_BUSY n b) = 1 ∧ t.rd (MEM_BANK_OWN_STEAL n b) = 1 ∧ t.bankMem = s.bankMem ∧
          t.rd (MEM_CNT_HO_HANDOVERS n) = (s.rd (MEM_CNT_HO_HANDOVERS n) + 1) % 2 ^ (MEM_CNT_HO_HANDOVERS n).width) ∧
    (∀ (b : Fin 48) (h : Handover), (s.region n).mem.handovers = [(b.val, h)] → h.left = 0 → (s.region n).mem.netHeld = [] →
      Gives (.handoverEnd n b) s fun t => t.rd (MEM_BANK_OWN_BUSY n b) = 0 ∧ (t.region n).mem.handovers = [] ∧
        t.rd (MEM_BANK_OWN_OWNER n b) = s.rd (MEM_BANK_OWN_OWNER n b) ∧ t.bankMem = s.bankMem) ∧
    (∀ (b : Fin 48) (h : Handover), (s.region n).mem.handovers = [(b.val, h)] → 0 < h.left → exec (.handoverEnd n b) s = .next s) ∧
    (∀ b : Fin 48, (s.region n).mem.steals = [] → exec (.stealTimeout n b) s = .next s) ∧
    (∀ (b : Fin 48) (p : Packet) (l : List Packet), (s.region n).mem.steals.get [] b.val = p :: l → exec (.stealTimeout n b) s =
      .next (((((((s.modMem n fun m => { m with steals := m.steals.put [] b l }).bump (MEM_CNT_HO_STEALTO n)).raise (MEM_STATUS_STEALTO n)).logEvLimited
        (unitRegion n) 0x0703 1 5 (unitRegion n) b).answerOwner n).respond n p 5 [] 0))) ∧
    ((s.region n).mem.rowQueue = [] → exec (.rowRemapDone n) s = .next s) ∧
    (∀ (p row : Nat) (l : List (Nat × Nat)), (s.region n).mem.rowQueue = (p, row) :: l → row < 1024 →
      s.rd (MEM_ROWUSE_USED n p) < 16 → (s.region n).mem.rowMap.get 0 (p * 1024 + row) = 0 →
      (∀ i < 16, s.bankSyn.get 0 (bankWord n p (row * 16 + i)) = 0) → Gives (.rowRemapDone n) s fun t =>
        (t.region n).mem.rowQueue = l ∧ t.rd (MEM_ROWUSE_LASTROW n p) = row ∧
          ∀ i < 16, 16384 ≤ (t.region n).bankRow p (row * 16 + i) ∧ t.lineAt (t.bankAt n p (row * 16 + i)) = s.lineAt (s.bankAt n p (row * 16 + i))) ∧
    (s.rd (MEM_COPY_STATE n) = 1 → Gives (.bankCopyDone n) s fun t => t.rd (MEM_COPY_STATE n) = 2 ∧ t.rd (MEM_COPY_WORDS n) = 16384 ∧ t.regions = s.regions) ∧
    (s.rd (MEM_COPY_STATE n) ≠ 1 → exec (.bankCopyDone n) s = .next s)

/-- O33 (R386, R387, R388, R389, R390). Each data bit's column has the three bits of R387 and flipping the bit changes
the valid check bits by its column; with no error a read delivers the word as it stands with OK; with any one of the
128 data bits or 16 check bits flipped it delivers the original data with CORRECTED; with any two of the 144 bits
flipped it is never judged a correction nor clean; check bits exclusive-or 0xFFFF read as poisoned with POISON. -/
def Obligations.V144CorrectsOneBitAndFindsTwo : Prop :=
  (∀ (d : Line) (i : Fin 128), v144Check (d ^^^ (1#128 <<< i.val)) = v144Check d ^^^ v144Col i) ∧
  (∀ d : Line, v144Read d 0 = (d, false, 0)) ∧
  (∀ (d : Line) (i : Fin 128), v144Read (d ^^^ (1#128 <<< i.val)) (v144Col i) = (d, false, 1)) ∧
  (∀ (d : Line) (j : Fin 16), v144Read d (2 ^ j.val) = (d, false, 1)) ∧
  (∀ d : Line, v144Read d 0xFFFF = (d, true, 2)) ∧
  (∀ i j : Fin 144, i ≠ j →
    let col := fun k : Fin 144 => if k.val < 128 then v144Col k else 2 ^ (k.val - 128)
    v144Judge (col i ^^^ col j) = .uncorrectable)

/-- O34 (R395, R399, R401, R402, R404, R406, R409). A pending write-back writes the corrected word with a valid code,
leaving other words alone; a poison rewrite of a bank word keeps its data and makes it read poisoned; with none
pending neither changes anything. A patrol read of a clean word changes no byte and moves the patrol on; with patrol
off, or in a DARK region, nothing is read. A GO write of ECC_INJ arms the injection it names, with KIND 0 it disarms,
without GO it changes nothing but the answer. A read of W0 copies the entry, a write of VALID = 0 clears it. -/
def Obligations.ErrorCorrectionCommands : Prop :=
  ∀ s : State,
    (∀ (n : Fin 64) (p : Fin 50) (w : Nat), (s.region n).ecc.wbs = [⟨0, p.val, w, false⟩] → Gives (.writeBack ⟨n.val, by omega⟩ 0 p) s fun t =>
      let a := bankWord n p w
      t.lineAt a = (v144Read (s.lineAt a) (s.bankSyn.get 0 a)).1 ∧ t.bankSyn.get 0 a = 0 ∧ (t.region n).ecc.wbs = [] ∧
        ∀ k, k < a * 16 ∨ a * 16 + 16 ≤ k → Memory.readByte t.bankMem k = Memory.readByte s.bankMem k) ∧
    (∀ (n : Fin 64) (p : Fin 50) (w : Nat), (s.region n).ecc.wbs = [⟨0, p.val, w, true⟩] → Gives (.poisonRewrite ⟨n.val, by omega⟩ 0 p) s fun t =>
      let a := bankWord n p w
      t.lineAt a = s.lineAt a ∧ t.bankSyn.get 0 a = 0xFFFF ∧ (t.region n).ecc.wbs = []) ∧
    (∀ (n : Fin 65) (m : Fin 4) (u : Fin 50), (s.eccOf n).wbs = [] →
      exec (.writeBack n m u) s = .next s ∧ exec (.poisonRewrite n m u) s = .next s) ∧
    (∀ (n : Fin 64) (p : Fin 50) (i : Nat), s.flag (ECC_CFG_PATROL n) = true → (s.region n).state ≠ .dark →
      (s.region n).patrolFrom p (s.rd (MEM_ROWUSE_USED n p)) 1040 ((s.region n).ecc.ptr.get 0 p.val) = some i →
      s.bankSyn.get 0 (bankWord n p i) = 0 → Gives (.patrolRead n p) s fun t =>
        t.bankMem = s.bankMem ∧ t.bankSyn = s.bankSyn ∧ t.log = s.log ∧ (t.region n).state = (s.region n).state ∧
          (t.region n).ecc.ptr.get 0 p.val =
            ((s.region n).patrolFrom p (s.rd (MEM_ROWUSE_USED n p)) 1040 (i + 1)).getD 0) ∧
    (∀ (n : Fin 64) (p : Fin 50), s.flag (ECC_CFG_PATROL n) = false ∨ (s.region n).state = .dark → exec (.patrolRead n p) s = .next s) ∧
    (∀ (n : Fin 64) (e : Fin 25), s.flag (ECC_CFG_EPATROL n) = false ∨ (s.region n).state = .dark →
      exec (.enginePatrolRead ⟨n.val, by omega⟩ e) s = .next s) ∧
    (∀ i : Nat, s.sup.ecc.eptr.get 0 0 = i → i < 4096 → s.sup.eng.syn.get 0 i = 0 → exec (.enginePatrolRead 64 0) s =
      .next { s with sup := { s.sup with ecc := { s.sup.ecc with eptr := s.sup.ecc.eptr.put 0 0 (i + 1) } } }) ∧
    (∀ (acc : Accessor) (n : Fin 64) (v : Word), bitOf v.toNat 31 = true → bitsOf v.toNat 30 29 ≠ 0 → Gives (.eccInj acc n v) s fun t =>
      (t.region n).ecc.inj = some ⟨bitsOf v.toNat 30 29, bitsOf v.toNat 28 23, bitsOf v.toNat 22 15, bitsOf v.toNat 13 0⟩ ∧ t.bankMem = s.bankMem) ∧
    (∀ (acc : Accessor) (n : Fin 64) (v : Word), bitOf v.toNat 31 = true → bitsOf v.toNat 30 29 = 0 → Gives (.eccInj acc n v) s fun t =>
      (t.region n).ecc.inj = none) ∧
    (∀ (acc : Accessor) (n : Fin 64) (v : Word), bitOf v.toNat 31 = false → exec (.eccInj acc n v) s = .next { s with rsp := ⟨0, 0⟩ }) ∧
    (∀ (acc : Accessor) (n : Fin 65) (k : Fin 32) (x : EccEntry), (s.eccOf n).table = [(k.val, x)] → Gives (.eccTblW0Read acc n k) s fun t =>
      (t.eccOf n).copy = some x ∧ (t.eccOf n).table = (s.eccOf n).table ∧ t.rsp = ⟨0, EccUnit.words (some x) 0⟩) ∧
    (∀ (acc : Accessor) (n : Fin 65) (k : Fin 32), Gives (.eccTblClear acc n k) s fun t =>
      (∀ x ∈ (t.eccOf n).table, x.1 ≠ k.val) ∧ (∀ x ∈ (s.eccOf n).table, x.1 ≠ k.val → x ∈ (t.eccOf n).table) ∧ t.rsp = ⟨0, 0⟩)

/-- O35 (R228, R252, R253, R254, R255, R256, R257, R281). On an engine that can issue, outside a delay slot and a
loop, an operation with valid fields and no moves completes in one issue: MPY, MPYN the product or its negation, MAC,
MACN the accumulator plus or minus the product, ADD, SUB the accumulator plus or minus the source, COPY, NEG, ABS,
CLR, RNDC, ASL, ASR, AND, OR, XOR, MAX and MIN as the table gives; each writes Ad and the flags of its group and
nothing else; CMP writes flags only. Sources are the registers the instruction sees, the accumulator input that with
the result of the instruction before. A source code or count that the table does not give makes it a no-operation. An
engine that is not in RUN does nothing. -/
def Obligations.EngineArithmeticOnOneAccumulator : Prop :=
  ∀ (s : State) (g : EngId) (p : Par), p.dm.kind = 0 → p.km.kind = 0 →
    let e := s.eng g
    let a := e.inputs.reg (4 + b2n p.d)
    let pr := prod24 (e.sees.reg p.sa) (e.sees.reg p.sb)
    let x := e.sees.srcVal p.sa
    let h := bitsOf a 47 24
    (s.EngineFree g →
      (p.sa.val < 4 → p.sb.val < 4 →
        GivesAcc (.mpy g p) s g p.d (groupP pr p.rnd p.s) ∧ GivesAcc (.mpyn g p) s g p.d (groupP (-pr) p.rnd p.s) ∧
        GivesAcc (.mac g p) s g p.d (accAdd a pr p.rnd p.s) ∧ GivesAcc (.macn g p) s g p.d (accSub a pr p.rnd p.s)) ∧
      (p.sa.val < 6 →
        GivesAcc (.add g p) s g p.d (accAdd a x p.rnd p.s) ∧ GivesAcc (.sub g p) s g p.d (accSub a x p.rnd p.s) ∧
        GivesAcc (.copy g p) s g p.d (groupT (to56 x) p.rnd p.s) ∧
        GivesAcc (.max g p) s g p.d (groupT (if acc56 a < x then to56 x else a) p.rnd p.s) ∧
        GivesAcc (.min g p) s g p.d (groupT (if x < acc56 a then to56 x else a) p.rnd p.s) ∧
        Gives (.cmp g p) s fun t => s.EngineOp t g [0x33] [] ∧ s.FlagsAre t g (accSub a x false false).flags) ∧
      GivesAcc (.neg g p) s g p.d (groupA (-(acc56 a)) (a != 0) p.rnd p.s) ∧
      GivesAcc (.abs g p) s g p.d (groupA (acc56 a).natAbs (a != 0) p.rnd p.s) ∧
      GivesAcc (.clr g p) s g p.d (groupT 0 p.rnd p.s) ∧
      GivesAcc (.rndc g p) s g p.d (groupT a true p.s) ∧
      (1 ≤ p.count → p.count ≤ 55 → GivesAcc (.asl g p) s g p.d (accAsl a p.count p.rnd p.s) ∧
        GivesAcc (.asr g p) s g p.d (accAsr a p.count p.rnd p.s)) ∧
      (p.sa.val < 4 → GivesAcc (.and g p) s g p.d (accBits a (h &&& e.sees.reg p.sa)) ∧
        GivesAcc (.or g p) s g p.d (accBits a (h ||| e.sees.reg p.sa)) ∧
        GivesAcc (.xor g p) s g p.d (accBits a (h ^^^ e.sees.reg p.sa))) ∧
      (4 ≤ p.sa.val ∨ 4 ≤ p.sb.val → GivesNop (.mpy g p) s g ∧ GivesNop (.mpyn g p) s g ∧ GivesNop (.mac g p) s g ∧
        GivesNop (.macn g p) s g) ∧
      (6 ≤ p.sa.val → GivesNop (.add g p) s g ∧ GivesNop (.sub g p) s g ∧ GivesNop (.cmp g p) s g ∧ GivesNop (.copy g p) s g ∧
        GivesNop (.max g p) s g ∧ GivesNop (.min g p) s g) ∧
      (p.count = 0 ∨ 55 < p.count → GivesNop (.asl g p) s g ∧ GivesNop (.asr g p) s g) ∧
      (4 ≤ p.sa.val → GivesNop (.and g p) s g ∧ GivesNop (.or g p) s g ∧ GivesNop (.xor g p) s g)) ∧
    (e.state ≠ .run → exec (.mpy g p) s = .next s ∧ exec (.add g p) s = .next s ∧ exec (.clr g p) s = .next s)

/-- O36 (R225, R228, R235, R253, R255, R257, R260, R261, R262, R263). DMPY, DMAC and DMACX write both accumulators
from four sources, and the flags of A0 with V and SAT of either. NOP does nothing. A LOAD takes the word at the
address of its mode into its register and updates the pointer; a STORE writes a register, or the transfer of an
accumulator, R rounded and S saturated, with SAT where it saturated; UPDATE updates the pointer alone. A MAC beside
two loads uses the registers as they were. A pop takes the oldest word of the engine's stream FIFO into a register
pair, a push enters a pair; with nothing to pop or no room the engine stalls. In the supervisor STREAM does nothing.
-/
def Obligations.EngineDualOperationsAndMoves : Prop :=
  ∀ (s : State) (g : EngId), s.EngineFree g →
    let e := s.eng g
    let v := e.sees
    let done := fun (c : Instr) (P : State → Prop) => Gives c s P
    (∀ p : Par, p.dm.kind = 0 → p.km.kind = 0 → GivesNop (.nop g p) s g ∧
      (p.sa.val < 4 → p.sb.val < 4 → p.sc.val < 4 → p.sd.val < 4 →
        let x := prod24 (v.reg p.sa) (v.reg p.sb)
        let y := prod24 (v.reg p.sc) (v.reg p.sd)
        let dual := fun (c : Instr) (m n : AccOut) => done c fun t =>
          s.EngineOp t g [4, 5, 0x33] [] ∧ s.AccIs t g false m ∧ s.AccIs t g true n ∧ s.FlagsAre t g (dualFlags m n)
        dual (.dmpy g p) (groupP x p.rnd p.s) (groupP y p.rnd p.s) ∧
        dual (.dmac g p) (accAdd (e.inputs.reg 4) x p.rnd p.s) (accAdd (e.inputs.reg 5) y p.rnd p.s) ∧
        dual (.dmacx g p) (accAdd (e.inputs.reg 4) x p.rnd p.s) (accSub (e.inputs.reg 5) y p.rnd p.s)) ∧
      (4 ≤ p.sa.val ∨ 4 ≤ p.sb.val ∨ 4 ≤ p.sc.val ∨ 4 ≤ p.sd.val →
        GivesNop (.dmpy g p) s g ∧ GivesNop (.dmac g p) s g ∧ GivesNop (.dmacx g p) s g)) ∧
    (∀ (k : Bool) (reg mode ptr : Fin 8), mode.val < 5 →
      let m := b2n k
      let a := m * 16384 + (v.address mode ptr).1
      let moved := fun t : State => (t.eng g).cur.reg (0x10 + ptr) =
        if mode.val = 0 ∨ mode.val = 4 then v.reg (0x10 + ptr) else (v.address mode ptr).2
      let sto := fun (c : Instr) (r q : Bool) => done c fun t =>
        let x := storeWord (e.commit e.idx) reg r q
        s.EngineOp t g [0x10 + ptr, 0x33] [a] ∧ moved t ∧ (t.eng g).mem.get 0 a = x.1 % 2 ^ 24 ∧ s.FlagsAre t g ⟨0, 0, x.2⟩
      (done (.update g k mode ptr) fun t => s.EngineOp t g [0x10 + ptr] [] ∧ moved t) ∧
      (reg.val < 6 → (done (.load g k reg mode ptr) fun t => s.EngineOp t g [reg, 0x10 + ptr] [] ∧ moved t ∧
          ((∀ w ∈ e.pend, w.reg ≠ reg) → (t.eng g).sees.reg reg % 2 ^ 24 = if reg.val < 4 then e.mem.get 0 a % 2 ^ 24 else 0) ∧
          ((∀ w ∈ e.pend, w.reg ≠ reg) → 4 ≤ reg.val → (t.eng g).sees.reg reg % 2 ^ 56 = wordToAcc (e.mem.get 0 a))) ∧
        sto (.store g k reg mode ptr) false false ∧ sto (.storeR g k reg mode ptr) true false ∧
        sto (.storeS g k reg mode ptr) false true ∧ sto (.storeRs g k reg mode ptr) true true)) ∧
    (∀ (p : Par) (r r' m m' q q' : Fin 8), p.dm = ⟨1, r, m, q⟩ → p.km = ⟨1, r', m', q'⟩ → p.sa.val < 4 → p.sb.val < 4 →
      r.val < 4 → r'.val < 4 → r ≠ r' → m.val < 5 → m'.val < 5 → done (.mac g p) fun t =>
        let o := accAdd (e.inputs.reg (4 + b2n p.d)) (prod24 (v.reg p.sa) (v.reg p.sb)) p.rnd p.s
        s.EngineOp t g [r, r', 0x10 + q, 0x10 + q', 4 + b2n p.d, 0x33] [] ∧ s.AccIs t g p.d o ∧ s.FlagsAre t g o.flags ∧
          ((∀ w ∈ e.pend, w.reg ≠ r) → (t.eng g).sees.reg r % 2 ^ 24 = e.mem.get 0 (v.address m q).1 % 2 ^ 24) ∧
          ((∀ w ∈ e.pend, w.reg ≠ r') → (t.eng g).sees.reg r' % 2 ^ 24 = e.mem.get 0 (16384 + (v.address m' q').1) % 2 ^ 24)) ∧
    (∀ (k : Bool) (n : Fin 64) (i : Fin 25), g = .rgn n i →
      (∀ (w : StreamWord) (l : List StreamWord), (s.region n).fab.toEng.get [] i = w :: l → w.poison = false → e.pend = [] →
        done (.stream g k 0) fun t => s.EngineOp t g [0, 1] [] ∧ (t.region n).fab.toEng.get [] i = l ∧
          (t.eng g).sees.reg 0 % 2 ^ 24 = bitsOf w.data.toNat 23 0 ∧ (t.eng g).sees.reg 1 % 2 ^ 24 = bitsOf w.data.toNat 47 24) ∧
      ((s.region n).fab.toEng.get [] i = [] → done (.stream g k 0) fun t => (t.eng g).cur.pc = e.cur.pc ∧
        (t.eng g).idx = e.idx ∧ t.rd (ENG_CNT_STALL_COUNT n i) = (s.rd (ENG_CNT_STALL_COUNT n i) + 1) % 2 ^ (ENG_CNT_STALL_COUNT n i).width) ∧
      (((s.region n).fab.fromEng.get [] i).length < 64 → done (.stream g k 2) fun t => s.EngineOp t g [] [] ∧
        (t.region n).fab.fromEng.get [] i = (s.region n).fab.fromEng.get [] i ++ [⟨BitVec.ofNat 48 (v.reg 0 + v.reg 1 * 2 ^ 24), false⟩])) ∧
    (∀ (k : Bool) (c : Fin 8), g = .sup → GivesNop (.stream g k c) s g)

/-- O37 (R216, R225, R254, R255, R257, R261, R266, R267, R268, R281). On an engine that can issue: LDI gives a
register of the map its immediate, MOVR the value of another register, MOVM the word of D or K or stores a register
there, each cut as the register wants, writes to read-only and unlisted codes doing nothing; a transfer that saturates
sets SAT. ADDI and CMPI act as ADD and CMP with the immediate. SWS and SWC set and clear the bits of SW that software
writes. A reserved encoding does nothing. Nothing else changes. -/
def Obligations.EngineRegisterMovesAndImmediates : Prop :=
  ∀ (s : State) (g : EngId), s.EngineFree g →
    let e := s.eng g
    let sup := isSup g
    let reg := fun c : Nat => (dataReg c).getD c
    (∀ (d : Bool) (rnd sat : Bool) (imm : BitVec 24),
      GivesAcc (.addi g d rnd sat imm) s g d (accAdd (e.inputs.reg (4 + b2n d)) (val24 imm.toNat) rnd sat) ∧
      Gives (.cmpi g d imm) s fun t => s.EngineOp t g [0x33] [] ∧
        s.FlagsAre t g (accSub (e.inputs.reg (4 + b2n d)) (val24 imm.toNat) false false).flags) ∧
    (∀ m : BitVec 16, (Gives (.sws g m) s fun t => s.EngineOp t g [0x33] [] ∧ ∀ i < 16, bitOf ((t.eng g).final.reg 0x33) i =
        ((bitOf 0x239F i && bitOf m.toNat i) || bitOf (e.final.reg 0x33) i)) ∧
      (Gives (.swc g m) s fun t => s.EngineOp t g [0x33] [] ∧ ∀ i < 16, bitOf ((t.eng g).final.reg 0x33) i =
        (!(bitOf 0x239F i && bitOf m.toNat i) && bitOf (e.final.reg 0x33) i))) ∧
    GivesNop (.reservedEncoding g) s g ∧
    (∀ a : MovmArgs, a.abs = false → 5 ≤ a.mode.val → GivesNop (.movm g a) s g) ∧
    (e.pend = [] →
      (∀ (dst : Fin 64) (imm : BitVec 24),
        (Gives (.ldi g dst imm) s fun t => s.EngineOp t g [reg dst] [] ∧ e.CodeIs (t.eng g) dst imm.toNat) ∧
        (0x0C ≤ dst.val ∧ dst.val < 0x10 ∨ 0x36 ≤ dst.val → GivesNop (.ldi g dst imm) s g) ∧
        (∀ (src : Fin 64) (rnd sat : Bool), let x := e.readCode sup src rnd sat
          Gives (.movr g dst src rnd sat) s fun t => s.EngineOp t g [reg dst, 0x33] [] ∧
            (x.2 = false → e.CodeIs (t.eng g) dst x.1 ∧ (dst.val ≠ 0x33 → (t.eng g).final.reg 0x33 = e.final.reg 0x33)) ∧
            (x.2 = true → bitOf ((t.eng g).final.reg 0x33) 7 = true))) ∧
      (∀ a : MovmArgs, a.abs = true ∨ a.mode.val < 5 →
        let k := b2n a.k * 16384 + if a.abs then a.addr.val else (e.sees.address a.mode a.ptr).1
        let ptrs := if a.abs || a.mode.val == 0 || a.mode.val == 4 then [] else [0x10 + a.ptr.val]
        (a.store = false → a.reg.val ∉ ptrs → Gives (.movm g a) s fun t => s.EngineOp t g (reg a.reg :: ptrs) [] ∧
          e.CodeIs (t.eng g) a.reg (e.mem.get 0 k) ∧
          ∀ r ∈ ptrs, (t.eng g).final.reg r = (e.sees.address a.mode a.ptr).2) ∧
        (a.store = true → let x := e.readCode sup a.reg a.rnd a.s
          Gives (.movm g a) s fun t => s.EngineOp t g (0x33 :: ptrs) [k] ∧ (t.eng g).mem.get 0 k = x.1 % 2 ^ 24 ∧
            s.FlagsAre t g ⟨0, 0, x.2⟩ ∧ ∀ r ∈ ptrs, (t.eng g).final.reg r = (e.sees.address a.mode a.ptr).2)))

/-- O38 (R231, R269, R270, R271, R272, R273, R275, R276). BRA and CALL take the target or the next address after two
delay slots as their condition on SW holds or not, the target of an indirect BRA being the pointer's; CALL writes its
address plus 3 to the link pointer when the condition holds. A first slot passes; after the second the engine is at
the target, or back in the main set at IRA for RTI, or in WAIT with LF clear for WAIT and DONE when no enabled source
is pending. A transfer in a slot is no transfer. LOOP with a count and a last address above its own sets LC, LS, LE
and LF; with a count of 0 it continues after the last address; at the last address the loop counts down, and falls out
with LF clear at 1. -/
def Obligations.EngineTransfersTakeTwoDelaySlots : Prop :=
  ∀ (s : State) (g : EngId), s.EngineReady g →
    let e := s.eng g
    let pc := e.cur.pc
    let lf := bitOf (e.sees.reg 0x33) 9
    let p : Par := {}
    (s.EngineFree g →
      (∀ (c : Fin 16) (ind : Bool) (ptr : Fin 8) (tgt : Fin 4096), let a := if ind then e.sees.reg (0x10 + ptr) % 4096 else tgt.val
        Gives (.bra g c ind ptr tgt) s fun t => s.EngineStep t g (s.nextPc g) [] [] ∧
          (t.eng g).xfer = some ⟨2, if condHolds c (e.sees.reg 0x33) then .jump a else .notTaken, pc⟩) ∧
      (∀ (c : Fin 16) (ln : Fin 8) (tgt : Fin 4096), Gives (.call g c ln tgt) s fun t => s.EngineStep t g (s.nextPc g) [0x10 + ln] [] ∧
        (condHolds c (e.sees.reg 0x33) = true → (t.eng g).xfer = some ⟨2, .jump tgt, pc⟩ ∧
          (t.eng g).final.reg (0x10 + ln) % 2 ^ 14 = (pc + 3) % 4096) ∧
        (condHolds c (e.sees.reg 0x33) = false → (t.eng g).xfer = some ⟨2, .notTaken, pc⟩ ∧
          (t.eng g).final.reg (0x10 + ln) = e.final.reg (0x10 + ln))) ∧
      (Gives (.rti g) s fun t => s.EngineStep t g (s.nextPc g) [] [] ∧ (t.eng g).xfer = some ⟨2, .rti, pc⟩) ∧
      (Gives (.done g) s fun t => s.EngineStep t g (s.nextPc g) [] [] ∧ (t.eng g).xfer = some ⟨2, .done, pc⟩) ∧
      (Gives (.wait g) s fun t => s.EngineStep t g (s.nextPc g) [] [] ∧ (t.eng g).xfer = some ⟨2, .wait, pc⟩) ∧
      (∀ (n : BitVec 16) (r : Fin 64) (last : Fin 4096), e.pend = [] → 0 < n.toNat → pc < last.val →
        Gives (.loop g true n r last) s fun t => s.EngineOp t g [0x30, 0x31, 0x32, 0x33] [] ∧
          (t.eng g).final.reg 0x30 = n.toNat ∧ (t.eng g).final.reg 0x31 = pc + 1 ∧ (t.eng g).final.reg 0x32 = last ∧
          ∀ i < 16, bitOf ((t.eng g).final.reg 0x33) i = (decide (i = 9) || bitOf (e.final.reg 0x33) i)) ∧
      (∀ (r : Fin 64) (last : Fin 4096), e.pend = [] → Gives (.loop g true 0#16 r last) s fun t =>
        s.EngineStep t g ((last.val + 1) % 4096) [0x30] [] ∧ (t.eng g).final.reg 0x30 = 0)) ∧
    (∀ (x : XferAct) (src : Nat), e.xfer = some ⟨2, x, src⟩ → 16 ≤ src → Gives (.nop g p) s fun t =>
      s.EngineStep t g (s.nextPc g) [] [] ∧ (t.eng g).xfer = some ⟨1, x, src⟩) ∧
    (∀ (a src : Nat), e.xfer = some ⟨1, .jump a, src⟩ → 16 ≤ src → Gives (.nop g p) s fun t => s.EngineStep t g a [] [] ∧ (t.eng g).xfer = none) ∧
    (∀ src : Nat, e.xfer = some ⟨1, .notTaken, src⟩ → 16 ≤ src → lf = false → GivesNop (.nop g p) s g) ∧
    (∀ src : Nat, e.xfer = some ⟨1, .rti, src⟩ → 16 ≤ src → e.sh = true → e.pend = [] → Gives (.nop g p) s fun t =>
      (t.eng g).sh = false ∧ (t.eng g).xfer = none ∧ (t.eng g).cur.pc = e.shad.reg 0x35 ∧ (t.eng g).main.r = e.main.r ∧
        (t.eng g).state = .run) ∧
    (∀ src : Nat, e.xfer = some ⟨1, .wait, src⟩ → 16 ≤ src → 2 ≤ e.tmr → s.irqNow g = none → e.pend = [] → Gives (.nop g p) s fun t =>
      (t.eng g).xfer = none ∧ bitOf ((t.eng g).final.reg 0x33) 9 = false ∧ (t.eng g).cur.pc = s.nextPc g ∧ (t.eng g).state = .wait) ∧
    (∀ (n : Fin 64) (i : Fin 25) (x : XferAct) (src : Nat) (c : Fin 16) (tgt : Fin 4096), g = .rgn n i → e.xfer = some ⟨2, x, src⟩ → 16 ≤ src →
      Gives (.bra g c false 0 tgt) s fun t => (t.eng g).xfer = some ⟨1, x, src⟩ ∧ (t.eng g).cur.pc = s.nextPc g ∧
        t.rd (ENG_STAT2_DSLOT n i) = satAdd (ENG_STAT2_DSLOT n i).width (s.rd (ENG_STAT2_DSLOT n i)) 1) ∧
    (e.xfer = none → e.pend = [] → lf = true → e.sees.reg 0x32 = pc →
      (1 < e.sees.reg 0x30 → Gives (.nop g p) s fun t => s.EngineStep t g (e.sees.reg 0x31) [0x30] [] ∧
        (t.eng g).final.reg 0x30 = e.sees.reg 0x30 - 1) ∧
      (e.sees.reg 0x30 = 1 → Gives (.nop g p) s fun t => s.EngineStep t g (s.nextPc g) [0x30, 0x33] [] ∧
        (t.eng g).final.reg 0x30 = 0 ∧ bitOf ((t.eng g).final.reg 0x33) 9 = false))

/-- O39 (R230, R232, R233, R234, R236, R277, R278). On a region engine that can issue, to a bank that no handover
withholds, WLD, WST and WATM put one request in program order, with the bank, the word that the mode addresses, the
byte enables of the form and, for a store, the sign-extended registers; the pointer is updated and nothing else
changes until it lands. Fields the table does not give make a no-operation. In the supervisor nothing is issued, the
destination takes 0 and source 3 is raised. A landed load gives its lane, lanes or 56 bits to its registers, tagged by
poison; an answer that is not done gives 0, untagged, raises source 3, counts and is latched if it is the first.
Nothing lands before it is answered. -/
def Obligations.EngineWindowRequests : Prop :=
  ∀ (s : State) (n : Fin 64) (i : Fin 25),
    let g := EngId.rgn n i
    let e := s.eng g
    let v := e.sees
    (∀ w : WinArgs, s.EngineFree g → s.bankHolds g w.bank = false →
      let a := (v.address w.mode w.ptr).1
      let half := 8 * (w.lane.val / 2)
      let mask := if w.form.val = 0 then 0xFFFF else if w.form.val = 1 then 0xF * 2 ^ (4 * w.lane.val) else 0xFF * 2 ^ half
      let full := w.form.val = 0 ∨ w.form.val = 1 ∧ w.reg.val < 6 ∨ w.form.val = 2 ∧ (w.reg.val = 4 ∨ w.reg.val = 5)
      let atom := w.form.val = 0 ∧ w.reg.val < 4 ∨ (w.form.val = 1 ∨ w.form.val = 2) ∧ (w.reg.val = 4 ∨ w.reg.val = 5)
      let asks := fun (t : State) (chg : List Nat) (P : WinReq → Prop) =>
        s.EngineStep t g (s.nextPc g) ((0x10 + w.ptr.val) :: chg) [] ∧ (t.eng g).xfer = none ∧
          (t.eng g).cur.reg (0x10 + w.ptr) = (if w.mode.val = 0 ∨ w.mode.val = 4 then v.reg (0x10 + w.ptr) else (v.address w.mode w.ptr).2) ∧
          ∃ r, (t.eng g).outst = [r] ∧ r.bank = w.bank ∧ r.word = a ∧ r.shadow = e.sh ∧ r.poison = false ∧ r.rsp = none ∧
            r.pc = e.cur.pc ∧ P r
      (w.mode.val < 5 → full → (Gives (.wld g w) s fun t => asks t [] fun r => r.op = .read ∧ r.kind = .load ∧ r.form = w.form ∧
          r.lane = w.lane ∧ r.reg = w.reg) ∧
        Gives (.wst g w) s fun t => asks t [0x33] fun r => r.op = .write ∧ r.kind = .store ∧ r.mask = mask ∧
          (w.form.val = 0 → ∀ l < 4, bitsOf r.data.toNat (32 * l + 31) (32 * l) = unsignedOf 32 (signedOf 24 (v.reg l))) ∧
          (w.form.val = 1 → bitsOf r.data.toNat (32 * w.lane.val + 31) (32 * w.lane.val) =
            unsignedOf 32 (signedOf 24 (storeWord (e.commit e.idx) w.reg w.rnd w.s).1)) ∧
          (w.form.val = 2 → bitsOf r.data.toNat (8 * half + 63) (8 * half) = unsignedOf 64 (signedOf 56 (v.reg w.reg)))) ∧
      (w.mode.val < 5 → atom → Gives (.watm g w) s fun t => asks t [] fun r => r.kind = .atomic ∧ r.reg = w.reg ∧
        r.op = (if w.form.val = 0 then .add32 else if w.form.val = 1 then .add64 else .swap64) ∧
        r.mask = (if w.form.val = 0 then 0xF * 2 ^ (4 * w.lane.val) else 0xFF * 2 ^ half) ∧
        r.data.toNat = if w.form.val = 0 then unsignedOf 32 (signedOf 24 (v.reg w.reg)) else unsignedOf 64 (signedOf 56 (v.reg w.reg))) ∧
      (5 ≤ w.mode.val ∨ ¬full → GivesNop (.wld g w) s g ∧ GivesNop (.wst g w) s g) ∧
      (5 ≤ w.mode.val ∨ ¬atom → GivesNop (.watm g w) s g)) ∧
    (∀ w : WinArgs, s.EngineFree .sup → w.mode.val < 5 → w.form.val = 1 → w.reg.val < 4 → (s.eng .sup).pend = [] →
      Gives (.wld .sup w) s fun t => (t.eng .sup).outst = [] ∧ (t.eng .sup).sees.reg w.reg % 2 ^ 24 = 0 ∧
        bitOf (t.eng .sup).ipend 3 = true ∧ t.regions = s.regions) ∧
    (e.outst = [] → exec (.windowLoadLand n i) s = .next s) ∧
    (∀ (r : WinReq) (l : List WinReq), e.outst = r :: l → r.rsp = none → exec (.windowLoadLand n i) s = .next s) ∧
    (∀ (r : WinReq) (l : List WinReq) (a : WinRsp), e.outst = r :: l → r.rsp = some a → r.shadow = e.sh →
      let d := a.data.toNat
      (statusDone a.status = true → Gives (.windowLoadLand n i) s fun t => (t.eng g).outst = l ∧ t.log = s.log ∧
        (r.kind = .load → r.form = 0 → ∀ c < 4, (t.eng g).cur.reg c = bitsOf d (32 * c + 23) (32 * c) ∧ (t.eng g).cur.tagged c = a.poison) ∧
        (r.kind = .load → r.form = 1 → r.reg < 4 → (t.eng g).cur.reg r.reg = bitsOf d (32 * r.lane + 23) (32 * r.lane) ∧
          (t.eng g).cur.tagged r.reg = a.poison) ∧
        (r.kind = .load → r.form = 2 → r.lane < 4 → (t.eng g).cur.reg r.reg = bitsOf d (64 * (r.lane / 2) + 55) (64 * (r.lane / 2))) ∧
        (r.kind = .atomic → r.reg < 4 → (t.eng g).cur.reg r.reg = d % 2 ^ 24) ∧ t.bankMem = s.bankMem) ∧
      (statusDone a.status = false → Gives (.windowLoadLand n i) s fun t => (t.eng g).outst = l ∧ bitOf (t.eng g).ipend 3 = true ∧
        (r.kind = .load → r.form = 0 → ∀ c < 4, (t.eng g).cur.reg c = 0 ∧ (t.eng g).cur.tagged c = false) ∧
        t.rd (ENG_STAT2_BERR n i) = satAdd (ENG_STAT2_BERR n i).width (s.rd (ENG_STAT2_BERR n i)) 1 ∧
        (s.flag (ENG_BERR_VALID n i) = true → t.rd (ENG_BERR_STATUS n i) = s.rd (ENG_BERR_STATUS n i)) ∧
        (s.flag (ENG_BERR_VALID n i) = false → a.status < 16 → t.rd (ENG_BERR_VALID n i) = 1 ∧ t.rd (ENG_BERR_STATUS n i) = a.status ∧
          t.rd (ENG_BERR_BANK n i) = r.bank % 2 ^ 6)))

/-- O40 (R234, R279, R280). In the running supervisor, with nothing outstanding, SLD and SST of a region register put
one access with the next number under way, unanswered, at an address that is not a multiple of 4 answered DECODE; SLD
locks its accumulator, so that an instruction using it waits. An answer that is done gives the low 32 bits to the
accumulator and releases it; one that is not done gives 0 and raises source 3. In a region engine nothing is issued:
SLD's accumulator takes 0, source 3 is raised, and the error is latched with REFUSED, bank 63 and the address of the
instruction. -/
def Obligations.SystemLoadsAndStores : Prop :=
  ∀ (s : State) (d : Bool) (a : Word),
    let e := s.sup.eng
    (s.EngineFree .sup → e.pend = [] → s.chip.state = .run → (addrRegion a.toNat).isSome = true →
      let x := fun (load : Bool) => SysAcc.mk load (b2n d) e.sh s.sup.nextSys (if a.toNat % 4 = 0 then none else some ⟨4, 0⟩)
      (Gives (.sld .sup d false a) s fun t => t.sup.eng.sys = [x true] ∧ t.sup.nextSys = s.sup.nextSys + 1 ∧
        t.sup.eng.cur.pc = s.nextPc .sup ∧ t.sup.eng.locked (4 + b2n d) = true ∧ t.regions = s.regions) ∧
      (Gives (.sst .sup d false a) s fun t => t.sup.eng.sys = [x false] ∧ t.sup.nextSys = s.sup.nextSys + 1 ∧
        t.sup.eng.cur.pc = s.nextPc .sup ∧ t.sup.eng.locked (4 + b2n d) = false ∧ t.regions = s.regions)) ∧
    (e.sys = [] → exec .systemAccessResponse s = .next s) ∧
    (∀ (x : SysAcc) (l : List SysAcc), e.sys = x :: l → x.rsp = none → exec .systemAccessResponse s = .next s) ∧
    (∀ (x : SysAcc) (l : List SysAcc) (r : Rsp), e.sys = x :: l → x.rsp = some r → x.load = true → x.shadow = e.sh →
      Gives .systemAccessResponse s fun t => t.sup.eng.sys = l ∧ t.sup.eng.cur.tagged (4 + x.acc) = false ∧
        t.sup.eng.cur.reg (4 + x.acc) = (if statusDone r.status then r.data % 2 ^ 32 else 0) ∧
        (statusDone r.status = true → t.sup.eng.ipend = e.ipend) ∧ (statusDone r.status = false → bitOf t.sup.eng.ipend 3 = true) ∧
        t.regions = s.regions ∧ t.regs = s.regs) ∧
    (∀ (x : SysAcc) (l : List SysAcc) (r : Rsp), e.sys = x :: l → x.rsp = some r → x.load = false → statusDone r.status = true →
      exec .systemAccessResponse s = .next { s with sup := { s.sup with eng := { e with sys := l } } }) ∧
    (∀ (n : Fin 64) (i : Fin 25) (ind : Bool), let g := EngId.rgn n i
      s.EngineFree g → (s.eng g).pend = [] → s.chip.state = .run → s.flag (ENG_BERR_VALID n i) = false →
      let err := fun t : State => (t.eng g).sys = [] ∧ (t.eng g).outst = [] ∧ bitOf (t.eng g).ipend 3 = true ∧ t.rd (ENG_BERR_VALID n i) = 1 ∧
        t.rd (ENG_BERR_STATUS n i) = 0xA ∧ t.rd (ENG_BERR_BANK n i) = 63 ∧ t.rd (ENG_BERR_ADDR n i) = (s.eng g).cur.pc % 2 ^ 14 ∧
        (t.eng g).cur.pc = s.nextPc g ∧ t.bankMem = s.bankMem ∧ t.sup = s.sup
      (Gives (.sld g d ind a) s fun t => err t ∧ (t.eng g).sees.reg (4 + b2n d) % 2 ^ 56 = 0) ∧
      (Gives (.sst g d ind a) s fun t => err t ∧ (t.eng g).final.reg (4 + b2n d) = (s.eng g).final.reg (4 + b2n d)))

/-- O41 (R222, R236, R238, R239, R242, R245, R250, R258, R266). Between instructions, with no transfer under way and
not just resumed, the recognised source enters: the shadow set with IRA the next address, PC twice the source, an
event bit cleared, the main set's SAT and PSN cleared by a dispatch. A pending enabled source 4 comes first; with IE
clear or in the shadow set none is taken. TMR running out pends source 2. STOP stops an engine in RUN or WAIT and its
clearing resumes it there. A read of ENG_MDATA_LO answers the word at ENG_MADDR, a write stores it, and either
advances the address; a write of P in RUN is refused. An operation on a tagged source sets PSN, pends source 4,
counts, and tags its result. -/
def Obligations.EngineInterruptsTimerStopAndAccess : Prop :=
  ∀ (s : State) (n : Fin 64) (i : Fin 25),
    let g := EngId.rgn n i
    let e := s.eng g
    (e.pend = [] → (e.state = .run ∨ e.state = .wait) → e.xfer = none → e.resumed = false → e.sh = false →
      (∀ k, s.irqNow g = some k → Gives (.interruptEntry g) s fun t => (t.eng g).sh = true ∧ (t.eng g).state = .run ∧
        (t.eng g).shad.pc = 2 * k ∧ (t.eng g).shad.reg 0x35 = e.main.pc ∧ (t.eng g).main.pc = e.main.pc ∧
        (∀ c, c ≠ 0x35 → (t.eng g).shad.reg c = e.shad.reg c) ∧ (∀ c, c ≠ 0x33 → (t.eng g).main.reg c = e.main.reg c) ∧
        (k = 2 ∨ k = 3 ∨ k = 4 → bitOf (t.eng g).ipend k = false ∧ (t.eng g).main.reg 0x33 = e.main.reg 0x33) ∧
        (k = 0 → bitOf ((t.eng g).main.reg 0x33) 7 = false ∧ bitOf ((t.eng g).main.reg 0x33) 8 = false) ∧ t.regs = s.regs ∧
        t.bankMem = s.bankMem ∧ (∀ h, h ≠ g → t.eng h = s.eng h)) ∧
      (bitOf (e.main.reg 0x33) 13 = true → bitOf e.ipend 4 = true → bitOf (s.rd (ENG_CTRL_IMASK n i)) 4 = true →
        Gives (.interruptEntry g) s fun t => (t.eng g).cur.pc = 8 ∧ bitOf (t.eng g).ipend 4 = false) ∧
      (bitOf (e.main.reg 0x33) 13 = false → Gives (.interruptEntry g) s fun t => t.eng g = e ∧ t.regs = s.regs)) ∧
    (e.tmr ≠ 0 → Gives (.tmrExpire g) s fun t => (t.eng g).tmr = 0 ∧ bitOf (t.eng g).ipend 2 = true ∧ (t.eng g).cyc = e.cyc + e.tmr ∧
      (t.eng g).main = e.main ∧ (t.eng g).shad = e.shad ∧ t.regs = s.regs) ∧
    (e.tmr = 0 → exec (.tmrExpire g) s = .next s) ∧
    (s.flag (ENG_CTRL_STOP n i) = true → e.state = .run ∨ e.state = .wait → Gives (.engStop n i) s fun t =>
      t.eng g = { e with state := .stop, stopFrom := e.state } ∧ t.regs = s.regs) ∧
    (s.flag (ENG_CTRL_STOP n i) = false ∨ e.state ≠ .run ∧ e.state ≠ .wait → exec (.engStop n i) s = .next s) ∧
    (∀ (acc : Accessor) (v : Word), Gives (.engResume acc n i v) s fun t => t.rd (ENG_CTRL_STOP n i) = 0 ∧
      t.rd (ENG_CTRL_IMASK n i) = bitsOf v.toNat 23 16 ∧ t.eng g = if e.state = .stop then { e with state := e.stopFrom } else e) ∧
    (∀ (acc : Accessor) (m a : Nat), e.failed = false → s.rd (ENG_MADDR_MEM n i) = m → s.rd (ENG_MADDR_ADDR n i) = a → m < 2 → a < 16384 → e.syn = [] →
      (Gives (.engMdataRead acc n i) s fun t => t.rsp = ⟨0, e.mem.get 0 (m * 16384 + a) % 2 ^ 24 + b2n (e.psn.get false (m * 16384 + a)) * 2 ^ 24⟩ ∧
        t.rd (ENG_MADDR_ADDR n i) = (a + 1) % 16384 ∧ t.eng g = e) ∧
      (∀ v : Word, Gives (.engMdataWrite acc n i v) s fun t => t.rsp = ⟨0, 0⟩ ∧ (t.eng g).mem.get 0 (m * 16384 + a) = v.toNat % 2 ^ 24 ∧
        (t.eng g).psn.get false (m * 16384 + a) = bitOf v.toNat 24 ∧ t.rd (ENG_MADDR_ADDR n i) = (a + 1) % 16384 ∧
        ∀ k, k ≠ m * 16384 + a → (t.eng g).mem.get 0 k = e.mem.get 0 k)) ∧
    (∀ (acc : Accessor) (v : Word) (a : Nat), s.rd (ENG_MADDR_MEM n i) = 2 → s.rd (ENG_MADDR_ADDR n i) = a → a < 4096 →
      (e.state = .run → Gives (.engMdataWrite acc n i v) s fun t => t.rd (ENG_STAT_REFUSED n i) = 1 ∧ t.eng g = e ∧
        t.rd (ENG_MADDR_ADDR n i) = a) ∧
      (e.state = .wait → Gives (.engMdataWrite acc n i v) s fun t => t.rd (ENG_MADDR_ADDR n i) = (a + 1) % 4096 ∧
        (t.eng g).mem.get 0 (2 * 16384 + a) = (v.toNat % 2 ^ 24 + s.rd (ENG_MDATA_HI_DATA n i) * 2 ^ 24) % 2 ^ 48)) ∧
    (∀ p : Par, p.dm.kind = 0 → p.km.kind = 0 → p.sa.val < 4 → e.cur.tagged p.sa = true → e.state = .run → e.pend = [] → e.xfer = none →
      e.outst = [] → e.sys = [] → e.paging = none → e.failed = false → e.syn = [] → e.psn = [] → bitOf (e.cur.reg 0x33) 9 = false →
      Gives (.copy g p) s fun t => bitOf ((t.eng g).cur.reg 0x33) 8 = true ∧ bitOf (t.eng g).ipend 4 = true ∧
        t.rd (ENG_STAT2_PSN n i) = satAdd (ENG_STAT2_PSN n i).width (s.rd (ENG_STAT2_PSN n i)) 1 ∧ (t.eng g).inputs.tagged (4 + b2n p.d) = true)

/-- O42 (R214, R217, R218, R219, R220, R255, R256, R257). A product of two registers is twice the product of their
integers, between minus and plus one. A sum or difference without rounding and saturation is the exact integer when
that lies in the 56-bit range, V set exactly when it does not and the result then congruent modulo 2^56; N is its
sign, Z set exactly at 0. Saturation replaces exactly the values outside one integer bit by the nearest limit and sets
SAT. Convergent rounding gives a multiple of 2^24 within half of 2^24, the even one at a tie, unless it wraps. A
24-bit transfer with S is the value of bits 47 to 24 where they hold it, else the nearest limit. -/
def Obligations.EngineArithmeticInIntegers : Prop :=
  (∀ x y : Nat, -(2 ^ 47) < prod24 x y ∧ prod24 x y ≤ 2 ^ 47 ∧ prod24 x y = 2 * (signedOf 24 x * signedOf 24 y)) ∧
  (∀ (a : Nat) (x : Int), a < 2 ^ 56 → -(2 ^ 55) ≤ x → x < 2 ^ 55 →
    let sum := fun (o : AccOut) (i : Int) => o.acc < 2 ^ 56 ∧ (acc56 o.acc - i) % 2 ^ 56 = 0 ∧
      (bitOf o.flags.val 1 = decide (i < -(2 ^ 55) ∨ 2 ^ 55 ≤ i)) ∧ (-(2 ^ 55) ≤ i → i < 2 ^ 55 → acc56 o.acc = i) ∧
      bitOf o.flags.val 3 = decide (acc56 o.acc < 0) ∧ bitOf o.flags.val 2 = decide (acc56 o.acc = 0) ∧ o.flags.sat = false
    sum (accAdd a x false false) (acc56 a + x) ∧ sum (accSub a x false false) (acc56 a - x) ∧
    bitOf (accAdd a x false false).flags.val 0 = decide (2 ^ 56 ≤ a + to56 x) ∧
    bitOf (accSub a x false false).flags.val 0 = decide (a < to56 x)) ∧
  (∀ a : Nat, a < 2 ^ 56 → acc56 (sat56 a).1 = clampInt (-(2 ^ 47)) (2 ^ 47 - 1) (acc56 a) ∧
    ((sat56 a).2 = true ↔ acc56 a < -(2 ^ 47) ∨ 2 ^ 47 ≤ acc56 a) ∧ guard56 a = (sat56 a).2) ∧
  (∀ a : Nat, a < 2 ^ 56 → (round56 a).1 % 2 ^ 24 = 0 ∧ ((round56 a).2 = false →
    acc56 (round56 a).1 - acc56 a ≤ 2 ^ 23 ∧ acc56 a - acc56 (round56 a).1 ≤ 2 ^ 23 ∧
    (a % 2 ^ 24 = 2 ^ 23 → (round56 a).1 / 2 ^ 24 % 2 = 0))) ∧
  (∀ a : Nat, a < 2 ^ 56 → (transfer24 a false true).1 < 2 ^ 24 ∧
    signedOf 24 (transfer24 a false true).1 = clampInt (-(2 ^ 23)) (2 ^ 23 - 1) (acc56 a / 2 ^ 24)) ∧
  (∀ a k : Nat, a < 2 ^ 56 → 1 ≤ k → k ≤ 55 → acc56 (accAsr a k false false).acc = acc56 a / 2 ^ k ∧
    (-(2 ^ 55) ≤ acc56 a * 2 ^ k → acc56 a * 2 ^ k < 2 ^ 55 → acc56 (accAsl a k false false).acc = acc56 a * 2 ^ k))

/-- O43 (R354, R356, R357, R360, R363, R370). For each of the thirteen request opcodes: a request of a unit of a
running region or of an I/O interface, with fewer than 256 outstanding, a valid selected entry for its destination and
the next TID FREE, leaves once, at the end of its virtual channel's queue of the NI's router, with source, TID,
address, route and port of the entry, epoch and payload; the TID is then busy and the next one is tried next. A
destination without a route is answered DECODE, one marked UNAVAIL, by the NI itself; with 256 outstanding the request
waits. A unit of a region that does not run sends nothing. -/
def Obligations.RequestsLeaveWithTidAndRoute : Prop :=
  ∀ (s : State) (c : (NetCmd → Instr) × Nat), c ∈ [(Instr.token, 0x10), (Instr.enqueue, 0x11), (Instr.read1, 0x01), (Instr.read4, 0x02),
    (Instr.read16, 0x03), (Instr.write1, 0x05), (Instr.write4, 0x06), (Instr.write16, 0x07), (Instr.add32, 0x08), (Instr.add64, 0x09),
    (Instr.swap64, 0x0A), (Instr.regrd, 0x18), (Instr.regwr, 0x19)] → ∀ a : ReqArgs,
    let i := a.src.val
    let n := s.ni i
    (i < 64 → (s.region i).live = false → exec (c.1 (.issue a)) s = .next s) ∧
    ((i < 64 → (s.region i).live = true) →
      (256 ≤ n.out → Gives (c.1 (.issue a)) s fun t => t.net.queues = s.net.queues ∧ (t.ni i).waiting.length = n.waiting.length + 1 ∧
        (t.ni i).tids = n.tids ∧ t.regions = s.regions) ∧
      (n.out < 256 → ∀ st, s.lookup i a.dst = .error st → Gives (c.1 (.issue a)) s fun t => t.net.queues = s.net.queues ∧
        (t.ni i).tids = n.tids ∧ t.regions = s.regions ∧ (∃ x, (t.ni i).locals = n.locals ++ [x] ∧ x.pkt.status = st ∧ x.pkt.data = []) ∧
        t.rd (niFld NI_CNT_LOCAL_LOCAL i) = satAdd (niFld NI_CNT_LOCAL_LOCAL i).width (s.rd (niFld NI_CNT_LOCAL_LOCAL i)) 1) ∧
      (n.out < 256 → ∀ alt route dport, s.lookup i a.dst = .ok (alt, route, dport) → n.nextTid < 4096 →
        n.tids.any (fun e => e.1 == n.nextTid) = false → s.routerFaulted (s.niAt i) = false → Gives (c.1 (.issue a)) s fun t =>
          let k := queueKey (s.niAt i) (niInPort i n.bypass) (opcType c.2) alt
          (∀ j, j ≠ k → t.net.queues.get [] j = s.net.queues.get [] j) ∧
          (∃ p, t.net.queues.get [] k = s.net.queues.get [] k ++ [p] ∧ p.opc = c.2 ∧ p.src = i ∧ p.tid = n.nextTid ∧ p.addr = a.addr.toNat ∧
            p.route = route ∧ p.dport = dport ∧ p.alt = alt ∧ p.epoch = s.epoch ∧ p.be = a.be.toNat ∧ p.toktgt = a.toktgt.val ∧
            p.data = (List.range (reqWords c.2)).map fun j => a.data.getD j 0#128) ∧
          (t.ni i).nextTid = (n.nextTid + 1) % 4096 ∧
          (t.ni i).tids.find? (fun e => e.1 == n.nextTid) = some (n.nextTid, { opc := c.2, dst := a.dst, why := .unit }) ∧
          t.bankMem = s.bankMem ∧ t.regions = s.regions ∧ t.log = s.log))

/-- O44 (R189, R191, R202, R206, R357, R358, R372). At an open NI, a request for words that the network owns is served
and answered OK once: READ1, READ4 and READ16 answer the words and change nothing; WRITE1 stores the enabled bytes;
WRITE4 and WRITE16 store each word; ADD32, ADD64 and SWAP64 answer the old lane or lane pair and store the sum or the
new value in it alone; no other byte of the banks changes. A request for a bank the network does not own, without
stealing, is answered OWNER and counted, and an address outside the bank space DECODE, with no effect. -/
def Obligations.BankRequestsOfTheNetwork : Prop :=
  ∀ (s : State) (i : Fin 80) (f : XmFind) (p : Packet), i.val < 64 → s.NiOpen i p →
    let n := i.val
    let b := bitsOf p.addr 23 18
    let w := bitsOf p.addr 17 4
    let q := s.rd (MEM_BANK_OWN_PHYS n b)
    let a := fun j => s.bankAt n q (w + j)
    let x := (s.lineAt (a 0)).toNat
    let d := fun j => p.data.getD j 0#128
    let kept := fun (t : State) (k : Nat) => ∀ y, (∀ j < k, y < a j * 16 ∨ a j * 16 + 16 ≤ y) → Memory.readByte t.bankMem y = Memory.readByte s.bankMem y
    let reads := fun (t : State) (k : Nat) => s.Replied t n p 0 ((List.range k).map fun j => s.lineAt (a j)) ∧ t.bankMem = s.bankMem
    let writes := fun (t : State) (k : Nat) => s.Replied t n p 0 [] ∧ kept t k ∧ ∀ j < k, t.lineAt (a j) = d j
    (p.opc = 0x01 → s.NetBank n q 1 p → Gives (.read1 (.serve i f)) s fun t => reads t 1) ∧
    (p.opc = 0x02 → s.NetBank n q 4 p → Gives (.read4 (.serve i f)) s fun t => reads t 4) ∧
    (p.opc = 0x03 → s.NetBank n q 16 p → Gives (.read16 (.serve i f)) s fun t => reads t 16) ∧
    (p.psn = 0 → (p.opc = 0x05 → s.NetBank n q 1 p → Gives (.write1 (.serve i f)) s fun t => s.Replied t n p 0 [] ∧ kept t 1 ∧
        ∀ j < 16, Memory.readByte t.bankMem (a 0 * 16 + j) =
          if bitOf p.be j then BitVec.ofNat 8 ((d 0).toNat / 256 ^ j) else Memory.readByte s.bankMem (a 0 * 16 + j)) ∧
      (p.opc = 0x06 → s.NetBank n q 4 p → Gives (.write4 (.serve i f)) s fun t => writes t 4) ∧
      (p.opc = 0x07 → s.NetBank n q 16 p → Gives (.write16 (.serve i f)) s fun t => writes t 16) ∧
      (∀ l < 4, p.opc = 0x08 → p.be = 0xF * 2 ^ (4 * l) → s.NetBank n q 1 p → Gives (.add32 (.serve i f)) s fun t =>
        let o := bitsOf x (32 * l + 31) (32 * l)
        s.Replied t n p 0 [BitVec.ofNat 128 o] ∧ kept t 1 ∧
          t.lineAt (a 0) = BitVec.ofNat 128 (setBits x (32 * l + 31) (32 * l) ((o + (d 0).toNat % 2 ^ 32) % 2 ^ 32))) ∧
      (∀ h < 2, p.be = 0xFF * 2 ^ (8 * h) → s.NetBank n q 1 p → let o := bitsOf x (64 * h + 63) (64 * h)
        (p.opc = 0x09 → Gives (.add64 (.serve i f)) s fun t => s.Replied t n p 0 [BitVec.ofNat 128 o] ∧ kept t 1 ∧
          t.lineAt (a 0) = BitVec.ofNat 128 (setBits x (64 * h + 63) (64 * h) ((o + (d 0).toNat % 2 ^ 64) % 2 ^ 64))) ∧
        (p.opc = 0x0A → Gives (.swap64 (.serve i f)) s fun t => s.Replied t n p 0 [BitVec.ofNat 128 o] ∧ kept t 1 ∧
          t.lineAt (a 0) = BitVec.ofNat 128 (setBits x (64 * h + 63) (64 * h) ((d 0).toNat % 2 ^ 64))))) ∧
    (p.opc = 0x01 → s.gateOf (unitId n 3 q) = 0 →
      (2 ^ 24 ≤ p.addr ∨ p.addr % 16 ≠ 0 ∨ 48 ≤ b → Gives (.read1 (.serve i f)) s fun t => s.Replied t n p 4 [] ∧ t.bankMem = s.bankMem ∧ t.log = s.log) ∧
      (p.addr < 2 ^ 24 → p.addr % 16 = 0 → b < 48 → s.netOwns n b p.src = false → s.rd (MEM_BANK_OWN_STEAL n b) = 0 →
        Gives (.read1 (.serve i f)) s fun t => s.Replied t n p 5 [] ∧ t.bankMem = s.bankMem ∧ t.rd (MEM_STATUS_OWNERRSP n) = 1))

/-- O45 (R289, R290, R310, R357, R359, R372, R649). A request at a region in FENCED, LOADING or DARK, or draining, is
answered UNAVAIL; one in TEST is held while fewer than 64 are. A TOKEN for another region is answered DECODE, for a
free enabled flag it sets the flag and is answered OK, for a set flag REFUSED. An ENQUEUE on a queue with room is
answered its sequence number, with 32 items, or poisoned, REFUSED, above queue 7 DECODE. REGRD and REGWR at an address
that is not the NI's are answered DECODE; at a DARK region UNAVAIL; a poisoned REGWR POISON, writing nothing; at an
engine's ENG_CTRL they read and write it. -/
def Obligations.NetworkTargetsTakeRefuseAndHold : Prop :=
  ∀ (s : State) (i : Fin 80) (f : XmFind) (p : Packet), i.val < 64 → s.canReply i p.src = true → s.oldestRequest i p.opc = some p →
    let n := i.val
    let sl := bitsOf p.toktgt 10 3
    let fl := bitsOf p.toktgt 2 0
    let tk : SlotFlag := ⟨(p.data.getD 0 0#128).toNat % 2 ^ 32, p.stamp, bitOf p.psn 0⟩
    let q := (s.sch n).wqs.get [] p.addr
    (∀ c ∈ [(Instr.token, 0x10), (Instr.enqueue, 0x11), (Instr.read1, 0x01), (Instr.write16, 0x07), (Instr.add32, 0x08), (Instr.swap64, 0x0A)],
      p.opc = c.2 →
      (s.niRefuses n = true → Gives (c.1 (.serve i f)) s fun t => s.Replied t n p 3 [] ∧ t.bankMem = s.bankMem ∧ t.regions = s.regions) ∧
      (s.niRefuses n = false → s.gateOf (unitId n 4 0) = 0 → (s.region n).state = .test →
        ((s.ni n).held.length < 64 → Gives (c.1 (.serve i f)) s fun t => (t.ni n).held = (s.ni n).held ++ [p] ∧
          (t.ni n).inbox = (s.ni n).inbox.erase p ∧ t.bankMem = s.bankMem ∧ t.regions = s.regions ∧ t.net.queues = s.net.queues) ∧
        (64 ≤ (s.ni n).held.length → exec (c.1 (.serve i f)) s = .next s))) ∧
    (∀ c ∈ [(Instr.token, 0x10), (Instr.enqueue, 0x11), (Instr.read1, 0x01), (Instr.regrd, 0x18), (Instr.regwr, 0x19)], ∀ j : Fin 80,
      s.oldestRequest j c.2 = none → exec (c.1 (.serve j f)) s = .next s) ∧
    (p.opc = 0x10 → s.NiOpen n p →
      (bitsOf p.toktgt 16 11 ≠ n → Gives (.token (.serve i f)) s fun t => s.Replied t n p 4 [] ∧ t.regions = s.regions) ∧
      (bitsOf p.toktgt 16 11 = n → s.rd TRC_CTRL_MODE ≠ 2 → dEn ((s.sch n).desc sl) = true → bitOf (dMask ((s.sch n).desc sl)) fl = true →
        (((s.sch n).slot sl).flags.find? (fun g => g.1 == fl) = none → Gives (.token (.serve i f)) s fun t => s.Replied t n p 0 [] ∧
          ((t.sch n).slot sl).flags.get ⟨0, 0, false⟩ fl = tk ∧ (t.sch n).descs = (s.sch n).descs ∧ t.bankMem = s.bankMem) ∧
        (∀ g, ((s.sch n).slot sl).flags.find? (fun g => g.1 == fl) = some g → Gives (.token (.serve i f)) s fun t => s.Replied t n p 0xA [] ∧
          t.regions = s.regions ∧ t.rd (SCH_STATUS_TOKREF n) = 1))) ∧
    (p.opc = 0x11 → s.NiOpen n p →
      (8 ≤ p.addr → Gives (.enqueue (.serve i f)) s fun t => s.Replied t n p 4 [] ∧ t.regions = s.regions) ∧
      (p.addr < 8 → bitOf p.psn 0 = true → Gives (.enqueue (.serve i f)) s fun t => s.Replied t n p 0xA [] ∧ t.regions = s.regions) ∧
      (p.addr < 8 → bitOf p.psn 0 = false → q.length < 32 → Gives (.enqueue (.serve i f)) s fun t =>
        s.Replied t n p 0 [BitVec.ofNat 128 ((s.sch n).wqSeq.get 0 p.addr)] ∧ ((t.sch n).wqs.get [] p.addr).length = q.length + 1 ∧
          (t.sch n).wqSeq.get 0 p.addr = ((s.sch n).wqSeq.get 0 p.addr + 1) % 2048 ∧ t.bankMem = s.bankMem) ∧
      (p.addr < 8 → bitOf p.psn 0 = false → 32 ≤ q.length → Gives (.enqueue (.serve i f)) s fun t => s.Replied t n p 0xA [] ∧
        t.regions = s.regions ∧ t.rd (SCH_STATUS_WQREF n) = 1)) ∧
    (p.opc = 0x18 → ((s.region n).state = .dark → Gives (.regrd (.serve i f)) s fun t => s.Replied t n p 3 [] ∧ t.regs = s.regs) ∧
      ((s.region n).state ≠ .dark → addrRegion p.addr ≠ some n → Gives (.regrd (.serve i f)) s fun t => s.Replied t n p 4 [] ∧ t.regs = s.regs) ∧
      ((s.region n).state ≠ .dark → p.addr = 0x1010000 + n * 0x40000 → s.rd (ENG_CTRL_IMASK n 0) < 256 → s.rd (ENG_CTRL_STOP n 0) < 2 →
        Gives (.regrd (.serve i f)) s fun t => (∃ v, s.Replied t n p 0 [v] ∧ v.toNat = s.rd (ENG_CTRL_IMASK n 0) * 2 ^ 16 + s.rd (ENG_CTRL_STOP n 0)) ∧ t.regs = s.regs)) ∧
    (p.opc = 0x19 → ((s.region n).state = .dark → Gives (.regwr (.serve i f)) s fun t => s.Replied t n p 3 [] ∧ t.regs = s.regs) ∧
      ((s.region n).state ≠ .dark → bitOf p.psn 0 = true → Gives (.regwr (.serve i f)) s fun t => s.Replied t n p 2 [] ∧ t.regs = s.regs) ∧
      ((s.region n).state ≠ .dark → bitOf p.psn 0 = false → addrRegion p.addr ≠ some n → Gives (.regwr (.serve i f)) s fun t =>
        s.Replied t n p 4 [] ∧ t.regs = s.regs) ∧
      ((s.region n).state ≠ .dark → bitOf p.psn 0 = false → p.addr = 0x1010000 + n * 0x40000 → Gives (.regwr (.serve i f)) s fun t =>
        s.Replied t n p 0 [] ∧ t.rd (ENG_CTRL_IMASK n 0) = bitsOf (p.data.getD 0 0#128).toNat 23 16 ∧
          t.rd (ENG_CTRL_STOP n 0) = (p.data.getD 0 0#128).toNat % 2))

/-- O46 (R367, R370, R371, R373, R383). The oldest response at a NI whose TID is outstanding is handed over and the
TID is free again; after a timeout it only frees the TID and counts as late; with a TID that is free it is discarded
and counts as stray. A timeout answers the requester TIMEOUT, counts, is logged 0x0C05, and keeps the TID; later the
TID is released. A drop notice counts, and raises DROP at a region. A packet at the head of a queue gains urgency up
to 7. Where there is nothing of the kind nothing changes. -/
def Obligations.AnswersTimeoutsAndDropsAtTheSource : Prop :=
  ∀ (s : State) (i : Fin 80),
    let n := s.ni i
    let upTo := fun (t : State) (f : Fld) => t.rd f = satAdd f.width (s.rd f) 1
    (n.locals = [] → n.inbox = [] → exec (.resp i) s = .next s ∧ exec (.drop i) s = .next s) ∧
    (∀ p : Packet, n.locals = [] → n.inbox = [p] → p.typ = 1 → p.opc = 0x30 →
      (n.tids.find? (fun x => x.1 == p.tid) = none → Gives (.resp i) s fun t => (t.ni i).inbox = [] ∧ (t.ni i).tids = n.tids ∧
        (t.ni i).last = n.last ∧ upTo t (niFld NI_CNT_LOCAL_STRAY i) ∧ t.regions = s.regions) ∧
      (∀ e : TidEntry, n.tids.find? (fun x => x.1 == p.tid) = some (p.tid, e) →
        (e.timedOut = true → Gives (.resp i) s fun t => (t.ni i).inbox = [] ∧ (t.ni i).tids.find? (fun x => x.1 == p.tid) = none ∧
          (t.ni i).last = n.last ∧ upTo t (niFld NI_CNT_TO_LATERSP i) ∧ t.regions = s.regions) ∧
        (e.timedOut = false → e.why = .unit → n.waiting = [] → Gives (.resp i) s fun t => (t.ni i).inbox = [] ∧
          (t.ni i).tids.find? (fun x => x.1 == p.tid) = none ∧ (t.ni i).last = some p ∧ t.regions = s.regions ∧ t.regs = s.regs))) ∧
    (∀ a : NetAsk, n.locals = [a] → a.why = .unit → Gives (.resp i) s fun t => (t.ni i).locals = [] ∧ (t.ni i).last = some a.pkt ∧
      (t.ni i).tids = n.tids ∧ t.regs = s.regs ∧ t.regions = s.regions) ∧
    (∀ p : Packet, n.inbox = [p] → p.typ = 1 → p.opc = 0x31 → (i.val ≠ 76 ∨ p.tid < 256) → Gives (.drop i) s fun t => (t.ni i).inbox = [] ∧
      upTo t (niFld NI_CNT_DROP_RECEIVED i) ∧ (t.ni i).dropped.get 0 (bitsOf p.addr 10 8) = n.dropped.get 0 (bitsOf p.addr 10 8) + 1 ∧
      (i.val < 64 → t.rd (RGN_PORT_STAT_DROP i) = 1) ∧ t.regions = s.regions ∧ t.net.queues = s.net.queues) ∧
    (∀ k : Fin 4096,
      (n.tids.find? (fun x => x.1 == k.val && !x.2.timedOut) = none → exec (.requestTimeout i k) s = .next s) ∧
      (∀ e : TidEntry, n.tids = [(k.val, e)] → e.timedOut = false → e.why = .unit → n.waiting = [] → Gives (.requestTimeout i k) s fun t =>
        (t.ni i).tids = [(k.val, { e with timedOut := true })] ∧ (∃ r, (t.ni i).last = some r ∧ r.status = 7 ∧ r.tid = k) ∧
          upTo t (niFld NI_CNT_TO_TIMEOUT i) ∧ t.net.queues = s.net.queues ∧ t.regions = s.regions) ∧
      ((n.tids.any fun x => x.1 == k.val && x.2.timedOut) = false → exec (.tidRelease i k) s = .next s) ∧
      ((n.tids.any fun x => x.1 == k.val && x.2.timedOut) = true → n.waiting = [] → Gives (.tidRelease i k) s fun t =>
        (t.ni i).tids.find? (fun x => x.1 == k.val) = none ∧ (t.ni i).last = n.last ∧ t.regs = s.regs ∧ t.regions = s.regions)) ∧
    (∀ (r : Fin 64) (port : Fin 8) (vc : Fin 4) (cls : Bool),
      let key := queueKey r port vc cls
      (s.net.queues.get [] key = [] → exec (.packetAgeStep r port vc cls) s = .next s) ∧
      (∀ (p : Packet) (l : List Packet), s.net.queues.get [] key = p :: l → Gives (.packetAgeStep r port vc cls) s fun t =>
        t.net.queues.get [] key = { p with urg := Nat.min 7 (p.urg + 1) } :: l ∧
          (∀ k, k ≠ key → t.net.queues.get [] k = s.net.queues.get [] k) ∧ t.regions = s.regions ∧ t.regs = s.regs))

/-- O47 (R352, R360, R364, R365, R366, R368, R374, R375, R380, R381). At an output of a working router the packet that
R366 puts first goes on: over a live link into its channel's queue of the next router with the first hop code gone and
its flits counted, or out of a port into its NI; a packet without room or for another output is not taken, and nothing
moves when none can. A link without credit, or after four replays, is dead. A stalled router with a queue is faulted
and its queues are lost. One ledger entry of a faulted router is read and its source told. An asked flip is made once
the inactive epoch is quiet, and not before. -/
def Obligations.RoutersHopFailAndFlip : Prop :=
  ∀ s : State,
    (∀ (r : Fin 64) (out : Fin 8) (l : LinkEvent),
      (s.routerFaulted r = true ∨ s.hopPick r out = none → exec (.routerHop r out l) s = .next s) ∧
      (∀ x y : Nat × Packet, s.hopPick r out = some x → (∃ l', (y.1, y.2 :: l') ∈ s.net.queues) → y.1 / 64 = r.val →
        s.canHop r (y.1 / 8 % 8) out y.2 = true → hopBefore (y.1 / 8 % 8, y.2) (x.1 / 8 % 8, x.2) = false) ∧
      (∀ (key : Nat) (p : Packet) (rest : List Packet), s.routerFaulted r = false → s.hopPick r out = some (key, p) →
        s.net.queues.get [] key = p :: rest → key / 64 = r.val → p.typ < 4 →
        (out.val < 4 → s.linkDead r out = false → s.routerFaulted (hopTo r out) = false → Gives (.routerHop r out .clean) s fun t =>
          let dst := queueKey (hopTo r out) out p.typ p.alt
          (t.net.queues.get [] key).length = rest.length ∧ t.regions = s.regions ∧ t.log = s.log ∧
          (∃ x, t.net.queues.get [] dst = s.net.queues.get [] dst ++ [x] ∧ x.opc = p.opc ∧ x.src = p.src ∧ x.tid = p.tid ∧ x.data = p.data ∧
            x.route = p.route / 8 + 7 * 2 ^ 21) ∧
          t.rd (RTR_FLIT_COUNT r out) = (s.rd (RTR_FLIT_COUNT r out) + p.len + 1) % 2 ^ (RTR_FLIT_COUNT r out).width) ∧
        (∀ i, 4 ≤ out.val → portNi r (out.val - 4) = some i → Gives (.routerHop r out l) s fun t =>
          (t.net.queues.get [] key).length = rest.length ∧ (t.ni i).inbox = (s.ni i).inbox ++ [p] ∧ t.regs = s.regs ∧ t.regions = s.regions) ∧
        (out.val < 4 → s.linkDead r out = true → p.typ ≠ 2 → exec (.routerHop r out l) s = .next (s.dequeue key)))) ∧
    (∀ (r : Fin 64) (d : Fin 4),
      let waits := s.net.queues.any fun q => q.1 / 64 == r.val && match q.2 with
        | p :: _ => nextOut p == some d.val
        | [] => false
      (waits = false ∨ s.routerFaulted r = true ∨ s.linkDead r d = true → exec (.creditTimeout r d) s = .next s) ∧
      (waits = true → s.routerFaulted r = false → s.linkDead r d = false → Gives (.creditTimeout r d) s fun t =>
        t.linkDead r d = true ∧ t.rd NOC_STATUS_LINKDOWN = 1 ∧ t.regions = s.regions ∧ t.bankMem = s.bankMem)) ∧
    (∀ r : Fin 64,
      let busy := s.net.queues.any fun q => q.1 / 64 == r.val && q.2 != []
      (busy = false ∨ s.routerFaulted r = true → exec (.routerStall r) s = .next s) ∧
      (busy = true → s.routerFaulted r = false → Gives (.routerStall r) s fun t => t.routerFaulted r = true ∧ t.rd NOC_STATUS_RTRFAULT = 1 ∧
        (∀ q ∈ t.net.queues, q.1 / 64 ≠ r.val) ∧ t.regions = s.regions) ∧
      (∀ b, s.net.ledger.find? (fun x => x.router == r.val) = none → exec (.ledgerDrop r b) s = .next s) ∧
      (∀ x : LedgerItem, s.net.ledger.find? (fun x => x.router == r.val) = some x → Gives (.ledgerDrop r true) s fun t =>
        t.net.ledger = s.net.ledger.erase x ∧ t.rd NOC_STATUS_LEDGERUE = satAdd NOC_STATUS_LEDGERUE.width (s.rd NOC_STATUS_LEDGERUE) 1) ∧
      (∀ x : LedgerItem, s.net.ledger.find? (fun x => x.router == r.val) = some x → x.pkt.src < 64 → s.sourceGone x.pkt.src = false →
        Gives (.ledgerDrop r false) s fun t => t.net.ledger = s.net.ledger.erase x ∧ t.rd (RGN_PORT_STAT_DROP x.pkt.src) = 1)) ∧
    (s.net.flip = none → exec .epochFlip s = .next s) ∧
    (∀ f : Flip, s.net.flip = some f → (f.writing = true ∨ s.inFlight (!s.epoch) = true → exec .epochFlip s = .next s) ∧
      (f.writing = false → s.inFlight (!s.epoch) = false → s.net.failing = [] → f.marks = [] → Gives .epochFlip s fun t => t.epoch = !s.epoch ∧
        t.net.flip = none ∧ t.rd NOC_STATUS_FLIPPEND = 0 ∧ t.rd NOC_FLIPS_FLIPS = (s.rd NOC_FLIPS_FLIPS + 1) % 2 ^ NOC_FLIPS_FLIPS.width ∧
        t.net.queues = s.net.queues ∧ t.regions = s.regions))

/-- O48 (R117, R162, R359, R360, R362, R363, R373, R375, R378, R581). A stream port of an ACTIVE region that accepts
the LAST word sends the packet by the stream entry's destination with the words accepted; an invalid entry is a drop
with DECODE. A MARK of a live region sends one word; outside ACTIVE and TEST it sends nothing. A packet for a port
that the active context uses is appended word by word, the last marked; otherwise, and at a NI that refuses, its
source is told; TEST holds it. A route entry is written in the inactive epoch only, and only when its hops end at the
destination; otherwise REFUSED is set. A drain that is complete makes the region DARK. -/
def Obligations.StreamPacketsMarksAndRouteEntries : Prop :=
  ∀ s : State,
    (∀ (n : Fin 64) (p : Fin 8) (dest : Fin 64) (w : Line), ((s.region n).state ≠ .active → exec (.streamPacketSend n p dest w) s = .next s) ∧
      (∀ alt route dport, let e := (s.ni n).streams.get 0 dest
        (s.region n).state = .active → (s.region n).fab.opens.find? (fun x => x.1 == p.val) = none → entryValid e = true →
        s.lookup n (bitsOf e 6 0) = .ok (alt, route, dport) → s.routerFaulted (s.niAt n) = false → Gives (.streamPacketSend n p dest w) s fun t =>
          ∃ x, t.net.queues.get [] (queueKey (s.niAt n) (niInPort n (s.ni n).bypass) 2 alt) =
              s.net.queues.get [] (queueKey (s.niAt n) (niInPort n (s.ni n).bypass) 2 alt) ++ [x] ∧
            x.opc = 0x20 ∧ x.src = n.val ∧ x.data = [w] ∧ x.route = route ∧ x.dport = dport ∧ bitsOf x.addr 2 0 = bitsOf e 13 11 ∧
            bitsOf x.addr 10 8 = p.val ∧ x.key = bitsOf e 19 14 ∧ x.urg = bitsOf e 22 20 ∧ t.regs = s.regs ∧ t.bankMem = s.bankMem) ∧
      ((s.region n).state = .active → (s.region n).fab.opens.find? (fun x => x.1 == p.val) = none →
        entryValid ((s.ni n).streams.get 0 dest) = false → Gives (.streamPacketSend n p dest w) s fun t => t.net.queues = s.net.queues ∧
          t.rd (RGN_PORT_STAT_DROP n) = 1)) ∧
    (∀ (n dest : Fin 64), (s.evt.inflight = [] → exec (.mark n dest) s = .next s) ∧
      (∀ a : Action, s.evt.inflight = [a] → a.code = 10 → a.target % 64 = n.val → (s.region n).fab.opens = [] →
        ((s.region n).live = false → exec (.mark n dest) s = .next { s with evt := { s.evt with inflight := [] } }) ∧
        (∀ alt route dport, (s.region n).live = true → entryValid ((s.ni n).streams.get 0 dest) = true →
          s.lookup n (bitsOf ((s.ni n).streams.get 0 dest) 6 0) = .ok (alt, route, dport) → s.routerFaulted (s.niAt n) = false →
          Gives (.mark n dest) s fun t => t.evt.inflight = [] ∧
            ∃ x, t.net.queues.get [] (queueKey (s.niAt n) (niInPort n (s.ni n).bypass) 2 alt) =
                s.net.queues.get [] (queueKey (s.niAt n) (niInPort n (s.ni n).bypass) 2 alt) ++ [x] ∧
              x.opc = 0x21 ∧ x.data = [BitVec.ofNat 128 a.param] ∧ x.stamp = a.stamp))) ∧
    (∀ c ∈ [(Instr.sdata, 0x20), (Instr.smark, 0x21)], ∀ i : Fin 80,
      ((s.ni i).inbox = [] → exec (c.1 i) s = .next s) ∧
      (∀ p : Packet, (s.ni i).inbox = [p] → p.typ = 2 → p.opc = c.2 → i.val < 64 →
        let port := bitsOf p.addr 2 0
        let rx := (s.region i).fab.rx.get [] port
        (s.niRefuses i = true → s.sourceGone p.src = true → Gives (c.1 i) s fun t => (t.ni i).inbox = [] ∧
          (t.region i).fab = (s.region i).fab ∧
          t.rd (niFld NI_CNT_DROP_UNSENT i) = satAdd (niFld NI_CNT_DROP_UNSENT i).width (s.rd (niFld NI_CNT_DROP_UNSENT i)) 1) ∧
        (s.niRefuses i = false → (s.region i).state = .test → exec (c.1 i) s = .next s) ∧
        (s.niRefuses i = false → (s.region i).state = .active → bitOf (s.rd (CTX_PUSE_HI_STREAM i (s.region i).ctx.active)) port = true →
          Gives (c.1 i) s fun t => (t.ni i).inbox = [] ∧ ((t.region i).fab.rx.get [] port).length = rx.length + p.words.length ∧
            ∀ w < p.words.length, ((t.region i).fab.rx.get [] port)[rx.length + w]? =
              some ⟨p.words.getD w 0#128, w + 1 == p.words.length, bitOf p.psn w, p.stamp, p.opc == 0x21⟩))) ∧
    (∀ (acc : Accessor) (i : Fin 80) (v : Word),
      let ep := s.rd (niFld NI_RADDR_EPOCH i)
      let idx := s.rd (niFld NI_RADDR_INDEX i)
      let x := bitsOf v.toNat 31 31 * 2 ^ 31 + bitsOf v.toNat 27 0
      s.rd (niFld NI_RADDR_SPACE i) = 0 →
      (ep = b2n s.epoch ∨ s.badRoute i idx x = true → Gives (.routeEntryWrite acc i v) s fun t => t.rd (niFld NI_STAT_REFUSED i) = 1 ∧
        t.net = s.net ∧ t.regions = s.regions) ∧
      (ep ≠ b2n s.epoch → s.badRoute i idx x = false → Gives (.routeEntryWrite acc i v) s fun t =>
        (t.ni i).routes.get 0 (ep * 256 + s.rd (niFld NI_RADDR_ALT i) * 128 + idx) = x ∧
          (∀ k, k ≠ ep * 256 + s.rd (niFld NI_RADDR_ALT i) * 128 + idx → (t.ni i).routes.get 0 k = (s.ni i).routes.get 0 k) ∧
          (∀ j, j ≠ i.val → t.ni j = s.ni j) ∧ t.regs = s.regs ∧ t.regions = s.regions)) ∧
    (∀ n : Fin 64, (s.drained n = false → exec (.drainComplete n) s = .next s) ∧
      (s.drained n = true → Gives (.drainComplete n) s fun t => (t.region n).state = .dark ∧ (t.ni n).drain = false ∧
        t.rd (PWR_RGN_DOWN n) = 0 ∧ t.rd (PWR_RAIL_MV n) = 0))

/-- O49 (R286, R287, R289, R290, R292, R293, R294, R310, R312, R318). A TOKEN action, a firmware token and a graph's
target set the free flag of an enabled slot with value and stamp; a flag that is set or not in the mask refuses it,
TOKREF set, with no effect on a slot. The flag that completes the mask of an IDLE slot makes it READY with the stamp
of its trigger flag. A write of an enabled slot's descriptor is refused but for word 0 clearing EN, which withdraws
it; enabling checks the descriptor, clears the flags and enters IDLE, or is refused. A kernel write ends its
residency. A GO push appends the item and answers its number, or is refused at 32. A READY slot ages. -/
def Obligations.TokensSlotsAndTables : Prop :=
  ∀ (s : State) (n : Fin 64),
    let free := fun (k f : Nat) => dEn ((s.sch n).desc k) = true ∧ bitOf (dMask ((s.sch n).desc k)) f = true ∧
      ((s.sch n).slot k).flags.find? (fun g => g.1 == f) = none
    let flag := fun (t : State) (k f : Nat) => ((t.sch n).slot k).flags.get ⟨0, 0, false⟩ f
    let refused := fun t : State => t.regions = s.regions ∧ t.rd (SCH_STATUS_TOKREF n) = 1 ∧
      t.rd (SCH_CNT_ERR_TOKREF n) = satAdd (SCH_CNT_ERR_TOKREF n).width (s.rd (SCH_CNT_ERR_TOKREF n)) 1
    (s.evt.inflight = [] → exec .eventToken s = .next s ∧ exec .startGraph s = .next s) ∧
    (∀ a : Action, s.evt.inflight = [a] → a.code = 6 → bitsOf a.target 16 11 = n.val →
      let k := bitsOf a.target 10 3
      let f := bitsOf a.target 2 0
      (free k f → Gives .eventToken s fun t => t.evt.inflight = [] ∧ flag t k f = ⟨a.param, a.stamp, false⟩ ∧ t.bankMem = s.bankMem) ∧
      (dEn ((s.sch n).desc k) = false ∨ bitOf (dMask ((s.sch n).desc k)) f = false → Gives .eventToken s fun t => t.evt.inflight = [] ∧ refused t)) ∧
    (∀ a : Action, s.evt.inflight = [a] → a.code = 5 →
      let g := (s.sched.graphs.get 0#128 (a.target % 256)).toNat
      let tgt := fun j => bitsOf g (25 + 18 * j) (8 + 18 * j)
      ((∀ j < 4, bitOf (tgt j) 17 = false) → exec .startGraph s = .next { s with evt := { s.evt with inflight := [] } }) ∧
      (bitOf (tgt 0) 17 = true → (∀ j < 4, j ≠ 0 → bitOf (tgt j) 17 = false) → bitsOf (tgt 0) 16 11 = n.val →
        free (bitsOf (tgt 0) 10 3) (bitsOf (tgt 0) 2 0) → Gives .startGraph s fun t => t.evt.inflight = [] ∧
          flag t (bitsOf (tgt 0) 10 3) (bitsOf (tgt 0) 2 0) = ⟨a.param, a.stamp, false⟩)) ∧
    (∀ (acc : Accessor) (v : Word), let x := bitsOf v.toNat 16 0
      (bitOf v.toNat 31 = false → exec (.schToken acc n v) s = .next { s with rsp := ⟨0, 0⟩ }) ∧
      (bitOf v.toNat 31 = true → bitsOf x 16 11 ≠ n.val → Gives (.schToken acc n v) s refused) ∧
      (bitOf v.toNat 31 = true → bitsOf x 16 11 = n.val → free (bitsOf x 10 3) (bitsOf x 2 0) → Gives (.schToken acc n v) s fun t =>
        flag t (bitsOf x 10 3) (bitsOf x 2 0) = ⟨s.rd (SCH_TOKVAL_VALUE n), s.stamp, false⟩ ∧
        (((s.sch n).slot (bitsOf x 10 3)).state = .idle → ((s.sch n).slot (bitsOf x 10 3)).flags = [] →
          dMask ((s.sch n).desc (bitsOf x 10 3)) = 2 ^ bitsOf x 2 0 → dTrigf ((s.sch n).desc (bitsOf x 10 3)) = bitsOf x 2 0 →
          ((t.sch n).slot (bitsOf x 10 3)).state = .ready ∧ ((t.sch n).slot (bitsOf x 10 3)).trigStamp = s.stamp))) ∧
    (∀ (acc : Accessor) (k : Fin 256) (w : Fin 16) (v : Word),
      let d := (s.sch n).desc k
      let run := ((s.sch n).slot k).state = .running
      (dEn d = true → (w ≠ 0 ∨ bitOf v.toNat 15 = true) → Gives (.descriptorWrite acc n k w v) s fun t => t.regions = s.regions ∧
        t.rd (SCH_STATUS_TOKREF n) = 1) ∧
      (dEn d = false → ¬run → w ≠ 0 → Gives (.descriptorWrite acc n k w v) s fun t => t.regs = s.regs ∧
        bitsOf ((t.sch n).desc k) (32 * w + 31) (32 * w) = v.toNat ∧ ∀ j : Nat, j ≠ k.val → (t.sch n).desc j = (s.sch n).desc j) ∧
      (dEn d = false → ¬run → s.descOk (descWord ((s.sch n).descs.get 0#512 k) 0 (setBit v.toNat 15)).toNat = true →
        Gives (.slotEnable acc n k v) s fun t => dEn ((t.sch n).desc k) = true ∧ ((t.sch n).slot k).state = .idle ∧
          ((t.sch n).slot k).flags = [] ∧ t.regs = s.regs) ∧
      (dEn d = false → ¬run → s.descOk (descWord ((s.sch n).descs.get 0#512 k) 0 (setBit v.toNat 15)).toNat = false →
        Gives (.slotEnable acc n k v) s fun t => dEn ((t.sch n).desc k) = false ∧ t.rd (SCH_STATUS_TOKREF n) = 1 ∧
          (t.sch n).slots = (s.sch n).slots) ∧
      (dEn d = true → Gives (.slotWithdraw acc n k v) s fun t => dEn ((t.sch n).desc k) = false ∧ ((t.sch n).slot k).flags = [] ∧
        (¬run → ((t.sch n).slot k).state = .off) ∧ (run → ((t.sch n).slot k).state = .running) ∧ t.regs = s.regs)) ∧
    (∀ (acc : Accessor) (k : Fin 256) (w : Fin 2) (v : Word), Gives (.kernelTableWrite acc n k w v) s fun t =>
      bitsOf ((t.sch n).kernel k) (32 * w + 31) (32 * w) = v.toNat ∧ (∀ x ∈ (t.sch n).resident, k.val ∉ x.2) ∧
        (t.sch n).slots = (s.sch n).slots ∧ t.regs = s.regs) ∧
    (∀ (acc : Accessor) (v : Word), bitOf v.toNat 31 = true → let q := bitsOf v.toNat 2 0
      let l := (s.sch n).wqs.get [] q
      (l.length < 32 → Gives (.schWqPush acc n v) s fun t => t.rd (SCH_WQ_PUSH_ACC n) = 1 ∧
        t.rd (SCH_WQ_PUSH_SEQ n) = (s.sch n).wqSeq.get 0 q % 2 ^ (SCH_WQ_PUSH_SEQ n).width ∧ ∃ x, (t.sch n).wqs.get [] q = l ++ [x]) ∧
      (32 ≤ l.length → Gives (.schWqPush acc n v) s fun t => t.rd (SCH_WQ_PUSH_ACC n) = 0 ∧ t.rd (SCH_STATUS_WQREF n) = 1 ∧
        t.regions = s.regions)) ∧
    (∀ k : Fin 256, (((s.sch n).slot k).state ≠ .ready → exec (.urgencyStep n k) s = .next s) ∧
      (((s.sch n).slot k).state = .ready → Gives (.urgencyStep n k) s fun t => ((t.sch n).slot k).steps = ((s.sch n).slot k).steps + 1 ∧
        ((t.sch n).slot k).state = .ready ∧ (t.sch n).descs = (s.sch n).descs)) ∧
    (∀ (acc : Accessor) (v : Word), Gives (.trcRdIdxWrite acc v) s fun t => t.rd TRC_RD_IDX_IDX = v.toNat % 8192 ∧
      t.sched.traceCopy = s.sched.trace.get 0#128 (v.toNat % 8192) ∧ t.sched.trace = s.sched.trace ∧ t.regions = s.regions)

/-- O50 (R293, R295, R296, R297, R298, R299, R300, R304, R306, R307, R308, R310). The lowest-numbered free engine that
is no pool engine and has a READY slot takes the slot of highest urgency, longest wait and lowest number: it is
RUNNING with its flags clear, and a resident kernel is dispatched at once, source 0 pending. A pool engine takes the
oldest item of the lowest non-empty queue. The last paging word is written and dispatches; a failed one closes the
operation. A void slot closes ABORT with engine 31. A held completion enters once 33 entries are free. A pop removes
the oldest record and copies it; with the memory sink it only counts. A part line leaves with fillers; a failed line
is sent again. -/
def Obligations.DispatchPagingAndCompletion : Prop :=
  ∀ (s : State) (n : Fin 64),
    let free := fun (e : Nat) => s.engineFree n e && !bitOf (s.rd (SCH_POOL_ENGMASK n)) e && ((s.sch n).select e).isSome
    let pool := fun (e : Nat) => s.engineFree n e && bitOf (s.rd (SCH_POOL_ENGMASK n)) e
    ((List.range 25).find? free = none → exec (.dispatch n) s = .next s) ∧
    (∀ (e k : Nat) (x : Slot), (s.sch n).select e = some (k, x) → (k, x) ∈ (s.sch n).slots ∧ x.state = .ready ∧ x.void = false ∧ x.eng = e ∧
      ∀ y ∈ (s.sch n).slots, y.2.state = .ready → y.2.void = false → y.2.transit = false → y.2.eng = e →
        selectBefore (s.sch n) y (k, x) = false) ∧
    (∀ (e k : Nat) (x : Slot), (List.range 25).find? free = some e → (s.sch n).select e = some (k, x) → Gives (.dispatch n) s fun t =>
      ((t.sch n).slot k).state = .running ∧ ((t.sch n).slot k).flags = [] ∧
      (∃ it, t.itemOn n e = some it ∧ it.index = k ∧ it.queue = none ∧ it.trigStamp = x.trigStamp) ∧
      (((s.sch n).residents e).contains (dKernel ((s.sch n).desc k)) = true → bitOf (t.engAt n e).ipend 0 = true ∧
        (t.engAt n e).dq.get 0 0 = kPaddr ((s.sch n).kernel (dKernel ((s.sch n).desc k))) ∧ (t.engAt n e).dq.get 0 1 = dBuf0 ((s.sch n).desc k))) ∧
    ((List.range 25).find? pool = none → exec (.poolTake n) s = .next s) ∧
    (∀ (e q seq : Nat) (i : Line) (l : List (Nat × Line)), (List.range 25).find? pool = some e →
      (List.range 8).find? (fun q => (s.sch n).wqs.get [] q != []) = some q → (s.sch n).wqs.get [] q = (seq, i) :: l → Gives (.poolTake n) s fun t =>
        (t.sch n).wqs.get [] q = l ∧ ∃ it, t.itemOn n e = some it ∧ it.queue = some q ∧ it.index = seq ∧ it.kernel = bitsOf i.toNat 7 0) ∧
    (∀ k : Fin 256, let x := (s.sch n).slot k
      (x.state ≠ .ready ∨ x.transit = true → exec (.voidDispatch n k) s = .next s) ∧
      (x.state = .ready → x.void = true → x.transit = false → (s.region n).live = true → s.flag (SCH_CQ_CFG_SINK n) = false →
        Gives (.voidDispatch n k) s fun t => (t.sch n).cq.length = (s.sch n).cq.length + 1 ∧
          ∀ r, (t.sch n).cq.getLast? = some r → bitsOf r.toNat 44 41 = 8 ∧ bitsOf r.toNat 49 45 = 31 ∧ bitsOf r.toNat 40 27 = n.val * 256 + k.val)) ∧
    (∀ (e : Fin 25) (it : OpenItem) (pg : Paging) (p : Packet) (w : Nat), s.itemOn n e = some it → it.paging = some pg → (s.ni n).locals = [] →
      (s.ni n).waiting = [] → (s.ni n).inbox = [p] → p.typ = 1 → p.opc = 0x30 →
      (s.ni n).tids = [(p.tid, { opc := 1, dst := n, why := .page e w pg.gen })] →
      let a := (kPaddr ((s.sch n).kernel it.kernel) / 2 + w) * 2 % 4096
      let d := (p.data.getD 0 0#128).toNat
      (p.status = 0 → bitOf p.psn 0 = false → pg.poisoned = false → pg.words = pg.got + 1 → Gives (.pagingResponse n e) s fun t =>
        (t.engAt n e).mem.get 0 (2 * 16384 + a) = bitsOf d 47 0 ∧ (t.engAt n e).mem.get 0 (2 * 16384 + a + 1) = bitsOf d 95 48 ∧
          bitOf (t.engAt n e).ipend 0 = true ∧ (t.engAt n e).paging = none ∧ ((t.sch n).residents e).contains it.kernel = true ∧ (t.ni n).tids = []) ∧
      (statusDone p.status = false → Gives (.pagingResponse n e) s fun t => t.rd (SCH_STATUS_PAGEFAIL n) = 1 ∧ t.itemOn n e = none ∧
        (t.engAt n e).paging = none ∧ (t.engAt n e).ipend = (s.engAt n e).ipend)) ∧
    (∀ e : Fin 25, (s.ni n).locals = [] → (s.ni n).inbox = [] → exec (.pagingResponse n e) s = .next s) ∧
    ((s.sch n).held = [] ∨ 223 < (s.sch n).cq.length → exec (.cqHeldRelease n) s = .next s) ∧
    (∀ (h : HeldCmp) (l : List HeldCmp), (s.sch n).held = h :: l → (s.sch n).cq.length ≤ 223 → s.flag (SCH_CQ_CFG_SINK n) = false →
      Gives (.cqHeldRelease n) s fun t => (t.sch n).held = l ∧ (t.sch n).cq.length = (s.sch n).cq.length + 1) ∧
    (∀ acc : Accessor, ((s.sch n).cq = [] → exec (.schCqPop acc n) s = .next { s with rsp := ⟨0, 0⟩ }) ∧
      (∀ (r : Line) (l : List Line), (s.sch n).cq = r :: l →
        (s.flag (SCH_CQ_CFG_SINK n) = false → Gives (.schCqPop acc n) s fun t => (t.sch n).cq = l ∧ (t.sch n).cqCopy = r ∧
          t.rsp = ⟨0, 2 ^ 31 + l.length + 1⟩ ∧ t.regs = s.regs) ∧
        (s.flag (SCH_CQ_CFG_SINK n) = true → exec (.schCqPop acc n) s = .next { s with rsp := ⟨0, l.length + 1⟩ }))) ∧
    (∀ m : Fin 65, m.val = n.val →
      (s.flag (SCH_CQ_CFG_SINK n) = false → exec (.cqLineFlush m) s = .next s) ∧
      (s.flag (SCH_CQ_CFG_SINK n) = true → (s.sch n).ring = [] → 0 < (s.sch n).cq.length → (s.sch n).cq.length < 4 →
        (s.rd (SCH_CQ_WP_PTR n) + 1) % s.rd (SCH_CQ_SIZE_LINES n) ≠ s.rd (SCH_CQ_RP_PTR n) → Gives (.cqLineFlush m) s fun t =>
          (t.sch n).cq = [] ∧ (t.sch n).ring = (s.sch n).cq ++ List.replicate (4 - (s.sch n).cq.length) (BitVec.allOnes 128)) ∧
      ((s.sch n).ring = [] ∨ (s.sch n).ringFail = false → exec (.cqRingRetry m) s = .next s) ∧
      ((s.sch n).ring ≠ [] → (s.sch n).ringFail = true → Gives (.cqRingRetry m) s fun t => (t.sch n).ringFail = false ∧
        (t.sch n).ring = (s.sch n).ring ∧ (t.sch n).cq = (s.sch n).cq))

/-- O51 (R320, R325, R326, R327, R331, R339, R340, R343, R376). The oldest MIGRATE action opens a point with its
scope, the regions it covers and the PARAM bits; a region point given more bits ignores them and sets IGNORED. At the
commit of a point its count, scope and PARAM are shown, and with PARAM[1] the inactive bank is copied and the flip
waits for the route pass. A pin of a region point moves its slot to a valid destination and pins it; to any other it
sets OVRREF and no slot moves. A route pass waits for a flip in progress, writes only the inactive bank and asks for
the flip. A transit ends when its slot is not RUNNING, or its source has no open item: D and K are then those of the
source. A write of PLC_OVR queues an override, or is refused with 64 queued (KIND 3 is refused by the model's choice,
log entry 47). -/
def Obligations.PlacementPointsOverridesAndTransits : Prop :=
  ∀ s : State,
    (s.evt.inflight = [] → exec .migrate s = .next s) ∧
    (∀ a : Action, s.evt.inflight = [a] → a.code = 7 →
      let sc := migrateScope a.target
      let raw := a.param % 8
      let par := if sc < 64 ∧ 2 ≤ raw then raw % 2 else raw
      Gives .migrate s fun t => t.evt.inflight = [] ∧ t.regions = s.regions ∧ t.bankMem = s.bankMem ∧
        t.rd PLC_STATUS_IGNORED = (if sc < 64 ∧ 2 ≤ raw then 1 else s.rd PLC_STATUS_IGNORED) ∧
        ∃ pt, t.plc.points = s.plc.points ++ [pt] ∧ pt.scope = sc ∧ pt.param = par ∧ pt.raw = raw ∧ pt.routing = false ∧
          pt.snaps.map (fun p => p.region) = pointRegions sc par ∧
          ∀ p ∈ pt.snaps, p.skipped = (((s.region p.region).state == .dark) || ((s.region p.region).state == .loading))) ∧
    (s.plc.points.find? (fun p => !p.routing) = none → exec .pointCommit s = .next s) ∧
    (∀ pt : PlcPoint, s.plc.points = [pt] → pt.routing = false →
      (pt.snaps = [] → pt.slices = [] → Gives .pointCommit s fun t => t.regions = s.regions ∧ t.bankMem = s.bankMem ∧
        t.rd PLC_POINT_COUNT = (s.rd PLC_POINT_COUNT + 1) % 2 ^ PLC_POINT_COUNT.width ∧
        t.rd PLC_POINT_CHIP = b2n (pt.scope == 64) ∧ t.rd PLC_POINT_PARAM = pt.raw % 2 ^ PLC_POINT_PARAM.width ∧
        t.plc.points = (if bitOf pt.param 1 then [{ pt with routing := true }] else []) ∧
        (bitOf pt.param 1 = false → t.net = s.net) ∧
        (bitOf pt.param 1 = true → s.net.flip = none → ∃ f, t.net.flip = some f ∧ f.writing = true ∧ f.marking = false ∧
          t.rd NOC_STATUS_FLIPPEND = 1)) ∧
      (∀ (p : PlcSnap) (e : Fin 25) (k : Fin 256), pt.snaps = [p] → pt.scope < 64 → p.region = pt.scope → pt.param = 1 → p.skipped = false →
        p.lost = [] → p.asks = [] → p.returns = [] → p.mirroring = false → pt.bal = false → pt.slices = [] →
        pt.ovrs = [⟨0, e, pt.scope * 256 + k⟩] → ((s.sch pt.scope).slot k).eng ≠ e →
        let n := pt.scope
        (s.plcDest p e = true → Gives .pointCommit s fun t => ((t.sch n).slot k).eng = e ∧ n * 256 + k ∈ t.plc.pins ∧
          ((t.sch n).slot k).state = ((s.sch n).slot k).state ∧
          ((t.sch n).slot k).transit = (((s.sch n).slot k).state == .running) ∧
          (∀ j, j ≠ k.val → (t.sch n).slot j = (s.sch n).slot j) ∧ (t.sch n).descs = (s.sch n).descs ∧ t.plc.points = [] ∧
          t.plc.since.get 0 n = s.cyc ∧ t.bankMem = s.bankMem) ∧
        (s.plcDest p e = false → Gives .pointCommit s fun t => (t.sch n).slots = (s.sch n).slots ∧ t.plc.pins = s.plc.pins ∧
          t.rd PLC_STATUS_OVRREF = 1 ∧ t.plc.points = []))) ∧
    (s.plc.points.find? (fun p => p.routing) = none → exec .routePassEnd s = .next s) ∧
    (∀ pt : PlcPoint, s.plc.points = [pt] → pt.routing = true →
      (∀ f, s.net.flip = some f → f.writing = false → exec .routePassEnd s = .next s) ∧
      ((∀ f, s.net.flip = some f → f.writing = true) → Gives .routePassEnd s fun t => t.plc.points = [] ∧ t.epoch = s.epoch ∧
        (∃ f, t.net.flip = some f ∧ f.writing = false ∧ f.outs = (pt.net.faulted ||| pt.net.asked)) ∧ t.regions = s.regions ∧
        t.bankMem = s.bankMem ∧
        ∀ i, ∀ k < 256, (t.ni i).routes.get 0 (b2n s.epoch * 256 + k) = (s.ni i).routes.get 0 (b2n s.epoch * 256 + k))) ∧
    (∀ n : Fin 64,
      (s.plc.transits = [] → exec (.transitEnd n) s = .next s) ∧
      (∀ k : Fin 256, s.plc.transits = [{ region := n, slots := [k], whole := none }] →
        (((s.sch n).slot k).state = .running → exec (.transitEnd n) s = .next s) ∧
        (((s.sch n).slot k).state ≠ .running → Gives (.transitEnd n) s fun t => t.plc.transits = [] ∧
          (t.sch n).slot k = { (s.sch n).slot k with transit := false } ∧ ∀ j, j ≠ k.val → (t.sch n).slot j = (s.sch n).slot j)) ∧
      (∀ e d : Fin 25, e ≠ d → s.plc.transits = [{ region := n, slots := [], whole := some (e.val, d.val) }] →
        ((s.itemOn n e).isSome = true → exec (.transitEnd n) s = .next s) ∧
        (s.itemOn n e = none → (s.engAt n e).syn = [] → Gives (.transitEnd n) s fun t => t.plc.transits = [] ∧
          (∀ x, (t.engAt n d).mem.get 0 x = if x < 32768 then (s.engAt n e).mem.get 0 x else (s.engAt n d).mem.get 0 x) ∧
          (t.engAt n e) = s.engAt n e ∧ (t.sch n).residents d = [] ∧ (t.sch n).slots = (s.sch n).slots))) ∧
    (∀ (acc : Accessor) (v : Word),
      let o : PlcOvr := ⟨bitsOf v.toNat 30 29, bitsOf v.toNat 28 24, bitsOf v.toNat 13 0⟩
      (bitOf v.toNat 31 = false → exec (.plcOvr acc v) s = .next s) ∧
      (bitOf v.toNat 31 = true → s.plc.ovrs.length < 64 → o.kind ≠ 3 →
        exec (.plcOvr acc v) s = .next { s with plc := { s.plc with ovrs := s.plc.ovrs ++ [o] } }) ∧
      (bitOf v.toNat 31 = true → 64 ≤ s.plc.ovrs.length ∨ o.kind = 3 → Gives (.plcOvr acc v) s fun t =>
        t.rd PLC_STATUS_OVRREF = 1 ∧ t.plc = s.plc ∧ t.regions = s.regions))

/-- O52 (R511, R512, R513, R514, R515, R516, R519, R520, R546). A LOAD_PARTIAL action joins the requests that wait, or
asks Kettle to wake a DARK region for its WHOLE partial. CFG_PLOAD with GO is refused while the loader is busy, else
it joins. The loader takes a fall-back before any other request: a valid partial without WHOLE, without the active
context, starts in an ACTIVE region, BUSY and LOADING shown; a WHOLE one there is refused. A partial that passes in a
live region sets LOADED; one whose CRC fails there changes no context; in a LOADING region it fences with cause
PARTIAL, and the fall-back of a valid entry is asked for. The oldest journal record is written outside SAFE and
counted; a failed write sets JFAIL. With fewer than 64 slots free the journal moves to the other sector with SEQ + 1.
After 10 ms of START the clocks are taken as they stand and the regions in LOADING await Kettle. -/
def Obligations.PartialLoadsAndTheJournal : Prop :=
  ∀ s : State,
    let closed := fun (t : State) (st err part : Nat) => t.rd CFG_PSTAT_STATUS = st ∧ t.rd CFG_PSTAT_ERR = err ∧
      t.rd CFG_PSTAT_LAST = part % 2 ^ CFG_PSTAT_LAST.width ∧ t.rd CFG_PCNT_FAIL = satAdd CFG_PCNT_FAIL.width (s.rd CFG_PCNT_FAIL) 1
    (s.evt.inflight = [] → exec .loadPartial s = .next s) ∧
    (∀ a : Action, s.evt.inflight = [a] → a.code = 9 → s.ldr.early = [] →
      let part := a.param % 256
      let d := s.partEntry part
      let asks := pdValid d && pdWhole d && s.partDark (pdRegion d) && s.chip.state != .safe
      (asks = false → Gives .loadPartial s fun t => t.evt.inflight = [] ∧ t.regs = s.regs ∧ t.regions = s.regions ∧
        t.ldr.waiting = s.ldr.waiting ++ [{ part := part, path := 0, entry := a.entry }] ∧ t.kettle = s.kettle) ∧
      (asks = true → s.kettle.queue = [] → Gives .loadPartial s fun t => t.evt.inflight = [] ∧ t.ldr = s.ldr ∧ t.regions = s.regions ∧
        ∃ q, t.kettle.queue = [q] ∧ q.kind = 2 ∧ q.region = pdRegion d ∧ q.part = part)) ∧
    (∀ (acc : Accessor) (v : Word),
      (bitOf v.toNat 31 = false → exec (.cfgPload acc v) s = .next { s with rsp := ⟨0, 0⟩ }) ∧
      (bitOf v.toNat 31 = true → s.ldr.run = none → exec (.cfgPload acc v) s = .next { s with
        rsp := ⟨0, 0⟩
        ldr := { s.ldr with waiting := s.ldr.waiting ++ [{ part := v.toNat % 256, path := 1 }] } }) ∧
      (bitOf v.toNat 31 = true → s.ldr.run.isSome = true → Gives (.cfgPload acc v) s fun t => closed t 0xA 0 (v.toNat % 256) ∧
        t.ldr = s.ldr ∧ t.regions = s.regions)) ∧
    (s.ldr.run.isSome = true ∨ s.ldr.waiting = [] ∨ (s.chip.state ≠ .run ∧ s.chip.state ≠ .safe) → exec .partialLoadTake s = .next s) ∧
    (∀ q : PartReq, s.ldr.run = none → s.chip.state = .run → q.woken = false → q.early = false →
      s.ldr.waiting.find? (fun q => q.path == 3) = some q ∨
        (s.ldr.waiting.find? (fun q => q.path == 3) = none ∧ s.ldr.waiting.head? = some q) →
      let e := s.partEntry q.part
      let n := pdRegion e
      (pdValid e = false → Gives .partialLoadTake s fun t => closed t 4 19 q.part ∧ t.ldr.waiting = s.ldr.waiting.erase q ∧
        t.ldr.run = none ∧ t.regions = s.regions) ∧
      (pdValid e = true → (s.region n).state = .active → (s.region n).limit = false → s.flag (PWR_RGN_DOWN n) = false →
        (pdWhole e = true → Gives .partialLoadTake s fun t => closed t 0xA 0 q.part ∧ t.ldr.waiting = s.ldr.waiting.erase q ∧
          t.ldr.run = none ∧ t.regions = s.regions) ∧
        (pdWhole e = false → bitOf (pdCtx e) (s.region n).ctx.active = false → Gives .partialLoadTake s fun t =>
          t.ldr.waiting = s.ldr.waiting.erase q ∧ t.rd CFG_PSTAT_BUSY = 1 ∧ t.rd CFG_PSTAT_CUR = q.part % 2 ^ CFG_PSTAT_CUR.width ∧
          t.rd CFG_PSTAT_FB = b2n (q.path == 3) ∧ t.log = s.log ∧
          t.ldr.run = some { req := q, region := n, mask := pdCtx e, whole := false, live := true } ∧
          (t.region n).state = .active ∧ (t.region n).ctx.loading = ((s.region n).ctx.loading ||| pdCtx e) ∧
          (t.region n).ctx.loaded = (s.region n).ctx.loaded))) ∧
    (∀ (crc sig : Bool),
      ((∀ p, s.ldr.run = some p → p.header = false) → exec (.partialLoadComplete crc sig) s = .next s) ∧
      (∀ p : PartRun, s.ldr.run = some p → p.header = true → p.req.early = false →
        (crc = true → bitOf s.ldr.hdr.flags 0 = false ∨ sig = true → p.live = true → Gives (.partialLoadComplete crc sig) s fun t =>
          t.ldr.run = none ∧ t.rd CFG_PSTAT_BUSY = 0 ∧ t.rd CFG_PSTAT_STATUS = 0 ∧
          (t.region p.region).ctx.loaded = ((s.region p.region).ctx.loaded ||| p.mask) ∧
          (t.region p.region).state = (s.region p.region).state ∧ (t.region p.region).engs = (s.region p.region).engs) ∧
        (crc = false → (s.region p.region).state ≠ .loading → Gives (.partialLoadComplete crc sig) s fun t => closed t 4 15 p.req.part ∧
          t.ldr.run = none ∧ t.rd CFG_PSTAT_BUSY = 0 ∧ (t.region p.region).ctx.loaded = (s.region p.region).ctx.loaded ∧
          (t.region p.region).state = (s.region p.region).state ∧ t.ldr.waiting = s.ldr.waiting) ∧
        (crc = false → (s.region p.region).state = .loading → Gives (.partialLoadComplete crc sig) s fun t => closed t 4 15 p.req.part ∧
          t.ldr.run = none ∧ (t.region p.region).state = .fenced ∧ (t.region p.region).cause = 0x24 ∧
          (let f := pdFallback (s.partEntry p.req.part)
           t.ldr.waiting = if p.req.path = 3 ∨ f = 0xFF ∨ pdValid (s.partEntry f) = false then s.ldr.waiting
            else s.ldr.waiting ++ [{ part := f, path := 3 }])))) ∧
    (∀ ok : Bool, (s.jrn.queue = [] ∨ s.chip.state = .safe ∨ s.sectorBad false = true → exec (.journalWrite ok) s = .next s) ∧
      (s.journalFull = false ∨ s.chip.state = .safe ∨ s.sectorBad true = true → exec (.journalCompact ok) s = .next s)) ∧
    (∀ (r : JrnRec) (l : List JrnRec), s.jrn.queue = r :: l → s.chip.state = .run → s.sectorBad false = false →
      (s.jrn.open_ = true → r.typ ≠ 7 → Gives (.journalWrite true) s fun t => t.jrn.queue = l ∧
        t.jrn.recs = s.jrn.recs ++ [(s.jrn.number, r)] ∧ t.jrn.number = s.jrn.number + 1 ∧
        t.rd CFG_JCNT_WRITTEN = (s.rd CFG_JCNT_WRITTEN + 1) % 2 ^ CFG_JCNT_WRITTEN.width ∧ t.regions = s.regions ∧ t.log = s.log) ∧
      (s.sectorBad true = true → Gives (.journalWrite false) s fun t => t.jrn.queue = s.jrn.queue ∧ t.jrn.recs = s.jrn.recs ∧
        t.rd CFG_STATUS_JFAIL = 1 ∧ t.rd CFG_JCNT_FAILS = satAdd CFG_JCNT_FAILS.width (s.rd CFG_JCNT_FAILS) 1 ∧ t.regions = s.regions)) ∧
    (s.chip.state = .run → s.journalFull = true → s.sectorBad true = false → Gives (.journalCompact true) s fun t =>
      t.jrn.queue = s.jrn.queue ∧ t.jrn.recs = compacted s.jrn.recs ∧ t.rd CFG_JRNL_SECTOR = (1 - s.rd CFG_JRNL_SECTOR) % 2 ∧
      t.rd CFG_JSEQ_SEQ = (s.rd CFG_JSEQ_SEQ + 1) % 2 ^ CFG_JSEQ_SEQ.width ∧ t.regions = s.regions) ∧
    (s.chip.state ≠ .start ∨ s.ldr.started ≠ 0 → exec .startPllTimeout s = .next s) ∧
    (s.chip.state = .start → s.ldr.started = 0 → Gives .startPllTimeout s fun t => t.ldr.started = 1 ∧
      (t.chip.state = .start → t.kettle.startWakes = (List.range 64).filter fun n => (t.region n).state == .loading))

/-- O53 (R413, R414, R418, R419, R420, R421, R422, R427, R428, R429, R430, R431). While the ring is off no command of
it does anything. The master sends a reel on each ring whose port is UP, with era, node, position flags and the
latency of the outgoing link (log entry 49); a FILL carries the next alive counter. A frame that fails its CRC is
counted and not used. A follower without a reel uses the first one and forwards it with its residence and the latency
of the outgoing link added to DELAY and one hop less; a master ignores its own. A sample within 1 ns of the mean
enters the mean, another is an outlier. Block lock trains a link, a lost direction takes it DOWN and wraps. A TOPO
back at its origin gives the ring, a node number found twice sets DUPNODE. Four missing reels hold the outputs, or a
backup takes over with the next era. After 1 ms the position stands. A designated master that hears no reel starts
with era 1. A hold that reaches its limit is logged or enters SAFE. -/
def Obligations.TheRingsLinksReelsAndMasters : Prop :=
  ∀ s : State,
    (s.krlOn = false → ∀ (p : Fin 2) (b : Bool) (w : BitVec 2) (r : ReelArgs) (f : FrameArgs) (l : LinkWord) (x y : Byte),
      exec .reelSend s = .next s ∧ exec (.reel r) s = .next s ∧ exec (.fillSend p) s = .next s ∧ exec (.fill p b l x y) s = .next s ∧
      exec (.data f) s = .next s ∧ exec (.topo f) s = .next s ∧ exec .ackSend s = .next s ∧ exec (.linkBlockLock p b w) s = .next s ∧
      exec (.linkDown p b) s = .next s ∧ exec .reelsLost s = .next s ∧ exec .reelFreeze s = .next s ∧ exec .masterStart s = .next s ∧
      exec .holdLimit s = .next s ∧ exec (.mgmtRead f) s = .next s ∧ exec (.mgmtWrite f) s = .next s ∧
      exec (.mgmtResponse f) s = .next s ∧ exec (.mgmtAck f) s = .next s ∧ exec (.mgmtDrop f) s = .next s) ∧
    (s.krlOn = true →
      (s.flag KRL_STATUS_MASTER = false → exec .reelSend s = .next s) ∧
      (s.flag KRL_STATUS_MASTER = true → Gives .reelSend s fun t => t.regs = s.regs ∧ t.tb = s.tb ∧ t.regions = s.regions ∧
        ∀ p : Fin 2, (s.linkUp p = false → (t.krlPort p).out = []) ∧
          (s.linkUp p = true → ∃ x r, (t.krlPort p).out = [x] ∧ x.typ = 1 ∧ x.reel = some r ∧ x.link = some (s.linkWord p) ∧
            r.time = BitVec.ofNat 64 ((s.cyc - s.tb.startCyc) / 384 * 384) ∧ r.era = BitVec.ofNat 16 (s.rd KRL_STATUS_ERA) ∧
            r.mnode.val = s.krlNode % 64 ∧ r.cold = s.tb.cold ∧ r.rev = s.tb.rev ∧ r.still = s.tb.still ∧
            r.delay = BitVec.ofNat 32 (s.rd (KRL_HOPLAT_LAT p)) ∧ r.pos = BitVec.ofNat 80 (pos80 s.measured))) ∧
      (∀ p : Fin 2, Gives (.fillSend p) s fun t => t.regs = s.regs ∧ (t.krlPort (1 - p.val)).out = [] ∧
        (t.krlPort p).fillTx = ((s.krlPort p).fillTx + 1) % 256 ∧
        ∃ x, (t.krlPort p).out = [x] ∧ x.typ = 4 ∧ x.f.alive = BitVec.ofNat 8 (s.krlPort p).fillTx ∧ x.link = some (s.linkWord p)) ∧
      (∀ (p : Fin 2) (l : LinkWord) (age alive : Byte),
        let lat := unsignedOf 48 (s.stampUnits - age.toNat - l.echo.toNat - l.turn.toNat) / 2
        let m := s.rd (KRL_HOPLAT_LAT p)
        let crc := satAdd KRL_CNT_LINK_CRC.width (s.rd KRL_CNT_LINK_CRC) 1
        (Gives (.fill p false l age alive) s fun t => t.rd KRL_CNT_LINK_CRC = crc ∧ (t.krlPort p).fillRx = (s.krlPort p).fillRx ∧
          t.rd (KRL_HOPLAT_LAT p) = m) ∧
        (s.linkUp p = true → Gives (.fill p true l age alive) s fun t => (t.krlPort p).fillRx = some alive.toNat ∧
          t.rd KRL_CNT_LINK_CRC = (match (s.krlPort p).fillRx with
            | some v => if (v + 1) % 256 = alive.toNat then s.rd KRL_CNT_LINK_CRC else crc
            | none => s.rd KRL_CNT_LINK_CRC) ∧
          (m + 384 < lat ∨ lat + 384 < m → t.rd (KRL_HOPLAT_LAT p) = m ∧
            t.rd KRL_CNT_LINK_OUTLIER = satAdd KRL_CNT_LINK_OUTLIER.width (s.rd KRL_CNT_LINK_OUTLIER) 1) ∧
          (lat ≤ m + 384 → m ≤ lat + 384 → t.rd KRL_CNT_LINK_OUTLIER = s.rd KRL_CNT_LINK_OUTLIER ∧
            t.rd (KRL_HOPLAT_LAT p) = meanOf ((lat :: (s.krlPort p).samples).take 256) % 2 ^ 32))) ∧
      (∀ a : ReelArgs,
        (a.crcOk = false → Gives (.reel a) s fun t => t.krl.reel = s.krl.reel ∧ t.tb = s.tb ∧
          t.rd KRL_CNT_LINK_CRC = satAdd KRL_CNT_LINK_CRC.width (s.rd KRL_CNT_LINK_CRC) 1 ∧ (t.krlPort 0).out = [] ∧ (t.krlPort 1).out = []) ∧
        (a.crcOk = true → s.linkUp a.port = true → a.reel.mnode.val = s.krlNode → s.flag KRL_STATUS_MASTER = true →
          Gives (.reel a) s fun t => t.krl.reel = s.krl.reel ∧ t.tb = s.tb ∧ (t.krlPort 0).out = [] ∧ (t.krlPort 1).out = []) ∧
        (a.crcOk = true → s.linkUp a.port = true → s.flag KRL_STATUS_MASTER = false → s.rd KRL_CTRL_TEMPO ≠ 1 → s.krl.reel = none →
          Gives (.reel a) s fun t => t.krl.reel = some (reelTaken a (s.stampUnits - a.age.toNat)) ∧
            t.rd KRL_STATUS_ERA = a.reel.era.toNat ∧ t.rd KRL_STATUS_MNODE = a.reel.mnode ∧ t.rd KRL_REEL_DELAY_DELAY = a.reel.delay.toNat ∧
            t.rd KRL_STATUS_RINGB = b2n (a.port == 0) ∧ t.krl.frozen = none ∧ (t.krlPort a.port).out = [] ∧
            (s.linkUp (1 - a.port.val) = true → 1 < a.ttl.toNat → s.neighbour (1 - a.port.val) ≠ some a.reel.mnode.val →
              ∃ x r, (t.krlPort (1 - a.port.val)).out = [x] ∧ x.typ = 1 ∧ x.f.ttl = a.ttl - 1 ∧ x.reel = some r ∧
                r.delay = a.reel.delay + a.residence + BitVec.ofNat 32 (s.rd (KRL_HOPLAT_LAT (1 - a.port.val))) ∧
                r.pos = a.reel.pos ∧ r.time = a.reel.time ∧ r.era = a.reel.era ∧ r.mnode = a.reel.mnode ∧ r.vel = a.reel.vel) ∧
            (s.linkUp (1 - a.port.val) = false ∨ a.ttl.toNat ≤ 1 ∨ s.neighbour (1 - a.port.val) = some a.reel.mnode.val →
              (t.krlPort (1 - a.port.val)).out = []))) ∧
      (∀ (p : Fin 2) (tx : Bool) (lanes : BitVec 2),
        let f := if tx then KRL_LINK_TXUP p else KRL_LINK_RXUP p
        let g := if tx then KRL_LINK_RXUP p else KRL_LINK_TXUP p
        (Gives (.linkBlockLock p tx lanes) s fun t => t.rd f = (s.rd f ||| lanes.toNat) % 4 ∧ t.rd g = s.rd g ∧ t.regions = s.regions ∧
          t.rd (KRL_LINK_STATE p) = if t.rd f = 0 ∨ s.rd g = 0 then s.rd (KRL_LINK_STATE p) else if 1024 ≤ (s.krlPort p).exch then 2
            else if s.rd (KRL_LINK_STATE p) = 0 then 1 else s.rd (KRL_LINK_STATE p)) ∧
        Gives (.linkDown p tx) s fun t => t.rd f = 0 ∧ t.rd g = s.rd g ∧ t.rd (KRL_LINK_STATE p) = 0 ∧ t.regions = s.regions ∧
          (s.rd (KRL_LINK_STATE p) ≠ 0 → t.rd (if p.val = 0 then KRL_STATUS_WRAPE else KRL_STATUS_WRAPW) ≠ 0)) ∧
      (∀ a : FrameArgs,
        (a.crcOk = false → Gives (.topo a) s fun t => t.krl.topo = s.krl.topo ∧
          t.rd KRL_CNT_LINK_CRC = satAdd KRL_CNT_LINK_CRC.width (s.rd KRL_CNT_LINK_CRC) 1) ∧
        (a.crcOk = true → a.f.org.val = s.krlNode → a.port = 1 → a.f.seq.toNat % 2 = 0 → a.f.items.length ≤ 64 → Gives (.topo a) s fun t =>
          t.krl.topo = (a.f.items.map fun i => i.toNat).tail ∧ t.rd KRL_TOPO_SIZE = t.krl.topo.length + 1 ∧
          t.flag KRL_STATUS_DUPNODE = t.krlNodes.any (fun n => !t.krlPresent n) ∧ (t.krlPort 0).out = [] ∧ (t.krlPort 1).out = []) ∧
        (a.crcOk = true → a.f.org.val ≠ s.krlNode → a.port = 1 → a.f.seq.toNat % 2 = 0 → s.linkUp 0 = true → 1 < a.f.ttl.toNat →
          Gives (.topo a) s fun t => (t.krlPort 1).out = [] ∧ ∃ x, (t.krlPort 0).out = [x] ∧ x.typ = 3 ∧ x.sub = 6 ∧
            x.f.org = a.f.org ∧ x.f.items = a.f.items ++ [BitVec.ofNat 8 s.krlItem] ∧ x.f.ttl = a.f.ttl - 1)) ∧
      (s.flag KRL_STATUS_MASTER = true ∨ s.krl.reel = none ∨ 4 ≤ s.krl.missing → exec .reelsLost s = .next s) ∧
      (∀ r : Reel, s.flag KRL_STATUS_MASTER = false → s.krl.reel = some r → s.krl.missing < 4 → s.krl.hold = false →
        (s.rd KRL_CTRL_TEMPO ≠ 2 → Gives .reelsLost s fun t => t.krl.hold = true ∧ t.krl.holdAt = s.cyc ∧ t.krl.holdWhy = 2 ∧ t.krl.missing = 4 ∧
          t.rd KRL_STATUS_HOLD = 1 ∧ t.rd KRL_STATUS_COLD = 1 ∧ t.krl.reel = some r ∧
          t.rd KRL_CNT_REEL_MISSED = satAdd KRL_CNT_REEL_MISSED.width (s.rd KRL_CNT_REEL_MISSED) (4 - s.krl.missing)) ∧
        (s.rd KRL_CTRL_TEMPO = 2 → s.chip.state = .run → (s.port (s.rd KRL_CTRL_BPORT)).faulted = false → Gives .reelsLost s fun t =>
          t.flag KRL_STATUS_MASTER = true ∧ t.rd KRL_STATUS_ERA = (s.rd KRL_STATUS_ERA + 1) % 2 ^ 16 ∧
          t.rd KRL_STATUS_MNODE = s.krlNode % 64 ∧ t.tb.srcAct = s.rd KRL_CTRL_BPORT ∧ t.tb.cold = true ∧ t.krl.hold = true)) ∧
      (s.tb.srcAct = 4 → s.krl.reel.isSome = true → s.krl.frozen = none →
        exec .reelFreeze s = .next { s with krl := { s.krl with frozen := some s.cyc } }) ∧
      (s.tb.srcAct ≠ 4 ∨ s.krl.reel = none ∨ s.krl.frozen.isSome = true → exec .reelFreeze s = .next s) ∧
      (s.rd KRL_CTRL_TEMPO ≠ 1 ∨ s.flag KRL_STATUS_MASTER = true ∨ s.krl.reel.isSome = true → exec .masterStart s = .next s) ∧
      (s.rd KRL_CTRL_TEMPO = 1 → s.flag KRL_STATUS_MASTER = false → s.krl.reel = none → Gives .masterStart s fun t =>
        t.rd KRL_STATUS_MASTER = 1 ∧ t.rd KRL_STATUS_ERA = 1 ∧ t.rd KRL_STATUS_MNODE = s.krlNode % 64 ∧ t.tb = s.tb) ∧
      (s.krl.hold = false ∨ s.krl.limitLogged = true → exec .holdLimit s = .next s) ∧
      (s.krl.hold = true → s.krl.limitLogged = false →
        (s.flag KRL_CTRL_LOSTPOL = false → exec .holdLimit s =
          .next (({ s with krl := { s.krl with limitLogged := true } } : State).logHold 3)) ∧
        (s.flag KRL_CTRL_LOSTPOL = true → s.chip.state = .run → Gives .holdLimit s fun t => t.chip.state = .safe ∧
          t.chip.outputs = false ∧ bitOf t.chip.stayMask 6 = true)))

/-- O54 (R414, R416, R432, R434, R435, R436, R437, R438, R440, R652). A DATA frame for another node goes on with one
hop less, wraps where the link ahead is down, and without hops, or failing its CRC, or without a valid receive entry,
or failing the key check, is dropped with one DROP frame to its origin. At its destination it enters the network at NI
76 with its words. ACKs name the highest SEQ and the map. An ACK that covers the ledger entry closes it, a DROP closes
it with a drop notice, others count as late; an entry that times out is closed. A READ or WRITE of this node is
answered by one RESPONSE with the status and data of the access, a refused one with REFUSED. A RESPONSE answers its
request; one that comes late is counted; without one the request ends TIMEOUT. -/
def Obligations.ResultStreamsAndManagementOfTheRing : Prop :=
  ∀ s : State, s.krlOn = true → s.linkUp 0 = true → s.linkUp 1 = true →
    let sent := fun (t : State) (node : Fin 64) (typ sub status : Nat) (words : List Word) =>
      let p := b2n (s.krlRing node)
      (t.krlPort (1 - p)).out = [] ∧ ∃ x, (t.krlPort p).out = [x] ∧ x.typ = typ ∧ x.sub = sub ∧ x.f.dst = node ∧
        x.f.status.val = status ∧ x.f.words = words ∧ x.f.org.val = s.krlNode % 64
    let up := fun (t : State) (f : Fld) => t.rd f = satAdd f.width (s.rd f) 1
    (∀ a : FrameArgs,
      let e := s.krl.tables.get 0 (512 + a.f.stream.toNat)
      let x := s.krl.rx.get {} (rxKey a.f.org a.f.stream.toNat)
      let name := [BitVec.ofNat 32 (a.f.stream.toNat + a.f.seq.toNat * 2 ^ 8)]
      (a.crcOk = false → Gives (.data a) s fun t => sent t a.f.org 3 5 7 name ∧ up t KRL_CNT_LINK_CRC ∧ t.net = s.net ∧ t.krl.rx = s.krl.rx) ∧
      (a.crcOk = true → a.f.dst.val ≠ s.krlNode →
        (1 < a.f.ttl.toNat → exec (.data a) s = .next (s.krlFresh.krlPut (1 - a.port.val)
          { typ := 2, f := { a.f with ttl := a.f.ttl - 1, ring := a.port == 0 } })) ∧
        (a.f.ttl.toNat ≤ 1 → Gives (.data a) s fun t => sent t a.f.org 3 5 3 name ∧ t.net = s.net ∧ t.krl.rx = s.krl.rx)) ∧
      (a.crcOk = true → a.f.dst.val = s.krlNode →
        (bitOf e 31 = false → Gives (.data a) s fun t => sent t a.f.org 3 5 4 name ∧ t.net = s.net ∧ t.krl.rx = s.krl.rx) ∧
        (bitOf e 31 = true → a.f.enc = true → a.f.key.val ≠ bitsOf e 29 24 → s.flag SEC_CFG_POL = false → Gives (.data a) s fun t =>
          sent t a.f.org 3 5 6 name ∧ up t KRL_CNT_RX_TAGFAIL ∧ t.rd KRL_STATUS_TAGFAIL = 1 ∧ t.rd SEC_STATUS_ALARM = 1 ∧
          t.net = s.net ∧ t.krl.rx = s.krl.rx) ∧
        (∀ alt route dport, bitOf e 31 = true → bitOf e 30 = false → a.f.enc = false → x.alive = none → x.high = none → x.since < 31 →
          s.lookup 76 (bitsOf e 6 0) = .ok (alt, route, dport) → s.routerFaulted (s.niAt 76) = false → Gives (.data a) s fun t =>
            let key := queueKey (s.niAt 76) (niInPort 76 (s.ni 76).bypass) 2 alt
            (t.krlPort 0).out = [] ∧ (t.krlPort 1).out = [] ∧ t.regs = s.regs ∧
            (t.krl.rx.get {} (rxKey a.f.org a.f.stream.toNat)).high = some a.f.seq.toNat ∧
            (t.krl.rx.get {} (rxKey a.f.org a.f.stream.toNat)).since = x.since + 1 ∧
            ∃ r, t.net.queues.get [] key = s.net.queues.get [] key ++ [r] ∧ r.opc = (if a.f.mark then 0x21 else 0x20) ∧ r.src = 76 ∧
              r.data = a.f.data ∧ r.stamp = a.f.stamp.toNat ∧ r.psn = a.f.psn.toNat ∧ r.route = route))) ∧
    ((∀ x ∈ s.krl.rx, x.2.since = 0) → exec .ackSend s = .next s.krlFresh) ∧
    (∀ (o : Fin 64) (st h : Nat) (x : KrlRx), st < 256 → s.krl.rx = [(rxKey o st, x)] → 0 < x.since → x.high = some h → Gives .ackSend s fun t =>
      sent t o 3 4 0 [BitVec.ofNat 32 (st + h * 2 ^ 8), BitVec.ofNat 32 x.map] ∧ t.krl.rx = [(rxKey o st, { x with since := 0 })] ∧ t.regs = s.regs) ∧
    (∀ a : FrameArgs, a.crcOk = true → a.f.dst.val = s.krlNode →
      let w0 := (a.f.words.getD 0 0).toNat
      let w1 := (a.f.words.getD 1 0).toNat
      (∀ y : KrlOpen, s.krl.ledger = [y] →
        (ackCovers w0 w1 y = true → Gives (.mgmtAck a) s fun t => t.krl.ledger = [] ∧ t.net = s.net ∧
          t.rd KRL_CNT_DATA_LATE = s.rd KRL_CNT_DATA_LATE) ∧
        (ackCovers w0 w1 y = false → Gives (.mgmtAck a) s fun t => t.krl.ledger = [y] ∧ up t KRL_CNT_DATA_LATE) ∧
        (y.stream = w0 % 256 → y.seq = bitsOf w0 23 8 → y.src < 64 → (s.region y.src).state = .active → s.canReply 76 y.src = true →
          Gives (.mgmtDrop a) s fun t => t.krl.ledger = [] ∧ up t KRL_CNT_DATA_DROPPED ∧
            ∃ r, t.net.queues.get [] (s.replyKey 76 y.src) = s.net.queues.get [] (s.replyKey 76 y.src) ++ [r] ∧ r.opc = 0x31 ∧
              r.status = a.f.status.val ∧ r.tid = y.tid ∧ r.addr = y.addr) ∧
        (y.stream ≠ w0 % 256 ∨ y.seq ≠ bitsOf w0 23 8 → Gives (.mgmtDrop a) s fun t => t.krl.ledger = [y] ∧ up t KRL_CNT_DATA_LATE ∧
          t.net = s.net)) ∧
      (∀ y : KrlAsk, s.krl.asks = [y] → y.pkt = none →
        (y.seq = a.f.seq.toNat → y.node = a.f.org → Gives (.mgmtResponse a) s fun t => t.krl.asks = [] ∧
          t.krl.proxy = some ⟨a.f.status, if y.write then 0 else w0⟩ ∧ t.net = s.net) ∧
        (y.seq ≠ a.f.seq.toNat ∨ y.node ≠ a.f.org → Gives (.mgmtResponse a) s fun t => t.krl.asks = [y] ∧ t.krl.proxy = s.krl.proxy ∧
          up t (niFld NI_CNT_TO_LATERSP 76))) ∧
      (s.chip.state = .run → w0 = 0x40 → w1 % 64 = 0 → Gives (.mgmtRead a) s fun t =>
        sent t a.f.org 3 3 0 [BitVec.ofNat 32 (s.rd SYS_LOG_WD0_DETAIL)] ∧ t.regions = s.regions ∧ t.log = s.log) ∧
      (s.chip.state = .run → s.chip.windows = true → w0 = 0x40 →
        (s.windowPermits 0x40 true = true → Gives (.mgmtWrite a) s fun t => sent t a.f.org 3 3 0 [] ∧ t.rd SYS_LOG_WD0_DETAIL = w1) ∧
        (s.windowPermits 0x40 true = false → Gives (.mgmtWrite a) s fun t => sent t a.f.org 3 3 0xA [] ∧ up t SYS_SVCERR_REFUSED ∧
          t.rd SYS_LOG_WD0_DETAIL = s.rd SYS_LOG_WD0_DETAIL)) ∧
      (s.chip.state = .run → s.chip.windows = true → w0 = 0x10000 → w1 % 64 = 1 → Gives (.mgmtRead a) s fun t => ∃ ws, ws.length = 2 ∧ sent t a.f.org 3 3 0 ws)) ∧
    (∀ a : FrameArgs, a.crcOk = true → a.f.dst.val ≠ s.krlNode → a.f.ttl.toNat ≤ 1 →
      exec (.mgmtAck a) s = .next s.krlFresh ∧ exec (.mgmtWrite a) s = .next s.krlFresh) ∧
    (s.krl.ledger = [] → exec .ledgerTimeout s = .next s) ∧
    (∀ (y : KrlOpen) (l : List KrlOpen), s.krl.ledger = y :: l → Gives .ledgerTimeout s fun t => t.krl.ledger = l ∧ up t KRL_CNT_DATA_TIMEOUT) ∧
    (s.krl.asks = [] → exec .mgmtTimeout s = .next s) ∧
    (∀ (y : KrlAsk) (l : List KrlAsk), s.krl.asks = y :: l → y.pkt = none → exec .mgmtTimeout s = .next { s with
      krl := { s.krl with asks := l, proxy := some ⟨7, 0⟩ } })

/-- O55 (R447, R451, R453, R454, R455, R456, R457, R458, R459, R460). A quad PLL that locks brings its waiting lanes
to ACQUIRE, one that loses lock brings its lanes to WAIT_PLL. A lane that gains lock is UP; one that loses it is in
ACQUIRE, its transmit FIFO discarded, and at LOSLIM losses within a second its slice asks for substitution; without
lock it is DOWN, and tries again. The elastic buffer inserts and deletes fillers at 24 and 40 and slips at 64. A word
that leaves it joins the packet being filled; a full packet, or one that has waited HOLD, enters the network. An UP
lane sends the oldest word of its FIFO, an error block where poison or an empty FIFO asks for one, and a filler after
FILLINT entries. Adaptation moves CODE by one step. An eye scan starts on an UP lane that scans nothing, and shows its
errors. LNE_QSUB asks for a substitution, or takes the lane DOWN for good where the spare is in. A switched slice
serves once the PLL is locked. -/
def Obligations.SerialLanesLockReceiveAndSend : Prop :=
  ∀ (s : State) (q : Fin 12) (l : Fin 4),
    let k := q.val * 4 + l.val
    let x := s.lane k
    let pcs := s.rd (LNE_LCFG_PCS q l)
    let up := fun (t : State) (f : Nat → Nat → Fld) => t.rd (f q l) = satAdd (f q l).width (s.rd (f q l)) 1
    let others := fun (t : State) => (∀ j, j ≠ k → t.lane j = s.lane j) ∧ t.regions = s.regions ∧ t.net = s.net
    let sends := fun (t : State) (ws : List Line) (stamp : Nat) (alt : Bool) =>
      let key := queueKey (s.niAt (laneNi k)) (niInPort (laneNi k) (s.ni (laneNi k)).bypass) 2 alt
      (t.lane k).rx = [] ∧ t.regs = s.regs ∧ ∃ p, t.net.queues.get [] key = s.net.queues.get [] key ++ [p] ∧ p.data = ws ∧ p.opc = 0x20 ∧
        p.src = laneNi k ∧ p.stamp = stamp ∧ bitsOf p.addr 10 8 = l.val ∧ bitsOf p.addr 17 12 = q.val ∧ bitsOf p.addr 23 20 = (ws.length - 1) % 16
    (∀ ok : Bool,
      (s.flag (LNE_QSTAT_LOCK q) = false → Gives (.qpllLock q true ok) s fun t => t.rd (LNE_QSTAT_LOCK q) = 1 ∧ t.rd (LNE_QSTAT_REFOK q) = b2n ok ∧
        (t.lane k).state = (if x.state = 1 then 2 else x.state) ∧ t.regions = s.regions) ∧
      (s.flag (LNE_QSTAT_LOCK q) = true → Gives (.qpllLock q false ok) s fun t => t.rd (LNE_QSTAT_LOCK q) = 0 ∧ q.val ∈ t.lanes.lostPll ∧
        (t.lane k).state = (if x.state = 0 ∨ x.state = 5 ∨ x.lost = true then x.state else 1) ∧ t.regions = s.regions) ∧
      (∀ b, s.flag (LNE_QSTAT_LOCK q) = b → exec (.qpllLock q b ok) s = .next (s.wr (LNE_QSTAT_REFOK q) (b2n ok)))) ∧
    (s.flag (LNE_QSTAT_LOCK q) = true → exec (.qpllRetry q) s = .next s) ∧
    (s.flag (LNE_QSTAT_LOCK q) = false → exec (.qpllRetry q) s = .next { s with
      lanes := { s.lanes with lostPll := q.val :: s.lanes.lostPll.erase q.val } }) ∧
    ((x.state ≠ 2 ∧ x.state ≠ 4) ∨ x.lost = true → exec (.laneLock q l) s = .next s) ∧
    (x.state = 2 ∨ x.state = 4 → x.lost = false → Gives (.laneLock q l) s fun t => (t.lane k).state = 3 ∧ (t.lane k).sigdet = true ∧
      (t.lane k).elastic = List.replicate 32 ⟨0#128, true⟩ ∧ (t.lane k).sinceFill = 0 ∧ others t) ∧
    (∀ high sig : Bool, (x.state ≠ 3 → exec (.laneLoss q l high sig) s = .next s) ∧
      (x.state = 3 → high = true → Gives (.laneLoss q l high sig) s fun t => (t.lane k).state = 2 ∧ (t.lane k).hiber = true ∧
        (t.lane k).tx = [] ∧ up t LNE_LCNT_ERR_HIBER ∧ t.lanes.reqs = s.lanes.reqs ∧ others t) ∧
      (x.state = 3 → high = false → sig = true → x.lost = false →
        let recent := s.cyc :: x.losses.filter fun t => decide (s.cyc < t + 1000 * msCycles)
        (recent.length < s.rd (LNE_QCFG_LOSLIM q) → Gives (.laneLoss q l high sig) s fun t => (t.lane k).state = 2 ∧
          (t.lane k).losses = recent ∧ (t.lane k).tx = [] ∧ (t.lane k).code = s.rd (LNE_LCTLE_PRESET q l) ∧ (t.lane k).cold = true ∧
          up t LNE_LCNT_ERR_LOSS ∧ t.lanes.reqs = s.lanes.reqs ∧ others t) ∧
        (s.rd (LNE_QCFG_LOSLIM q) ≤ recent.length → s.rd (LNE_QSTAT_SPUSE q) ≠ 2 → q.val ∉ s.lanes.noSpare →
          Gives (.laneLoss q l high sig) s fun t => (t.lane k).state = 2 ∧ (t.lane k).losses = [] ∧ (k, 1) ∈ t.lanes.reqs ∧
            up t LNE_LCNT_ERR_LOSS ∧ others t))) ∧
    (x.state ≠ 2 → exec (.laneAcquireTimeout q l) s = .next s) ∧
    (x.state = 2 → Gives (.laneAcquireTimeout q l) s fun t => (t.lane k).state = 4 ∧ others t ∧ t.regs = s.regs) ∧
    (x.state ≠ 4 ∨ x.lost = true → exec (.laneRetry q l) s = .next s) ∧
    (x.state = 4 → x.lost = false → Gives (.laneRetry q l) s fun t => (t.lane k).state = 2 ∧ others t ∧ t.regs = s.regs) ∧
    (∀ (w : Line) (f : Bool), x.state = 3 → pcs ≠ 6 →
      let n := x.elastic.length
      (f = false → n < 64 → Gives (.laneRxWord q l (.line w f false)) s fun t => (t.lane k).elastic = x.elastic ++ [⟨w, false⟩] ∧
        (t.lane k).rx = x.rx ∧ t.regs = s.regs ∧ others t) ∧
      (f = true → n ≤ 24 → Gives (.laneRxWord q l (.line w f false)) s fun t => (t.lane k).elastic = x.elastic ++ [⟨w, true⟩, ⟨w, true⟩] ∧
        t.rd (LNE_LCNT_RM_INS q l) = (s.rd (LNE_LCNT_RM_INS q l) + 1) % 2 ^ 12 ∧ others t) ∧
      (f = true → 40 ≤ n → Gives (.laneRxWord q l (.line w f false)) s fun t => t.lane k = x ∧
        t.rd (LNE_LCNT_RM_DEL q l) = (s.rd (LNE_LCNT_RM_DEL q l) + 1) % 2 ^ 12 ∧ others t) ∧
      (f = false → 64 ≤ n → pcs = 4 → Gives (.laneRxWord q l (.line w f false)) s fun t => t.lane k = x ∧ up t LNE_LCNT_RM_SLIP ∧ others t)) ∧
    (∀ e : LaneRx, x.state ≠ 3 → exec (.laneRxWord q l e) s = .next s) ∧
    (∀ (w : Line) (b : Bool) (r : List LaneEntry), x.state = 3 → pcs = 4 → x.elastic = ⟨w, b⟩ :: r →
      (s.flag (LNE_LRX_VALID q l) = false → Gives (.laneRxWord q l .clock) s fun t => t.lane k = { x with elastic := r } ∧ t.regs = s.regs ∧ others t) ∧
      (s.flag (LNE_LRX_VALID q l) = true → s.laneWaiting k + x.rx.length < 256 →
        (x.rx.length < s.rd (LNE_LPKT_WORDS q l) → Gives (.laneRxWord q l .clock) s fun t => (t.lane k).elastic = r ∧
          (t.lane k).rx = x.rx ++ [w] ∧ (x.rx = [] → (t.lane k).rxStamp = s.stampNow) ∧ t.regs = s.regs ∧ others t) ∧
        (∀ alt route dport, s.rd (LNE_LPKT_WORDS q l) ≤ x.rx.length → x.rx.length < 16 → x.rx ≠ [] → s.rd (LNE_LRX_PORT q l) < 8 →
          s.lookup (laneNi k) (s.rd (LNE_LRX_DST q l)) = .ok (alt, route, dport) → s.routerFaulted (s.niAt (laneNi k)) = false →
          Gives (.laneRxWord q l .clock) s fun t => (t.lane k).elastic = r ∧ sends t (x.rx ++ [w]) x.rxStamp alt)) ∧
      (s.flag (LNE_LRX_VALID q l) = true → 256 ≤ s.laneWaiting k + x.rx.length → Gives (.laneRxWord q l .clock) s fun t =>
        t.lane k = { x with elastic := r } ∧ up t LNE_LCNT_FIFO_RXOVF ∧ others t)) ∧
    (x.rx = [] → exec (.lanePacketHold q l) s = .next s) ∧
    (∀ alt route dport, x.rx ≠ [] → x.rx.length ≤ 16 → s.rd (LNE_LRX_PORT q l) < 8 →
      s.lookup (laneNi k) (s.rd (LNE_LRX_DST q l)) = .ok (alt, route, dport) → s.routerFaulted (s.niAt (laneNi k)) = false →
      Gives (.lanePacketHold q l) s fun t => sends t x.rx x.rxStamp alt) ∧
    (x.state = 3 → pcs = 4 ∨ pcs = 5 → s.rd (LNE_LPKT_FILLINT q l) ≤ x.sinceFill → Gives (.forcedFiller q l) s fun t =>
      t.lane k = { x with out := none, sinceFill := 0 } ∧ t.regs = s.regs ∧ others t) ∧
    (x.state ≠ 3 ∨ (pcs ≠ 4 ∧ pcs ≠ 5) ∨ x.sinceFill < s.rd (LNE_LPKT_FILLINT q l) → exec (.forcedFiller q l) s = .next s) ∧
    (s.chip.outputs = false ∨ x.state = 0 ∨ x.state = 1 ∨ x.state = 5 → exec (.laneTxBlock q l) s = .next s) ∧
    (s.chip.outputs = true → x.state = 2 ∨ x.state = 4 → Gives (.laneTxBlock q l) s fun t =>
      t.lane k = { x with out := none, sinceFill := 0 } ∧ t.regs = s.regs ∧ others t) ∧
    (∀ (w : Line) (b : Bool) (r : List (Line × Bool)), s.chip.outputs = true → x.state = 3 → x.tx = (w, b) :: r →
      (pcs = 4 → x.sinceFill < s.rd (LNE_LPKT_FILLINT q l) → Gives (.laneTxBlock q l) s fun t => (t.lane k).out = some w ∧ (t.lane k).tx = r ∧
        (t.lane k).sinceFill = x.sinceFill + 1 ∧ (b = true → up t LNE_LCNT_FIFO_TXPSN) ∧ (b = false → t.regs = s.regs) ∧ others t) ∧
      (pcs = 4 → s.rd (LNE_LPKT_FILLINT q l) ≤ x.sinceFill → Gives (.laneTxBlock q l) s fun t => t.lane k = { x with out := none, sinceFill := 0 } ∧
        others t) ∧
      (pcs = 2 → Gives (.laneTxBlock q l) s fun t => (t.lane k).out = some (if b then errorBlock else w) ∧ (t.lane k).tx = r ∧ others t)) ∧
    (s.chip.outputs = true → x.state = 3 → x.tx = [] → pcs = 2 →
      (x.inFrame = true → Gives (.laneTxBlock q l) s fun t => (t.lane k).out = some errorBlock ∧ (t.lane k).inFrame = false ∧
        up t LNE_LCNT_FIFO_TXUND ∧ others t) ∧
      (x.inFrame = false → Gives (.laneTxBlock q l) s fun t => (t.lane k).out = none ∧ t.regs = s.regs ∧ others t)) ∧
    (∀ u d : Bool, (s.flag (LNE_LCTLE_ADAPT q l) = false ∨ x.scan = true ∨ (x.state ≠ 2 ∧ x.state ≠ 3) → exec (.ctleStep q l u d) s = .next s) ∧
      (s.flag (LNE_LCTLE_ADAPT q l) = true → x.scan = false → x.state = 2 ∨ x.state = 3 → Gives (.ctleStep q l u d) s fun t =>
        (t.lane k).code = (if u && !d then min 31 (x.code + 1) else if d && !u then x.code - 1 else x.code) ∧
        (t.lane k).codes.length = min 64 (x.codes.length + 1) ∧ (x.codes.length < 63 → (t.lane k).cold = x.cold) ∧ t.regs = s.regs ∧ others t)) ∧
    (∀ (acc : Accessor) (v : Word),
      (bitOf v.toNat 31 = true → x.scan = true ∨ x.state ≠ 3 → Gives (.escanStart acc q l v) s fun t => t.rd (LNE_ESCAN_REFUSED q l) = 1 ∧
        t.lanes = s.lanes ∧ t.rd (LNE_ESCAN_PHASE q l) = s.rd (LNE_ESCAN_PHASE q l)) ∧
      (bitOf v.toNat 31 = true → x.scan = false → x.state = 3 → Gives (.escanStart acc q l v) s fun t => t.lane k = { x with scan := true } ∧
        t.rd (LNE_ESCAN_PHASE q l) = bitsOf v.toNat 27 22 ∧ t.rd (LNE_ESCAN_VERT q l) = bitsOf v.toNat 21 14 ∧
        t.rd (LNE_ESCAN_NBITS q l) = bitsOf v.toNat 13 8 ∧ t.rd (LNE_ESCAN_DONE q l) = 0 ∧ t.rd (LNE_ESCAN_REFUSED q l) = 0 ∧ others t) ∧
      (bitOf v.toNat 31 = false → exec (.lneQsub acc q v) s = .next { s with rsp := ⟨0, 0⟩ }) ∧
      (bitOf v.toNat 31 = true → v.toNat % 4 = l.val → x.lost = false →
        (s.rd (LNE_QSTAT_SPUSE q) ≠ 2 → q.val ∉ s.lanes.noSpare → Gives (.lneQsub acc q v) s fun t => (k, 1) ∈ t.lanes.reqs ∧ t.lane k = x ∧
          t.regs = s.regs ∧ others t) ∧
        (s.rd (LNE_QSTAT_SPUSE q) = 2 → Gives (.lneQsub acc q v) s fun t => (t.lane k).lost = true ∧ (t.lane k).state = 4 ∧
          t.chip.degraded = true ∧ t.lanes.reqs = s.lanes.reqs ∧ others t))) ∧
    (∀ e : Word, (x.scan = false → exec (.escanDone q l e) s = .next s) ∧
      (x.scan = true → Gives (.escanDone q l e) s fun t => t.rd (LNE_ESCAN_ERR_ERRORS q l) = e.toNat ∧ t.rd (LNE_ESCAN_DONE q l) = 1 ∧
        t.lane k = { x with scan := false } ∧ others t)) ∧
    (x.next = none ∨ x.state ≠ 5 ∨ s.flag (LNE_QSTAT_LOCK q) = false → exec (.sliceSwitchDone q l) s = .next s) ∧
    (∀ sp, x.next = some sp → x.state = 5 → s.flag (LNE_QSTAT_LOCK q) = true → Gives (.sliceSwitchDone q l) s fun t => (t.lane k).spare = sp ∧
      (t.lane k).next = none ∧ (t.lane k).state = 2 ∧ (t.lane k).code = s.rd (LNE_LCTLE_PRESET q l) ∧ others t)

/-- O56 (R465, R469, R472, R474, R475, R476, R478, R483, R484, R485, R486). In KEYED mode with protection a request is
judged by the first row of R472 that applies: served in clear, served under its key, refused with REFUSED, or blocked
with SECURITY and counted. A read of an unwritten line under a key is answered with zeros, a write of a whole word
sets MINOR to 1; a clear read answers what the line holds. A write of XMC_RETIRE starts a walk exactly under the
conditions of R483, else it sets RETREF; caches are then flushed; each page goes under the new key with MAJOR 0 and
MINOR 1 and unwritten lines stay; a line that fails is sealed-poisoned and alarms; after the last page the range has
passed and the old slot is RETIRED. A mode change waits, is refused during a walk, and takes effect. SEC_KGEN fills an
empty slot or is refused. A trained channel that is lost is DOWN and the chip degraded. -/
def Obligations.ExternalMemoryKeysModesAndRequests : Prop :=
  ∀ s : State,
    (∀ (src key a : Nat) (wr : Bool), s.flag XMC_CTRL_MODE = true → s.flag XMC_CFG_PROT = true →
      let clear := s.inUrange (a / 4096)
      let st := s.rd (SEC_SLOT_STATE key)
      (8 * s.chanData ≤ a → s.xmJudge src key a wr = .refuse 4 0) ∧
      (a < 8 * s.chanData →
        (76 ≤ src → key ≠ 0 ∨ clear = false → s.xmJudge src key a wr = .refuse 6 3) ∧
        (key = 0 → clear = true → s.xmJudge src key a wr = .serve 0) ∧
        (src < 76 → key = 0 → clear = false → s.xmJudge src key a wr = .refuse 6 4) ∧
        (src < 76 → key ≠ 0 → clear = true → s.xmJudge src key a wr = .refuse 6 1) ∧
        (src < 76 → key ≠ 0 → clear = false →
          (st = 0 ∨ st = 4 ∨ s.flag (SEC_SLOT_MEM key) = false → s.xmJudge src key a wr = .refuse 6 2) ∧
          (st ≠ 0 → st ≠ 4 → s.flag (SEC_SLOT_MEM key) = true → s.xmc.walk = none →
            (s.inKrange key (a / 4096) = false → s.xmJudge src key a wr = .refuse 6 1) ∧
            (s.inKrange key (a / 4096) = true → wr = true → st = 2 → s.xmJudge src key a wr = .refuse 0xA 0) ∧
            (s.inKrange key (a / 4096) = true → wr = false ∨ st ≠ 2 → s.xmJudge src key a wr = .serve key))))) ∧
    (∀ (j : Fin 8) (i : Fin 80) (p : Packet), i.val = 64 + j.val → (s.ni i).drain = false → s.canReply i p.src = true →
      s.flag XMC_CTRL_MODEBUSY = false → s.rd (XMC_CHSTAT_STATE j) = 2 → p.addr < 2 ^ 36 → p.addr % 16 = 0 →
      (s.chanOf (p.addr / 64 * 64)).1 = j.val → s.oldestRequest i p.opc = some p →
      let la := p.addr / 64
      let w := p.addr / 16 % 4
      (p.opc = 0x01 →
        (∀ st reason, s.xmJudge p.src p.key (la * 64) false = .refuse st reason → reason ≠ 0 → s.flag SEC_CFG_ALARMBLK = false →
          Gives (.read1 (.serve i {})) s fun t => s.Replied t i p st [] ∧ t.xmc = s.xmc ∧ t.rd XMC_STATUS_BLOCK = 1 ∧
            t.rd XMC_CNT_SEC_BLOCK = satAdd XMC_CNT_SEC_BLOCK.width (s.rd XMC_CNT_SEC_BLOCK) 1) ∧
        (∀ slot, s.xmJudge p.src p.key (la * 64) false = .serve slot → slot ≠ 0 → s.xmSealed la = false → s.xmMajor la = 0 → (s.xmLine la).minor = 0 →
          Gives (.read1 (.serve i {})) s fun t => s.Replied t i p 0 [0#128] ∧ t.xmc.lines = s.xmc.lines ∧ t.xmc.majors = s.xmc.majors) ∧
        (∀ l : XmLine, s.xmJudge p.src p.key (la * 64) false = .serve 0 → s.xmc.lines.find? (fun x => x.1 == la) = some (la, l) → l.key = 0 →
          l.psn = 0 → Gives (.read1 (.serve i {})) s fun t => s.Replied t i p 0 [lineWord l.data w] ∧ t.xmc.lines = s.xmc.lines)) ∧
      (p.opc = 0x05 → p.be = 0xFFFF → bitOf p.psn 0 = false →
        ∀ slot, s.xmJudge p.src p.key (la * 64) true = .serve slot → slot ≠ 0 → s.xmSealed la = false → s.xmMajor la = 0 → (s.xmLine la).minor = 0 →
          Gives (.write1 (.serve i {})) s fun t => s.Replied t i p 0 [] ∧ (∀ k, k ≠ la → t.xmLine k = s.xmLine k) ∧
            t.xmLine la = { data := setLineWord 0#512 w (p.data.getD 0 0#128), key := s.keyNo slot, minor := 1 })) ∧
    (∀ c : Fin 8, (s.rd (XMC_CHSTAT_STATE c) ≠ 2 → exec (.channelDown c) s = .next s) ∧
      (s.rd (XMC_CHSTAT_STATE c) = 2 → Gives (.channelDown c) s fun t => t.rd (XMC_CHSTAT_STATE c) = 0 ∧ t.chip.degraded = true ∧
        t.xmc = s.xmc ∧ ∀ d : Fin 8, d ≠ c → t.rd (XMC_CHSTAT_STATE d) = s.rd (XMC_CHSTAT_STATE d))) ∧
    (∀ (acc : Accessor) (v : Word),
      let old := bitsOf v.toNat 5 0
      let new := bitsOf v.toNat 11 6
      let so := s.rd (SEC_SLOT_STATE old)
      let ok : Prop := (so = 1 ∨ so = 2) ∧ s.flag (SEC_SLOT_MEM old) = true ∧ s.flag (XMC_KRANGE_LO_VALID old) = true ∧
        s.flag (SEC_SLOT_LINK old) = false ∧ s.rd (SEC_SLOT_STATE new) = 1 ∧ s.flag (SEC_SLOT_MEM new) = true ∧
        s.flag (XMC_KRANGE_LO_VALID new) = false ∧ s.xmc.walk = none ∧ s.flag XMC_CTRL_MODE = true
      (bitOf v.toNat 31 = false → exec (.xmcRetire acc v) s = .next s ∧ exec (.secKgen acc v) s = .next s) ∧
      (bitOf v.toNat 31 = true → ¬ok → exec (.xmcRetire acc v) s = .next (s.raise XMC_STATUS_RETREF)) ∧
      (bitOf v.toNat 31 = true → ok → Gives (.xmcRetire acc v) s fun t => t.rd (SEC_SLOT_STATE old) = 3 ∧ t.rd XMC_STATUS_WALK = 1 ∧
        t.rd XMC_WALK_PAGES = 0 ∧ t.xmc.lines = s.xmc.lines ∧
        t.xmc.walk = some { old := old, new := new, base := s.rd (XMC_KRANGE_LO_PAGE old), limit := s.rd (XMC_KRANGE_HI_PAGE old) }) ∧
      (let st := s.rd (SEC_SLOT_STATE old)
       (bitOf v.toNat 31 = true → old = 0 ∨ bitOf v.toNat 9 = true ∨ (st ≠ 0 ∧ st ≠ 4) →
         exec (.secKgen acc v) s = .next (s.raise SEC_STATUS_REFUSED)) ∧
       (bitOf v.toNat 31 = true → old ≠ 0 → bitOf v.toNat 9 = false → st = 0 ∨ st = 4 → Gives (.secKgen acc v) s fun t =>
         t.rd (SEC_SLOT_STATE old) = 1 ∧ t.rd (SEC_SLOT_MEM old) = b2n (bitOf v.toNat 8) ∧ t.rd (SEC_SLOT_LINK old) = 0 ∧
         t.rd (SEC_SLOT_GEN old) = 1 ∧ t.keyNo old = s.xmc.nextKey ∧ t.xmc.nextKey = s.xmc.nextKey + 1 ∧
         ∀ k, k ≠ old → t.keyNo k = s.keyNo k)) ∧
      (let m := bitOf v.toNat 31
       (s.chip.state = .load → exec (.xmcModeWrite acc v) s = .next { s with xmc := { s.xmc with modeWait := some m } }) ∧
       (s.chip.state ≠ .load → m = s.flag XMC_CTRL_MODE → Gives (.xmcModeWrite acc v) s fun t => t.xmc.modeWait = none ∧
         t.rd XMC_CTRL_MODEBUSY = 0 ∧ t.flag XMC_CTRL_MODE = m) ∧
       (s.chip.state ≠ .load → m ≠ s.flag XMC_CTRL_MODE → s.xmc.walk.isSome = true →
         exec (.xmcModeWrite acc v) s = .next (s.raise XMC_STATUS_RETREF)) ∧
       (s.chip.state ≠ .load → m ≠ s.flag XMC_CTRL_MODE → s.xmc.walk = none → Gives (.xmcModeWrite acc v) s fun t =>
         t.xmc.modeWait = some m ∧ t.rd XMC_CTRL_MODEBUSY = 1 ∧ t.flag XMC_CTRL_MODE = s.flag XMC_CTRL_MODE))) ∧
    (s.xmc.modeWait = none ∨ s.chip.state = .load ∨ s.flag XMC_CTRL_MODEBUSY = false → exec .modeChange s = .next s) ∧
    (∀ m, s.xmc.modeWait = some m → s.chip.state ≠ .load → s.flag XMC_CTRL_MODEBUSY = true →
      (s.xmc.walk = none → Gives .modeChange s fun t => t.rd XMC_CTRL_MODE = b2n m ∧ t.rd XMC_CTRL_MODEBUSY = 0 ∧ t.xmc.modeWait = none) ∧
      (s.xmc.walk.isSome = true → Gives .modeChange s fun t => t.rd XMC_CTRL_MODE = s.rd XMC_CTRL_MODE ∧ t.rd XMC_CTRL_MODEBUSY = 0 ∧
        t.rd XMC_STATUS_RETREF = 1)) ∧
    (s.xmc.walk = none → exec .retireFlushDone s = .next s ∧ ∀ f, exec (.retireWalkPage f) s = .next s) ∧
    (∀ w : XmWalk, s.xmc.walk = some w → w.old < 64 → w.new < 64 → w.old ≠ w.new → w.base + w.done < w.limit →
      (w.flushed = true → exec .retireFlushDone s = .next s) ∧
      (w.flushed = false → (∀ f, exec (.retireWalkPage f) s = .next s) ∧ Gives .retireFlushDone s fun t =>
        t.xmc.walk = some { w with flushed := true } ∧ t.xmc.cached = [] ∧ t.xmc.lines = s.xmc.lines ∧
          ∀ c : Fin 8, t.rd (XMC_CHSTAT_CACHED c) = 0) ∧
      (w.flushed = true → s.xmSealed ((w.base + w.done) * 64) = false →
        let la := fun i => (w.base + w.done) * 64 + i
        let written := fun i => decide (¬(s.xmMajor (la i) = 0 ∧ (s.xmLine (la i)).minor = 0))
        let walked := fun (t : State) => t.xmc.majors.get 0 (w.base + w.done) = 0 ∧
          (∀ k, k / 64 ≠ w.base + w.done → t.xmLine k = s.xmLine k)
        ((∀ i < 64, written i = true → (s.xmLine (la i)).mark ≠ 0 ∨ (s.xmLine (la i)).key = s.keyNo w.old) →
          Gives (.retireWalkPage {}) s fun t => walked t ∧ t.rd SEC_STATUS_ALARM = s.rd SEC_STATUS_ALARM ∧
            (∀ i < 64, t.xmLine (la i) = if written i then { s.xmLine (la i) with key := s.keyNo w.new, minor := 1 } else s.xmLine (la i)) ∧
            (w.base + w.done + 1 < w.limit → t.xmc.walk = some { w with done := w.done + 1 }) ∧
            (w.base + w.done + 1 = w.limit → t.xmc.walk = none ∧ t.rd (SEC_SLOT_STATE w.old) = 4 ∧ t.rd XMC_STATUS_WALK = 0 ∧
              t.rd (XMC_KRANGE_LO_VALID w.old) = 0 ∧ t.rd (XMC_KRANGE_LO_VALID w.new) = 1 ∧ t.keyNo w.old = 0 ∧
              t.rd (XMC_KRANGE_HI_PAGE w.new) = w.limit % 2 ^ (XMC_KRANGE_HI_PAGE w.new).width)) ∧
        (∀ i : Fin 64, s.flag SEC_CFG_POL = false → written i = true → (s.xmLine (la i)).mark = 0 → Gives (.retireWalkPage ⟨i, .tag⟩) s fun t =>
          walked t ∧ (t.xmLine (la i)).mark = 2 ∧ t.rd SEC_STATUS_ALARM = 1 ∧ t.rd XMC_STATUS_TAGFAIL = 1)))

/-- O57 (R525, R526, R527, R528, R529, R533, R534, R535, R537, R538, R540, R601). A visit of the steep moves the walk
on by one context, then one frame, and counts a pass; a corrected row counts up and is remapped at 8; an uncorrectable
frame is queued for re-fetch and fences the region when its context is active, also when a cell finds it. A frame that
arrives whole is written, a bad group leaves the region FENCED, or the context unloaded. SCR_RELEASE frees a held
region. A QUIET window enters TEST, makes the transfer that waits, and ends in ACTIVE. A tested column's copy ends
READY, or the spare goes in for good. A unit asked for is tested next and its stand-in requested; an overdue unit sets
TOURLATE; a test that ends counts, returns its unit or leaves the spare in for good. A measurement keeps the last 16,
raises MARGIN at its threshold and refreshes the projection. Hours count. A check period starts the checks; a failed
one takes its unit out. -/
def Obligations.TheSteepTheRollingTestAndAgeing : Prop :=
  ∀ (s : State) (n : Fin 64),
    let r := s.region n
    let c := s.scrRgn n
    let ctx := s.rd (SCR_RSTAT_CTX n)
    let fr := s.rd (SCR_RSTAT_FRAME n)
    let moved := fun t : State => t.rd (SCR_RSTAT_CTX n) = (if ctx < 7 then ctx + 1 else 0) ∧
      t.rd (SCR_RSTAT_FRAME n) = (if ctx < 7 then fr else if fr < 4607 then fr + 1 else 0)
    let seen := r.state = .active ∧ bitOf r.ctx.loaded ctx = true ∧ bitOf r.ctx.loading ctx = false ∧
      s.bist.runs.contains ⟨unitRegion n, 1⟩ = false
    let up := fun (t : State) (f : Fld) => t.rd f = satAdd f.width (s.rd f) 1
    (∀ x, s.stackOn = false ∨ s.flag SCR_CTRL_STEEP = false ∨ s.rd (SCR_RTEST_STATE n) = 1 → exec (.steepVisit n x) s = .next s) ∧
    (s.stackOn = true → s.flag SCR_CTRL_STEEP = true → s.rd (SCR_RTEST_STATE n) ≠ 1 → ctx < 8 → fr < 4608 →
      (c.prio = [] → Gives (.steepVisit n .clean) s fun t => moved t ∧ t.regions = s.regions ∧ t.log = s.log ∧
        (ctx = 7 → fr = 4607 → t.rd SCR_STEEPS_COUNT = (s.rd SCR_STEEPS_COUNT + 1) % 2 ^ SCR_STEEPS_COUNT.width)) ∧
      (∀ x p, c.prio = p :: x → Gives (.steepVisit n .clean) s fun t => (t.scrRgn n).prio = x ∧ t.regs = s.regs ∧ t.regions = s.regions) ∧
      (∀ x : SteepFind, c.prio = [] → r.state = .dark → Gives (.steepVisit n x) s fun t => moved t ∧ t.regions = s.regions ∧ t.log = s.log ∧
        (t.scrRgn n).rows = c.rows) ∧
      (∀ k : Fin 33, c.prio = [] → seen → k.val ≠ 0 →
        ((s.cfgRow n ctx fr).count < 7 → Gives (.steepVisit n (.corrected k)) s fun t => moved t ∧ t.regions = s.regions ∧
          t.cfgRow n ctx fr = { s.cfgRow n ctx fr with count := (s.cfgRow n ctx fr).count + 1 } ∧
          t.rd SCR_CNT_CE_COUNT = (s.rd SCR_CNT_CE_COUNT + k.val) % 2 ^ SCR_CNT_CE_COUNT.width) ∧
        (∀ j, (s.cfgRow n ctx fr).count = 7 → s.freeRow n = some j → Gives (.steepVisit n (.corrected k)) s fun t => moved t ∧
          t.cfgRow n ctx fr = { spare := j + 1 } ∧ (t.scrRgn n).taken = j :: c.taken ∧ t.regions = s.regions)) ∧
      (∀ crc : Bool, c.prio = [] → seen → s.scrub.refetch = [] → Gives (.steepVisit n (.uncorrectable crc)) s fun t =>
        (∃ x, t.scrub.refetch = [x] ∧ x.region = n.val ∧ x.ctx = ctx ∧ x.frame = fr ∧ x.crcOnly = crc) ∧ (t.cfgRow n ctx fr).ue = true ∧
        (r.ctx.active ≠ ctx → up t SCR_CNT_UE_INACTIVE ∧ t.regions = s.regions) ∧
        (r.ctx.active = ctx → up t SCR_CNT_UE_ACTIVE ∧ (t.region n).state = .fenced ∧ (t.region n).cause = 0x20))) ∧
    (∀ (f : Fin 4704) (w : Fin 32), (r.state ≠ .active → r.state ≠ .test → exec (.configWordUeAtUse n f w) s = .next s) ∧
      (r.state = .active → r.heldUE = false → s.scrub.refetch = [] → Gives (.configWordUeAtUse n f w) s fun t => (t.region n).state = .fenced ∧
        (t.region n).cause = 0x20 ∧ up t SCR_CNT_UE_ACTIVE ∧ (t.region n).heldUE = s.flag SCR_CTRL_UEHOLD ∧
        ∃ x, t.scrub.refetch = [x] ∧ x.region = n.val ∧ x.ctx = r.ctx.active ∧ x.frame = f.val ∧ x.active = true)) ∧
    (∀ (ws : List Line) (ok clean : Bool),
      (s.scrub.refetch = [] ∨ s.kettleRuns = false → exec (.frameRefetchDone ws ok clean) s = .next s) ∧
      (∀ x : Refetch, s.scrub.refetch = [x] → x.region = n.val → s.kettleRuns = true →
        (ok = true → clean = true → x.marked = false → s.liftConflict n x.ctx x.frame ws = false → Gives (.frameRefetchDone ws ok clean) s fun t =>
          t.scrub.refetch = [] ∧ t.rd SCR_STATUS_REFETCH = 1 ∧ (t.region n).state = r.state ∧ (t.region n).ctx = r.ctx ∧
          (∀ i < 32, (t.region n).fab.cfg.get 0#128 (rowKey x.ctx x.frame * 32 + i) = ws.getD i 0#128) ∧
          ∀ k, k / 32 ≠ rowKey x.ctx x.frame → (t.region n).fab.cfg.get 0#128 k = r.fab.cfg.get 0#128 k) ∧
        (ok = false → x.active = true → Gives (.frameRefetchDone ws ok clean) s fun t => t.scrub.refetch = [] ∧ (t.region n).stuck = true ∧
          t.chip.degraded = true ∧ (t.region n).fab = r.fab) ∧
        (ok = false → x.active = false → Gives (.frameRefetchDone ws ok clean) s fun t => t.scrub.refetch = [] ∧ (t.region n).fab = r.fab ∧
          (t.region n).ctx.loaded = clearBit r.ctx.loaded x.ctx ∧ (t.region n).state = r.state))) ∧
    (∀ (acc : Accessor) (v : Word),
      (bitOf v.toNat 31 = false → exec (.scrRelease acc v) s = .next s ∧ exec (.scrTest acc v) s = .next s) ∧
      (v.toNat % 64 = n.val → bitOf v.toNat 31 = true → r.heldUE = false ∨ r.state ≠ .fenced → exec (.scrRelease acc v) s = .next s) ∧
      (v.toNat % 64 = n.val → bitOf v.toNat 31 = true → r.heldUE = true → r.state = .fenced → c.restartAfter = true →
        Gives (.scrRelease acc v) s fun t => (t.region n).heldUE = false ∧ (t.region n).state = .fenced) ∧
      (bitOf v.toNat 31 = true → v.toNat % 2 ^ 24 = unitId n 2 5 → exec (.scrTest acc v) s = .next { s with
        scrub := { s.scrub with asked := s.scrub.asked ++ [unitId n 2 5] } }) ∧
      (bitOf v.toNat 31 = true → v.toNat % 2 ^ 24 = unitId n 2 30 → Gives (.scrTest acc v) s fun t => t.scrub = s.scrub ∧
        t.rd BST_RES_HEAD = (s.rd BST_RES_HEAD + 1) % 2 ^ BST_RES_HEAD.width ∧ t.bist.runs = s.bist.runs)) ∧
    (∀ (k : Fin 5) (sc : Fin 64), s.chip.state ≠ .run ∨ s.kindBusy k sc = true → exec (.tourTestStart k sc) s = .next s) ∧
    (∀ (e : Fin 24), s.chip.state = .run → s.kindBusy 1 n = false → s.scrub.asked = [unitId n 2 e] → r.state = .active →
      (s.engAt n e).state ≠ .retired → (s.engAt n e).failed = false →
      (s.spareUse n = 0 → Gives (.tourTestStart 1 n) s fun t => t.scrub.asked = [] ∧ n.val * 32 + e.val ∈ t.plc.asks ∧
        t.bist.runs = s.bist.runs ++ [⟨unitId n 2 e, 2⟩] ∧ t.regions = s.regions) ∧
      (s.spareUse n ≠ 0 → Gives (.tourTestStart 1 n) s fun t => t.scrub.asked = [] ∧ t.plc = s.plc ∧ t.bist.runs = s.bist.runs ∧
        t.regions = s.regions)) ∧
    (s.chip.state ≠ .run ∨ s.flag SCR_CTRL_TOUR = false ∨ s.overdue n = 0 → exec (.tourlateCheck n) s = .next s) ∧
    (s.chip.state = .run → s.flag SCR_CTRL_TOUR = true → s.overdue n ≠ 0 → Gives (.tourlateCheck n) s fun t =>
      t.rd SCR_STATUS_TOURLATE = 1 ∧ t.scrub = s.scrub ∧ t.regions = s.regions) ∧
    (s.rd (SCR_RTEST_STATE n) ≠ 1 → exec (.columnCopyDone n) s = .next s) ∧
    (s.rd (SCR_RTEST_STATE n) = 1 →
      (c.restartAfter = false → exec (.columnCopyDone n) s = .next (s.wr (SCR_RTEST_STATE n) 2)) ∧
      (c.restartAfter = true → Gives (.columnCopyDone n) s fun t => t.rd (SCR_RTEST_STATE n) = 0 ∧ t.rd (SCR_RTEST_SPUSE n) = 2 ∧
        t.rd (SCR_RTEST_SPCOL n) = s.rd (SCR_RTEST_COLUMN n) % 2 ^ (SCR_RTEST_SPCOL n).width ∧ (t.scrRgn n).restartAfter = false)) ∧
    (∀ a : TestEnd, s.bist.runs.contains ⟨a.unit.toNat, testCode a.unit.toNat⟩ = false → exec (.bistTestEnd a) s = .next s) ∧
    (∀ (a : TestEnd) (e : Fin 24), a.unit.toNat = unitId n 2 e → s.bist.runs = [⟨unitId n 2 e, 2⟩] → (s.engAt n e).state = .test →
      s.itemOn n e = none → s.spareUse n = 1 → s.plc.spareFor.get 0 n = e.val →
      (a.pass = true → Gives (.bistTestEnd a) s fun t => t.bist.runs = [] ∧ n.val * 32 + e.val ∈ t.plc.returns ∧ t.spareUse n = 1 ∧
        t.rd BST_CNT_PASS = (s.rd BST_CNT_PASS + 1) % 2 ^ BST_CNT_PASS.width ∧ (t.engAt n e).mem = []) ∧
      (a.pass = false → Gives (.bistTestEnd a) s fun t => t.bist.runs = [] ∧ t.spareUse n = 2 ∧ (t.engAt n e).state = .retired ∧
        up t BST_CNT_FAIL ∧ t.rd BST_STATUS_FAIL = 1)) ∧
    (∀ ages, s.kettleRuns = false ∨ s.flag SCR_CTRL_AGEING = false ∨ r.state = .dark → exec (.ageMeasure n ages) s = .next s) ∧
    (∀ (m : Fin 74) (b : Byte), s.kettleRuns = true → s.flag SCR_CTRL_AGEING = true → r.state = .active → s.rd (SCR_RAGE_MARGIN n) < 3 →
      Gives (.ageMeasure n [(m, b)]) s fun t => (t.scrRgn n).ages.get [] m = (b.toNat :: c.ages.get [] m).take 16 ∧
        (∀ k, k ≠ m.val → (t.scrRgn n).ages.get [] k = c.ages.get [] k) ∧
        t.rd (SCR_RAGE_MARGIN n) = s.rd (SCR_RAGE_MARGIN n) + (if (s.rd (SCR_RAGE_MARGIN n) = 0 ∧ s.rd SCR_AGECFG_THR1 ≤ t.rd (SCR_RAGE_AGE n)) ∨
          (s.rd (SCR_RAGE_MARGIN n) = 1 ∧ s.rd SCR_AGECFG_THR2 ≤ t.rd (SCR_RAGE_AGE n)) then 1 else 0) ∧
        (s.rd SCR_HOURS_HOURS = 0 ∨ t.rd (SCR_RAGE_AGE n) = 0 → t.rd (SCR_RPROJ_HOURS n) = 0xFFFFFFFF) ∧
        (s.rd SCR_HOURS_HOURS ≠ 0 → t.rd (SCR_RAGE_AGE n) ≠ 0 → t.rd (SCR_RAGE_AGE n) ≤ s.rd SCR_AGECFG_THRFAIL →
          t.rd (SCR_RPROJ_HOURS n) = min 0xFFFFFFFF (s.rd SCR_HOURS_HOURS *
            (s.rd SCR_AGECFG_THRFAIL ^ 5 - t.rd (SCR_RAGE_AGE n) ^ 5) / t.rd (SCR_RAGE_AGE n) ^ 5))) ∧
    (s.stackOn = false ∨ s.rd SCR_HOURS_HOURS = 0 → exec .hoursTick s = .next s) ∧
    (s.stackOn = true → s.rd SCR_HOURS_HOURS ≠ 0 → exec .hoursTick s = .next (s.count SCR_HOURS_HOURS)) ∧
    (s.evt.inflight = [] → exec (.quiet n) s = .next s) ∧
    (∀ a : Action, s.evt.inflight = [a] → a.code = 8 → a.target % 64 = n.val →
      (r.state ≠ .active → exec (.quiet n) s = .next { s with evt := { s.evt with inflight := [] } }) ∧
      (r.state = .active → c.bonds = [] → s.columnBusy n (s.rd (SCR_RTEST_COLUMN n)) = false → Gives (.quiet n) s fun t =>
        (t.region n).state = .test ∧ (t.scrRgn n).window = true ∧ t.evt.inflight = [] ∧
        (s.rd (SCR_RTEST_STATE n) = 2 → c.copyWhy ≠ 3 → t.rd (SCR_RTEST_STATE n) = 3 ∧ t.rd (SCR_RTEST_SPUSE n) = 1) ∧
        (s.rd (SCR_RTEST_STATE n) = 2 → c.copyWhy = 3 → t.rd (SCR_RTEST_STATE n) = 0 ∧ t.rd (SCR_RTEST_SPUSE n) = 2))) ∧
    (c.window = false ∨ r.state ≠ .test → exec (.quietWindowEnd n) s = .next s) ∧
    (c.window = true → r.state = .test → s.kettle.downWait = [] → Gives (.quietWindowEnd n) s fun t => (t.region n).state = .active ∧
      (t.scrRgn n).window = false ∧ (t.ni n).held = [] ∧ (t.ni n).inbox = (s.ni n).held ++ (s.ni n).inbox) ∧
    (s.flag BST_CTRL_ACHK = false ∨ (s.stackOn = false ∧ s.chip.state ≠ .halt) → exec .analogCheckPeriod s = .next s) ∧
    (s.flag BST_CTRL_ACHK = true → s.chip.state = .halt → Gives .analogCheckPeriod s fun t => t.regs = s.regs ∧ t.therm = s.therm ∧
      ∀ x : Fin 416, 384 ≤ x.val → x.val < 392 → s.therm.broken.contains x.val = false → ⟨unitId 0 9 x, 6⟩ ∈ t.bist.runs) ∧
    (s.flag BST_CTRL_ACHK = true → s.stackOn = true → s.kettle.shed = [] → Gives .analogCheckPeriod s fun t => t.regs = s.regs ∧
      (∀ x : Fin 416, s.therm.broken.contains x.val = false → ⟨unitId 0 9 x, 6⟩ ∈ t.bist.runs) ∧
      (∀ k : Fin 3, ⟨srcUnit k, 7⟩ ∈ t.bist.runs) ∧ ∀ i : Fin 8, ⟨srcUnit (8 + i.val), 8⟩ ∈ t.bist.runs) ∧
    (∀ a : CheckEnd, (s.bist.runs.contains (checkRun a.what) = false → exec (.analogCheckEnd a) s = .next s) ∧
      (s.bist.runs = [checkRun a.what] →
        (∀ k, a.pass = true → a.what = .osc k → Gives (.analogCheckEnd a) s fun t => t.bist.runs = [] ∧
          t.rd BST_CNT_PASS = (s.rd BST_CNT_PASS + 1) % 2 ^ BST_CNT_PASS.width ∧ t.clk = s.clk) ∧
        (∀ m k, a.pass = false → a.what = .monitor m k → Gives (.analogCheckEnd a) s fun t => t.bist.runs = [] ∧ up t BST_CNT_FAIL ∧
          t.rd BST_STATUS_ACHKFAIL = 1 ∧ t.bist.comps = s.bist.comps ++ [m.val * 2 + k.val]) ∧
        (∀ x, a.pass = false → a.what = .sensor x → Gives (.analogCheckEnd a) s fun t => t.bist.runs = [] ∧ up t BST_CNT_FAIL ∧
          x.val ∈ t.therm.broken)))

/-- O58 (R546, R549, R550, R551, R552, R554, R555, R557, R558, R559, R560). A window of a source that is judged is
kept; a source with eight stable windows within the limit, a PLL also with lock, becomes ready, and no other window
changes anything else; windows of failed sources, of judges not used and of stopped clocks do nothing. A ready source
loses ready when two windows in a row leave the mean of the eight before them, without an edge, without lock, or at
the end of a holdover; with two oscillators in disagreement the umpire decides. Its READY bit clears, the others stay,
its windows are forgotten, a fabric PLL or FIO0 is failed; every domain it served goes to the ready position after it
and sets FAILOVER, the others stay; FA or FB without one takes the chip to SAFE. A crystal that is lost puts the PLLs
that run from it into holdover, which ends at ALTREF or by loss. A PLL that NINT starts locks. A write of CLK_DOMd
switches to a ready position and is refused for any other. A gate is requested, ends outstanding bank and network
accesses GATED and counts them, closes idle, opens again. That any ready or unready judge of the list may judge while
none is ready is the model's reading (log entry 46). -/
def Obligations.ClocksJudgedLostSwitchedAndGated : Prop :=
  ∀ (s : State) (k : Fin 16),
    let i := pllAt k
    let bit := fun (t : State) (j : Nat) => bitOf (t.rd CLK_READY_READY) j
    let old := s.clk.wins.get [] k
    let judged := isSource k = true ∧ s.clocksRun = true ∧ k.val ∉ s.clk.failed ∧ s.chip.state ≠ .por ∧ s.chip.state ≠ .start
    let serves := fun d : Nat => s.domTaken d = true ∧ s.domIn d = .src k
    let lost := fun t : State => bit t k = false ∧ (∀ j < 16, j ≠ k.val → bit t j = bit s j) ∧ t.clk.wins.get [] k = [] ∧
      (failsForGood k = true → k.val ∈ t.clk.failed) ∧
      (∀ d < 9, serves d → s.rd (CLK_DOM_ACT d) = 0 → (domList d).length = 2 → s.inReady ((domList d).getD 1 (.src 0)) = true →
        t.rd (CLK_DOM_ACT d) = 1 ∧ t.rd CLK_STATUS_FAILOVER = 1) ∧
      (∀ d < 9, ¬serves d → t.rd (CLK_DOM_ACT d) = s.rd (CLK_DOM_ACT d)) ∧
      (∀ d < 2, serves d → (s.rd (CLK_DOM_ACT d) = 1 ∨ s.srcReady 10 = false) → s.chip.state = .run → t.chip.state = .safe) ∧
      (k.val = 3 ∨ k.val = 4 → ∀ p : Fin 8, s.refOf (8 + p.val) = k.val → s.flag (CLK_PLL_CFG_LOCK p) = true → s.flag (CLK_PLL_CFG_HOLD p) = false →
        t.rd (CLK_PLL_CFG_HOLD p) = 1 ∧ t.rd CLK_STATUS_HOLDOVER = 1)
    (∀ (j : Fin 16) (r : Word), (isSource k = false ∨ s.clocksRun = false ∨ k.val ∈ s.clk.failed → exec (.sourceWindow k j r) s = .next s) ∧
      (judged → k.val ∉ s.clk.disagree →
        (s.judgeNow k j = false → exec (.sourceWindow k j r) s = .next s) ∧
        (s.judgeNow k j = true →
          let l := (r.toNat :: old).take 10
          let keep := s.modClk fun c => { c with wins := c.wins.set k l }
          let good := (l.take 8).length = 8 ∧ stable s.clkTol (l.take 8) = true ∧ inLimit k j (l.take 8) = true ∧
            (k.val < 8 ∨ (s.flag (CLK_PLL_CFG_LOCK i) = true ∧ s.chip.state ≠ .load))
          let off := ((l.drop 2).take 8).length = 8 ∧ ∀ x ∈ l.take 2, nearMean s.clkTol ((l.drop 2).take 8) x = false
          (s.srcReady k = false → good → Gives (.sourceWindow k j r) s fun t => bit t k = true ∧ (∀ x < 16, x ≠ k.val → bit t x = bit s x) ∧
            t.clk.wins.get [] k = l) ∧
          (s.srcReady k = false → ¬good → exec (.sourceWindow k j r) s = .next keep) ∧
          (s.srcReady k = true → ¬off → exec (.sourceWindow k j r) s = .next keep) ∧
          (s.srcReady k = true → off → k.val + j.val ≠ 1 ∨ s.srcReady j = false → Gives (.sourceWindow k j r) s lost) ∧
          (s.srcReady k = true → off → k.val + j.val = 1 → s.srcReady j = true →
            exec (.sourceWindow k j r) s = .next (keep.modClk fun c => { c with disagree := [0, 1] })))) ∧
      (judged → k.val ∈ s.clk.disagree → s.srcReady k = true →
        (j.val ≠ s.umpire → exec (.sourceWindow k j r) s = .next s) ∧
        (j.val = s.umpire → ((old.drop 2).take 8).length = 8 → nearMean s.clkTol ((old.drop 2).take 8) r.toNat = false →
          Gives (.sourceWindow k j r) s lost)) ∧
      (s.clocksRun = true → s.judgeNow k j = true → s.srcReady k = true → Gives (.sourceNoEdge k j) s lost) ∧
      (s.clocksRun = false ∨ s.judgeNow k j = false ∨ s.srcReady k = false → exec (.sourceNoEdge k j) s = .next s)) ∧
    (8 ≤ k.val → s.rd (CLK_PLL_CFG_NINT i) ≠ 0 → k.val ∉ s.clk.failed → s.clocksRun = true → s.chip.state ≠ .por →
      exec (.pllLock k) s = .next (s.raise (CLK_PLL_CFG_LOCK i))) ∧
    (k.val < 8 ∨ s.rd (CLK_PLL_CFG_NINT i) = 0 ∨ k.val ∈ s.clk.failed ∨ s.clocksRun = false ∨ s.chip.state = .por →
      exec (.pllLock k) s = .next s) ∧
    (k.val < 8 ∨ s.flag (CLK_PLL_CFG_LOCK i) = false → exec (.pllLockLoss k) s = .next s) ∧
    (8 ≤ k.val → s.flag (CLK_PLL_CFG_LOCK i) = true → s.srcReady k = true → Gives (.pllLockLoss k) s fun t => lost t ∧
      t.rd (CLK_PLL_CFG_LOCK i) = 0 ∧ t.rd (CLK_PLL_CFG_HOLD i) = 0) ∧
    (k.val < 8 ∨ s.flag (CLK_PLL_CFG_HOLD i) = false → exec (.altrefMove k) s = .next s ∧ exec (.holdoverEnd k) s = .next s) ∧
    (8 ≤ k.val → s.flag (CLK_PLL_CFG_HOLD i) = true →
      (∀ a, s.rd (CLK_PLL_CFG_ALTREF i) = a → a = 0 ∨ 2 < a ∨ s.srcReady (2 + a) = false → exec (.altrefMove k) s = .next s) ∧
      (∀ a, s.rd (CLK_PLL_CFG_ALTREF i) = a → a = 1 ∨ a = 2 → s.srcReady (2 + a) = true → k.val ∉ s.clk.onAlt → Gives (.altrefMove k) s fun t =>
        t.rd (CLK_PLL_CFG_HOLD i) = 0 ∧ t.clk = { s.clk with onAlt := s.clk.onAlt ++ [k.val] } ∧ t.refOf k = 2 + a ∧
        t.rd CLK_READY_READY = s.rd CLK_READY_READY) ∧
      (s.srcReady k = true → Gives (.holdoverEnd k) s fun t => lost t ∧ t.rd (CLK_PLL_CFG_HOLD i) = 0)) ∧
    (∀ (acc : Accessor) (d : Fin 9) (v : Word),
      let p := v.toNat % 2
      let act := s.rd (CLK_DOM_ACT d)
      let there := p < (domList d).length ∧ s.inReady ((domList d).getD p (.src 0)) = true
      (p = act → exec (.domainSelect acc d v) s = .next (({ s with rsp := ⟨0, 0⟩ } : State).wr (CLK_DOM_SEL d) p)) ∧
      (p ≠ act → there → Gives (.domainSelect acc d v) s fun t => t.rsp = ⟨0, 0⟩ ∧ t.rd (CLK_DOM_SEL d) = p ∧ t.rd (CLK_DOM_ACT d) = p ∧
        t.rd CLK_STATUS_FAILOVER = s.rd CLK_STATUS_FAILOVER ∧ t.clk = s.clk) ∧
      (p ≠ act → ¬there → Gives (.domainSelect acc d v) s fun t => t.rsp = ⟨0, 0⟩ ∧ t.rd (CLK_DOM_SEL d) = s.rd (CLK_DOM_SEL d) ∧
        t.rd (CLK_DOM_ACT d) = act ∧ t.rd CLK_STATUS_REFUSED = 1 ∧ t.clk = s.clk)) ∧
    (∀ u : BitVec 24,
      let g := s.gateOf u.toNat
      let put := fun (x : Nat) (t : State) => t.gateOf u.toNat = x ∧ (∀ y, y ≠ u.toNat → t.gateOf y = s.gateOf y) ∧ t.regs = s.regs ∧ t.log = s.log
      let n := uRegion u.toNat
      (g = 0 → Gives (.gateCloseRequest u) s (put 1)) ∧ (g ≠ 0 → exec (.gateCloseRequest u) s = .next s) ∧
      (g = 1 → s.gateBusy u.toNat = false → Gives (.gateClosed u) s (put 2)) ∧
      (g ≠ 1 ∨ s.gateBusy u.toNat = true → exec (.gateClosed u) s = .next s) ∧
      (g = 2 → Gives (.gateReopen u) s (put 0)) ∧ (g ≠ 2 → exec (.gateReopen u) s = .next s) ∧
      (g ≠ 1 ∨ (uKind u.toNat ≠ 3 ∧ uKind u.toNat ≠ 4) → exec (.gateTimeout u) s = .next s) ∧
      (∀ b, n < 64 → g = 1 → uKind u.toNat = 3 → s.logicalBank n (uIndex u.toNat) = some b →
        let mine : WinReq → Bool := fun w => w.rsp.isNone && w.bank == b
        let cnt := ((s.region n).engs.map fun (e : Nat × Engine) => (e.2.outst.filter mine).length).sum +
          ((s.region n).mem.steals.get [] b ++ (s.region n).mem.netHeld.get [] b).length
        s.rd CLK_CNT_GATED_COUNT + cnt < 2 ^ 32 → Gives (.gateTimeout u) s fun t => t.rd CLK_CNT_GATED_COUNT = s.rd CLK_CNT_GATED_COUNT + cnt ∧
          (∀ e < 24, ∀ w ∈ ((t.region n).engs.get {} e).outst, mine w = false) ∧ (t.region n).mem.steals.get [] b = [] ∧
          (t.region n).mem.netHeld.get [] b = []) ∧
      (n < 64 → g = 1 → uKind u.toNat = 4 → s.rd CLK_CNT_GATED_COUNT + (s.ni n).held.length < 2 ^ 32 → Gives (.gateTimeout u) s fun t =>
        (t.ni n).held = [] ∧ t.rd CLK_CNT_GATED_COUNT = s.rd CLK_CNT_GATED_COUNT + (s.ni n).held.length))

/-- O59 (R10, R12, R608, R612, R615, R617, R618, R622, R648, R650, R656, R662). A FILLING slot whose fill times out
becomes READY with ABORT, length 0 and no payload, sets FILLTO and counts. A slot read answers by the slot's state and
takes a READY slot; a TAKEN one counts REPEAT up to 255. An acknowledge with GO frees a READY or TAKEN slot of the
same SEQ, any other sets BADACK and counts. CLR clears a check unit's alive counts, NEW, OVER and the message in
progress and keeps result and verdict; a read of RES_LO copies all four words. A service frame with a bad check value
or an unknown command counts CRCERR and is answered DECODE; a whole one counts and makes its access; a frame cut short
counts SHORT, a lost response LOSTRSP. Without DEBUG the test port is answered REFUSED. A write at a misaligned or
unassigned address is answered DECODE, in a DARK region UNAVAIL; RW fields take it, W1C fields clear by ones, RO
fields and, out of LOAD, fields of the image are kept and a change counts once in SYS_BADWR with its address. From
outside, writes want the windows on and one that permits them, else they are REFUSED and counted; in HALT only the SYS
block answers. That SYS_SVCERR.REFUSED counts for all three outside accessors is the model's reading. -/
def Obligations.MailboxChecksServiceAndRegisterAccesses : Prop :=
  ∀ s : State,
    (∀ k : Fin 4096,
      let x := s.slotAt k
      let others := fun t : State => ∀ j, j ≠ k.val → t.slotAt j = s.slotAt j
      (x.state = 1 → Gives (.mailboxFillTimeout k) s fun t => t.slotAt k = { x with state := 2, status := 8, length := 0, words := [], time := s.nowNs } ∧
        others t ∧ t.rd MBX_STATUS_FILLTO = 1 ∧ t.rd MBX_CNT2_FILLTO = satAdd MBX_CNT2_FILLTO.width (s.rd MBX_CNT2_FILLTO) 1 ∧
        ∀ o ∈ t.mbx.opens, o.slot ≠ some k.val) ∧
      (x.state ≠ 1 → exec (.mailboxFillTimeout k) s = .next s) ∧
      (∀ acc,
        (x.state = 0 → exec (.slotRead acc k) s = .next { s with rsp := ⟨0, 0⟩ }) ∧
        (x.state = 1 → exec (.slotRead acc k) s = .next { s with rsp := ⟨0, 1 + x.seq % 65536 * 2 ^ 16⟩ }) ∧
        (x.state = 2 → Gives (.slotRead acc k) s fun t => t.rsp = ⟨0, 2 + x.lost % 256 * 2 ^ 8 + x.seq % 65536 * 2 ^ 16⟩ ∧
          t.slotAt k = { x with state := 3 } ∧ others t ∧ t.regs = s.regs) ∧
        (x.state = 3 → Gives (.slotRead acc k) s fun t => t.rsp = ⟨0, 3 + x.lost % 256 * 2 ^ 8 + x.seq % 65536 * 2 ^ 16⟩ ∧
          t.slotAt k = { x with repeats := Nat.min 255 (x.repeats + 1) } ∧ others t ∧ t.regs = s.regs) ∧
        ∀ v : Word, (bitOf v.toNat 31 = false → exec (.mbxAck acc v) s = .next { s with rsp := ⟨0, 0⟩ }) ∧
          (bitOf v.toNat 31 = true → bitsOf v.toNat 11 0 = k.val →
            (2 ≤ x.state → x.seq = bitsOf v.toNat 27 12 → Gives (.mbxAck acc v) s fun t => t.slotAt k = {} ∧ others t ∧ t.regs = s.regs) ∧
            (x.state < 2 ∨ x.seq ≠ bitsOf v.toNat 27 12 → Gives (.mbxAck acc v) s fun t => t.mbx = s.mbx ∧ t.rd MBX_STATUS_BADACK = 1 ∧
              t.rd MBX_CNT2_BADACK = satAdd MBX_CNT2_BADACK.width (s.rd MBX_CNT2_BADACK) 1)))) ∧
    (∀ (acc : Accessor) (k : Fin 16) (v : Word),
      (bitOf v.toNat 0 = false → exec (.crcClr acc k v) s = .next { s with rsp := ⟨0, 0⟩ }) ∧
      (bitOf v.toNat 0 = true → Gives (.crcClr acc k v) s fun t =>
        (∀ f ∈ [CRC_U_ALIVE_AERR k, CRC_U_ALIVE_REPEAT k, CRC_U_ALIVE_LOST k, CRC_U_STAT_NEW k, CRC_U_STAT_OVER k], t.rd f = 0) ∧
        (∀ f ∈ [CRC_U_RES_LO_VALUE k, CRC_U_RES_HI_VALUE k, CRC_U_STAT_VERDICT k, CRC_U_STAT_MSGS k], t.rd f = s.rd f) ∧
        t.crcUnit k = { s.crcUnit k with bytes := [], pkts := 0, poison := false, prev := none } ∧
        ∀ j, j ≠ k.val → t.crcUnit j = s.crcUnit j) ∧
      (Gives (.crcResLoRead acc k) s fun t => t.rsp = ⟨0, s.rd (CRC_U_RES_LO_VALUE k)⟩ ∧ (t.crcUnit k).copy = some (s.crcWords k) ∧ t.regs = s.regs)) ∧
    (∀ f : BitVec 80,
      let bs := bytesOf 10 f.toNat
      let sum := crc8.value (bs.take 9)
      let a := beWord ((bs.drop 1).take 4)
      let v := beWord ((bs.drop 5).take 4)
      let on := s.chip.state ≠ .off ∧ s.chip.state ≠ .por
      (¬on → exec (.serviceFrame f) s = .next s ∧ exec (.serviceFrameShort (some f)) s = .next s ∧ exec (.serviceFrameShort none) s = .next s) ∧
      (on → sum ≠ bs.getD 9 0 → exec (.serviceFrame f) s = .next ((s.bump SYS_SVCERR_CRCERR).answerWith 4 0)) ∧
      (on → sum = bs.getD 9 0 → a < 0x80000000 →
        (bs.getD 0 0 = 1 → exec (.serviceFrame f) s = .next ((s.count SVC_FRAMES_COUNT).busAccess .service a none)) ∧
        (bs.getD 0 0 = 2 → exec (.serviceFrame f) s = .next ((s.count SVC_FRAMES_COUNT).busAccess .service a (some v)))) ∧
      (on → sum = bs.getD 9 0 → bs.getD 0 0 ≠ 1 → bs.getD 0 0 ≠ 2 →
        exec (.serviceFrame f) s = .next (((s.count SVC_FRAMES_COUNT).bump SYS_SVCERR_CRCERR).answerWith 4 0)) ∧
      (on → sum = bs.getD 9 0 → 0x80000000 ≤ a → bs.getD 0 0 = 1 → s.chip.windows = true → s.chip.state = .run → s.flag KRL_CTRL_EN = false →
        exec (.serviceFrame f) s = .next ((s.count SVC_FRAMES_COUNT).answerWith 4 0)) ∧
      (on → exec (.serviceFrameShort none) s = .next (s.bump SYS_SVCERR_SHORT)) ∧
      (on → ∀ t, exec (.serviceFrame f) s = .next t →
        exec (.serviceFrameShort (some f)) s = .next { t.bump SYS_SVCERR_LOSTRSP with rsp := s.rsp })) ∧
    (∀ (w : Bool) (a v : Word),
      (s.chip.state = .off ∨ s.chip.state = .por → exec (.testPortAccess w a v) s = .next s) ∧
      (s.chip.state ≠ .off → s.chip.state ≠ .por → s.flag SYS_SVCCFG_DEBUG = false →
        exec (.testPortAccess w a v) s = .next (((s.raise DBG_STAT_REGACC).bump DBG_STAT_REFUSED).answerWith 0xA 0)) ∧
      (s.chip.state ≠ .off → s.chip.state ≠ .por → s.flag SYS_SVCCFG_DEBUG = true → a.toNat < 0x80000000 →
        exec (.testPortAccess w a v) s = .next ((s.raise DBG_STAT_REGACC).busAccess .testPort a.toNat (if w then some v.toNat else none)))) ∧
    (∀ (acc : Accessor) (a v : Word),
      let put := exec (.registerWrite acc a v) s
      let rgn := fun n : Nat => addrRegion a.toNat = some n ∧ (s.region n).state = .dark
      (acc = .firmware → s.supRuns = false → put = .next s) ∧
      (acc = .firmware → s.supRuns = true →
        (a.toNat % 4 ≠ 0 → put = .next { s with rsp := ⟨4, 0⟩ }) ∧
        (∀ n, a.toNat % 4 = 0 → rgn n → put = .next { s with rsp := ⟨3, 0⟩ }) ∧
        (a.toNat % 4 = 0 → (∀ n, ¬rgn n) → assigned a.toNat = false → put = .next { s with rsp := ⟨4, 0⟩ }) ∧
        (a.toNat = 0x40 → put = .next { s.wr SYS_LOG_WD0_DETAIL v.toNat with rsp := ⟨0, 0⟩ }) ∧
        (a.toNat = 0x30000 → Gives (.registerWrite acc a v) s fun t => t.rsp = ⟨0, 0⟩ ∧
          ∀ f ∈ [(0, CLK_STATUS_REFUSED), (1, CLK_STATUS_FAILOVER), (2, CLK_STATUS_HOLDOVER), (3, CLK_STATUS_CKOSTOP)],
            s.rd f.2 ≤ 1 → t.rd f.2 = if bitOf v.toNat f.1 then 0 else s.rd f.2) ∧
        (a.toNat = 0x30004 ∧ v.toNat % 2 ^ 16 ≠ s.rd CLK_READY_READY % 2 ^ 16 ∨
          a.toNat = 0x30008 ∧ s.chip.state ≠ .load ∧ v.toNat % 2 ^ 8 ≠ s.rd CLK_TOL_TOL % 2 ^ 8 →
          put = .next { (s.bump SYS_BADWR_COUNT).wr SYS_BADWR_ADDR_ADDR a.toNat with rsp := ⟨0, 0⟩ }) ∧
        (a.toNat = 0x30004 ∧ v.toNat % 2 ^ 16 = s.rd CLK_READY_READY % 2 ^ 16 ∨
          a.toNat = 0x30008 ∧ s.chip.state ≠ .load ∧ v.toNat % 2 ^ 8 = s.rd CLK_TOL_TOL % 2 ^ 8 → put = .next { s with rsp := ⟨0, 0⟩ })) ∧
      (acc = .service ∨ acc = .mgmt →
        let refused := put = .next ((s.bump SYS_SVCERR_REFUSED).answerWith 0xA 0)
        (s.chip.state = .off ∨ s.chip.state = .por → put = .next s) ∧
        (s.chip.state = .halt → 0x10000 ≤ a.toNat → put = .next { s with rsp := ⟨3, 0⟩ }) ∧
        (s.chip.state ≠ .off → s.chip.state ≠ .por → s.chip.state ≠ .halt → s.chip.windows = false → refused) ∧
        (s.chip.state = .run → s.chip.windows = true → a.toNat % 4 = 0 → (∀ n, ¬rgn n) → assigned a.toNat = true →
          (s.windowPermits a.toNat true = false → refused) ∧
          (s.windowPermits a.toNat true = true → put = .next (s.access acc a.toNat (some v.toNat))))))

/-- O60 (R226). An update with step m takes the pointer to (ap + m) mod 16384 when its buffer length is 0 and else to
(abn + ((ap - abn + m) mod aln)) mod 16384, mod never negative, ap - abn a plain signed difference. With a length of 1
to 16,384 words the pointer so lands inside the buffer of ALn words from ABn, continuing past word 16,383 at word 0,
also from a pointer outside it, whatever the size and sign of the step. With AB2 = 100 and AL2 = 40, AP2 = 138 and AM2
= 3 give 101, AP2 = 102 and AM2 = -5 give 137, AP2 = 10 and step +1 give 131. -/
def Obligations.PointersAreUpdatedInTheirBuffers : Prop :=
  ∀ (s : State) (g : EngId) (k : Bool) (mode ptr : Fin 8), s.EngineFree g → 1 ≤ mode.val → mode.val ≤ 3 →
    let v := (s.eng g).sees
    let ap : Int := v.reg (0x10 + ptr.val)
    let ab : Int := v.reg (0x18 + ptr.val)
    let al : Int := v.reg (0x20 + ptr.val)
    let am : Int := signedOf 15 (v.reg (0x28 + ptr.val))
    let m : Int := if mode.val = 1 then 1 else if mode.val = 2 then -1 else am
    Gives (.update g k mode ptr) s fun t =>
      let p : Int := (t.eng g).cur.reg (0x10 + ptr.val)
      s.EngineOp t g [0x10 + ptr.val] [] ∧
      (al = 0 → p = (ap + m) % 16384) ∧
      (al ≠ 0 → p = (ab + (ap - ab + m) % al) % 16384) ∧
      (0 < al → al ≤ 16384 → 0 ≤ p ∧ p < 16384 ∧ (p - ab) % 16384 < al) ∧
      (ptr.val = 2 → ab = 100 → al = 40 →
        (ap = 138 → am = 3 → mode.val = 3 → p = 101) ∧ (ap = 102 → am = -5 → mode.val = 3 → p = 137) ∧
        (ap = 10 → mode.val = 1 → p = 131))
end

