-- ==== Sys2Proof/Laws/Tbl.lean ====
section
/-! SUPPORT. What reading a table gives after each way of writing it, and that writing keeps the canonical form. -/

namespace Sys2Proof.Machine

variable {α : Type}

@[simp] theorem Tbl.get_nil (d : α) (n : Nat) : Tbl.get [] d n = d := rfl

theorem Tbl.get_set (t : Tbl α) (d : α) (n m : Nat) (v : α) :
    (t.set n v).get d m = if n = m then v else t.get d m := by
  induction t with
  | nil => simp [Tbl.set, Tbl.get]
  | cons p t ih =>
    obtain ⟨k, w⟩ := p
    simp only [Tbl.set]
    split
    · rename_i h
      simp only [Tbl.get]
    · split
      · rename_i h1 h2; subst h2
        simp only [Tbl.get]
        by_cases h : n = m <;> simp [h]
      · rename_i h1 h2
        simp only [Tbl.get, ih]
        by_cases hk : k = m
        · subst hk; simp [h2]
        · simp [hk]

@[simp] theorem Tbl.get_set_same (t : Tbl α) (d : α) (n : Nat) (v : α) : (t.set n v).get d n = v := by
  simp [Tbl.get_set]

theorem Tbl.get_set_other (t : Tbl α) (d : α) {n m : Nat} (v : α) (h : n ≠ m) :
    (t.set n v).get d m = t.get d m := by
  simp [Tbl.get_set, h]

theorem Tbl.get_del (t : Tbl α) (d : α) (n m : Nat) :
    (t.del n).get d m = if n = m then d else t.get d m := by
  induction t with
  | nil => simp [Tbl.del]
  | cons p t ih =>
    obtain ⟨k, w⟩ := p
    simp only [Tbl.del]
    by_cases hk : k = n
    · subst hk
      simp only [ite_true, ih, Tbl.get]
      by_cases h : k = m <;> simp [h]
    · simp only [hk, ite_false, Tbl.get, ih]
      by_cases hm : k = m
      · subst hm; simp [Ne.symm hk]
      · simp [hm]

theorem Tbl.get_put [DecidableEq α] (t : Tbl α) (d : α) (n m : Nat) (v : α) :
    (t.put d n v).get d m = if n = m then v else t.get d m := by
  unfold Tbl.put
  split
  · rename_i h; subst h; exact Tbl.get_del t v n m
  · exact Tbl.get_set t d n m v

@[simp] theorem Tbl.get_put_same [DecidableEq α] (t : Tbl α) (d : α) (n : Nat) (v : α) :
    (t.put d n v).get d n = v := by simp [Tbl.get_put]

theorem Tbl.get_put_other [DecidableEq α] (t : Tbl α) (d : α) {n m : Nat} (v : α) (h : n ≠ m) :
    (t.put d n v).get d m = t.get d m := by simp [Tbl.get_put, h]

theorem Tbl.sortedFrom_mono {b c : Nat} (t : Tbl α) (h : c ≤ b) (ht : Tbl.sortedFrom b t = true) :
    Tbl.sortedFrom c t = true := by
  cases t with
  | nil => rfl
  | cons p t =>
    obtain ⟨k, w⟩ := p
    simp only [Tbl.sortedFrom, Bool.and_eq_true, decide_eq_true_eq] at *
    exact ⟨Nat.le_trans h ht.1, ht.2⟩

theorem Tbl.sortedFrom_set {b : Nat} (t : Tbl α) (n : Nat) (v : α) (hb : b ≤ n)
    (ht : Tbl.sortedFrom b t = true) : Tbl.sortedFrom b (t.set n v) = true := by
  induction t generalizing b with
  | nil => simp [Tbl.set, Tbl.sortedFrom, hb]
  | cons p t ih =>
    obtain ⟨k, w⟩ := p
    simp only [Tbl.sortedFrom, Bool.and_eq_true, decide_eq_true_eq] at ht
    simp only [Tbl.set]
    split
    · rename_i h
      simp only [Tbl.sortedFrom, Bool.and_eq_true, decide_eq_true_eq]
      exact ⟨hb, by omega, ht.2⟩
    · split
      · rename_i h1 h2; subst h2
        simp only [Tbl.sortedFrom, Bool.and_eq_true, decide_eq_true_eq]
        exact ⟨hb, ht.2⟩
      · rename_i h1 h2
        simp only [Tbl.sortedFrom, Bool.and_eq_true, decide_eq_true_eq]
        exact ⟨ht.1, ih (by omega) ht.2⟩

theorem Tbl.sortedFrom_del {b : Nat} (t : Tbl α) (n : Nat)
    (ht : Tbl.sortedFrom b t = true) : Tbl.sortedFrom b (t.del n) = true := by
  induction t generalizing b with
  | nil => rfl
  | cons p t ih =>
    obtain ⟨k, w⟩ := p
    simp only [Tbl.sortedFrom, Bool.and_eq_true, decide_eq_true_eq] at ht
    simp only [Tbl.del]
    split
    · exact ih (Tbl.sortedFrom_mono t (by omega) ht.2)
    · simp only [Tbl.sortedFrom, Bool.and_eq_true, decide_eq_true_eq]
      exact ⟨ht.1, ih ht.2⟩

theorem Tbl.all_set (t : Tbl α) (n : Nat) (v : α) (q : Nat × α → Bool) (hv : q (n, v) = true)
    (ht : t.all q = true) : (t.set n v).all q = true := by
  induction t with
  | nil => simp [Tbl.set, hv]
  | cons p t ih =>
    obtain ⟨k, w⟩ := p
    simp only [List.all_cons, Bool.and_eq_true] at ht
    simp only [Tbl.set]
    split
    · simp only [List.all_cons, Bool.and_eq_true]; exact ⟨hv, ht.1, ht.2⟩
    · split
      · simp only [List.all_cons, Bool.and_eq_true]; exact ⟨hv, ht.2⟩
      · simp only [List.all_cons, Bool.and_eq_true]; exact ⟨ht.1, ih ht.2⟩

theorem Tbl.all_del (t : Tbl α) (n : Nat) (q : Nat × α → Bool)
    (ht : t.all q = true) : (t.del n).all q = true := by
  induction t with
  | nil => rfl
  | cons p t ih =>
    obtain ⟨k, w⟩ := p
    simp only [List.all_cons, Bool.and_eq_true] at ht
    simp only [Tbl.del]
    split
    · exact ih ht.2
    · simp only [List.all_cons, Bool.and_eq_true]; exact ⟨ht.1, ih ht.2⟩

/-- Writing keeps the canonical form. -/
theorem Tbl.wf_put [DecidableEq α] (t : Tbl α) (d : α) (n : Nat) (v : α) (h : Tbl.wf d t = true) :
    Tbl.wf d (t.put d n v) = true := by
  simp only [Tbl.wf, Bool.and_eq_true] at *
  unfold Tbl.put
  split
  · exact ⟨Tbl.sortedFrom_del t n h.1, Tbl.all_del t n _ h.2⟩
  · rename_i hv
    exact ⟨Tbl.sortedFrom_set t n v (Nat.zero_le n) h.1, Tbl.all_set t n v _ (by simpa using hv) h.2⟩

/-- A byte write keeps the memory's canonical form. -/
theorem Memory.wf_writeByte (m : Memory) (a : Nat) (v : BitVec 8) (h : m.wf = true) :
    (m.writeByte a v).wf = true := Tbl.wf_put m 0#8 a v h

/-- A read after a write: the written byte at its address, every other byte as before. -/
theorem Memory.readByte_writeByte (m : Memory) (a b : Nat) (v : BitVec 8) :
    (m.writeByte a v).readByte b = if a = b then v else m.readByte b := Tbl.get_put m 0#8 a b v

end Sys2Proof.Machine
end

