-- ==== Sys2Proof/Laws/Keeps.lean ====
section
/-! SUPPORT. What every shared operation and every meaning keeps: the queue, the invariant of Safety, and, but for those
that a lemma's statement names by holding nothing (none), the bytes of the banks and the chip's own state. The lemmas of
this folder say it function by function, so that a proof over all commands needs no unfolding. -/

namespace Sys2Proof.Machine

/-- The chip's own state but for what an unrelated command may change: degraded health, restarts of its watchdog. -/
def Chip.core (c : Chip) : Chip := { c with degraded := false, wdStart := 0, wdWarned := false }

/-- What is held fixed: the queue; the bytes of the banks and the chip's own state, where they are named. -/
structure Held where
  queue : List Instr
  mem : Option Memory
  chip : Option Chip

/-- The invariant holds, and what is held fixed is as named. -/
structure Keeps (q : Held) (s : State) : Prop where
  queue : s.pending = q.queue
  inv : s.Inv
  mem : ∀ m, q.mem = some m → s.bankMem = m
  chip : ∀ c, q.chip = some c → s.chip.core = c.core

variable {q : Held} {s : State}

/-- Any change that leaves the queue, the registers, the chip's own state and the bank memories alone. -/
theorem Keeps.mk_other {c fc rsp im log tb evt rgs kt th ck xm ld bi io ne sc pl kr sb jr su la cr mb sy}
    (h : Keeps q s) :
    Keeps q ⟨s.pending, c, fc, rsp, s.regs, im, s.chip, log, tb, evt, rgs, kt, th, ck, xm, ld, bi, io, ne, sc, pl, kr,
      sb, jr, su, la, cr, mb, s.bankMem, sy⟩ := ⟨h.1, h.2, h.3, h.4⟩

/-- The same with a change of the chip's own state, the chip state not held, that keeps the outputs as they are wanted. -/
theorem Keeps.mk_chip {p : List Instr} {m : Option Memory}
    {c fc rsp im ch log tb evt rgs kt th ck xm ld bi io ne sc pl kr sb jr su la cr mb sy}
    (h : Keeps ⟨p, m, none⟩ s) (ho : ch.outputs = true → ch.state = .start ∨ ch.state = .run)
    (hl : ch.hlth = true → ch.state = .run) :
    Keeps ⟨p, m, none⟩ ⟨s.pending, c, fc, rsp, s.regs, im, ch, log, tb, evt, rgs, kt, th, ck, xm, ld, bi, io, ne, sc, pl,
      kr, sb, jr, su, la, cr, mb, s.bankMem, sy⟩ := ⟨h.1, ⟨h.2.1, ho, hl⟩, h.3, by intro x e; cases e⟩

/-- The same with a change of the chip's own state, not held, that leaves the state and the outputs alone. -/
theorem Keeps.mk_chip_outs {p : List Instr} {m : Option Memory}
    {c fc rsp im ch log tb evt rgs kt th ck xm ld bi io ne sc pl kr sb jr su la cr mb sy}
    (h : Keeps ⟨p, m, none⟩ s) (h1 : ch.state = s.chip.state) (h2 : ch.outputs = s.chip.outputs)
    (h3 : ch.hlth = s.chip.hlth) :
    Keeps ⟨p, m, none⟩ ⟨s.pending, c, fc, rsp, s.regs, im, ch, log, tb, evt, rgs, kt, th, ck, xm, ld, bi, io, ne, sc, pl,
      kr, sb, jr, su, la, cr, mb, s.bankMem, sy⟩ :=
  Keeps.mk_chip h (by rw [h1, h2]; exact h.2.2.1) (by rw [h1, h3]; exact h.2.2.2)

/-- The same with a change of the chip's own state that leaves its core alone. -/
theorem Keeps.mk_chip_same {c fc rsp im ch log tb evt rgs kt th ck xm ld bi io ne sc pl kr sb jr su la cr mb sy}
    (h : Keeps q s) (hc : ch.core = s.chip.core) :
    Keeps q ⟨s.pending, c, fc, rsp, s.regs, im, ch, log, tb, evt, rgs, kt, th, ck, xm, ld, bi, io, ne, sc, pl, kr,
      sb, jr, su, la, cr, mb, s.bankMem, sy⟩ := by
  have h1 : ch.state = s.chip.state := by have := congrArg Chip.state hc; exact this
  have h2 : ch.outputs = s.chip.outputs := by have := congrArg Chip.outputs hc; exact this
  have h3 : ch.hlth = s.chip.hlth := by have := congrArg Chip.hlth hc; exact this
  refine ⟨h.1, ⟨h.2.1, ?_, ?_⟩, h.3, fun x hx => hc.trans (h.4 x hx)⟩
  · show ch.outputs = true → ch.state = .start ∨ ch.state = .run
    rw [h1, h2]; exact h.2.2.1
  · show ch.hlth = true → ch.state = .run
    rw [h1, h3]; exact h.2.2.2

theorem Keeps.mk_regs {c fc rsp r im log tb evt rgs kt th ck xm ld bi io ne sc pl kr sb jr su la cr mb sy}
    (h : Keeps q s) (hr : Tbl.wf 0 r = true) :
    Keeps q ⟨s.pending, c, fc, rsp, r, im, s.chip, log, tb, evt, rgs, kt, th, ck, xm, ld, bi, io, ne, sc, pl, kr,
      sb, jr, su, la, cr, mb, s.bankMem, sy⟩ := ⟨h.1, ⟨⟨h.2.1.1, hr⟩, h.2.2⟩, h.3, h.4⟩

theorem Keeps.ite {c : Prop} [Decidable c] {a b : State} (ha : c → Keeps q a) (hb : ¬c → Keeps q b) :
    Keeps q (if c then a else b) := by
  split
  · exact ha ‹_›
  · exact hb ‹_›

theorem Keeps.id (h : Keeps q s) : Keeps q (id s) := h

theorem Keeps.foldl {α : Type} {l : List α} {g : State → α → State} (hg : ∀ t x, Keeps q t → Keeps q (g t x)) (h : Keeps q s) :
    Keeps q (l.foldl g s) := by
  induction l generalizing s with
  | nil => exact h
  | cons a l ih => exact ih (hg s a h)

theorem Keeps.foldl_snd {α β : Type} {l : List α} {g : β × State → α → β × State} {p : β × State}
    (hg : ∀ t x, Keeps q t.2 → Keeps q (g t x).2) (h : Keeps q p.2) : Keeps q (l.foldl g p).2 := by
  induction l generalizing p with
  | nil => exact h
  | cons a l ih => exact ih (hg p a h)

theorem Keeps.foldl_fst {α β : Type} {l : List α} {g : State × β → α → State × β} {p : State × β}
    (hg : ∀ t x, Keeps q t.1 → Keeps q (g t x).1) (h : Keeps q p.1) : Keeps q (l.foldl g p).1 := by
  induction l generalizing p with
  | nil => exact h
  | cons a l ih => exact ih (hg p a h)

theorem Tbl.wf_filter {α : Type} [DecidableEq α] (t : Tbl α) (d : α) (p : Nat × α → Bool) (h : Tbl.wf d t = true) :
    Tbl.wf d (t.filter p) = true := by
  simp only [Tbl.wf, Bool.and_eq_true] at *
  refine ⟨?_, ?_⟩
  · obtain ⟨h, -⟩ := h
    suffices ∀ b, Tbl.sortedFrom b t = true → Tbl.sortedFrom b (t.filter p) = true from this 0 h
    clear h
    induction t with
    | nil => intro b h; exact h
    | cons x t ih =>
      obtain ⟨k, v⟩ := x
      intro b h
      simp only [Tbl.sortedFrom, Bool.and_eq_true, decide_eq_true_eq] at h
      simp only [List.filter]
      split
      · simp only [Tbl.sortedFrom, Bool.and_eq_true, decide_eq_true_eq]
        exact ⟨h.1, ih _ h.2⟩
      · exact Tbl.sortedFrom_mono _ (by omega) (ih _ h.2)
  · have h2 := h.2
    simp only [List.all_eq_true, List.mem_filter] at *
    exact fun x hx => h2 x hx.1

theorem Tbl.wf_foldl_put {α β : Type} [DecidableEq α] (l : List β) (d : α) (f : β → Nat) (g : β → α) (t : Tbl α)
    (h : Tbl.wf d t = true) : Tbl.wf d (l.foldl (fun t x => Tbl.put t d (f x) (g x)) t) = true := by
  induction l generalizing t with
  | nil => exact h
  | cons a l ih => exact ih _ (Tbl.wf_put t d (f a) (g a) h)

theorem Keeps.snd_eq {α : Type} {p : α × State} {a : α} {t : State} (e : p = (a, t)) (h : Keeps q p.2) : Keeps q t := by
  subst e; exact h

theorem Keeps.trd_eq {α β : Type} {p : α × β × State} {a : α} {b : β} {t : State} (e : p = (a, b, t)) (h : Keeps q p.2.2) :
    Keeps q t := by
  subst e; exact h

theorem Keeps.fth_eq {α β γ : Type} {p : α × β × γ × State} {a : α} {b : β} {c : γ} {t : State} (e : p = (a, b, c, t))
    (h : Keeps q p.2.2.2) : Keeps q t := by
  subst e; exact h

theorem Keeps.fst_eq {α : Type} {p : State × α} {a : α} {t : State} (e : p = (t, a)) (h : Keeps q p.1) : Keeps q t := by
  subst e; exact h

/-- An outcome whose next state keeps them. -/
structure KeepsO (q : Held) (o : Host.Outcome State Fault Refusal) : Prop where
  keeps : ∀ t, o = .next t → Keeps q t

theorem KeepsO.next {t : State} (h : Keeps q t) : KeepsO q (.next t) :=
  ⟨by intro u e; cases e; exact h⟩

theorem KeepsO.refused {r : Refusal} : KeepsO q (.refused r) :=
  ⟨by intro u e; cases e⟩

theorem KeepsO.ite {c : Prop} [Decidable c] {a b : Host.Outcome State Fault Refusal} (ha : c → KeepsO q a)
    (hb : ¬c → KeepsO q b) : KeepsO q (if c then a else b) := by
  split
  · exact ha ‹_›
  · exact hb ‹_›

/-- A state that may be there. -/
structure KeepsP (q : Held) (o : Option State) : Prop where
  keeps : ∀ t, o = some t → Keeps q t

theorem KeepsP.some {t : State} (h : Keeps q t) : KeepsP q (.some t) :=
  ⟨by intro u e; cases e; exact h⟩

theorem KeepsP.none : KeepsP q .none :=
  ⟨by intro u e; cases e⟩

theorem KeepsP.of {o : Option State} {t : State} (e : o = .some t) (h : KeepsP q o) : Keeps q t := h.keeps t e

theorem Keeps.getD {o : Option State} {t : State} (ho : KeepsP q o) (h : Keeps q t) : Keeps q (o.getD t) := by
  cases o with
  | none => exact h
  | some u => exact ho.keeps u rfl

/-- The same beside an answer. -/
structure KeepsQ {α : Type} (q : Held) (o : Option (α × State)) : Prop where
  keeps : ∀ a t, o = some (a, t) → Keeps q t

theorem KeepsQ.some {α : Type} {a : α} {t : State} (h : Keeps q t) : KeepsQ q (.some (a, t)) :=
  ⟨by intro b u e; cases e; exact h⟩

theorem KeepsQ.none {α : Type} : KeepsQ (α := α) q .none :=
  ⟨by intro b u e; cases e⟩

theorem KeepsQ.of {α : Type} {o : Option (α × State)} {a : α} {t : State} (e : o = .some (a, t)) (h : KeepsQ q o) :
    Keeps q t := h.keeps a t e

end Sys2Proof.Machine
end

