-- ==== Sys2Proof/Laws/KeepsShared.lean ====
section
/-! SUPPORT. Keeps (Laws/Keeps) for the units every command shares: registers, log, timebase, events, contexts, error correction, network, banks:
one lemma per function, each from those of the functions it calls. -/

namespace Sys2Proof.Machine

section

set_option simprocs false

theorem State.wr_keeps {qq : List Instr} {mm : Option Memory} {cc : Option Chip} (s : State) (f : Fld) (v : Nat) (hq : Keeps ⟨qq, mm, cc⟩ s) :
    Keeps ⟨qq, mm, cc⟩ (State.wr s f v) := by
  unfold State.wr
  exact Keeps.mk_regs hq (Tbl.wf_put _ _ _ _ hq.2.1.2)

theorem State.raise_keeps {qq : List Instr} {mm : Option Memory} {cc : Option Chip} (s : State) (f : Fld) (hq : Keeps ⟨qq, mm, cc⟩ s) :
    Keeps ⟨qq, mm, cc⟩ (State.raise s f) := by
  unfold State.raise
  refine State.wr_keeps (hq := ?_) ..
  exact hq

theorem State.bump_keeps {qq : List Instr} {mm : Option Memory} {cc : Option Chip} (s : State) (f : Fld) (n : Nat) (hq : Keeps ⟨qq, mm, cc⟩ s) :
    Keeps ⟨qq, mm, cc⟩ (State.bump s f n) := by
  unfold State.bump
  refine State.wr_keeps (hq := ?_) ..
  exact hq

theorem State.count_keeps {qq : List Instr} {mm : Option Memory} {cc : Option Chip} (s : State) (f : Fld) (n : Nat) (hq : Keeps ⟨qq, mm, cc⟩ s) :
    Keeps ⟨qq, mm, cc⟩ (State.count s f n) := by
  unfold State.count
  refine State.wr_keeps (hq := ?_) ..
  exact hq

theorem State.setRegion_keeps {qq : List Instr} {mm : Option Memory} {cc : Option Chip} (s : State) (n : Nat) (r : Region) (hq : Keeps ⟨qq, mm, cc⟩ s) :
    Keeps ⟨qq, mm, cc⟩ (State.setRegion s n r) := by
  unfold State.setRegion
  refine Keeps.mk_other ?_
  exact hq

theorem State.modRegion_keeps {qq : List Instr} {mm : Option Memory} {cc : Option Chip} (s : State) (n : Nat) (f : Region → Region) (hq : Keeps ⟨qq, mm, cc⟩ s) :
    Keeps ⟨qq, mm, cc⟩ (State.modRegion s n f) := by
  unfold State.modRegion
  refine State.setRegion_keeps (hq := ?_) ..
  exact hq

theorem State.modTb_keeps {qq : List Instr} {mm : Option Memory} {cc : Option Chip} (s : State) (f : Timebase → Timebase) (hq : Keeps ⟨qq, mm, cc⟩ s) :
    Keeps ⟨qq, mm, cc⟩ (State.modTb s f) := by
  unfold State.modTb
  refine Keeps.mk_other ?_
  exact hq

theorem State.modPort_keeps {qq : List Instr} {mm : Option Memory} {cc : Option Chip} (s : State) (k : Nat) (f : EncPort → EncPort) (hq : Keeps ⟨qq, mm, cc⟩ s) :
    Keeps ⟨qq, mm, cc⟩ (State.modPort s k f) := by
  unfold State.modPort
  refine State.modTb_keeps (hq := ?_) ..
  exact hq

theorem State.trackNow_keeps {qq : List Instr} {mm : Option Memory} {cc : Option Chip} (s : State) (turned : Bool) (hq : Keeps ⟨qq, mm, cc⟩ s) :
    Keeps ⟨qq, mm, cc⟩ (State.trackNow s turned) := by
  unfold State.trackNow
  extract_lets x1 x2 x3
  refine State.modTb_keeps (hq := ?_) ..
  exact hq

theorem State.logPut_keeps {qq : List Instr} {mm : Option Memory} {cc : Option Chip} (s : State) (r : LogRec) (hq : Keeps ⟨qq, mm, cc⟩ s) :
    Keeps ⟨qq, mm, cc⟩ (State.logPut s r) := by
  unfold State.logPut
  extract_lets x1 x2 x3
  have h4 : Keeps ⟨qq, mm, cc⟩ x2 := ?_
  refine Keeps.mk_other ?_
  exact h4
  dsimp -zeta only [x2]
  refine Keeps.ite (fun _ => ?_) (fun _ => ?_)
  refine State.bump_keeps (hq := ?_) ..
  refine Keeps.mk_other ?_
  exact hq
  exact hq

theorem State.logLostNow_keeps {qq : List Instr} {mm : Option Memory} {cc : Option Chip} (s : State) (hq : Keeps ⟨qq, mm, cc⟩ s) :
    Keeps ⟨qq, mm, cc⟩ (State.logLostNow s) := by
  unfold State.logLostNow
  extract_lets x1 x2 x3
  have h4 : Keeps ⟨qq, mm, cc⟩ x2 := ?_
  refine Keeps.mk_other ?_
  exact h4
  dsimp -zeta only [x2]
  refine State.logPut_keeps (hq := ?_) ..
  exact hq

theorem State.logRec_keeps {qq : List Instr} {mm : Option Memory} {cc : Option Chip} (s : State) (r : LogRec) (hq : Keeps ⟨qq, mm, cc⟩ s) :
    Keeps ⟨qq, mm, cc⟩ (State.logRec s r) := by
  unfold State.logRec
  extract_lets x1
  have h2 : Keeps ⟨qq, mm, cc⟩ x1 := ?_
  refine Keeps.ite (fun _ => ?_) (fun _ => ?_)
  exact h2
  split
  refine State.logLostNow_keeps (hq := ?_) ..
  exact h2
  refine Keeps.ite (fun _ => ?_) (fun _ => ?_)
  refine State.logLostNow_keeps (hq := ?_) ..
  exact h2
  exact h2
  dsimp -zeta only [x1]
  refine State.logPut_keeps (hq := ?_) ..
  exact hq

theorem State.logEv_keeps {qq : List Instr} {mm : Option Memory} {cc : Option Chip} (s : State) (code : Nat) (cls : Nat) (status : Nat) (unit : Nat) (detail : Nat) (hq : Keeps ⟨qq, mm, cc⟩ s) :
    Keeps ⟨qq, mm, cc⟩ (State.logEv s code cls status unit detail) := by
  unfold State.logEv
  refine State.logRec_keeps (hq := ?_) ..
  exact hq

theorem State.logLimited_keeps {qq : List Instr} {mm : Option Memory} {cc : Option Chip} (s : State) (scope : Nat) (r : LogRec) (hq : Keeps ⟨qq, mm, cc⟩ s) :
    Keeps ⟨qq, mm, cc⟩ (State.logLimited s scope r) := by
  unfold State.logLimited
  extract_lets x1 x2
  split
  dsimp -zeta only
  refine Keeps.mk_other ?_
  refine State.logRec_keeps (hq := ?_) ..
  exact hq
  refine Keeps.ite (fun _ => ?_) (fun _ => ?_)
  dsimp -zeta only
  refine Keeps.mk_other ?_
  refine State.logRec_keeps (hq := ?_) ..
  exact hq
  refine Keeps.mk_other ?_
  exact hq

theorem State.logEvLimited_keeps {qq : List Instr} {mm : Option Memory} {cc : Option Chip} (s : State) (scope : Nat) (code : Nat) (cls : Nat) (status : Nat) (unit : Nat) (detail : Nat) (hq : Keeps ⟨qq, mm, cc⟩ s) :
    Keeps ⟨qq, mm, cc⟩ (State.logEvLimited s scope code cls status unit detail) := by
  unfold State.logEvLimited
  refine State.logLimited_keeps (hq := ?_) ..
  exact hq

theorem State.logMerged_keeps {qq : List Instr} {mm : Option Memory} {cc : Option Chip} (s : State) (entry : Nat) (r : LogRec) (hq : Keeps ⟨qq, mm, cc⟩ s) :
    Keeps ⟨qq, mm, cc⟩ (State.logMerged s entry r) := by
  unfold State.logMerged
  extract_lets x1 x2
  split
  dsimp -zeta only [x1]
  extract_lets x3 x4 x5 x6
  have h7 : Keeps ⟨qq, mm, cc⟩ x5 := ?_
  refine Keeps.mk_other ?_
  exact h7
  dsimp -zeta only [x5]
  refine State.logRec_keeps (hq := ?_) ..
  exact hq
  extract_lets x8 x9
  refine Keeps.ite (fun _ => ?_) (fun _ => ?_)
  refine Keeps.mk_other ?_
  exact hq
  dsimp -zeta only [x1]
  extract_lets x10 x11 x12 x13
  have h14 : Keeps ⟨qq, mm, cc⟩ x12 := ?_
  refine Keeps.mk_other ?_
  exact h14
  dsimp -zeta only [x12]
  refine State.logRec_keeps (hq := ?_) ..
  exact hq

theorem State.endRun_keeps {qq : List Instr} {mm : Option Memory} {cc : Option Chip} (s : State) (entry : Nat) (hq : Keeps ⟨qq, mm, cc⟩ s) :
    Keeps ⟨qq, mm, cc⟩ (State.endRun s entry) := by
  unfold State.endRun
  refine Keeps.mk_other ?_
  exact hq

theorem State.takeFree_keeps {qq : List Instr} {mm : Option Memory} {cc : Option Chip} (s : State) (hq : Keeps ⟨qq, mm, cc⟩ s) :
    Keeps ⟨qq, mm, cc⟩ (State.takeFree s).2 := by
  unfold State.takeFree
  dsimp -zeta only
  refine Keeps.mk_other ?_
  exact hq

theorem State.modEvt_keeps {qq : List Instr} {mm : Option Memory} {cc : Option Chip} (s : State) (f : EventTable → EventTable) (hq : Keeps ⟨qq, mm, cc⟩ s) :
    Keeps ⟨qq, mm, cc⟩ (State.modEvt s f) := by
  unfold State.modEvt
  refine Keeps.mk_other ?_
  exact hq

theorem State.setEntry_keeps {qq : List Instr} {mm : Option Memory} {cc : Option Chip} (s : State) (k : Nat) (e : BitVec 256) (hq : Keeps ⟨qq, mm, cc⟩ s) :
    Keeps ⟨qq, mm, cc⟩ (State.setEntry s k e) := by
  unfold State.setEntry
  refine State.modEvt_keeps (hq := ?_) ..
  exact hq

theorem State.countClosedEvents_keeps {qq : List Instr} {mm : Option Memory} {cc : Option Chip} (s : State) (rgn : Option Nat) (n : Nat) (hq : Keeps ⟨qq, mm, cc⟩ s) :
    Keeps ⟨qq, mm, cc⟩ (State.countClosedEvents s rgn n) := by
  unfold State.countClosedEvents
  split
  exact hq
  refine Keeps.ite (fun _ => ?_) (fun _ => ?_)
  refine State.modRegion_keeps (hq := ?_) ..
  exact hq
  exact hq

theorem State.closeOcc_keeps {qq : List Instr} {mm : Option Memory} {cc : Option Chip} (s : State) (k : Nat) (x : Int) (n : Nat) (o : OccEnd) (hq : Keeps ⟨qq, mm, cc⟩ s) :
    Keeps ⟨qq, mm, cc⟩ (State.closeOcc s k x n o) := by
  unfold State.closeOcc
  extract_lets x1 x2 x3 x4 x5 x6 x7 x8 x9 x10
  have h11 : Keeps ⟨qq, mm, cc⟩ x10 := ?_
  refine Keeps.ite (fun _ => ?_) (fun _ => ?_)
  refine State.modEvt_keeps (hq := ?_) ..
  refine State.setEntry_keeps (hq := ?_) ..
  exact h11
  exact h11
  dsimp -zeta only [x10]
  have h12 : Keeps ⟨qq, mm, cc⟩ x6 := ?_
  have h13 : Keeps ⟨qq, mm, cc⟩ x7 := ?_
  have h14 : Keeps ⟨qq, mm, cc⟩ x9 := ?_
  split
  refine Keeps.ite (fun _ => ?_) (fun _ => ?_)
  refine State.logRec_keeps (hq := ?_) ..
  exact h12
  exact h12
  refine State.logMerged_keeps (hq := ?_) ..
  exact h13
  refine State.logMerged_keeps (hq := ?_) ..
  exact h14
  dsimp -zeta only [x9]
  have h15 : Keeps ⟨qq, mm, cc⟩ x8 := ?_
  refine Keeps.ite (fun _ => ?_) (fun _ => ?_)
  refine State.raise_keeps (hq := ?_) ..
  exact h15
  exact h15
  dsimp -zeta only [x8]
  refine State.countClosedEvents_keeps (hq := ?_) ..
  refine State.count_keeps (hq := ?_) ..
  exact hq
  dsimp -zeta only [x7]
  refine State.countClosedEvents_keeps (hq := ?_) ..
  refine State.count_keeps (hq := ?_) ..
  exact hq
  dsimp -zeta only [x6]
  refine State.endRun_keeps (hq := ?_) ..
  refine State.count_keeps (hq := ?_) ..
  exact hq

theorem State.dropPend_keeps {qq : List Instr} {mm : Option Memory} {cc : Option Chip} (s : State) (o : Occ) (hq : Keeps ⟨qq, mm, cc⟩ s) :
    Keeps ⟨qq, mm, cc⟩ (State.dropPend s o) := by
  unfold State.dropPend
  extract_lets x1 x2
  have h3 : Keeps ⟨qq, mm, cc⟩ x1 := ?_
  refine Keeps.mk_other ?_
  exact h3
  dsimp -zeta only [x1]
  refine State.modEvt_keeps (hq := ?_) ..
  exact hq

theorem State.missPend_keeps {qq : List Instr} {mm : Option Memory} {cc : Option Chip} (s : State) (reason : Nat) (o : Occ) (hq : Keeps ⟨qq, mm, cc⟩ s) :
    Keeps ⟨qq, mm, cc⟩ (State.missPend s reason o) := by
  unfold State.missPend
  refine State.closeOcc_keeps (hq := ?_) ..
  refine State.dropPend_keeps (hq := ?_) ..
  exact hq

theorem State.missAll_keeps {qq : List Instr} {mm : Option Memory} {cc : Option Chip} (s : State) (reason : Nat) (sel : Occ → Bool) (hq : Keeps ⟨qq, mm, cc⟩ s) :
    Keeps ⟨qq, mm, cc⟩ (State.missAll s reason sel) := by
  unfold State.missAll
  refine Keeps.foldl (fun t1 y2 h3 => ?_) ?_
  refine State.missPend_keeps (hq := ?_) ..
  exact h3
  exact hq

theorem State.handOver_keeps {qq : List Instr} {mm : Option Memory} {cc : Option Chip} (s : State) (o : Occ) (hq : Keeps ⟨qq, mm, cc⟩ s) :
    Keeps ⟨qq, mm, cc⟩ (State.handOver s o) := by
  unfold State.handOver
  extract_lets x1 x2 x3 x4
  have h5 : Keeps ⟨qq, mm, cc⟩ x4 := ?_
  refine State.closeOcc_keeps (hq := ?_) ..
  exact h5
  dsimp -zeta only [x4]
  refine State.modEvt_keeps (hq := ?_) ..
  exact hq

theorem State.takeAction_keeps {qq : List Instr} {mm : Option Memory} {cc : Option Chip} (s : State) (sel : Action → Bool) (hq : Keeps ⟨qq, mm, cc⟩ s) :
    KeepsQ ⟨qq, mm, cc⟩ (State.takeAction s sel) := by
  unfold State.takeAction
  split
  exact KeepsQ.none
  refine KeepsQ.some ?_
  refine State.modEvt_keeps (hq := ?_) ..
  exact hq

theorem State.stopMatcher_keeps {qq : List Instr} {mm : Option Memory} {cc : Option Chip} (s : State) (hq : Keeps ⟨qq, mm, cc⟩ s) :
    Keeps ⟨qq, mm, cc⟩ (State.stopMatcher s) := by
  unfold State.stopMatcher
  extract_lets x1
  have h2 : Keeps ⟨qq, mm, cc⟩ x1 := ?_
  refine State.modEvt_keeps (hq := ?_) ..
  exact h2
  dsimp -zeta only [x1]
  refine State.missAll_keeps (hq := ?_) ..
  exact hq

theorem State.clearEvo_keeps {qq : List Instr} {mm : Option Memory} {cc : Option Chip} (s : State) (o : Nat) (hq : Keeps ⟨qq, mm, cc⟩ s) :
    Keeps ⟨qq, mm, cc⟩ (State.clearEvo s o) := by
  unfold State.clearEvo
  refine State.modEvt_keeps (hq := ?_) ..
  exact hq

theorem State.dirTurned_keeps {qq : List Instr} {mm : Option Memory} {cc : Option Chip} (s : State) (hq : Keeps ⟨qq, mm, cc⟩ s) :
    Keeps ⟨qq, mm, cc⟩ (State.dirTurned s) := by
  unfold State.dirTurned
  refine State.missAll_keeps (hq := ?_) ..
  exact hq

theorem State.goCold_keeps {qq : List Instr} {mm : Option Memory} {cc : Option Chip} (s : State) (reason : Nat) (hq : Keeps ⟨qq, mm, cc⟩ s) :
    Keeps ⟨qq, mm, cc⟩ (State.goCold s reason) := by
  unfold State.goCold
  extract_lets x1 x2
  have h3 : Keeps ⟨qq, mm, cc⟩ x2 := ?_
  refine Keeps.ite (fun _ => ?_) (fun _ => ?_)
  exact h3
  refine State.logEv_keeps (hq := ?_) ..
  exact h3
  dsimp -zeta only [x2]
  refine State.modTb_keeps (hq := ?_) ..
  exact hq

theorem State.modKrl_keeps {qq : List Instr} {mm : Option Memory} {cc : Option Chip} (s : State) (f : Krl → Krl) (hq : Keeps ⟨qq, mm, cc⟩ s) :
    Keeps ⟨qq, mm, cc⟩ (State.modKrl s f) := by
  unfold State.modKrl
  refine Keeps.mk_other ?_
  exact hq

theorem State.logHold_keeps {qq : List Instr} {mm : Option Memory} {cc : Option Chip} (s : State) (what : Nat) (hq : Keeps ⟨qq, mm, cc⟩ s) :
    Keeps ⟨qq, mm, cc⟩ (State.logHold s what) := by
  unfold State.logHold
  refine State.logEv_keeps (hq := ?_) ..
  exact hq

theorem State.startHold_keeps {qq : List Instr} {mm : Option Memory} {cc : Option Chip} (s : State) (cause : Nat) (hq : Keeps ⟨qq, mm, cc⟩ s) :
    Keeps ⟨qq, mm, cc⟩ (State.startHold s cause) := by
  unfold State.startHold
  refine Keeps.ite (fun _ => ?_) (fun _ => ?_)
  refine State.modKrl_keeps (hq := ?_) ..
  exact hq
  extract_lets x1 x2 x3 x4
  have h5 : Keeps ⟨qq, mm, cc⟩ x4 := ?_
  refine Keeps.ite (fun _ => ?_) (fun _ => ?_)
  refine State.goCold_keeps (hq := ?_) ..
  exact h5
  exact h5
  dsimp -zeta only [x4]
  have h6 : Keeps ⟨qq, mm, cc⟩ x3 := ?_
  refine State.missAll_keeps (hq := ?_) ..
  exact h6
  dsimp -zeta only [x3]
  have h7 : Keeps ⟨qq, mm, cc⟩ x2 := ?_
  refine Keeps.foldl (fun t8 y9 h10 => ?_) ?_
  refine State.clearEvo_keeps (hq := ?_) ..
  exact h10
  exact h7
  dsimp -zeta only [x2]
  have h11 : Keeps ⟨qq, mm, cc⟩ x1 := ?_
  refine State.logHold_keeps (hq := ?_) ..
  refine State.raise_keeps (hq := ?_) ..
  refine State.raise_keeps (hq := ?_) ..
  exact h11
  dsimp -zeta only [x1]
  refine State.modKrl_keeps (hq := ?_) ..
  exact hq

theorem State.endHold_keeps {qq : List Instr} {mm : Option Memory} {cc : Option Chip} (s : State) (hq : Keeps ⟨qq, mm, cc⟩ s) :
    Keeps ⟨qq, mm, cc⟩ (State.endHold s) := by
  unfold State.endHold
  extract_lets x1
  have h2 : Keeps ⟨qq, mm, cc⟩ x1 := ?_
  refine Keeps.ite (fun _ => ?_) (fun _ => ?_)
  refine State.modKrl_keeps (hq := ?_) ..
  refine State.logHold_keeps (hq := ?_) ..
  exact h2
  exact h2
  dsimp -zeta only [x1]
  refine State.wr_keeps (hq := ?_) ..
  refine State.wr_keeps (hq := ?_) ..
  exact hq

theorem State.sourceChange_keeps {qq : List Instr} {mm : Option Memory} {cc : Option Chip} (s : State) (d : Int) (ts : Nat) (hq : Keeps ⟨qq, mm, cc⟩ s) :
    Keeps ⟨qq, mm, cc⟩ (State.sourceChange s d ts) := by
  unfold State.sourceChange
  extract_lets x1 x2 x3 x4 x5 x6 x7 x8 x9
  have h10 : Keeps ⟨qq, mm, cc⟩ x9 := ?_
  refine Keeps.ite (fun _ => ?_) (fun _ => ?_)
  refine State.dirTurned_keeps (hq := ?_) ..
  exact h10
  exact h10
  dsimp -zeta only [x9]
  have h11 : Keeps ⟨qq, mm, cc⟩ x8 := ?_
  refine State.trackNow_keeps (hq := ?_) ..
  exact h11
  dsimp -zeta only [x8]
  have h12 : Keeps ⟨qq, mm, cc⟩ x5 := ?_
  have h13 : Keeps ⟨qq, mm, cc⟩ x7 := ?_
  refine Keeps.ite (fun _ => ?_) (fun _ => ?_)
  refine Keeps.ite (fun _ => ?_) (fun _ => ?_)
  refine State.endHold_keeps (hq := ?_) ..
  exact h13
  exact h13
  exact h12
  dsimp -zeta only [x7]
  have h14 : Keeps ⟨qq, mm, cc⟩ x6 := ?_
  refine State.logEv_keeps (hq := ?_) ..
  exact h14
  dsimp -zeta only [x6]
  refine State.modTb_keeps (hq := ?_) ..
  exact h12
  dsimp -zeta only [x5]
  have h15 : Keeps ⟨qq, mm, cc⟩ x3 := ?_
  refine State.modTb_keeps (hq := ?_) ..
  exact h15
  dsimp -zeta only [x3]
  refine Keeps.ite (fun _ => ?_) (fun _ => ?_)
  refine State.modTb_keeps (hq := ?_) ..
  refine State.goCold_keeps (hq := ?_) ..
  exact hq
  exact hq

theorem State.quadError_keeps {qq : List Instr} {mm : Option Memory} {cc : Option Chip} (s : State) (k : Nat) (hq : Keeps ⟨qq, mm, cc⟩ s) :
    Keeps ⟨qq, mm, cc⟩ (State.quadError s k) := by
  unfold State.quadError
  extract_lets x1 x2 x3 x4 x5 x6 x7 x8
  have h9 : Keeps ⟨qq, mm, cc⟩ x1 := ?_
  have h10 : Keeps ⟨qq, mm, cc⟩ x8 := ?_
  refine Keeps.ite (fun _ => ?_) (fun _ => ?_)
  refine State.logLimited_keeps (hq := ?_) ..
  exact h9
  refine State.modPort_keeps (hq := ?_) ..
  exact h10
  dsimp -zeta only [x8]
  have h11 : Keeps ⟨qq, mm, cc⟩ x6 := ?_
  refine Keeps.mk_other ?_
  exact h11
  dsimp -zeta only [x6]
  refine State.logRec_keeps (hq := ?_) ..
  exact h9
  dsimp -zeta only [x1]
  refine State.bump_keeps (hq := ?_) ..
  exact hq

theorem State.portCount_keeps {qq : List Instr} {mm : Option Memory} {cc : Option Chip} (s : State) (k : Nat) (d : Int) (hq : Keeps ⟨qq, mm, cc⟩ s) :
    Keeps ⟨qq, mm, cc⟩ (State.portCount s k d) := by
  unfold State.portCount
  refine Keeps.ite (fun _ => ?_) (fun _ => ?_)
  exact hq
  extract_lets x1 x2
  have h3 : Keeps ⟨qq, mm, cc⟩ x2 := ?_
  refine Keeps.ite (fun _ => ?_) (fun _ => ?_)
  refine State.sourceChange_keeps (hq := ?_) ..
  exact h3
  exact h3
  dsimp -zeta only [x2]
  refine State.modPort_keeps (hq := ?_) ..
  exact hq

theorem execEncoderEdge_keeps {qq : List Instr} {mm : Option Memory} {cc : Option Chip} (k : Fin 4) (e : EncEdge) (s : State) (hq : Keeps ⟨qq, mm, cc⟩ s) :
    KeepsO ⟨qq, mm, cc⟩ (execEncoderEdge k e s) := by
  unfold execEncoderEdge
  split
  refine KeepsO.next ?_
  refine State.bump_keeps (hq := ?_) ..
  exact hq
  extract_lets x1 x2 x3 x4
  have h5 : Keeps ⟨qq, mm, cc⟩ x2 := ?_
  refine KeepsO.ite (fun _ => ?_) (fun _ => ?_)
  refine KeepsO.next ?_
  exact h5
  split
  extract_lets x6 x7
  have h8 : Keeps ⟨qq, mm, cc⟩ x7 := ?_
  refine KeepsO.next ?_
  refine State.portCount_keeps (hq := ?_) ..
  exact h8
  dsimp -zeta only [x7]
  refine Keeps.ite (fun _ => ?_) (fun _ => ?_)
  refine State.quadError_keeps (hq := ?_) ..
  exact h5
  exact h5
  dsimp -zeta only [x2]
  refine State.modPort_keeps (hq := ?_) ..
  exact hq

theorem execIndexEdge_keeps {qq : List Instr} {mm : Option Memory} {cc : Option Chip} (k : Fin 4) (e : IndexEdge) (s : State) (hq : Keeps ⟨qq, mm, cc⟩ s) :
    KeepsO ⟨qq, mm, cc⟩ (execIndexEdge k e s) := by
  unfold execIndexEdge
  split
  refine KeepsO.next ?_
  refine State.bump_keeps (hq := ?_) ..
  exact hq
  refine KeepsO.next ?_
  refine State.modPort_keeps (hq := ?_) ..
  exact hq
  extract_lets x1 x2 x3 x4 x5 x6
  have h7 : Keeps ⟨qq, mm, cc⟩ x3 := ?_
  have h8 : Keeps ⟨qq, mm, cc⟩ x5 := ?_
  have h9 : Keeps ⟨qq, mm, cc⟩ x6 := ?_
  refine KeepsO.ite (fun _ => ?_) (fun _ => ?_)
  refine KeepsO.next ?_
  exact h7
  split
  extract_lets x10
  refine KeepsO.ite (fun _ => ?_) (fun _ => ?_)
  refine KeepsO.next ?_
  refine State.logEv_keeps (hq := ?_) ..
  exact h9
  refine KeepsO.next ?_
  exact h8
  refine KeepsO.next ?_
  exact h8
  dsimp -zeta only [x6]
  refine State.bump_keeps (hq := ?_) ..
  exact h8
  dsimp -zeta only [x5]
  refine State.modPort_keeps (hq := ?_) ..
  exact h7
  dsimp -zeta only [x3]
  refine State.modPort_keeps (hq := ?_) ..
  exact hq

theorem State.useBackup_keeps {qq : List Instr} {mm : Option Memory} {cc : Option Chip} (s : State) (hq : Keeps ⟨qq, mm, cc⟩ s) :
    Keeps ⟨qq, mm, cc⟩ (State.useBackup s) := by
  unfold State.useBackup
  extract_lets x1 x2 x3
  have h4 : Keeps ⟨qq, mm, cc⟩ x3 := ?_
  refine Keeps.ite (fun _ => ?_) (fun _ => ?_)
  exact hq
  refine State.logEv_keeps (hq := ?_) ..
  exact h4
  dsimp -zeta only [x3]
  refine State.modTb_keeps (hq := ?_) ..
  exact hq

theorem State.sourceFault_keeps {qq : List Instr} {mm : Option Memory} {cc : Option Chip} (s : State) (hq : Keeps ⟨qq, mm, cc⟩ s) :
    Keeps ⟨qq, mm, cc⟩ (State.sourceFault s) := by
  unfold State.sourceFault
  refine State.trackNow_keeps (hq := ?_) ..
  refine State.useBackup_keeps (hq := ?_) ..
  refine State.goCold_keeps (hq := ?_) ..
  exact hq

theorem execWireFault_keeps {qq : List Instr} {mm : Option Memory} {cc : Option Chip} (k : Fin 4) (i : EncInput) (s : State) (hq : Keeps ⟨qq, mm, cc⟩ s) :
    KeepsO ⟨qq, mm, cc⟩ (execWireFault k i s) := by
  unfold execWireFault
  refine KeepsO.ite (fun _ => ?_) (fun _ => ?_)
  refine KeepsO.next ?_
  exact hq
  extract_lets x1 x2 x3
  have h4 : Keeps ⟨qq, mm, cc⟩ x3 := ?_
  refine KeepsO.ite (fun _ => ?_) (fun _ => ?_)
  refine KeepsO.next ?_
  refine State.sourceFault_keeps (hq := ?_) ..
  exact h4
  refine KeepsO.next ?_
  exact h4
  dsimp -zeta only [x3]
  have h5 : Keeps ⟨qq, mm, cc⟩ x2 := ?_
  refine State.logEv_keeps (hq := ?_) ..
  exact h5
  dsimp -zeta only [x2]
  refine State.modPort_keeps (hq := ?_) ..
  exact hq

theorem execWireFaultClear_keeps {qq : List Instr} {mm : Option Memory} {cc : Option Chip} (k : Fin 4) (i : EncInput) (s : State) (hq : Keeps ⟨qq, mm, cc⟩ s) :
    KeepsO ⟨qq, mm, cc⟩ (execWireFaultClear k i s) := by
  unfold execWireFaultClear
  refine KeepsO.ite (fun _ => ?_) (fun _ => ?_)
  refine KeepsO.next ?_
  exact hq
  extract_lets x1
  have h2 : Keeps ⟨qq, mm, cc⟩ x1 := ?_
  refine KeepsO.next ?_
  refine State.logEv_keeps (hq := ?_) ..
  exact h2
  dsimp -zeta only [x1]
  refine State.modPort_keeps (hq := ?_) ..
  exact hq

theorem execInterpolatorTimeout_keeps {qq : List Instr} {mm : Option Memory} {cc : Option Chip} (s : State) (hq : Keeps ⟨qq, mm, cc⟩ s) :
    KeepsO ⟨qq, mm, cc⟩ (execInterpolatorTimeout s) := by
  unfold execInterpolatorTimeout
  refine KeepsO.ite (fun _ => ?_) (fun _ => ?_)
  refine KeepsO.next ?_
  refine State.trackNow_keeps (hq := ?_) ..
  refine State.modTb_keeps (hq := ?_) ..
  refine State.goCold_keeps (hq := ?_) ..
  exact hq
  refine KeepsO.next ?_
  exact hq

theorem State.newSimVel_keeps {qq : List Instr} {mm : Option Memory} {cc : Option Chip} (s : State) (v : Nat) (hq : Keeps ⟨qq, mm, cc⟩ s) :
    Keeps ⟨qq, mm, cc⟩ (State.newSimVel s v) := by
  unfold State.newSimVel
  extract_lets x1 x2 x3 x4 x5
  have h6 : Keeps ⟨qq, mm, cc⟩ x1 := ?_
  have h7 : Keeps ⟨qq, mm, cc⟩ x5 := ?_
  refine Keeps.ite (fun _ => ?_) (fun _ => ?_)
  refine Keeps.ite (fun _ => ?_) (fun _ => ?_)
  refine State.dirTurned_keeps (hq := ?_) ..
  exact h7
  exact h7
  exact h6
  dsimp -zeta only [x5]
  have h8 : Keeps ⟨qq, mm, cc⟩ x4 := ?_
  refine State.trackNow_keeps (hq := ?_) ..
  exact h8
  dsimp -zeta only [x4]
  refine State.modTb_keeps (hq := ?_) ..
  exact h6
  dsimp -zeta only [x1]
  refine State.wr_keeps (hq := ?_) ..
  exact hq

theorem execPtbSimVelWrite_keeps {qq : List Instr} {mm : Option Memory} {cc : Option Chip} (x : Accessor) (v : Word) (s : State) (hq : Keeps ⟨qq, mm, cc⟩ s) :
    KeepsO ⟨qq, mm, cc⟩ (execPtbSimVelWrite x v s) := by
  unfold execPtbSimVelWrite
  refine KeepsO.next ?_
  refine State.newSimVel_keeps (hq := ?_) ..
  exact hq

theorem State.readPosLo_keeps {qq : List Instr} {mm : Option Memory} {cc : Option Chip} (s : State) (hq : Keeps ⟨qq, mm, cc⟩ s) :
    Keeps ⟨qq, mm, cc⟩ (State.readPosLo s) := by
  unfold State.readPosLo
  extract_lets x1 x2 x3
  have h4 : Keeps ⟨qq, mm, cc⟩ x3 := ?_
  refine Keeps.mk_other ?_
  exact h4
  dsimp -zeta only [x3]
  refine State.modTb_keeps (hq := ?_) ..
  exact hq

theorem execPtbPosLoRead_keeps {qq : List Instr} {mm : Option Memory} {cc : Option Chip} (x : Accessor) (s : State) (hq : Keeps ⟨qq, mm, cc⟩ s) :
    KeepsO ⟨qq, mm, cc⟩ (execPtbPosLoRead x s) := by
  unfold execPtbPosLoRead
  refine KeepsO.next ?_
  refine State.readPosLo_keeps (hq := ?_) ..
  exact hq

theorem State.readCntLo_keeps {qq : List Instr} {mm : Option Memory} {cc : Option Chip} (s : State) (k : Nat) (hq : Keeps ⟨qq, mm, cc⟩ s) :
    Keeps ⟨qq, mm, cc⟩ (State.readCntLo s k) := by
  unfold State.readCntLo
  extract_lets x1 x2
  have h3 : Keeps ⟨qq, mm, cc⟩ x2 := ?_
  refine Keeps.mk_other ?_
  exact h3
  dsimp -zeta only [x2]
  refine State.modTb_keeps (hq := ?_) ..
  exact hq

theorem execPtbEncCntLoRead_keeps {qq : List Instr} {mm : Option Memory} {cc : Option Chip} (x : Accessor) (k : Fin 4) (s : State) (hq : Keeps ⟨qq, mm, cc⟩ s) :
    KeepsO ⟨qq, mm, cc⟩ (execPtbEncCntLoRead x k s) := by
  unfold execPtbEncCntLoRead
  refine KeepsO.next ?_
  refine State.readCntLo_keeps (hq := ?_) ..
  exact hq

theorem State.readZlatLo_keeps {qq : List Instr} {mm : Option Memory} {cc : Option Chip} (s : State) (k : Nat) (hq : Keeps ⟨qq, mm, cc⟩ s) :
    Keeps ⟨qq, mm, cc⟩ (State.readZlatLo s k) := by
  unfold State.readZlatLo
  extract_lets x1 x2
  have h3 : Keeps ⟨qq, mm, cc⟩ x2 := ?_
  refine Keeps.mk_other ?_
  exact h3
  dsimp -zeta only [x2]
  refine State.modTb_keeps (hq := ?_) ..
  exact hq

theorem execPtbEncZlatLoRead_keeps {qq : List Instr} {mm : Option Memory} {cc : Option Chip} (x : Accessor) (k : Fin 4) (s : State) (hq : Keeps ⟨qq, mm, cc⟩ s) :
    KeepsO ⟨qq, mm, cc⟩ (execPtbEncZlatLoRead x k s) := by
  unfold execPtbEncZlatLoRead
  refine KeepsO.next ?_
  refine State.readZlatLo_keeps (hq := ?_) ..
  exact hq

theorem State.clearEncErr_keeps {qq : List Instr} {mm : Option Memory} {cc : Option Chip} (s : State) (k : Nat) (v : Nat) (hq : Keeps ⟨qq, mm, cc⟩ s) :
    Keeps ⟨qq, mm, cc⟩ (State.clearEncErr s k v) := by
  unfold State.clearEncErr
  refine Keeps.ite (fun _ => ?_) (fun _ => ?_)
  refine State.modPort_keeps (hq := ?_) ..
  refine State.wr_keeps (hq := ?_) ..
  refine State.wr_keeps (hq := ?_) ..
  refine State.wr_keeps (hq := ?_) ..
  exact hq
  exact hq

theorem execEncErrClr_keeps {qq : List Instr} {mm : Option Memory} {cc : Option Chip} (x : Accessor) (k : Fin 4) (v : Word) (s : State) (hq : Keeps ⟨qq, mm, cc⟩ s) :
    KeepsO ⟨qq, mm, cc⟩ (execEncErrClr x k v s) := by
  unfold execEncErrClr
  refine KeepsO.next ?_
  refine State.clearEncErr_keeps (hq := ?_) ..
  exact hq

theorem execBusUpdate_keeps {qq : List Instr} {mm : Option Memory} {cc : Option Chip} (s : State) (hq : Keeps ⟨qq, mm, cc⟩ s) :
    KeepsO ⟨qq, mm, cc⟩ (execBusUpdate s) := by
  unfold execBusUpdate
  extract_lets x1
  refine KeepsO.next ?_
  refine Keeps.ite (fun _ => ?_) (fun _ => ?_)
  refine State.modTb_keeps (hq := ?_) ..
  exact hq
  exact hq

theorem execBusStale_keeps {qq : List Instr} {mm : Option Memory} {cc : Option Chip} (n : Fin 64) (s : State) (hq : Keeps ⟨qq, mm, cc⟩ s) :
    KeepsO ⟨qq, mm, cc⟩ (execBusStale n s) := by
  unfold execBusStale
  refine KeepsO.next ?_
  refine State.logEv_keeps (hq := ?_) ..
  refine State.raise_keeps (hq := ?_) ..
  exact hq

theorem State.startTimebase_keeps {qq : List Instr} {mm : Option Memory} {cc : Option Chip} (s : State) (hq : Keeps ⟨qq, mm, cc⟩ s) :
    Keeps ⟨qq, mm, cc⟩ (State.startTimebase s) := by
  unfold State.startTimebase
  extract_lets x1 x2 x3 x4 x5 x6 x7
  have h8 : Keeps ⟨qq, mm, cc⟩ x7 := ?_
  refine Keeps.ite (fun _ => ?_) (fun _ => ?_)
  refine State.sourceFault_keeps (hq := ?_) ..
  exact h8
  exact h8
  dsimp -zeta only [x7]
  have h9 : Keeps ⟨qq, mm, cc⟩ x6 := ?_
  refine State.modTb_keeps (hq := ?_) ..
  exact h9
  dsimp -zeta only [x6]
  have h10 : Keeps ⟨qq, mm, cc⟩ x5 := ?_
  refine State.trackNow_keeps (hq := ?_) ..
  exact h10
  dsimp -zeta only [x5]
  have h11 : Keeps ⟨qq, mm, cc⟩ x4 := ?_
  refine Keeps.ite (fun _ => ?_) (fun _ => ?_)
  refine State.modTb_keeps (hq := ?_) ..
  exact h11
  refine State.goCold_keeps (hq := ?_) ..
  exact h11
  dsimp -zeta only [x4]
  refine State.modTb_keeps (hq := ?_) ..
  exact hq

theorem State.tickTimebase_keeps {qq : List Instr} {mm : Option Memory} {cc : Option Chip} (s : State) (hq : Keeps ⟨qq, mm, cc⟩ s) :
    Keeps ⟨qq, mm, cc⟩ (State.tickTimebase s) := by
  unfold State.tickTimebase
  extract_lets x1 x2 x3
  have h4 : Keeps ⟨qq, mm, cc⟩ x1 := ?_
  have h5 : Keeps ⟨qq, mm, cc⟩ x3 := ?_
  refine Keeps.ite (fun _ => ?_) (fun _ => ?_)
  refine State.trackNow_keeps (hq := ?_) ..
  exact h5
  exact h4
  dsimp -zeta only [x3]
  refine State.modTb_keeps (hq := ?_) ..
  exact h4
  dsimp -zeta only [x1]
  refine Keeps.mk_other ?_
  exact hq

theorem State.makePending_keeps {qq : List Instr} {mm : Option Memory} {cc : Option Chip} (s : State) (o : Occ) (why : Nat) (hq : Keeps ⟨qq, mm, cc⟩ s) :
    Keeps ⟨qq, mm, cc⟩ (State.makePending s o why) := by
  unfold State.makePending
  refine Keeps.ite (fun _ => ?_) (fun _ => ?_)
  refine State.closeOcc_keeps (hq := ?_) ..
  refine State.raise_keeps (hq := ?_) ..
  exact hq
  extract_lets x1 x2
  refine State.modEvt_keeps (hq := ?_) ..
  exact hq

theorem State.newOcc_keeps {qq : List Instr} {mm : Option Memory} {cc : Option Chip} (s : State) (o : Occ) (hq : Keeps ⟨qq, mm, cc⟩ s) :
    Keeps ⟨qq, mm, cc⟩ (State.newOcc s o) := by
  unfold State.newOcc
  extract_lets x1 x2 x3 x4 x5
  have h6 : Keeps ⟨qq, mm, cc⟩ x4 := ?_
  refine Keeps.ite (fun _ => ?_) (fun _ => ?_)
  refine State.closeOcc_keeps (hq := ?_) ..
  exact hq
  split
  refine State.makePending_keeps (hq := ?_) ..
  exact h6
  refine Keeps.ite (fun _ => ?_) (fun _ => ?_)
  refine State.makePending_keeps (hq := ?_) ..
  refine State.raise_keeps (hq := ?_) ..
  exact hq
  refine State.handOver_keeps (hq := ?_) ..
  exact hq
  dsimp -zeta only [x4]
  refine Keeps.ite (fun _ => ?_) (fun _ => ?_)
  refine State.raise_keeps (hq := ?_) ..
  exact hq
  exact hq

theorem State.markJudged_keeps {qq : List Instr} {mm : Option Memory} {cc : Option Chip} (s : State) (k : Nat) (hq : Keeps ⟨qq, mm, cc⟩ s) :
    Keeps ⟨qq, mm, cc⟩ (State.markJudged s k) := by
  unfold State.markJudged
  refine State.modEvt_keeps (hq := ?_) ..
  exact hq

theorem execMatcherCrossing_keeps {qq : List Instr} {mm : Option Memory} {cc : Option Chip} (k : Fin 32768) (s : State) (hq : Keeps ⟨qq, mm, cc⟩ s) :
    KeepsO ⟨qq, mm, cc⟩ (execMatcherCrossing k s) := by
  unfold execMatcherCrossing
  refine KeepsO.ite (fun _ => ?_) (fun _ => ?_)
  refine KeepsO.next ?_
  exact hq
  split
  refine KeepsO.next ?_
  refine Keeps.ite (fun _ => ?_) (fun _ => ?_)
  refine State.markJudged_keeps (hq := ?_) ..
  exact hq
  exact hq
  extract_lets x1 x2 x3 x4 x5 x6 x7
  have h8 : Keeps ⟨qq, mm, cc⟩ x4 := ?_
  have h9 : Keeps ⟨qq, mm, cc⟩ x6 := ?_
  refine KeepsO.ite (fun _ => ?_) (fun _ => ?_)
  refine KeepsO.next ?_
  refine State.markJudged_keeps (hq := ?_) ..
  exact hq
  refine KeepsO.ite (fun _ => ?_) (fun _ => ?_)
  refine KeepsO.next ?_
  refine State.closeOcc_keeps (hq := ?_) ..
  refine State.markJudged_keeps (hq := ?_) ..
  exact hq
  refine KeepsO.ite (fun _ => ?_) (fun _ => ?_)
  refine KeepsO.ite (fun _ => ?_) (fun _ => ?_)
  refine KeepsO.next ?_
  refine State.closeOcc_keeps (hq := ?_) ..
  exact h9
  refine KeepsO.next ?_
  refine State.newOcc_keeps (hq := ?_) ..
  exact h9
  refine KeepsO.next ?_
  refine State.newOcc_keeps (hq := ?_) ..
  exact h8
  dsimp -zeta only [x6]
  refine State.logEv_keeps (hq := ?_) ..
  refine State.raise_keeps (hq := ?_) ..
  exact h8
  dsimp -zeta only [x4]
  have h10 : Keeps ⟨qq, mm, cc⟩ x3 := ?_
  refine Keeps.ite (fun _ => ?_) (fun _ => ?_)
  exact h10
  refine State.closeOcc_keeps (hq := ?_) ..
  exact h10
  dsimp -zeta only [x3]
  refine State.markJudged_keeps (hq := ?_) ..
  exact hq

theorem execOccurrenceHandover_keeps {qq : List Instr} {mm : Option Memory} {cc : Option Chip} (s : State) (hq : Keeps ⟨qq, mm, cc⟩ s) :
    KeepsO ⟨qq, mm, cc⟩ (execOccurrenceHandover s) := by
  unfold execOccurrenceHandover
  refine KeepsO.ite (fun _ => ?_) (fun _ => ?_)
  refine KeepsO.next ?_
  exact hq
  split
  refine KeepsO.next ?_
  exact hq
  refine KeepsO.next ?_
  refine State.handOver_keeps (hq := ?_) ..
  refine State.dropPend_keeps (hq := ?_) ..
  exact hq

theorem execOccurrenceMissed_keeps {qq : List Instr} {mm : Option Memory} {cc : Option Chip} (s : State) (hq : Keeps ⟨qq, mm, cc⟩ s) :
    KeepsO ⟨qq, mm, cc⟩ (execOccurrenceMissed s) := by
  unfold execOccurrenceMissed
  extract_lets x1
  split
  refine KeepsO.next ?_
  exact hq
  refine KeepsO.next ?_
  refine State.missPend_keeps (hq := ?_) ..
  exact hq

theorem State.modEvo_keeps {qq : List Instr} {mm : Option Memory} {cc : Option Chip} (s : State) (o : Nat) (f : Evo → Evo) (hq : Keeps ⟨qq, mm, cc⟩ s) :
    Keeps ⟨qq, mm, cc⟩ (State.modEvo s o f) := by
  unfold State.modEvo
  refine State.modEvt_keeps (hq := ?_) ..
  exact hq

theorem State.takeEvo_keeps {qq : List Instr} {mm : Option Memory} {cc : Option Chip} (s : State) (code : Nat) (o : Nat) (hq : Keeps ⟨qq, mm, cc⟩ s) :
    KeepsQ ⟨qq, mm, cc⟩ (State.takeEvo s code o) := by
  unfold State.takeEvo
  refine State.takeAction_keeps (hq := ?_) ..
  exact hq

theorem execPulse_keeps {qq : List Instr} {mm : Option Memory} {cc : Option Chip} (o : Fin 32) (s : State) (hq : Keeps ⟨qq, mm, cc⟩ s) :
    KeepsO ⟨qq, mm, cc⟩ (execPulse o s) := by
  unfold execPulse
  split
  refine KeepsO.next ?_
  exact hq
  refine KeepsO.next ?_
  refine State.modEvo_keeps (hq := ?_) ..
  refine KeepsQ.of (by assumption) ?_
  refine State.takeEvo_keeps (hq := ?_) ..
  exact hq

theorem execSet_keeps {qq : List Instr} {mm : Option Memory} {cc : Option Chip} (o : Fin 32) (s : State) (hq : Keeps ⟨qq, mm, cc⟩ s) :
    KeepsO ⟨qq, mm, cc⟩ (execSet o s) := by
  unfold execSet
  split
  refine KeepsO.next ?_
  exact hq
  refine KeepsO.next ?_
  refine State.modEvo_keeps (hq := ?_) ..
  refine KeepsQ.of (by assumption) ?_
  refine State.takeEvo_keeps (hq := ?_) ..
  exact hq

theorem execClear_keeps {qq : List Instr} {mm : Option Memory} {cc : Option Chip} (o : Fin 32) (s : State) (hq : Keeps ⟨qq, mm, cc⟩ s) :
    KeepsO ⟨qq, mm, cc⟩ (execClear o s) := by
  unfold execClear
  split
  refine KeepsO.next ?_
  exact hq
  refine KeepsO.next ?_
  refine State.modEvo_keeps (hq := ?_) ..
  refine KeepsQ.of (by assumption) ?_
  refine State.takeEvo_keeps (hq := ?_) ..
  exact hq

theorem execEvoEdge_keeps {qq : List Instr} {mm : Option Memory} {cc : Option Chip} (o : Fin 32) (s : State) (hq : Keeps ⟨qq, mm, cc⟩ s) :
    KeepsO ⟨qq, mm, cc⟩ (execEvoEdge o s) := by
  unfold execEvoEdge
  extract_lets x1
  refine KeepsO.ite (fun _ => ?_) (fun _ => ?_)
  refine KeepsO.next ?_
  exact hq
  refine KeepsO.next ?_
  refine State.modEvo_keeps (hq := ?_) ..
  exact hq

theorem execIrq_keeps {qq : List Instr} {mm : Option Memory} {cc : Option Chip} (s : State) (hq : Keeps ⟨qq, mm, cc⟩ s) :
    KeepsO ⟨qq, mm, cc⟩ (execIrq s) := by
  unfold execIrq
  split
  refine KeepsO.next ?_
  exact hq
  refine KeepsO.next ?_
  refine State.modEvt_keeps (hq := ?_) ..
  refine KeepsQ.of (by assumption) ?_
  refine State.takeAction_keeps (hq := ?_) ..
  exact hq

theorem State.popIrq_keeps {qq : List Instr} {mm : Option Memory} {cc : Option Chip} (s : State) (hq : Keeps ⟨qq, mm, cc⟩ s) :
    Keeps ⟨qq, mm, cc⟩ (State.popIrq s) := by
  unfold State.popIrq
  split
  refine Keeps.mk_other ?_
  exact hq
  extract_lets x1
  have h2 : Keeps ⟨qq, mm, cc⟩ x1 := ?_
  refine Keeps.mk_other ?_
  exact h2
  dsimp -zeta only [x1]
  refine State.modEvt_keeps (hq := ?_) ..
  exact hq

theorem execEvtIrqPop_keeps {qq : List Instr} {mm : Option Memory} {cc : Option Chip} (x : Accessor) (s : State) (hq : Keeps ⟨qq, mm, cc⟩ s) :
    KeepsO ⟨qq, mm, cc⟩ (execEvtIrqPop x s) := by
  unfold execEvtIrqPop
  refine KeepsO.next ?_
  refine State.popIrq_keeps (hq := ?_) ..
  exact hq

theorem State.refuseEntry_keeps {qq : List Instr} {mm : Option Memory} {cc : Option Chip} (s : State) (k : Nat) (hq : Keeps ⟨qq, mm, cc⟩ s) :
    Keeps ⟨qq, mm, cc⟩ (State.refuseEntry s k) := by
  unfold State.refuseEntry
  extract_lets x1
  refine State.logEv_keeps (hq := ?_) ..
  refine State.raise_keeps (hq := ?_) ..
  exact hq

theorem State.writeEntry_keeps {qq : List Instr} {mm : Option Memory} {cc : Option Chip} (s : State) (k : Nat) (w : Nat) (v : Nat) (hq : Keeps ⟨qq, mm, cc⟩ s) :
    Keeps ⟨qq, mm, cc⟩ (State.writeEntry s k w v) := by
  unfold State.writeEntry
  extract_lets x1 x2 x3 x4
  have h5 : Keeps ⟨qq, mm, cc⟩ x3 := ?_
  have h6 : Keeps ⟨qq, mm, cc⟩ x4 := ?_
  refine Keeps.ite (fun _ => ?_) (fun _ => ?_)
  refine Keeps.ite (fun _ => ?_) (fun _ => ?_)
  refine State.refuseEntry_keeps (hq := ?_) ..
  exact hq
  refine State.setEntry_keeps (hq := ?_) ..
  exact hq
  refine Keeps.ite (fun _ => ?_) (fun _ => ?_)
  refine Keeps.ite (fun _ => ?_) (fun _ => ?_)
  refine State.refuseEntry_keeps (hq := ?_) ..
  exact hq
  refine Keeps.ite (fun _ => ?_) (fun _ => ?_)
  refine State.markJudged_keeps (hq := ?_) ..
  exact h5
  exact h5
  refine State.modEvt_keeps (hq := ?_) ..
  refine State.setEntry_keeps (hq := ?_) ..
  exact h6
  dsimp -zeta only [x4]
  refine Keeps.ite (fun _ => ?_) (fun _ => ?_)
  refine State.missAll_keeps (hq := ?_) ..
  exact hq
  exact hq
  dsimp -zeta only [x3]
  refine State.setEntry_keeps (hq := ?_) ..
  exact hq

theorem execEntryWrite_keeps {qq : List Instr} {mm : Option Memory} {cc : Option Chip} (x : Accessor) (k : Fin 32768) (w : Fin 8) (v : Word) (s : State) (hq : Keeps ⟨qq, mm, cc⟩ s) :
    KeepsO ⟨qq, mm, cc⟩ (execEntryWrite x k w v s) := by
  unfold execEntryWrite
  refine KeepsO.next ?_
  refine State.writeEntry_keeps (hq := ?_) ..
  exact hq

theorem execEntryWithdraw_keeps {qq : List Instr} {mm : Option Memory} {cc : Option Chip} (x : Accessor) (k : Fin 32768) (v : Word) (s : State) (hq : Keeps ⟨qq, mm, cc⟩ s) :
    KeepsO ⟨qq, mm, cc⟩ (execEntryWithdraw x k v s) := by
  unfold execEntryWithdraw
  refine KeepsO.next ?_
  refine State.writeEntry_keeps (hq := ?_) ..
  exact hq

theorem execEntryEnable_keeps {qq : List Instr} {mm : Option Memory} {cc : Option Chip} (x : Accessor) (k : Fin 32768) (v : Word) (s : State) (hq : Keeps ⟨qq, mm, cc⟩ s) :
    KeepsO ⟨qq, mm, cc⟩ (execEntryEnable x k v s) := by
  unfold execEntryEnable
  refine KeepsO.next ?_
  refine State.writeEntry_keeps (hq := ?_) ..
  exact hq

theorem State.startMatcher_keeps {qq : List Instr} {mm : Option Memory} {cc : Option Chip} (s : State) (hq : Keeps ⟨qq, mm, cc⟩ s) :
    Keeps ⟨qq, mm, cc⟩ (State.startMatcher s) := by
  unfold State.startMatcher
  refine State.modEvt_keeps (hq := ?_) ..
  exact hq

theorem State.modFab_keeps {qq : List Instr} {mm : Option Memory} {cc : Option Chip} (s : State) (n : Nat) (f : Fabric → Fabric) (hq : Keeps ⟨qq, mm, cc⟩ s) :
    Keeps ⟨qq, mm, cc⟩ (State.modFab s n f) := by
  unfold State.modFab
  refine State.modRegion_keeps (hq := ?_) ..
  exact hq

theorem State.modCtx_keeps {qq : List Instr} {mm : Option Memory} {cc : Option Chip} (s : State) (n : Nat) (f : CtxUnit → CtxUnit) (hq : Keeps ⟨qq, mm, cc⟩ s) :
    Keeps ⟨qq, mm, cc⟩ (State.modCtx s n f) := by
  unfold State.modCtx
  refine State.modRegion_keeps (hq := ?_) ..
  exact hq

theorem State.ctxLog_keeps {qq : List Instr} {mm : Option Memory} {cc : Option Chip} (s : State) (n : Nat) (code : Nat) (cls : Nat) (status : Nat) (detail : Nat) (stamp : Nat) (hq : Keeps ⟨qq, mm, cc⟩ s) :
    Keeps ⟨qq, mm, cc⟩ (State.ctxLog s n code cls status detail stamp) := by
  unfold State.ctxLog
  refine State.logRec_keeps (hq := ?_) ..
  exact hq

theorem State.ctxRefuse_keeps {qq : List Instr} {mm : Option Memory} {cc : Option Chip} (s : State) (n : Nat) (q : CtxReqst) (reason : Nat) (hq : Keeps ⟨qq, mm, cc⟩ s) :
    Keeps ⟨qq, mm, cc⟩ (State.ctxRefuse s n q reason) := by
  unfold State.ctxRefuse
  refine State.ctxLog_keeps (hq := ?_) ..
  refine State.bump_keeps (hq := ?_) ..
  refine State.raise_keeps (hq := ?_) ..
  exact hq

theorem State.ctxSupersede_keeps {qq : List Instr} {mm : Option Memory} {cc : Option Chip} (s : State) (n : Nat) (q : CtxReqst) (hq : Keeps ⟨qq, mm, cc⟩ s) :
    Keeps ⟨qq, mm, cc⟩ (State.ctxSupersede s n q) := by
  unfold State.ctxSupersede
  refine State.ctxLog_keeps (hq := ?_) ..
  refine State.bump_keeps (hq := ?_) ..
  refine State.raise_keeps (hq := ?_) ..
  exact hq

theorem State.ctxRegister_keeps {qq : List Instr} {mm : Option Memory} {cc : Option Chip} (s : State) (n : Nat) (q : CtxReqst) (hq : Keeps ⟨qq, mm, cc⟩ s) :
    Keeps ⟨qq, mm, cc⟩ (State.ctxRegister s n q) := by
  unfold State.ctxRegister
  refine State.modCtx_keeps (hq := ?_) ..
  exact hq

theorem State.ctxSupervisor_keeps {qq : List Instr} {mm : Option Memory} {cc : Option Chip} (s : State) (n : Nat) (ctx : Nat) (hq : Keeps ⟨qq, mm, cc⟩ s) :
    Keeps ⟨qq, mm, cc⟩ (State.ctxSupervisor s n ctx) := by
  unfold State.ctxSupervisor
  extract_lets x1 x2 x3
  have h4 : Keeps ⟨qq, mm, cc⟩ x3 := ?_
  refine Keeps.ite (fun _ => ?_) (fun _ => ?_)
  refine State.ctxRefuse_keeps (hq := ?_) ..
  exact hq
  refine Keeps.ite (fun _ => ?_) (fun _ => ?_)
  refine State.modCtx_keeps (hq := ?_) ..
  exact h4
  refine State.ctxRegister_keeps (hq := ?_) ..
  exact hq
  dsimp -zeta only [x3]
  split
  refine State.ctxSupersede_keeps (hq := ?_) ..
  exact hq
  exact hq

theorem State.ctxSwitch_keeps {qq : List Instr} {mm : Option Memory} {cc : Option Chip} (s : State) (n : Nat) (q : CtxReqst) (src : Nat) (hq : Keeps ⟨qq, mm, cc⟩ s) :
    Keeps ⟨qq, mm, cc⟩ (State.ctxSwitch s n q src) := by
  unfold State.ctxSwitch
  extract_lets x1 x2 x3
  split
  extract_lets x4 x5 x6 x7
  have h8 : Keeps ⟨qq, mm, cc⟩ x7 := ?_
  refine Keeps.ite (fun _ => ?_) (fun _ => ?_)
  refine State.ctxLog_keeps (hq := ?_) ..
  exact h8
  exact h8
  dsimp -zeta only [x7]
  have h9 : Keeps ⟨qq, mm, cc⟩ x6 := ?_
  refine State.count_keeps (hq := ?_) ..
  exact h9
  dsimp -zeta only [x6]
  have h10 : Keeps ⟨qq, mm, cc⟩ x5 := ?_
  refine State.modCtx_keeps (hq := ?_) ..
  exact h10
  dsimp -zeta only [x5]
  have h11 : Keeps ⟨qq, mm, cc⟩ x4 := ?_
  refine State.modFab_keeps (hq := ?_) ..
  exact h11
  dsimp -zeta only [x4]
  refine State.bump_keeps (hq := ?_) ..
  refine State.bump_keeps (hq := ?_) ..
  exact hq

theorem State.ctxRefuseAll_keeps {qq : List Instr} {mm : Option Memory} {cc : Option Chip} (s : State) (n : Nat) (hq : Keeps ⟨qq, mm, cc⟩ s) :
    Keeps ⟨qq, mm, cc⟩ (State.ctxRefuseAll s n) := by
  unfold State.ctxRefuseAll
  extract_lets x1 x2 x3 x4 x5 x6
  have h7 : Keeps ⟨qq, mm, cc⟩ x6 := ?_
  refine Keeps.foldl (fun t8 y9 h10 => ?_) ?_
  refine State.ctxRefuse_keeps (hq := ?_) ..
  exact h10
  exact h7
  dsimp -zeta only [x6]
  have h11 : Keeps ⟨qq, mm, cc⟩ x5 := ?_
  refine State.modCtx_keeps (hq := ?_) ..
  exact h11
  dsimp -zeta only [x5]
  refine State.modEvt_keeps (hq := ?_) ..
  exact hq

theorem State.ctxRestart_keeps {qq : List Instr} {mm : Option Memory} {cc : Option Chip} (s : State) (n : Nat) (hq : Keeps ⟨qq, mm, cc⟩ s) :
    Keeps ⟨qq, mm, cc⟩ (State.ctxRestart s n) := by
  unfold State.ctxRestart
  extract_lets x1 x2 x3 x4 x5
  have h6 : Keeps ⟨qq, mm, cc⟩ x5 := ?_
  refine Keeps.ite (fun _ => ?_) (fun _ => ?_)
  refine State.ctxLog_keeps (hq := ?_) ..
  exact h6
  exact h6
  dsimp -zeta only [x5]
  have h7 : Keeps ⟨qq, mm, cc⟩ x4 := ?_
  refine State.count_keeps (hq := ?_) ..
  exact h7
  dsimp -zeta only [x4]
  refine State.modCtx_keeps (hq := ?_) ..
  exact hq

theorem execCtx_keeps {qq : List Instr} {mm : Option Memory} {cc : Option Chip} (n : Fin 64) (s : State) (hq : Keeps ⟨qq, mm, cc⟩ s) :
    KeepsO ⟨qq, mm, cc⟩ (execCtx n s) := by
  unfold execCtx
  split
  refine KeepsO.next ?_
  exact hq
  extract_lets x1
  refine KeepsO.next ?_
  refine Keeps.ite (fun _ => ?_) (fun _ => ?_)
  refine State.ctxRefuse_keeps (hq := ?_) ..
  refine KeepsQ.of (by assumption) ?_
  refine State.takeAction_keeps (hq := ?_) ..
  exact hq
  refine State.ctxRegister_keeps (hq := ?_) ..
  refine KeepsQ.of (by assumption) ?_
  refine State.takeAction_keeps (hq := ?_) ..
  exact hq

theorem State.writeCtxReq_keeps {qq : List Instr} {mm : Option Memory} {cc : Option Chip} (s : State) (n : Nat) (v : Nat) (hq : Keeps ⟨qq, mm, cc⟩ s) :
    Keeps ⟨qq, mm, cc⟩ (State.writeCtxReq s n v) := by
  unfold State.writeCtxReq
  refine Keeps.ite (fun _ => ?_) (fun _ => ?_)
  refine State.ctxSupervisor_keeps (hq := ?_) ..
  exact hq
  exact hq

theorem execCtxReq_keeps {qq : List Instr} {mm : Option Memory} {cc : Option Chip} (x : Accessor) (n : Fin 64) (v : Word) (s : State) (hq : Keeps ⟨qq, mm, cc⟩ s) :
    KeepsO ⟨qq, mm, cc⟩ (execCtxReq x n v s) := by
  unfold execCtxReq
  refine KeepsO.next ?_
  refine State.writeCtxReq_keeps (hq := ?_) ..
  exact hq

theorem execCreq_keeps {qq : List Instr} {mm : Option Memory} {cc : Option Chip} (n : Fin 64) (ctx : Fin 8) (s : State) (hq : Keeps ⟨qq, mm, cc⟩ s) :
    KeepsO ⟨qq, mm, cc⟩ (execCreq n ctx s) := by
  unfold execCreq
  refine KeepsO.ite (fun _ => ?_) (fun _ => ?_)
  refine KeepsO.next ?_
  refine State.ctxRegister_keeps (hq := ?_) ..
  exact hq
  refine KeepsO.next ?_
  exact hq

theorem State.ctxEdge_keeps {qq : List Instr} {mm : Option Memory} {cc : Option Chip} (s : State) (n : Nat) (force : Bool) (hq : Keeps ⟨qq, mm, cc⟩ s) :
    Keeps ⟨qq, mm, cc⟩ (State.ctxEdge s n force) := by
  unfold State.ctxEdge
  refine Keeps.ite (fun _ => ?_) (fun _ => ?_)
  exact hq
  extract_lets x1 x2 x3 x4 x5
  have h6 : Keeps ⟨qq, mm, cc⟩ x5 := ?_
  split
  refine State.modCtx_keeps (hq := ?_) ..
  exact h6
  extract_lets x7 x8 x9 x10
  have h11 : Keeps ⟨qq, mm, cc⟩ x7 := ?_
  refine Keeps.ite (fun _ => ?_) (fun _ => ?_)
  refine State.modCtx_keeps (hq := ?_) ..
  exact h11
  split
  extract_lets x12 x13 x14 x15
  have h16 : Keeps ⟨qq, mm, cc⟩ x15 := ?_
  refine Keeps.ite (fun _ => ?_) (fun _ => ?_)
  refine State.modCtx_keeps (hq := ?_) ..
  exact h11
  refine State.modCtx_keeps (hq := ?_) ..
  exact h16
  dsimp -zeta only [x15]
  have h17 : Keeps ⟨qq, mm, cc⟩ x14 := ?_
  refine State.ctxSwitch_keeps (hq := ?_) ..
  exact h17
  dsimp -zeta only [x14]
  have h18 : Keeps ⟨qq, mm, cc⟩ x13 := ?_
  refine Keeps.ite (fun _ => ?_) (fun _ => ?_)
  refine State.ctxLog_keeps (hq := ?_) ..
  exact h18
  exact h18
  dsimp -zeta only [x13]
  refine Keeps.ite (fun _ => ?_) (fun _ => ?_)
  refine State.ctxLog_keeps (hq := ?_) ..
  refine State.raise_keeps (hq := ?_) ..
  exact h11
  exact h11
  dsimp -zeta only [x7]
  refine Keeps.foldl (fun t19 y20 h21 => ?_) ?_
  refine State.ctxSupersede_keeps (hq := ?_) ..
  exact h21
  exact h6
  dsimp -zeta only [x5]
  have h22 : Keeps ⟨qq, mm, cc⟩ x1 := ?_
  refine Keeps.foldl (fun t23 y24 h25 => ?_) ?_
  refine State.ctxRefuse_keeps (hq := ?_) ..
  exact h25
  exact h22
  dsimp -zeta only [x1]
  split
  refine State.ctxRegister_keeps (hq := ?_) ..
  refine State.modCtx_keeps (hq := ?_) ..
  exact hq
  exact hq

theorem execContextSwitch_keeps {qq : List Instr} {mm : Option Memory} {cc : Option Chip} (n : Fin 64) (s : State) (hq : Keeps ⟨qq, mm, cc⟩ s) :
    KeepsO ⟨qq, mm, cc⟩ (execContextSwitch n s) := by
  unfold execContextSwitch
  refine KeepsO.next ?_
  refine Keeps.ite (fun _ => ?_) (fun _ => ?_)
  exact hq
  refine State.ctxEdge_keeps (hq := ?_) ..
  exact hq

theorem execGuardTimeout_keeps {qq : List Instr} {mm : Option Memory} {cc : Option Chip} (n : Fin 64) (s : State) (hq : Keeps ⟨qq, mm, cc⟩ s) :
    KeepsO ⟨qq, mm, cc⟩ (execGuardTimeout n s) := by
  unfold execGuardTimeout
  refine KeepsO.next ?_
  refine Keeps.ite (fun _ => ?_) (fun _ => ?_)
  refine State.ctxEdge_keeps (hq := ?_) ..
  exact hq
  exact hq

theorem Memory.wf_writeBytes (l : List Nat) (f : Nat → Nat) (g : Nat → BitVec 8) (m : Memory) (h : m.wf = true) :
    Memory.wf (l.foldl (fun (m : Memory) i => m.writeByte (f i) (g i)) m) = true := by
  induction l generalizing m with
  | nil => exact h
  | cons a l ih => exact ih _ (Memory.wf_writeByte _ _ _ h)

theorem State.setLineAt_keeps {qq : List Instr} {cc : Option Chip} (s : State) (a : Nat) (d : Line) (syn : Nat) (hq : Keeps ⟨qq, none, cc⟩ s) :
    Keeps ⟨qq, none, cc⟩ (State.setLineAt s a d syn) :=
  ⟨hq.1, ⟨⟨Memory.wf_writeBytes _ _ _ _ hq.2.1.1, hq.2.1.2⟩, hq.2.2⟩, (by intro x e; cases e), hq.4⟩

theorem State.modEcc_keeps {qq : List Instr} {mm : Option Memory} {cc : Option Chip} (s : State) (n : Nat) (f : EccUnit → EccUnit) (hq : Keeps ⟨qq, mm, cc⟩ s) :
    Keeps ⟨qq, mm, cc⟩ (State.modEcc s n f) := by
  unfold State.modEcc
  refine State.modRegion_keeps (hq := ?_) ..
  exact hq

theorem State.modMem_keeps {qq : List Instr} {mm : Option Memory} {cc : Option Chip} (s : State) (n : Nat) (f : MemUnit → MemUnit) (hq : Keeps ⟨qq, mm, cc⟩ s) :
    Keeps ⟨qq, mm, cc⟩ (State.modMem s n f) := by
  unfold State.modMem
  refine State.modRegion_keeps (hq := ?_) ..
  exact hq

theorem State.modEccOf_keeps {qq : List Instr} {mm : Option Memory} {cc : Option Chip} (s : State) (n : Nat) (f : EccUnit → EccUnit) (hq : Keeps ⟨qq, mm, cc⟩ s) :
    Keeps ⟨qq, mm, cc⟩ (State.modEccOf s n f) := by
  unfold State.modEccOf
  refine Keeps.ite (fun _ => ?_) (fun _ => ?_)
  refine Keeps.mk_other ?_
  exact hq
  refine State.modEcc_keeps (hq := ?_) ..
  exact hq

theorem State.logEscalate_keeps {qq : List Instr} {mm : Option Memory} {cc : Option Chip} (s : State) (n : Nat) (mem : Nat) (unit : Nat) (word : Nat) (step : Nat) (hq : Keeps ⟨qq, mm, cc⟩ s) :
    Keeps ⟨qq, mm, cc⟩ (State.logEscalate s n mem unit word step) := by
  unfold State.logEscalate
  extract_lets x1
  have h2 : Keeps ⟨qq, mm, cc⟩ x1 := ?_
  refine State.logEv_keeps (hq := ?_) ..
  exact h2
  dsimp -zeta only [x1]
  refine Keeps.ite (fun _ => ?_) (fun _ => ?_)
  refine State.raise_keeps (hq := ?_) ..
  exact hq
  exact hq

theorem State.startBankCopy_keeps {qq : List Instr} {mm : Option Memory} {cc : Option Chip} (s : State) (n : Nat) (b : Nat) (reason : Nat) (dst : Nat) (hq : Keeps ⟨qq, mm, cc⟩ s) :
    Keeps ⟨qq, mm, cc⟩ (State.startBankCopy s n b reason dst) := by
  unfold State.startBankCopy
  refine Keeps.ite (fun _ => ?_) (fun _ => ?_)
  extract_lets x1
  have h2 : Keeps ⟨qq, mm, cc⟩ x1 := ?_
  refine State.modMem_keeps (hq := ?_) ..
  exact h2
  dsimp -zeta only [x1]
  refine State.wr_keeps (hq := ?_) ..
  refine State.wr_keeps (hq := ?_) ..
  refine State.wr_keeps (hq := ?_) ..
  refine State.wr_keeps (hq := ?_) ..
  exact hq
  refine State.modMem_keeps (hq := ?_) ..
  exact hq

theorem State.journal_keeps {qq : List Instr} {mm : Option Memory} {cc : Option Chip} (s : State) (unit : Nat) (typ : Nat) (arg : Nat) (hq : Keeps ⟨qq, mm, cc⟩ s) :
    Keeps ⟨qq, mm, cc⟩ (State.journal s unit typ arg) := by
  unfold State.journal
  refine Keeps.ite (fun _ => ?_) (fun _ => ?_)
  refine State.bump_keeps (hq := ?_) ..
  exact hq
  refine Keeps.mk_other ?_
  exact hq

theorem State.degrade_keeps {qq : List Instr} {mm : Option Memory} {cc : Option Chip} (s : State) (hq : Keeps ⟨qq, mm, cc⟩ s) :
    Keeps ⟨qq, mm, cc⟩ (State.degrade s) := Keeps.mk_chip_same hq rfl

theorem State.modEng_keeps {qq : List Instr} {mm : Option Memory} {cc : Option Chip} (s : State) (id : EngId) (f : Engine → Engine) (hq : Keeps ⟨qq, mm, cc⟩ s) :
    Keeps ⟨qq, mm, cc⟩ (State.modEng s id f) := by
  unfold State.modEng
  split
  refine State.modRegion_keeps (hq := ?_) ..
  exact hq
  refine Keeps.mk_other ?_
  exact hq

theorem State.markFailed_keeps {qq : List Instr} {mm : Option Memory} {cc : Option Chip} (s : State) (n : Nat) (e : Nat) (hq : Keeps ⟨qq, mm, cc⟩ s) :
    Keeps ⟨qq, mm, cc⟩ (State.markFailed s n e) := by
  unfold State.markFailed
  refine Keeps.ite (fun _ => ?_) (fun _ => ?_)
  exact hq
  extract_lets x1 x2
  have h3 : Keeps ⟨qq, mm, cc⟩ x1 := ?_
  refine Keeps.mk_other ?_
  exact h3
  dsimp -zeta only [x1]
  refine State.modEng_keeps (hq := ?_) ..
  exact hq

theorem State.escalateBank_keeps {qq : List Instr} {mm : Option Memory} {cc : Option Chip} (s : State) (n : Nat) (p : Nat) (word : Nat) (k : Nat) (hq : Keeps ⟨qq, mm, cc⟩ s) :
    Keeps ⟨qq, mm, cc⟩ (State.escalateBank s n p word k) := by
  unfold State.escalateBank
  extract_lets x1 x2 x3
  have h4 : Keeps ⟨qq, mm, cc⟩ x3 := ?_
  refine Keeps.ite (fun _ => ?_) (fun _ => ?_)
  refine Keeps.ite (fun _ => ?_) (fun _ => ?_)
  refine State.logEscalate_keeps (hq := ?_) ..
  refine State.modEcc_keeps (hq := ?_) ..
  exact h4
  refine State.logEscalate_keeps (hq := ?_) ..
  refine State.modEcc_keeps (hq := ?_) ..
  exact hq
  split
  refine State.modMem_keeps (hq := ?_) ..
  exact hq
  refine Keeps.ite (fun _ => ?_) (fun _ => ?_)
  exact hq
  split
  refine State.logEscalate_keeps (hq := ?_) ..
  refine State.startBankCopy_keeps (hq := ?_) ..
  exact hq
  refine State.journal_keeps (hq := ?_) ..
  refine State.logEscalate_keeps (hq := ?_) ..
  refine State.degrade_keeps (hq := ?_) ..
  refine State.wr_keeps (hq := ?_) ..
  exact hq
  dsimp -zeta only [x3]
  refine Keeps.ite (fun _ => ?_) (fun _ => ?_)
  exact hq
  refine State.modMem_keeps (hq := ?_) ..
  exact hq

theorem State.correction_keeps {qq : List Instr} {mm : Option Memory} {cc : Option Chip} (s : State) (n : Nat) (mem : Nat) (unit : Nat) (word : Nat) (spare : Bool) (synd : Nat) (patrol : Bool) (hq : Keeps ⟨qq, mm, cc⟩ s) :
    Keeps ⟨qq, mm, cc⟩ (State.correction s n mem unit word spare synd patrol) := by
  unfold State.correction
  extract_lets x1 x2 x3 x4 x5 x6
  have h7 : Keeps ⟨qq, mm, cc⟩ x2 := ?_
  have h8 : Keeps ⟨qq, mm, cc⟩ x6 := ?_
  split
  extract_lets x9
  have h10 : Keeps ⟨qq, mm, cc⟩ x9 := ?_
  refine Keeps.ite (fun _ => ?_) (fun _ => ?_)
  exact h10
  split
  extract_lets x11
  have h12 : Keeps ⟨qq, mm, cc⟩ x11 := ?_
  refine Keeps.ite (fun _ => ?_) (fun _ => ?_)
  refine Keeps.ite (fun _ => ?_) (fun _ => ?_)
  refine State.logEv_keeps (hq := ?_) ..
  exact h12
  refine Keeps.ite (fun _ => ?_) (fun _ => ?_)
  refine State.escalateBank_keeps (hq := ?_) ..
  exact h12
  refine Keeps.ite (fun _ => ?_) (fun _ => ?_)
  exact h12
  refine State.logEscalate_keeps (hq := ?_) ..
  refine State.markFailed_keeps (hq := ?_) ..
  exact h12
  exact h12
  dsimp -zeta only [x11]
  refine Keeps.ite (fun _ => ?_) (fun _ => ?_)
  refine State.modEccOf_keeps (hq := ?_) ..
  exact h10
  exact h10
  dsimp -zeta only [x9]
  refine State.modEccOf_keeps (hq := ?_) ..
  refine Keeps.trd_eq (by assumption) ?_
  split
  split
  exact h7
  extract_lets x13
  exact h7
  split
  extract_lets x14 x15
  have h16 : Keeps ⟨qq, mm, cc⟩ x14 := ?_
  exact h16
  dsimp -zeta only [x14]
  refine Keeps.ite (fun _ => ?_) (fun _ => ?_)
  refine State.logEvLimited_keeps (hq := ?_) ..
  exact h8
  exact h7
  dsimp -zeta only [x6]
  refine State.bump_keeps (hq := ?_) ..
  exact h7
  dsimp -zeta only [x2]
  have h17 : Keeps ⟨qq, mm, cc⟩ x1 := ?_
  refine Keeps.ite (fun _ => ?_) (fun _ => ?_)
  refine State.logEvLimited_keeps (hq := ?_) ..
  exact h17
  exact h17
  dsimp -zeta only [x1]
  refine Keeps.ite (fun _ => ?_) (fun _ => ?_)
  refine State.count_keeps (hq := ?_) ..
  exact hq
  exact hq

theorem State.uncorrectable_keeps {qq : List Instr} {mm : Option Memory} {cc : Option Chip} (s : State) (n : Nat) (mem : Nat) (unit : Nat) (word : Nat) (synd : Nat) (patrol : Bool) (hq : Keeps ⟨qq, mm, cc⟩ s) :
    Keeps ⟨qq, mm, cc⟩ (State.uncorrectable s n mem unit word synd patrol) := by
  unfold State.uncorrectable
  extract_lets x1 x2
  have h3 : Keeps ⟨qq, mm, cc⟩ x2 := ?_
  refine State.modEccOf_keeps (hq := ?_) ..
  exact h3
  dsimp -zeta only [x2]
  have h4 : Keeps ⟨qq, mm, cc⟩ x1 := ?_
  refine State.logEvLimited_keeps (hq := ?_) ..
  exact h4
  dsimp -zeta only [x1]
  refine Keeps.ite (fun _ => ?_) (fun _ => ?_)
  refine State.raise_keeps (hq := ?_) ..
  refine State.count_keeps (hq := ?_) ..
  exact hq
  exact hq

theorem State.bankRead_keeps {qq : List Instr} {mm : Option Memory} {cc : Option Chip} (s : State) (n : Nat) (p : Nat) (w : Nat) (patrol : Bool) (hq : Keeps ⟨qq, mm, cc⟩ s) :
    Keeps ⟨qq, mm, cc⟩ (State.bankRead s n p w patrol).2.2.2 := by
  unfold State.bankRead
  extract_lets x1 x2 x3 x4 x5 x6
  have h7 : Keeps ⟨qq, mm, cc⟩ x6 := ?_
  split
  exact h7
  dsimp -zeta only [x6]
  refine Keeps.ite (fun _ => ?_) (fun _ => ?_)
  refine State.correction_keeps (hq := ?_) ..
  exact hq
  refine Keeps.ite (fun _ => ?_) (fun _ => ?_)
  refine State.uncorrectable_keeps (hq := ?_) ..
  exact hq
  exact hq

theorem State.bankWrite_keeps {qq : List Instr} {cc : Option Chip} (s : State) (n : Nat) (p : Nat) (w : Nat) (d : Line) (poison : Bool) (hq : Keeps ⟨qq, none, cc⟩ s) :
    Keeps ⟨qq, none, cc⟩ (State.bankWrite s n p w d poison) := by
  unfold State.bankWrite
  extract_lets x1 x2
  split
  extract_lets x3 x4
  have h5 : Keeps ⟨qq, none, cc⟩ x4 := ?_
  refine Keeps.ite (fun _ => ?_) (fun _ => ?_)
  refine State.setLineAt_keeps (hq := ?_) ..
  exact h5
  exact h5
  dsimp -zeta only [x4]
  have h6 : Keeps ⟨qq, none, cc⟩ x3 := ?_
  refine State.modEcc_keeps (hq := ?_) ..
  exact h6
  dsimp -zeta only [x3]
  refine State.setLineAt_keeps (hq := ?_) ..
  refine Keeps.trd_eq (by assumption) ?_
  split
  split
  split
  dsimp -zeta only
  refine State.modEcc_keeps (hq := ?_) ..
  exact hq
  exact hq
  exact hq

theorem State.engRead_keeps {qq : List Instr} {mm : Option Memory} {cc : Option Chip} (s : State) (id : EngId) (m : Nat) (a : Nat) (patrol : Bool) (hq : Keeps ⟨qq, mm, cc⟩ s) :
    Keeps ⟨qq, mm, cc⟩ (State.engRead s id m a patrol).2.2 := by
  unfold State.engRead
  extract_lets x1 x2 x3 x4 x5 x6
  split
  exact hq
  split
  split
  extract_lets x7
  have h8 : Keeps ⟨qq, mm, cc⟩ x7 := ?_
  exact h8
  dsimp -zeta only [x7]
  refine Keeps.ite (fun _ => ?_) (fun _ => ?_)
  refine State.correction_keeps (hq := ?_) ..
  exact hq
  refine Keeps.ite (fun _ => ?_) (fun _ => ?_)
  refine State.uncorrectable_keeps (hq := ?_) ..
  exact hq
  exact hq

theorem State.engStore_keeps {qq : List Instr} {mm : Option Memory} {cc : Option Chip} (s : State) (id : EngId) (m : Nat) (a : Nat) (v : Nat) (tag : Bool) (hq : Keeps ⟨qq, mm, cc⟩ s) :
    Keeps ⟨qq, mm, cc⟩ (State.engStore s id m a v tag) := by
  unfold State.engStore
  split
  extract_lets x1 x2
  have h3 : Keeps ⟨qq, mm, cc⟩ x2 := ?_
  refine State.modEccOf_keeps (hq := ?_) ..
  exact h3
  dsimp -zeta only [x2]
  refine State.modEng_keeps (hq := ?_) ..
  exact hq

theorem State.engStoreP_keeps {qq : List Instr} {mm : Option Memory} {cc : Option Chip} (s : State) (id : EngId) (a : Nat) (v : Nat) (poison : Bool) (hq : Keeps ⟨qq, mm, cc⟩ s) :
    Keeps ⟨qq, mm, cc⟩ (State.engStoreP s id a v poison) := by
  unfold State.engStoreP
  split
  extract_lets x1
  have h2 : Keeps ⟨qq, mm, cc⟩ x1 := ?_
  refine State.modEccOf_keeps (hq := ?_) ..
  exact h2
  dsimp -zeta only [x1]
  refine State.modEng_keeps (hq := ?_) ..
  exact hq

theorem State.modNet_keeps {qq : List Instr} {mm : Option Memory} {cc : Option Chip} (s : State) (f : Net → Net) (hq : Keeps ⟨qq, mm, cc⟩ s) :
    Keeps ⟨qq, mm, cc⟩ (State.modNet s f) := by
  unfold State.modNet
  refine Keeps.mk_other ?_
  exact hq

theorem State.modNi_keeps {qq : List Instr} {mm : Option Memory} {cc : Option Chip} (s : State) (i : Nat) (f : Ni → Ni) (hq : Keeps ⟨qq, mm, cc⟩ s) :
    Keeps ⟨qq, mm, cc⟩ (State.modNi s i f) := by
  unfold State.modNi
  refine State.modNet_keeps (hq := ?_) ..
  exact hq

theorem State.setMask64_keeps {qq : List Instr} {mm : Option Memory} {cc : Option Chip} (s : State) (lo : Fld) (hi : Fld) (n : Nat) (v : Bool) (hq : Keeps ⟨qq, mm, cc⟩ s) :
    Keeps ⟨qq, mm, cc⟩ (State.setMask64 s lo hi n v) := by
  unfold State.setMask64
  extract_lets x1
  refine Keeps.ite (fun _ => ?_) (fun _ => ?_)
  dsimp -zeta only [x1]
  refine State.wr_keeps (hq := ?_) ..
  exact hq
  dsimp -zeta only [x1]
  refine State.wr_keeps (hq := ?_) ..
  exact hq

theorem State.enqueue_keeps {qq : List Instr} {mm : Option Memory} {cc : Option Chip} (s : State) (key : Nat) (p : Packet) (hq : Keeps ⟨qq, mm, cc⟩ s) :
    Keeps ⟨qq, mm, cc⟩ (State.enqueue s key p) := by
  unfold State.enqueue
  refine State.modNet_keeps (hq := ?_) ..
  exact hq

theorem State.dequeue_keeps {qq : List Instr} {mm : Option Memory} {cc : Option Chip} (s : State) (key : Nat) (hq : Keeps ⟨qq, mm, cc⟩ s) :
    Keeps ⟨qq, mm, cc⟩ (State.dequeue s key) := by
  unfold State.dequeue
  refine State.modNet_keeps (hq := ?_) ..
  exact hq

theorem State.krlRxDrop_keeps {qq : List Instr} {mm : Option Memory} {cc : Option Chip} (s : State) (tid : Nat) (addr : Nat) (status : Nat) (hq : Keeps ⟨qq, mm, cc⟩ s) :
    Keeps ⟨qq, mm, cc⟩ (State.krlRxDrop s tid addr status) := by
  unfold State.krlRxDrop
  refine State.logEvLimited_keeps (hq := ?_) ..
  refine State.bump_keeps (hq := ?_) ..
  exact hq

theorem State.dropArrives_keeps {qq : List Instr} {mm : Option Memory} {cc : Option Chip} (s : State) (i : Nat) (addr : Nat) (status : Nat) (tid : Nat) (hq : Keeps ⟨qq, mm, cc⟩ s) :
    Keeps ⟨qq, mm, cc⟩ (State.dropArrives s i addr status tid) := by
  unfold State.dropArrives
  extract_lets x1 x2 x3 x4
  have h5 : Keeps ⟨qq, mm, cc⟩ x4 := ?_
  refine State.logEvLimited_keeps (hq := ?_) ..
  exact h5
  dsimp -zeta only [x4]
  have h6 : Keeps ⟨qq, mm, cc⟩ x3 := ?_
  refine State.modNi_keeps (hq := ?_) ..
  exact h6
  dsimp -zeta only [x3]
  have h7 : Keeps ⟨qq, mm, cc⟩ x2 := ?_
  refine Keeps.ite (fun _ => ?_) (fun _ => ?_)
  refine State.raise_keeps (hq := ?_) ..
  exact h7
  exact h7
  dsimp -zeta only [x2]
  have h8 : Keeps ⟨qq, mm, cc⟩ x1 := ?_
  refine State.bump_keeps (hq := ?_) ..
  exact h8
  dsimp -zeta only [x1]
  refine Keeps.ite (fun _ => ?_) (fun _ => ?_)
  refine State.krlRxDrop_keeps (hq := ?_) ..
  exact hq
  exact hq

theorem State.sendBack_keeps {qq : List Instr} {mm : Option Memory} {cc : Option Chip} (s : State) (i : Nat) (p : Packet) (dst : Nat) (hq : Keeps ⟨qq, mm, cc⟩ s) :
    Keeps ⟨qq, mm, cc⟩ (State.sendBack s i p dst) := by
  unfold State.sendBack
  extract_lets x1 x2 x3 x4 x5 x6
  refine Keeps.ite (fun _ => ?_) (fun _ => ?_)
  exact hq
  refine Keeps.ite (fun _ => ?_) (fun _ => ?_)
  exact hq
  refine State.enqueue_keeps (hq := ?_) ..
  exact hq

theorem State.closedPacket_keeps {qq : List Instr} {mm : Option Memory} {cc : Option Chip} (s : State) (n : Nat) (hq : Keeps ⟨qq, mm, cc⟩ s) :
    Keeps ⟨qq, mm, cc⟩ (State.closedPacket s n) := by
  unfold State.closedPacket
  refine Keeps.ite (fun _ => ?_) (fun _ => ?_)
  refine State.modRegion_keeps (hq := ?_) ..
  exact hq
  exact hq

theorem State.sendDrop_keeps {qq : List Instr} {mm : Option Memory} {cc : Option Chip} (s : State) (i : Nat) (p : Packet) (status : Nat) (hq : Keeps ⟨qq, mm, cc⟩ s) :
    Keeps ⟨qq, mm, cc⟩ (State.sendDrop s i p status) := by
  unfold State.sendDrop
  extract_lets x1
  have h2 : Keeps ⟨qq, mm, cc⟩ x1 := ?_
  refine Keeps.ite (fun _ => ?_) (fun _ => ?_)
  refine State.bump_keeps (hq := ?_) ..
  exact h2
  refine Keeps.ite (fun _ => ?_) (fun _ => ?_)
  refine State.dropArrives_keeps (hq := ?_) ..
  exact h2
  refine State.sendBack_keeps (hq := ?_) ..
  exact h2
  dsimp -zeta only [x1]
  refine State.closedPacket_keeps (hq := ?_) ..
  exact hq

theorem State.dropAt_keeps {qq : List Instr} {mm : Option Memory} {cc : Option Chip} (s : State) (i : Nat) (p : Packet) (status : Nat) (hq : Keeps ⟨qq, mm, cc⟩ s) :
    Keeps ⟨qq, mm, cc⟩ (State.dropAt s i p status) := by
  unfold State.dropAt
  refine State.sendDrop_keeps (hq := ?_) ..
  refine Keeps.ite (fun _ => ?_) (fun _ => ?_)
  exact hq
  refine State.closedPacket_keeps (hq := ?_) ..
  exact hq

theorem State.inject_keeps {qq : List Instr} {mm : Option Memory} {cc : Option Chip} (s : State) (i : Nat) (p : Packet) (hq : Keeps ⟨qq, mm, cc⟩ s) :
    Keeps ⟨qq, mm, cc⟩ (State.inject s i p) := by
  unfold State.inject
  extract_lets x1
  refine Keeps.ite (fun _ => ?_) (fun _ => ?_)
  refine Keeps.ite (fun _ => ?_) (fun _ => ?_)
  refine State.dropArrives_keeps (hq := ?_) ..
  exact hq
  exact hq
  refine State.enqueue_keeps (hq := ?_) ..
  exact hq

theorem State.netRequest_keeps {qq : List Instr} {mm : Option Memory} {cc : Option Chip} (s : State) (i : Nat) (a : NetAsk) (hq : Keeps ⟨qq, mm, cc⟩ s) :
    Keeps ⟨qq, mm, cc⟩ (State.netRequest s i a) := by
  unfold State.netRequest
  extract_lets x1 x2
  refine Keeps.ite (fun _ => ?_) (fun _ => ?_)
  refine State.modNi_keeps (hq := ?_) ..
  exact hq
  split
  refine State.modNi_keeps (hq := ?_) ..
  refine State.bump_keeps (hq := ?_) ..
  exact hq
  split
  refine State.modNi_keeps (hq := ?_) ..
  exact hq
  extract_lets x3
  have h4 : Keeps ⟨qq, mm, cc⟩ x3 := ?_
  refine State.inject_keeps (hq := ?_) ..
  exact h4
  dsimp -zeta only [x3]
  refine State.modNi_keeps (hq := ?_) ..
  refine State.count_keeps (hq := ?_) ..
  exact hq

theorem State.nextRequest_keeps {qq : List Instr} {mm : Option Memory} {cc : Option Chip} (s : State) (i : Nat) (hq : Keeps ⟨qq, mm, cc⟩ s) :
    Keeps ⟨qq, mm, cc⟩ (State.nextRequest s i) := by
  unfold State.nextRequest
  split
  exact hq
  refine State.netRequest_keeps (hq := ?_) ..
  refine State.modNi_keeps (hq := ?_) ..
  exact hq

theorem State.respond_keeps {qq : List Instr} {mm : Option Memory} {cc : Option Chip} (s : State) (i : Nat) (p : Packet) (status : Nat) (data : List Line) (psn : Nat) (hq : Keeps ⟨qq, mm, cc⟩ s) :
    Keeps ⟨qq, mm, cc⟩ (State.respond s i p status data psn) := by
  unfold State.respond
  extract_lets x1 x2 x3
  refine State.sendBack_keeps (hq := ?_) ..
  exact hq

theorem State.physAccess_keeps {qq : List Instr} {cc : Option Chip} (s : State) (n : Nat) (p : Nat) (op : BankOp) (w : Nat) (mask : Nat) (d : Line) (psn : Bool) (hq : Keeps ⟨qq, none, cc⟩ s) :
    Keeps ⟨qq, none, cc⟩ (State.physAccess s n p op w mask d psn).2 := by
  unfold State.physAccess
  split
  split
  dsimp -zeta only
  refine Keeps.fth_eq (by assumption) ?_
  refine State.bankRead_keeps (hq := ?_) ..
  exact hq
  split
  dsimp -zeta only
  refine State.bankWrite_keeps (hq := ?_) ..
  exact hq
  split
  dsimp -zeta only
  refine State.bankWrite_keeps (hq := ?_) ..
  refine Keeps.fth_eq (by assumption) ?_
  refine State.bankRead_keeps (hq := ?_) ..
  exact hq
  split
  exact hq
  split
  extract_lets x1 x2 x3
  split
  dsimp -zeta only
  refine Keeps.fth_eq (by assumption) ?_
  refine State.bankRead_keeps (hq := ?_) ..
  exact hq
  dsimp -zeta only
  refine State.bankWrite_keeps (hq := ?_) ..
  refine Keeps.fth_eq (by assumption) ?_
  refine State.bankRead_keeps (hq := ?_) ..
  exact hq

theorem State.bankAccess_keeps {qq : List Instr} {cc : Option Chip} (s : State) (n : Nat) (b : Nat) (op : BankOp) (w : Nat) (mask : Nat) (d : Line) (psn : Bool) (hq : Keeps ⟨qq, none, cc⟩ s) :
    Keeps ⟨qq, none, cc⟩ (State.bankAccess s n b op w mask d psn).2 := by
  unfold State.bankAccess
  split
  exact hq
  refine State.physAccess_keeps (hq := ?_) ..
  exact hq

theorem State.answerOwner_keeps {qq : List Instr} {mm : Option Memory} {cc : Option Chip} (s : State) (n : Nat) (hq : Keeps ⟨qq, mm, cc⟩ s) :
    Keeps ⟨qq, mm, cc⟩ (State.answerOwner s n) := by
  unfold State.answerOwner
  refine State.bump_keeps (hq := ?_) ..
  refine State.raise_keeps (hq := ?_) ..
  exact hq

theorem State.bankWords_keeps {qq : List Instr} {cc : Option Chip} (s : State) (n b : Nat) (op : BankOp) (p : Packet) (w : Nat) (l : List Nat)
    (hq : Keeps ⟨qq, none, cc⟩ s) : Keeps ⟨qq, none, cc⟩ (s.bankWords n b op p w l).2.2.2 := by
  induction l generalizing s with
  | nil => exact hq
  | cons i rest ih => exact ih _ (State.bankAccess_keeps (hq := hq) ..)

theorem State.bankServe_keeps {qq : List Instr} {cc : Option Chip} (s : State) (n : Nat) (p : Packet) (hq : Keeps ⟨qq, none, cc⟩ s) :
    Keeps ⟨qq, none, cc⟩ (State.bankServe s n p) := by
  unfold State.bankServe
  split
  refine State.respond_keeps (hq := ?_) ..
  exact hq
  split
  refine State.respond_keeps (hq := ?_) ..
  refine Keeps.fth_eq (by assumption) ?_
  refine State.bankWords_keeps (hq := ?_) ..
  exact hq

theorem State.bankRequest_keeps {qq : List Instr} {cc : Option Chip} (s : State) (n : Nat) (p : Packet) (hq : Keeps ⟨qq, none, cc⟩ s) :
    Keeps ⟨qq, none, cc⟩ (State.bankRequest s n p) := by
  unfold State.bankRequest
  extract_lets x1
  split
  refine State.respond_keeps (hq := ?_) ..
  exact hq
  refine Keeps.ite (fun _ => ?_) (fun _ => ?_)
  refine State.respond_keeps (hq := ?_) ..
  exact hq
  refine Keeps.ite (fun _ => ?_) (fun _ => ?_)
  refine Keeps.ite (fun _ => ?_) (fun _ => ?_)
  refine State.modMem_keeps (hq := ?_) ..
  exact hq
  refine State.bankServe_keeps (hq := ?_) ..
  exact hq
  refine Keeps.ite (fun _ => ?_) (fun _ => ?_)
  refine Keeps.ite (fun _ => ?_) (fun _ => ?_)
  refine State.respond_keeps (hq := ?_) ..
  refine State.answerOwner_keeps (hq := ?_) ..
  refine State.raise_keeps (hq := ?_) ..
  exact hq
  refine State.modMem_keeps (hq := ?_) ..
  exact hq
  refine State.respond_keeps (hq := ?_) ..
  refine State.answerOwner_keeps (hq := ?_) ..
  exact hq

theorem State.refuseOwn_keeps {qq : List Instr} {mm : Option Memory} {cc : Option Chip} (s : State) (n : Nat) (b : Nat) (reason : Nat) (hq : Keeps ⟨qq, mm, cc⟩ s) :
    Keeps ⟨qq, mm, cc⟩ (State.refuseOwn s n b reason) := by
  unfold State.refuseOwn
  extract_lets x1
  have h2 : Keeps ⟨qq, mm, cc⟩ x1 := ?_
  refine Keeps.mk_other ?_
  exact h2
  dsimp -zeta only [x1]
  refine State.logEv_keeps (hq := ?_) ..
  refine State.raise_keeps (hq := ?_) ..
  exact hq

theorem State.setSteal_keeps {qq : List Instr} {mm : Option Memory} {cc : Option Chip} (s : State) (n : Nat) (b : Nat) (v : Nat) (hq : Keeps ⟨qq, mm, cc⟩ s) :
    Keeps ⟨qq, mm, cc⟩ (State.setSteal s n b v) := by
  unfold State.setSteal
  extract_lets x1 x2 x3
  have h4 : Keeps ⟨qq, mm, cc⟩ x1 := ?_
  have h5 : Keeps ⟨qq, mm, cc⟩ x3 := ?_
  refine Keeps.ite (fun _ => ?_) (fun _ => ?_)
  refine Keeps.foldl (fun t6 y7 h8 => ?_) ?_
  refine State.respond_keeps (hq := ?_) ..
  refine State.answerOwner_keeps (hq := ?_) ..
  exact h8
  exact h5
  exact h4
  dsimp -zeta only [x3]
  refine State.modMem_keeps (hq := ?_) ..
  exact h4
  dsimp -zeta only [x1]
  refine State.wr_keeps (hq := ?_) ..
  exact hq

theorem State.writeOwn_keeps {qq : List Instr} {mm : Option Memory} {cc : Option Chip} (s : State) (plc : Bool) (n : Nat) (b : Nat) (v : Nat) (hq : Keeps ⟨qq, mm, cc⟩ s) :
    Keeps ⟨qq, mm, cc⟩ (State.writeOwn s plc n b v) := by
  unfold State.writeOwn
  extract_lets x1 x2 x3 x4 x5 x6 x7 x8 x9
  have h10 : Keeps ⟨qq, mm, cc⟩ x9 := ?_
  refine Keeps.ite (fun _ => ?_) (fun _ => ?_)
  refine State.refuseOwn_keeps (hq := ?_) ..
  exact hq
  refine Keeps.ite (fun _ => ?_) (fun _ => ?_)
  refine State.refuseOwn_keeps (hq := ?_) ..
  exact hq
  refine Keeps.ite (fun _ => ?_) (fun _ => ?_)
  refine State.refuseOwn_keeps (hq := ?_) ..
  exact hq
  refine Keeps.mk_other ?_
  exact h10
  dsimp -zeta only [x9]
  have h11 : Keeps ⟨qq, mm, cc⟩ x6 := ?_
  have h12 : Keeps ⟨qq, mm, cc⟩ x8 := ?_
  refine Keeps.ite (fun _ => ?_) (fun _ => ?_)
  refine State.modMem_keeps (hq := ?_) ..
  refine State.count_keeps (hq := ?_) ..
  exact h12
  exact h11
  dsimp -zeta only [x8]
  refine State.wr_keeps (hq := ?_) ..
  refine State.wr_keeps (hq := ?_) ..
  refine State.wr_keeps (hq := ?_) ..
  exact h11
  dsimp -zeta only [x6]
  refine State.setSteal_keeps (hq := ?_) ..
  exact hq

theorem State.endHandover_keeps {qq : List Instr} {cc : Option Chip} (s : State) (n : Nat) (b : Nat) (hq : Keeps ⟨qq, none, cc⟩ s) :
    Keeps ⟨qq, none, cc⟩ (State.endHandover s n b) := by
  unfold State.endHandover
  split
  exact hq
  refine Keeps.ite (fun _ => ?_) (fun _ => ?_)
  exact hq
  extract_lets x1 x2 x3 x4
  have h5 : Keeps ⟨qq, none, cc⟩ x4 := ?_
  refine Keeps.foldl (fun t6 y7 h8 => ?_) ?_
  refine State.bankServe_keeps (hq := ?_) ..
  exact h8
  exact h5
  dsimp -zeta only [x4]
  have h9 : Keeps ⟨qq, none, cc⟩ x2 := ?_
  refine State.modMem_keeps (hq := ?_) ..
  exact h9
  dsimp -zeta only [x2]
  have h10 : Keeps ⟨qq, none, cc⟩ x1 := ?_
  refine Keeps.ite (fun _ => ?_) (fun _ => ?_)
  refine State.logEv_keeps (hq := ?_) ..
  exact h10
  exact h10
  dsimp -zeta only [x1]
  refine State.wr_keeps (hq := ?_) ..
  exact hq

theorem State.useRow_keeps {qq : List Instr} {mm : Option Memory} {cc : Option Chip} (s : State) (n : Nat) (p : Nat) (row : Nat) (k : Nat) (hq : Keeps ⟨qq, mm, cc⟩ s) :
    Keeps ⟨qq, mm, cc⟩ (State.useRow s n p row k) := by
  unfold State.useRow
  extract_lets x1
  have h2 : Keeps ⟨qq, mm, cc⟩ x1 := ?_
  refine State.wr_keeps (hq := ?_) ..
  refine State.wr_keeps (hq := ?_) ..
  exact h2
  dsimp -zeta only [x1]
  refine State.modMem_keeps (hq := ?_) ..
  exact hq

theorem State.remapRow_keeps {qq : List Instr} {cc : Option Chip} (s : State) (n : Nat) (hq : Keeps ⟨qq, none, cc⟩ s) :
    Keeps ⟨qq, none, cc⟩ (State.remapRow s n) := by
  unfold State.remapRow
  split
  exact hq
  extract_lets x1 x2 x3 x4 x5 x6 x7
  have h8 : Keeps ⟨qq, none, cc⟩ x1 := ?_
  have h9 : Keeps ⟨qq, none, cc⟩ x7 := ?_
  refine Keeps.ite (fun _ => ?_) (fun _ => ?_)
  exact h8
  refine State.journal_keeps (hq := ?_) ..
  refine State.logEv_keeps (hq := ?_) ..
  exact h9
  dsimp -zeta only [x7]
  have h10 : Keeps ⟨qq, none, cc⟩ x6 := ?_
  refine State.useRow_keeps (hq := ?_) ..
  exact h10
  dsimp -zeta only [x6]
  have h11 : Keeps ⟨qq, none, cc⟩ x4 := ?_
  refine State.modEcc_keeps (hq := ?_) ..
  exact h11
  dsimp -zeta only [x4]
  refine Keeps.foldl (fun t12 y13 h14 => ?_) ?_
  extract_lets x15 x16
  refine State.setLineAt_keeps (hq := ?_) ..
  exact h14
  exact h8
  dsimp -zeta only [x1]
  refine State.modMem_keeps (hq := ?_) ..
  exact hq

theorem State.clearBank_keeps {qq : List Instr} {cc : Option Chip} (s : State) (n : Nat) (p : Nat) (hq : Keeps ⟨qq, none, cc⟩ s) :
    Keeps ⟨qq, none, cc⟩ (State.clearBank s n p) := ⟨hq.1, ⟨⟨Tbl.wf_filter _ _ _ hq.2.1.1, hq.2.1.2⟩, hq.2.2⟩, (by intro x e; cases e), hq.4⟩

theorem State.bankCopied_keeps {qq : List Instr} {cc : Option Chip} (s : State) (n : Nat) (hq : Keeps ⟨qq, none, cc⟩ s) :
    Keeps ⟨qq, none, cc⟩ (State.bankCopied s n) := by
  unfold State.bankCopied
  extract_lets x1 x2 x3 x4 x5
  have h6 : Keeps ⟨qq, none, cc⟩ x5 := ?_
  refine State.wr_keeps (hq := ?_) ..
  refine State.wr_keeps (hq := ?_) ..
  exact h6
  dsimp -zeta only [x5]
  have h7 : Keeps ⟨qq, none, cc⟩ x4 := ?_
  refine Keeps.foldl (fun t8 y9 h10 => ?_) ?_
  split
  exact h10
  extract_lets x11 x12
  refine Keeps.ite (fun _ => ?_) (fun _ => ?_)
  refine State.setLineAt_keeps (hq := ?_) ..
  exact h10
  exact h10
  exact h7
  dsimp -zeta only [x4]
  refine State.clearBank_keeps (hq := ?_) ..
  exact hq

theorem State.nextBankCopy_keeps {qq : List Instr} {mm : Option Memory} {cc : Option Chip} (s : State) (n : Nat) (hq : Keeps ⟨qq, mm, cc⟩ s) :
    Keeps ⟨qq, mm, cc⟩ (State.nextBankCopy s n) := by
  unfold State.nextBankCopy
  split
  exact hq
  extract_lets x1
  have h2 : Keeps ⟨qq, mm, cc⟩ x1 := ?_
  refine Keeps.ite (fun _ => ?_) (fun _ => ?_)
  refine State.startBankCopy_keeps (hq := ?_) ..
  exact h2
  split
  refine State.startBankCopy_keeps (hq := ?_) ..
  exact h2
  refine Keeps.ite (fun _ => ?_) (fun _ => ?_)
  refine State.journal_keeps (hq := ?_) ..
  refine State.degrade_keeps (hq := ?_) ..
  refine State.wr_keeps (hq := ?_) ..
  exact h2
  exact h2
  dsimp -zeta only [x1]
  refine State.modMem_keeps (hq := ?_) ..
  exact hq

theorem State.switchBank_keeps {qq : List Instr} {mm : Option Memory} {cc : Option Chip} (s : State) (n : Nat) (hq : Keeps ⟨qq, mm, cc⟩ s) :
    Keeps ⟨qq, mm, cc⟩ (State.switchBank s n) := by
  unfold State.switchBank
  refine Keeps.ite (fun _ => ?_) (fun _ => ?_)
  exact hq
  extract_lets x1 x2 x3 x4 x5 x6 x7 x8
  have h9 : Keeps ⟨qq, mm, cc⟩ x8 := ?_
  refine State.nextBankCopy_keeps (hq := ?_) ..
  exact h9
  dsimp -zeta only [x8]
  have h10 : Keeps ⟨qq, mm, cc⟩ x7 := ?_
  refine State.modMem_keeps (hq := ?_) ..
  exact h10
  dsimp -zeta only [x7]
  have h11 : Keeps ⟨qq, mm, cc⟩ x6 := ?_
  refine Keeps.ite (fun _ => ?_) (fun _ => ?_)
  refine State.journal_keeps (hq := ?_) ..
  exact h11
  exact h11
  dsimp -zeta only [x6]
  have h12 : Keeps ⟨qq, mm, cc⟩ x5 := ?_
  refine State.logEv_keeps (hq := ?_) ..
  exact h12
  dsimp -zeta only [x5]
  refine State.wr_keeps (hq := ?_) ..
  refine State.wr_keeps (hq := ?_) ..
  exact hq

end

end Sys2Proof.Machine
end

