-- ==== Sys2Proof/Laws/KeepsSched.lean ====
section
/-! SUPPORT. Keeps (Laws/Keeps) for Cotillion and the bank rows:
one lemma per function, each from those of the functions it calls. -/

namespace Sys2Proof.Machine

section

set_option simprocs false

theorem State.modSch_keeps {qq : List Instr} {mm : Option Memory} {cc : Option Chip} (s : State) (n : Nat) (f : Sched → Sched) (hq : Keeps ⟨qq, mm, cc⟩ s) :
    Keeps ⟨qq, mm, cc⟩ (State.modSch s n f) := by
  unfold State.modSch
  refine State.modRegion_keeps (hq := ?_) ..
  exact hq

theorem State.modSlot_keeps {qq : List Instr} {mm : Option Memory} {cc : Option Chip} (s : State) (n : Nat) (k : Nat) (f : Slot → Slot) (hq : Keeps ⟨qq, mm, cc⟩ s) :
    Keeps ⟨qq, mm, cc⟩ (State.modSlot s n k f) := by
  unfold State.modSlot
  refine State.modSch_keeps (hq := ?_) ..
  exact hq

theorem State.sendLine_keeps {qq : List Instr} {mm : Option Memory} {cc : Option Chip} (s : State) (ni : Nat) (a : Nat) (key : Nat) (line : List Line) (hq : Keeps ⟨qq, mm, cc⟩ s) :
    Keeps ⟨qq, mm, cc⟩ (State.sendLine s ni a key line) := by
  unfold State.sendLine
  extract_lets x1 x2
  refine State.netRequest_keeps (hq := ?_) ..
  exact hq

theorem State.streamPump_keeps {qq : List Instr} {mm : Option Memory} {cc : Option Chip} (s : State) (flush : Bool) (hq : Keeps ⟨qq, mm, cc⟩ s) :
    Keeps ⟨qq, mm, cc⟩ (State.streamPump s flush) := by
  unfold State.streamPump
  extract_lets x1 x2 x3 x4 x5
  have h6 : Keeps ⟨qq, mm, cc⟩ x5 := ?_
  refine Keeps.ite (fun _ => ?_) (fun _ => ?_)
  exact hq
  refine Keeps.ite (fun _ => ?_) (fun _ => ?_)
  refine State.sendLine_keeps (hq := ?_) ..
  exact h6
  exact hq
  dsimp -zeta only [x5]
  refine Keeps.mk_other ?_
  exact hq

theorem State.tracePut_keeps {qq : List Instr} {mm : Option Memory} {cc : Option Chip} (s : State) (r : Line) (hq : Keeps ⟨qq, mm, cc⟩ s) :
    Keeps ⟨qq, mm, cc⟩ (State.tracePut s r) := by
  unfold State.tracePut
  split
  extract_lets x1 x2
  refine State.count_keeps (hq := ?_) ..
  refine Keeps.mk_other ?_
  exact hq
  refine Keeps.ite (fun _ => ?_) (fun _ => ?_)
  refine State.bump_keeps (hq := ?_) ..
  exact hq
  refine State.streamPump_keeps (hq := ?_) ..
  refine Keeps.mk_other ?_
  exact hq
  exact hq

theorem State.traceSlot_keeps {qq : List Instr} {mm : Option Memory} {cc : Option Chip} (s : State) (n : Nat) (k : Nat) (eng : Nat) (urg : Nat) (reason : Nat) (aux : Nat) (hq : Keeps ⟨qq, mm, cc⟩ s) :
    Keeps ⟨qq, mm, cc⟩ (State.traceSlot s n k eng urg reason aux) := by
  unfold State.traceSlot
  refine Keeps.ite (fun _ => ?_) (fun _ => ?_)
  refine State.tracePut_keeps (hq := ?_) ..
  exact hq
  exact hq

theorem State.traceItem_keeps {qq : List Instr} {mm : Option Memory} {cc : Option Chip} (s : State) (n : Nat) (q : Nat) (eng : Nat) (reason : Nat) (aux : Nat) (hq : Keeps ⟨qq, mm, cc⟩ s) :
    Keeps ⟨qq, mm, cc⟩ (State.traceItem s n q eng reason aux) := by
  unfold State.traceItem
  refine Keeps.ite (fun _ => ?_) (fun _ => ?_)
  refine State.tracePut_keeps (hq := ?_) ..
  exact hq
  exact hq

theorem State.becomeReady_keeps {qq : List Instr} {mm : Option Memory} {cc : Option Chip} (s : State) (n : Nat) (k : Nat) (f : Nat) (hq : Keeps ⟨qq, mm, cc⟩ s) :
    Keeps ⟨qq, mm, cc⟩ (State.becomeReady s n k f) := by
  unfold State.becomeReady
  extract_lets x1 x2 x3 x4
  have h5 : Keeps ⟨qq, mm, cc⟩ x4 := ?_
  refine Keeps.ite (fun _ => ?_) (fun _ => ?_)
  refine State.traceSlot_keeps (hq := ?_) ..
  exact h5
  exact hq
  dsimp -zeta only [x4]
  refine State.modSlot_keeps (hq := ?_) ..
  exact hq

theorem State.tokenRefused_keeps {qq : List Instr} {mm : Option Memory} {cc : Option Chip} (s : State) (n : Nat) (k : Nat) (f : Nat) (src : Nat) (status : Nat) (hq : Keeps ⟨qq, mm, cc⟩ s) :
    Keeps ⟨qq, mm, cc⟩ (State.tokenRefused s n k f src status) := by
  unfold State.tokenRefused
  extract_lets x1 x2
  have h3 : Keeps ⟨qq, mm, cc⟩ x2 := ?_
  refine State.traceSlot_keeps (hq := ?_) ..
  exact h3
  dsimp -zeta only [x2]
  have h4 : Keeps ⟨qq, mm, cc⟩ x1 := ?_
  refine State.logEvLimited_keeps (hq := ?_) ..
  exact h4
  dsimp -zeta only [x1]
  refine State.bump_keeps (hq := ?_) ..
  refine State.raise_keeps (hq := ?_) ..
  exact hq

theorem State.token_keeps {qq : List Instr} {mm : Option Memory} {cc : Option Chip} (s : State) (n : Nat) (k : Nat) (f : Nat) (src : Nat) (t : SlotFlag) (hq : Keeps ⟨qq, mm, cc⟩ s) :
    Keeps ⟨qq, mm, cc⟩ (State.token s n k f src t).2 := by
  unfold State.token
  extract_lets x1
  split
  dsimp -zeta only
  refine State.tokenRefused_keeps (hq := ?_) ..
  exact hq
  split
  dsimp -zeta only
  refine State.tokenRefused_keeps (hq := ?_) ..
  exact hq
  dsimp -zeta only
  refine State.becomeReady_keeps (hq := ?_) ..
  refine State.modSlot_keeps (hq := ?_) ..
  exact hq

theorem State.ringPump_keeps {qq : List Instr} {mm : Option Memory} {cc : Option Chip} (s : State) (n : Nat) (flush : Bool) (hq : Keeps ⟨qq, mm, cc⟩ s) :
    Keeps ⟨qq, mm, cc⟩ (State.ringPump s n flush) := by
  unfold State.ringPump
  extract_lets x1 x2 x3 x4
  have h5 : Keeps ⟨qq, mm, cc⟩ x4 := ?_
  refine Keeps.ite (fun _ => ?_) (fun _ => ?_)
  exact hq
  refine Keeps.ite (fun _ => ?_) (fun _ => ?_)
  refine State.sendLine_keeps (hq := ?_) ..
  exact h5
  exact hq
  dsimp -zeta only [x4]
  refine State.modSch_keeps (hq := ?_) ..
  exact hq

theorem State.kickRegion_keeps {qq : List Instr} {mm : Option Memory} {cc : Option Chip} (s : State) (n : Nat) (hq : Keeps ⟨qq, mm, cc⟩ s) :
    Keeps ⟨qq, mm, cc⟩ (State.kickRegion s n) := by
  unfold State.kickRegion
  refine State.modRegion_keeps (hq := ?_) ..
  exact hq

theorem State.postSucc_keeps {qq : List Instr} {mm : Option Memory} {cc : Option Chip} (s : State) (n : Nat) (op : Nat) (f : Nat) (urg : Nat) (t : SlotFlag) (hq : Keeps ⟨qq, mm, cc⟩ s) :
    Keeps ⟨qq, mm, cc⟩ (State.postSucc s n op f urg t) := by
  unfold State.postSucc
  refine Keeps.ite (fun _ => ?_) (fun _ => ?_)
  refine State.token_keeps (hq := ?_) ..
  exact hq
  extract_lets x1
  refine State.netRequest_keeps (hq := ?_) ..
  exact hq

theorem State.postSuccs_keeps {qq : List Instr} {mm : Option Memory} {cc : Option Chip} (s : State) (n : Nat) (it : OpenItem) (status : Nat) (hq : Keeps ⟨qq, mm, cc⟩ s) :
    Keeps ⟨qq, mm, cc⟩ (State.postSuccs s n it status) := by
  unfold State.postSuccs
  refine Keeps.foldl (fun t1 y2 h3 => ?_) ?_
  split
  refine Keeps.ite (fun _ => ?_) (fun _ => ?_)
  refine State.postSucc_keeps (hq := ?_) ..
  exact h3
  exact h3
  exact hq

theorem State.slotClosed_keeps {qq : List Instr} {mm : Option Memory} {cc : Option Chip} (s : State) (n : Nat) (k : Nat) (hq : Keeps ⟨qq, mm, cc⟩ s) :
    Keeps ⟨qq, mm, cc⟩ (State.slotClosed s n k) := by
  unfold State.slotClosed
  refine Keeps.ite (fun _ => ?_) (fun _ => ?_)
  extract_lets x1
  have h2 : Keeps ⟨qq, mm, cc⟩ x1 := ?_
  refine State.becomeReady_keeps (hq := ?_) ..
  exact h2
  dsimp -zeta only [x1]
  refine State.modSlot_keeps (hq := ?_) ..
  exact hq
  refine State.modSlot_keeps (hq := ?_) ..
  exact hq

theorem State.placeOwners_keeps {qq : List Instr} {mm : Option Memory} {cc : Option Chip} (s : State) (n : Nat) (hq : Keeps ⟨qq, mm, cc⟩ s) :
    Keeps ⟨qq, mm, cc⟩ (State.placeOwners s n) := by
  unfold State.placeOwners
  extract_lets x1 x2 x3 x4 x5 x6
  have h7 : Keeps ⟨qq, mm, cc⟩ x6 := ?_
  refine Keeps.ite (fun _ => ?_) (fun _ => ?_)
  exact hq
  refine Keeps.mk_other ?_
  exact h7
  dsimp -zeta only [x6]
  have h8 : Keeps ⟨qq, mm, cc⟩ x5 := ?_
  refine Keeps.foldl (fun t9 y10 h11 => ?_) ?_
  refine State.writeOwn_keeps (hq := ?_) ..
  exact h11
  exact h8
  dsimp -zeta only [x5]
  refine Keeps.mk_other ?_
  exact hq

theorem State.enterRecord_keeps {qq : List Instr} {mm : Option Memory} {cc : Option Chip} (s : State) (n : Nat) (eng : Nat) (it : OpenItem) (status : Nat) (cycles : Nat) (quiet : Bool) (hq : Keeps ⟨qq, mm, cc⟩ s) :
    Keeps ⟨qq, mm, cc⟩ (State.enterRecord s n eng it status cycles quiet) := by
  unfold State.enterRecord
  extract_lets x1 x2 x3 x4 x5 x6 x7 x8 x9 x10 x11 x12 x13 x14 x15 x16
  have h17 : Keeps ⟨qq, mm, cc⟩ x16 := ?_
  refine State.placeOwners_keeps (hq := ?_) ..
  refine State.ringPump_keeps (hq := ?_) ..
  exact h17
  dsimp -zeta only [x16]
  have h18 : Keeps ⟨qq, mm, cc⟩ x15 := ?_
  refine Keeps.ite (fun _ => ?_) (fun _ => ?_)
  refine State.postSuccs_keeps (hq := ?_) ..
  exact h18
  exact h18
  dsimp -zeta only [x15]
  have h19 : Keeps ⟨qq, mm, cc⟩ x14 := ?_
  refine Keeps.ite (fun _ => ?_) (fun _ => ?_)
  refine State.slotClosed_keeps (hq := ?_) ..
  exact h19
  exact h19
  dsimp -zeta only [x14]
  have h20 : Keeps ⟨qq, mm, cc⟩ x13 := ?_
  split
  refine State.traceItem_keeps (hq := ?_) ..
  exact h20
  refine State.traceSlot_keeps (hq := ?_) ..
  exact h20
  dsimp -zeta only [x13]
  have h21 : Keeps ⟨qq, mm, cc⟩ x10 := ?_
  refine Keeps.ite (fun _ => ?_) (fun _ => ?_)
  refine Keeps.mk_other ?_
  exact h21
  exact h21
  dsimp -zeta only [x10]
  have h22 : Keeps ⟨qq, mm, cc⟩ x9 := ?_
  refine Keeps.ite (fun _ => ?_) (fun _ => ?_)
  refine State.kickRegion_keeps (hq := ?_) ..
  exact h22
  exact h22
  dsimp -zeta only [x9]
  have h23 : Keeps ⟨qq, mm, cc⟩ x7 := ?_
  refine State.modSch_keeps (hq := ?_) ..
  exact h23
  dsimp -zeta only [x7]
  refine Keeps.ite (fun _ => ?_) (fun _ => ?_)
  refine State.count_keeps (hq := ?_) ..
  refine State.raise_keeps (hq := ?_) ..
  exact hq
  exact hq

theorem State.takeItem_keeps {qq : List Instr} {mm : Option Memory} {cc : Option Chip} (s : State) (n : Nat) (e : Nat) (hq : Keeps ⟨qq, mm, cc⟩ s) :
    Keeps ⟨qq, mm, cc⟩ (State.takeItem s n e) := by
  unfold State.takeItem
  refine State.modSch_keeps (hq := ?_) ..
  exact hq

theorem State.closeItem_keeps {qq : List Instr} {mm : Option Memory} {cc : Option Chip} (s : State) (n : Nat) (e : Nat) (status : Nat) (cycles : Nat) (quiet : Bool) (hq : Keeps ⟨qq, mm, cc⟩ s) :
    Keeps ⟨qq, mm, cc⟩ (State.closeItem s n e status cycles quiet) := by
  unfold State.closeItem
  split
  exact hq
  refine State.enterRecord_keeps (hq := ?_) ..
  refine State.takeItem_keeps (hq := ?_) ..
  exact hq

theorem State.reportDone_keeps {qq : List Instr} {mm : Option Memory} {cc : Option Chip} (s : State) (n : Nat) (e : Nat) (poison : Bool) (cycles : Nat) (hq : Keeps ⟨qq, mm, cc⟩ s) :
    Keeps ⟨qq, mm, cc⟩ (State.reportDone s n e poison cycles) := by
  unfold State.reportDone
  split
  exact hq
  extract_lets x1 x2 x3 x4
  have h5 : Keeps ⟨qq, mm, cc⟩ x2 := ?_
  have h6 : Keeps ⟨qq, mm, cc⟩ x4 := ?_
  refine Keeps.ite (fun _ => ?_) (fun _ => ?_)
  refine State.modSch_keeps (hq := ?_) ..
  exact h6
  refine State.enterRecord_keeps (hq := ?_) ..
  exact h5
  dsimp -zeta only [x4]
  have h7 : Keeps ⟨qq, mm, cc⟩ x3 := ?_
  refine Keeps.ite (fun _ => ?_) (fun _ => ?_)
  exact h7
  refine State.logEvLimited_keeps (hq := ?_) ..
  exact h7
  dsimp -zeta only [x3]
  refine State.raise_keeps (hq := ?_) ..
  exact h5
  dsimp -zeta only [x2]
  refine State.takeItem_keeps (hq := ?_) ..
  exact hq

theorem State.releaseHeld_keeps {qq : List Instr} {mm : Option Memory} {cc : Option Chip} (s : State) (n : Nat) (force : Bool) (quiet : Bool) (hq : Keeps ⟨qq, mm, cc⟩ s) :
    Keeps ⟨qq, mm, cc⟩ (State.releaseHeld s n force quiet) := by
  unfold State.releaseHeld
  split
  exact hq
  refine Keeps.ite (fun _ => ?_) (fun _ => ?_)
  exact hq
  refine State.enterRecord_keeps (hq := ?_) ..
  refine State.modSch_keeps (hq := ?_) ..
  exact hq

theorem State.modEngAt_keeps {qq : List Instr} {mm : Option Memory} {cc : Option Chip} (s : State) (n : Nat) (e : Nat) (f : Engine → Engine) (hq : Keeps ⟨qq, mm, cc⟩ s) :
    Keeps ⟨qq, mm, cc⟩ (State.modEngAt s n e f) := by
  unfold State.modEngAt
  refine State.modRegion_keeps (hq := ?_) ..
  exact hq

theorem State.evict_keeps {qq : List Instr} {mm : Option Memory} {cc : Option Chip} (s : State) (n : Nat) (e : Nat) (sel : Nat → Nat → Bool) (hq : Keeps ⟨qq, mm, cc⟩ s) :
    Keeps ⟨qq, mm, cc⟩ (State.evict s n e sel) := by
  unfold State.evict
  refine State.modSch_keeps (hq := ?_) ..
  exact hq

theorem State.evictAt_keeps {qq : List Instr} {mm : Option Memory} {cc : Option Chip} (s : State) (n : Nat) (e : Nat) (a : Nat) (hq : Keeps ⟨qq, mm, cc⟩ s) :
    Keeps ⟨qq, mm, cc⟩ (State.evictAt s n e a) := by
  unfold State.evictAt
  refine State.evict_keeps (hq := ?_) ..
  exact hq

theorem State.dispatchNow_keeps {qq : List Instr} {mm : Option Memory} {cc : Option Chip} (s : State) (n : Nat) (e : Nat) (it : OpenItem) (hq : Keeps ⟨qq, mm, cc⟩ s) :
    Keeps ⟨qq, mm, cc⟩ (State.dispatchNow s n e it) := by
  unfold State.dispatchNow
  extract_lets x1 x2 x3
  have h4 : Keeps ⟨qq, mm, cc⟩ x3 := ?_
  refine State.modSch_keeps (hq := ?_) ..
  exact h4
  dsimp -zeta only [x3]
  refine State.modEngAt_keeps (hq := ?_) ..
  exact hq

theorem State.pageRead_keeps {qq : List Instr} {mm : Option Memory} {cc : Option Chip} (s : State) (n : Nat) (e : Nat) (it : OpenItem) (pg : Paging) (hq : Keeps ⟨qq, mm, cc⟩ s) :
    Keeps ⟨qq, mm, cc⟩ (State.pageRead s n e it pg) := by
  unfold State.pageRead
  extract_lets x1 x2 x3
  have h4 : Keeps ⟨qq, mm, cc⟩ x3 := ?_
  refine State.netRequest_keeps (hq := ?_) ..
  exact h4
  dsimp -zeta only [x3]
  refine State.modSch_keeps (hq := ?_) ..
  exact hq

theorem State.pageReads_keeps {qq : List Instr} {mm : Option Memory} {cc : Option Chip} (s : State) (n e : Nat) (k : Nat) (hq : Keeps ⟨qq, mm, cc⟩ s) :
    Keeps ⟨qq, mm, cc⟩ (s.pageReads n e k) := by
  induction k generalizing s with
  | zero => exact hq
  | succ k ih =>
    unfold State.pageReads
    split
    · split
      · refine Keeps.ite (fun _ => ih _ (State.pageRead_keeps (hq := hq) ..)) (fun _ => hq)
      · exact hq
    · exact hq

theorem State.startItem_keeps {qq : List Instr} {mm : Option Memory} {cc : Option Chip} (s : State) (n : Nat) (e : Nat) (it : OpenItem) (hq : Keeps ⟨qq, mm, cc⟩ s) :
    Keeps ⟨qq, mm, cc⟩ (State.startItem s n e it) := by
  unfold State.startItem
  extract_lets x1 x2 x3 x4 x5 x6 x7 x8 x9 x10 x11
  have h12 : Keeps ⟨qq, mm, cc⟩ x4 := ?_
  have h13 : Keeps ⟨qq, mm, cc⟩ x11 := ?_
  refine Keeps.ite (fun _ => ?_) (fun _ => ?_)
  refine State.dispatchNow_keeps (hq := ?_) ..
  dsimp -zeta only [x3]
  split
  refine State.traceItem_keeps (hq := ?_) ..
  exact h12
  refine State.traceSlot_keeps (hq := ?_) ..
  exact h12
  refine Keeps.ite (fun _ => ?_) (fun _ => ?_)
  refine State.dispatchNow_keeps (hq := ?_) ..
  exact h13
  refine State.pageReads_keeps (hq := ?_) ..
  exact h13
  dsimp -zeta only [x11]
  have h14 : Keeps ⟨qq, mm, cc⟩ x9 := ?_
  dsimp -zeta only [x3]
  split
  refine State.traceItem_keeps (hq := ?_) ..
  refine State.modSch_keeps (hq := ?_) ..
  exact h14
  refine State.traceSlot_keeps (hq := ?_) ..
  refine State.modSch_keeps (hq := ?_) ..
  exact h14
  dsimp -zeta only [x9]
  have h15 : Keeps ⟨qq, mm, cc⟩ x8 := ?_
  refine State.modEngAt_keeps (hq := ?_) ..
  exact h15
  dsimp -zeta only [x8]
  refine State.modSch_keeps (hq := ?_) ..
  exact h12
  dsimp -zeta only [x4]
  refine State.bump_keeps (hq := ?_) ..
  refine State.count_keeps (hq := ?_) ..
  exact hq

theorem State.pageAnswer_keeps {qq : List Instr} {mm : Option Memory} {cc : Option Chip} (s : State) (n : Nat) (e : Nat) (word : Nat) (gen : Nat) (rsp : Packet) (hq : Keeps ⟨qq, mm, cc⟩ s) :
    Keeps ⟨qq, mm, cc⟩ (State.pageAnswer s n e word gen rsp) := by
  unfold State.pageAnswer
  split
  exact hq
  split
  exact hq
  refine Keeps.ite (fun _ => ?_) (fun _ => ?_)
  exact hq
  refine Keeps.ite (fun _ => ?_) (fun _ => ?_)
  extract_lets x1 x2 x3 x4
  have h5 : Keeps ⟨qq, mm, cc⟩ x4 := ?_
  refine State.closeItem_keeps (hq := ?_) ..
  exact h5
  dsimp -zeta only [x4]
  have h6 : Keeps ⟨qq, mm, cc⟩ x3 := ?_
  refine State.modEngAt_keeps (hq := ?_) ..
  exact h6
  dsimp -zeta only [x3]
  have h7 : Keeps ⟨qq, mm, cc⟩ x1 := ?_
  refine State.logEvLimited_keeps (hq := ?_) ..
  exact h7
  dsimp -zeta only [x1]
  refine State.bump_keeps (hq := ?_) ..
  refine State.raise_keeps (hq := ?_) ..
  exact hq
  extract_lets x8 x9 x10 x11 x12 x13 x14 x15 x16
  have h17 : Keeps ⟨qq, mm, cc⟩ x15 := ?_
  have h18 : Keeps ⟨qq, mm, cc⟩ x16 := ?_
  refine Keeps.ite (fun _ => ?_) (fun _ => ?_)
  refine State.pageReads_keeps (hq := ?_) ..
  exact h17
  refine State.dispatchNow_keeps (hq := ?_) ..
  exact h18
  dsimp -zeta only [x16]
  refine Keeps.ite (fun _ => ?_) (fun _ => ?_)
  exact h17
  refine State.modSch_keeps (hq := ?_) ..
  exact h17
  dsimp -zeta only [x15]
  have h19 : Keeps ⟨qq, mm, cc⟩ x12 := ?_
  refine State.modSch_keeps (hq := ?_) ..
  exact h19
  dsimp -zeta only [x12]
  refine State.engStoreP_keeps (hq := ?_) ..
  refine State.engStoreP_keeps (hq := ?_) ..
  exact hq

theorem State.ringAnswer_keeps {qq : List Instr} {mm : Option Memory} {cc : Option Chip} (s : State) (ni : Nat) (status : Nat) (hq : Keeps ⟨qq, mm, cc⟩ s) :
    Keeps ⟨qq, mm, cc⟩ (State.ringAnswer s ni status) := by
  unfold State.ringAnswer
  refine Keeps.ite (fun _ => ?_) (fun _ => ?_)
  refine Keeps.ite (fun _ => ?_) (fun _ => ?_)
  extract_lets x1
  have h2 : Keeps ⟨qq, mm, cc⟩ x1 := ?_
  refine State.ringPump_keeps (hq := ?_) ..
  refine State.modSch_keeps (hq := ?_) ..
  exact h2
  dsimp -zeta only [x1]
  refine State.wr_keeps (hq := ?_) ..
  exact hq
  extract_lets x3 x4
  have h5 : Keeps ⟨qq, mm, cc⟩ x4 := ?_
  refine State.modSch_keeps (hq := ?_) ..
  exact h5
  dsimp -zeta only [x4]
  have h6 : Keeps ⟨qq, mm, cc⟩ x3 := ?_
  refine Keeps.ite (fun _ => ?_) (fun _ => ?_)
  exact h6
  refine State.logEvLimited_keeps (hq := ?_) ..
  exact h6
  dsimp -zeta only [x3]
  refine State.raise_keeps (hq := ?_) ..
  exact hq
  refine Keeps.ite (fun _ => ?_) (fun _ => ?_)
  extract_lets x7 x8
  have h9 : Keeps ⟨qq, mm, cc⟩ x7 := ?_
  refine State.streamPump_keeps (hq := ?_) ..
  refine Keeps.mk_other ?_
  exact h9
  dsimp -zeta only [x7]
  refine State.wr_keeps (hq := ?_) ..
  exact hq
  refine Keeps.mk_other ?_
  exact hq

theorem State.answered_keeps {qq : List Instr} {mm : Option Memory} {cc : Option Chip} (s : State) (ni : Nat) (why : ReqFor) (rsp : Packet) (hq : Keeps ⟨qq, mm, cc⟩ s) :
    Keeps ⟨qq, mm, cc⟩ (State.answered s ni why rsp) := by
  unfold State.answered
  split
  refine State.modNi_keeps (hq := ?_) ..
  exact hq
  refine Keeps.ite (fun _ => ?_) (fun _ => ?_)
  exact hq
  refine State.logEvLimited_keeps (hq := ?_) ..
  refine State.raise_keeps (hq := ?_) ..
  exact hq
  refine State.ringAnswer_keeps (hq := ?_) ..
  exact hq
  refine State.pageAnswer_keeps (hq := ?_) ..
  exact hq
  extract_lets x1
  refine State.modEng_keeps (hq := ?_) ..
  exact hq

theorem State.takeResponse_keeps {qq : List Instr} {mm : Option Memory} {cc : Option Chip} (s : State) (i : Nat) (sel : ReqFor → Bool) (hq : Keeps ⟨qq, mm, cc⟩ s) :
    Keeps ⟨qq, mm, cc⟩ (State.takeResponse s i sel) := by
  unfold State.takeResponse
  split
  refine State.answered_keeps (hq := ?_) ..
  refine State.modNi_keeps (hq := ?_) ..
  exact hq
  extract_lets x1 x2
  split
  exact hq
  extract_lets x3 x4
  have h5 : Keeps ⟨qq, mm, cc⟩ x3 := ?_
  have h6 : Keeps ⟨qq, mm, cc⟩ x4 := ?_
  split
  refine State.bump_keeps (hq := ?_) ..
  exact h5
  refine Keeps.ite (fun _ => ?_) (fun _ => ?_)
  refine State.bump_keeps (hq := ?_) ..
  exact h6
  refine State.answered_keeps (hq := ?_) ..
  refine State.nextRequest_keeps (hq := ?_) ..
  exact h6
  dsimp -zeta only [x4]
  refine State.modNi_keeps (hq := ?_) ..
  exact h5
  dsimp -zeta only [x3]
  refine State.modNi_keeps (hq := ?_) ..
  exact hq

theorem State.ringRetry_keeps {qq : List Instr} {mm : Option Memory} {cc : Option Chip} (s : State) (ni : Nat) (hq : Keeps ⟨qq, mm, cc⟩ s) :
    Keeps ⟨qq, mm, cc⟩ (State.ringRetry s ni) := by
  unfold State.ringRetry
  refine Keeps.ite (fun _ => ?_) (fun _ => ?_)
  extract_lets x1
  refine Keeps.ite (fun _ => ?_) (fun _ => ?_)
  refine State.sendLine_keeps (hq := ?_) ..
  refine State.modSch_keeps (hq := ?_) ..
  exact hq
  exact hq
  extract_lets x2
  refine Keeps.ite (fun _ => ?_) (fun _ => ?_)
  refine State.sendLine_keeps (hq := ?_) ..
  refine Keeps.mk_other ?_
  exact hq
  exact hq

theorem State.schFence_keeps {qq : List Instr} {mm : Option Memory} {cc : Option Chip} (s : State) (n : Nat) (hq : Keeps ⟨qq, mm, cc⟩ s) :
    Keeps ⟨qq, mm, cc⟩ (State.schFence s n) := by
  unfold State.schFence
  extract_lets x1 x2 x3 x4
  have h5 : Keeps ⟨qq, mm, cc⟩ x4 := ?_
  refine State.modRegion_keeps (hq := ?_) ..
  exact h5
  dsimp -zeta only [x4]
  have h6 : Keeps ⟨qq, mm, cc⟩ x1 := ?_
  refine Keeps.foldl (fun t7 y8 h9 => ?_) ?_
  refine State.closeItem_keeps (hq := ?_) ..
  exact h9
  exact h6
  dsimp -zeta only [x1]
  refine Keeps.foldl (fun t10 y11 h12 => ?_) ?_
  refine State.releaseHeld_keeps (hq := ?_) ..
  exact h12
  exact hq

theorem State.schRestart_keeps {qq : List Instr} {mm : Option Memory} {cc : Option Chip} (s : State) (n : Nat) (hq : Keeps ⟨qq, mm, cc⟩ s) :
    Keeps ⟨qq, mm, cc⟩ (State.schRestart s n) := by
  unfold State.schRestart
  extract_lets x1 x2 x3 x4
  have h5 : Keeps ⟨qq, mm, cc⟩ x4 := ?_
  refine State.modSch_keeps (hq := ?_) ..
  exact h5
  dsimp -zeta only [x4]
  refine State.logEvLimited_keeps (hq := ?_) ..
  exact hq

theorem State.schDark_keeps {qq : List Instr} {mm : Option Memory} {cc : Option Chip} (s : State) (n : Nat) (hq : Keeps ⟨qq, mm, cc⟩ s) :
    Keeps ⟨qq, mm, cc⟩ (State.schDark s n) := by
  unfold State.schDark
  extract_lets x1 x2
  have h3 : Keeps ⟨qq, mm, cc⟩ x2 := ?_
  refine State.modSch_keeps (hq := ?_) ..
  exact h3
  dsimp -zeta only [x2]
  refine Keeps.ite (fun _ => ?_) (fun _ => ?_)
  exact hq
  refine State.logEvLimited_keeps (hq := ?_) ..
  exact hq

theorem State.abortFailed_keeps {qq : List Instr} {mm : Option Memory} {cc : Option Chip} (s : State) (n : Nat) (e : Nat) (hq : Keeps ⟨qq, mm, cc⟩ s) :
    Keeps ⟨qq, mm, cc⟩ (State.abortFailed s n e) := by
  unfold State.abortFailed
  extract_lets x1 x2
  have h3 : Keeps ⟨qq, mm, cc⟩ x2 := ?_
  refine Keeps.ite (fun _ => ?_) (fun _ => ?_)
  refine State.modSch_keeps (hq := ?_) ..
  refine State.modEngAt_keeps (hq := ?_) ..
  exact h3
  exact hq
  dsimp -zeta only [x2]
  refine State.closeItem_keeps (hq := ?_) ..
  exact hq

theorem State.schEngineLost_keeps {qq : List Instr} {mm : Option Memory} {cc : Option Chip} (s : State) (n : Nat) (e : Nat) (hq : Keeps ⟨qq, mm, cc⟩ s) :
    Keeps ⟨qq, mm, cc⟩ (State.schEngineLost s n e) := by
  unfold State.schEngineLost
  refine State.modSch_keeps (hq := ?_) ..
  refine State.closeItem_keeps (hq := ?_) ..
  exact hq

theorem execStartGraph_keeps {qq : List Instr} {mm : Option Memory} {cc : Option Chip} (s : State) (hq : Keeps ⟨qq, mm, cc⟩ s) :
    KeepsO ⟨qq, mm, cc⟩ (execStartGraph s) := by
  unfold execStartGraph
  split
  refine KeepsO.next ?_
  exact hq
  extract_lets x1
  refine KeepsO.next ?_
  refine Keeps.foldl (fun t2 y3 h4 => ?_) ?_
  extract_lets x5
  refine Keeps.ite (fun _ => ?_) (fun _ => ?_)
  refine State.token_keeps (hq := ?_) ..
  exact h4
  exact h4
  refine KeepsQ.of (by assumption) ?_
  refine State.takeAction_keeps (hq := ?_) ..
  exact hq

theorem execEventToken_keeps {qq : List Instr} {mm : Option Memory} {cc : Option Chip} (s : State) (hq : Keeps ⟨qq, mm, cc⟩ s) :
    KeepsO ⟨qq, mm, cc⟩ (execEventToken s) := by
  unfold execEventToken
  split
  refine KeepsO.next ?_
  exact hq
  refine KeepsO.next ?_
  refine State.token_keeps (hq := ?_) ..
  refine KeepsQ.of (by assumption) ?_
  refine State.takeAction_keeps (hq := ?_) ..
  exact hq

theorem State.writeSchToken_keeps {qq : List Instr} {mm : Option Memory} {cc : Option Chip} (s : State) (n : Nat) (v : Nat) (hq : Keeps ⟨qq, mm, cc⟩ s) :
    Keeps ⟨qq, mm, cc⟩ (State.writeSchToken s n v) := by
  unfold State.writeSchToken
  extract_lets x1 x2 x3
  have h4 : Keeps ⟨qq, mm, cc⟩ x2 := ?_
  have h5 : Keeps ⟨qq, mm, cc⟩ x3 := ?_
  refine Keeps.ite (fun _ => ?_) (fun _ => ?_)
  exact h4
  refine Keeps.ite (fun _ => ?_) (fun _ => ?_)
  refine State.logEvLimited_keeps (hq := ?_) ..
  exact h5
  refine State.token_keeps (hq := ?_) ..
  exact h4
  dsimp -zeta only [x3]
  refine State.bump_keeps (hq := ?_) ..
  refine State.raise_keeps (hq := ?_) ..
  exact h4
  dsimp -zeta only [x2]
  refine Keeps.mk_other ?_
  exact hq

theorem execSchToken_keeps {qq : List Instr} {mm : Option Memory} {cc : Option Chip} (x : Accessor) (n : Fin 64) (v : Word) (s : State) (hq : Keeps ⟨qq, mm, cc⟩ s) :
    KeepsO ⟨qq, mm, cc⟩ (execSchToken x n v s) := by
  unfold execSchToken
  refine KeepsO.next ?_
  refine State.writeSchToken_keeps (hq := ?_) ..
  exact hq

theorem execUrgencyStep_keeps {qq : List Instr} {mm : Option Memory} {cc : Option Chip} (n : Fin 64) (k : Fin 256) (s : State) (hq : Keeps ⟨qq, mm, cc⟩ s) :
    KeepsO ⟨qq, mm, cc⟩ (execUrgencyStep n k s) := by
  unfold execUrgencyStep
  extract_lets x1 x2 x3
  have h4 : Keeps ⟨qq, mm, cc⟩ x3 := ?_
  refine KeepsO.ite (fun _ => ?_) (fun _ => ?_)
  refine KeepsO.next ?_
  exact hq
  refine KeepsO.ite (fun _ => ?_) (fun _ => ?_)
  refine KeepsO.next ?_
  refine State.traceSlot_keeps (hq := ?_) ..
  exact h4
  refine KeepsO.next ?_
  exact h4
  dsimp -zeta only [x3]
  refine State.modSlot_keeps (hq := ?_) ..
  exact hq

theorem State.selectSlot_keeps {qq : List Instr} {mm : Option Memory} {cc : Option Chip} (s : State) (n : Nat) (k : Nat) (hq : Keeps ⟨qq, mm, cc⟩ s) :
    Keeps ⟨qq, mm, cc⟩ (State.selectSlot s n k) := by
  unfold State.selectSlot
  refine State.modSlot_keeps (hq := ?_) ..
  exact hq

theorem execDispatch_keeps {qq : List Instr} {mm : Option Memory} {cc : Option Chip} (n : Fin 64) (s : State) (hq : Keeps ⟨qq, mm, cc⟩ s) :
    KeepsO ⟨qq, mm, cc⟩ (execDispatch n s) := by
  unfold execDispatch
  extract_lets x1
  split
  refine KeepsO.next ?_
  exact hq
  split
  refine KeepsO.next ?_
  exact hq
  refine KeepsO.next ?_
  refine State.startItem_keeps (hq := ?_) ..
  refine State.selectSlot_keeps (hq := ?_) ..
  exact hq

theorem execVoidDispatch_keeps {qq : List Instr} {mm : Option Memory} {cc : Option Chip} (n : Fin 64) (k : Fin 256) (s : State) (hq : Keeps ⟨qq, mm, cc⟩ s) :
    KeepsO ⟨qq, mm, cc⟩ (execVoidDispatch n k s) := by
  unfold execVoidDispatch
  extract_lets x1 x2
  refine KeepsO.ite (fun _ => ?_) (fun _ => ?_)
  refine KeepsO.next ?_
  refine State.enterRecord_keeps (hq := ?_) ..
  refine State.selectSlot_keeps (hq := ?_) ..
  exact hq
  refine KeepsO.next ?_
  exact hq

theorem execPagingResponse_keeps {qq : List Instr} {mm : Option Memory} {cc : Option Chip} (n : Fin 64) (e : Fin 25) (s : State) (hq : Keeps ⟨qq, mm, cc⟩ s) :
    KeepsO ⟨qq, mm, cc⟩ (execPagingResponse n e s) := by
  unfold execPagingResponse
  refine KeepsO.next ?_
  refine State.takeResponse_keeps (hq := ?_) ..
  exact hq

theorem execCqHeldRelease_keeps {qq : List Instr} {mm : Option Memory} {cc : Option Chip} (n : Fin 64) (s : State) (hq : Keeps ⟨qq, mm, cc⟩ s) :
    KeepsO ⟨qq, mm, cc⟩ (execCqHeldRelease n s) := by
  unfold execCqHeldRelease
  refine KeepsO.next ?_
  refine State.releaseHeld_keeps (hq := ?_) ..
  exact hq

theorem State.popCq_keeps {qq : List Instr} {mm : Option Memory} {cc : Option Chip} (s : State) (n : Nat) (hq : Keeps ⟨qq, mm, cc⟩ s) :
    Keeps ⟨qq, mm, cc⟩ (State.popCq s n) := by
  unfold State.popCq
  extract_lets x1
  split
  refine Keeps.mk_other ?_
  exact hq
  refine Keeps.ite (fun _ => ?_) (fun _ => ?_)
  refine Keeps.mk_other ?_
  exact hq
  extract_lets x2
  have h3 : Keeps ⟨qq, mm, cc⟩ x2 := ?_
  refine Keeps.mk_other ?_
  exact h3
  dsimp -zeta only [x2]
  refine State.modSch_keeps (hq := ?_) ..
  exact hq

theorem execSchCqPop_keeps {qq : List Instr} {mm : Option Memory} {cc : Option Chip} (x : Accessor) (n : Fin 64) (s : State) (hq : Keeps ⟨qq, mm, cc⟩ s) :
    KeepsO ⟨qq, mm, cc⟩ (execSchCqPop x n s) := by
  unfold execSchCqPop
  refine KeepsO.next ?_
  refine State.popCq_keeps (hq := ?_) ..
  exact hq

theorem execCqLineFlush_keeps {qq : List Instr} {mm : Option Memory} {cc : Option Chip} (n : Fin 65) (s : State) (hq : Keeps ⟨qq, mm, cc⟩ s) :
    KeepsO ⟨qq, mm, cc⟩ (execCqLineFlush n s) := by
  unfold execCqLineFlush
  refine KeepsO.next ?_
  refine Keeps.ite (fun _ => ?_) (fun _ => ?_)
  refine State.ringPump_keeps (hq := ?_) ..
  exact hq
  refine State.streamPump_keeps (hq := ?_) ..
  exact hq

theorem execCqRingRetry_keeps {qq : List Instr} {mm : Option Memory} {cc : Option Chip} (n : Fin 65) (s : State) (hq : Keeps ⟨qq, mm, cc⟩ s) :
    KeepsO ⟨qq, mm, cc⟩ (execCqRingRetry n s) := by
  unfold execCqRingRetry
  refine KeepsO.next ?_
  refine Keeps.ite (fun _ => ?_) (fun _ => ?_)
  refine State.ringRetry_keeps (hq := ?_) ..
  exact hq
  refine State.ringRetry_keeps (hq := ?_) ..
  exact hq

theorem State.refuseDesc_keeps {qq : List Instr} {mm : Option Memory} {cc : Option Chip} (s : State) (n : Nat) (hq : Keeps ⟨qq, mm, cc⟩ s) :
    Keeps ⟨qq, mm, cc⟩ (State.refuseDesc s n) := by
  unfold State.refuseDesc
  refine State.raise_keeps (hq := ?_) ..
  exact hq

theorem State.writeDesc_keeps {qq : List Instr} {mm : Option Memory} {cc : Option Chip} (s : State) (n : Nat) (k : Nat) (w : Nat) (v : Nat) (hq : Keeps ⟨qq, mm, cc⟩ s) :
    Keeps ⟨qq, mm, cc⟩ (State.writeDesc s n k w v) := by
  unfold State.writeDesc
  extract_lets x1 x2 x3 x4 x5 x6
  have h7 : Keeps ⟨qq, mm, cc⟩ x1 := ?_
  refine Keeps.ite (fun _ => ?_) (fun _ => ?_)
  refine Keeps.ite (fun _ => ?_) (fun _ => ?_)
  refine State.modSlot_keeps (hq := ?_) ..
  dsimp -zeta only [x6]
  refine State.modSch_keeps (hq := ?_) ..
  exact h7
  refine State.refuseDesc_keeps (hq := ?_) ..
  exact h7
  refine Keeps.ite (fun _ => ?_) (fun _ => ?_)
  refine State.refuseDesc_keeps (hq := ?_) ..
  exact h7
  refine Keeps.ite (fun _ => ?_) (fun _ => ?_)
  refine Keeps.ite (fun _ => ?_) (fun _ => ?_)
  refine State.modSlot_keeps (hq := ?_) ..
  dsimp -zeta only [x6]
  refine State.modSch_keeps (hq := ?_) ..
  exact h7
  refine State.refuseDesc_keeps (hq := ?_) ..
  dsimp -zeta only [x6]
  refine State.modSch_keeps (hq := ?_) ..
  exact h7
  dsimp -zeta only [x6]
  refine State.modSch_keeps (hq := ?_) ..
  exact h7
  dsimp -zeta only [x1]
  refine Keeps.mk_other ?_
  exact hq

theorem execSlotEnable_keeps {qq : List Instr} {mm : Option Memory} {cc : Option Chip} (x : Accessor) (n : Fin 64) (k : Fin 256) (v : Word) (s : State) (hq : Keeps ⟨qq, mm, cc⟩ s) :
    KeepsO ⟨qq, mm, cc⟩ (execSlotEnable x n k v s) := by
  unfold execSlotEnable
  refine KeepsO.next ?_
  refine State.writeDesc_keeps (hq := ?_) ..
  exact hq

theorem execSlotWithdraw_keeps {qq : List Instr} {mm : Option Memory} {cc : Option Chip} (x : Accessor) (n : Fin 64) (k : Fin 256) (v : Word) (s : State) (hq : Keeps ⟨qq, mm, cc⟩ s) :
    KeepsO ⟨qq, mm, cc⟩ (execSlotWithdraw x n k v s) := by
  unfold execSlotWithdraw
  refine KeepsO.next ?_
  refine State.writeDesc_keeps (hq := ?_) ..
  exact hq

theorem execDescriptorWrite_keeps {qq : List Instr} {mm : Option Memory} {cc : Option Chip} (x : Accessor) (n : Fin 64) (k : Fin 256) (w : Fin 16) (v : Word) (s : State) (hq : Keeps ⟨qq, mm, cc⟩ s) :
    KeepsO ⟨qq, mm, cc⟩ (execDescriptorWrite x n k w v s) := by
  unfold execDescriptorWrite
  refine KeepsO.next ?_
  refine State.writeDesc_keeps (hq := ?_) ..
  exact hq

theorem State.writeKernel_keeps {qq : List Instr} {mm : Option Memory} {cc : Option Chip} (s : State) (n : Nat) (k : Nat) (w : Nat) (v : Nat) (hq : Keeps ⟨qq, mm, cc⟩ s) :
    Keeps ⟨qq, mm, cc⟩ (State.writeKernel s n k w v) := by
  unfold State.writeKernel
  extract_lets x1
  have h2 : Keeps ⟨qq, mm, cc⟩ x1 := ?_
  refine State.modSch_keeps (hq := ?_) ..
  exact h2
  dsimp -zeta only [x1]
  refine Keeps.mk_other ?_
  exact hq

theorem execKernelTableWrite_keeps {qq : List Instr} {mm : Option Memory} {cc : Option Chip} (x : Accessor) (n : Fin 64) (k : Fin 256) (w : Fin 2) (v : Word) (s : State) (hq : Keeps ⟨qq, mm, cc⟩ s) :
    KeepsO ⟨qq, mm, cc⟩ (execKernelTableWrite x n k w v s) := by
  unfold execKernelTableWrite
  refine KeepsO.next ?_
  refine State.writeKernel_keeps (hq := ?_) ..
  exact hq

theorem State.wqPush_keeps {qq : List Instr} {mm : Option Memory} {cc : Option Chip} (s : State) (n : Nat) (q : Nat) (item : Line) (hq : Keeps ⟨qq, mm, cc⟩ s) :
    Keeps ⟨qq, mm, cc⟩ (State.wqPush s n q item).2 := by
  unfold State.wqPush
  extract_lets x1 x2 x3 x4
  split
  dsimp -zeta only
  refine State.logEvLimited_keeps (hq := ?_) ..
  refine State.raise_keeps (hq := ?_) ..
  exact hq
  dsimp -zeta only
  refine State.modSch_keeps (hq := ?_) ..
  exact hq

theorem State.writeWqPush_keeps {qq : List Instr} {mm : Option Memory} {cc : Option Chip} (s : State) (n : Nat) (v : Nat) (hq : Keeps ⟨qq, mm, cc⟩ s) :
    Keeps ⟨qq, mm, cc⟩ (State.writeWqPush s n v) := by
  unfold State.writeWqPush
  extract_lets x1 x2 x3 x4
  have h5 : Keeps ⟨qq, mm, cc⟩ x3 := ?_
  refine Keeps.ite (fun _ => ?_) (fun _ => ?_)
  exact h5
  split
  refine State.wr_keeps (hq := ?_) ..
  refine State.wr_keeps (hq := ?_) ..
  refine Keeps.snd_eq (by assumption) ?_
  refine State.wqPush_keeps (hq := ?_) ..
  exact h5
  refine State.wr_keeps (hq := ?_) ..
  refine Keeps.snd_eq (by assumption) ?_
  refine State.wqPush_keeps (hq := ?_) ..
  exact h5
  dsimp -zeta only [x3]
  have h6 : Keeps ⟨qq, mm, cc⟩ x2 := ?_
  refine Keeps.mk_other ?_
  exact h6
  dsimp -zeta only [x2]
  refine State.wr_keeps (hq := ?_) ..
  exact hq

theorem execSchWqPush_keeps {qq : List Instr} {mm : Option Memory} {cc : Option Chip} (x : Accessor) (n : Fin 64) (v : Word) (s : State) (hq : Keeps ⟨qq, mm, cc⟩ s) :
    KeepsO ⟨qq, mm, cc⟩ (execSchWqPush x n v s) := by
  unfold execSchWqPush
  refine KeepsO.next ?_
  refine State.writeWqPush_keeps (hq := ?_) ..
  exact hq

theorem execPoolTake_keeps {qq : List Instr} {mm : Option Memory} {cc : Option Chip} (n : Fin 64) (s : State) (hq : Keeps ⟨qq, mm, cc⟩ s) :
    KeepsO ⟨qq, mm, cc⟩ (execPoolTake n s) := by
  unfold execPoolTake
  extract_lets x1
  split
  split
  refine KeepsO.next ?_
  exact hq
  extract_lets x2 x3 x4
  have h5 : Keeps ⟨qq, mm, cc⟩ x3 := ?_
  refine KeepsO.next ?_
  refine State.startItem_keeps (hq := ?_) ..
  refine State.traceItem_keeps (hq := ?_) ..
  exact h5
  dsimp -zeta only [x3]
  refine State.modSch_keeps (hq := ?_) ..
  exact hq
  refine KeepsO.next ?_
  exact hq

theorem State.writeTrcIdx_keeps {qq : List Instr} {mm : Option Memory} {cc : Option Chip} (s : State) (v : Nat) (hq : Keeps ⟨qq, mm, cc⟩ s) :
    Keeps ⟨qq, mm, cc⟩ (State.writeTrcIdx s v) := by
  unfold State.writeTrcIdx
  extract_lets x1 x2 x3
  have h4 : Keeps ⟨qq, mm, cc⟩ x2 := ?_
  refine Keeps.mk_other ?_
  exact h4
  dsimp -zeta only [x2]
  refine State.wr_keeps (hq := ?_) ..
  exact hq

theorem execTrcRdIdxWrite_keeps {qq : List Instr} {mm : Option Memory} {cc : Option Chip} (x : Accessor) (v : Word) (s : State) (hq : Keeps ⟨qq, mm, cc⟩ s) :
    KeepsO ⟨qq, mm, cc⟩ (execTrcRdIdxWrite x v s) := by
  unfold execTrcRdIdxWrite
  refine KeepsO.next ?_
  refine State.writeTrcIdx_keeps (hq := ?_) ..
  exact hq

theorem execOwnershipWrite_keeps {qq : List Instr} {mm : Option Memory} {cc : Option Chip} (x : Accessor) (n : Fin 64) (b : Fin 48) (v : Word) (s : State) (hq : Keeps ⟨qq, mm, cc⟩ s) :
    KeepsO ⟨qq, mm, cc⟩ (execOwnershipWrite x n b v s) := by
  unfold execOwnershipWrite
  refine KeepsO.next ?_
  refine State.writeOwn_keeps (hq := ?_) ..
  exact hq

theorem execHandoverEnd_keeps {qq : List Instr} {cc : Option Chip} (n : Fin 64) (b : Fin 48) (s : State) (hq : Keeps ⟨qq, none, cc⟩ s) :
    KeepsO ⟨qq, none, cc⟩ (execHandoverEnd n b s) := by
  unfold execHandoverEnd
  refine KeepsO.next ?_
  refine State.endHandover_keeps (hq := ?_) ..
  exact hq

theorem State.portResponse_keeps {qq : List Instr} {mm : Option Memory} {cc : Option Chip} (s : State) (n : Nat) (b : Nat) (r : PortRsp) (hq : Keeps ⟨qq, mm, cc⟩ s) :
    Keeps ⟨qq, mm, cc⟩ (State.portResponse s n b r) := by
  unfold State.portResponse
  refine State.modFab_keeps (hq := ?_) ..
  exact hq

theorem State.fabricRequest_keeps {qq : List Instr} {cc : Option Chip} (s : State) (n : Nat) (b : Nat) (op : BankOp) (w : Nat) (mask : Nat) (d : Line) (hq : Keeps ⟨qq, none, cc⟩ s) :
    Keeps ⟨qq, none, cc⟩ (State.fabricRequest s n b op w mask d) := by
  unfold State.fabricRequest
  extract_lets x1
  refine Keeps.ite (fun _ => ?_) (fun _ => ?_)
  exact hq
  refine Keeps.ite (fun _ => ?_) (fun _ => ?_)
  refine State.portResponse_keeps (hq := ?_) ..
  refine State.answerOwner_keeps (hq := ?_) ..
  exact hq
  refine Keeps.ite (fun _ => ?_) (fun _ => ?_)
  exact hq
  split
  refine State.portResponse_keeps (hq := ?_) ..
  refine Keeps.snd_eq (by assumption) ?_
  refine State.bankAccess_keeps (hq := ?_) ..
  exact hq

theorem State.engineRequest_keeps {qq : List Instr} {cc : Option Chip} (s : State) (n : Nat) (b : Nat) (e : Nat) (op : BankOp) (full : Bool) (hq : Keeps ⟨qq, none, cc⟩ s) :
    Keeps ⟨qq, none, cc⟩ (State.engineRequest s n b e op full) := by
  unfold State.engineRequest
  split
  exact hq
  refine Keeps.ite (fun _ => ?_) (fun _ => ?_)
  exact hq
  extract_lets x1 x2 x3 x4
  refine Keeps.ite (fun _ => ?_) (fun _ => ?_)
  dsimp -zeta only [x1]
  refine State.modRegion_keeps (hq := ?_) ..
  exact hq
  refine Keeps.ite (fun _ => ?_) (fun _ => ?_)
  split
  extract_lets x5
  have h6 : Keeps ⟨qq, none, cc⟩ x5 := ?_
  dsimp -zeta only [x1]
  refine State.modRegion_keeps (hq := ?_) ..
  exact h6
  dsimp -zeta only [x5]
  refine Keeps.ite (fun _ => ?_) (fun _ => ?_)
  refine State.modMem_keeps (hq := ?_) ..
  refine Keeps.snd_eq (by assumption) ?_
  refine State.bankAccess_keeps (hq := ?_) ..
  exact hq
  refine Keeps.snd_eq (by assumption) ?_
  refine State.bankAccess_keeps (hq := ?_) ..
  exact hq
  refine Keeps.ite (fun _ => ?_) (fun _ => ?_)
  exact hq
  dsimp -zeta only [x1]
  refine State.modRegion_keeps (hq := ?_) ..
  refine State.answerOwner_keeps (hq := ?_) ..
  exact hq

theorem State.stealRequest_keeps {qq : List Instr} {cc : Option Chip} (s : State) (n : Nat) (b : Nat) (op : BankOp) (full : Bool) (hq : Keeps ⟨qq, none, cc⟩ s) :
    Keeps ⟨qq, none, cc⟩ (State.stealRequest s n b op full) := by
  unfold State.stealRequest
  split
  exact hq
  extract_lets x1 x2
  have h3 : Keeps ⟨qq, none, cc⟩ x2 := ?_
  refine Keeps.ite (fun _ => ?_) (fun _ => ?_)
  exact hq
  refine State.bankServe_keeps (hq := ?_) ..
  refine State.count_keeps (hq := ?_) ..
  exact h3
  dsimp -zeta only [x2]
  refine State.modMem_keeps (hq := ?_) ..
  exact hq

theorem State.bankCommand_keeps {qq : List Instr} {cc : Option Chip} (s : State) (n : Nat) (b : Nat) (op : BankOp) (full : Bool) (q : BankReq) (hq : Keeps ⟨qq, none, cc⟩ s) :
    Keeps ⟨qq, none, cc⟩ (State.bankCommand s n b op full q) := by
  unfold State.bankCommand
  refine Keeps.ite (fun _ => ?_) (fun _ => ?_)
  exact hq
  split
  refine State.fabricRequest_keeps (hq := ?_) ..
  exact hq
  refine State.engineRequest_keeps (hq := ?_) ..
  exact hq
  refine State.stealRequest_keeps (hq := ?_) ..
  exact hq

theorem execBankRead_keeps {qq : List Instr} {cc : Option Chip} (n : Fin 64) (b : Fin 64) (q : BankReq) (s : State) (hq : Keeps ⟨qq, none, cc⟩ s) :
    KeepsO ⟨qq, none, cc⟩ (execBankRead n b q s) := by
  unfold execBankRead
  refine KeepsO.next ?_
  refine State.bankCommand_keeps (hq := ?_) ..
  exact hq

theorem execBankWrite_keeps {qq : List Instr} {cc : Option Chip} (n : Fin 64) (b : Fin 64) (q : BankReq) (s : State) (hq : Keeps ⟨qq, none, cc⟩ s) :
    KeepsO ⟨qq, none, cc⟩ (execBankWrite n b q s) := by
  unfold execBankWrite
  refine KeepsO.next ?_
  refine State.bankCommand_keeps (hq := ?_) ..
  exact hq

theorem execBankMaskedWrite_keeps {qq : List Instr} {cc : Option Chip} (n : Fin 64) (b : Fin 64) (q : BankReq) (s : State) (hq : Keeps ⟨qq, none, cc⟩ s) :
    KeepsO ⟨qq, none, cc⟩ (execBankMaskedWrite n b q s) := by
  unfold execBankMaskedWrite
  refine KeepsO.next ?_
  refine State.bankCommand_keeps (hq := ?_) ..
  exact hq

theorem execBankAdd32_keeps {qq : List Instr} {cc : Option Chip} (n : Fin 64) (b : Fin 64) (q : BankReq) (s : State) (hq : Keeps ⟨qq, none, cc⟩ s) :
    KeepsO ⟨qq, none, cc⟩ (execBankAdd32 n b q s) := by
  unfold execBankAdd32
  refine KeepsO.next ?_
  refine State.bankCommand_keeps (hq := ?_) ..
  exact hq

theorem execBankAdd64_keeps {qq : List Instr} {cc : Option Chip} (n : Fin 64) (b : Fin 64) (q : BankReq) (s : State) (hq : Keeps ⟨qq, none, cc⟩ s) :
    KeepsO ⟨qq, none, cc⟩ (execBankAdd64 n b q s) := by
  unfold execBankAdd64
  refine KeepsO.next ?_
  refine State.bankCommand_keeps (hq := ?_) ..
  exact hq

theorem execBankSwap64_keeps {qq : List Instr} {cc : Option Chip} (n : Fin 64) (b : Fin 64) (q : BankReq) (s : State) (hq : Keeps ⟨qq, none, cc⟩ s) :
    KeepsO ⟨qq, none, cc⟩ (execBankSwap64 n b q s) := by
  unfold execBankSwap64
  refine KeepsO.next ?_
  refine State.bankCommand_keeps (hq := ?_) ..
  exact hq

theorem execStealTimeout_keeps {qq : List Instr} {mm : Option Memory} {cc : Option Chip} (n : Fin 64) (b : Fin 48) (s : State) (hq : Keeps ⟨qq, mm, cc⟩ s) :
    KeepsO ⟨qq, mm, cc⟩ (execStealTimeout n b s) := by
  unfold execStealTimeout
  split
  refine KeepsO.next ?_
  exact hq
  extract_lets x1 x2 x3
  have h4 : Keeps ⟨qq, mm, cc⟩ x3 := ?_
  refine KeepsO.next ?_
  refine State.respond_keeps (hq := ?_) ..
  refine State.answerOwner_keeps (hq := ?_) ..
  exact h4
  dsimp -zeta only [x3]
  have h5 : Keeps ⟨qq, mm, cc⟩ x2 := ?_
  refine State.logEvLimited_keeps (hq := ?_) ..
  exact h5
  dsimp -zeta only [x2]
  have h6 : Keeps ⟨qq, mm, cc⟩ x1 := ?_
  refine State.raise_keeps (hq := ?_) ..
  refine State.bump_keeps (hq := ?_) ..
  exact h6
  dsimp -zeta only [x1]
  refine State.modMem_keeps (hq := ?_) ..
  exact hq

theorem execRowRemapDone_keeps {qq : List Instr} {cc : Option Chip} (n : Fin 64) (s : State) (hq : Keeps ⟨qq, none, cc⟩ s) :
    KeepsO ⟨qq, none, cc⟩ (execRowRemapDone n s) := by
  unfold execRowRemapDone
  refine KeepsO.next ?_
  refine State.remapRow_keeps (hq := ?_) ..
  exact hq

theorem execBankCopyDone_keeps {qq : List Instr} {cc : Option Chip} (n : Fin 64) (s : State) (hq : Keeps ⟨qq, none, cc⟩ s) :
    KeepsO ⟨qq, none, cc⟩ (execBankCopyDone n s) := by
  unfold execBankCopyDone
  refine KeepsO.next ?_
  refine Keeps.ite (fun _ => ?_) (fun _ => ?_)
  refine State.bankCopied_keeps (hq := ?_) ..
  exact hq
  exact hq

end

end Sys2Proof.Machine
end

