-- ==== Sys2Proof/Laws/KeepsEngine.lean ====
section
/-! SUPPORT. Keeps (Laws/Keeps) for the engines and the patrols:
one lemma per function, each from those of the functions it calls. -/

namespace Sys2Proof.Machine

section

set_option simprocs false

theorem State.pendSrc_keeps {qq : List Instr} {mm : Option Memory} {cc : Option Chip} (s : State) (id : EngId) (k : Nat) (hq : Keeps ⟨qq, mm, cc⟩ s) :
    Keeps ⟨qq, mm, cc⟩ (State.pendSrc s id k) := by
  unfold State.pendSrc
  refine State.modEng_keeps (hq := ?_) ..
  exact hq

theorem State.engBump_keeps {qq : List Instr} {mm : Option Memory} {cc : Option Chip} (s : State) (id : EngId) (f : Nat → Nat → Fld) (hq : Keeps ⟨qq, mm, cc⟩ s) :
    Keeps ⟨qq, mm, cc⟩ (State.engBump s id f) := by
  unfold State.engBump
  split
  refine State.bump_keeps (hq := ?_) ..
  exact hq
  exact hq

theorem State.consume_keeps {qq : List Instr} {mm : Option Memory} {cc : Option Chip} (s : State) (id : EngId) (hq : Keeps ⟨qq, mm, cc⟩ s) :
    Keeps ⟨qq, mm, cc⟩ (State.consume s id) := by
  unfold State.consume
  extract_lets x1 x2 x3
  have h4 : Keeps ⟨qq, mm, cc⟩ x3 := ?_
  refine State.logEvLimited_keeps (hq := ?_) ..
  exact h4
  dsimp -zeta only [x3]
  have h5 : Keeps ⟨qq, mm, cc⟩ x2 := ?_
  refine State.engBump_keeps (hq := ?_) ..
  refine State.pendSrc_keeps (hq := ?_) ..
  exact h5
  dsimp -zeta only [x2]
  refine State.modEng_keeps (hq := ?_) ..
  exact hq

theorem State.latchBerr_keeps {qq : List Instr} {mm : Option Memory} {cc : Option Chip} (s : State) (id : EngId) (status : Nat) (bank : Nat) (addr : Nat) (pfetch : Bool) (hq : Keeps ⟨qq, mm, cc⟩ s) :
    Keeps ⟨qq, mm, cc⟩ (State.latchBerr s id status bank addr pfetch) := by
  unfold State.latchBerr
  split
  refine Keeps.ite (fun _ => ?_) (fun _ => ?_)
  exact hq
  refine State.wr_keeps (hq := ?_) ..
  refine State.wr_keeps (hq := ?_) ..
  refine State.wr_keeps (hq := ?_) ..
  refine State.wr_keeps (hq := ?_) ..
  refine State.wr_keeps (hq := ?_) ..
  exact hq
  exact hq

theorem State.bankError_keeps {qq : List Instr} {mm : Option Memory} {cc : Option Chip} (s : State) (id : EngId) (status : Nat) (bank : Nat) (addr : Nat) (pc : Nat) (hq : Keeps ⟨qq, mm, cc⟩ s) :
    Keeps ⟨qq, mm, cc⟩ (State.bankError s id status bank addr pc) := by
  unfold State.bankError
  extract_lets x1
  have h2 : Keeps ⟨qq, mm, cc⟩ x1 := ?_
  split
  refine State.logEvLimited_keeps (hq := ?_) ..
  exact h2
  exact h2
  dsimp -zeta only [x1]
  refine State.engBump_keeps (hq := ?_) ..
  refine State.pendSrc_keeps (hq := ?_) ..
  refine State.latchBerr_keeps (hq := ?_) ..
  exact hq

theorem State.poisonFetch_keeps {qq : List Instr} {mm : Option Memory} {cc : Option Chip} (s : State) (id : EngId) (pc : Nat) (hq : Keeps ⟨qq, mm, cc⟩ s) :
    Keeps ⟨qq, mm, cc⟩ (State.poisonFetch s id pc) := by
  unfold State.poisonFetch
  extract_lets x1
  have h2 : Keeps ⟨qq, mm, cc⟩ x1 := ?_
  refine State.logEvLimited_keeps (hq := ?_) ..
  exact h2
  dsimp -zeta only [x1]
  refine State.pendSrc_keeps (hq := ?_) ..
  refine State.latchBerr_keeps (hq := ?_) ..
  exact hq

theorem State.enterIrq_keeps {qq : List Instr} {mm : Option Memory} {cc : Option Chip} (s : State) (id : EngId) (k : Nat) (ira : Nat) (hq : Keeps ⟨qq, mm, cc⟩ s) :
    Keeps ⟨qq, mm, cc⟩ (State.enterIrq s id k ira) := by
  unfold State.enterIrq
  extract_lets x1 x2
  have h3 : Keeps ⟨qq, mm, cc⟩ x1 := ?_
  refine Keeps.ite (fun _ => ?_) (fun _ => ?_)
  refine Keeps.mk_other ?_
  exact h3
  exact h3
  dsimp -zeta only [x1]
  refine State.modEng_keeps (hq := ?_) ..
  exact hq

theorem State.engCycle_keeps {qq : List Instr} {mm : Option Memory} {cc : Option Chip} (s : State) (id : EngId) (hq : Keeps ⟨qq, mm, cc⟩ s) :
    Keeps ⟨qq, mm, cc⟩ (State.engCycle s id) := by
  unfold State.engCycle
  extract_lets x1 x2
  have h3 : Keeps ⟨qq, mm, cc⟩ x2 := ?_
  refine Keeps.ite (fun _ => ?_) (fun _ => ?_)
  refine State.pendSrc_keeps (hq := ?_) ..
  exact h3
  exact h3
  dsimp -zeta only [x2]
  refine State.modEng_keeps (hq := ?_) ..
  exact hq

theorem State.stall_keeps {qq : List Instr} {mm : Option Memory} {cc : Option Chip} (s : State) (id : EngId) (hq : Keeps ⟨qq, mm, cc⟩ s) :
    Keeps ⟨qq, mm, cc⟩ (State.stall s id) := by
  unfold State.stall
  extract_lets x1
  have h2 : Keeps ⟨qq, mm, cc⟩ x1 := ?_
  refine State.engCycle_keeps (hq := ?_) ..
  exact h2
  dsimp -zeta only [x1]
  split
  refine State.count_keeps (hq := ?_) ..
  exact hq
  exact hq

theorem State.endProgram_keeps {qq : List Instr} {mm : Option Memory} {cc : Option Chip} (s : State) (id : EngId) (next : Nat) (hq : Keeps ⟨qq, mm, cc⟩ s) :
    Keeps ⟨qq, mm, cc⟩ (State.endProgram s id next) := by
  unfold State.endProgram
  extract_lets x1
  have h2 : Keeps ⟨qq, mm, cc⟩ x1 := ?_
  split
  refine State.enterIrq_keeps (hq := ?_) ..
  exact h2
  refine State.modEng_keeps (hq := ?_) ..
  exact h2
  dsimp -zeta only [x1]
  refine State.modEng_keeps (hq := ?_) ..
  exact hq

theorem State.takeXfer_keeps {qq : List Instr} {mm : Option Memory} {cc : Option Chip} (s : State) (id : EngId) (a : XferAct) (next : Nat) (hq : Keeps ⟨qq, mm, cc⟩ s) :
    Keeps ⟨qq, mm, cc⟩ (State.takeXfer s id a next) := by
  unfold State.takeXfer
  split
  refine State.modEng_keeps (hq := ?_) ..
  exact hq
  refine State.modEng_keeps (hq := ?_) ..
  exact hq
  refine State.modEng_keeps (hq := ?_) ..
  exact hq
  extract_lets x1 x2
  have h3 : Keeps ⟨qq, mm, cc⟩ x2 := ?_
  refine State.endProgram_keeps (hq := ?_) ..
  exact h3
  dsimp -zeta only [x2]
  split
  extract_lets x4
  refine State.reportDone_keeps (hq := ?_) ..
  exact hq
  exact hq
  refine State.endProgram_keeps (hq := ?_) ..
  exact hq

theorem State.retire_keeps {qq : List Instr} {mm : Option Memory} {cc : Option Chip} (s : State) (id : EngId) (fresh : Option Xfer) (skip : Option Nat) (hq : Keeps ⟨qq, mm, cc⟩ s) :
    Keeps ⟨qq, mm, cc⟩ (State.retire s id fresh skip) := by
  unfold State.retire
  extract_lets x1 x2 x3 x4 x5 x6 x7
  have h8 : Keeps ⟨qq, mm, cc⟩ x6 := ?_
  split
  refine Keeps.ite (fun _ => ?_) (fun _ => ?_)
  refine State.modEng_keeps (hq := ?_) ..
  exact h8
  split
  split
  refine State.modEng_keeps (hq := ?_) ..
  exact h8
  refine State.takeXfer_keeps (hq := ?_) ..
  exact h8
  split
  refine State.modEng_keeps (hq := ?_) ..
  exact h8
  dsimp -zeta only [x6]
  have h9 : Keeps ⟨qq, mm, cc⟩ x3 := ?_
  refine State.engCycle_keeps (hq := ?_) ..
  refine State.modEng_keeps (hq := ?_) ..
  exact h9
  dsimp -zeta only [x3]
  have h10 : Keeps ⟨qq, mm, cc⟩ x1 := ?_
  split
  refine State.count_keeps (hq := ?_) ..
  exact hq
  refine Keeps.mk_other ?_
  exact h10
  dsimp -zeta only [x1]
  refine State.count_keeps (hq := ?_) ..
  exact hq

theorem State.failNow_keeps {qq : List Instr} {mm : Option Memory} {cc : Option Chip} (s : State) (id : EngId) (hq : Keeps ⟨qq, mm, cc⟩ s) :
    Keeps ⟨qq, mm, cc⟩ (State.failNow s id) := by
  unfold State.failNow
  split
  refine State.abortFailed_keeps (hq := ?_) ..
  exact hq
  exact hq

theorem State.markCorrected_keeps {qq : List Instr} {mm : Option Memory} {cc : Option Chip} (s : State) (id : EngId) (hq : Keeps ⟨qq, mm, cc⟩ s) :
    Keeps ⟨qq, mm, cc⟩ (State.markCorrected s id) := by
  unfold State.markCorrected
  split
  refine State.modSch_keeps (hq := ?_) ..
  exact hq
  exact hq

theorem State.dataRead_keeps {qq : List Instr} {mm : Option Memory} {cc : Option Chip} (s : State) (id : EngId) (m : Nat) (a : Nat) (hq : Keeps ⟨qq, mm, cc⟩ s) :
    Keeps ⟨qq, mm, cc⟩ (State.dataRead s id m a).2.2 := by
  unfold State.dataRead
  extract_lets x1
  split
  dsimp -zeta only
  refine Keeps.ite (fun _ => ?_) (fun _ => ?_)
  refine State.markCorrected_keeps (hq := ?_) ..
  refine Keeps.trd_eq (by assumption) ?_
  refine State.engRead_keeps (hq := ?_) ..
  exact hq
  refine Keeps.trd_eq (by assumption) ?_
  refine State.engRead_keeps (hq := ?_) ..
  exact hq

theorem State.issue_keeps {qq : List Instr} {mm : Option Memory} {cc : Option Chip} (s : State) (id : EngId) (i : State → Insn) (hq : Keeps ⟨qq, mm, cc⟩ s)
    (hb : ∀ t u, Keeps ⟨qq, mm, cc⟩ u → Keeps ⟨qq, mm, cc⟩ ((i t).body u)) : Keeps ⟨qq, mm, cc⟩ (s.issue id i) := by
  unfold State.issue
  extract_lets x1 x2 x3 x4 x5
  have h4 : Keeps ⟨qq, mm, cc⟩ x4 := State.modEng_keeps (hq := hq) ..
  refine Keeps.ite (fun _ => hq) (fun _ => ?_)
  split
  rename_i b s' e
  have h5 : Keeps ⟨qq, mm, cc⟩ s' := by
    refine Keeps.trd_eq e ?_
    split
    · exact h4
    · exact State.dataRead_keeps (hq := h4) ..
  extract_lets x6 x7
  have h6 : Keeps ⟨qq, mm, cc⟩ (x6.body s') := by
    dsimp -zeta only [x6]
    split
    · exact h5
    · exact hb _ _ h5
  refine Keeps.ite (fun _ => State.stall_keeps (hq := h4) ..) (fun _ => ?_)
  refine Keeps.ite (fun _ => State.stall_keeps (hq := h4) ..) (fun _ => ?_)
  refine Keeps.ite (fun _ => ?_) (fun _ => ?_)
  · exact State.failNow_keeps (hq := State.retire_keeps (hq := State.poisonFetch_keeps (hq := h5) ..) ..) ..
  refine Keeps.ite (fun _ => ?_) (fun _ => ?_)
  · exact State.failNow_keeps (hq := State.retire_keeps (hq := State.logEvLimited_keeps (hq := State.engBump_keeps (hq := h5) ..) ..) ..) ..
  · exact State.failNow_keeps (hq := State.retire_keeps (hq := h6) ..) ..

theorem State.transferSat_keeps {qq : List Instr} {mm : Option Memory} {cc : Option Chip} (s : State) (id : EngId) (sat : Bool) (hq : Keeps ⟨qq, mm, cc⟩ s) :
    Keeps ⟨qq, mm, cc⟩ (State.transferSat s id sat) := by
  unfold State.transferSat
  refine Keeps.ite (fun _ => ?_) (fun _ => ?_)
  refine State.modEng_keeps (hq := ?_) ..
  exact hq
  exact hq

theorem State.streamMove_keeps {qq : List Instr} {mm : Option Memory} {cc : Option Chip} (s : State) (id : EngId) (code : Nat) (hq : Keeps ⟨qq, mm, cc⟩ s) :
    Keeps ⟨qq, mm, cc⟩ (State.streamMove s id code) := by
  unfold State.streamMove
  split
  exact hq
  refine Keeps.ite (fun _ => ?_) (fun _ => ?_)
  split
  exact hq
  extract_lets x1
  have h2 : Keeps ⟨qq, mm, cc⟩ x1 := ?_
  refine State.modEng_keeps (hq := ?_) ..
  exact h2
  dsimp -zeta only [x1]
  refine State.modFab_keeps (hq := ?_) ..
  exact hq
  extract_lets x3 x4 x5
  split
  split
  split
  extract_lets x6
  refine State.transferSat_keeps (hq := ?_) ..
  refine State.modFab_keeps (hq := ?_) ..
  exact hq

theorem State.move_keeps {qq : List Instr} {mm : Option Memory} {cc : Option Chip} (s : State) (id : EngId) (g0 : Engine) (m : Nat) (v : Move) (hq : Keeps ⟨qq, mm, cc⟩ s) :
    Keeps ⟨qq, mm, cc⟩ (State.move s id g0 m v) := by
  unfold State.move
  split
  extract_lets x1
  split
  exact hq
  split
  dsimp -zeta only [x1]
  refine Keeps.ite (fun _ => ?_) (fun _ => ?_)
  refine State.modEng_keeps (hq := ?_) ..
  refine Keeps.trd_eq (by assumption) ?_
  refine State.dataRead_keeps (hq := ?_) ..
  exact hq
  refine State.modEng_keeps (hq := ?_) ..
  refine State.modEng_keeps (hq := ?_) ..
  refine Keeps.trd_eq (by assumption) ?_
  refine State.dataRead_keeps (hq := ?_) ..
  exact hq
  dsimp -zeta only [x1]
  refine Keeps.ite (fun _ => ?_) (fun _ => ?_)
  exact hq
  refine State.modEng_keeps (hq := ?_) ..
  exact hq
  refine State.streamMove_keeps (hq := ?_) ..
  exact hq
  split
  dsimp -zeta only [x1]
  refine Keeps.ite (fun _ => ?_) (fun _ => ?_)
  refine State.transferSat_keeps (hq := ?_) ..
  refine State.engStore_keeps (hq := ?_) ..
  exact hq
  refine State.modEng_keeps (hq := ?_) ..
  refine State.transferSat_keeps (hq := ?_) ..
  refine State.engStore_keeps (hq := ?_) ..
  exact hq

theorem State.moves_keeps {qq : List Instr} {mm : Option Memory} {cc : Option Chip} (s : State) (id : EngId) (dm : Move) (km : Move) (hq : Keeps ⟨qq, mm, cc⟩ s) :
    Keeps ⟨qq, mm, cc⟩ (State.moves s id dm km) := by
  unfold State.moves
  extract_lets x1 x2
  refine State.move_keeps (hq := ?_) ..
  refine State.move_keeps (hq := ?_) ..
  exact hq

theorem State.parallel_keeps {qq : List Instr} {mm : Option Memory} {cc : Option Chip} (s : State) (id : EngId) (p : Par) (ok : Bool) (srcs : List Nat) (accs : List Nat) (result : RegSet → RegSet → List (Nat × Nat) × Option FlagOut) (dst : List Nat) (hq : Keeps ⟨qq, mm, cc⟩ s) :
    Keeps ⟨qq, mm, cc⟩ (State.parallel s id p ok srcs accs result dst) := by
  unfold State.parallel
  refine State.issue_keeps (hq := ?_) (hb := fun t1 u2 h3 => ?_) ..
  exact hq
  split
  dsimp -zeta only
  refine Keeps.id ?_
  exact h3
  extract_lets x4 x5 x6
  dsimp -zeta only
  extract_lets x7 x8 x9
  have h10 : Keeps ⟨qq, mm, cc⟩ x9 := ?_
  split
  refine State.modEng_keeps (hq := ?_) ..
  exact h10
  exact h10
  dsimp -zeta only [x9]
  have h11 : Keeps ⟨qq, mm, cc⟩ x8 := ?_
  refine Keeps.foldl (fun t12 y13 h14 => ?_) ?_
  refine State.modEng_keeps (hq := ?_) ..
  exact h14
  exact h11
  dsimp -zeta only [x8]
  have h15 : Keeps ⟨qq, mm, cc⟩ x7 := ?_
  refine Keeps.ite (fun _ => ?_) (fun _ => ?_)
  refine State.consume_keeps (hq := ?_) ..
  exact h15
  exact h15
  dsimp -zeta only [x7]
  refine State.moves_keeps (hq := ?_) ..
  exact h3

theorem State.long_keeps {qq : List Instr} {mm : Option Memory} {cc : Option Chip} (s : State) (id : EngId) (regs : List Nat) (body : State → State)
    (hq : Keeps ⟨qq, mm, cc⟩ s) (hb : ∀ u, Keeps ⟨qq, mm, cc⟩ u → Keeps ⟨qq, mm, cc⟩ (body u)) : Keeps ⟨qq, mm, cc⟩ (s.long id regs body) :=
  State.issue_keeps (hq := hq) (hb := fun _ => hb) ..

theorem State.moveTo_keeps {qq : List Instr} {mm : Option Memory} {cc : Option Chip} (s : State) (id : EngId) (c : Nat) (v : Nat) (tag : Bool) (hq : Keeps ⟨qq, mm, cc⟩ s) :
    Keeps ⟨qq, mm, cc⟩ (State.moveTo s id c v tag) := by
  unfold State.moveTo
  extract_lets x1
  have h2 : Keeps ⟨qq, mm, cc⟩ x1 := ?_
  refine State.modEng_keeps (hq := ?_) ..
  exact h2
  dsimp -zeta only [x1]
  refine Keeps.ite (fun _ => ?_) (fun _ => ?_)
  refine State.consume_keeps (hq := ?_) ..
  exact hq
  exact hq

theorem State.windowIssue_keeps {qq : List Instr} {mm : Option Memory} {cc : Option Chip} (s : State) (id : EngId) (w : WinArgs) (mk : Nat → WinReq) (hq : Keeps ⟨qq, mm, cc⟩ s) :
    Keeps ⟨qq, mm, cc⟩ (State.windowIssue s id w mk) := by
  unfold State.windowIssue
  extract_lets x1
  split
  extract_lets x2
  have h3 : Keeps ⟨qq, mm, cc⟩ x2 := ?_
  refine State.modEng_keeps (hq := ?_) ..
  exact h3
  dsimp -zeta only [x2]
  refine Keeps.ite (fun _ => ?_) (fun _ => ?_)
  exact hq
  refine State.modEng_keeps (hq := ?_) ..
  exact hq

theorem State.windowNone_keeps {qq : List Instr} {mm : Option Memory} {cc : Option Chip} (s : State) (id : EngId) (w : WinArgs) (dst : List Nat) (tag : Bool) (hq : Keeps ⟨qq, mm, cc⟩ s) :
    Keeps ⟨qq, mm, cc⟩ (State.windowNone s id w dst tag) := by
  unfold State.windowNone
  split
  extract_lets x1
  have h2 : Keeps ⟨qq, mm, cc⟩ x1 := ?_
  refine Keeps.foldl (fun t3 y4 h5 => ?_) ?_
  refine State.modEng_keeps (hq := ?_) ..
  exact h5
  exact h2
  dsimp -zeta only [x1]
  refine Keeps.ite (fun _ => ?_) (fun _ => ?_)
  exact hq
  refine State.modEng_keeps (hq := ?_) ..
  exact hq

theorem State.windowLand_keeps {qq : List Instr} {mm : Option Memory} {cc : Option Chip} (s : State) (n : Nat) (e : Nat) (hq : Keeps ⟨qq, mm, cc⟩ s) :
    Keeps ⟨qq, mm, cc⟩ (State.windowLand s n e) := by
  unfold State.windowLand
  extract_lets x1 x2
  split
  exact hq
  split
  exact hq
  extract_lets x3 x4 x5 x6
  have h7 : Keeps ⟨qq, mm, cc⟩ x6 := ?_
  refine Keeps.ite (fun _ => ?_) (fun _ => ?_)
  refine State.bankError_keeps (hq := ?_) ..
  exact h7
  exact h7
  dsimp -zeta only [x6]
  have h8 : Keeps ⟨qq, mm, cc⟩ x5 := ?_
  refine Keeps.ite (fun _ => ?_) (fun _ => ?_)
  dsimp -zeta only [x2]
  refine State.modSch_keeps (hq := ?_) ..
  exact h8
  refine Keeps.ite (fun _ => ?_) (fun _ => ?_)
  dsimp -zeta only [x2]
  refine State.modSch_keeps (hq := ?_) ..
  exact h8
  exact h8
  dsimp -zeta only [x5]
  have h9 : Keeps ⟨qq, mm, cc⟩ x3 := ?_
  refine Keeps.foldl (fun t10 y11 h12 => ?_) ?_
  refine State.modEngAt_keeps (hq := ?_) ..
  exact h12
  exact h9
  dsimp -zeta only [x3]
  refine State.modEngAt_keeps (hq := ?_) ..
  exact hq

theorem State.maddrNext_keeps {qq : List Instr} {mm : Option Memory} {cc : Option Chip} (s : State) (n : Nat) (e : Nat) (hq : Keeps ⟨qq, mm, cc⟩ s) :
    Keeps ⟨qq, mm, cc⟩ (State.maddrNext s n e) := by
  unfold State.maddrNext
  split
  refine State.wr_keeps (hq := ?_) ..
  exact hq

theorem State.readMdata_keeps {qq : List Instr} {mm : Option Memory} {cc : Option Chip} (s : State) (n : Nat) (e : Nat) (hq : Keeps ⟨qq, mm, cc⟩ s) :
    Keeps ⟨qq, mm, cc⟩ (State.readMdata s n e) := by
  unfold State.readMdata
  split
  refine Keeps.ite (fun _ => ?_) (fun _ => ?_)
  refine Keeps.mk_other ?_
  exact hq
  split
  extract_lets x1 x2
  have h3 : Keeps ⟨qq, mm, cc⟩ x2 := ?_
  refine Keeps.mk_other ?_
  exact h3
  dsimp -zeta only [x2]
  have h4 : Keeps ⟨qq, mm, cc⟩ x1 := ?_
  refine State.abortFailed_keeps (hq := ?_) ..
  refine State.maddrNext_keeps (hq := ?_) ..
  exact h4
  dsimp -zeta only [x1]
  refine State.wr_keeps (hq := ?_) ..
  refine State.wr_keeps (hq := ?_) ..
  refine State.wr_keeps (hq := ?_) ..
  refine Keeps.trd_eq (by assumption) ?_
  refine State.engRead_keeps (hq := ?_) ..
  exact hq

theorem State.writeMdata_keeps {qq : List Instr} {mm : Option Memory} {cc : Option Chip} (s : State) (n : Nat) (e : Nat) (v : Nat) (hq : Keeps ⟨qq, mm, cc⟩ s) :
    Keeps ⟨qq, mm, cc⟩ (State.writeMdata s n e v) := by
  unfold State.writeMdata
  split
  extract_lets x1 x2 x3
  have h4 : Keeps ⟨qq, mm, cc⟩ x2 := ?_
  refine Keeps.ite (fun _ => ?_) (fun _ => ?_)
  exact h4
  refine Keeps.ite (fun _ => ?_) (fun _ => ?_)
  refine Keeps.ite (fun _ => ?_) (fun _ => ?_)
  refine State.maddrNext_keeps (hq := ?_) ..
  refine State.evictAt_keeps (hq := ?_) ..
  refine State.engStoreP_keeps (hq := ?_) ..
  exact h4
  refine State.raise_keeps (hq := ?_) ..
  exact h4
  refine State.maddrNext_keeps (hq := ?_) ..
  refine State.engStore_keeps (hq := ?_) ..
  exact h4
  dsimp -zeta only [x2]
  have h5 : Keeps ⟨qq, mm, cc⟩ x1 := ?_
  refine Keeps.mk_other ?_
  exact h5
  dsimp -zeta only [x1]
  refine State.wr_keeps (hq := ?_) ..
  refine State.wr_keeps (hq := ?_) ..
  exact hq

theorem State.product_keeps {qq : List Instr} {mm : Option Memory} {cc : Option Chip} (s : State) (g : EngId) (p : Par) (accs : List Nat) (f : RegSet → RegSet → AccOut) (hq : Keeps ⟨qq, mm, cc⟩ s) :
    Keeps ⟨qq, mm, cc⟩ (State.product s g p accs f) := by
  unfold State.product
  refine State.parallel_keeps (hq := ?_) ..
  exact hq

theorem State.dualProduct_keeps {qq : List Instr} {mm : Option Memory} {cc : Option Chip} (s : State) (g : EngId) (p : Par) (accs : List Nat) (f : RegSet → RegSet → AccOut × AccOut) (hq : Keeps ⟨qq, mm, cc⟩ s) :
    Keeps ⟨qq, mm, cc⟩ (State.dualProduct s g p accs f) := by
  unfold State.dualProduct
  refine State.parallel_keeps (hq := ?_) ..
  exact hq

theorem State.onSource_keeps {qq : List Instr} {mm : Option Memory} {cc : Option Chip} (s : State) (g : EngId) (p : Par) (accs : List Nat) (f : Int → Nat → AccOut) (hq : Keeps ⟨qq, mm, cc⟩ s) :
    Keeps ⟨qq, mm, cc⟩ (State.onSource s g p accs f) := by
  unfold State.onSource
  refine State.parallel_keeps (hq := ?_) ..
  exact hq

theorem State.onAcc_keeps {qq : List Instr} {mm : Option Memory} {cc : Option Chip} (s : State) (g : EngId) (p : Par) (ok : Bool) (accs : List Nat) (f : Nat → AccOut) (hq : Keeps ⟨qq, mm, cc⟩ s) :
    Keeps ⟨qq, mm, cc⟩ (State.onAcc s g p ok accs f) := by
  unfold State.onAcc
  refine State.parallel_keeps (hq := ?_) ..
  exact hq

theorem State.onBits_keeps {qq : List Instr} {mm : Option Memory} {cc : Option Chip} (s : State) (g : EngId) (p : Par) (f : Nat → Nat → Nat) (hq : Keeps ⟨qq, mm, cc⟩ s) :
    Keeps ⟨qq, mm, cc⟩ (State.onBits s g p f) := by
  unfold State.onBits
  refine State.parallel_keeps (hq := ?_) ..
  exact hq

theorem execNop_keeps {qq : List Instr} {mm : Option Memory} {cc : Option Chip} (g : EngId) (p : Par) (s : State) (hq : Keeps ⟨qq, mm, cc⟩ s) :
    KeepsO ⟨qq, mm, cc⟩ (execNop g p s) := by
  unfold execNop
  refine KeepsO.next ?_
  refine State.parallel_keeps (hq := ?_) ..
  exact hq

theorem execMpy_keeps {qq : List Instr} {mm : Option Memory} {cc : Option Chip} (g : EngId) (p : Par) (s : State) (hq : Keeps ⟨qq, mm, cc⟩ s) :
    KeepsO ⟨qq, mm, cc⟩ (execMpy g p s) := by
  unfold execMpy
  refine KeepsO.next ?_
  refine State.product_keeps (hq := ?_) ..
  exact hq

theorem execMpyn_keeps {qq : List Instr} {mm : Option Memory} {cc : Option Chip} (g : EngId) (p : Par) (s : State) (hq : Keeps ⟨qq, mm, cc⟩ s) :
    KeepsO ⟨qq, mm, cc⟩ (execMpyn g p s) := by
  unfold execMpyn
  refine KeepsO.next ?_
  refine State.product_keeps (hq := ?_) ..
  exact hq

theorem execMac_keeps {qq : List Instr} {mm : Option Memory} {cc : Option Chip} (g : EngId) (p : Par) (s : State) (hq : Keeps ⟨qq, mm, cc⟩ s) :
    KeepsO ⟨qq, mm, cc⟩ (execMac g p s) := by
  unfold execMac
  refine KeepsO.next ?_
  refine State.product_keeps (hq := ?_) ..
  exact hq

theorem execMacn_keeps {qq : List Instr} {mm : Option Memory} {cc : Option Chip} (g : EngId) (p : Par) (s : State) (hq : Keeps ⟨qq, mm, cc⟩ s) :
    KeepsO ⟨qq, mm, cc⟩ (execMacn g p s) := by
  unfold execMacn
  refine KeepsO.next ?_
  refine State.product_keeps (hq := ?_) ..
  exact hq

theorem execDmpy_keeps {qq : List Instr} {mm : Option Memory} {cc : Option Chip} (g : EngId) (p : Par) (s : State) (hq : Keeps ⟨qq, mm, cc⟩ s) :
    KeepsO ⟨qq, mm, cc⟩ (execDmpy g p s) := by
  unfold execDmpy
  refine KeepsO.next ?_
  refine State.dualProduct_keeps (hq := ?_) ..
  exact hq

theorem execDmac_keeps {qq : List Instr} {mm : Option Memory} {cc : Option Chip} (g : EngId) (p : Par) (s : State) (hq : Keeps ⟨qq, mm, cc⟩ s) :
    KeepsO ⟨qq, mm, cc⟩ (execDmac g p s) := by
  unfold execDmac
  refine KeepsO.next ?_
  refine State.dualProduct_keeps (hq := ?_) ..
  exact hq

theorem execDmacx_keeps {qq : List Instr} {mm : Option Memory} {cc : Option Chip} (g : EngId) (p : Par) (s : State) (hq : Keeps ⟨qq, mm, cc⟩ s) :
    KeepsO ⟨qq, mm, cc⟩ (execDmacx g p s) := by
  unfold execDmacx
  refine KeepsO.next ?_
  refine State.dualProduct_keeps (hq := ?_) ..
  exact hq

theorem execAdd_keeps {qq : List Instr} {mm : Option Memory} {cc : Option Chip} (g : EngId) (p : Par) (s : State) (hq : Keeps ⟨qq, mm, cc⟩ s) :
    KeepsO ⟨qq, mm, cc⟩ (execAdd g p s) := by
  unfold execAdd
  refine KeepsO.next ?_
  refine State.onSource_keeps (hq := ?_) ..
  exact hq

theorem execSub_keeps {qq : List Instr} {mm : Option Memory} {cc : Option Chip} (g : EngId) (p : Par) (s : State) (hq : Keeps ⟨qq, mm, cc⟩ s) :
    KeepsO ⟨qq, mm, cc⟩ (execSub g p s) := by
  unfold execSub
  refine KeepsO.next ?_
  refine State.onSource_keeps (hq := ?_) ..
  exact hq

theorem execCmp_keeps {qq : List Instr} {mm : Option Memory} {cc : Option Chip} (g : EngId) (p : Par) (s : State) (hq : Keeps ⟨qq, mm, cc⟩ s) :
    KeepsO ⟨qq, mm, cc⟩ (execCmp g p s) := by
  unfold execCmp
  refine KeepsO.next ?_
  refine State.parallel_keeps (hq := ?_) ..
  exact hq

theorem execCopy_keeps {qq : List Instr} {mm : Option Memory} {cc : Option Chip} (g : EngId) (p : Par) (s : State) (hq : Keeps ⟨qq, mm, cc⟩ s) :
    KeepsO ⟨qq, mm, cc⟩ (execCopy g p s) := by
  unfold execCopy
  refine KeepsO.next ?_
  refine State.onSource_keeps (hq := ?_) ..
  exact hq

theorem execNeg_keeps {qq : List Instr} {mm : Option Memory} {cc : Option Chip} (g : EngId) (p : Par) (s : State) (hq : Keeps ⟨qq, mm, cc⟩ s) :
    KeepsO ⟨qq, mm, cc⟩ (execNeg g p s) := by
  unfold execNeg
  refine KeepsO.next ?_
  refine State.onAcc_keeps (hq := ?_) ..
  exact hq

theorem execAbs_keeps {qq : List Instr} {mm : Option Memory} {cc : Option Chip} (g : EngId) (p : Par) (s : State) (hq : Keeps ⟨qq, mm, cc⟩ s) :
    KeepsO ⟨qq, mm, cc⟩ (execAbs g p s) := by
  unfold execAbs
  refine KeepsO.next ?_
  refine State.onAcc_keeps (hq := ?_) ..
  exact hq

theorem execClr_keeps {qq : List Instr} {mm : Option Memory} {cc : Option Chip} (g : EngId) (p : Par) (s : State) (hq : Keeps ⟨qq, mm, cc⟩ s) :
    KeepsO ⟨qq, mm, cc⟩ (execClr g p s) := by
  unfold execClr
  refine KeepsO.next ?_
  refine State.onAcc_keeps (hq := ?_) ..
  exact hq

theorem execRndc_keeps {qq : List Instr} {mm : Option Memory} {cc : Option Chip} (g : EngId) (p : Par) (s : State) (hq : Keeps ⟨qq, mm, cc⟩ s) :
    KeepsO ⟨qq, mm, cc⟩ (execRndc g p s) := by
  unfold execRndc
  refine KeepsO.next ?_
  refine State.onAcc_keeps (hq := ?_) ..
  exact hq

theorem execAsl_keeps {qq : List Instr} {mm : Option Memory} {cc : Option Chip} (g : EngId) (p : Par) (s : State) (hq : Keeps ⟨qq, mm, cc⟩ s) :
    KeepsO ⟨qq, mm, cc⟩ (execAsl g p s) := by
  unfold execAsl
  refine KeepsO.next ?_
  refine State.onAcc_keeps (hq := ?_) ..
  exact hq

theorem execAsr_keeps {qq : List Instr} {mm : Option Memory} {cc : Option Chip} (g : EngId) (p : Par) (s : State) (hq : Keeps ⟨qq, mm, cc⟩ s) :
    KeepsO ⟨qq, mm, cc⟩ (execAsr g p s) := by
  unfold execAsr
  refine KeepsO.next ?_
  refine State.onAcc_keeps (hq := ?_) ..
  exact hq

theorem execAnd_keeps {qq : List Instr} {mm : Option Memory} {cc : Option Chip} (g : EngId) (p : Par) (s : State) (hq : Keeps ⟨qq, mm, cc⟩ s) :
    KeepsO ⟨qq, mm, cc⟩ (execAnd g p s) := by
  unfold execAnd
  refine KeepsO.next ?_
  refine State.onBits_keeps (hq := ?_) ..
  exact hq

theorem execOr_keeps {qq : List Instr} {mm : Option Memory} {cc : Option Chip} (g : EngId) (p : Par) (s : State) (hq : Keeps ⟨qq, mm, cc⟩ s) :
    KeepsO ⟨qq, mm, cc⟩ (execOr g p s) := by
  unfold execOr
  refine KeepsO.next ?_
  refine State.onBits_keeps (hq := ?_) ..
  exact hq

theorem execXor_keeps {qq : List Instr} {mm : Option Memory} {cc : Option Chip} (g : EngId) (p : Par) (s : State) (hq : Keeps ⟨qq, mm, cc⟩ s) :
    KeepsO ⟨qq, mm, cc⟩ (execXor g p s) := by
  unfold execXor
  refine KeepsO.next ?_
  refine State.onBits_keeps (hq := ?_) ..
  exact hq

theorem execMax_keeps {qq : List Instr} {mm : Option Memory} {cc : Option Chip} (g : EngId) (p : Par) (s : State) (hq : Keeps ⟨qq, mm, cc⟩ s) :
    KeepsO ⟨qq, mm, cc⟩ (execMax g p s) := by
  unfold execMax
  refine KeepsO.next ?_
  refine State.onSource_keeps (hq := ?_) ..
  exact hq

theorem execMin_keeps {qq : List Instr} {mm : Option Memory} {cc : Option Chip} (g : EngId) (p : Par) (s : State) (hq : Keeps ⟨qq, mm, cc⟩ s) :
    KeepsO ⟨qq, mm, cc⟩ (execMin g p s) := by
  unfold execMin
  refine KeepsO.next ?_
  refine State.onSource_keeps (hq := ?_) ..
  exact hq

theorem State.oneMove_keeps {qq : List Instr} {mm : Option Memory} {cc : Option Chip} (s : State) (g : EngId) (k : Bool) (m : Move) (hq : Keeps ⟨qq, mm, cc⟩ s) :
    Keeps ⟨qq, mm, cc⟩ (State.oneMove s g k m) := by
  unfold State.oneMove
  refine State.parallel_keeps (hq := ?_) ..
  exact hq

theorem execLoad_keeps {qq : List Instr} {mm : Option Memory} {cc : Option Chip} (g : EngId) (k : Bool) (reg : Fin 8) (mode : Fin 8) (ptr : Fin 8) (s : State) (hq : Keeps ⟨qq, mm, cc⟩ s) :
    KeepsO ⟨qq, mm, cc⟩ (execLoad g k reg mode ptr s) := by
  unfold execLoad
  refine KeepsO.next ?_
  refine State.oneMove_keeps (hq := ?_) ..
  exact hq

theorem execStore_keeps {qq : List Instr} {mm : Option Memory} {cc : Option Chip} (g : EngId) (k : Bool) (reg : Fin 8) (mode : Fin 8) (ptr : Fin 8) (s : State) (hq : Keeps ⟨qq, mm, cc⟩ s) :
    KeepsO ⟨qq, mm, cc⟩ (execStore g k reg mode ptr s) := by
  unfold execStore
  refine KeepsO.next ?_
  refine State.oneMove_keeps (hq := ?_) ..
  exact hq

theorem execStoreR_keeps {qq : List Instr} {mm : Option Memory} {cc : Option Chip} (g : EngId) (k : Bool) (reg : Fin 8) (mode : Fin 8) (ptr : Fin 8) (s : State) (hq : Keeps ⟨qq, mm, cc⟩ s) :
    KeepsO ⟨qq, mm, cc⟩ (execStoreR g k reg mode ptr s) := by
  unfold execStoreR
  refine KeepsO.next ?_
  refine State.oneMove_keeps (hq := ?_) ..
  exact hq

theorem execStoreS_keeps {qq : List Instr} {mm : Option Memory} {cc : Option Chip} (g : EngId) (k : Bool) (reg : Fin 8) (mode : Fin 8) (ptr : Fin 8) (s : State) (hq : Keeps ⟨qq, mm, cc⟩ s) :
    KeepsO ⟨qq, mm, cc⟩ (execStoreS g k reg mode ptr s) := by
  unfold execStoreS
  refine KeepsO.next ?_
  refine State.oneMove_keeps (hq := ?_) ..
  exact hq

theorem execStoreRs_keeps {qq : List Instr} {mm : Option Memory} {cc : Option Chip} (g : EngId) (k : Bool) (reg : Fin 8) (mode : Fin 8) (ptr : Fin 8) (s : State) (hq : Keeps ⟨qq, mm, cc⟩ s) :
    KeepsO ⟨qq, mm, cc⟩ (execStoreRs g k reg mode ptr s) := by
  unfold execStoreRs
  refine KeepsO.next ?_
  refine State.oneMove_keeps (hq := ?_) ..
  exact hq

theorem execUpdate_keeps {qq : List Instr} {mm : Option Memory} {cc : Option Chip} (g : EngId) (k : Bool) (mode : Fin 8) (ptr : Fin 8) (s : State) (hq : Keeps ⟨qq, mm, cc⟩ s) :
    KeepsO ⟨qq, mm, cc⟩ (execUpdate g k mode ptr s) := by
  unfold execUpdate
  refine KeepsO.next ?_
  refine State.oneMove_keeps (hq := ?_) ..
  exact hq

theorem execStream_keeps {qq : List Instr} {mm : Option Memory} {cc : Option Chip} (g : EngId) (k : Bool) (code : Fin 8) (s : State) (hq : Keeps ⟨qq, mm, cc⟩ s) :
    KeepsO ⟨qq, mm, cc⟩ (execStream g k code s) := by
  unfold execStream
  refine KeepsO.next ?_
  refine State.oneMove_keeps (hq := ?_) ..
  exact hq

theorem execLdi_keeps {qq : List Instr} {mm : Option Memory} {cc : Option Chip} (g : EngId) (dst : Fin 64) (imm : BitVec 24) (s : State) (hq : Keeps ⟨qq, mm, cc⟩ s) :
    KeepsO ⟨qq, mm, cc⟩ (execLdi g dst imm s) := by
  unfold execLdi
  refine KeepsO.next ?_
  refine State.long_keeps (hq := ?_) (hb := fun u1 h2 => ?_) ..
  exact hq
  refine State.modEng_keeps (hq := ?_) ..
  exact h2

theorem execMovr_keeps {qq : List Instr} {mm : Option Memory} {cc : Option Chip} (g : EngId) (dst : Fin 64) (src : Fin 64) (rnd : Bool) (sat : Bool) (s : State) (hq : Keeps ⟨qq, mm, cc⟩ s) :
    KeepsO ⟨qq, mm, cc⟩ (execMovr g dst src rnd sat s) := by
  unfold execMovr
  refine KeepsO.next ?_
  refine State.long_keeps (hq := ?_) (hb := fun u1 h2 => ?_) ..
  exact hq
  extract_lets x3
  split
  refine State.transferSat_keeps (hq := ?_) ..
  refine State.moveTo_keeps (hq := ?_) ..
  exact h2

theorem execMovm_keeps {qq : List Instr} {mm : Option Memory} {cc : Option Chip} (g : EngId) (a : MovmArgs) (s : State) (hq : Keeps ⟨qq, mm, cc⟩ s) :
    KeepsO ⟨qq, mm, cc⟩ (execMovm g a s) := by
  unfold execMovm
  refine KeepsO.ite (fun _ => ?_) (fun _ => ?_)
  refine KeepsO.next ?_
  refine State.long_keeps (hq := ?_) (hb := fun u1 h2 => ?_) ..
  exact hq
  refine Keeps.id ?_
  exact h2
  refine KeepsO.next ?_
  refine State.long_keeps (hq := ?_) (hb := fun u3 h4 => ?_) ..
  exact hq
  extract_lets x5 x6
  split
  extract_lets x7 x8
  have h9 : Keeps ⟨qq, mm, cc⟩ x8 := ?_
  refine Keeps.ite (fun _ => ?_) (fun _ => ?_)
  split
  refine State.transferSat_keeps (hq := ?_) ..
  refine State.engStore_keeps (hq := ?_) ..
  exact h9
  split
  refine State.moveTo_keeps (hq := ?_) ..
  refine Keeps.trd_eq (by assumption) ?_
  refine State.dataRead_keeps (hq := ?_) ..
  exact h9
  dsimp -zeta only [x8]
  refine Keeps.ite (fun _ => ?_) (fun _ => ?_)
  exact h4
  refine State.modEng_keeps (hq := ?_) ..
  exact h4

theorem execAddi_keeps {qq : List Instr} {mm : Option Memory} {cc : Option Chip} (g : EngId) (d : Bool) (rnd : Bool) (sat : Bool) (imm : BitVec 24) (s : State) (hq : Keeps ⟨qq, mm, cc⟩ s) :
    KeepsO ⟨qq, mm, cc⟩ (execAddi g d rnd sat imm s) := by
  unfold execAddi
  extract_lets x1
  refine KeepsO.next ?_
  refine State.long_keeps (hq := ?_) (hb := fun u2 h3 => ?_) ..
  exact hq
  extract_lets x4 x5 x6 x7
  have h8 : Keeps ⟨qq, mm, cc⟩ x6 := ?_
  refine State.modEng_keeps (hq := ?_) ..
  exact h8
  dsimp -zeta only [x6]
  refine Keeps.ite (fun _ => ?_) (fun _ => ?_)
  refine State.consume_keeps (hq := ?_) ..
  exact h3
  exact h3

theorem execCmpi_keeps {qq : List Instr} {mm : Option Memory} {cc : Option Chip} (g : EngId) (d : Bool) (imm : BitVec 24) (s : State) (hq : Keeps ⟨qq, mm, cc⟩ s) :
    KeepsO ⟨qq, mm, cc⟩ (execCmpi g d imm s) := by
  unfold execCmpi
  extract_lets x1
  refine KeepsO.next ?_
  refine State.long_keeps (hq := ?_) (hb := fun u2 h3 => ?_) ..
  exact hq
  extract_lets x4 x5 x6
  have h7 : Keeps ⟨qq, mm, cc⟩ x6 := ?_
  refine State.modEng_keeps (hq := ?_) ..
  exact h7
  dsimp -zeta only [x6]
  refine Keeps.ite (fun _ => ?_) (fun _ => ?_)
  refine State.consume_keeps (hq := ?_) ..
  exact h3
  exact h3

theorem execSws_keeps {qq : List Instr} {mm : Option Memory} {cc : Option Chip} (g : EngId) (m : BitVec 16) (s : State) (hq : Keeps ⟨qq, mm, cc⟩ s) :
    KeepsO ⟨qq, mm, cc⟩ (execSws g m s) := by
  unfold execSws
  refine KeepsO.next ?_
  refine State.long_keeps (hq := ?_) (hb := fun u1 h2 => ?_) ..
  exact hq
  refine State.modEng_keeps (hq := ?_) ..
  exact h2

theorem execSwc_keeps {qq : List Instr} {mm : Option Memory} {cc : Option Chip} (g : EngId) (m : BitVec 16) (s : State) (hq : Keeps ⟨qq, mm, cc⟩ s) :
    KeepsO ⟨qq, mm, cc⟩ (execSwc g m s) := by
  unfold execSwc
  refine KeepsO.next ?_
  refine State.long_keeps (hq := ?_) (hb := fun u1 h2 => ?_) ..
  exact hq
  refine State.modEng_keeps (hq := ?_) ..
  exact h2

theorem State.transfer_keeps {qq : List Instr} {mm : Option Memory} {cc : Option Chip} (s : State) (g : EngId) (act : Engine → XferAct) (body : State → State)
    (hq : Keeps ⟨qq, mm, cc⟩ s) (hb : ∀ u, Keeps ⟨qq, mm, cc⟩ u → Keeps ⟨qq, mm, cc⟩ (body u)) : Keeps ⟨qq, mm, cc⟩ (s.transfer g act body) :=
  State.issue_keeps (hq := hq) (hb := fun _ => hb) ..

theorem execBra_keeps {qq : List Instr} {mm : Option Memory} {cc : Option Chip} (g : EngId) (cond : Fin 16) (ind : Bool) (ptr : Fin 8) (target : Fin 4096) (s : State) (hq : Keeps ⟨qq, mm, cc⟩ s) :
    KeepsO ⟨qq, mm, cc⟩ (execBra g cond ind ptr target s) := by
  unfold execBra
  refine KeepsO.next ?_
  refine State.transfer_keeps (hq := ?_) (hb := fun u1 h2 => ?_) ..
  exact hq
  refine Keeps.id ?_
  exact h2

theorem execCall_keeps {qq : List Instr} {mm : Option Memory} {cc : Option Chip} (g : EngId) (cond : Fin 16) (link : Fin 8) (target : Fin 4096) (s : State) (hq : Keeps ⟨qq, mm, cc⟩ s) :
    KeepsO ⟨qq, mm, cc⟩ (execCall g cond link target s) := by
  unfold execCall
  refine KeepsO.next ?_
  refine State.transfer_keeps (hq := ?_) (hb := fun u1 h2 => ?_) ..
  exact hq
  refine State.modEng_keeps (hq := ?_) ..
  exact h2

theorem execRti_keeps {qq : List Instr} {mm : Option Memory} {cc : Option Chip} (g : EngId) (s : State) (hq : Keeps ⟨qq, mm, cc⟩ s) :
    KeepsO ⟨qq, mm, cc⟩ (execRti g s) := by
  unfold execRti
  refine KeepsO.next ?_
  refine State.transfer_keeps (hq := ?_) (hb := fun u1 h2 => ?_) ..
  exact hq
  refine Keeps.id ?_
  exact h2

theorem execDone_keeps {qq : List Instr} {mm : Option Memory} {cc : Option Chip} (g : EngId) (s : State) (hq : Keeps ⟨qq, mm, cc⟩ s) :
    KeepsO ⟨qq, mm, cc⟩ (execDone g s) := by
  unfold execDone
  refine KeepsO.next ?_
  refine State.transfer_keeps (hq := ?_) (hb := fun u1 h2 => ?_) ..
  exact hq
  refine Keeps.id ?_
  exact h2

theorem execWait_keeps {qq : List Instr} {mm : Option Memory} {cc : Option Chip} (g : EngId) (s : State) (hq : Keeps ⟨qq, mm, cc⟩ s) :
    KeepsO ⟨qq, mm, cc⟩ (execWait g s) := by
  unfold execWait
  refine KeepsO.next ?_
  refine State.transfer_keeps (hq := ?_) (hb := fun u1 h2 => ?_) ..
  exact hq
  refine Keeps.id ?_
  exact h2

theorem execLoop_keeps {qq : List Instr} {mm : Option Memory} {cc : Option Chip} (g : EngId) (imm : Bool) (count : BitVec 16) (reg : Fin 64) (last : Fin 4096) (s : State) (hq : Keeps ⟨qq, mm, cc⟩ s) :
    KeepsO ⟨qq, mm, cc⟩ (execLoop g imm count reg last s) := by
  unfold execLoop
  refine KeepsO.next ?_
  refine State.issue_keeps (hq := ?_) (hb := fun t1 u2 h3 => ?_) ..
  exact hq
  extract_lets x4 x5 x6 x7 x8
  dsimp -zeta only
  extract_lets x9
  have h10 : Keeps ⟨qq, mm, cc⟩ x9 := ?_
  refine State.modEng_keeps (hq := ?_) ..
  exact h10
  dsimp -zeta only [x9]
  refine Keeps.ite (fun _ => ?_) (fun _ => ?_)
  refine State.consume_keeps (hq := ?_) ..
  exact h3
  exact h3

theorem State.supWindow_keeps {qq : List Instr} {mm : Option Memory} {cc : Option Chip} (s : State) (g : EngId) (w : WinArgs) (dst : List Nat) (hq : Keeps ⟨qq, mm, cc⟩ s) :
    Keeps ⟨qq, mm, cc⟩ (State.supWindow s g w dst) := by
  unfold State.supWindow
  refine State.pendSrc_keeps (hq := ?_) ..
  refine State.windowNone_keeps (hq := ?_) ..
  exact hq

theorem execWld_keeps {qq : List Instr} {mm : Option Memory} {cc : Option Chip} (g : EngId) (w : WinArgs) (s : State) (hq : Keeps ⟨qq, mm, cc⟩ s) :
    KeepsO ⟨qq, mm, cc⟩ (execWld g w s) := by
  unfold execWld
  extract_lets x1 x2
  refine KeepsO.next ?_
  refine State.issue_keeps (hq := ?_) (hb := fun t3 u4 h5 => ?_) ..
  exact hq
  split
  dsimp -zeta only
  refine Keeps.id ?_
  exact h5
  dsimp -zeta only
  refine Keeps.ite (fun _ => ?_) (fun _ => ?_)
  refine State.supWindow_keeps (hq := ?_) ..
  exact h5
  extract_lets x6
  refine State.windowIssue_keeps (hq := ?_) ..
  exact h5

theorem execWst_keeps {qq : List Instr} {mm : Option Memory} {cc : Option Chip} (g : EngId) (w : WinArgs) (s : State) (hq : Keeps ⟨qq, mm, cc⟩ s) :
    KeepsO ⟨qq, mm, cc⟩ (execWst g w s) := by
  unfold execWst
  extract_lets x1
  refine KeepsO.next ?_
  refine State.issue_keeps (hq := ?_) (hb := fun t2 u3 h4 => ?_) ..
  exact hq
  split
  dsimp -zeta only
  refine Keeps.id ?_
  exact h4
  dsimp -zeta only
  refine Keeps.ite (fun _ => ?_) (fun _ => ?_)
  refine State.supWindow_keeps (hq := ?_) ..
  exact h4
  extract_lets x5
  refine State.transferSat_keeps (hq := ?_) ..
  refine State.windowIssue_keeps (hq := ?_) ..
  exact h4

theorem execWatm_keeps {qq : List Instr} {mm : Option Memory} {cc : Option Chip} (g : EngId) (w : WinArgs) (s : State) (hq : Keeps ⟨qq, mm, cc⟩ s) :
    KeepsO ⟨qq, mm, cc⟩ (execWatm g w s) := by
  unfold execWatm
  extract_lets x1 x2 x3 x4
  refine KeepsO.next ?_
  refine State.issue_keeps (hq := ?_) (hb := fun t5 u6 h7 => ?_) ..
  exact hq
  split
  dsimp -zeta only
  refine Keeps.id ?_
  exact h7
  dsimp -zeta only
  extract_lets x8 x9
  refine Keeps.ite (fun _ => ?_) (fun _ => ?_)
  refine State.supWindow_keeps (hq := ?_) ..
  exact h7
  refine Keeps.ite (fun _ => ?_) (fun _ => ?_)
  refine State.windowNone_keeps (hq := ?_) ..
  refine State.consume_keeps (hq := ?_) ..
  exact h7
  refine State.windowIssue_keeps (hq := ?_) ..
  exact h7

theorem execReservedEncoding_keeps {qq : List Instr} {mm : Option Memory} {cc : Option Chip} (g : EngId) (s : State) (hq : Keeps ⟨qq, mm, cc⟩ s) :
    KeepsO ⟨qq, mm, cc⟩ (execReservedEncoding g s) := by
  unfold execReservedEncoding
  refine KeepsO.next ?_
  refine State.long_keeps (hq := ?_) (hb := fun u1 h2 => ?_) ..
  exact hq
  refine Keeps.id ?_
  exact h2

theorem execWindowLoadLand_keeps {qq : List Instr} {mm : Option Memory} {cc : Option Chip} (n : Fin 64) (e : Fin 25) (s : State) (hq : Keeps ⟨qq, mm, cc⟩ s) :
    KeepsO ⟨qq, mm, cc⟩ (execWindowLoadLand n e s) := by
  unfold execWindowLoadLand
  refine KeepsO.next ?_
  refine State.windowLand_keeps (hq := ?_) ..
  exact hq

theorem execInterruptEntry_keeps {qq : List Instr} {mm : Option Memory} {cc : Option Chip} (g : EngId) (s : State) (hq : Keeps ⟨qq, mm, cc⟩ s) :
    KeepsO ⟨qq, mm, cc⟩ (execInterruptEntry g s) := by
  unfold execInterruptEntry
  extract_lets x1 x2
  have h3 : Keeps ⟨qq, mm, cc⟩ x2 := ?_
  refine KeepsO.ite (fun _ => ?_) (fun _ => ?_)
  split
  refine KeepsO.next ?_
  exact h3
  refine KeepsO.next ?_
  refine State.enterIrq_keeps (hq := ?_) ..
  exact h3
  refine KeepsO.next ?_
  exact h3
  dsimp -zeta only [x2]
  refine State.modEng_keeps (hq := ?_) ..
  exact hq

theorem execTmrExpire_keeps {qq : List Instr} {mm : Option Memory} {cc : Option Chip} (g : EngId) (s : State) (hq : Keeps ⟨qq, mm, cc⟩ s) :
    KeepsO ⟨qq, mm, cc⟩ (execTmrExpire g s) := by
  unfold execTmrExpire
  refine KeepsO.ite (fun _ => ?_) (fun _ => ?_)
  refine KeepsO.next ?_
  exact hq
  refine KeepsO.next ?_
  refine State.pendSrc_keeps (hq := ?_) ..
  refine State.modEng_keeps (hq := ?_) ..
  exact hq

theorem execEngStop_keeps {qq : List Instr} {mm : Option Memory} {cc : Option Chip} (n : Fin 64) (e : Fin 25) (s : State) (hq : Keeps ⟨qq, mm, cc⟩ s) :
    KeepsO ⟨qq, mm, cc⟩ (execEngStop n e s) := by
  unfold execEngStop
  extract_lets x1
  refine KeepsO.ite (fun _ => ?_) (fun _ => ?_)
  refine KeepsO.next ?_
  refine State.modEngAt_keeps (hq := ?_) ..
  exact hq
  refine KeepsO.next ?_
  exact hq

theorem State.writeEngCtrl_keeps {qq : List Instr} {mm : Option Memory} {cc : Option Chip} (s : State) (n : Nat) (e : Nat) (v : Nat) (hq : Keeps ⟨qq, mm, cc⟩ s) :
    Keeps ⟨qq, mm, cc⟩ (State.writeEngCtrl s n e v) := by
  unfold State.writeEngCtrl
  extract_lets x1 x2
  have h3 : Keeps ⟨qq, mm, cc⟩ x2 := ?_
  refine Keeps.ite (fun _ => ?_) (fun _ => ?_)
  exact h3
  refine State.modEngAt_keeps (hq := ?_) ..
  exact h3
  dsimp -zeta only [x2]
  have h4 : Keeps ⟨qq, mm, cc⟩ x1 := ?_
  refine Keeps.mk_other ?_
  exact h4
  dsimp -zeta only [x1]
  refine State.wr_keeps (hq := ?_) ..
  refine State.wr_keeps (hq := ?_) ..
  exact hq

theorem execEngResume_keeps {qq : List Instr} {mm : Option Memory} {cc : Option Chip} (x : Accessor) (n : Fin 64) (e : Fin 25) (v : Word) (s : State) (hq : Keeps ⟨qq, mm, cc⟩ s) :
    KeepsO ⟨qq, mm, cc⟩ (execEngResume x n e v s) := by
  unfold execEngResume
  refine KeepsO.next ?_
  refine State.writeEngCtrl_keeps (hq := ?_) ..
  exact hq

theorem execEngMdataRead_keeps {qq : List Instr} {mm : Option Memory} {cc : Option Chip} (x : Accessor) (n : Fin 64) (e : Fin 25) (s : State) (hq : Keeps ⟨qq, mm, cc⟩ s) :
    KeepsO ⟨qq, mm, cc⟩ (execEngMdataRead x n e s) := by
  unfold execEngMdataRead
  refine KeepsO.next ?_
  refine State.readMdata_keeps (hq := ?_) ..
  exact hq

theorem execEngMdataWrite_keeps {qq : List Instr} {mm : Option Memory} {cc : Option Chip} (x : Accessor) (n : Fin 64) (e : Fin 25) (v : Word) (s : State) (hq : Keeps ⟨qq, mm, cc⟩ s) :
    KeepsO ⟨qq, mm, cc⟩ (execEngMdataWrite x n e v s) := by
  unfold execEngMdataWrite
  refine KeepsO.next ?_
  refine State.writeMdata_keeps (hq := ?_) ..
  exact hq

theorem State.takeWb_keeps {qq : List Instr} {mm : Option Memory} {cc : Option Chip} (s : State) (n : Nat) (mem : Nat) (unit : Nat) (poison : Bool) (hq : Keeps ⟨qq, mm, cc⟩ s) :
    KeepsQ ⟨qq, mm, cc⟩ (State.takeWb s n mem unit poison) := by
  unfold State.takeWb
  split
  exact KeepsQ.none
  refine KeepsQ.some ?_
  refine State.modEccOf_keeps (hq := ?_) ..
  exact hq

theorem State.rewrite_keeps {qq : List Instr} {cc : Option Chip} (s : State) (n : Nat) (w : WriteBack) (hq : Keeps ⟨qq, none, cc⟩ s) :
    Keeps ⟨qq, none, cc⟩ (State.rewrite s n w) := by
  unfold State.rewrite
  refine Keeps.ite (fun _ => ?_) (fun _ => ?_)
  extract_lets x1 x2
  refine Keeps.ite (fun _ => ?_) (fun _ => ?_)
  refine State.setLineAt_keeps (hq := ?_) ..
  exact hq
  refine State.setLineAt_keeps (hq := ?_) ..
  exact hq
  extract_lets x3
  refine State.modEng_keeps (hq := ?_) ..
  exact hq

theorem execWriteBack_keeps {qq : List Instr} {cc : Option Chip} (n : Fin 65) (mem : Fin 4) (unit : Fin 50) (s : State) (hq : Keeps ⟨qq, none, cc⟩ s) :
    KeepsO ⟨qq, none, cc⟩ (execWriteBack n mem unit s) := by
  unfold execWriteBack
  split
  refine KeepsO.next ?_
  exact hq
  refine KeepsO.next ?_
  refine State.modEccOf_keeps (hq := ?_) ..
  refine State.rewrite_keeps (hq := ?_) ..
  refine KeepsQ.of (by assumption) ?_
  refine State.takeWb_keeps (hq := ?_) ..
  exact hq

theorem execPoisonRewrite_keeps {qq : List Instr} {cc : Option Chip} (n : Fin 65) (mem : Fin 4) (unit : Fin 50) (s : State) (hq : Keeps ⟨qq, none, cc⟩ s) :
    KeepsO ⟨qq, none, cc⟩ (execPoisonRewrite n mem unit s) := by
  unfold execPoisonRewrite
  split
  refine KeepsO.next ?_
  exact hq
  refine KeepsO.next ?_
  refine State.rewrite_keeps (hq := ?_) ..
  refine KeepsQ.of (by assumption) ?_
  refine State.takeWb_keeps (hq := ?_) ..
  exact hq

theorem execPatrolRead_keeps {qq : List Instr} {mm : Option Memory} {cc : Option Chip} (n : Fin 64) (p : Fin 50) (s : State) (hq : Keeps ⟨qq, mm, cc⟩ s) :
    KeepsO ⟨qq, mm, cc⟩ (execPatrolRead n p s) := by
  unfold execPatrolRead
  refine KeepsO.ite (fun _ => ?_) (fun _ => ?_)
  refine KeepsO.next ?_
  exact hq
  extract_lets x1 x2
  split
  refine KeepsO.next ?_
  exact hq
  extract_lets x3 x4 x5 x6 x7
  have h8 : Keeps ⟨qq, mm, cc⟩ x6 := ?_
  have h9 : Keeps ⟨qq, mm, cc⟩ x7 := ?_
  split
  refine KeepsO.next ?_
  refine State.modEcc_keeps (hq := ?_) ..
  exact h8
  refine KeepsO.next ?_
  refine State.modEcc_keeps (hq := ?_) ..
  exact h9
  dsimp -zeta only [x7]
  refine State.count_keeps (hq := ?_) ..
  exact h8
  dsimp -zeta only [x6]
  refine Keeps.ite (fun _ => ?_) (fun _ => ?_)
  refine State.correction_keeps (hq := ?_) ..
  exact hq
  refine Keeps.ite (fun _ => ?_) (fun _ => ?_)
  refine State.uncorrectable_keeps (hq := ?_) ..
  exact hq
  exact hq

theorem execEnginePatrolRead_keeps {qq : List Instr} {mm : Option Memory} {cc : Option Chip} (n : Fin 65) (e : Fin 25) (s : State) (hq : Keeps ⟨qq, mm, cc⟩ s) :
    KeepsO ⟨qq, mm, cc⟩ (execEnginePatrolRead n e s) := by
  unfold execEnginePatrolRead
  refine KeepsO.ite (fun _ => ?_) (fun _ => ?_)
  refine KeepsO.next ?_
  exact hq
  extract_lets x1 x2 x3 x4 x5 x6 x7 x8 x9
  have h10 : Keeps ⟨qq, mm, cc⟩ x9 := ?_
  refine KeepsO.ite (fun _ => ?_) (fun _ => ?_)
  refine KeepsO.next ?_
  refine State.modEccOf_keeps (hq := ?_) ..
  exact h10
  refine KeepsO.next ?_
  refine State.modEccOf_keeps (hq := ?_) ..
  exact h10
  dsimp -zeta only [x9]
  have h11 : Keeps ⟨qq, mm, cc⟩ x8 := ?_
  refine Keeps.ite (fun _ => ?_) (fun _ => ?_)
  refine State.evictAt_keeps (hq := ?_) ..
  refine State.evictAt_keeps (hq := ?_) ..
  exact h11
  exact h11
  dsimp -zeta only [x8]
  have h12 : Keeps ⟨qq, mm, cc⟩ x7 := ?_
  refine Keeps.ite (fun _ => ?_) (fun _ => ?_)
  refine State.abortFailed_keeps (hq := ?_) ..
  exact h12
  exact h12
  dsimp -zeta only [x7]
  refine Keeps.ite (fun _ => ?_) (fun _ => ?_)
  refine State.correction_keeps (hq := ?_) ..
  exact hq
  refine Keeps.ite (fun _ => ?_) (fun _ => ?_)
  refine State.uncorrectable_keeps (hq := ?_) ..
  exact hq
  exact hq

theorem State.writeInj_keeps {qq : List Instr} {mm : Option Memory} {cc : Option Chip} (s : State) (n : Nat) (v : Nat) (hq : Keeps ⟨qq, mm, cc⟩ s) :
    Keeps ⟨qq, mm, cc⟩ (State.writeInj s n v) := by
  unfold State.writeInj
  extract_lets x1
  have h2 : Keeps ⟨qq, mm, cc⟩ x1 := ?_
  refine Keeps.ite (fun _ => ?_) (fun _ => ?_)
  exact h2
  refine Keeps.ite (fun _ => ?_) (fun _ => ?_)
  refine State.modEcc_keeps (hq := ?_) ..
  exact h2
  refine State.modEcc_keeps (hq := ?_) ..
  exact h2
  dsimp -zeta only [x1]
  refine Keeps.mk_other ?_
  exact hq

theorem execEccInj_keeps {qq : List Instr} {mm : Option Memory} {cc : Option Chip} (x : Accessor) (n : Fin 64) (v : Word) (s : State) (hq : Keeps ⟨qq, mm, cc⟩ s) :
    KeepsO ⟨qq, mm, cc⟩ (execEccInj x n v s) := by
  unfold execEccInj
  refine KeepsO.next ?_
  refine State.writeInj_keeps (hq := ?_) ..
  exact hq

theorem State.readEccW0_keeps {qq : List Instr} {mm : Option Memory} {cc : Option Chip} (s : State) (n : Nat) (k : Nat) (hq : Keeps ⟨qq, mm, cc⟩ s) :
    Keeps ⟨qq, mm, cc⟩ (State.readEccW0 s n k) := by
  unfold State.readEccW0
  extract_lets x1 x2
  have h3 : Keeps ⟨qq, mm, cc⟩ x2 := ?_
  refine Keeps.mk_other ?_
  exact h3
  dsimp -zeta only [x2]
  refine State.modEccOf_keeps (hq := ?_) ..
  exact hq

theorem execEccTblW0Read_keeps {qq : List Instr} {mm : Option Memory} {cc : Option Chip} (x : Accessor) (n : Fin 65) (k : Fin 32) (s : State) (hq : Keeps ⟨qq, mm, cc⟩ s) :
    KeepsO ⟨qq, mm, cc⟩ (execEccTblW0Read x n k s) := by
  unfold execEccTblW0Read
  refine KeepsO.next ?_
  refine State.readEccW0_keeps (hq := ?_) ..
  exact hq

theorem State.clearEcc_keeps {qq : List Instr} {mm : Option Memory} {cc : Option Chip} (s : State) (n : Nat) (k : Nat) (hq : Keeps ⟨qq, mm, cc⟩ s) :
    Keeps ⟨qq, mm, cc⟩ (State.clearEcc s n k) := by
  unfold State.clearEcc
  extract_lets x1
  have h2 : Keeps ⟨qq, mm, cc⟩ x1 := ?_
  refine Keeps.mk_other ?_
  exact h2
  dsimp -zeta only [x1]
  refine State.modEccOf_keeps (hq := ?_) ..
  exact hq

theorem execEccTblClear_keeps {qq : List Instr} {mm : Option Memory} {cc : Option Chip} (x : Accessor) (n : Fin 65) (k : Fin 32) (s : State) (hq : Keeps ⟨qq, mm, cc⟩ s) :
    KeepsO ⟨qq, mm, cc⟩ (execEccTblClear x n k s) := by
  unfold execEccTblClear
  refine KeepsO.next ?_
  refine State.clearEcc_keeps (hq := ?_) ..
  exact hq

end

end Sys2Proof.Machine
end

