-- ==== Sys2Proof/Laws/KeepsNet.lean ====
section
/-! SUPPORT. Keeps (Laws/Keeps) for placement, the network's rows, the check units and the mailbox:
one lemma per function, each from those of the functions it calls. -/

namespace Sys2Proof.Machine

section

set_option simprocs false

theorem State.modPlc_keeps {qq : List Instr} {mm : Option Memory} {cc : Option Chip} (s : State) (f : Plc → Plc) (hq : Keeps ⟨qq, mm, cc⟩ s) :
    Keeps ⟨qq, mm, cc⟩ (State.modPlc s f) := by
  unfold State.modPlc
  refine Keeps.mk_other ?_
  exact hq

theorem State.plcTrace_keeps {qq : List Instr} {mm : Option Memory} {cc : Option Chip} (s : State) (id : Nat) (arg : Nat) (reason : Nat) (aux : Nat) (stamp : Nat) (hq : Keeps ⟨qq, mm, cc⟩ s) :
    Keeps ⟨qq, mm, cc⟩ (State.plcTrace s id arg reason aux stamp) := by
  unfold State.plcTrace
  refine State.tracePut_keeps (hq := ?_) ..
  exact hq

theorem State.plcRec_keeps {qq : List Instr} {mm : Option Memory} {cc : Option Chip} (s : State) (id : Nat) (arg : Nat) (reason : Nat) (aux : Nat) (hq : Keeps ⟨qq, mm, cc⟩ s) :
    Keeps ⟨qq, mm, cc⟩ (State.plcRec s id arg reason aux) := by
  unfold State.plcRec
  refine State.plcTrace_keeps (hq := ?_) ..
  exact hq

theorem State.plcChange_keeps {qq : List Instr} {mm : Option Memory} {cc : Option Chip} (s : State) (hq : Keeps ⟨qq, mm, cc⟩ s) :
    Keeps ⟨qq, mm, cc⟩ (State.plcChange s) := by
  unfold State.plcChange
  refine State.bump_keeps (hq := ?_) ..
  exact hq

theorem State.giveBank_keeps {qq : List Instr} {mm : Option Memory} {cc : Option Chip} (s : State) (n : Nat) (b : Nat) (owner : Nat) (eng : Nat) (rule : Nat) (atOnce : Bool) (hq : Keeps ⟨qq, mm, cc⟩ s) :
    Keeps ⟨qq, mm, cc⟩ (State.giveBank s n b owner eng rule atOnce) := by
  unfold State.giveBank
  split
  refine Keeps.ite (fun _ => ?_) (fun _ => ?_)
  exact hq
  extract_lets x1 x2 x3
  have h4 : Keeps ⟨qq, mm, cc⟩ x3 := ?_
  refine State.placeOwners_keeps (hq := ?_) ..
  exact h4
  dsimp -zeta only [x3]
  have h5 : Keeps ⟨qq, mm, cc⟩ x2 := ?_
  refine State.modPlc_keeps (hq := ?_) ..
  exact h5
  dsimp -zeta only [x2]
  refine State.plcRec_keeps (hq := ?_) ..
  refine State.plcChange_keeps (hq := ?_) ..
  exact hq

theorem State.plcInterval_keeps {qq : List Instr} {mm : Option Memory} {cc : Option Chip} (s : State) (n : Nat) (hq : Keeps ⟨qq, mm, cc⟩ s) :
    Keeps ⟨qq, mm, cc⟩ (State.plcInterval s n) := by
  unfold State.plcInterval
  refine State.modPlc_keeps (hq := ?_) ..
  exact hq

theorem State.giveSlot_keeps {qq : List Instr} {mm : Option Memory} {cc : Option Chip} (s : State) (n : Nat) (k : Nat) (e : Nat) (rule : Nat) (whole : Bool) (hq : Keeps ⟨qq, mm, cc⟩ s) :
    Keeps ⟨qq, mm, cc⟩ (State.giveSlot s n k e rule whole) := by
  unfold State.giveSlot
  extract_lets x1 x2 x3 x4
  have h5 : Keeps ⟨qq, mm, cc⟩ x4 := ?_
  refine Keeps.ite (fun _ => ?_) (fun _ => ?_)
  exact hq
  refine Keeps.ite (fun _ => ?_) (fun _ => ?_)
  exact h5
  refine Keeps.ite (fun _ => ?_) (fun _ => ?_)
  refine State.modPlc_keeps (hq := ?_) ..
  exact h5
  refine State.plcRec_keeps (hq := ?_) ..
  exact h5
  dsimp -zeta only [x4]
  have h6 : Keeps ⟨qq, mm, cc⟩ x2 := ?_
  refine State.modSlot_keeps (hq := ?_) ..
  exact h6
  dsimp -zeta only [x2]
  refine State.plcRec_keeps (hq := ?_) ..
  refine State.plcChange_keeps (hq := ?_) ..
  exact hq

theorem State.wholeMove_keeps {qq : List Instr} {mm : Option Memory} {cc : Option Chip} (s : State) (n : Nat) (e : Nat) (d : Nat) (rule : Nat) (toTest : Bool) (freeSpare : Bool) (hq : Keeps ⟨qq, mm, cc⟩ s) :
    Keeps ⟨qq, mm, cc⟩ (State.wholeMove s n e d rule toTest freeSpare) := by
  unfold State.wholeMove
  extract_lets x1 x2 x3 x4
  have h5 : Keeps ⟨qq, mm, cc⟩ x4 := ?_
  refine State.modPlc_keeps (hq := ?_) ..
  exact h5
  dsimp -zeta only [x4]
  have h6 : Keeps ⟨qq, mm, cc⟩ x3 := ?_
  refine Keeps.foldl (fun t7 y8 h9 => ?_) ?_
  refine State.giveBank_keeps (hq := ?_) ..
  exact h9
  exact h6
  dsimp -zeta only [x3]
  refine Keeps.foldl (fun t10 y11 h12 => ?_) ?_
  refine State.giveSlot_keeps (hq := ?_) ..
  exact h12
  exact hq

theorem State.retireEngine_keeps {qq : List Instr} {mm : Option Memory} {cc : Option Chip} (s : State) (n : Nat) (e : Nat) (rule : Nat) (hq : Keeps ⟨qq, mm, cc⟩ s) :
    Keeps ⟨qq, mm, cc⟩ (State.retireEngine s n e rule) := by
  unfold State.retireEngine
  extract_lets x1 x2
  have h3 : Keeps ⟨qq, mm, cc⟩ x2 := ?_
  refine State.plcRec_keeps (hq := ?_) ..
  exact h3
  dsimp -zeta only [x2]
  have h4 : Keeps ⟨qq, mm, cc⟩ x1 := ?_
  refine State.modEngAt_keeps (hq := ?_) ..
  exact h4
  dsimp -zeta only [x1]
  refine State.schEngineLost_keeps (hq := ?_) ..
  exact hq

theorem State.setSpare_keeps {qq : List Instr} {mm : Option Memory} {cc : Option Chip} (s : State) (n : Nat) (use : Nat) (e : Nat) (hq : Keeps ⟨qq, mm, cc⟩ s) :
    Keeps ⟨qq, mm, cc⟩ (State.setSpare s n use e) := by
  unfold State.setSpare
  refine State.modPlc_keeps (hq := ?_) ..
  exact hq

theorem State.plcBank_keeps {qq : List Instr} {mm : Option Memory} {cc : Option Chip} (s : State) (p : PlcSnap) (hq : Keeps ⟨qq, mm, cc⟩ s) :
    Keeps ⟨qq, mm, cc⟩ (State.plcBank s p) := by
  unfold State.plcBank
  refine Keeps.ite (fun _ => ?_) (fun _ => ?_)
  exact hq
  extract_lets x1 x2 x3 x4
  refine State.plcRec_keeps (hq := ?_) ..
  refine State.plcChange_keeps (hq := ?_) ..
  refine State.switchBank_keeps (hq := ?_) ..
  exact hq

theorem State.plcQdata_keeps {qq : List Instr} {mm : Option Memory} {cc : Option Chip} (s : State) (p : PlcSnap) (hq : Keeps ⟨qq, mm, cc⟩ s) :
    Keeps ⟨qq, mm, cc⟩ (State.plcQdata s p) := by
  unfold State.plcQdata
  extract_lets x1 x2
  refine State.modPlc_keeps (hq := ?_) ..
  exact hq

theorem PlcWork.spreadSlots_keeps {qq : List Instr} {mm : Option Memory} {cc : Option Chip} (p : PlcSnap) (rule : Nat) (ks : List Nat) (w : PlcWork) (a b : Nat)
    (got : List (Nat × Nat)) (hq : Keeps ⟨qq, mm, cc⟩ w.s) : Keeps ⟨qq, mm, cc⟩ (w.spreadSlots p rule ks a b got).1.s := by
  induction ks generalizing w a b got with
  | nil => exact hq
  | cons k rest ih =>
    unfold PlcWork.spreadSlots
    extract_lets n d ds cost
    split
    · exact ih _ _ _ _ (State.logEv_keeps (hq := State.raise_keeps (hq := State.bump_keeps (hq :=
        State.giveSlot_keeps (hq := hq) ..) ..) ..) ..)
    · exact ih _ _ _ _ (State.giveSlot_keeps (hq := hq) ..)

theorem PlcWork.spread_keeps {qq : List Instr} {mm : Option Memory} {cc : Option Chip} (w : PlcWork) (p : PlcSnap) (e rule : Nat) (hq : Keeps ⟨qq, mm, cc⟩ w.s) :
    Keeps ⟨qq, mm, cc⟩ (w.spread p e rule).s := by
  unfold PlcWork.spread
  extract_lets n ks bs
  split
  rename_i w' a b got h
  have hw : Keeps ⟨qq, mm, cc⟩ w'.s := by
    have := PlcWork.spreadSlots_keeps p rule ks w 0 0 [] hq
    rw [h] at this
    exact this
  refine State.degrade_keeps (hq := Keeps.foldl (fun t x ht => ?_) ?_) ..
  · split
    · exact State.giveBank_keeps (hq := ht) ..
    · exact State.giveBank_keeps (hq := ht) ..
  · exact State.logEv_keeps (hq := State.raise_keeps (hq := hw) ..) ..

theorem PlcWork.lostEngine_keeps {qq : List Instr} {mm : Option Memory} {cc : Option Chip} (w : PlcWork) (p : PlcSnap) (start : Bool) (e : Nat)
    (hq : Keeps ⟨qq, mm, cc⟩ w.s) : Keeps ⟨qq, mm, cc⟩ (w.lostEngine p start e).s := by
  unfold PlcWork.lostEngine
  extract_lets n rule use pool clear note poolBit spareFit s1 s2 s3 s4 s5 w5
  have hc : ∀ t, Keeps ⟨qq, mm, cc⟩ t → Keeps ⟨qq, mm, cc⟩ (clear t) := fun t h => State.modPlc_keeps (hq := h) ..
  have hn : ∀ t a b, Keeps ⟨qq, mm, cc⟩ t → Keeps ⟨qq, mm, cc⟩ (note t a b) := by
    intro t a b h
    dsimp -zeta only [note]
    split
    · exact h
    · exact State.journal_keeps (hq := h) ..
  have hp : ∀ t a b, Keeps ⟨qq, mm, cc⟩ t → Keeps ⟨qq, mm, cc⟩ (poolBit t a b) := fun t a b h =>
    State.plcRec_keeps (hq := State.plcChange_keeps (hq := State.wr_keeps (hq := h) ..) ..) ..
  clear_value clear note poolBit
  split
  · refine hn _ _ _ (State.retireEngine_keeps (hq := ?_) ..)
    dsimp -zeta only [s2]
    have h1 : Keeps ⟨qq, mm, cc⟩ s1 := State.setSpare_keeps (hq := hc _ hq) ..
    split
    · exact hp _ _ _ (hp _ _ _ h1)
    · exact State.wholeMove_keeps (hq := h1) ..
  · split
    · exact hn _ _ _ (State.retireEngine_keeps (hq := State.setSpare_keeps (hq := hc _ hq) ..) ..)
    · refine hn _ _ _ (State.retireEngine_keeps (hq := ?_) ..)
      have h3 : Keeps ⟨qq, mm, cc⟩ s3 := by
        dsimp -zeta only [s3]
        split
        · exact State.setSpare_keeps (hq := hq) ..
        · exact hq
      have h4 : Keeps ⟨qq, mm, cc⟩ s4 := by
        dsimp -zeta only [s4]
        split
        · exact State.degrade_keeps (hq := hp _ _ _ (hc _ h3)) ..
        · exact hc _ h3
      dsimp -zeta only [s5]
      split
      · exact h4
      · exact PlcWork.spread_keeps _ p e rule h4

theorem PlcWork.returnEngine_keeps {qq : List Instr} {mm : Option Memory} {cc : Option Chip} (w : PlcWork) (p : PlcSnap) (e : Nat) (hq : Keeps ⟨qq, mm, cc⟩ w.s) :
    Keeps ⟨qq, mm, cc⟩ (w.returnEngine p e).s := by
  unfold PlcWork.returnEngine
  extract_lets n clear s1
  have hc : ∀ t, Keeps ⟨qq, mm, cc⟩ t → Keeps ⟨qq, mm, cc⟩ (clear t) := fun t h => State.modPlc_keeps (hq := h) ..
  clear_value clear
  split
  · exact State.plcRec_keeps (hq := State.modEngAt_keeps (hq := State.wholeMove_keeps (hq := hc _ hq) ..) ..) ..
  · exact hc _ hq

theorem PlcWork.standIn_keeps {qq : List Instr} {mm : Option Memory} {cc : Option Chip} (w : PlcWork) (p : PlcSnap) (e : Nat) (hq : Keeps ⟨qq, mm, cc⟩ w.s) :
    Keeps ⟨qq, mm, cc⟩ (w.standIn p e).s := by
  unfold PlcWork.standIn
  extract_lets n clear
  have hc : ∀ t, Keeps ⟨qq, mm, cc⟩ t → Keeps ⟨qq, mm, cc⟩ (clear t) := fun t h => State.modPlc_keeps (hq := h) ..
  clear_value clear
  split
  · exact State.wholeMove_keeps (hq := State.setSpare_keeps (hq := hc _ hq) ..) ..
  · exact State.logEv_keeps (hq := State.raise_keeps (hq := hc _ hq) ..) ..

theorem PlcWork.override_keeps {qq : List Instr} {mm : Option Memory} {cc : Option Chip} (w : PlcWork) (p : PlcSnap) (o : PlcOvr) (hq : Keeps ⟨qq, mm, cc⟩ w.s) :
    Keeps ⟨qq, mm, cc⟩ (w.override p o).s := by
  unfold PlcWork.override
  extract_lets n pins
  have hc : ∀ f t, Keeps ⟨qq, mm, cc⟩ t → Keeps ⟨qq, mm, cc⟩ (pins f t) := fun f t h => State.modPlc_keeps (hq := h) ..
  clear_value pins
  split
  · split
    · exact hc _ _ (State.giveSlot_keeps (hq := hq) ..)
    · exact State.logEv_keeps (hq := State.raise_keeps (hq := hq) ..) ..
  · exact hc _ _ hq
  · exact hc _ _ hq
  · exact hq

theorem PlcWork.balanceStep_keeps {qq : List Instr} {mm : Option Memory} {cc : Option Chip} (w : PlcWork) (p : PlcSnap) (limit : Nat) (gs : List PlcGroup)
    (hq : Keeps ⟨qq, mm, cc⟩ w.s) : ∀ w' gs', w.balanceStep p limit gs = some (w', gs') → Keeps ⟨qq, mm, cc⟩ w'.s := by
  intro w' gs' h
  unfold PlcWork.balanceStep at h
  try extract_lets at h
  split at h
  · cases h
  try extract_lets at h
  split at h
  · cases h
  try extract_lets at h
  split at h
  · cases h
  try extract_lets at h
  split at h
  · cases h
  try extract_lets at h
  cases h
  exact Keeps.foldl (fun _ _ ht => State.giveBank_keeps (hq := ht) ..)
    (Keeps.foldl (fun _ _ ht => State.giveSlot_keeps (hq := ht) ..) hq)

theorem PlcWork.balance_keeps {qq : List Instr} {mm : Option Memory} {cc : Option Chip} (p : PlcSnap) (limit k : Nat) (gs : List PlcGroup) (w : PlcWork)
    (hq : Keeps ⟨qq, mm, cc⟩ w.s) : Keeps ⟨qq, mm, cc⟩ (w.balance p limit k gs).s := by
  induction k generalizing w gs with
  | zero => exact hq
  | succ k ih =>
    unfold PlcWork.balance
    split
    · exact hq
    · rename_i e
      exact ih _ _ (PlcWork.balanceStep_keeps _ _ _ _ hq _ _ e)

theorem PlcWork.foldl_keeps {qq : List Instr} {mm : Option Memory} {cc : Option Chip} {α : Type} (l : List α) (g : PlcWork → α → PlcWork) (w : PlcWork)
    (hg : ∀ w x, Keeps ⟨qq, mm, cc⟩ w.s → Keeps ⟨qq, mm, cc⟩ (g w x).s) (hq : Keeps ⟨qq, mm, cc⟩ w.s) : Keeps ⟨qq, mm, cc⟩ (l.foldl g w).s := by
  induction l generalizing w with
  | nil => exact hq
  | cons a l ih => exact ih _ (hg _ _ hq)

theorem State.plcRegion_keeps {qq : List Instr} {mm : Option Memory} {cc : Option Chip} (s : State) (pt : PlcPoint) (p : PlcSnap) (hq : Keeps ⟨qq, mm, cc⟩ s) :
    Keeps ⟨qq, mm, cc⟩ (State.plcRegion s pt p) := by
  unfold State.plcRegion
  refine Keeps.ite (fun _ => hq) (fun _ => ?_)
  extract_lets n w0 w1 back w2 w3 w4 w5 w6
  have h1 : Keeps ⟨qq, mm, cc⟩ w1.s := PlcWork.foldl_keeps _ _ _ (fun w x h => PlcWork.override_keeps w p x h) hq
  have h2 : Keeps ⟨qq, mm, cc⟩ w2.s := PlcWork.foldl_keeps _ _ _ (fun w x h => PlcWork.returnEngine_keeps w p x h) h1
  have h3 : Keeps ⟨qq, mm, cc⟩ w3.s := by
    dsimp -zeta only [w3]
    split
    · exact State.setSpare_keeps (hq := h2) ..
    · exact h2
  have h4 : Keeps ⟨qq, mm, cc⟩ w4.s := PlcWork.foldl_keeps _ _ _ (fun w x h => PlcWork.lostEngine_keeps w p false x h) h3
  have h5 : Keeps ⟨qq, mm, cc⟩ w5.s := PlcWork.foldl_keeps _ _ _ (fun w x h => PlcWork.standIn_keeps w p x h) h4
  have h6 : Keeps ⟨qq, mm, cc⟩ w6.s := by
    dsimp -zeta only [w6]
    split
    · exact PlcWork.balance_keeps _ _ _ _ _ h5
    · exact h5
  exact State.plcInterval_keeps (hq := State.plcQdata_keeps (hq := State.plcBank_keeps (hq := h6) ..) ..) ..

theorem State.copyDK_keeps {qq : List Instr} {mm : Option Memory} {cc : Option Chip} (s : State) (n : Nat) (e : Nat) (d : Nat) (hq : Keeps ⟨qq, mm, cc⟩ s) :
    Keeps ⟨qq, mm, cc⟩ (State.copyDK s n e d).2 := by
  unfold State.copyDK
  extract_lets x1 x2 x3
  have h4 : Keeps ⟨qq, mm, cc⟩ x3 := ?_
  dsimp -zeta only
  refine Keeps.foldl (fun t5 y6 h7 => ?_) ?_
  refine Keeps.ite (fun _ => ?_) (fun _ => ?_)
  refine State.modEngAt_keeps (hq := ?_) ..
  exact h7
  exact h7
  exact h4
  dsimp -zeta only [x3]
  refine State.modEngAt_keeps (hq := ?_) ..
  exact hq

theorem State.endTransit_keeps {qq : List Instr} {mm : Option Memory} {cc : Option Chip} (s : State) (t : Transit) (image : Nat → Nat → Tbl Nat) (hq : Keeps ⟨qq, mm, cc⟩ s) :
    Keeps ⟨qq, mm, cc⟩ (State.endTransit s t image) := by
  unfold State.endTransit
  extract_lets x1 x2 x3
  have h4 : Keeps ⟨qq, mm, cc⟩ x3 := ?_
  refine Keeps.foldl (fun t5 y6 h7 => ?_) ?_
  refine State.plcRec_keeps (hq := ?_) ..
  refine State.modSlot_keeps (hq := ?_) ..
  exact h7
  exact h4
  dsimp -zeta only [x3]
  have h8 : Keeps ⟨qq, mm, cc⟩ x2 := ?_
  split
  exact h8
  extract_lets x9 x10 x11
  have h12 : Keeps ⟨qq, mm, cc⟩ x11 := ?_
  refine Keeps.ite (fun _ => ?_) (fun _ => ?_)
  refine State.setSpare_keeps (hq := ?_) ..
  exact h12
  exact h12
  dsimp -zeta only [x11]
  have h13 : Keeps ⟨qq, mm, cc⟩ x10 := ?_
  refine Keeps.ite (fun _ => ?_) (fun _ => ?_)
  refine State.plcRec_keeps (hq := ?_) ..
  refine State.modEngAt_keeps (hq := ?_) ..
  exact h13
  exact h13
  dsimp -zeta only [x10]
  have h14 : Keeps ⟨qq, mm, cc⟩ x9 := ?_
  refine Keeps.ite (fun _ => ?_) (fun _ => ?_)
  refine State.logEv_keeps (hq := ?_) ..
  refine State.raise_keeps (hq := ?_) ..
  exact h14
  exact h14
  dsimp -zeta only [x9]
  refine State.plcRec_keeps (hq := ?_) ..
  refine State.modSch_keeps (hq := ?_) ..
  split
  dsimp -zeta only
  refine State.modEngAt_keeps (hq := ?_) ..
  exact h8
  refine State.copyDK_keeps (hq := ?_) ..
  exact h8
  dsimp -zeta only [x2]
  refine State.modPlc_keeps (hq := ?_) ..
  exact hq

theorem State.plcDark_keeps {qq : List Instr} {mm : Option Memory} {cc : Option Chip} (s : State) (n : Nat) (hq : Keeps ⟨qq, mm, cc⟩ s) :
    Keeps ⟨qq, mm, cc⟩ (State.plcDark s n) := by
  unfold State.plcDark
  extract_lets x1
  have h2 : Keeps ⟨qq, mm, cc⟩ x1 := ?_
  refine State.modSch_keeps (hq := ?_) ..
  exact h2
  dsimp -zeta only [x1]
  refine State.modPlc_keeps (hq := ?_) ..
  exact hq

theorem State.plcAssign_keeps {qq : List Instr} {mm : Option Memory} {cc : Option Chip} (s : State) (n : Nat) (hq : Keeps ⟨qq, mm, cc⟩ s) :
    Keeps ⟨qq, mm, cc⟩ (State.plcAssign s n) := by
  unfold State.plcAssign
  extract_lets x1 x2
  have h3 : Keeps ⟨qq, mm, cc⟩ x2 := ?_
  refine Keeps.foldl (fun t4 y5 h6 => ?_) ?_
  refine Keeps.ite (fun _ => ?_) (fun _ => ?_)
  exact h6
  split
  refine State.wr_keeps (hq := ?_) ..
  refine State.wr_keeps (hq := ?_) ..
  exact h6
  refine State.wr_keeps (hq := ?_) ..
  refine State.wr_keeps (hq := ?_) ..
  exact h6
  exact h3
  dsimp -zeta only [x2]
  refine Keeps.foldl (fun t7 y8 h9 => ?_) ?_
  refine State.modSlot_keeps (hq := ?_) ..
  exact h9
  exact hq

theorem State.plcStart_keeps {qq : List Instr} {mm : Option Memory} {cc : Option Chip} (s : State) (n : Nat) (hq : Keeps ⟨qq, mm, cc⟩ s) :
    Keeps ⟨qq, mm, cc⟩ (State.plcStart s n) := by
  unfold State.plcStart
  extract_lets p' w
  exact State.plcInterval_keeps (hq := PlcWork.foldl_keeps _ _ _ (fun w x h => PlcWork.lostEngine_keeps w p' true x h) hq) ..

theorem State.routerDiscard_keeps {qq : List Instr} {mm : Option Memory} {cc : Option Chip} (s : State) (r : Nat) (p : Packet) (hq : Keeps ⟨qq, mm, cc⟩ s) :
    Keeps ⟨qq, mm, cc⟩ (State.routerDiscard s r p) := by
  unfold State.routerDiscard
  refine Keeps.ite (fun _ => ?_) (fun _ => ?_)
  refine State.sendDrop_keeps (hq := ?_) ..
  exact hq
  exact hq

theorem State.routerFault_keeps {qq : List Instr} {mm : Option Memory} {cc : Option Chip} (s : State) (r : Nat) (reason : Nat) (hq : Keeps ⟨qq, mm, cc⟩ s) :
    Keeps ⟨qq, mm, cc⟩ (State.routerFault s r reason) := by
  unfold State.routerFault
  refine Keeps.ite (fun _ => ?_) (fun _ => ?_)
  exact hq
  extract_lets x1 x2 x3 x4 x5 x6
  have h7 : Keeps ⟨qq, mm, cc⟩ x6 := ?_
  refine State.logEv_keeps (hq := ?_) ..
  exact h7
  dsimp -zeta only [x6]
  have h8 : Keeps ⟨qq, mm, cc⟩ x5 := ?_
  refine State.modNet_keeps (hq := ?_) ..
  exact h8
  dsimp -zeta only [x5]
  refine State.raise_keeps (hq := ?_) ..
  refine State.setMask64_keeps (hq := ?_) ..
  exact hq

theorem State.killLink_keeps {qq : List Instr} {mm : Option Memory} {cc : Option Chip} (s : State) (r : Nat) (d : Nat) (reason : Nat) (hq : Keeps ⟨qq, mm, cc⟩ s) :
    Keeps ⟨qq, mm, cc⟩ (State.killLink s r d reason) := by
  unfold State.killLink
  refine Keeps.ite (fun _ => ?_) (fun _ => ?_)
  exact hq
  extract_lets x1
  have h2 : Keeps ⟨qq, mm, cc⟩ x1 := ?_
  refine Keeps.ite (fun _ => ?_) (fun _ => ?_)
  refine State.routerFault_keeps (hq := ?_) ..
  exact h2
  exact h2
  dsimp -zeta only [x1]
  refine State.logEv_keeps (hq := ?_) ..
  refine State.raise_keeps (hq := ?_) ..
  refine State.raise_keeps (hq := ?_) ..
  exact hq

theorem State.wireCorrected_keeps {qq : List Instr} {mm : Option Memory} {cc : Option Chip} (s : State) (r : Nat) (d : Nat) (g : Nat) (w : Nat) (hq : Keeps ⟨qq, mm, cc⟩ s) :
    Keeps ⟨qq, mm, cc⟩ (State.wireCorrected s r d g w) := by
  unfold State.wireCorrected
  extract_lets x1 x2 x3 x4 x5
  have h6 : Keeps ⟨qq, mm, cc⟩ x4 := ?_
  have h7 : Keeps ⟨qq, mm, cc⟩ x5 := ?_
  refine Keeps.ite (fun _ => ?_) (fun _ => ?_)
  exact h6
  refine Keeps.ite (fun _ => ?_) (fun _ => ?_)
  refine State.modNet_keeps (hq := ?_) ..
  exact h6
  refine State.modNet_keeps (hq := ?_) ..
  exact h7
  dsimp -zeta only [x5]
  refine State.wr_keeps (hq := ?_) ..
  refine State.wr_keeps (hq := ?_) ..
  refine State.wr_keeps (hq := ?_) ..
  exact h6
  dsimp -zeta only [x4]
  refine State.modNet_keeps (hq := ?_) ..
  refine State.bump_keeps (hq := ?_) ..
  exact hq

theorem State.repairWires_keeps {qq : List Instr} {mm : Option Memory} {cc : Option Chip} (s : State) (hq : Keeps ⟨qq, mm, cc⟩ s) :
    Keeps ⟨qq, mm, cc⟩ (State.repairWires s) := by
  unfold State.repairWires
  extract_lets x1
  have h2 : Keeps ⟨qq, mm, cc⟩ x1 := ?_
  refine State.modNet_keeps (hq := ?_) ..
  exact h2
  dsimp -zeta only [x1]
  refine Keeps.foldl (fun t3 y4 h5 => ?_) ?_
  extract_lets x6 x7 x8 x9 x10 x11 x12
  have h13 : Keeps ⟨qq, mm, cc⟩ x12 := ?_
  refine State.journal_keeps (hq := ?_) ..
  refine State.logEv_keeps (hq := ?_) ..
  exact h13
  dsimp -zeta only [x12]
  have h14 : Keeps ⟨qq, mm, cc⟩ x11 := ?_
  refine State.wr_keeps (hq := ?_) ..
  refine State.wr_keeps (hq := ?_) ..
  exact h14
  dsimp -zeta only [x11]
  refine State.modNet_keeps (hq := ?_) ..
  exact h5
  exact hq

theorem State.startFlip_keeps {qq : List Instr} {mm : Option Memory} {cc : Option Chip} (s : State) (marking : Bool) (writing : Bool) (hq : Keeps ⟨qq, mm, cc⟩ s) :
    Keeps ⟨qq, mm, cc⟩ (State.startFlip s marking writing) := by
  unfold State.startFlip
  extract_lets x1 x2
  refine State.modNet_keeps (hq := ?_) ..
  refine State.wr_keeps (hq := ?_) ..
  exact hq

theorem State.writeMark_keeps {qq : List Instr} {mm : Option Memory} {cc : Option Chip} (s : State) (n : Nat) (v : Bool) (hq : Keeps ⟨qq, mm, cc⟩ s) :
    Keeps ⟨qq, mm, cc⟩ (State.writeMark s n v) := by
  unfold State.writeMark
  extract_lets x1
  refine State.modNet_keeps (hq := ?_) ..
  exact hq

theorem State.requestMark_keeps {qq : List Instr} {mm : Option Memory} {cc : Option Chip} (s : State) (n : Nat) (v : Bool) (hq : Keeps ⟨qq, mm, cc⟩ s) :
    Keeps ⟨qq, mm, cc⟩ (State.requestMark s n v) := by
  unfold State.requestMark
  extract_lets x1 x2
  have h3 : Keeps ⟨qq, mm, cc⟩ x2 := ?_
  refine State.modNet_keeps (hq := ?_) ..
  exact h3
  dsimp -zeta only [x2]
  have h4 : Keeps ⟨qq, mm, cc⟩ x1 := ?_
  refine State.writeMark_keeps (hq := ?_) ..
  exact h4
  dsimp -zeta only [x1]
  refine Keeps.ite (fun _ => ?_) (fun _ => ?_)
  exact hq
  refine State.startFlip_keeps (hq := ?_) ..
  exact hq

theorem State.flipNow_keeps {qq : List Instr} {mm : Option Memory} {cc : Option Chip} (s : State) (f : Flip) (hq : Keeps ⟨qq, mm, cc⟩ s) :
    Keeps ⟨qq, mm, cc⟩ (State.flipNow s f) := by
  unfold State.flipNow
  extract_lets x1 x2 x3 x4 x5 x6
  have h7 : Keeps ⟨qq, mm, cc⟩ x6 := ?_
  refine State.logEv_keeps (hq := ?_) ..
  refine State.repairWires_keeps (hq := ?_) ..
  exact h7
  dsimp -zeta only [x6]
  have h8 : Keeps ⟨qq, mm, cc⟩ x5 := ?_
  refine State.modNet_keeps (hq := ?_) ..
  exact h8
  dsimp -zeta only [x5]
  have h9 : Keeps ⟨qq, mm, cc⟩ x4 := ?_
  refine Keeps.foldl (fun t10 y11 h12 => ?_) ?_
  refine State.setMask64_keeps (hq := ?_) ..
  exact h12
  exact h9
  dsimp -zeta only [x4]
  have h13 : Keeps ⟨qq, mm, cc⟩ x3 := ?_
  refine State.wr_keeps (hq := ?_) ..
  refine State.wr_keeps (hq := ?_) ..
  exact h13
  dsimp -zeta only [x3]
  have h14 : Keeps ⟨qq, mm, cc⟩ x2 := ?_
  refine Keeps.ite (fun _ => ?_) (fun _ => ?_)
  refine State.count_keeps (hq := ?_) ..
  exact h14
  exact h14
  dsimp -zeta only [x2]
  refine State.count_keeps (hq := ?_) ..
  refine State.wr_keeps (hq := ?_) ..
  refine State.wr_keeps (hq := ?_) ..
  exact hq

theorem State.routePair_keeps {qq : List Instr} {mm : Option Memory} {cc : Option Chip} (s : State) (p : PlcNet) (k : Nat) (i : Nat) (j : Nat) (hq : Keeps ⟨qq, mm, cc⟩ s) :
    Keeps ⟨qq, mm, cc⟩ (State.routePair s p k i j).2 := by
  unfold State.routePair
  extract_lets x1 x2 x3 x4 x5 x6 x7 x8 x9 x10 x11 x12 x13 x14 x15 x16 x17 x18 x19
  have h20 : Keeps ⟨qq, mm, cc⟩ x10 := ?_
  split
  exact hq
  split
  extract_lets x21 x22
  have h23 : Keeps ⟨qq, mm, cc⟩ x22 := ?_
  dsimp -zeta only
  refine Keeps.ite (fun _ => ?_) (fun _ => ?_)
  refine State.logEv_keeps (hq := ?_) ..
  refine State.raise_keeps (hq := ?_) ..
  exact h23
  exact h23
  dsimp -zeta only [x22]
  have h24 : Keeps ⟨qq, mm, cc⟩ x21 := ?_
  refine Keeps.ite (fun _ => ?_) (fun _ => ?_)
  refine State.plcRec_keeps (hq := ?_) ..
  refine State.plcChange_keeps (hq := ?_) ..
  exact h24
  exact h24
  dsimp -zeta only [x21]
  refine State.modNi_keeps (hq := ?_) ..
  exact h20
  dsimp -zeta only [x10]
  refine Keeps.ite (fun _ => ?_) (fun _ => ?_)
  refine State.modNi_keeps (hq := ?_) ..
  exact hq
  exact hq

theorem State.routePass_keeps {qq : List Instr} {mm : Option Memory} {cc : Option Chip} (s : State) (p : PlcNet) (hq : Keeps ⟨qq, mm, cc⟩ s) :
    Keeps ⟨qq, mm, cc⟩ (State.routePass s p) := by
  unfold State.routePass
  extract_lets x1 x2 x3 x4
  have h5 : Keeps ⟨qq, mm, cc⟩ x3 := ?_
  refine State.modNet_keeps (hq := ?_) ..
  exact h5
  dsimp -zeta only [x3]
  have h6 : Keeps ⟨qq, mm, cc⟩ x1 := ?_
  refine Keeps.foldl_snd (fun t7 y8 h9 => ?_) ?_
  refine State.routePair_keeps (hq := ?_) ..
  exact h9
  exact h6
  dsimp -zeta only [x1]
  refine Keeps.foldl (fun t10 y11 h12 => ?_) ?_
  refine State.killLink_keeps (hq := ?_) ..
  exact h12
  exact hq

theorem State.plcNetInterval_keeps {qq : List Instr} {mm : Option Memory} {cc : Option Chip} (s : State) (hq : Keeps ⟨qq, mm, cc⟩ s) :
    Keeps ⟨qq, mm, cc⟩ (State.plcNetInterval s) := by
  unfold State.plcNetInterval
  refine State.modPlc_keeps (hq := ?_) ..
  exact hq

theorem State.linkCheck_keeps {qq : List Instr} {mm : Option Memory} {cc : Option Chip} (s : State) (r : Nat) (d : Nat) (l : LinkEvent) (hq : Keeps ⟨qq, mm, cc⟩ s) :
    Keeps ⟨qq, mm, cc⟩ (State.linkCheck s r d l) := by
  unfold State.linkCheck
  split
  exact hq
  refine State.wireCorrected_keeps (hq := ?_) ..
  exact hq
  extract_lets x1
  have h2 : Keeps ⟨qq, mm, cc⟩ x1 := ?_
  refine Keeps.ite (fun _ => ?_) (fun _ => ?_)
  refine State.killLink_keeps (hq := ?_) ..
  exact h2
  exact h2
  dsimp -zeta only [x1]
  refine State.bump_keeps (hq := ?_) ..
  exact hq

theorem execRouterHop_keeps {qq : List Instr} {mm : Option Memory} {cc : Option Chip} (r : Fin 64) (out : Fin 8) (l : LinkEvent) (s : State) (hq : Keeps ⟨qq, mm, cc⟩ s) :
    KeepsO ⟨qq, mm, cc⟩ (execRouterHop r out l s) := by
  unfold execRouterHop
  refine KeepsO.ite (fun _ => ?_) (fun _ => ?_)
  refine KeepsO.next ?_
  exact hq
  split
  refine KeepsO.next ?_
  exact hq
  extract_lets x1 x2 x3 x4
  have h5 : Keeps ⟨qq, mm, cc⟩ x1 := ?_
  have h6 : Keeps ⟨qq, mm, cc⟩ x2 := ?_
  have h7 : Keeps ⟨qq, mm, cc⟩ x4 := ?_
  refine KeepsO.ite (fun _ => ?_) (fun _ => ?_)
  refine KeepsO.ite (fun _ => ?_) (fun _ => ?_)
  refine KeepsO.next ?_
  refine State.routerDiscard_keeps (hq := ?_) ..
  exact h6
  refine KeepsO.next ?_
  refine State.enqueue_keeps (hq := ?_) ..
  exact h7
  split
  refine KeepsO.next ?_
  refine State.modNi_keeps (hq := ?_) ..
  exact h5
  refine KeepsO.next ?_
  refine State.routerDiscard_keeps (hq := ?_) ..
  exact h5
  dsimp -zeta only [x4]
  refine State.count_keeps (hq := ?_) ..
  exact h6
  dsimp -zeta only [x2]
  refine Keeps.ite (fun _ => ?_) (fun _ => ?_)
  exact h5
  refine State.linkCheck_keeps (hq := ?_) ..
  exact h5
  dsimp -zeta only [x1]
  refine State.dequeue_keeps (hq := ?_) ..
  exact hq

theorem execPacketAgeStep_keeps {qq : List Instr} {mm : Option Memory} {cc : Option Chip} (r : Fin 64) (port : Fin 8) (vc : Fin 4) (cls : Bool) (s : State) (hq : Keeps ⟨qq, mm, cc⟩ s) :
    KeepsO ⟨qq, mm, cc⟩ (execPacketAgeStep r port vc cls s) := by
  unfold execPacketAgeStep
  extract_lets x1
  refine KeepsO.next ?_
  split
  exact hq
  refine State.modNet_keeps (hq := ?_) ..
  exact hq

theorem execRequestTimeout_keeps {qq : List Instr} {mm : Option Memory} {cc : Option Chip} (i : Fin 80) (t : Fin 4096) (s : State) (hq : Keeps ⟨qq, mm, cc⟩ s) :
    KeepsO ⟨qq, mm, cc⟩ (execRequestTimeout i t s) := by
  unfold execRequestTimeout
  split
  refine KeepsO.next ?_
  exact hq
  extract_lets x1 x2 x3
  have h4 : Keeps ⟨qq, mm, cc⟩ x3 := ?_
  refine KeepsO.next ?_
  refine State.answered_keeps (hq := ?_) ..
  refine State.nextRequest_keeps (hq := ?_) ..
  exact h4
  dsimp -zeta only [x3]
  have h5 : Keeps ⟨qq, mm, cc⟩ x2 := ?_
  refine State.logEvLimited_keeps (hq := ?_) ..
  exact h5
  dsimp -zeta only [x2]
  have h6 : Keeps ⟨qq, mm, cc⟩ x1 := ?_
  refine State.modNi_keeps (hq := ?_) ..
  exact h6
  dsimp -zeta only [x1]
  refine State.bump_keeps (hq := ?_) ..
  exact hq

theorem execTidRelease_keeps {qq : List Instr} {mm : Option Memory} {cc : Option Chip} (i : Fin 80) (t : Fin 4096) (s : State) (hq : Keeps ⟨qq, mm, cc⟩ s) :
    KeepsO ⟨qq, mm, cc⟩ (execTidRelease i t s) := by
  unfold execTidRelease
  refine KeepsO.ite (fun _ => ?_) (fun _ => ?_)
  refine KeepsO.next ?_
  refine State.nextRequest_keeps (hq := ?_) ..
  refine State.modNi_keeps (hq := ?_) ..
  exact hq
  refine KeepsO.next ?_
  exact hq

theorem execCreditTimeout_keeps {qq : List Instr} {mm : Option Memory} {cc : Option Chip} (r : Fin 64) (d : Fin 4) (s : State) (hq : Keeps ⟨qq, mm, cc⟩ s) :
    KeepsO ⟨qq, mm, cc⟩ (execCreditTimeout r d s) := by
  unfold execCreditTimeout
  extract_lets x1
  refine KeepsO.next ?_
  refine Keeps.ite (fun _ => ?_) (fun _ => ?_)
  refine State.killLink_keeps (hq := ?_) ..
  exact hq
  exact hq

theorem execRouterStall_keeps {qq : List Instr} {mm : Option Memory} {cc : Option Chip} (r : Fin 64) (s : State) (hq : Keeps ⟨qq, mm, cc⟩ s) :
    KeepsO ⟨qq, mm, cc⟩ (execRouterStall r s) := by
  unfold execRouterStall
  refine KeepsO.next ?_
  refine Keeps.ite (fun _ => ?_) (fun _ => ?_)
  refine State.routerFault_keeps (hq := ?_) ..
  exact hq
  exact hq

theorem execLedgerDrop_keeps {qq : List Instr} {mm : Option Memory} {cc : Option Chip} (r : Fin 64) (bad : Bool) (s : State) (hq : Keeps ⟨qq, mm, cc⟩ s) :
    KeepsO ⟨qq, mm, cc⟩ (execLedgerDrop r bad s) := by
  unfold execLedgerDrop
  split
  refine KeepsO.next ?_
  exact hq
  extract_lets x1
  have h2 : Keeps ⟨qq, mm, cc⟩ x1 := ?_
  refine KeepsO.ite (fun _ => ?_) (fun _ => ?_)
  refine KeepsO.next ?_
  refine State.logEv_keeps (hq := ?_) ..
  refine State.bump_keeps (hq := ?_) ..
  exact h2
  refine KeepsO.ite (fun _ => ?_) (fun _ => ?_)
  refine KeepsO.next ?_
  refine State.bump_keeps (hq := ?_) ..
  exact h2
  refine KeepsO.next ?_
  refine State.dropArrives_keeps (hq := ?_) ..
  exact h2
  dsimp -zeta only [x1]
  refine State.modNet_keeps (hq := ?_) ..
  exact hq

theorem execEpochFlip_keeps {qq : List Instr} {mm : Option Memory} {cc : Option Chip} (s : State) (hq : Keeps ⟨qq, mm, cc⟩ s) :
    KeepsO ⟨qq, mm, cc⟩ (execEpochFlip s) := by
  unfold execEpochFlip
  split
  refine KeepsO.next ?_
  exact hq
  refine KeepsO.next ?_
  refine Keeps.ite (fun _ => ?_) (fun _ => ?_)
  exact hq
  refine State.flipNow_keeps (hq := ?_) ..
  exact hq

theorem State.writeRdata_keeps {qq : List Instr} {mm : Option Memory} {cc : Option Chip} (s : State) (i : Nat) (v : Nat) (hq : Keeps ⟨qq, mm, cc⟩ s) :
    Keeps ⟨qq, mm, cc⟩ (State.writeRdata s i v) := by
  unfold State.writeRdata
  extract_lets x1 x2 x3 x4 x5 x6 x7 x8
  have h9 : Keeps ⟨qq, mm, cc⟩ x4 := ?_
  have h10 : Keeps ⟨qq, mm, cc⟩ x5 := ?_
  clear_value x1
  split
  refine Keeps.ite (fun _ => ?_) (fun _ => ?_)
  exact h10
  refine State.modNi_keeps (hq := ?_) ..
  exact h9
  refine Keeps.ite (fun _ => ?_) (fun _ => ?_)
  exact h10
  refine State.modNi_keeps (hq := ?_) ..
  exact h9
  refine State.modNi_keeps (hq := ?_) ..
  exact h9
  exact h9
  dsimp -zeta only [x5]
  refine State.raise_keeps (hq := ?_) ..
  exact h9
  dsimp -zeta only [x4]
  refine Keeps.mk_other ?_
  exact hq

theorem execRouteEntryWrite_keeps {qq : List Instr} {mm : Option Memory} {cc : Option Chip} (x : Accessor) (i : Fin 80) (v : Word) (s : State) (hq : Keeps ⟨qq, mm, cc⟩ s) :
    KeepsO ⟨qq, mm, cc⟩ (execRouteEntryWrite x i v s) := by
  unfold execRouteEntryWrite
  refine KeepsO.next ?_
  refine State.writeRdata_keeps (hq := ?_) ..
  exact hq

theorem execResp_keeps {qq : List Instr} {mm : Option Memory} {cc : Option Chip} (i : Fin 80) (s : State) (hq : Keeps ⟨qq, mm, cc⟩ s) :
    KeepsO ⟨qq, mm, cc⟩ (execResp i s) := by
  unfold execResp
  refine KeepsO.next ?_
  refine State.takeResponse_keeps (hq := ?_) ..
  exact hq

theorem execDrop_keeps {qq : List Instr} {mm : Option Memory} {cc : Option Chip} (i : Fin 80) (s : State) (hq : Keeps ⟨qq, mm, cc⟩ s) :
    KeepsO ⟨qq, mm, cc⟩ (execDrop i s) := by
  unfold execDrop
  split
  refine KeepsO.next ?_
  exact hq
  refine KeepsO.next ?_
  refine State.dropArrives_keeps (hq := ?_) ..
  refine State.modNi_keeps (hq := ?_) ..
  exact hq

theorem State.sendStream_keeps {qq : List Instr} {mm : Option Memory} {cc : Option Chip} (s : State) (n : Nat) (p : Nat) (dest : Nat) (opc : Nat) (stamp : Nat) (words : List Line) (psn : Nat) (hq : Keeps ⟨qq, mm, cc⟩ s) :
    Keeps ⟨qq, mm, cc⟩ (State.sendStream s n p dest opc stamp words psn) := by
  unfold State.sendStream
  extract_lets x1 x2 x3
  refine Keeps.ite (fun _ => ?_) (fun _ => ?_)
  refine State.dropArrives_keeps (hq := ?_) ..
  exact hq
  split
  refine State.dropArrives_keeps (hq := ?_) ..
  exact hq
  refine State.inject_keeps (hq := ?_) ..
  exact hq

theorem execStreamPacketSend_keeps {qq : List Instr} {mm : Option Memory} {cc : Option Chip} (n : Fin 64) (p : Fin 8) (dest : Fin 64) (last : Line) (s : State) (hq : Keeps ⟨qq, mm, cc⟩ s) :
    KeepsO ⟨qq, mm, cc⟩ (execStreamPacketSend n p dest last s) := by
  unfold execStreamPacketSend
  refine KeepsO.ite (fun _ => ?_) (fun _ => ?_)
  refine KeepsO.next ?_
  exact hq
  extract_lets x1 x2
  have h3 : Keeps ⟨qq, mm, cc⟩ x2 := ?_
  refine KeepsO.next ?_
  refine State.sendStream_keeps (hq := ?_) ..
  exact h3
  dsimp -zeta only [x2]
  refine State.modFab_keeps (hq := ?_) ..
  exact hq

theorem execMark_keeps {qq : List Instr} {mm : Option Memory} {cc : Option Chip} (n : Fin 64) (dest : Fin 64) (s : State) (hq : Keeps ⟨qq, mm, cc⟩ s) :
    KeepsO ⟨qq, mm, cc⟩ (execMark n dest s) := by
  unfold execMark
  extract_lets x1
  split
  refine KeepsO.next ?_
  exact hq
  extract_lets x2
  refine KeepsO.ite (fun _ => ?_) (fun _ => ?_)
  refine KeepsO.next ?_
  refine State.sendStream_keeps (hq := ?_) ..
  refine KeepsQ.of (by assumption) ?_
  refine State.takeAction_keeps (hq := ?_) ..
  exact hq
  refine KeepsO.next ?_
  refine KeepsQ.of (by assumption) ?_
  refine State.takeAction_keeps (hq := ?_) ..
  exact hq

theorem State.modCrc_keeps {qq : List Instr} {mm : Option Memory} {cc : Option Chip} (s : State) (k : Nat) (f : CrcUnit → CrcUnit) (hq : Keeps ⟨qq, mm, cc⟩ s) :
    Keeps ⟨qq, mm, cc⟩ (State.modCrc s k f) := by
  unfold State.modCrc
  refine Keeps.mk_other ?_
  exact hq

theorem State.crcLatch_keeps {qq : List Instr} {mm : Option Memory} {cc : Option Chip} (s : State) (k : Nat) (hq : Keeps ⟨qq, mm, cc⟩ s) :
    Keeps ⟨qq, mm, cc⟩ (State.crcLatch s k) := by
  unfold State.crcLatch
  extract_lets x1 x2 x3 x4 x5 x6 x7
  split
  split
  extract_lets x8 x9 x10 x11 x12 x13
  have h14 : Keeps ⟨qq, mm, cc⟩ x13 := ?_
  refine Keeps.ite (fun _ => ?_) (fun _ => ?_)
  refine State.logEvLimited_keeps (hq := ?_) ..
  exact h14
  exact h14
  dsimp -zeta only [x13]
  have h15 : Keeps ⟨qq, mm, cc⟩ x12 := ?_
  refine State.modCrc_keeps (hq := ?_) ..
  exact h15
  dsimp -zeta only [x12]
  have h16 : Keeps ⟨qq, mm, cc⟩ x11 := ?_
  refine State.count_keeps (hq := ?_) ..
  refine State.raise_keeps (hq := ?_) ..
  exact h16
  dsimp -zeta only [x11]
  have h17 : Keeps ⟨qq, mm, cc⟩ x10 := ?_
  refine State.wr_keeps (hq := ?_) ..
  refine State.wr_keeps (hq := ?_) ..
  refine State.wr_keeps (hq := ?_) ..
  exact h17
  dsimp -zeta only [x10]
  refine Keeps.ite (fun _ => ?_) (fun _ => ?_)
  refine State.raise_keeps (hq := ?_) ..
  refine Keeps.snd_eq (by assumption) ?_
  split
  refine State.takeFree_keeps (hq := ?_) ..
  refine Keeps.snd_eq (by assumption) ?_
  split
  refine State.takeFree_keeps (hq := ?_) ..
  exact hq
  refine State.takeFree_keeps (hq := ?_) ..
  exact hq
  dsimp -zeta only
  refine Keeps.snd_eq (by assumption) ?_
  split
  refine State.takeFree_keeps (hq := ?_) ..
  exact hq
  exact hq
  refine Keeps.snd_eq (by assumption) ?_
  split
  refine State.takeFree_keeps (hq := ?_) ..
  refine Keeps.snd_eq (by assumption) ?_
  split
  refine State.takeFree_keeps (hq := ?_) ..
  exact hq
  refine State.takeFree_keeps (hq := ?_) ..
  exact hq
  dsimp -zeta only
  refine Keeps.snd_eq (by assumption) ?_
  split
  refine State.takeFree_keeps (hq := ?_) ..
  exact hq
  exact hq

theorem State.crcAlive_keeps {qq : List Instr} {mm : Option Memory} {cc : Option Chip} (s : State) (k : Nat) (p : Packet) (hq : Keeps ⟨qq, mm, cc⟩ s) :
    Keeps ⟨qq, mm, cc⟩ (State.crcAlive s k p) := by
  unfold State.crcAlive
  refine Keeps.ite (fun _ => ?_) (fun _ => ?_)
  exact hq
  extract_lets x1 x2 x3 x4
  have h5 : Keeps ⟨qq, mm, cc⟩ x4 := ?_
  clear_value x3
  split
  exact h5
  extract_lets x6
  refine Keeps.ite (fun _ => ?_) (fun _ => ?_)
  exact h5
  refine Keeps.ite (fun _ => ?_) (fun _ => ?_)
  refine State.bump_keeps (hq := ?_) ..
  exact h5
  refine Keeps.ite (fun _ => ?_) (fun _ => ?_)
  refine State.bump_keeps (hq := ?_) ..
  exact h5
  refine State.logEvLimited_keeps (hq := ?_) ..
  refine State.bump_keeps (hq := ?_) ..
  exact h5
  dsimp -zeta only [x4]
  refine State.modCrc_keeps (hq := ?_) ..
  exact hq

theorem State.crcTake_keeps {qq : List Instr} {mm : Option Memory} {cc : Option Chip} (s : State) (k : Nat) (p : Packet) (hq : Keeps ⟨qq, mm, cc⟩ s) :
    Keeps ⟨qq, mm, cc⟩ (State.crcTake s k p) := by
  unfold State.crcTake
  extract_lets x1 x2 x3 x4
  have h5 : Keeps ⟨qq, mm, cc⟩ x4 := ?_
  refine Keeps.ite (fun _ => ?_) (fun _ => ?_)
  refine Keeps.ite (fun _ => ?_) (fun _ => ?_)
  refine State.crcLatch_keeps (hq := ?_) ..
  exact hq
  exact hq
  refine Keeps.ite (fun _ => ?_) (fun _ => ?_)
  refine State.crcLatch_keeps (hq := ?_) ..
  exact h5
  exact h5
  dsimp -zeta only [x4]
  have h6 : Keeps ⟨qq, mm, cc⟩ x2 := ?_
  refine State.modCrc_keeps (hq := ?_) ..
  exact h6
  dsimp -zeta only [x2]
  refine State.crcAlive_keeps (hq := ?_) ..
  exact hq

theorem State.crcTap_keeps {qq : List Instr} {mm : Option Memory} {cc : Option Chip} (s : State) (i : Nat) (p : Packet) (hq : Keeps ⟨qq, mm, cc⟩ s) :
    Keeps ⟨qq, mm, cc⟩ (State.crcTap s i p) := by
  unfold State.crcTap
  refine Keeps.foldl (fun t1 y2 h3 => ?_) ?_
  refine Keeps.ite (fun _ => ?_) (fun _ => ?_)
  refine State.crcTake_keeps (hq := ?_) ..
  exact h3
  exact h3
  exact hq

theorem State.crcClear_keeps {qq : List Instr} {mm : Option Memory} {cc : Option Chip} (s : State) (k : Nat) (v : Nat) (hq : Keeps ⟨qq, mm, cc⟩ s) :
    Keeps ⟨qq, mm, cc⟩ (State.crcClear s k v) := by
  unfold State.crcClear
  extract_lets x1 x2
  have h3 : Keeps ⟨qq, mm, cc⟩ x1 := ?_
  have h4 : Keeps ⟨qq, mm, cc⟩ x2 := ?_
  refine Keeps.ite (fun _ => ?_) (fun _ => ?_)
  refine State.modCrc_keeps (hq := ?_) ..
  refine State.wr_keeps (hq := ?_) ..
  refine State.wr_keeps (hq := ?_) ..
  exact h4
  exact h3
  dsimp -zeta only [x2]
  refine State.wr_keeps (hq := ?_) ..
  refine State.wr_keeps (hq := ?_) ..
  refine State.wr_keeps (hq := ?_) ..
  exact h3
  dsimp -zeta only [x1]
  refine Keeps.mk_other ?_
  exact hq

theorem State.crcReadLo_keeps {qq : List Instr} {mm : Option Memory} {cc : Option Chip} (s : State) (k : Nat) (hq : Keeps ⟨qq, mm, cc⟩ s) :
    Keeps ⟨qq, mm, cc⟩ (State.crcReadLo s k) := by
  unfold State.crcReadLo
  extract_lets x1 x2
  have h3 : Keeps ⟨qq, mm, cc⟩ x2 := ?_
  refine Keeps.mk_other ?_
  exact h3
  dsimp -zeta only [x2]
  refine State.modCrc_keeps (hq := ?_) ..
  exact hq

theorem State.modMbx_keeps {qq : List Instr} {mm : Option Memory} {cc : Option Chip} (s : State) (f : Mbx → Mbx) (hq : Keeps ⟨qq, mm, cc⟩ s) :
    Keeps ⟨qq, mm, cc⟩ (State.modMbx s f) := by
  unfold State.modMbx
  refine Keeps.mk_other ?_
  exact hq

theorem State.putSlot_keeps {qq : List Instr} {mm : Option Memory} {cc : Option Chip} (s : State) (k : Nat) (x : MbxSlot) (hq : Keeps ⟨qq, mm, cc⟩ s) :
    Keeps ⟨qq, mm, cc⟩ (State.putSlot s k x) := by
  unfold State.putSlot
  refine State.modMbx_keeps (hq := ?_) ..
  exact hq

theorem State.slotReady_keeps {qq : List Instr} {mm : Option Memory} {cc : Option Chip} (s : State) (k : Nat) (hq : Keeps ⟨qq, mm, cc⟩ s) :
    Keeps ⟨qq, mm, cc⟩ (State.slotReady s k) := by
  unfold State.slotReady
  refine State.modMbx_keeps (hq := ?_) ..
  refine State.count_keeps (hq := ?_) ..
  refine State.putSlot_keeps (hq := ?_) ..
  exact hq

theorem State.slotAbort_keeps {qq : List Instr} {mm : Option Memory} {cc : Option Chip} (s : State) (k : Nat) (hq : Keeps ⟨qq, mm, cc⟩ s) :
    Keeps ⟨qq, mm, cc⟩ (State.slotAbort s k) := by
  unfold State.slotAbort
  refine State.slotReady_keeps (hq := ?_) ..
  refine State.putSlot_keeps (hq := ?_) ..
  exact hq

theorem State.mbxClose_keeps {qq : List Instr} {mm : Option Memory} {cc : Option Chip} (s : State) (sel : MbxSlot → Bool) (hq : Keeps ⟨qq, mm, cc⟩ s) :
    Keeps ⟨qq, mm, cc⟩ (State.mbxClose s sel) := by
  unfold State.mbxClose
  refine Keeps.foldl (fun t1 y2 h3 => ?_) ?_
  refine State.slotAbort_keeps (hq := ?_) ..
  exact h3
  exact hq

theorem State.slotWords_keeps {qq : List Instr} {mm : Option Memory} {cc : Option Chip} (s : State) (k : Nat) (ws : List Line) (poison : Bool) (o : MbxOpen) (hq : Keeps ⟨qq, mm, cc⟩ s) :
    Keeps ⟨qq, mm, cc⟩ (State.slotWords s k ws poison o) := by
  unfold State.slotWords
  extract_lets x1 x2 x3 x4
  have h5 : Keeps ⟨qq, mm, cc⟩ x4 := ?_
  refine Keeps.ite (fun _ => ?_) (fun _ => ?_)
  refine State.slotReady_keeps (hq := ?_) ..
  exact h5
  exact h5
  dsimp -zeta only [x4]
  have h6 : Keeps ⟨qq, mm, cc⟩ x2 := ?_
  refine State.modMbx_keeps (hq := ?_) ..
  exact h6
  dsimp -zeta only [x2]
  refine State.putSlot_keeps (hq := ?_) ..
  exact hq

theorem State.mbxSkip_keeps {qq : List Instr} {mm : Option Memory} {cc : Option Chip} (s : State) (o : MbxOpen) (n : Nat) (hq : Keeps ⟨qq, mm, cc⟩ s) :
    Keeps ⟨qq, mm, cc⟩ (State.mbxSkip s o n) := by
  unfold State.mbxSkip
  refine State.modMbx_keeps (hq := ?_) ..
  exact hq

theorem State.mbxExcess_keeps {qq : List Instr} {mm : Option Memory} {cc : Option Chip} (s : State) (n : Nat) (hq : Keeps ⟨qq, mm, cc⟩ s) :
    Keeps ⟨qq, mm, cc⟩ (State.mbxExcess s n) := by
  unfold State.mbxExcess
  refine Keeps.ite (fun _ => ?_) (fun _ => ?_)
  exact hq
  refine State.bump_keeps (hq := ?_) ..
  exact hq

theorem State.mbxTake_keeps {qq : List Instr} {mm : Option Memory} {cc : Option Chip} (s : State) (p : Packet) (hq : Keeps ⟨qq, mm, cc⟩ s) :
    Keeps ⟨qq, mm, cc⟩ (State.mbxTake s p) := by
  unfold State.mbxTake
  extract_lets x1 x2 x3 x4 x5 x6 x7 x8 x9
  have h10 : Keeps ⟨qq, mm, cc⟩ x8 := ?_
  split
  split
  refine State.mbxSkip_keeps (hq := ?_) ..
  exact hq
  refine State.mbxExcess_keeps (hq := ?_) ..
  refine State.slotWords_keeps (hq := ?_) ..
  exact hq
  refine Keeps.ite (fun _ => ?_) (fun _ => ?_)
  refine State.mbxSkip_keeps (hq := ?_) ..
  refine State.raise_keeps (hq := ?_) ..
  refine State.bump_keeps (hq := ?_) ..
  exact hq
  split
  refine State.mbxSkip_keeps (hq := ?_) ..
  exact h10
  extract_lets x11
  have h12 : Keeps ⟨qq, mm, cc⟩ x11 := ?_
  refine State.mbxExcess_keeps (hq := ?_) ..
  refine State.slotWords_keeps (hq := ?_) ..
  exact h12
  dsimp -zeta only [x11]
  refine State.modMbx_keeps (hq := ?_) ..
  refine State.count_keeps (hq := ?_) ..
  refine State.putSlot_keeps (hq := ?_) ..
  exact hq
  dsimp -zeta only [x8]
  have h13 : Keeps ⟨qq, mm, cc⟩ x7 := ?_
  refine State.logEvLimited_keeps (hq := ?_) ..
  exact h13
  dsimp -zeta only [x7]
  refine State.modMbx_keeps (hq := ?_) ..
  refine State.raise_keeps (hq := ?_) ..
  refine State.bump_keeps (hq := ?_) ..
  exact hq

theorem State.slotRead_keeps {qq : List Instr} {mm : Option Memory} {cc : Option Chip} (s : State) (k : Nat) (hq : Keeps ⟨qq, mm, cc⟩ s) :
    Keeps ⟨qq, mm, cc⟩ (State.slotRead s k) := by
  unfold State.slotRead
  extract_lets x1 x2 x3 x4
  have h5 : Keeps ⟨qq, mm, cc⟩ x3 := ?_
  have h6 : Keeps ⟨qq, mm, cc⟩ x4 := ?_
  split
  refine Keeps.mk_other ?_
  exact hq
  refine Keeps.mk_other ?_
  exact hq
  refine Keeps.mk_other ?_
  exact h5
  refine Keeps.mk_other ?_
  exact h6
  dsimp -zeta only [x4]
  refine State.putSlot_keeps (hq := ?_) ..
  exact hq
  dsimp -zeta only [x3]
  refine State.putSlot_keeps (hq := ?_) ..
  exact hq

theorem State.mbxAck_keeps {qq : List Instr} {mm : Option Memory} {cc : Option Chip} (s : State) (v : Nat) (hq : Keeps ⟨qq, mm, cc⟩ s) :
    Keeps ⟨qq, mm, cc⟩ (State.mbxAck s v) := by
  unfold State.mbxAck
  extract_lets x1 x2 x3 x4
  have h5 : Keeps ⟨qq, mm, cc⟩ x3 := ?_
  refine Keeps.ite (fun _ => ?_) (fun _ => ?_)
  exact h5
  refine Keeps.ite (fun _ => ?_) (fun _ => ?_)
  refine State.putSlot_keeps (hq := ?_) ..
  exact h5
  refine State.logEvLimited_keeps (hq := ?_) ..
  refine State.bump_keeps (hq := ?_) ..
  refine State.raise_keeps (hq := ?_) ..
  exact h5
  dsimp -zeta only [x3]
  refine Keeps.mk_other ?_
  exact hq

theorem execMailboxFillTimeout_keeps {qq : List Instr} {mm : Option Memory} {cc : Option Chip} (k : Fin 4096) (s : State) (hq : Keeps ⟨qq, mm, cc⟩ s) :
    KeepsO ⟨qq, mm, cc⟩ (execMailboxFillTimeout k s) := by
  unfold execMailboxFillTimeout
  extract_lets x1 x2
  have h3 : Keeps ⟨qq, mm, cc⟩ x2 := ?_
  refine KeepsO.ite (fun _ => ?_) (fun _ => ?_)
  refine KeepsO.next ?_
  refine State.logEvLimited_keeps (hq := ?_) ..
  exact h3
  refine KeepsO.next ?_
  exact hq
  dsimp -zeta only [x2]
  refine State.bump_keeps (hq := ?_) ..
  refine State.raise_keeps (hq := ?_) ..
  refine State.slotAbort_keeps (hq := ?_) ..
  exact hq

theorem execSlotRead_keeps {qq : List Instr} {mm : Option Memory} {cc : Option Chip} (x : Accessor) (k : Fin 4096) (s : State) (hq : Keeps ⟨qq, mm, cc⟩ s) :
    KeepsO ⟨qq, mm, cc⟩ (execSlotRead x k s) := by
  unfold execSlotRead
  refine KeepsO.next ?_
  refine State.slotRead_keeps (hq := ?_) ..
  exact hq

theorem execMbxAck_keeps {qq : List Instr} {mm : Option Memory} {cc : Option Chip} (x : Accessor) (v : Word) (s : State) (hq : Keeps ⟨qq, mm, cc⟩ s) :
    KeepsO ⟨qq, mm, cc⟩ (execMbxAck x v s) := by
  unfold execMbxAck
  refine KeepsO.next ?_
  refine State.mbxAck_keeps (hq := ?_) ..
  exact hq

theorem execCrcClr_keeps {qq : List Instr} {mm : Option Memory} {cc : Option Chip} (x : Accessor) (k : Fin 16) (v : Word) (s : State) (hq : Keeps ⟨qq, mm, cc⟩ s) :
    KeepsO ⟨qq, mm, cc⟩ (execCrcClr x k v s) := by
  unfold execCrcClr
  refine KeepsO.next ?_
  refine State.crcClear_keeps (hq := ?_) ..
  exact hq

theorem execCrcResLoRead_keeps {qq : List Instr} {mm : Option Memory} {cc : Option Chip} (x : Accessor) (k : Fin 16) (s : State) (hq : Keeps ⟨qq, mm, cc⟩ s) :
    KeepsO ⟨qq, mm, cc⟩ (execCrcResLoRead x k s) := by
  unfold execCrcResLoRead
  refine KeepsO.next ?_
  refine State.crcReadLo_keeps (hq := ?_) ..
  exact hq

end

end Sys2Proof.Machine
end

