-- ==== Sys2Proof/Laws/KeepsChip.lean ====
section
/-! SUPPORT. Keeps (Laws/Keeps) for lanes, self-test, fences, SAFE, power:
one lemma per function, each from those of the functions it calls. -/

namespace Sys2Proof.Machine

section

set_option simprocs false

theorem State.modLane_keeps {qq : List Instr} {mm : Option Memory} {cc : Option Chip} (s : State) (k : Nat) (f : Lane → Lane) (hq : Keeps ⟨qq, mm, cc⟩ s) :
    Keeps ⟨qq, mm, cc⟩ (State.modLane s k f) := by
  unfold State.modLane
  refine Keeps.mk_other ?_
  exact hq

theorem State.modLanes_keeps {qq : List Instr} {mm : Option Memory} {cc : Option Chip} (s : State) (f : Lanes → Lanes) (hq : Keeps ⟨qq, mm, cc⟩ s) :
    Keeps ⟨qq, mm, cc⟩ (State.modLanes s f) := by
  unfold State.modLanes
  refine Keeps.mk_other ?_
  exact hq

theorem State.logLane_keeps {qq : List Instr} {mm : Option Memory} {cc : Option Chip} (s : State) (k : Nat) (high : Bool) (hq : Keeps ⟨qq, mm, cc⟩ s) :
    Keeps ⟨qq, mm, cc⟩ (State.logLane s k high) := by
  unfold State.logLane
  extract_lets x1
  refine State.logEvLimited_keeps (hq := ?_) ..
  exact hq

theorem State.laneLeaves_keeps {qq : List Instr} {mm : Option Memory} {cc : Option Chip} (s : State) (k : Nat) (hq : Keeps ⟨qq, mm, cc⟩ s) :
    Keeps ⟨qq, mm, cc⟩ (State.laneLeaves s k) := by
  unfold State.laneLeaves
  extract_lets x1 x2 x3
  have h4 : Keeps ⟨qq, mm, cc⟩ x3 := ?_
  refine State.modLane_keeps (hq := ?_) ..
  exact h4
  dsimp -zeta only [x3]
  have h5 : Keeps ⟨qq, mm, cc⟩ x2 := ?_
  refine Keeps.ite (fun _ => ?_) (fun _ => ?_)
  refine State.raise_keeps (hq := ?_) ..
  refine State.raise_keeps (hq := ?_) ..
  exact h5
  exact h5
  dsimp -zeta only [x2]
  refine Keeps.ite (fun _ => ?_) (fun _ => ?_)
  exact hq
  refine State.bump_keeps (hq := ?_) ..
  exact hq

theorem State.laneTo_keeps {qq : List Instr} {mm : Option Memory} {cc : Option Chip} (s : State) (k : Nat) (st : Nat) (high : Bool) (hq : Keeps ⟨qq, mm, cc⟩ s) :
    Keeps ⟨qq, mm, cc⟩ (State.laneTo s k st high) := by
  unfold State.laneTo
  extract_lets x1 x2 x3
  have h4 : Keeps ⟨qq, mm, cc⟩ x3 := ?_
  refine Keeps.ite (fun _ => ?_) (fun _ => ?_)
  exact hq
  refine Keeps.ite (fun _ => ?_) (fun _ => ?_)
  refine State.logLane_keeps (hq := ?_) ..
  exact h4
  exact h4
  dsimp -zeta only [x3]
  have h5 : Keeps ⟨qq, mm, cc⟩ x2 := ?_
  refine State.modLane_keeps (hq := ?_) ..
  exact h5
  dsimp -zeta only [x2]
  refine Keeps.ite (fun _ => ?_) (fun _ => ?_)
  refine State.laneLeaves_keeps (hq := ?_) ..
  exact hq
  exact hq

theorem State.startLanes_keeps {qq : List Instr} {mm : Option Memory} {cc : Option Chip} (s : State) (hq : Keeps ⟨qq, mm, cc⟩ s) :
    Keeps ⟨qq, mm, cc⟩ (State.startLanes s) := by
  unfold State.startLanes
  refine Keeps.foldl (fun t1 y2 h3 => ?_) ?_
  refine Keeps.ite (fun _ => ?_) (fun _ => ?_)
  exact h3
  refine Keeps.ite (fun _ => ?_) (fun _ => ?_)
  refine State.laneTo_keeps (hq := ?_) ..
  exact h3
  refine State.laneTo_keeps (hq := ?_) ..
  exact h3
  exact hq

theorem State.askSlice_keeps {qq : List Instr} {mm : Option Memory} {cc : Option Chip} (s : State) (k : Nat) (reason : Nat) (hq : Keeps ⟨qq, mm, cc⟩ s) :
    Keeps ⟨qq, mm, cc⟩ (State.askSlice s k reason) := by
  unfold State.askSlice
  refine Keeps.ite (fun _ => ?_) (fun _ => ?_)
  exact hq
  refine State.modLanes_keeps (hq := ?_) ..
  exact hq

theorem State.sliceFails_keeps {qq : List Instr} {mm : Option Memory} {cc : Option Chip} (s : State) (k : Nat) (hq : Keeps ⟨qq, mm, cc⟩ s) :
    Keeps ⟨qq, mm, cc⟩ (State.sliceFails s k) := by
  unfold State.sliceFails
  extract_lets x1 x2
  have h3 : Keeps ⟨qq, mm, cc⟩ x2 := ?_
  refine Keeps.ite (fun _ => ?_) (fun _ => ?_)
  exact hq
  refine Keeps.ite (fun _ => ?_) (fun _ => ?_)
  refine State.degrade_keeps (hq := ?_) ..
  refine State.logEv_keeps (hq := ?_) ..
  exact h3
  refine State.askSlice_keeps (hq := ?_) ..
  exact hq
  dsimp -zeta only [x2]
  refine State.modLane_keeps (hq := ?_) ..
  refine State.laneTo_keeps (hq := ?_) ..
  exact hq

theorem State.substitute_keeps {qq : List Instr} {mm : Option Memory} {cc : Option Chip} (s : State) (k : Nat) (toSpare : Bool) (reason : Nat) (hq : Keeps ⟨qq, mm, cc⟩ s) :
    Keeps ⟨qq, mm, cc⟩ (State.substitute s k toSpare reason) := by
  unfold State.substitute
  extract_lets x1 x2 x3 x4 x5 x6 x7
  have h8 : Keeps ⟨qq, mm, cc⟩ x7 := ?_
  refine State.logEv_keeps (hq := ?_) ..
  exact h8
  dsimp -zeta only [x7]
  have h9 : Keeps ⟨qq, mm, cc⟩ x5 := ?_
  refine State.plcRec_keeps (hq := ?_) ..
  refine State.plcChange_keeps (hq := ?_) ..
  exact h9
  dsimp -zeta only [x5]
  have h10 : Keeps ⟨qq, mm, cc⟩ x4 := ?_
  refine State.modLane_keeps (hq := ?_) ..
  exact h10
  dsimp -zeta only [x4]
  refine State.laneTo_keeps (hq := ?_) ..
  exact hq

theorem State.takeSlice_keeps {qq : List Instr} {mm : Option Memory} {cc : Option Chip} (s : State) (k : Nat) (reason : Nat) (hq : Keeps ⟨qq, mm, cc⟩ s) :
    Keeps ⟨qq, mm, cc⟩ (State.takeSlice s k reason) := by
  unfold State.takeSlice
  extract_lets x1 x2 x3 x4 x5 x6 x7
  have h8 : Keeps ⟨qq, mm, cc⟩ x2 := ?_
  have h9 : Keeps ⟨qq, mm, cc⟩ x7 := ?_
  split
  refine Keeps.ite (fun _ => ?_) (fun _ => ?_)
  refine State.sliceFails_keeps (hq := ?_) ..
  exact h8
  refine State.journal_keeps (hq := ?_) ..
  dsimp -zeta only [x5]
  refine State.wr_keeps (hq := ?_) ..
  refine State.wr_keeps (hq := ?_) ..
  exact h9
  refine Keeps.ite (fun _ => ?_) (fun _ => ?_)
  dsimp -zeta only [x5]
  refine State.wr_keeps (hq := ?_) ..
  refine State.wr_keeps (hq := ?_) ..
  refine State.substitute_keeps (hq := ?_) ..
  exact h8
  exact h8
  refine Keeps.ite (fun _ => ?_) (fun _ => ?_)
  refine State.wr_keeps (hq := ?_) ..
  refine State.substitute_keeps (hq := ?_) ..
  exact h8
  exact h8
  dsimp -zeta only [x7]
  have h10 : Keeps ⟨qq, mm, cc⟩ x6 := ?_
  refine Keeps.ite (fun _ => ?_) (fun _ => ?_)
  exact h10
  refine State.substitute_keeps (hq := ?_) ..
  exact h10
  dsimp -zeta only [x6]
  refine Keeps.ite (fun _ => ?_) (fun _ => ?_)
  refine State.substitute_keeps (hq := ?_) ..
  exact h8
  exact h8
  dsimp -zeta only [x2]
  refine State.modLanes_keeps (hq := ?_) ..
  exact hq

theorem State.laneClose_keeps {qq : List Instr} {mm : Option Memory} {cc : Option Chip} (s : State) (k : Nat) (hq : Keeps ⟨qq, mm, cc⟩ s) :
    Keeps ⟨qq, mm, cc⟩ (State.laneClose s k) := by
  unfold State.laneClose
  extract_lets x1 x2 x3 x4 x5
  have h6 : Keeps ⟨qq, mm, cc⟩ x5 := ?_
  refine Keeps.ite (fun _ => ?_) (fun _ => ?_)
  exact hq
  split
  refine State.dropArrives_keeps (hq := ?_) ..
  exact h6
  refine State.inject_keeps (hq := ?_) ..
  exact h6
  dsimp -zeta only [x5]
  refine State.modLane_keeps (hq := ?_) ..
  exact hq

theorem State.laneFill_keeps {qq : List Instr} {mm : Option Memory} {cc : Option Chip} (s : State) (k : Nat) (w : Line) (hq : Keeps ⟨qq, mm, cc⟩ s) :
    Keeps ⟨qq, mm, cc⟩ (State.laneFill s k w) := by
  unfold State.laneFill
  refine Keeps.ite (fun _ => ?_) (fun _ => ?_)
  exact hq
  refine Keeps.ite (fun _ => ?_) (fun _ => ?_)
  refine State.bump_keeps (hq := ?_) ..
  exact hq
  extract_lets x1 x2 x3 x4
  have h5 : Keeps ⟨qq, mm, cc⟩ x3 := ?_
  refine Keeps.ite (fun _ => ?_) (fun _ => ?_)
  refine State.laneClose_keeps (hq := ?_) ..
  exact h5
  exact h5
  dsimp -zeta only [x3]
  refine State.modLane_keeps (hq := ?_) ..
  exact hq

theorem State.laneArrive_keeps {qq : List Instr} {mm : Option Memory} {cc : Option Chip} (s : State) (k : Nat) (w : Line) (filler : Bool) (bad : Bool) (hq : Keeps ⟨qq, mm, cc⟩ s) :
    Keeps ⟨qq, mm, cc⟩ (State.laneArrive s k w filler bad) := by
  unfold State.laneArrive
  extract_lets x1 x2 x3 x4 x5 x6 x7
  have h8 : Keeps ⟨qq, mm, cc⟩ x2 := ?_
  have h9 : Keeps ⟨qq, mm, cc⟩ x7 := ?_
  refine Keeps.ite (fun _ => ?_) (fun _ => ?_)
  exact h8
  refine Keeps.ite (fun _ => ?_) (fun _ => ?_)
  refine State.count_keeps (hq := ?_) ..
  dsimp -zeta only [x6]
  refine State.modLane_keeps (hq := ?_) ..
  exact h8
  refine Keeps.ite (fun _ => ?_) (fun _ => ?_)
  refine State.count_keeps (hq := ?_) ..
  exact h8
  refine Keeps.ite (fun _ => ?_) (fun _ => ?_)
  refine Keeps.ite (fun _ => ?_) (fun _ => ?_)
  refine State.modLane_keeps (hq := ?_) ..
  exact h9
  exact h9
  dsimp -zeta only [x6]
  refine State.modLane_keeps (hq := ?_) ..
  exact h8
  dsimp -zeta only [x7]
  refine State.bump_keeps (hq := ?_) ..
  exact h8
  dsimp -zeta only [x2]
  refine Keeps.ite (fun _ => ?_) (fun _ => ?_)
  refine State.bump_keeps (hq := ?_) ..
  exact hq
  exact hq

theorem State.laneClock_keeps {qq : List Instr} {mm : Option Memory} {cc : Option Chip} (s : State) (k : Nat) (hq : Keeps ⟨qq, mm, cc⟩ s) :
    Keeps ⟨qq, mm, cc⟩ (State.laneClock s k) := by
  unfold State.laneClock
  extract_lets x1 x2
  have h3 : Keeps ⟨qq, mm, cc⟩ x2 := ?_
  refine Keeps.ite (fun _ => ?_) (fun _ => ?_)
  exact hq
  split
  refine Keeps.ite (fun _ => ?_) (fun _ => ?_)
  refine State.laneFill_keeps (hq := ?_) ..
  exact h3
  exact h3
  refine State.laneFill_keeps (hq := ?_) ..
  refine State.modLane_keeps (hq := ?_) ..
  exact hq
  dsimp -zeta only [x2]
  refine State.bump_keeps (hq := ?_) ..
  exact hq

theorem State.laneTake_keeps {qq : List Instr} {mm : Option Memory} {cc : Option Chip} (s : State) (k : Nat) (p : Packet) (hq : Keeps ⟨qq, mm, cc⟩ s) :
    Keeps ⟨qq, mm, cc⟩ (State.laneTake s k p) := by
  unfold State.laneTake
  extract_lets x1
  refine State.modLane_keeps (hq := ?_) ..
  exact hq

theorem State.laneFiller_keeps {qq : List Instr} {mm : Option Memory} {cc : Option Chip} (s : State) (k : Nat) (hq : Keeps ⟨qq, mm, cc⟩ s) :
    Keeps ⟨qq, mm, cc⟩ (State.laneFiller s k) := by
  unfold State.laneFiller
  refine State.modLane_keeps (hq := ?_) ..
  exact hq

theorem State.laneSend_keeps {qq : List Instr} {mm : Option Memory} {cc : Option Chip} (s : State) (k : Nat) (hq : Keeps ⟨qq, mm, cc⟩ s) :
    Keeps ⟨qq, mm, cc⟩ (State.laneSend s k) := by
  unfold State.laneSend
  extract_lets x1 x2 x3
  refine Keeps.ite (fun _ => ?_) (fun _ => ?_)
  refine State.laneFiller_keeps (hq := ?_) ..
  exact hq
  split
  refine Keeps.ite (fun _ => ?_) (fun _ => ?_)
  refine State.modLane_keeps (hq := ?_) ..
  refine State.bump_keeps (hq := ?_) ..
  exact hq
  refine State.laneFiller_keeps (hq := ?_) ..
  exact hq
  extract_lets x4 x5
  have h6 : Keeps ⟨qq, mm, cc⟩ x4 := ?_
  refine State.modLane_keeps (hq := ?_) ..
  exact h6
  dsimp -zeta only [x4]
  refine Keeps.ite (fun _ => ?_) (fun _ => ?_)
  refine State.bump_keeps (hq := ?_) ..
  exact hq
  exact hq

theorem execQpllLock_keeps {qq : List Instr} {mm : Option Memory} {cc : Option Chip} (q : Fin 12) (lock : Bool) (ok : Bool) (s : State) (hq : Keeps ⟨qq, mm, cc⟩ s) :
    KeepsO ⟨qq, mm, cc⟩ (execQpllLock q lock ok s) := by
  unfold execQpllLock
  extract_lets x1 x2 x3 x4 x5 x6
  have h7 : Keeps ⟨qq, mm, cc⟩ x2 := ?_
  have h8 : Keeps ⟨qq, mm, cc⟩ x5 := ?_
  have h9 : Keeps ⟨qq, mm, cc⟩ x6 := ?_
  refine KeepsO.ite (fun _ => ?_) (fun _ => ?_)
  refine KeepsO.next ?_
  exact h7
  refine KeepsO.ite (fun _ => ?_) (fun _ => ?_)
  refine KeepsO.next ?_
  refine Keeps.foldl (fun t10 y11 h12 => ?_) ?_
  refine Keeps.ite (fun _ => ?_) (fun _ => ?_)
  refine State.laneTo_keeps (hq := ?_) ..
  exact h12
  exact h12
  exact h8
  refine KeepsO.next ?_
  refine Keeps.foldl (fun t13 y14 h15 => ?_) ?_
  refine Keeps.ite (fun _ => ?_) (fun _ => ?_)
  exact h15
  refine State.laneTo_keeps (hq := ?_) ..
  exact h15
  exact h9
  dsimp -zeta only [x6]
  have h16 : Keeps ⟨qq, mm, cc⟩ x3 := ?_
  refine State.logEv_keeps (hq := ?_) ..
  refine State.modLanes_keeps (hq := ?_) ..
  exact h16
  dsimp -zeta only [x3]
  refine State.wr_keeps (hq := ?_) ..
  exact h7
  dsimp -zeta only [x5]
  have h17 : Keeps ⟨qq, mm, cc⟩ x3 := ?_
  refine Keeps.ite (fun _ => ?_) (fun _ => ?_)
  refine State.logEv_keeps (hq := ?_) ..
  refine State.modLanes_keeps (hq := ?_) ..
  exact h17
  exact h17
  dsimp -zeta only [x3]
  refine State.wr_keeps (hq := ?_) ..
  exact h7
  dsimp -zeta only [x2]
  refine State.wr_keeps (hq := ?_) ..
  exact hq

theorem execQpllRetry_keeps {qq : List Instr} {mm : Option Memory} {cc : Option Chip} (q : Fin 12) (s : State) (hq : Keeps ⟨qq, mm, cc⟩ s) :
    KeepsO ⟨qq, mm, cc⟩ (execQpllRetry q s) := by
  unfold execQpllRetry
  refine KeepsO.next ?_
  refine Keeps.ite (fun _ => ?_) (fun _ => ?_)
  exact hq
  refine State.modLanes_keeps (hq := ?_) ..
  exact hq

theorem execLaneLock_keeps {qq : List Instr} {mm : Option Memory} {cc : Option Chip} (q : Fin 12) (l : Fin 4) (s : State) (hq : Keeps ⟨qq, mm, cc⟩ s) :
    KeepsO ⟨qq, mm, cc⟩ (execLaneLock q l s) := by
  unfold execLaneLock
  extract_lets x1 x2
  refine KeepsO.ite (fun _ => ?_) (fun _ => ?_)
  refine KeepsO.next ?_
  refine State.laneTo_keeps (hq := ?_) ..
  refine State.modLane_keeps (hq := ?_) ..
  exact hq
  refine KeepsO.next ?_
  exact hq

theorem execLaneLoss_keeps {qq : List Instr} {mm : Option Memory} {cc : Option Chip} (q : Fin 12) (l : Fin 4) (high : Bool) (sig : Bool) (s : State) (hq : Keeps ⟨qq, mm, cc⟩ s) :
    KeepsO ⟨qq, mm, cc⟩ (execLaneLoss q l high sig s) := by
  unfold execLaneLoss
  extract_lets x1 x2 x3 x4 x5 x6
  have h7 : Keeps ⟨qq, mm, cc⟩ x4 := ?_
  have h8 : Keeps ⟨qq, mm, cc⟩ x6 := ?_
  refine KeepsO.ite (fun _ => ?_) (fun _ => ?_)
  refine KeepsO.next ?_
  exact hq
  refine KeepsO.ite (fun _ => ?_) (fun _ => ?_)
  refine KeepsO.next ?_
  exact h7
  refine KeepsO.ite (fun _ => ?_) (fun _ => ?_)
  refine KeepsO.next ?_
  refine State.sliceFails_keeps (hq := ?_) ..
  refine State.modLane_keeps (hq := ?_) ..
  exact h8
  refine KeepsO.next ?_
  exact h8
  dsimp -zeta only [x6]
  refine State.modLane_keeps (hq := ?_) ..
  exact h7
  dsimp -zeta only [x4]
  have h9 : Keeps ⟨qq, mm, cc⟩ x3 := ?_
  refine State.laneTo_keeps (hq := ?_) ..
  exact h9
  dsimp -zeta only [x3]
  have h10 : Keeps ⟨qq, mm, cc⟩ x2 := ?_
  refine Keeps.ite (fun _ => ?_) (fun _ => ?_)
  refine State.bump_keeps (hq := ?_) ..
  exact h10
  refine State.bump_keeps (hq := ?_) ..
  exact h10
  dsimp -zeta only [x2]
  refine State.modLane_keeps (hq := ?_) ..
  exact hq

theorem execLaneAcquireTimeout_keeps {qq : List Instr} {mm : Option Memory} {cc : Option Chip} (q : Fin 12) (l : Fin 4) (s : State) (hq : Keeps ⟨qq, mm, cc⟩ s) :
    KeepsO ⟨qq, mm, cc⟩ (execLaneAcquireTimeout q l s) := by
  unfold execLaneAcquireTimeout
  refine KeepsO.next ?_
  refine Keeps.ite (fun _ => ?_) (fun _ => ?_)
  refine State.laneTo_keeps (hq := ?_) ..
  exact hq
  exact hq

theorem execLaneRetry_keeps {qq : List Instr} {mm : Option Memory} {cc : Option Chip} (q : Fin 12) (l : Fin 4) (s : State) (hq : Keeps ⟨qq, mm, cc⟩ s) :
    KeepsO ⟨qq, mm, cc⟩ (execLaneRetry q l s) := by
  unfold execLaneRetry
  extract_lets x1
  refine KeepsO.next ?_
  refine Keeps.ite (fun _ => ?_) (fun _ => ?_)
  refine State.laneTo_keeps (hq := ?_) ..
  exact hq
  exact hq

theorem execLaneRxWord_keeps {qq : List Instr} {mm : Option Memory} {cc : Option Chip} (q : Fin 12) (l : Fin 4) (e : LaneRx) (s : State) (hq : Keeps ⟨qq, mm, cc⟩ s) :
    KeepsO ⟨qq, mm, cc⟩ (execLaneRxWord q l e s) := by
  unfold execLaneRxWord
  extract_lets x1
  refine KeepsO.ite (fun _ => ?_) (fun _ => ?_)
  refine KeepsO.next ?_
  exact hq
  split
  refine KeepsO.next ?_
  refine State.laneArrive_keeps (hq := ?_) ..
  exact hq
  refine KeepsO.next ?_
  refine State.laneClock_keeps (hq := ?_) ..
  exact hq

theorem execLanePacketHold_keeps {qq : List Instr} {mm : Option Memory} {cc : Option Chip} (q : Fin 12) (l : Fin 4) (s : State) (hq : Keeps ⟨qq, mm, cc⟩ s) :
    KeepsO ⟨qq, mm, cc⟩ (execLanePacketHold q l s) := by
  unfold execLanePacketHold
  refine KeepsO.next ?_
  refine State.laneClose_keeps (hq := ?_) ..
  exact hq

theorem execForcedFiller_keeps {qq : List Instr} {mm : Option Memory} {cc : Option Chip} (q : Fin 12) (l : Fin 4) (s : State) (hq : Keeps ⟨qq, mm, cc⟩ s) :
    KeepsO ⟨qq, mm, cc⟩ (execForcedFiller q l s) := by
  unfold execForcedFiller
  extract_lets x1 x2
  refine KeepsO.next ?_
  refine Keeps.ite (fun _ => ?_) (fun _ => ?_)
  refine State.laneFiller_keeps (hq := ?_) ..
  exact hq
  exact hq

theorem execLaneTxBlock_keeps {qq : List Instr} {mm : Option Memory} {cc : Option Chip} (q : Fin 12) (l : Fin 4) (s : State) (hq : Keeps ⟨qq, mm, cc⟩ s) :
    KeepsO ⟨qq, mm, cc⟩ (execLaneTxBlock q l s) := by
  unfold execLaneTxBlock
  extract_lets x1 x2
  refine KeepsO.ite (fun _ => ?_) (fun _ => ?_)
  refine KeepsO.next ?_
  exact hq
  refine KeepsO.ite (fun _ => ?_) (fun _ => ?_)
  refine KeepsO.next ?_
  refine State.laneSend_keeps (hq := ?_) ..
  exact hq
  refine KeepsO.next ?_
  refine State.laneFiller_keeps (hq := ?_) ..
  exact hq

theorem execCtleStep_keeps {qq : List Instr} {mm : Option Memory} {cc : Option Chip} (q : Fin 12) (l : Fin 4) (up : Bool) (down : Bool) (s : State) (hq : Keeps ⟨qq, mm, cc⟩ s) :
    KeepsO ⟨qq, mm, cc⟩ (execCtleStep q l up down s) := by
  unfold execCtleStep
  extract_lets x1 x2 x3 x4 x5
  refine KeepsO.ite (fun _ => ?_) (fun _ => ?_)
  refine KeepsO.next ?_
  exact hq
  refine KeepsO.next ?_
  refine State.modLane_keeps (hq := ?_) ..
  exact hq

theorem State.writeEscan_keeps {qq : List Instr} {mm : Option Memory} {cc : Option Chip} (s : State) (k : Nat) (v : Nat) (hq : Keeps ⟨qq, mm, cc⟩ s) :
    Keeps ⟨qq, mm, cc⟩ (State.writeEscan s k v) := by
  unfold State.writeEscan
  extract_lets x1 x2 x3
  have h4 : Keeps ⟨qq, mm, cc⟩ x1 := ?_
  have h5 : Keeps ⟨qq, mm, cc⟩ x2 := ?_
  have h6 : Keeps ⟨qq, mm, cc⟩ x3 := ?_
  refine Keeps.ite (fun _ => ?_) (fun _ => ?_)
  refine State.raise_keeps (hq := ?_) ..
  exact h4
  refine Keeps.ite (fun _ => ?_) (fun _ => ?_)
  refine State.modLane_keeps (hq := ?_) ..
  refine State.wr_keeps (hq := ?_) ..
  exact h6
  exact h5
  dsimp -zeta only [x3]
  refine State.wr_keeps (hq := ?_) ..
  refine State.wr_keeps (hq := ?_) ..
  refine State.wr_keeps (hq := ?_) ..
  exact h5
  dsimp -zeta only [x2]
  refine State.wr_keeps (hq := ?_) ..
  refine State.wr_keeps (hq := ?_) ..
  refine State.wr_keeps (hq := ?_) ..
  exact h4
  dsimp -zeta only [x1]
  refine Keeps.mk_other ?_
  exact hq

theorem execEscanStart_keeps {qq : List Instr} {mm : Option Memory} {cc : Option Chip} (x : Accessor) (q : Fin 12) (l : Fin 4) (v : Word) (s : State) (hq : Keeps ⟨qq, mm, cc⟩ s) :
    KeepsO ⟨qq, mm, cc⟩ (execEscanStart x q l v s) := by
  unfold execEscanStart
  refine KeepsO.next ?_
  refine State.writeEscan_keeps (hq := ?_) ..
  exact hq

theorem execEscanDone_keeps {qq : List Instr} {mm : Option Memory} {cc : Option Chip} (q : Fin 12) (l : Fin 4) (errors : Word) (s : State) (hq : Keeps ⟨qq, mm, cc⟩ s) :
    KeepsO ⟨qq, mm, cc⟩ (execEscanDone q l errors s) := by
  unfold execEscanDone
  extract_lets x1
  refine KeepsO.ite (fun _ => ?_) (fun _ => ?_)
  refine KeepsO.next ?_
  refine State.modLane_keeps (hq := ?_) ..
  refine State.raise_keeps (hq := ?_) ..
  refine State.wr_keeps (hq := ?_) ..
  exact hq
  refine KeepsO.next ?_
  exact hq

theorem State.writeQsub_keeps {qq : List Instr} {mm : Option Memory} {cc : Option Chip} (s : State) (q : Nat) (v : Nat) (hq : Keeps ⟨qq, mm, cc⟩ s) :
    Keeps ⟨qq, mm, cc⟩ (State.writeQsub s q v) := by
  unfold State.writeQsub
  extract_lets x1
  have h2 : Keeps ⟨qq, mm, cc⟩ x1 := ?_
  refine Keeps.ite (fun _ => ?_) (fun _ => ?_)
  refine State.sliceFails_keeps (hq := ?_) ..
  exact h2
  exact h2
  dsimp -zeta only [x1]
  refine Keeps.mk_other ?_
  exact hq

theorem execLneQsub_keeps {qq : List Instr} {mm : Option Memory} {cc : Option Chip} (x : Accessor) (q : Fin 12) (v : Word) (s : State) (hq : Keeps ⟨qq, mm, cc⟩ s) :
    KeepsO ⟨qq, mm, cc⟩ (execLneQsub x q v s) := by
  unfold execLneQsub
  refine KeepsO.next ?_
  refine State.writeQsub_keeps (hq := ?_) ..
  exact hq

theorem execSliceSwitchDone_keeps {qq : List Instr} {mm : Option Memory} {cc : Option Chip} (q : Fin 12) (l : Fin 4) (s : State) (hq : Keeps ⟨qq, mm, cc⟩ s) :
    KeepsO ⟨qq, mm, cc⟩ (execSliceSwitchDone q l s) := by
  unfold execSliceSwitchDone
  extract_lets x1 x2
  split
  refine KeepsO.next ?_
  exact hq
  refine KeepsO.ite (fun _ => ?_) (fun _ => ?_)
  refine KeepsO.next ?_
  refine State.laneTo_keeps (hq := ?_) ..
  refine State.modLane_keeps (hq := ?_) ..
  exact hq
  refine KeepsO.next ?_
  exact hq

theorem State.modScr_keeps {qq : List Instr} {mm : Option Memory} {cc : Option Chip} (s : State) (f : Scrub → Scrub) (hq : Keeps ⟨qq, mm, cc⟩ s) :
    Keeps ⟨qq, mm, cc⟩ (State.modScr s f) := by
  unfold State.modScr
  refine Keeps.mk_other ?_
  exact hq

theorem State.modScrRgn_keeps {qq : List Instr} {mm : Option Memory} {cc : Option Chip} (s : State) (n : Nat) (f : ScrubRgn → ScrubRgn) (hq : Keeps ⟨qq, mm, cc⟩ s) :
    Keeps ⟨qq, mm, cc⟩ (State.modScrRgn s n f) := by
  unfold State.modScrRgn
  refine State.modScr_keeps (hq := ?_) ..
  exact hq

theorem State.modBist_keeps {qq : List Instr} {mm : Option Memory} {cc : Option Chip} (s : State) (f : Bist → Bist) (hq : Keeps ⟨qq, mm, cc⟩ s) :
    Keeps ⟨qq, mm, cc⟩ (State.modBist s f) := by
  unfold State.modBist
  refine Keeps.mk_other ?_
  exact hq

theorem State.columnForGood_keeps {qq : List Instr} {mm : Option Memory} {cc : Option Chip} (s : State) (n : Nat) (m : Nat) (hq : Keeps ⟨qq, mm, cc⟩ s) :
    Keeps ⟨qq, mm, cc⟩ (State.columnForGood s n m) := by
  unfold State.columnForGood
  extract_lets x1 x2
  have h3 : Keeps ⟨qq, mm, cc⟩ x2 := ?_
  refine State.journal_keeps (hq := ?_) ..
  refine State.logEv_keeps (hq := ?_) ..
  exact h3
  dsimp -zeta only [x2]
  have h4 : Keeps ⟨qq, mm, cc⟩ x1 := ?_
  refine State.modScrRgn_keeps (hq := ?_) ..
  exact h4
  dsimp -zeta only [x1]
  refine State.wr_keeps (hq := ?_) ..
  refine State.wr_keeps (hq := ?_) ..
  refine State.wr_keeps (hq := ?_) ..
  exact hq

theorem State.bstRecord_keeps {qq : List Instr} {mm : Option Memory} {cc : Option Chip} (s : State) (unit : Nat) (outcome : Nat) (test : Nat) (step : Nat) (detail : Nat) (hq : Keeps ⟨qq, mm, cc⟩ s) :
    Keeps ⟨qq, mm, cc⟩ (State.bstRecord s unit outcome test step detail) := by
  unfold State.bstRecord
  extract_lets x1 x2 x3 x4
  have h5 : Keeps ⟨qq, mm, cc⟩ x4 := ?_
  refine State.wr_keeps (hq := ?_) ..
  exact h5
  dsimp -zeta only [x4]
  have h6 : Keeps ⟨qq, mm, cc⟩ x3 := ?_
  refine State.modBist_keeps (hq := ?_) ..
  exact h6
  dsimp -zeta only [x3]
  refine Keeps.ite (fun _ => ?_) (fun _ => ?_)
  refine State.bump_keeps (hq := ?_) ..
  exact hq
  exact hq

theorem State.scrTest_keeps {qq : List Instr} {mm : Option Memory} {cc : Option Chip} (s : State) (unit : Nat) (what : Nat) (hq : Keeps ⟨qq, mm, cc⟩ s) :
    Keeps ⟨qq, mm, cc⟩ (State.scrTest s unit what) := by
  unfold State.scrTest
  refine State.logEv_keeps (hq := ?_) ..
  exact hq

theorem State.endRunOf_keeps {qq : List Instr} {mm : Option Memory} {cc : Option Chip} (s : State) (unit : Nat) (code : Nat) (hq : Keeps ⟨qq, mm, cc⟩ s) :
    Keeps ⟨qq, mm, cc⟩ (State.endRunOf s unit code) := by
  unfold State.endRunOf
  refine State.modBist_keeps (hq := ?_) ..
  exact hq

theorem State.columnBack_keeps {qq : List Instr} {mm : Option Memory} {cc : Option Chip} (s : State) (n : Nat) (hq : Keeps ⟨qq, mm, cc⟩ s) :
    Keeps ⟨qq, mm, cc⟩ (State.columnBack s n) := by
  unfold State.columnBack
  extract_lets x1 x2 x3
  have h4 : Keeps ⟨qq, mm, cc⟩ x3 := ?_
  refine Keeps.ite (fun _ => ?_) (fun _ => ?_)
  refine State.logEv_keeps (hq := ?_) ..
  exact h4
  exact h4
  dsimp -zeta only [x3]
  refine State.wr_keeps (hq := ?_) ..
  refine State.wr_keeps (hq := ?_) ..
  exact hq

theorem State.unitReturns_keeps {qq : List Instr} {mm : Option Memory} {cc : Option Chip} (s : State) (unit : Nat) (hq : Keeps ⟨qq, mm, cc⟩ s) :
    Keeps ⟨qq, mm, cc⟩ (State.unitReturns s unit) := by
  unfold State.unitReturns
  extract_lets x1 x2 x3 x4 x5 x6 x7
  have h8 : Keeps ⟨qq, mm, cc⟩ x3 := ?_
  have h9 : Keeps ⟨qq, mm, cc⟩ x7 := ?_
  split
  refine Keeps.ite (fun _ => ?_) (fun _ => ?_)
  refine State.columnBack_keeps (hq := ?_) ..
  exact hq
  exact hq
  refine Keeps.ite (fun _ => ?_) (fun _ => ?_)
  refine State.modEngAt_keeps (hq := ?_) ..
  exact h8
  refine Keeps.ite (fun _ => ?_) (fun _ => ?_)
  refine State.modPlc_keeps (hq := ?_) ..
  exact h8
  exact h8
  refine Keeps.ite (fun _ => ?_) (fun _ => ?_)
  refine State.nextBankCopy_keeps (hq := ?_) ..
  refine State.modMem_keeps (hq := ?_) ..
  refine State.wr_keeps (hq := ?_) ..
  exact hq
  refine Keeps.ite (fun _ => ?_) (fun _ => ?_)
  exact hq
  split
  refine State.startBankCopy_keeps (hq := ?_) ..
  exact hq
  exact hq
  refine State.modPlc_keeps (hq := ?_) ..
  exact hq
  refine Keeps.ite (fun _ => ?_) (fun _ => ?_)
  refine State.askSlice_keeps (hq := ?_) ..
  exact h9
  exact h9
  exact hq
  dsimp -zeta only [x7]
  refine State.modLanes_keeps (hq := ?_) ..
  exact hq
  dsimp -zeta only [x3]
  refine State.modPlc_keeps (hq := ?_) ..
  exact hq

theorem State.testLeaves_keeps {qq : List Instr} {cc : Option Chip} (s : State) (unit : Nat) (hq : Keeps ⟨qq, none, cc⟩ s) :
    Keeps ⟨qq, none, cc⟩ (State.testLeaves s unit) := by
  unfold State.testLeaves
  extract_lets x1
  split
  refine State.modSch_keeps (hq := ?_) ..
  refine State.modEngAt_keeps (hq := ?_) ..
  exact hq
  refine State.clearBank_keeps (hq := ?_) ..
  exact hq
  exact hq

theorem State.abandon_keeps {qq : List Instr} {mm : Option Memory} {cc : Option Chip} (s : State) (r : BistRun) (hq : Keeps ⟨qq, mm, cc⟩ s) :
    Keeps ⟨qq, mm, cc⟩ (State.abandon s r) := by
  unfold State.abandon
  extract_lets x1 x2 x3
  have h4 : Keeps ⟨qq, mm, cc⟩ x3 := ?_
  refine State.unitReturns_keeps (hq := ?_) ..
  refine State.scrTest_keeps (hq := ?_) ..
  exact h4
  dsimp -zeta only [x3]
  have h5 : Keeps ⟨qq, mm, cc⟩ x2 := ?_
  refine State.logEv_keeps (hq := ?_) ..
  exact h5
  dsimp -zeta only [x2]
  have h6 : Keeps ⟨qq, mm, cc⟩ x1 := ?_
  refine State.bstRecord_keeps (hq := ?_) ..
  exact h6
  dsimp -zeta only [x1]
  refine State.raise_keeps (hq := ?_) ..
  refine State.endRunOf_keeps (hq := ?_) ..
  exact hq

theorem State.abandonAll_keeps {qq : List Instr} {mm : Option Memory} {cc : Option Chip} (s : State) (sel : BistRun → Bool) (hq : Keeps ⟨qq, mm, cc⟩ s) :
    Keeps ⟨qq, mm, cc⟩ (State.abandonAll s sel) := by
  unfold State.abandonAll
  refine Keeps.foldl (fun t1 y2 h3 => ?_) ?_
  refine State.abandon_keeps (hq := ?_) ..
  exact h3
  exact hq

theorem State.closedSummary_keeps {qq : List Instr} {mm : Option Memory} {cc : Option Chip} (s : State) (n : Nat) (hq : Keeps ⟨qq, mm, cc⟩ s) :
    Keeps ⟨qq, mm, cc⟩ (State.closedSummary s n) := by
  unfold State.closedSummary
  extract_lets x1
  refine State.modRegion_keeps (hq := ?_) ..
  refine State.logEv_keeps (hq := ?_) ..
  exact hq

theorem State.rgnTo_keeps {qq : List Instr} {mm : Option Memory} {cc : Option Chip} (s : State) (n : Nat) (st : RegionState) (cause : Nat) (hq : Keeps ⟨qq, mm, cc⟩ s) :
    Keeps ⟨qq, mm, cc⟩ (State.rgnTo s n st cause) := by
  unfold State.rgnTo
  extract_lets x1 x2 x3 x4
  have h5 : Keeps ⟨qq, mm, cc⟩ x4 := ?_
  refine State.logEv_keeps (hq := ?_) ..
  exact h5
  dsimp -zeta only [x4]
  have h6 : Keeps ⟨qq, mm, cc⟩ x3 := ?_
  refine Keeps.ite (fun _ => ?_) (fun _ => ?_)
  refine State.raise_keeps (hq := ?_) ..
  exact h6
  exact h6
  dsimp -zeta only [x3]
  have h7 : Keeps ⟨qq, mm, cc⟩ x2 := ?_
  refine State.modRegion_keeps (hq := ?_) ..
  exact h7
  dsimp -zeta only [x2]
  refine Keeps.ite (fun _ => ?_) (fun _ => ?_)
  refine State.closedSummary_keeps (hq := ?_) ..
  exact hq
  exact hq

theorem State.partOutcome_keeps {qq : List Instr} {mm : Option Memory} {cc : Option Chip} (s : State) (part : Nat) (rgn : Nat) (mask : Nat) (path : Nat) (status : Nat) (err : Nat) (hq : Keeps ⟨qq, mm, cc⟩ s) :
    Keeps ⟨qq, mm, cc⟩ (State.partOutcome s part rgn mask path status err) := by
  unfold State.partOutcome
  extract_lets x1 x2
  have h3 : Keeps ⟨qq, mm, cc⟩ x2 := ?_
  refine State.logEv_keeps (hq := ?_) ..
  exact h3
  dsimp -zeta only [x2]
  have h4 : Keeps ⟨qq, mm, cc⟩ x1 := ?_
  refine Keeps.ite (fun _ => ?_) (fun _ => ?_)
  refine State.count_keeps (hq := ?_) ..
  exact h4
  refine State.bump_keeps (hq := ?_) ..
  exact h4
  dsimp -zeta only [x1]
  refine State.wr_keeps (hq := ?_) ..
  refine State.wr_keeps (hq := ?_) ..
  refine State.wr_keeps (hq := ?_) ..
  exact hq

theorem State.closePart_keeps {qq : List Instr} {mm : Option Memory} {cc : Option Chip} (s : State) (q : PartReq) (rgn : Nat) (mask : Nat) (status : Nat) (err : Nat) (hq : Keeps ⟨qq, mm, cc⟩ s) :
    Keeps ⟨qq, mm, cc⟩ (State.closePart s q rgn mask status err) := by
  unfold State.closePart
  refine Keeps.ite (fun _ => ?_) (fun _ => ?_)
  split
  extract_lets x1 x2 x3
  have h4 : Keeps ⟨qq, mm, cc⟩ x2 := ?_
  refine Keeps.ite (fun _ => ?_) (fun _ => ?_)
  refine State.partOutcome_keeps (hq := ?_) ..
  exact h4
  refine Keeps.mk_other ?_
  exact h4
  dsimp -zeta only [x2]
  refine Keeps.mk_other ?_
  exact hq
  refine State.partOutcome_keeps (hq := ?_) ..
  exact hq
  refine State.partOutcome_keeps (hq := ?_) ..
  exact hq

theorem State.wakeDropped_keeps {qq : List Instr} {mm : Option Memory} {cc : Option Chip} (s : State) (q : KReq) (hq : Keeps ⟨qq, mm, cc⟩ s) :
    Keeps ⟨qq, mm, cc⟩ (State.wakeDropped s q) := by
  unfold State.wakeDropped
  extract_lets x1 x2
  refine Keeps.ite (fun _ => ?_) (fun _ => ?_)
  exact hq
  refine Keeps.ite (fun _ => ?_) (fun _ => ?_)
  split
  exact hq
  extract_lets x3
  have h4 : Keeps ⟨qq, mm, cc⟩ x3 := ?_
  refine Keeps.ite (fun _ => ?_) (fun _ => ?_)
  refine State.partOutcome_keeps (hq := ?_) ..
  exact h4
  exact h4
  dsimp -zeta only [x3]
  refine Keeps.mk_other ?_
  exact hq
  refine Keeps.ite (fun _ => ?_) (fun _ => ?_)
  exact hq
  refine State.partOutcome_keeps (hq := ?_) ..
  exact hq

theorem State.endPartial_keeps {qq : List Instr} {mm : Option Memory} {cc : Option Chip} (s : State) (status : Nat) (err : Nat) (hq : Keeps ⟨qq, mm, cc⟩ s) :
    Keeps ⟨qq, mm, cc⟩ (State.endPartial s status err) := by
  unfold State.endPartial
  split
  exact hq
  extract_lets x1 x2 x3 x4
  have h5 : Keeps ⟨qq, mm, cc⟩ x4 := ?_
  refine State.closePart_keeps (hq := ?_) ..
  exact h5
  dsimp -zeta only [x4]
  have h6 : Keeps ⟨qq, mm, cc⟩ x3 := ?_
  refine State.modCtx_keeps (hq := ?_) ..
  exact h6
  dsimp -zeta only [x3]
  have h7 : Keeps ⟨qq, mm, cc⟩ x2 := ?_
  refine State.wr_keeps (hq := ?_) ..
  refine State.wr_keeps (hq := ?_) ..
  refine State.wr_keeps (hq := ?_) ..
  exact h7
  dsimp -zeta only [x2]
  refine Keeps.mk_other ?_
  exact hq

theorem State.kettleWithdraw_keeps {qq : List Instr} {mm : Option Memory} {cc : Option Chip} (s : State) (n : Nat) (wake : Bool) (hq : Keeps ⟨qq, mm, cc⟩ s) :
    Keeps ⟨qq, mm, cc⟩ (State.kettleWithdraw s n wake) := by
  unfold State.kettleWithdraw
  extract_lets x1 x2 x3 x4
  have h5 : Keeps ⟨qq, mm, cc⟩ x3 := ?_
  refine Keeps.mk_other ?_
  exact h5
  dsimp -zeta only [x3]
  refine Keeps.foldl (fun t6 y7 h8 => ?_) ?_
  refine State.wakeDropped_keeps (hq := ?_) ..
  refine State.logEv_keeps (hq := ?_) ..
  exact h8
  exact hq

theorem State.leaveActive_keeps {qq : List Instr} {mm : Option Memory} {cc : Option Chip} (s : State) (n : Nat) (hq : Keeps ⟨qq, mm, cc⟩ s) :
    Keeps ⟨qq, mm, cc⟩ (State.leaveActive s n) := by
  unfold State.leaveActive
  extract_lets x1 x2 x3 x4 x5 x6
  have h7 : Keeps ⟨qq, mm, cc⟩ x4 := ?_
  refine State.missAll_keeps (hq := ?_) ..
  exact h7
  dsimp -zeta only [x4]
  have h8 : Keeps ⟨qq, mm, cc⟩ x3 := ?_
  refine State.kettleWithdraw_keeps (hq := ?_) ..
  exact h8
  dsimp -zeta only [x3]
  have h9 : Keeps ⟨qq, mm, cc⟩ x2 := ?_
  refine State.modFab_keeps (hq := ?_) ..
  exact h9
  dsimp -zeta only [x2]
  have h10 : Keeps ⟨qq, mm, cc⟩ x1 := ?_
  refine State.ctxRefuseAll_keeps (hq := ?_) ..
  exact h10
  dsimp -zeta only [x1]
  refine Keeps.foldl (fun t11 y12 h13 => ?_) ?_
  refine State.clearEvo_keeps (hq := ?_) ..
  exact h13
  exact hq

theorem State.closedRequests_keeps {qq : List Instr} {mm : Option Memory} {cc : Option Chip} (s : State) (n : Nat) (k : Nat) (hq : Keeps ⟨qq, mm, cc⟩ s) :
    Keeps ⟨qq, mm, cc⟩ (State.closedRequests s n k) := by
  unfold State.closedRequests
  refine State.modRegion_keeps (hq := ?_) ..
  exact hq

theorem State.abortOwn_keeps {qq : List Instr} {mm : Option Memory} {cc : Option Chip} (s : State) (i : Nat) (hq : Keeps ⟨qq, mm, cc⟩ s) :
    Keeps ⟨qq, mm, cc⟩ (State.abortOwn s i).2 := by
  unfold State.abortOwn
  extract_lets x1 x2 x3 x4 x5 x6
  have h7 : Keeps ⟨qq, mm, cc⟩ x6 := ?_
  exact h7
  dsimp -zeta only [x6]
  have h8 : Keeps ⟨qq, mm, cc⟩ x5 := ?_
  refine Keeps.foldl (fun t9 y10 h11 => ?_) ?_
  dsimp -zeta only [x4]
  refine State.answered_keeps (hq := ?_) ..
  exact h11
  exact h8
  dsimp -zeta only [x5]
  have h12 : Keeps ⟨qq, mm, cc⟩ x3 := ?_
  refine Keeps.foldl (fun t13 y14 h15 => ?_) ?_
  dsimp -zeta only [x4]
  refine State.answered_keeps (hq := ?_) ..
  exact h15
  exact h12
  dsimp -zeta only [x3]
  refine State.modNi_keeps (hq := ?_) ..
  exact hq

theorem State.abortHeld_keeps {qq : List Instr} {mm : Option Memory} {cc : Option Chip} (s : State) (n : Nat) (hq : Keeps ⟨qq, mm, cc⟩ s) :
    Keeps ⟨qq, mm, cc⟩ (State.abortHeld s n) := by
  unfold State.abortHeld
  extract_lets x1 x2 x3 x4 x5 x6
  have h7 : Keeps ⟨qq, mm, cc⟩ x6 := ?_
  refine Keeps.foldl (fun t8 y9 h10 => ?_) ?_
  refine State.dropAt_keeps (hq := ?_) ..
  exact h10
  exact h7
  dsimp -zeta only [x6]
  have h11 : Keeps ⟨qq, mm, cc⟩ x5 := ?_
  refine Keeps.foldl (fun t12 y13 h14 => ?_) ?_
  refine State.respond_keeps (hq := ?_) ..
  exact h14
  refine State.closedRequests_keeps (hq := ?_) ..
  exact h11
  dsimp -zeta only [x5]
  have h15 : Keeps ⟨qq, mm, cc⟩ x4 := ?_
  refine State.modNi_keeps (hq := ?_) ..
  exact h15
  dsimp -zeta only [x4]
  refine State.modMem_keeps (hq := ?_) ..
  exact hq

theorem State.finishWindow_keeps {qq : List Instr} {cc : Option Chip} (s : State) (n : Nat) (e : Nat) (hq : Keeps ⟨qq, none, cc⟩ s) :
    Keeps ⟨qq, none, cc⟩ (State.finishWindow s n e) := by
  unfold State.finishWindow
  refine Keeps.foldl (fun t1 y2 h3 => ?_) ?_
  refine Keeps.ite (fun _ => ?_) (fun _ => ?_)
  refine State.engineRequest_keeps (hq := ?_) ..
  exact h3
  exact h3
  exact hq

theorem State.haltEngines_keeps {qq : List Instr} {cc : Option Chip} (s : State) (n : Nat) (hq : Keeps ⟨qq, none, cc⟩ s) :
    Keeps ⟨qq, none, cc⟩ (State.haltEngines s n) := by
  unfold State.haltEngines
  extract_lets x1
  have h2 : Keeps ⟨qq, none, cc⟩ x1 := ?_
  refine Keeps.foldl (fun t3 y4 h5 => ?_) ?_
  refine State.modEngAt_keeps (hq := ?_) ..
  exact h5
  exact h2
  dsimp -zeta only [x1]
  refine Keeps.foldl (fun t6 y7 h8 => ?_) ?_
  refine State.finishWindow_keeps (hq := ?_) ..
  exact h8
  exact hq

theorem State.fence_keeps {qq : List Instr} {cc : Option Chip} (s : State) (n : Nat) (cause : Nat) (hq : Keeps ⟨qq, none, cc⟩ s) :
    Keeps ⟨qq, none, cc⟩ (State.fence s n cause) := by
  unfold State.fence
  extract_lets x1 x2 x3 x4 x5 x6
  have h7 : Keeps ⟨qq, none, cc⟩ x4 := ?_
  have h8 : Keeps ⟨qq, none, cc⟩ x6 := ?_
  refine Keeps.ite (fun _ => ?_) (fun _ => ?_)
  exact hq
  refine Keeps.ite (fun _ => ?_) (fun _ => ?_)
  exact h7
  split
  extract_lets x9 x10
  have h11 : Keeps ⟨qq, none, cc⟩ x10 := ?_
  refine State.mbxClose_keeps (hq := ?_) ..
  exact h11
  dsimp -zeta only [x10]
  have h12 : Keeps ⟨qq, none, cc⟩ x9 := ?_
  refine State.schFence_keeps (hq := ?_) ..
  refine State.haltEngines_keeps (hq := ?_) ..
  exact h12
  dsimp -zeta only [x9]
  refine State.closedRequests_keeps (hq := ?_) ..
  refine Keeps.snd_eq (by assumption) ?_
  refine State.abortOwn_keeps (hq := ?_) ..
  exact h8
  dsimp -zeta only [x6]
  have h13 : Keeps ⟨qq, none, cc⟩ x5 := ?_
  refine State.abortHeld_keeps (hq := ?_) ..
  exact h13
  dsimp -zeta only [x5]
  refine State.leaveActive_keeps (hq := ?_) ..
  exact h7
  dsimp -zeta only [x4]
  have h14 : Keeps ⟨qq, none, cc⟩ x3 := ?_
  split
  refine Keeps.ite (fun _ => ?_) (fun _ => ?_)
  refine State.endPartial_keeps (hq := ?_) ..
  exact h14
  exact h14
  exact h14
  dsimp -zeta only [x3]
  have h15 : Keeps ⟨qq, none, cc⟩ x2 := ?_
  refine State.modScrRgn_keeps (hq := ?_) ..
  exact h15
  dsimp -zeta only [x2]
  refine State.rgnTo_keeps (hq := ?_) ..
  refine State.modRegion_keeps (hq := ?_) ..
  exact hq

theorem State.restartRegs_keeps {qq : List Instr} {mm : Option Memory} {cc : Option Chip} (s : State) (n : Nat) (hq : Keeps ⟨qq, mm, cc⟩ s) :
    Keeps ⟨qq, mm, cc⟩ (State.restartRegs s n) := Keeps.mk_regs hq (Tbl.wf_foldl_put _ _ _ _ _ (Tbl.wf_filter _ _ _ hq.2.1.2))

theorem State.limitReached_keeps {qq : List Instr} {mm : Option Memory} {cc : Option Chip} (s : State) (n : Nat) (hq : Keeps ⟨qq, mm, cc⟩ s) :
    Keeps ⟨qq, mm, cc⟩ (State.limitReached s n) := by
  unfold State.limitReached
  refine State.degrade_keeps (hq := ?_) ..
  refine State.modRegion_keeps (hq := ?_) ..
  refine State.rgnTo_keeps (hq := ?_) ..
  exact hq

theorem State.restart_keeps {qq : List Instr} {mm : Option Memory} {cc : Option Chip} (s : State) (n : Nat) (hq : Keeps ⟨qq, mm, cc⟩ s) :
    Keeps ⟨qq, mm, cc⟩ (State.restart s n) := by
  unfold State.restart
  extract_lets x1 x2 x3 x4 x5 x6 x7 x8
  have h9 : Keeps ⟨qq, mm, cc⟩ x7 := ?_
  refine Keeps.ite (fun _ => ?_) (fun _ => ?_)
  exact hq
  refine Keeps.ite (fun _ => ?_) (fun _ => ?_)
  refine State.limitReached_keeps (hq := ?_) ..
  exact hq
  refine Keeps.ite (fun _ => ?_) (fun _ => ?_)
  refine State.requestMark_keeps (hq := ?_) ..
  exact h9
  exact h9
  dsimp -zeta only [x7]
  have h10 : Keeps ⟨qq, mm, cc⟩ x6 := ?_
  refine State.rgnTo_keeps (hq := ?_) ..
  refine State.plcInterval_keeps (hq := ?_) ..
  exact h10
  dsimp -zeta only [x6]
  have h11 : Keeps ⟨qq, mm, cc⟩ x5 := ?_
  refine State.ctxRestart_keeps (hq := ?_) ..
  exact h11
  dsimp -zeta only [x5]
  have h12 : Keeps ⟨qq, mm, cc⟩ x4 := ?_
  refine Keeps.foldl (fun t13 y14 h15 => ?_) ?_
  refine State.modEngAt_keeps (hq := ?_) ..
  exact h15
  exact h12
  dsimp -zeta only [x4]
  have h16 : Keeps ⟨qq, mm, cc⟩ x3 := ?_
  refine State.modFab_keeps (hq := ?_) ..
  exact h16
  dsimp -zeta only [x3]
  have h17 : Keeps ⟨qq, mm, cc⟩ x2 := ?_
  refine State.schRestart_keeps (hq := ?_) ..
  refine State.restartRegs_keeps (hq := ?_) ..
  exact h17
  dsimp -zeta only [x2]
  refine State.modRegion_keeps (hq := ?_) ..
  exact hq

theorem State.zeroBanks_keeps {qq : List Instr} {cc : Option Chip} (s : State) (n : Nat) (hq : Keeps ⟨qq, none, cc⟩ s) :
    Keeps ⟨qq, none, cc⟩ (State.zeroBanks s n) := ⟨hq.1, ⟨⟨Tbl.wf_filter _ _ _ hq.2.1.1, hq.2.1.2⟩, hq.2.2⟩, (by intro x e; cases e), hq.4⟩

theorem State.zeroRegion_keeps {qq : List Instr} {cc : Option Chip} (s : State) (n : Nat) (hq : Keeps ⟨qq, none, cc⟩ s) :
    Keeps ⟨qq, none, cc⟩ (State.zeroRegion s n) := by
  unfold State.zeroRegion
  refine State.modRegion_keeps (hq := ?_) ..
  refine State.zeroBanks_keeps (hq := ?_) ..
  exact hq

theorem State.endCopies_keeps {qq : List Instr} {mm : Option Memory} {cc : Option Chip} (s : State) (n k : Nat) (hq : Keeps ⟨qq, mm, cc⟩ s) :
    Keeps ⟨qq, mm, cc⟩ (s.endCopies n k) := by
  induction k generalizing s with
  | zero => exact hq
  | succ k ih =>
    unfold State.endCopies
    exact Keeps.ite (fun _ => hq) fun _ => ih _ (State.switchBank_keeps (hq := State.wr_keeps (hq := hq) ..) ..)

theorem State.loseContents_keeps {qq : List Instr} {cc : Option Chip} (s : State) (n : Nat) (hq : Keeps ⟨qq, none, cc⟩ s) :
    Keeps ⟨qq, none, cc⟩ (State.loseContents s n) := by
  unfold State.loseContents
  extract_lets x1 x2 x3 x4 x5 x6 x7 x8 x9
  have h10 : Keeps ⟨qq, none, cc⟩ x8 := ?_
  refine State.modRegion_keeps (hq := ?_) ..
  exact h10
  dsimp -zeta only [x8]
  have h11 : Keeps ⟨qq, none, cc⟩ x7 := ?_
  refine Keeps.foldl (fun t12 y13 h14 => ?_) ?_
  refine State.wr_keeps (hq := ?_) ..
  exact h14
  exact h11
  dsimp -zeta only [x7]
  have h15 : Keeps ⟨qq, none, cc⟩ x6 := ?_
  refine State.wr_keeps (hq := ?_) ..
  refine State.wr_keeps (hq := ?_) ..
  refine State.wr_keeps (hq := ?_) ..
  exact h15
  dsimp -zeta only [x6]
  have h16 : Keeps ⟨qq, none, cc⟩ x5 := ?_
  refine State.modScr_keeps (hq := ?_) ..
  exact h16
  dsimp -zeta only [x5]
  have h17 : Keeps ⟨qq, none, cc⟩ x4 := ?_
  refine State.modScrRgn_keeps (hq := ?_) ..
  exact h17
  dsimp -zeta only [x4]
  have h18 : Keeps ⟨qq, none, cc⟩ x3 := ?_
  refine Keeps.ite (fun _ => ?_) (fun _ => ?_)
  exact h18
  refine Keeps.ite (fun _ => ?_) (fun _ => ?_)
  refine State.columnForGood_keeps (hq := ?_) ..
  exact h18
  refine State.columnBack_keeps (hq := ?_) ..
  exact h18
  dsimp -zeta only [x3]
  have h19 : Keeps ⟨qq, none, cc⟩ x2 := ?_
  refine State.zeroBanks_keeps (hq := ?_) ..
  refine State.schDark_keeps (hq := ?_) ..
  refine State.plcDark_keeps (hq := ?_) ..
  exact h19
  dsimp -zeta only [x2]
  have h20 : Keeps ⟨qq, none, cc⟩ x1 := ?_
  refine State.endCopies_keeps (hq := ?_) ..
  exact h20
  dsimp -zeta only [x1]
  refine State.abandonAll_keeps (hq := ?_) ..
  exact hq

theorem State.toDark_keeps {qq : List Instr} {cc : Option Chip} (s : State) (n : Nat) (hq : Keeps ⟨qq, none, cc⟩ s) :
    Keeps ⟨qq, none, cc⟩ (State.toDark s n) := by
  unfold State.toDark
  extract_lets x1 x2 x3
  have h4 : Keeps ⟨qq, none, cc⟩ x3 := ?_
  refine State.loseContents_keeps (hq := ?_) ..
  exact h4
  dsimp -zeta only [x3]
  have h5 : Keeps ⟨qq, none, cc⟩ x2 := ?_
  refine Keeps.ite (fun _ => ?_) (fun _ => ?_)
  refine State.leaveActive_keeps (hq := ?_) ..
  exact h5
  exact h5
  dsimp -zeta only [x2]
  refine State.rgnTo_keeps (hq := ?_) ..
  exact hq

theorem State.toLoading_keeps {qq : List Instr} {mm : Option Memory} {cc : Option Chip} (s : State) (n : Nat) (hq : Keeps ⟨qq, mm, cc⟩ s) :
    Keeps ⟨qq, mm, cc⟩ (State.toLoading s n) := by
  unfold State.toLoading
  extract_lets x1 x2 x3
  have h4 : Keeps ⟨qq, mm, cc⟩ x2 := ?_
  refine State.missAll_keeps (hq := ?_) ..
  refine State.kettleWithdraw_keeps (hq := ?_) ..
  exact h4
  dsimp -zeta only [x2]
  have h5 : Keeps ⟨qq, mm, cc⟩ x1 := ?_
  refine State.modScrRgn_keeps (hq := ?_) ..
  exact h5
  dsimp -zeta only [x1]
  refine State.rgnTo_keeps (hq := ?_) ..
  exact hq

theorem State.logChip_keeps {qq : List Instr} {mm : Option Memory} {cc : Option Chip} (s : State) (old : ChipState) (new : ChipState) (mask : Nat) (stamp : Option Nat) (hq : Keeps ⟨qq, mm, cc⟩ s) :
    Keeps ⟨qq, mm, cc⟩ (State.logChip s old new mask stamp) := by
  unfold State.logChip
  extract_lets x1
  refine State.logRec_keeps (hq := ?_) ..
  exact hq

theorem State.latchCause_keeps {qq : List Instr} {mm : Option Memory} {cc : Option Chip} (s : State) (cause : Nat) (hq : Keeps ⟨qq, mm, cc⟩ s) :
    Keeps ⟨qq, mm, cc⟩ (State.latchCause s cause) := by
  unfold State.latchCause
  refine State.wr_keeps (hq := ?_) ..
  exact hq

theorem State.allDark_keeps {qq : List Instr} {mm : Option Memory} {cc : Option Chip} (s : State) (hq : Keeps ⟨qq, mm, cc⟩ s) :
    Keeps ⟨qq, mm, cc⟩ (State.allDark s) := by
  unfold State.allDark
  refine Keeps.foldl (fun t1 y2 h3 => ?_) ?_
  refine Keeps.ite (fun _ => ?_) (fun _ => ?_)
  exact h3
  refine State.rgnTo_keeps (hq := ?_) ..
  exact h3
  exact hq

/-- The registers at reset are in canonical form. -/
theorem resetRegs_wf : Tbl.wf 0 resetRegs = true := by decide

theorem State.housekeeping_keeps {qq : List Instr} (s : State) (hq : Keeps ⟨qq, none, none⟩ s) :
    Keeps ⟨qq, none, none⟩ (State.housekeeping s) := ⟨hq.1, ⟨⟨rfl, resetRegs_wf⟩, nofun, nofun⟩, (by intro x e; cases e), (by intro x e; cases e)⟩

theorem State.toHalt_keeps {qq : List Instr} (s : State) (mask : Nat) (hq : Keeps ⟨qq, none, none⟩ s) : Keeps ⟨qq, none, none⟩ (s.toHalt mask) := by
  unfold State.toHalt
  extract_lets x1 x2 x3
  have h1 : Keeps ⟨qq, none, none⟩ x1 := State.logChip_keeps (hq := hq) ..
  have h2 : Keeps ⟨qq, none, none⟩ x2 := State.allDark_keeps (hq := h1) ..
  have h3 : Keeps ⟨qq, none, none⟩ x3 := State.housekeeping_keeps (hq := h2) ..
  clear_value x3 x2 x1
  exact ⟨h3.1, ⟨⟨h3.2.1.1, h2.2.1.2⟩, nofun, nofun⟩, (by intro x e; cases e), (by intro x e; cases e)⟩

theorem State.toPor_keeps {qq : List Instr} (s : State) (hq : Keeps ⟨qq, none, none⟩ s) :
    Keeps ⟨qq, none, none⟩ (State.toPor s) := by
  unfold State.toPor
  extract_lets x1 x2 x3
  have h4 : Keeps ⟨qq, none, none⟩ x2 := ?_
  have h5 : Keeps ⟨qq, none, none⟩ x3 := ?_
  refine State.wr_keeps (hq := ?_) ..
  refine State.wr_keeps (hq := ?_) ..
  refine State.wr_keeps (hq := ?_) ..
  exact h5
  dsimp -zeta only [x3]
  refine State.housekeeping_keeps (hq := ?_) ..
  exact h4
  dsimp -zeta only [x2]
  have h6 : Keeps ⟨qq, none, none⟩ x1 := ?_
  refine State.allDark_keeps (hq := ?_) ..
  dsimp -zeta only [State.modChip]
  refine Keeps.mk_chip ?_ ?_ ?_
  exact h6
  exact fun hf => Or.inl (eq_of_beq hf)
  exact fun hf => nomatch hf
  dsimp -zeta only [x1]
  refine State.logChip_keeps (hq := ?_) ..
  exact hq

theorem State.toOff_keeps {qq : List Instr} (s : State) (hq : Keeps ⟨qq, none, none⟩ s) :
    Keeps ⟨qq, none, none⟩ (State.toOff s) := by
  unfold State.toOff
  extract_lets x1
  have h2 : Keeps ⟨qq, none, none⟩ x1 := ?_
  refine Keeps.mk_chip ?_ ?_ ?_
  exact h2
  exact fun hf => Or.inl (eq_of_beq hf)
  exact fun hf => nomatch hf
  dsimp -zeta only [x1]
  refine State.housekeeping_keeps (hq := ?_) ..
  exact hq

theorem State.xmcStop_keeps {qq : List Instr} {mm : Option Memory} {cc : Option Chip} (s : State) (hq : Keeps ⟨qq, mm, cc⟩ s) :
    Keeps ⟨qq, mm, cc⟩ (State.xmcStop s) := by
  unfold State.xmcStop
  extract_lets x1 x2
  have h3 : Keeps ⟨qq, mm, cc⟩ x2 := ?_
  refine Keeps.mk_other ?_
  exact h3
  dsimp -zeta only [x2]
  have h4 : Keeps ⟨qq, mm, cc⟩ x1 := ?_
  refine State.wr_keeps (hq := ?_) ..
  refine State.wr_keeps (hq := ?_) ..
  exact h4
  dsimp -zeta only [x1]
  refine Keeps.foldl (fun t5 y6 h7 => ?_) ?_
  refine State.wr_keeps (hq := ?_) ..
  refine State.wr_keeps (hq := ?_) ..
  exact h7
  exact hq

theorem State.zeroise_keeps {qq : List Instr} {mm : Option Memory} {cc : Option Chip} (s : State) (hq : Keeps ⟨qq, mm, cc⟩ s) :
    Keeps ⟨qq, mm, cc⟩ (State.zeroise s) := by
  unfold State.zeroise
  extract_lets x1 x2
  have h3 : Keeps ⟨qq, mm, cc⟩ x1 := ?_
  refine Keeps.mk_other ?_
  exact h3
  dsimp -zeta only [x1]
  refine Keeps.foldl (fun t4 y5 h6 => ?_) ?_
  refine State.wr_keeps (hq := ?_) ..
  refine State.wr_keeps (hq := ?_) ..
  refine State.wr_keeps (hq := ?_) ..
  refine State.wr_keeps (hq := ?_) ..
  exact h6
  exact hq

theorem State.abortAllOwn_keeps {qq : List Instr} {mm : Option Memory} {cc : Option Chip} (s : State) (hq : Keeps ⟨qq, mm, cc⟩ s) :
    Keeps ⟨qq, mm, cc⟩ (State.abortAllOwn s) := by
  unfold State.abortAllOwn
  refine Keeps.foldl (fun t1 y2 h3 => ?_) ?_
  refine State.abortOwn_keeps (hq := ?_) ..
  exact h3
  exact hq

theorem State.safeClose_keeps {qq : List Instr} {cc : Option Chip} (s : State) (hq : Keeps ⟨qq, none, cc⟩ s) :
    Keeps ⟨qq, none, cc⟩ (State.safeClose s) := by
  unfold State.safeClose
  extract_lets x1 x2 x3 x4
  have h5 : Keeps ⟨qq, none, cc⟩ x4 := ?_
  refine Keeps.ite (fun _ => ?_) (fun _ => ?_)
  refine State.zeroise_keeps (hq := ?_) ..
  exact h5
  exact h5
  dsimp -zeta only [x4]
  have h6 : Keeps ⟨qq, none, cc⟩ x3 := ?_
  refine State.mbxClose_keeps (hq := ?_) ..
  exact h6
  dsimp -zeta only [x3]
  have h7 : Keeps ⟨qq, none, cc⟩ x2 := ?_
  refine State.abortAllOwn_keeps (hq := ?_) ..
  exact h7
  dsimp -zeta only [x2]
  have h8 : Keeps ⟨qq, none, cc⟩ x1 := ?_
  refine Keeps.foldl (fun t9 y10 h11 => ?_) ?_
  refine State.fence_keeps (hq := ?_) ..
  exact h11
  exact h8
  dsimp -zeta only [x1]
  refine State.abandonAll_keeps (hq := ?_) ..
  exact hq

theorem State.supInSafe_keeps {qq : List Instr} {mm : Option Memory} {cc : Option Chip} (s : State) (cause : Nat) (first : Bool) (hq : Keeps ⟨qq, mm, cc⟩ s) :
    Keeps ⟨qq, mm, cc⟩ (State.supInSafe s cause first) := by
  unfold State.supInSafe
  refine Keeps.ite (fun _ => ?_) (fun _ => ?_)
  refine Keeps.ite (fun _ => ?_) (fun _ => ?_)
  refine Keeps.mk_other ?_
  exact hq
  refine Keeps.ite (fun _ => ?_) (fun _ => ?_)
  refine Keeps.mk_other ?_
  exact hq
  refine Keeps.ite (fun _ => ?_) (fun _ => ?_)
  refine State.pendSrc_keeps (hq := ?_) ..
  refine Keeps.mk_other ?_
  exact hq
  exact hq
  exact hq

theorem State.enterSafe_keeps {qq : List Instr} (s : State) (cause : Nat) (hq : Keeps ⟨qq, none, none⟩ s) :
    Keeps ⟨qq, none, none⟩ (State.enterSafe s cause) := by
  unfold State.enterSafe
  extract_lets x1 x2 x3 x4 x5 x6 x7
  have h8 : Keeps ⟨qq, none, none⟩ x7 := ?_
  refine State.xmcStop_keeps (hq := ?_) ..
  refine State.safeClose_keeps (hq := ?_) ..
  exact h8
  dsimp -zeta only [x7]
  have h9 : Keeps ⟨qq, none, none⟩ x6 := ?_
  refine Keeps.foldl (fun t10 y11 h12 => ?_) ?_
  refine State.clearEvo_keeps (hq := ?_) ..
  exact h12
  exact h9
  dsimp -zeta only [x6]
  have h13 : Keeps ⟨qq, none, none⟩ x5 := ?_
  refine State.stopMatcher_keeps (hq := ?_) ..
  exact h13
  dsimp -zeta only [x5]
  have h14 : Keeps ⟨qq, none, none⟩ x4 := ?_
  refine State.supInSafe_keeps (hq := ?_) ..
  exact h14
  dsimp -zeta only [x4]
  have h15 : Keeps ⟨qq, none, none⟩ x3 := ?_
  dsimp -zeta only [State.modChip]
  refine Keeps.mk_chip ?_ ?_ ?_
  exact h15
  exact fun hf => Or.inl (eq_of_beq hf)
  exact fun hf => nomatch hf
  dsimp -zeta only [x3]
  refine State.latchCause_keeps (hq := ?_) ..
  exact hq

theorem State.doubt_keeps {qq : List Instr} (s : State) (cause : Nat) (hq : Keeps ⟨qq, none, none⟩ s) :
    Keeps ⟨qq, none, none⟩ (State.doubt s cause) := by
  unfold State.doubt
  split
  refine State.enterSafe_keeps (hq := ?_) ..
  exact hq
  refine State.enterSafe_keeps (hq := ?_) ..
  exact hq
  refine State.enterSafe_keeps (hq := ?_) ..
  exact hq
  extract_lets x1 x2 x3 x4
  have h5 : Keeps ⟨qq, none, none⟩ x3 := ?_
  have h6 : Keeps ⟨qq, none, none⟩ x4 := ?_
  refine Keeps.ite (fun _ => ?_) (fun _ => ?_)
  dsimp -zeta only [State.modChip]
  refine Keeps.mk_chip_outs ?_ rfl rfl rfl
  exact h5
  refine Keeps.ite (fun _ => ?_) (fun _ => ?_)
  refine State.toHalt_keeps (hq := ?_) ..
  exact h6
  exact h6
  dsimp -zeta only [x4]
  refine Keeps.ite (fun _ => ?_) (fun _ => ?_)
  refine State.logChip_keeps (hq := ?_) ..
  exact h5
  exact h5
  dsimp -zeta only [x3]
  have h7 : Keeps ⟨qq, none, none⟩ x2 := ?_
  dsimp -zeta only [State.modChip]
  refine Keeps.mk_chip_outs ?_ rfl rfl rfl
  exact h7
  dsimp -zeta only [x2]
  refine State.supInSafe_keeps (hq := ?_) ..
  refine State.latchCause_keeps (hq := ?_) ..
  exact hq
  exact hq

theorem State.pllsOff_keeps {qq : List Instr} {mm : Option Memory} {cc : Option Chip} (s : State) (hq : Keeps ⟨qq, mm, cc⟩ s) :
    Keeps ⟨qq, mm, cc⟩ (State.pllsOff s) := by
  unfold State.pllsOff
  extract_lets x1 x2
  have h3 : Keeps ⟨qq, mm, cc⟩ x2 := ?_
  refine Keeps.foldl (fun t4 y5 h6 => ?_) ?_
  refine State.wr_keeps (hq := ?_) ..
  exact h6
  exact h3
  dsimp -zeta only [x2]
  have h7 : Keeps ⟨qq, mm, cc⟩ x1 := ?_
  refine Keeps.foldl (fun t8 y9 h10 => ?_) ?_
  refine State.wr_keeps (hq := ?_) ..
  refine State.wr_keeps (hq := ?_) ..
  exact h10
  exact h7
  dsimp -zeta only [x1]
  refine State.wr_keeps (hq := ?_) ..
  exact hq

theorem State.loadRegs_keeps {qq : List Instr} {mm : Option Memory} {cc : Option Chip} (s : State) (hq : Keeps ⟨qq, mm, cc⟩ s) :
    Keeps ⟨qq, mm, cc⟩ (State.loadRegs s) := by
  unfold State.loadRegs
  extract_lets x1 x2 x3 x4 x5 x6 x7
  have h8 : Keeps ⟨qq, mm, cc⟩ x7 := ?_
  refine Keeps.foldl (fun t9 y10 h11 => ?_) ?_
  refine State.wr_keeps (hq := ?_) ..
  refine State.wr_keeps (hq := ?_) ..
  refine State.wr_keeps (hq := ?_) ..
  exact h11
  exact h8
  dsimp -zeta only [x7]
  have h12 : Keeps ⟨qq, mm, cc⟩ x6 := ?_
  refine Keeps.foldl (fun t13 y14 h15 => ?_) ?_
  refine State.wr_keeps (hq := ?_) ..
  refine State.wr_keeps (hq := ?_) ..
  exact h15
  exact h12
  dsimp -zeta only [x6]
  have h16 : Keeps ⟨qq, mm, cc⟩ x5 := ?_
  refine State.wr_keeps (hq := ?_) ..
  refine State.wr_keeps (hq := ?_) ..
  exact h16
  dsimp -zeta only [x5]
  have h17 : Keeps ⟨qq, mm, cc⟩ x4 := ?_
  refine Keeps.foldl (fun t18 y19 h20 => ?_) ?_
  refine Keeps.foldl (fun t21 y22 h23 => ?_) ?_
  refine State.wr_keeps (hq := ?_) ..
  exact h23
  exact h20
  exact h17
  dsimp -zeta only [x4]
  have h24 : Keeps ⟨qq, mm, cc⟩ x3 := ?_
  refine Keeps.foldl (fun t25 y26 h27 => ?_) ?_
  refine State.wr_keeps (hq := ?_) ..
  refine State.wr_keeps (hq := ?_) ..
  refine State.wr_keeps (hq := ?_) ..
  exact h27
  exact h24
  dsimp -zeta only [x3]
  have h28 : Keeps ⟨qq, mm, cc⟩ x2 := ?_
  refine Keeps.foldl (fun t29 y30 h31 => ?_) ?_
  refine State.wr_keeps (hq := ?_) ..
  refine State.wr_keeps (hq := ?_) ..
  refine State.wr_keeps (hq := ?_) ..
  exact h31
  exact h28
  dsimp -zeta only [x2]
  have h32 : Keeps ⟨qq, mm, cc⟩ x1 := ?_
  refine Keeps.foldl (fun t33 y34 h35 => ?_) ?_
  refine State.wr_keeps (hq := ?_) ..
  exact h35
  exact h32
  dsimp -zeta only [x1]
  refine State.wr_keeps (hq := ?_) ..
  refine State.wr_keeps (hq := ?_) ..
  refine State.wr_keeps (hq := ?_) ..
  exact hq

theorem State.toLoad_keeps {qq : List Instr} {mm : Option Memory} (s : State) (hq : Keeps ⟨qq, mm, none⟩ s) :
    Keeps ⟨qq, mm, none⟩ (State.toLoad s) := by
  unfold State.toLoad
  extract_lets x1 x2 x3 x4
  have h5 : Keeps ⟨qq, mm, none⟩ x3 := ?_
  refine Keeps.mk_chip ?_ ?_ ?_
  exact h5
  exact fun hf => Or.inl (eq_of_beq hf)
  exact fun hf => nomatch hf
  dsimp -zeta only [x3]
  have h6 : Keeps ⟨qq, mm, none⟩ x2 := ?_
  refine State.wr_keeps (hq := ?_) ..
  refine State.loadRegs_keeps (hq := ?_) ..
  refine State.pllsOff_keeps (hq := ?_) ..
  refine State.xmcStop_keeps (hq := ?_) ..
  exact h6
  dsimp -zeta only [x2]
  have h7 : Keeps ⟨qq, mm, none⟩ x1 := ?_
  refine State.zeroise_keeps (hq := ?_) ..
  exact h7
  dsimp -zeta only [x1]
  refine State.logChip_keeps (hq := ?_) ..
  exact hq

theorem State.safeDone_keeps {qq : List Instr} (s : State) (hq : Keeps ⟨qq, none, none⟩ s) :
    Keeps ⟨qq, none, none⟩ (State.safeDone s) := by
  unfold State.safeDone
  extract_lets x1 x2
  have h3 : Keeps ⟨qq, none, none⟩ x2 := ?_
  refine Keeps.ite (fun _ => ?_) (fun _ => ?_)
  refine State.toHalt_keeps (hq := ?_) ..
  exact h3
  refine Keeps.ite (fun _ => ?_) (fun _ => ?_)
  refine State.toLoad_keeps (hq := ?_) ..
  exact h3
  exact h3
  dsimp -zeta only [x2]
  have h4 : Keeps ⟨qq, none, none⟩ x1 := ?_
  dsimp -zeta only [State.modChip]
  refine Keeps.mk_chip_outs ?_ rfl rfl rfl
  exact h4
  dsimp -zeta only [x1]
  refine State.logChip_keeps (hq := ?_) ..
  exact hq

theorem State.modKet_keeps {qq : List Instr} {mm : Option Memory} {cc : Option Chip} (s : State) (f : Kettle → Kettle) (hq : Keeps ⟨qq, mm, cc⟩ s) :
    Keeps ⟨qq, mm, cc⟩ (State.modKet s f) := by
  unfold State.modKet
  refine Keeps.mk_other ?_
  exact hq

theorem State.spend_keeps {qq : List Instr} {mm : Option Memory} {cc : Option Chip} (s : State) (cost : Nat) (hq : Keeps ⟨qq, mm, cc⟩ s) :
    Keeps ⟨qq, mm, cc⟩ (State.spend s cost) := by
  unfold State.spend
  extract_lets x1
  refine State.modKet_keeps (hq := ?_) ..
  exact hq

theorem State.replaced_keeps {qq : List Instr} {mm : Option Memory} {cc : Option Chip} (s : State) (q : KReq) (hq : Keeps ⟨qq, mm, cc⟩ s) :
    Keeps ⟨qq, mm, cc⟩ (State.replaced s q) := by
  unfold State.replaced
  refine State.wakeDropped_keeps (hq := ?_) ..
  refine State.logEv_keeps (hq := ?_) ..
  exact hq

theorem State.giveWay_keeps {qq : List Instr} {mm : Option Memory} {cc : Option Chip} (s : State) (q : KReq) (hq : Keeps ⟨qq, mm, cc⟩ s) :
    Keeps ⟨qq, mm, cc⟩ (State.giveWay s q) := by
  unfold State.giveWay
  extract_lets x1
  have h2 : Keeps ⟨qq, mm, cc⟩ x1 := ?_
  split
  refine State.replaced_keeps (hq := ?_) ..
  exact h2
  split
  refine State.missPend_keeps (hq := ?_) ..
  exact h2
  exact h2
  dsimp -zeta only [x1]
  refine State.modKet_keeps (hq := ?_) ..
  exact hq

theorem State.kettleQueue_keeps {qq : List Instr} {mm : Option Memory} {cc : Option Chip} (s : State) (q : KReq) (hq : Keeps ⟨qq, mm, cc⟩ s) :
    Keeps ⟨qq, mm, cc⟩ (State.kettleQueue s q) := by
  unfold State.kettleQueue
  refine Keeps.ite (fun _ => ?_) (fun _ => ?_)
  split
  refine State.replaced_keeps (hq := ?_) ..
  exact hq
  exact hq
  extract_lets x1 x2
  have h3 : Keeps ⟨qq, mm, cc⟩ x2 := ?_
  refine State.modKet_keeps (hq := ?_) ..
  exact h3
  dsimp -zeta only [x2]
  refine Keeps.foldl (fun t4 y5 h6 => ?_) ?_
  refine State.giveWay_keeps (hq := ?_) ..
  exact h6
  exact hq

theorem State.setBusy_keeps {qq : List Instr} {mm : Option Memory} {cc : Option Chip} (s : State) (n : Nat) (d : Nat) (v : Nat) (hq : Keeps ⟨qq, mm, cc⟩ s) :
    Keeps ⟨qq, mm, cc⟩ (State.setBusy s n d v) := by
  unfold State.setBusy
  refine Keeps.ite (fun _ => ?_) (fun _ => ?_)
  refine State.wr_keeps (hq := ?_) ..
  exact hq
  refine State.wr_keeps (hq := ?_) ..
  exact hq

theorem State.setPoint_keeps {qq : List Instr} {mm : Option Memory} {cc : Option Chip} (s : State) (n : Nat) (d : Nat) (v : Nat) (hq : Keeps ⟨qq, mm, cc⟩ s) :
    Keeps ⟨qq, mm, cc⟩ (State.setPoint s n d v) := by
  unfold State.setPoint
  refine Keeps.ite (fun _ => ?_) (fun _ => ?_)
  refine State.wr_keeps (hq := ?_) ..
  exact hq
  refine State.wr_keeps (hq := ?_) ..
  exact hq

theorem State.startMove_keeps {qq : List Instr} {mm : Option Memory} {cc : Option Chip} (s : State) (n : Nat) (d : Nat) (p : Nat) (hq : Keeps ⟨qq, mm, cc⟩ s) :
    Keeps ⟨qq, mm, cc⟩ (State.startMove s n d p) := by
  unfold State.startMove
  extract_lets x1 x2
  have h3 : Keeps ⟨qq, mm, cc⟩ x2 := ?_
  refine State.modKet_keeps (hq := ?_) ..
  exact h3
  dsimp -zeta only [x2]
  have h4 : Keeps ⟨qq, mm, cc⟩ x1 := ?_
  refine Keeps.ite (fun _ => ?_) (fun _ => ?_)
  refine State.setPoint_keeps (hq := ?_) ..
  exact h4
  exact h4
  dsimp -zeta only [x1]
  refine State.wr_keeps (hq := ?_) ..
  refine State.setBusy_keeps (hq := ?_) ..
  exact hq

theorem State.raiseInitial_keeps {qq : List Instr} {mm : Option Memory} {cc : Option Chip} (s : State) (n : Nat) (hq : Keeps ⟨qq, mm, cc⟩ s) :
    Keeps ⟨qq, mm, cc⟩ (State.raiseInitial s n) := by
  unfold State.raiseInitial
  refine State.startMove_keeps (hq := ?_) ..
  refine State.startMove_keeps (hq := ?_) ..
  exact hq

theorem State.takeDown_keeps {qq : List Instr} {mm : Option Memory} {cc : Option Chip} (s : State) (n : Nat) (hq : Keeps ⟨qq, mm, cc⟩ s) :
    Keeps ⟨qq, mm, cc⟩ (State.takeDown s n) := by
  unfold State.takeDown
  refine Keeps.ite (fun _ => ?_) (fun _ => ?_)
  exact hq
  extract_lets x1 x2
  have h3 : Keeps ⟨qq, mm, cc⟩ x1 := ?_
  refine State.missAll_keeps (hq := ?_) ..
  exact h3
  dsimp -zeta only [x1]
  refine State.raise_keeps (hq := ?_) ..
  exact hq

theorem State.askDown_keeps {qq : List Instr} {mm : Option Memory} {cc : Option Chip} (s : State) (n : Nat) (hq : Keeps ⟨qq, mm, cc⟩ s) :
    Keeps ⟨qq, mm, cc⟩ (State.askDown s n).2 := by
  unfold State.askDown
  split
  dsimp -zeta only
  refine State.takeDown_keeps (hq := ?_) ..
  exact hq
  dsimp -zeta only
  refine Keeps.ite (fun _ => ?_) (fun _ => ?_)
  exact hq
  refine State.modKet_keeps (hq := ?_) ..
  exact hq
  exact hq

theorem State.sensorBroken_keeps {qq : List Instr} {mm : Option Memory} {cc : Option Chip} (s : State) (x : Nat) (reason : Nat) (hq : Keeps ⟨qq, mm, cc⟩ s) :
    Keeps ⟨qq, mm, cc⟩ (State.sensorBroken s x reason) := by
  unfold State.sensorBroken
  refine Keeps.ite (fun _ => ?_) (fun _ => ?_)
  exact hq
  extract_lets x1 x2 x3 x4 x5 x6 x7 x8
  have h9 : Keeps ⟨qq, mm, cc⟩ x6 := ?_
  have h10 : Keeps ⟨qq, mm, cc⟩ x8 := ?_
  refine Keeps.ite (fun _ => ?_) (fun _ => ?_)
  refine State.degrade_keeps (hq := ?_) ..
  exact h10
  exact h9
  dsimp -zeta only [x8]
  have h11 : Keeps ⟨qq, mm, cc⟩ x7 := ?_
  refine Keeps.ite (fun _ => ?_) (fun _ => ?_)
  refine State.raise_keeps (hq := ?_) ..
  exact h11
  exact h11
  dsimp -zeta only [x7]
  refine State.raise_keeps (hq := ?_) ..
  refine State.raise_keeps (hq := ?_) ..
  exact h9
  dsimp -zeta only [x6]
  have h12 : Keeps ⟨qq, mm, cc⟩ x4 := ?_
  refine State.logEv_keeps (hq := ?_) ..
  exact h12
  dsimp -zeta only [x4]
  have h13 : Keeps ⟨qq, mm, cc⟩ x3 := ?_
  refine State.raise_keeps (hq := ?_) ..
  refine Keeps.ite (fun _ => ?_) (fun _ => ?_)
  refine State.raise_keeps (hq := ?_) ..
  exact h13
  refine State.raise_keeps (hq := ?_) ..
  exact h13
  dsimp -zeta only [x3]
  refine Keeps.mk_other ?_
  exact hq

theorem State.askSensor_keeps {qq : List Instr} {mm : Option Memory} {cc : Option Chip} (s : State) (x : Nat) (hq : Keeps ⟨qq, mm, cc⟩ s) :
    Keeps ⟨qq, mm, cc⟩ (State.askSensor s x) := by
  unfold State.askSensor
  extract_lets x1
  refine Keeps.ite (fun _ => ?_) (fun _ => ?_)
  exact hq
  refine State.modBist_keeps (hq := ?_) ..
  exact hq

theorem State.askSite_keeps {qq : List Instr} {mm : Option Memory} {cc : Option Chip} (s : State) (x : Nat) (hq : Keeps ⟨qq, mm, cc⟩ s) :
    Keeps ⟨qq, mm, cc⟩ (State.askSite s x) := by
  unfold State.askSite
  extract_lets x1 x2
  have h3 : Keeps ⟨qq, mm, cc⟩ x1 := ?_
  refine Keeps.mk_other ?_
  exact h3
  dsimp -zeta only [x1]
  refine State.askSensor_keeps (hq := ?_) ..
  refine State.askSensor_keeps (hq := ?_) ..
  exact hq

theorem State.askPoint_keeps {qq : List Instr} {mm : Option Memory} {cc : Option Chip} (s : State) (v : Nat) (hq : Keeps ⟨qq, mm, cc⟩ s) :
    Keeps ⟨qq, mm, cc⟩ (State.askPoint s v) := by
  unfold State.askPoint
  extract_lets x1
  refine Keeps.ite (fun _ => ?_) (fun _ => ?_)
  refine State.raise_keeps (hq := ?_) ..
  exact hq
  refine State.kettleQueue_keeps (hq := ?_) ..
  exact hq

theorem State.askWake_keeps {qq : List Instr} {mm : Option Memory} {cc : Option Chip} (s : State) (v : Nat) (hq : Keeps ⟨qq, mm, cc⟩ s) :
    Keeps ⟨qq, mm, cc⟩ (State.askWake s v) := by
  unfold State.askWake
  extract_lets x1
  refine Keeps.ite (fun _ => ?_) (fun _ => ?_)
  refine State.raise_keeps (hq := ?_) ..
  exact hq
  refine State.kettleQueue_keeps (hq := ?_) ..
  exact hq

theorem State.askPowerDown_keeps {qq : List Instr} {mm : Option Memory} {cc : Option Chip} (s : State) (v : Nat) (hq : Keeps ⟨qq, mm, cc⟩ s) :
    Keeps ⟨qq, mm, cc⟩ (State.askPowerDown s v) := by
  unfold State.askPowerDown
  split
  refine Keeps.snd_eq (by assumption) ?_
  refine State.askDown_keeps (hq := ?_) ..
  exact hq
  refine State.raise_keeps (hq := ?_) ..
  refine Keeps.snd_eq (by assumption) ?_
  refine State.askDown_keeps (hq := ?_) ..
  exact hq

theorem State.writePwrReq_keeps {qq : List Instr} {mm : Option Memory} {cc : Option Chip} (s : State) (v : Nat) (hq : Keeps ⟨qq, mm, cc⟩ s) :
    Keeps ⟨qq, mm, cc⟩ (State.writePwrReq s v) := by
  unfold State.writePwrReq
  refine Keeps.ite (fun _ => ?_) (fun _ => ?_)
  exact hq
  split
  refine State.askPoint_keeps (hq := ?_) ..
  exact hq
  refine State.askWake_keeps (hq := ?_) ..
  exact hq
  refine State.askPowerDown_keeps (hq := ?_) ..
  exact hq
  refine State.raise_keeps (hq := ?_) ..
  exact hq

theorem execPointChangeRequest_keeps {qq : List Instr} {mm : Option Memory} {cc : Option Chip} (x : Accessor) (v : Word) (s : State) (hq : Keeps ⟨qq, mm, cc⟩ s) :
    KeepsO ⟨qq, mm, cc⟩ (execPointChangeRequest x v s) := by
  unfold execPointChangeRequest
  refine KeepsO.next ?_
  refine Keeps.ite (fun _ => ?_) (fun _ => ?_)
  refine State.askPoint_keeps (hq := ?_) ..
  exact hq
  exact hq

theorem execWakeRequest_keeps {qq : List Instr} {mm : Option Memory} {cc : Option Chip} (x : Accessor) (v : Word) (s : State) (hq : Keeps ⟨qq, mm, cc⟩ s) :
    KeepsO ⟨qq, mm, cc⟩ (execWakeRequest x v s) := by
  unfold execWakeRequest
  refine KeepsO.next ?_
  refine Keeps.ite (fun _ => ?_) (fun _ => ?_)
  refine State.askWake_keeps (hq := ?_) ..
  exact hq
  exact hq

theorem execPowerDownRequest_keeps {qq : List Instr} {mm : Option Memory} {cc : Option Chip} (x : Accessor) (v : Word) (s : State) (hq : Keeps ⟨qq, mm, cc⟩ s) :
    KeepsO ⟨qq, mm, cc⟩ (execPowerDownRequest x v s) := by
  unfold execPowerDownRequest
  refine KeepsO.next ?_
  refine Keeps.ite (fun _ => ?_) (fun _ => ?_)
  refine State.askPowerDown_keeps (hq := ?_) ..
  exact hq
  exact hq

theorem execDvfs_keeps {qq : List Instr} {mm : Option Memory} {cc : Option Chip} (n : Fin 64) (s : State) (hq : Keeps ⟨qq, mm, cc⟩ s) :
    KeepsO ⟨qq, mm, cc⟩ (execDvfs n s) := by
  unfold execDvfs
  split
  refine KeepsO.next ?_
  exact hq
  split
  refine KeepsO.next ?_
  refine KeepsQ.of (by assumption) ?_
  refine State.takeAction_keeps (hq := ?_) ..
  exact hq
  extract_lets x1 x2
  have h3 : Keeps ⟨qq, mm, cc⟩ x2 := ?_
  refine KeepsO.next ?_
  refine State.kettleQueue_keeps (hq := ?_) ..
  exact h3
  dsimp -zeta only [x2]
  refine State.modEvt_keeps (hq := ?_) ..
  refine KeepsQ.of (by assumption) ?_
  refine State.takeAction_keeps (hq := ?_) ..
  exact hq

theorem State.admitted_keeps {qq : List Instr} {mm : Option Memory} {cc : Option Chip} (s : State) (q : KReq) (hq : Keeps ⟨qq, mm, cc⟩ s) :
    Keeps ⟨qq, mm, cc⟩ (State.admitted s q) := by
  unfold State.admitted
  split
  split
  exact hq
  extract_lets x1
  have h2 : Keeps ⟨qq, mm, cc⟩ x1 := ?_
  refine State.closeOcc_keeps (hq := ?_) ..
  exact h2
  dsimp -zeta only [x1]
  refine State.dropPend_keeps (hq := ?_) ..
  exact hq
  extract_lets x3
  refine Keeps.ite (fun _ => ?_) (fun _ => ?_)
  refine State.logEv_keeps (hq := ?_) ..
  refine State.raise_keeps (hq := ?_) ..
  exact hq
  exact hq

theorem State.startWake_keeps {qq : List Instr} {mm : Option Memory} {cc : Option Chip} (s : State) (q : KReq) (hq : Keeps ⟨qq, mm, cc⟩ s) :
    Keeps ⟨qq, mm, cc⟩ (State.startWake s q) := by
  unfold State.startWake
  extract_lets x1 x2 x3
  have h4 : Keeps ⟨qq, mm, cc⟩ x3 := ?_
  refine Keeps.ite (fun _ => ?_) (fun _ => ?_)
  refine State.replaced_keeps (hq := ?_) ..
  exact hq
  refine State.modKet_keeps (hq := ?_) ..
  exact h4
  dsimp -zeta only [x3]
  have h5 : Keeps ⟨qq, mm, cc⟩ x2 := ?_
  refine State.modScrRgn_keeps (hq := ?_) ..
  refine State.wr_keeps (hq := ?_) ..
  exact h5
  dsimp -zeta only [x2]
  refine State.toLoading_keeps (hq := ?_) ..
  refine State.wr_keeps (hq := ?_) ..
  refine State.wr_keeps (hq := ?_) ..
  exact hq

theorem State.startRequest_keeps {qq : List Instr} {mm : Option Memory} {cc : Option Chip} (s : State) (q : KReq) (hq : Keeps ⟨qq, mm, cc⟩ s) :
    Keeps ⟨qq, mm, cc⟩ (State.startRequest s q) := by
  unfold State.startRequest
  split
  refine State.startWake_keeps (hq := ?_) ..
  exact hq
  refine State.startMove_keeps (hq := ?_) ..
  refine State.startMove_keeps (hq := ?_) ..
  exact hq
  refine Keeps.foldl (fun t1 y2 h3 => ?_) ?_
  refine Keeps.ite (fun _ => ?_) (fun _ => ?_)
  exact h3
  refine State.startMove_keeps (hq := ?_) ..
  exact h3
  exact hq

theorem execKettleAdmit_keeps {qq : List Instr} {mm : Option Memory} {cc : Option Chip} (s : State) (hq : Keeps ⟨qq, mm, cc⟩ s) :
    KeepsO ⟨qq, mm, cc⟩ (execKettleAdmit s) := by
  unfold execKettleAdmit
  refine KeepsO.ite (fun _ => ?_) (fun _ => ?_)
  refine KeepsO.next ?_
  exact hq
  split
  refine KeepsO.ite (fun _ => ?_) (fun _ => ?_)
  refine KeepsO.next ?_
  refine State.raiseInitial_keeps (hq := ?_) ..
  refine State.modKet_keeps (hq := ?_) ..
  refine State.spend_keeps (hq := ?_) ..
  exact hq
  refine KeepsO.next ?_
  exact hq
  split
  refine KeepsO.next ?_
  exact hq
  extract_lets x1
  have h2 : Keeps ⟨qq, mm, cc⟩ x1 := ?_
  refine KeepsO.next ?_
  refine State.startRequest_keeps (hq := ?_) ..
  refine State.admitted_keeps (hq := ?_) ..
  exact h2
  dsimp -zeta only [x1]
  refine State.modKet_keeps (hq := ?_) ..
  refine State.spend_keeps (hq := ?_) ..
  exact hq

theorem execPointChangeDone_keeps {qq : List Instr} {mm : Option Memory} {cc : Option Chip} (n : Fin 64) (d : Fin 2) (s : State) (hq : Keeps ⟨qq, mm, cc⟩ s) :
    KeepsO ⟨qq, mm, cc⟩ (execPointChangeDone n d s) := by
  unfold execPointChangeDone
  split
  refine KeepsO.next ?_
  exact hq
  refine KeepsO.next ?_
  refine State.setBusy_keeps (hq := ?_) ..
  refine State.setPoint_keeps (hq := ?_) ..
  refine State.modKet_keeps (hq := ?_) ..
  exact hq

theorem execWakeZeroingDone_keeps {qq : List Instr} {cc : Option Chip} (n : Fin 64) (s : State) (hq : Keeps ⟨qq, none, cc⟩ s) :
    KeepsO ⟨qq, none, cc⟩ (execWakeZeroingDone n s) := by
  unfold execWakeZeroingDone
  split
  refine KeepsO.next ?_
  exact hq
  extract_lets x1 x2 x3
  have h4 : Keeps ⟨qq, none, cc⟩ x1 := ?_
  refine KeepsO.next ?_
  refine Keeps.mk_other ?_
  exact h4
  dsimp -zeta only [x1]
  refine State.zeroRegion_keeps (hq := ?_) ..
  refine State.modKet_keeps (hq := ?_) ..
  exact hq

theorem execEarlyWakeCheck_keeps {qq : List Instr} {mm : Option Memory} {cc : Option Chip} (s : State) (hq : Keeps ⟨qq, mm, cc⟩ s) :
    KeepsO ⟨qq, mm, cc⟩ (execEarlyWakeCheck s) := by
  unfold execEarlyWakeCheck
  refine KeepsO.ite (fun _ => ?_) (fun _ => ?_)
  refine KeepsO.next ?_
  exact hq
  extract_lets x1
  refine KeepsO.next ?_
  refine Keeps.foldl (fun t2 y3 h4 => ?_) ?_
  extract_lets x5 x6 x7 x8 x9
  have h10 : Keeps ⟨qq, mm, cc⟩ x9 := ?_
  refine Keeps.ite (fun _ => ?_) (fun _ => ?_)
  refine State.kettleQueue_keeps (hq := ?_) ..
  exact h10
  exact h4
  dsimp -zeta only [x9]
  refine Keeps.mk_other ?_
  exact h4
  exact hq

theorem execPowerDownWaitEnd_keeps {qq : List Instr} {cc : Option Chip} (n : Fin 64) (s : State) (hq : Keeps ⟨qq, none, cc⟩ s) :
    KeepsO ⟨qq, none, cc⟩ (execPowerDownWaitEnd n s) := by
  unfold execPowerDownWaitEnd
  refine KeepsO.ite (fun _ => ?_) (fun _ => ?_)
  refine KeepsO.next ?_
  exact hq
  extract_lets x1 x2 x3 x4 x5 x6
  have h7 : Keeps ⟨qq, none, cc⟩ x6 := ?_
  refine KeepsO.next ?_
  refine State.requestMark_keeps (hq := ?_) ..
  exact h7
  dsimp -zeta only [x6]
  have h8 : Keeps ⟨qq, none, cc⟩ x5 := ?_
  refine State.modNi_keeps (hq := ?_) ..
  exact h8
  dsimp -zeta only [x5]
  have h9 : Keeps ⟨qq, none, cc⟩ x4 := ?_
  refine State.leaveActive_keeps (hq := ?_) ..
  refine State.haltEngines_keeps (hq := ?_) ..
  exact h9
  dsimp -zeta only [x4]
  have h10 : Keeps ⟨qq, none, cc⟩ x3 := ?_
  refine State.modSch_keeps (hq := ?_) ..
  exact h10
  dsimp -zeta only [x3]
  have h11 : Keeps ⟨qq, none, cc⟩ x1 := ?_
  refine Keeps.ite (fun _ => ?_) (fun _ => ?_)
  exact h11
  refine State.logEvLimited_keeps (hq := ?_) ..
  exact h11
  dsimp -zeta only [x1]
  refine State.schFence_keeps (hq := ?_) ..
  exact hq

theorem execDrainComplete_keeps {qq : List Instr} {cc : Option Chip} (n : Fin 64) (s : State) (hq : Keeps ⟨qq, none, cc⟩ s) :
    KeepsO ⟨qq, none, cc⟩ (execDrainComplete n s) := by
  unfold execDrainComplete
  refine KeepsO.ite (fun _ => ?_) (fun _ => ?_)
  refine KeepsO.next ?_
  exact hq
  extract_lets x1 x2 x3
  have h4 : Keeps ⟨qq, none, cc⟩ x3 := ?_
  refine KeepsO.next ?_
  refine State.modNi_keeps (hq := ?_) ..
  exact h4
  dsimp -zeta only [x3]
  have h5 : Keeps ⟨qq, none, cc⟩ x2 := ?_
  refine State.wr_keeps (hq := ?_) ..
  refine State.wr_keeps (hq := ?_) ..
  refine State.wr_keeps (hq := ?_) ..
  exact h5
  dsimp -zeta only [x2]
  have h6 : Keeps ⟨qq, none, cc⟩ x1 := ?_
  refine State.toDark_keeps (hq := ?_) ..
  exact h6
  dsimp -zeta only [x1]
  refine State.logEv_keeps (hq := ?_) ..
  exact hq

theorem execPowerMeasure_keeps {qq : List Instr} {mm : Option Memory} {cc : Option Chip} (vin : BitVec 16) (iin : BitVec 16) (inp : BitVec 16) (stk : BitVec 16) (s : State) (hq : Keeps ⟨qq, mm, cc⟩ s) :
    KeepsO ⟨qq, mm, cc⟩ (execPowerMeasure vin iin inp stk s) := by
  unfold execPowerMeasure
  refine KeepsO.ite (fun _ => ?_) (fun _ => ?_)
  refine KeepsO.next ?_
  exact hq
  extract_lets x1 x2 x3
  have h4 : Keeps ⟨qq, mm, cc⟩ x1 := ?_
  refine KeepsO.next ?_
  refine State.modKet_keeps (hq := ?_) ..
  exact h4
  dsimp -zeta only [x1]
  refine State.wr_keeps (hq := ?_) ..
  refine State.wr_keeps (hq := ?_) ..
  refine State.wr_keeps (hq := ?_) ..
  refine State.wr_keeps (hq := ?_) ..
  exact hq

theorem execPowerThrottleStep_keeps {qq : List Instr} {mm : Option Memory} {cc : Option Chip} (s : State) (hq : Keeps ⟨qq, mm, cc⟩ s) :
    KeepsO ⟨qq, mm, cc⟩ (execPowerThrottleStep s) := by
  unfold execPowerThrottleStep
  refine KeepsO.ite (fun _ => ?_) (fun _ => ?_)
  refine KeepsO.next ?_
  exact hq
  extract_lets x1 x2
  refine KeepsO.next ?_
  refine State.wr_keeps (hq := ?_) ..
  refine State.modKet_keeps (hq := ?_) ..
  exact hq

theorem execCurrentLimit_keeps {qq : List Instr} {mm : Option Memory} {cc : Option Chip} (iin : BitVec 16) (s : State) (hq : Keeps ⟨qq, mm, cc⟩ s) :
    KeepsO ⟨qq, mm, cc⟩ (execCurrentLimit iin s) := by
  unfold execCurrentLimit
  refine KeepsO.ite (fun _ => ?_) (fun _ => ?_)
  refine KeepsO.next ?_
  exact hq
  extract_lets x1
  have h2 : Keeps ⟨qq, mm, cc⟩ x1 := ?_
  refine KeepsO.next ?_
  refine State.logEv_keeps (hq := ?_) ..
  exact h2
  dsimp -zeta only [x1]
  refine State.raise_keeps (hq := ?_) ..
  refine State.wr_keeps (hq := ?_) ..
  refine State.modKet_keeps (hq := ?_) ..
  exact hq

theorem State.phaseFails_keeps {qq : List Instr} (s : State) (r : Nat) (p : Nat) (reason : Nat) (hq : Keeps ⟨qq, none, none⟩ s) :
    Keeps ⟨qq, none, none⟩ (State.phaseFails s r p reason) := by
  unfold State.phaseFails
  refine Keeps.ite (fun _ => ?_) (fun _ => ?_)
  exact hq
  extract_lets x1 x2 x3 x4 x5 x6
  have h7 : Keeps ⟨qq, none, none⟩ x6 := ?_
  refine Keeps.ite (fun _ => ?_) (fun _ => ?_)
  refine State.doubt_keeps (hq := ?_) ..
  exact h7
  exact h7
  dsimp -zeta only [x6]
  have h8 : Keeps ⟨qq, none, none⟩ x5 := ?_
  refine State.journal_keeps (hq := ?_) ..
  exact h8
  dsimp -zeta only [x5]
  have h9 : Keeps ⟨qq, none, none⟩ x1 := ?_
  refine State.logEv_keeps (hq := ?_) ..
  refine State.raise_keeps (hq := ?_) ..
  exact h9
  dsimp -zeta only [x1]
  refine State.modKet_keeps (hq := ?_) ..
  exact hq

theorem execPhaseFailure_keeps {qq : List Instr} (r : Fin 137) (p : Fin 16) (reason : Fin 4) (s : State) (hq : Keeps ⟨qq, none, none⟩ s) :
    KeepsO ⟨qq, none, none⟩ (execPhaseFailure r p reason s) := by
  unfold execPhaseFailure
  refine KeepsO.ite (fun _ => ?_) (fun _ => ?_)
  exact KeepsO.refused
  refine KeepsO.ite (fun _ => ?_) (fun _ => ?_)
  refine KeepsO.next ?_
  exact hq
  refine KeepsO.next ?_
  refine State.phaseFails_keeps (hq := ?_) ..
  exact hq

theorem State.sampleSite_keeps {qq : List Instr} (s : State) (x : SiteRead) (hq : Keeps ⟨qq, none, none⟩ s) :
    Keeps ⟨qq, none, none⟩ (State.sampleSite s x) := by
  unfold State.sampleSite
  extract_lets x1 x2 x3 x4 x5 x6 x7 x8 x9 x10 x11
  have h12 : Keeps ⟨qq, none, none⟩ x11 := ?_
  split
  exact h12
  extract_lets x13 x14 x15 x16 x17
  have h18 : Keeps ⟨qq, none, none⟩ x17 := ?_
  refine Keeps.ite (fun _ => ?_) (fun _ => ?_)
  refine State.doubt_keeps (hq := ?_) ..
  exact h18
  exact h18
  dsimp -zeta only [x17]
  have h19 : Keeps ⟨qq, none, none⟩ x13 := ?_
  refine Keeps.mk_other ?_
  exact h19
  dsimp -zeta only [x13]
  refine State.wr_keeps (hq := ?_) ..
  exact h12
  dsimp -zeta only [x11]
  have h20 : Keeps ⟨qq, none, none⟩ x10 := ?_
  refine Keeps.ite (fun _ => ?_) (fun _ => ?_)
  refine State.askSite_keeps (hq := ?_) ..
  exact h20
  exact h20
  dsimp -zeta only [x10]
  have h21 : Keeps ⟨qq, none, none⟩ x6 := ?_
  refine Keeps.mk_other ?_
  exact h21
  dsimp -zeta only [x6]
  have h22 : Keeps ⟨qq, none, none⟩ x5 := ?_
  refine Keeps.ite (fun _ => ?_) (fun _ => ?_)
  refine State.sensorBroken_keeps (hq := ?_) ..
  exact h22
  exact h22
  dsimp -zeta only [x5]
  have h23 : Keeps ⟨qq, none, none⟩ x4 := ?_
  refine Keeps.ite (fun _ => ?_) (fun _ => ?_)
  refine State.sensorBroken_keeps (hq := ?_) ..
  exact h23
  exact h23
  dsimp -zeta only [x4]
  refine Keeps.mk_other ?_
  exact hq

theorem State.judgeWarn_keeps {qq : List Instr} {mm : Option Memory} {cc : Option Chip} (s : State) (key : Nat) (t : Option Int) (hq : Keeps ⟨qq, mm, cc⟩ s) :
    Keeps ⟨qq, mm, cc⟩ (State.judgeWarn s key t) := by
  unfold State.judgeWarn
  split
  exact hq
  extract_lets x1 x2 x3 x4 x5 x6
  have h7 : Keeps ⟨qq, mm, cc⟩ x4 := ?_
  have h8 : Keeps ⟨qq, mm, cc⟩ x6 := ?_
  refine Keeps.ite (fun _ => ?_) (fun _ => ?_)
  exact h7
  refine Keeps.ite (fun _ => ?_) (fun _ => ?_)
  refine State.logEv_keeps (hq := ?_) ..
  exact h8
  exact h8
  dsimp -zeta only [x6]
  refine Keeps.mk_other ?_
  exact h7
  dsimp -zeta only [x4]
  refine Keeps.ite (fun _ => ?_) (fun _ => ?_)
  refine State.wr_keeps (hq := ?_) ..
  refine State.wr_keeps (hq := ?_) ..
  exact hq
  exact hq

theorem execTempSample_keeps {qq : List Instr} (l : List SiteRead) (s : State) (hq : Keeps ⟨qq, none, none⟩ s) :
    KeepsO ⟨qq, none, none⟩ (execTempSample l s) := by
  unfold execTempSample
  refine KeepsO.ite (fun _ => ?_) (fun _ => ?_)
  refine KeepsO.next ?_
  exact hq
  extract_lets x1 x2 x3 x4
  have h5 : Keeps ⟨qq, none, none⟩ x1 := ?_
  have h6 : Keeps ⟨qq, none, none⟩ x4 := ?_
  refine KeepsO.ite (fun _ => ?_) (fun _ => ?_)
  refine KeepsO.next ?_
  exact h5
  refine KeepsO.next ?_
  split
  refine State.wr_keeps (hq := ?_) ..
  refine State.wr_keeps (hq := ?_) ..
  exact h6
  exact h6
  dsimp -zeta only [x4]
  have h7 : Keeps ⟨qq, none, none⟩ x3 := ?_
  refine State.wr_keeps (hq := ?_) ..
  exact h7
  dsimp -zeta only [x3]
  have h8 : Keeps ⟨qq, none, none⟩ x2 := ?_
  refine Keeps.ite (fun _ => ?_) (fun _ => ?_)
  exact h5
  refine Keeps.foldl (fun t9 y10 h11 => ?_) ?_
  refine State.judgeWarn_keeps (hq := ?_) ..
  exact h11
  exact h8
  dsimp -zeta only [x2]
  refine Keeps.foldl (fun t12 y13 h14 => ?_) ?_
  refine State.judgeWarn_keeps (hq := ?_) ..
  exact h14
  exact h5
  dsimp -zeta only [x1]
  refine Keeps.foldl (fun t15 y16 h17 => ?_) ?_
  refine State.sampleSite_keeps (hq := ?_) ..
  exact h17
  exact hq

theorem execThermalSkipStep_keeps {qq : List Instr} {mm : Option Memory} {cc : Option Chip} (s : State) (hq : Keeps ⟨qq, mm, cc⟩ s) :
    KeepsO ⟨qq, mm, cc⟩ (execThermalSkipStep s) := by
  unfold execThermalSkipStep
  refine KeepsO.ite (fun _ => ?_) (fun _ => ?_)
  refine KeepsO.next ?_
  exact hq
  extract_lets x1 x2
  have h3 : Keeps ⟨qq, mm, cc⟩ x2 := ?_
  refine KeepsO.next ?_
  refine State.wr_keeps (hq := ?_) ..
  exact h3
  dsimp -zeta only [x2]
  refine Keeps.foldl (fun t4 y5 h6 => ?_) ?_
  dsimp -zeta only [x1]
  extract_lets x7 x8 x9 x10 x11
  refine State.wr_keeps (hq := ?_) ..
  refine State.wr_keeps (hq := ?_) ..
  exact h6
  exact hq

theorem execDivisionStart_keeps {qq : List Instr} {mm : Option Memory} {cc : Option Chip} (n : Fin 64) (s : State) (hq : Keeps ⟨qq, mm, cc⟩ s) :
    KeepsO ⟨qq, mm, cc⟩ (execDivisionStart n s) := by
  unfold execDivisionStart
  refine KeepsO.ite (fun _ => ?_) (fun _ => ?_)
  refine KeepsO.next ?_
  exact hq
  refine KeepsO.next ?_
  refine State.logEv_keeps (hq := ?_) ..
  refine State.raise_keeps (hq := ?_) ..
  refine State.modKet_keeps (hq := ?_) ..
  exact hq

theorem execDivisionEnd_keeps {qq : List Instr} {mm : Option Memory} {cc : Option Chip} (s : State) (hq : Keeps ⟨qq, mm, cc⟩ s) :
    KeepsO ⟨qq, mm, cc⟩ (execDivisionEnd s) := by
  unfold execDivisionEnd
  split
  refine KeepsO.next ?_
  exact hq
  refine KeepsO.ite (fun _ => ?_) (fun _ => ?_)
  refine KeepsO.next ?_
  refine State.logEv_keeps (hq := ?_) ..
  refine State.wr_keeps (hq := ?_) ..
  refine State.modKet_keeps (hq := ?_) ..
  exact hq
  refine KeepsO.next ?_
  exact hq

theorem execSensorStuck_keeps {qq : List Instr} {mm : Option Memory} {cc : Option Chip} (x : Fin 416) (s : State) (hq : Keeps ⟨qq, mm, cc⟩ s) :
    KeepsO ⟨qq, mm, cc⟩ (execSensorStuck x s) := by
  unfold execSensorStuck
  refine KeepsO.next ?_
  refine Keeps.ite (fun _ => ?_) (fun _ => ?_)
  refine State.sensorBroken_keeps (hq := ?_) ..
  exact hq
  exact hq

theorem execSensorRecheck_keeps {qq : List Instr} {mm : Option Memory} {cc : Option Chip} (x : Fin 208) (s : State) (hq : Keeps ⟨qq, mm, cc⟩ s) :
    KeepsO ⟨qq, mm, cc⟩ (execSensorRecheck x s) := by
  unfold execSensorRecheck
  refine KeepsO.ite (fun _ => ?_) (fun _ => ?_)
  refine KeepsO.next ?_
  refine State.askSite_keeps (hq := ?_) ..
  exact hq
  refine KeepsO.next ?_
  exact hq

theorem execHaltSensorRead_keeps {qq : List Instr} {mm : Option Memory} {cc : Option Chip} (l : List SiteRead) (s : State) (hq : Keeps ⟨qq, mm, cc⟩ s) :
    KeepsO ⟨qq, mm, cc⟩ (execHaltSensorRead l s) := by
  unfold execHaltSensorRead
  refine KeepsO.ite (fun _ => ?_) (fun _ => ?_)
  refine KeepsO.next ?_
  exact hq
  extract_lets x1
  have h2 : Keeps ⟨qq, mm, cc⟩ x1 := ?_
  refine KeepsO.next ?_
  split
  refine State.modKet_keeps (hq := ?_) ..
  exact h2
  exact h2
  dsimp -zeta only [x1]
  refine Keeps.foldl (fun t3 y4 h5 => ?_) ?_
  refine Keeps.mk_other ?_
  exact h5
  exact hq

theorem execAutoRestart_keeps {qq : List Instr} (s : State) (hq : Keeps ⟨qq, none, none⟩ s) :
    KeepsO ⟨qq, none, none⟩ (execAutoRestart s) := by
  unfold execAutoRestart
  refine KeepsO.ite (fun _ => ?_) (fun _ => ?_)
  refine KeepsO.next ?_
  exact hq
  refine KeepsO.ite (fun _ => ?_) (fun _ => ?_)
  refine KeepsO.next ?_
  refine State.raise_keeps (hq := ?_) ..
  exact hq
  refine KeepsO.next ?_
  refine State.toPor_keeps (hq := ?_) ..
  refine State.modKet_keeps (hq := ?_) ..
  exact hq

end

end Sys2Proof.Machine
end

