-- ==== Sys2Proof/Laws/KeepsLinks.lean ====
section
/-! SUPPORT. Keeps (Laws/Keeps) for external memory, clocks, migration points, Kraerlink:
one lemma per function, each from those of the functions it calls. -/

namespace Sys2Proof.Machine

section

set_option simprocs false

theorem State.modXmc_keeps {qq : List Instr} {mm : Option Memory} {cc : Option Chip} (s : State) (f : Xmc → Xmc) (hq : Keeps ⟨qq, mm, cc⟩ s) :
    Keeps ⟨qq, mm, cc⟩ (State.modXmc s f) := by
  unfold State.modXmc
  refine Keeps.mk_other ?_
  exact hq

theorem State.channelDown_keeps {qq : List Instr} {mm : Option Memory} {cc : Option Chip} (s : State) (c : Nat) (reason : Nat) (hq : Keeps ⟨qq, mm, cc⟩ s) :
    Keeps ⟨qq, mm, cc⟩ (State.channelDown s c reason) := by
  unfold State.channelDown
  refine State.degrade_keeps (hq := ?_) ..
  refine State.logEv_keeps (hq := ?_) ..
  refine State.wr_keeps (hq := ?_) ..
  exact hq

theorem State.allChannelsDown_keeps {qq : List Instr} {mm : Option Memory} {cc : Option Chip} (s : State) (hq : Keeps ⟨qq, mm, cc⟩ s) :
    Keeps ⟨qq, mm, cc⟩ (State.allChannelsDown s) := by
  unfold State.allChannelsDown
  extract_lets x1
  have h2 : Keeps ⟨qq, mm, cc⟩ x1 := ?_
  refine State.degrade_keeps (hq := ?_) ..
  refine State.logEv_keeps (hq := ?_) ..
  exact h2
  dsimp -zeta only [x1]
  refine Keeps.foldl (fun t3 y4 h5 => ?_) ?_
  refine State.wr_keeps (hq := ?_) ..
  exact h5
  exact hq

theorem State.secAlarm_keeps {qq : List Instr} (s : State) (src : Nat) (hq : Keeps ⟨qq, none, none⟩ s) :
    Keeps ⟨qq, none, none⟩ (State.secAlarm s src) := by
  unfold State.secAlarm
  extract_lets x1 x2 x3
  have h4 : Keeps ⟨qq, none, none⟩ x3 := ?_
  refine Keeps.ite (fun _ => ?_) (fun _ => ?_)
  refine State.doubt_keeps (hq := ?_) ..
  exact h4
  exact h4
  dsimp -zeta only [x3]
  have h5 : Keeps ⟨qq, none, none⟩ x1 := ?_
  refine State.logEvLimited_keeps (hq := ?_) ..
  exact h5
  dsimp -zeta only [x1]
  refine State.wr_keeps (hq := ?_) ..
  refine State.bump_keeps (hq := ?_) ..
  refine State.raise_keeps (hq := ?_) ..
  exact hq

theorem State.tagFailed_keeps {qq : List Instr} {mm : Option Memory} {cc : Option Chip} (s : State) (la : Nat) (key : Nat) (case : Nat) (hq : Keeps ⟨qq, mm, cc⟩ s) :
    Keeps ⟨qq, mm, cc⟩ (State.tagFailed s la key case) := by
  unfold State.tagFailed
  refine State.logEvLimited_keeps (hq := ?_) ..
  refine State.raise_keeps (hq := ?_) ..
  refine State.bump_keeps (hq := ?_) ..
  exact hq

theorem State.xmBlock_keeps {qq : List Instr} {mm : Option Memory} {cc : Option Chip} (s : State) (a : Nat) (key : Nat) (reason : Nat) (hq : Keeps ⟨qq, mm, cc⟩ s) :
    Keeps ⟨qq, mm, cc⟩ (State.xmBlock s a key reason) := by
  unfold State.xmBlock
  refine State.logEvLimited_keeps (hq := ?_) ..
  refine State.raise_keeps (hq := ?_) ..
  refine State.bump_keeps (hq := ?_) ..
  exact hq

theorem State.cacheLines_keeps {qq : List Instr} {mm : Option Memory} {cc : Option Chip} (s : State) (c : Nat) (ids : List Nat) (hq : Keeps ⟨qq, mm, cc⟩ s) :
    Keeps ⟨qq, mm, cc⟩ (State.cacheLines s c ids) := by
  unfold State.cacheLines
  extract_lets x1 x2
  refine State.modXmc_keeps (hq := ?_) ..
  refine State.wr_keeps (hq := ?_) ..
  exact hq

theorem State.touchMeta_keeps {qq : List Instr} {mm : Option Memory} {cc : Option Chip} (s : State) (la : Nat) (prot : Bool) (hq : Keeps ⟨qq, mm, cc⟩ s) :
    Keeps ⟨qq, mm, cc⟩ (State.touchMeta s la prot) := by
  unfold State.touchMeta
  split
  extract_lets x1 x2 x3 x4 x5 x6 x7
  refine State.cacheLines_keeps (hq := ?_) ..
  exact hq

theorem State.setXmLine_keeps {qq : List Instr} {mm : Option Memory} {cc : Option Chip} (s : State) (la : Nat) (l : XmLine) (hq : Keeps ⟨qq, mm, cc⟩ s) :
    Keeps ⟨qq, mm, cc⟩ (State.setXmLine s la l) := by
  unfold State.setXmLine
  refine State.modXmc_keeps (hq := ?_) ..
  exact hq

theorem State.sealPages_keeps {qq : List Instr} {mm : Option Memory} {cc : Option Chip} (s : State) (la : Nat) (level : Nat) (hq : Keeps ⟨qq, mm, cc⟩ s) :
    Keeps ⟨qq, mm, cc⟩ (State.sealPages s la level) := by
  unfold State.sealPages
  split
  extract_lets x1
  refine State.modXmc_keeps (hq := ?_) ..
  refine State.raise_keeps (hq := ?_) ..
  exact hq

theorem State.clearAccess_keeps {qq : List Instr} {mm : Option Memory} {cc : Option Chip} (s : State) (la : Nat) (what : XmWhat) (op : LineOp) (hq : Keeps ⟨qq, mm, cc⟩ s) :
    Keeps ⟨qq, mm, cc⟩ (State.clearAccess s la what op).2 := by
  unfold State.clearAccess
  extract_lets x1 x2 x3
  split
  extract_lets x4 x5 x6 x7
  have h8 : Keeps ⟨qq, mm, cc⟩ x7 := ?_
  exact h8
  dsimp -zeta only [x7]
  have h9 : Keeps ⟨qq, mm, cc⟩ x5 := ?_
  have h10 : Keeps ⟨qq, mm, cc⟩ x6 := ?_
  refine Keeps.ite (fun _ => ?_) (fun _ => ?_)
  exact h9
  refine State.setXmLine_keeps (hq := ?_) ..
  exact h10
  dsimp -zeta only [x6]
  refine Keeps.ite (fun _ => ?_) (fun _ => ?_)
  refine State.bump_keeps (hq := ?_) ..
  exact h9
  exact h9
  dsimp -zeta only [x5]
  refine State.touchMeta_keeps (hq := ?_) ..
  refine Keeps.trd_eq (by assumption) ?_
  split
  exact hq
  split
  dsimp -zeta only
  refine State.bump_keeps (hq := ?_) ..
  exact hq
  dsimp -zeta only
  refine State.bump_keeps (hq := ?_) ..
  exact hq
  exact hq

theorem State.keyedWrite_keeps {qq : List Instr} {mm : Option Memory} {cc : Option Chip} (s : State) (la : Nat) (slot : Nat) (d : BitVec 512) (psn : Nat) (mark : Nat) (hq : Keeps ⟨qq, mm, cc⟩ s) :
    Keeps ⟨qq, mm, cc⟩ (State.keyedWrite s la slot d psn mark).2.2 := by
  unfold State.keyedWrite
  extract_lets x1 x2 x3 x4 x5
  have h6 : Keeps ⟨qq, mm, cc⟩ x4 := ?_
  split
  dsimp -zeta only
  refine State.setXmLine_keeps (hq := ?_) ..
  exact hq
  split
  dsimp -zeta only
  refine State.logEv_keeps (hq := ?_) ..
  refine State.raise_keeps (hq := ?_) ..
  exact h6
  split
  extract_lets x7
  have h8 : Keeps ⟨qq, mm, cc⟩ x7 := ?_
  dsimp -zeta only
  refine State.count_keeps (hq := ?_) ..
  exact h8
  dsimp -zeta only [x7]
  refine State.modXmc_keeps (hq := ?_) ..
  refine State.setXmLine_keeps (hq := ?_) ..
  refine Keeps.snd_eq (by assumption) ?_
  refine Keeps.foldl_snd (fun t9 y10 h11 => ?_) ?_
  split
  extract_lets x12
  split
  exact h11
  split
  extract_lets x13
  have h14 : Keeps ⟨qq, mm, cc⟩ x13 := ?_
  split
  dsimp -zeta only
  refine State.tagFailed_keeps (hq := ?_) ..
  exact h14
  exact h14
  dsimp -zeta only [x13]
  refine State.setXmLine_keeps (hq := ?_) ..
  exact h11
  exact hq
  dsimp -zeta only [x4]
  refine Keeps.ite (fun _ => ?_) (fun _ => ?_)
  refine State.wr_keeps (hq := ?_) ..
  exact hq
  exact hq

theorem State.keyedApply_keeps {qq : List Instr} {mm : Option Memory} {cc : Option Chip} (s : State) (la : Nat) (slot : Nat) (d : BitVec 512) (psn : Nat) (mark : Nat) (st : Nat) (op : LineOp) (hq : Keeps ⟨qq, mm, cc⟩ s) :
    Keeps ⟨qq, mm, cc⟩ (State.keyedApply s la slot d psn mark st op).2 := by
  unfold State.keyedApply
  extract_lets x1 x2 x3 x4 x5
  split
  exact hq
  split
  dsimp -zeta only
  refine Keeps.trd_eq (by assumption) ?_
  refine State.keyedWrite_keeps (hq := ?_) ..
  exact hq

theorem State.keyedAccess_keeps {qq : List Instr} {mm : Option Memory} {cc : Option Chip} (s : State) (la : Nat) (slot : Nat) (what : XmWhat) (op : LineOp) (hq : Keeps ⟨qq, mm, cc⟩ s) :
    Keeps ⟨qq, mm, cc⟩ (State.keyedAccess s la slot what op).2 := by
  unfold State.keyedAccess
  extract_lets x1 x2 x3
  have h4 : Keeps ⟨qq, mm, cc⟩ x2 := ?_
  split
  split
  exact hq
  clear_value x1
  split
  dsimp -zeta only
  refine State.tagFailed_keeps (hq := ?_) ..
  refine State.sealPages_keeps (hq := ?_) ..
  exact h4
  dsimp -zeta only
  refine State.logEv_keeps (hq := ?_) ..
  refine State.bump_keeps (hq := ?_) ..
  refine State.sealPages_keeps (hq := ?_) ..
  exact h4
  split
  refine State.keyedApply_keeps (hq := ?_) ..
  exact h4
  split
  refine State.keyedApply_keeps (hq := ?_) ..
  exact h4
  split
  extract_lets x5
  have h6 : Keeps ⟨qq, mm, cc⟩ x5 := ?_
  refine State.keyedApply_keeps (hq := ?_) ..
  exact h6
  dsimp -zeta only [x5]
  refine State.bump_keeps (hq := ?_) ..
  exact h4
  split
  split
  dsimp -zeta only
  refine State.tagFailed_keeps (hq := ?_) ..
  refine Keeps.snd_eq (by assumption) ?_
  split
  dsimp -zeta only
  refine State.bump_keeps (hq := ?_) ..
  exact h4
  exact h4
  split
  refine State.keyedApply_keeps (hq := ?_) ..
  refine Keeps.snd_eq (by assumption) ?_
  split
  dsimp -zeta only
  refine State.bump_keeps (hq := ?_) ..
  exact h4
  exact h4
  split
  split
  dsimp -zeta only
  refine State.tagFailed_keeps (hq := ?_) ..
  refine Keeps.snd_eq (by assumption) ?_
  split
  dsimp -zeta only
  refine State.bump_keeps (hq := ?_) ..
  exact h4
  exact h4
  dsimp -zeta only
  refine State.tagFailed_keeps (hq := ?_) ..
  refine State.setXmLine_keeps (hq := ?_) ..
  refine Keeps.snd_eq (by assumption) ?_
  split
  dsimp -zeta only
  refine State.bump_keeps (hq := ?_) ..
  exact h4
  exact h4
  refine State.keyedApply_keeps (hq := ?_) ..
  refine Keeps.snd_eq (by assumption) ?_
  split
  dsimp -zeta only
  refine State.bump_keeps (hq := ?_) ..
  exact h4
  exact h4
  dsimp -zeta only [x2]
  refine State.touchMeta_keeps (hq := ?_) ..
  exact hq

theorem State.xmAccess_keeps {qq : List Instr} {mm : Option Memory} {cc : Option Chip} (s : State) (la : Nat) (slot : Nat) (what : XmWhat) (op : LineOp) (hq : Keeps ⟨qq, mm, cc⟩ s) :
    Keeps ⟨qq, mm, cc⟩ (State.xmAccess s la slot what op).2 := by
  unfold State.xmAccess
  split
  refine State.clearAccess_keeps (hq := ?_) ..
  exact hq
  refine State.keyedAccess_keeps (hq := ?_) ..
  exact hq

theorem State.memRequest_keeps {qq : List Instr} (s : State) (j : Nat) (p : Packet) (f : XmFind) (hq : Keeps ⟨qq, none, none⟩ s) :
    Keeps ⟨qq, none, none⟩ (State.memRequest s j p f) := by
  unfold State.memRequest
  extract_lets x1
  split
  refine State.respond_keeps (hq := ?_) ..
  exact hq
  extract_lets x2 x3 x4 x5
  refine Keeps.ite (fun _ => ?_) (fun _ => ?_)
  refine State.respond_keeps (hq := ?_) ..
  exact hq
  refine Keeps.ite (fun _ => ?_) (fun _ => ?_)
  refine State.respond_keeps (hq := ?_) ..
  exact hq
  split
  extract_lets x6 x7
  have h8 : Keeps ⟨qq, none, none⟩ x7 := ?_
  refine Keeps.ite (fun _ => ?_) (fun _ => ?_)
  refine State.secAlarm_keeps (hq := ?_) ..
  exact h8
  exact h8
  dsimp -zeta only [x7]
  have h9 : Keeps ⟨qq, none, none⟩ x6 := ?_
  refine State.respond_keeps (hq := ?_) ..
  exact h9
  dsimp -zeta only [x6]
  refine Keeps.ite (fun _ => ?_) (fun _ => ?_)
  exact hq
  refine State.xmBlock_keeps (hq := ?_) ..
  exact hq
  split
  extract_lets x10 x11
  have h12 : Keeps ⟨qq, none, none⟩ x11 := ?_
  refine Keeps.foldl (fun t13 y14 h15 => ?_) ?_
  refine State.secAlarm_keeps (hq := ?_) ..
  exact h15
  exact h12
  dsimp -zeta only [x11]
  refine State.respond_keeps (hq := ?_) ..
  refine Keeps.snd_eq (by assumption) ?_
  refine Keeps.foldl_snd (fun t16 y17 h18 => ?_) ?_
  dsimp -zeta only [x5]
  split
  exact h18
  extract_lets x19
  dsimp -zeta only
  refine State.xmAccess_keeps (hq := ?_) ..
  exact h18
  exact hq

theorem State.retref_keeps {qq : List Instr} {mm : Option Memory} {cc : Option Chip} (s : State) (hq : Keeps ⟨qq, mm, cc⟩ s) :
    Keeps ⟨qq, mm, cc⟩ (State.retref s) := by
  unfold State.retref
  refine State.raise_keeps (hq := ?_) ..
  exact hq

theorem State.writeXmcCtrl_keeps {qq : List Instr} {mm : Option Memory} {cc : Option Chip} (s : State) (v : Nat) (hq : Keeps ⟨qq, mm, cc⟩ s) :
    Keeps ⟨qq, mm, cc⟩ (State.writeXmcCtrl s v) := by
  unfold State.writeXmcCtrl
  extract_lets x1
  refine Keeps.ite (fun _ => ?_) (fun _ => ?_)
  refine State.modXmc_keeps (hq := ?_) ..
  exact hq
  refine Keeps.ite (fun _ => ?_) (fun _ => ?_)
  refine State.wr_keeps (hq := ?_) ..
  refine State.modXmc_keeps (hq := ?_) ..
  exact hq
  refine Keeps.ite (fun _ => ?_) (fun _ => ?_)
  refine State.retref_keeps (hq := ?_) ..
  exact hq
  refine State.wr_keeps (hq := ?_) ..
  refine State.modXmc_keeps (hq := ?_) ..
  exact hq

theorem State.writeXmcRetire_keeps {qq : List Instr} {mm : Option Memory} {cc : Option Chip} (s : State) (v : Nat) (hq : Keeps ⟨qq, mm, cc⟩ s) :
    Keeps ⟨qq, mm, cc⟩ (State.writeXmcRetire s v) := by
  unfold State.writeXmcRetire
  refine Keeps.ite (fun _ => ?_) (fun _ => ?_)
  exact hq
  extract_lets x1 x2 x3 x4 x5
  refine Keeps.ite (fun _ => ?_) (fun _ => ?_)
  refine State.retref_keeps (hq := ?_) ..
  exact hq
  refine State.modXmc_keeps (hq := ?_) ..
  refine State.wr_keeps (hq := ?_) ..
  refine State.wr_keeps (hq := ?_) ..
  refine State.wr_keeps (hq := ?_) ..
  exact hq

theorem State.flushMeta_keeps {qq : List Instr} {mm : Option Memory} {cc : Option Chip} (s : State) (hq : Keeps ⟨qq, mm, cc⟩ s) :
    Keeps ⟨qq, mm, cc⟩ (State.flushMeta s) := by
  unfold State.flushMeta
  extract_lets x1
  have h2 : Keeps ⟨qq, mm, cc⟩ x1 := ?_
  refine State.modXmc_keeps (hq := ?_) ..
  exact h2
  dsimp -zeta only [x1]
  refine Keeps.foldl (fun t3 y4 h5 => ?_) ?_
  refine State.wr_keeps (hq := ?_) ..
  exact h5
  exact hq

theorem State.walkDone_keeps {qq : List Instr} {mm : Option Memory} {cc : Option Chip} (s : State) (w : XmWalk) (hq : Keeps ⟨qq, mm, cc⟩ s) :
    Keeps ⟨qq, mm, cc⟩ (State.walkDone s w) := by
  unfold State.walkDone
  extract_lets x1 x2 x3 x4
  have h5 : Keeps ⟨qq, mm, cc⟩ x4 := ?_
  refine State.logEv_keeps (hq := ?_) ..
  refine State.wr_keeps (hq := ?_) ..
  exact h5
  dsimp -zeta only [x4]
  have h6 : Keeps ⟨qq, mm, cc⟩ x3 := ?_
  refine State.modXmc_keeps (hq := ?_) ..
  refine State.wr_keeps (hq := ?_) ..
  exact h6
  dsimp -zeta only [x3]
  have h7 : Keeps ⟨qq, mm, cc⟩ x2 := ?_
  refine State.wr_keeps (hq := ?_) ..
  refine State.wr_keeps (hq := ?_) ..
  refine State.wr_keeps (hq := ?_) ..
  exact h7
  dsimp -zeta only [x2]
  refine State.wr_keeps (hq := ?_) ..
  refine State.wr_keeps (hq := ?_) ..
  refine State.wr_keeps (hq := ?_) ..
  exact hq

theorem State.walkLine_keeps {qq : List Instr} {mm : Option Memory} {cc : Option Chip} (s : State) (w : XmWalk) (la : Nat) (bad : Bool) (hq : Keeps ⟨qq, mm, cc⟩ s) :
    Keeps ⟨qq, mm, cc⟩ (State.walkLine s w la bad).2 := by
  unfold State.walkLine
  extract_lets x1 x2 x3
  have h4 : Keeps ⟨qq, mm, cc⟩ x3 := ?_
  split
  exact hq
  dsimp -zeta only
  refine Keeps.ite (fun _ => ?_) (fun _ => ?_)
  refine State.tagFailed_keeps (hq := ?_) ..
  exact h4
  exact h4
  dsimp -zeta only [x3]
  refine State.setXmLine_keeps (hq := ?_) ..
  exact hq

theorem State.walkPage_keeps {qq : List Instr} (s : State) (w : XmWalk) (f : XmFind) (hq : Keeps ⟨qq, none, none⟩ s) :
    Keeps ⟨qq, none, none⟩ (State.walkPage s w f) := by
  unfold State.walkPage
  extract_lets x1 x2 x3
  split
  extract_lets x4 x5
  have h6 : Keeps ⟨qq, none, none⟩ x5 := ?_
  refine Keeps.foldl (fun t7 y8 h9 => ?_) ?_
  refine State.secAlarm_keeps (hq := ?_) ..
  exact h9
  exact h6
  dsimp -zeta only [x5]
  have h10 : Keeps ⟨qq, none, none⟩ x4 := ?_
  refine Keeps.ite (fun _ => ?_) (fun _ => ?_)
  refine State.walkDone_keeps (hq := ?_) ..
  exact h10
  exact h10
  dsimp -zeta only [x4]
  refine State.count_keeps (hq := ?_) ..
  refine State.modXmc_keeps (hq := ?_) ..
  refine Keeps.snd_eq (by assumption) ?_
  split
  exact hq
  split
  dsimp -zeta only
  refine State.tagFailed_keeps (hq := ?_) ..
  refine State.sealPages_keeps (hq := ?_) ..
  exact hq
  split
  dsimp -zeta only
  refine State.logEv_keeps (hq := ?_) ..
  refine State.bump_keeps (hq := ?_) ..
  refine State.sealPages_keeps (hq := ?_) ..
  exact hq
  split
  dsimp -zeta only
  refine State.modXmc_keeps (hq := ?_) ..
  refine Keeps.snd_eq (by assumption) ?_
  refine Keeps.foldl_snd (fun t11 y12 h13 => ?_) ?_
  split
  dsimp -zeta only
  refine Keeps.snd_eq (by assumption) ?_
  refine State.walkLine_keeps (hq := ?_) ..
  exact h13
  exact hq

theorem State.newKey_keeps {qq : List Instr} {mm : Option Memory} {cc : Option Chip} (s : State) (slot : Nat) (mem : Bool) (link : Bool) (gen : Bool) (hq : Keeps ⟨qq, mm, cc⟩ s) :
    Keeps ⟨qq, mm, cc⟩ (State.newKey s slot mem link gen) := by
  unfold State.newKey
  extract_lets x1
  have h2 : Keeps ⟨qq, mm, cc⟩ x1 := ?_
  refine State.modXmc_keeps (hq := ?_) ..
  exact h2
  dsimp -zeta only [x1]
  refine State.wr_keeps (hq := ?_) ..
  refine State.wr_keeps (hq := ?_) ..
  refine State.wr_keeps (hq := ?_) ..
  refine State.wr_keeps (hq := ?_) ..
  exact hq

theorem State.writeKgen_keeps {qq : List Instr} {mm : Option Memory} {cc : Option Chip} (s : State) (v : Nat) (hq : Keeps ⟨qq, mm, cc⟩ s) :
    Keeps ⟨qq, mm, cc⟩ (State.writeKgen s v) := by
  unfold State.writeKgen
  refine Keeps.ite (fun _ => ?_) (fun _ => ?_)
  exact hq
  extract_lets x1 x2
  refine Keeps.ite (fun _ => ?_) (fun _ => ?_)
  refine State.raise_keeps (hq := ?_) ..
  exact hq
  refine State.newKey_keeps (hq := ?_) ..
  exact hq

theorem execChannelDown_keeps {qq : List Instr} {mm : Option Memory} {cc : Option Chip} (c : Fin 8) (s : State) (hq : Keeps ⟨qq, mm, cc⟩ s) :
    KeepsO ⟨qq, mm, cc⟩ (execChannelDown c s) := by
  unfold execChannelDown
  refine KeepsO.next ?_
  refine Keeps.ite (fun _ => ?_) (fun _ => ?_)
  refine State.channelDown_keeps (hq := ?_) ..
  exact hq
  exact hq

theorem execXmcRetire_keeps {qq : List Instr} {mm : Option Memory} {cc : Option Chip} (x : Accessor) (v : Word) (s : State) (hq : Keeps ⟨qq, mm, cc⟩ s) :
    KeepsO ⟨qq, mm, cc⟩ (execXmcRetire x v s) := by
  unfold execXmcRetire
  refine KeepsO.next ?_
  refine State.writeXmcRetire_keeps (hq := ?_) ..
  exact hq

theorem execRetireFlushDone_keeps {qq : List Instr} {mm : Option Memory} {cc : Option Chip} (s : State) (hq : Keeps ⟨qq, mm, cc⟩ s) :
    KeepsO ⟨qq, mm, cc⟩ (execRetireFlushDone s) := by
  unfold execRetireFlushDone
  split
  refine KeepsO.next ?_
  exact hq
  refine KeepsO.ite (fun _ => ?_) (fun _ => ?_)
  refine KeepsO.next ?_
  exact hq
  refine KeepsO.next ?_
  refine Keeps.ite (fun _ => ?_) (fun _ => ?_)
  refine State.walkDone_keeps (hq := ?_) ..
  refine State.flushMeta_keeps (hq := ?_) ..
  exact hq
  refine State.flushMeta_keeps (hq := ?_) ..
  exact hq

theorem execRetireWalkPage_keeps {qq : List Instr} (f : XmFind) (s : State) (hq : Keeps ⟨qq, none, none⟩ s) :
    KeepsO ⟨qq, none, none⟩ (execRetireWalkPage f s) := by
  unfold execRetireWalkPage
  split
  refine KeepsO.next ?_
  exact hq
  refine KeepsO.next ?_
  refine Keeps.ite (fun _ => ?_) (fun _ => ?_)
  refine State.walkPage_keeps (hq := ?_) ..
  exact hq
  exact hq

theorem execXmcModeWrite_keeps {qq : List Instr} {mm : Option Memory} {cc : Option Chip} (x : Accessor) (v : Word) (s : State) (hq : Keeps ⟨qq, mm, cc⟩ s) :
    KeepsO ⟨qq, mm, cc⟩ (execXmcModeWrite x v s) := by
  unfold execXmcModeWrite
  refine KeepsO.next ?_
  refine State.writeXmcCtrl_keeps (hq := ?_) ..
  exact hq

theorem execModeChange_keeps {qq : List Instr} {mm : Option Memory} {cc : Option Chip} (s : State) (hq : Keeps ⟨qq, mm, cc⟩ s) :
    KeepsO ⟨qq, mm, cc⟩ (execModeChange s) := by
  unfold execModeChange
  split
  refine KeepsO.next ?_
  exact hq
  refine KeepsO.ite (fun _ => ?_) (fun _ => ?_)
  refine KeepsO.next ?_
  exact hq
  extract_lets x1
  have h2 : Keeps ⟨qq, mm, cc⟩ x1 := ?_
  refine KeepsO.next ?_
  refine Keeps.ite (fun _ => ?_) (fun _ => ?_)
  refine State.retref_keeps (hq := ?_) ..
  exact h2
  refine State.wr_keeps (hq := ?_) ..
  exact h2
  dsimp -zeta only [x1]
  refine State.wr_keeps (hq := ?_) ..
  refine State.modXmc_keeps (hq := ?_) ..
  exact hq

theorem execSecKgen_keeps {qq : List Instr} {mm : Option Memory} {cc : Option Chip} (x : Accessor) (v : Word) (s : State) (hq : Keeps ⟨qq, mm, cc⟩ s) :
    KeepsO ⟨qq, mm, cc⟩ (execSecKgen x v s) := by
  unfold execSecKgen
  refine KeepsO.next ?_
  refine State.writeKgen_keeps (hq := ?_) ..
  exact hq

theorem State.modClk_keeps {qq : List Instr} {mm : Option Memory} {cc : Option Chip} (s : State) (f : Clocks → Clocks) (hq : Keeps ⟨qq, mm, cc⟩ s) :
    Keeps ⟨qq, mm, cc⟩ (State.modClk s f) := by
  unfold State.modClk
  refine Keeps.mk_other ?_
  exact hq

theorem State.logReady_keeps {qq : List Instr} {mm : Option Memory} {cc : Option Chip} (s : State) (k : Nat) (ready : Bool) (reason : Nat) (judge : Nat) (hq : Keeps ⟨qq, mm, cc⟩ s) :
    Keeps ⟨qq, mm, cc⟩ (State.logReady s k ready reason judge) := by
  unfold State.logReady
  refine State.logEv_keeps (hq := ?_) ..
  exact hq

theorem State.domTo_keeps {qq : List Instr} {mm : Option Memory} {cc : Option Chip} (s : State) (d : Nat) (p : Nat) (auto : Bool) (hq : Keeps ⟨qq, mm, cc⟩ s) :
    Keeps ⟨qq, mm, cc⟩ (State.domTo s d p auto) := by
  unfold State.domTo
  extract_lets x1 x2 x3
  have h4 : Keeps ⟨qq, mm, cc⟩ x3 := ?_
  refine State.logEv_keeps (hq := ?_) ..
  exact h4
  dsimp -zeta only [x3]
  have h5 : Keeps ⟨qq, mm, cc⟩ x2 := ?_
  refine Keeps.ite (fun _ => ?_) (fun _ => ?_)
  refine State.raise_keeps (hq := ?_) ..
  exact h5
  exact h5
  dsimp -zeta only [x2]
  refine State.wr_keeps (hq := ?_) ..
  exact hq

theorem State.ckoStop_keeps {qq : List Instr} {mm : Option Memory} {cc : Option Chip} (s : State) (sel : Nat) (hq : Keeps ⟨qq, mm, cc⟩ s) :
    Keeps ⟨qq, mm, cc⟩ (State.ckoStop s sel) := by
  unfold State.ckoStop
  refine Keeps.ite (fun _ => ?_) (fun _ => ?_)
  refine State.raise_keeps (hq := ?_) ..
  exact hq
  exact hq

theorem State.domLost_keeps {qq : List Instr} (s : State) (d : Nat) (hq : Keeps ⟨qq, none, none⟩ s) :
    Keeps ⟨qq, none, none⟩ (State.domLost s d) := by
  unfold State.domLost
  split
  refine State.doubt_keeps (hq := ?_) ..
  refine State.ckoStop_keeps (hq := ?_) ..
  exact hq
  refine State.doubt_keeps (hq := ?_) ..
  refine State.ckoStop_keeps (hq := ?_) ..
  exact hq
  refine Keeps.ite (fun _ => ?_) (fun _ => ?_)
  exact hq
  refine State.domTo_keeps (hq := ?_) ..
  exact hq
  refine State.allChannelsDown_keeps (hq := ?_) ..
  refine State.ckoStop_keeps (hq := ?_) ..
  exact hq
  exact hq

theorem State.domFailover_keeps {qq : List Instr} (s : State) (d : Nat) (hq : Keeps ⟨qq, none, none⟩ s) :
    Keeps ⟨qq, none, none⟩ (State.domFailover s d) := by
  unfold State.domFailover
  extract_lets x1 x2
  split
  refine State.domTo_keeps (hq := ?_) ..
  exact hq
  refine State.domLost_keeps (hq := ?_) ..
  exact hq

theorem State.srcFails_keeps {qq : List Instr} {mm : Option Memory} {cc : Option Chip} (s : State) (k : Nat) (hq : Keeps ⟨qq, mm, cc⟩ s) :
    Keeps ⟨qq, mm, cc⟩ (State.srcFails s k) := by
  unfold State.srcFails
  refine Keeps.ite (fun _ => ?_) (fun _ => ?_)
  exact hq
  extract_lets x1 x2
  have h3 : Keeps ⟨qq, mm, cc⟩ x2 := ?_
  refine Keeps.ite (fun _ => ?_) (fun _ => ?_)
  refine State.journal_keeps (hq := ?_) ..
  exact h3
  refine State.degrade_keeps (hq := ?_) ..
  refine State.journal_keeps (hq := ?_) ..
  exact h3
  dsimp -zeta only [x2]
  refine State.modClk_keeps (hq := ?_) ..
  exact hq

theorem State.holdover_keeps {qq : List Instr} {mm : Option Memory} {cc : Option Chip} (s : State) (ref : Nat) (hq : Keeps ⟨qq, mm, cc⟩ s) :
    Keeps ⟨qq, mm, cc⟩ (State.holdover s ref) := by
  unfold State.holdover
  refine Keeps.foldl (fun t1 y2 h3 => ?_) ?_
  extract_lets x4
  refine Keeps.ite (fun _ => ?_) (fun _ => ?_)
  refine State.logEv_keeps (hq := ?_) ..
  refine State.raise_keeps (hq := ?_) ..
  refine State.raise_keeps (hq := ?_) ..
  exact h3
  exact h3
  exact hq

theorem State.loseReady_keeps {qq : List Instr} (s : State) (k : Nat) (reason : Nat) (judge : Nat) (hq : Keeps ⟨qq, none, none⟩ s) :
    Keeps ⟨qq, none, none⟩ (State.loseReady s k reason judge) := by
  unfold State.loseReady
  refine Keeps.ite (fun _ => ?_) (fun _ => ?_)
  exact hq
  extract_lets x1 x2 x3 x4
  have h5 : Keeps ⟨qq, none, none⟩ x4 := ?_
  refine Keeps.foldl (fun t6 y7 h8 => ?_) ?_
  refine Keeps.ite (fun _ => ?_) (fun _ => ?_)
  refine State.domFailover_keeps (hq := ?_) ..
  exact h8
  exact h8
  exact h5
  dsimp -zeta only [x4]
  have h9 : Keeps ⟨qq, none, none⟩ x3 := ?_
  refine Keeps.ite (fun _ => ?_) (fun _ => ?_)
  refine State.holdover_keeps (hq := ?_) ..
  exact h9
  exact h9
  dsimp -zeta only [x3]
  have h10 : Keeps ⟨qq, none, none⟩ x2 := ?_
  refine State.ckoStop_keeps (hq := ?_) ..
  refine State.srcFails_keeps (hq := ?_) ..
  exact h10
  dsimp -zeta only [x2]
  have h11 : Keeps ⟨qq, none, none⟩ x1 := ?_
  refine State.logReady_keeps (hq := ?_) ..
  refine State.modClk_keeps (hq := ?_) ..
  exact h11
  dsimp -zeta only [x1]
  refine State.wr_keeps (hq := ?_) ..
  exact hq

theorem State.gainReady_keeps {qq : List Instr} {mm : Option Memory} {cc : Option Chip} (s : State) (k : Nat) (j : Nat) (hq : Keeps ⟨qq, mm, cc⟩ s) :
    Keeps ⟨qq, mm, cc⟩ (State.gainReady s k j) := by
  unfold State.gainReady
  extract_lets x1
  refine Keeps.ite (fun _ => ?_) (fun _ => ?_)
  refine State.logReady_keeps (hq := ?_) ..
  refine State.wr_keeps (hq := ?_) ..
  exact hq
  exact hq

theorem State.window1_keeps {qq : List Instr} (s : State) (k : Nat) (j : Nat) (r : Nat) (hq : Keeps ⟨qq, none, none⟩ s) :
    Keeps ⟨qq, none, none⟩ (State.window1 s k j r) := by
  unfold State.window1
  refine Keeps.ite (fun _ => ?_) (fun _ => ?_)
  refine Keeps.ite (fun _ => ?_) (fun _ => ?_)
  exact hq
  extract_lets x1 x2
  have h3 : Keeps ⟨qq, none, none⟩ x2 := ?_
  refine Keeps.ite (fun _ => ?_) (fun _ => ?_)
  refine State.loseReady_keeps (hq := ?_) ..
  exact h3
  exact h3
  dsimp -zeta only [x2]
  refine State.modClk_keeps (hq := ?_) ..
  exact hq
  refine Keeps.ite (fun _ => ?_) (fun _ => ?_)
  exact hq
  extract_lets x4 x5 x6
  have h7 : Keeps ⟨qq, none, none⟩ x5 := ?_
  refine Keeps.ite (fun _ => ?_) (fun _ => ?_)
  refine State.gainReady_keeps (hq := ?_) ..
  exact h7
  refine Keeps.ite (fun _ => ?_) (fun _ => ?_)
  refine Keeps.ite (fun _ => ?_) (fun _ => ?_)
  refine State.modClk_keeps (hq := ?_) ..
  exact h7
  refine State.loseReady_keeps (hq := ?_) ..
  exact h7
  exact h7
  dsimp -zeta only [x5]
  refine State.modClk_keeps (hq := ?_) ..
  exact hq

theorem State.takeDomains_keeps {qq : List Instr} (s : State) (hq : Keeps ⟨qq, none, none⟩ s) :
    Keeps ⟨qq, none, none⟩ (State.takeDomains s) := by
  unfold State.takeDomains
  refine Keeps.foldl (fun t1 y2 h3 => ?_) ?_
  extract_lets x4
  split
  refine State.wr_keeps (hq := ?_) ..
  exact h3
  refine State.domLost_keeps (hq := ?_) ..
  exact h3
  exact hq

theorem State.modLdr_keeps {qq : List Instr} {mm : Option Memory} {cc : Option Chip} (s : State) (f : Loader → Loader) (hq : Keeps ⟨qq, mm, cc⟩ s) :
    Keeps ⟨qq, mm, cc⟩ (State.modLdr s f) := by
  unfold State.modLdr
  refine Keeps.mk_other ?_
  exact hq

theorem State.clocksStart_keeps {qq : List Instr} (s : State) (hq : Keeps ⟨qq, none, none⟩ s) :
    Keeps ⟨qq, none, none⟩ (State.clocksStart s) := by
  unfold State.clocksStart
  extract_lets x1 x2 x3
  have h4 : Keeps ⟨qq, none, none⟩ x1 := ?_
  have h5 : Keeps ⟨qq, none, none⟩ x2 := ?_
  refine Keeps.ite (fun _ => ?_) (fun _ => ?_)
  exact h4
  refine State.modKet_keeps (hq := ?_) ..
  exact h5
  dsimp -zeta only [x2]
  refine State.spend_keeps (hq := ?_) ..
  exact h4
  dsimp -zeta only [x1]
  refine State.takeDomains_keeps (hq := ?_) ..
  refine State.modLdr_keeps (hq := ?_) ..
  exact hq

theorem execSourceWindow_keeps {qq : List Instr} (k : Fin 16) (j : Fin 16) (r : Word) (s : State) (hq : Keeps ⟨qq, none, none⟩ s) :
    KeepsO ⟨qq, none, none⟩ (execSourceWindow k j r s) := by
  unfold execSourceWindow
  refine KeepsO.ite (fun _ => ?_) (fun _ => ?_)
  refine KeepsO.next ?_
  exact hq
  extract_lets x1
  have h2 : Keeps ⟨qq, none, none⟩ x1 := ?_
  refine KeepsO.next ?_
  refine Keeps.ite (fun _ => ?_) (fun _ => ?_)
  refine State.clocksStart_keeps (hq := ?_) ..
  exact h2
  exact h2
  dsimp -zeta only [x1]
  refine State.window1_keeps (hq := ?_) ..
  exact hq

theorem execSourceNoEdge_keeps {qq : List Instr} (k : Fin 16) (j : Fin 16) (s : State) (hq : Keeps ⟨qq, none, none⟩ s) :
    KeepsO ⟨qq, none, none⟩ (execSourceNoEdge k j s) := by
  unfold execSourceNoEdge
  refine KeepsO.next ?_
  refine Keeps.ite (fun _ => ?_) (fun _ => ?_)
  refine State.loseReady_keeps (hq := ?_) ..
  exact hq
  exact hq

theorem execPllLock_keeps {qq : List Instr} {mm : Option Memory} {cc : Option Chip} (k : Fin 16) (s : State) (hq : Keeps ⟨qq, mm, cc⟩ s) :
    KeepsO ⟨qq, mm, cc⟩ (execPllLock k s) := by
  unfold execPllLock
  refine KeepsO.ite (fun _ => ?_) (fun _ => ?_)
  refine KeepsO.next ?_
  exact hq
  refine KeepsO.next ?_
  refine State.raise_keeps (hq := ?_) ..
  exact hq

theorem execPllLockLoss_keeps {qq : List Instr} (k : Fin 16) (s : State) (hq : Keeps ⟨qq, none, none⟩ s) :
    KeepsO ⟨qq, none, none⟩ (execPllLockLoss k s) := by
  unfold execPllLockLoss
  refine KeepsO.ite (fun _ => ?_) (fun _ => ?_)
  refine KeepsO.next ?_
  exact hq
  extract_lets x1
  have h2 : Keeps ⟨qq, none, none⟩ x1 := ?_
  refine KeepsO.next ?_
  refine Keeps.ite (fun _ => ?_) (fun _ => ?_)
  refine State.loseReady_keeps (hq := ?_) ..
  exact h2
  refine State.modClk_keeps (hq := ?_) ..
  exact h2
  dsimp -zeta only [x1]
  refine State.wr_keeps (hq := ?_) ..
  refine State.wr_keeps (hq := ?_) ..
  exact hq

theorem execAltrefMove_keeps {qq : List Instr} {mm : Option Memory} {cc : Option Chip} (k : Fin 16) (s : State) (hq : Keeps ⟨qq, mm, cc⟩ s) :
    KeepsO ⟨qq, mm, cc⟩ (execAltrefMove k s) := by
  unfold execAltrefMove
  extract_lets x1 x2 x3
  have h4 : Keeps ⟨qq, mm, cc⟩ x3 := ?_
  refine KeepsO.ite (fun _ => ?_) (fun _ => ?_)
  refine KeepsO.next ?_
  exact hq
  refine KeepsO.next ?_
  refine State.logEv_keeps (hq := ?_) ..
  exact h4
  dsimp -zeta only [x3]
  refine State.modClk_keeps (hq := ?_) ..
  refine State.wr_keeps (hq := ?_) ..
  exact hq

theorem execHoldoverEnd_keeps {qq : List Instr} (k : Fin 16) (s : State) (hq : Keeps ⟨qq, none, none⟩ s) :
    KeepsO ⟨qq, none, none⟩ (execHoldoverEnd k s) := by
  unfold execHoldoverEnd
  extract_lets x1 x2
  have h3 : Keeps ⟨qq, none, none⟩ x2 := ?_
  refine KeepsO.ite (fun _ => ?_) (fun _ => ?_)
  refine KeepsO.next ?_
  exact hq
  refine KeepsO.next ?_
  refine State.loseReady_keeps (hq := ?_) ..
  exact h3
  dsimp -zeta only [x2]
  refine State.logEv_keeps (hq := ?_) ..
  refine State.wr_keeps (hq := ?_) ..
  exact hq

theorem execStartPllTimeout_keeps {qq : List Instr} (s : State) (hq : Keeps ⟨qq, none, none⟩ s) :
    KeepsO ⟨qq, none, none⟩ (execStartPllTimeout s) := by
  unfold execStartPllTimeout
  refine KeepsO.next ?_
  refine Keeps.ite (fun _ => ?_) (fun _ => ?_)
  refine State.clocksStart_keeps (hq := ?_) ..
  exact hq
  exact hq

theorem State.writeDom_keeps {qq : List Instr} {mm : Option Memory} {cc : Option Chip} (s : State) (d : Nat) (v : Nat) (hq : Keeps ⟨qq, mm, cc⟩ s) :
    Keeps ⟨qq, mm, cc⟩ (State.writeDom s d v) := by
  unfold State.writeDom
  extract_lets x1 x2
  have h3 : Keeps ⟨qq, mm, cc⟩ x2 := ?_
  refine Keeps.ite (fun _ => ?_) (fun _ => ?_)
  refine State.wr_keeps (hq := ?_) ..
  exact h3
  refine Keeps.ite (fun _ => ?_) (fun _ => ?_)
  refine State.logEv_keeps (hq := ?_) ..
  refine State.raise_keeps (hq := ?_) ..
  exact h3
  refine State.domTo_keeps (hq := ?_) ..
  refine State.wr_keeps (hq := ?_) ..
  exact h3
  dsimp -zeta only [x2]
  refine Keeps.mk_other ?_
  exact hq

theorem execDomainSelect_keeps {qq : List Instr} {mm : Option Memory} {cc : Option Chip} (x : Accessor) (d : Fin 9) (v : Word) (s : State) (hq : Keeps ⟨qq, mm, cc⟩ s) :
    KeepsO ⟨qq, mm, cc⟩ (execDomainSelect x d v s) := by
  unfold execDomainSelect
  refine KeepsO.next ?_
  refine State.writeDom_keeps (hq := ?_) ..
  exact hq

theorem State.setGate_keeps {qq : List Instr} {mm : Option Memory} {cc : Option Chip} (s : State) (u : Nat) (st : Nat) (hq : Keeps ⟨qq, mm, cc⟩ s) :
    Keeps ⟨qq, mm, cc⟩ (State.setGate s u st) := by
  unfold State.setGate
  refine State.modClk_keeps (hq := ?_) ..
  exact hq

theorem execGateCloseRequest_keeps {qq : List Instr} {mm : Option Memory} {cc : Option Chip} (u : BitVec 24) (s : State) (hq : Keeps ⟨qq, mm, cc⟩ s) :
    KeepsO ⟨qq, mm, cc⟩ (execGateCloseRequest u s) := by
  unfold execGateCloseRequest
  refine KeepsO.next ?_
  refine Keeps.ite (fun _ => ?_) (fun _ => ?_)
  refine State.setGate_keeps (hq := ?_) ..
  exact hq
  exact hq

theorem State.gated_keeps {qq : List Instr} {mm : Option Memory} {cc : Option Chip} (s : State) (u : Nat) (hq : Keeps ⟨qq, mm, cc⟩ s) :
    Keeps ⟨qq, mm, cc⟩ (State.gated s u) := by
  unfold State.gated
  refine State.logEvLimited_keeps (hq := ?_) ..
  refine State.bump_keeps (hq := ?_) ..
  exact hq

theorem State.gateBank_keeps {qq : List Instr} {mm : Option Memory} {cc : Option Chip} (s : State) (u : Nat) (n : Nat) (p : Nat) (hq : Keeps ⟨qq, mm, cc⟩ s) :
    Keeps ⟨qq, mm, cc⟩ (State.gateBank s u n p) := by
  unfold State.gateBank
  split
  exact hq
  extract_lets x1 x2 x3 x4 x5 x6 x7
  have h8 : Keeps ⟨qq, mm, cc⟩ x7 := ?_
  refine Keeps.foldl (fun t9 y10 h11 => ?_) ?_
  refine State.gated_keeps (hq := ?_) ..
  exact h11
  exact h8
  dsimp -zeta only [x7]
  have h12 : Keeps ⟨qq, mm, cc⟩ x6 := ?_
  refine Keeps.foldl (fun t13 y14 h15 => ?_) ?_
  refine State.respond_keeps (hq := ?_) ..
  exact h15
  exact h12
  dsimp -zeta only [x6]
  refine State.modRegion_keeps (hq := ?_) ..
  exact hq

theorem State.gateNi_keeps {qq : List Instr} {mm : Option Memory} {cc : Option Chip} (s : State) (u : Nat) (n : Nat) (hq : Keeps ⟨qq, mm, cc⟩ s) :
    Keeps ⟨qq, mm, cc⟩ (State.gateNi s u n) := by
  unfold State.gateNi
  extract_lets x1 x2
  have h3 : Keeps ⟨qq, mm, cc⟩ x2 := ?_
  refine Keeps.foldl (fun t4 y5 h6 => ?_) ?_
  refine State.gated_keeps (hq := ?_) ..
  refine State.respond_keeps (hq := ?_) ..
  exact h6
  exact h3
  dsimp -zeta only [x2]
  refine State.modNi_keeps (hq := ?_) ..
  exact hq

theorem execGateTimeout_keeps {qq : List Instr} {mm : Option Memory} {cc : Option Chip} (u : BitVec 24) (s : State) (hq : Keeps ⟨qq, mm, cc⟩ s) :
    KeepsO ⟨qq, mm, cc⟩ (execGateTimeout u s) := by
  unfold execGateTimeout
  extract_lets x1
  refine KeepsO.ite (fun _ => ?_) (fun _ => ?_)
  refine KeepsO.next ?_
  exact hq
  refine KeepsO.next ?_
  split
  refine State.gateBank_keeps (hq := ?_) ..
  exact hq
  refine State.gateNi_keeps (hq := ?_) ..
  exact hq
  exact hq

theorem execGateClosed_keeps {qq : List Instr} {mm : Option Memory} {cc : Option Chip} (u : BitVec 24) (s : State) (hq : Keeps ⟨qq, mm, cc⟩ s) :
    KeepsO ⟨qq, mm, cc⟩ (execGateClosed u s) := by
  unfold execGateClosed
  refine KeepsO.next ?_
  refine Keeps.ite (fun _ => ?_) (fun _ => ?_)
  refine State.setGate_keeps (hq := ?_) ..
  exact hq
  exact hq

theorem execGateReopen_keeps {qq : List Instr} {mm : Option Memory} {cc : Option Chip} (u : BitVec 24) (s : State) (hq : Keeps ⟨qq, mm, cc⟩ s) :
    KeepsO ⟨qq, mm, cc⟩ (execGateReopen u s) := by
  unfold execGateReopen
  refine KeepsO.next ?_
  refine Keeps.ite (fun _ => ?_) (fun _ => ?_)
  refine State.setGate_keeps (hq := ?_) ..
  exact hq
  exact hq

theorem State.openPoint_keeps {qq : List Instr} {mm : Option Memory} {cc : Option Chip} (s : State) (scope : Nat) (raw : Nat) (hq : Keeps ⟨qq, mm, cc⟩ s) :
    Keeps ⟨qq, mm, cc⟩ (State.openPoint s scope raw) := by
  unfold State.openPoint
  extract_lets x1 x2 x3 x4 x5 x6 x7
  have h8 : Keeps ⟨qq, mm, cc⟩ x7 := ?_
  refine Keeps.foldl (fun t9 y10 h11 => ?_) ?_
  refine State.plcRec_keeps (hq := ?_) ..
  exact h11
  exact h8
  dsimp -zeta only [x7]
  have h12 : Keeps ⟨qq, mm, cc⟩ x3 := ?_
  refine State.modPlc_keeps (hq := ?_) ..
  exact h12
  dsimp -zeta only [x3]
  refine Keeps.ite (fun _ => ?_) (fun _ => ?_)
  refine State.raise_keeps (hq := ?_) ..
  exact hq
  exact hq

theorem execMigrate_keeps {qq : List Instr} {mm : Option Memory} {cc : Option Chip} (s : State) (hq : Keeps ⟨qq, mm, cc⟩ s) :
    KeepsO ⟨qq, mm, cc⟩ (execMigrate s) := by
  unfold execMigrate
  split
  refine KeepsO.next ?_
  exact hq
  refine KeepsO.next ?_
  refine State.openPoint_keeps (hq := ?_) ..
  refine KeepsQ.of (by assumption) ?_
  refine State.takeAction_keeps (hq := ?_) ..
  exact hq

theorem State.commitRegion_keeps {qq : List Instr} {mm : Option Memory} {cc : Option Chip} (s : State) (pt : PlcPoint) (p : PlcSnap) (hq : Keeps ⟨qq, mm, cc⟩ s) :
    Keeps ⟨qq, mm, cc⟩ (State.commitRegion s pt p) := by
  unfold State.commitRegion
  refine Keeps.ite (fun _ => ?_) (fun _ => ?_)
  exact hq
  extract_lets x1 x2
  have h3 : Keeps ⟨qq, mm, cc⟩ x2 := ?_
  refine State.plcRec_keeps (hq := ?_) ..
  exact h3
  dsimp -zeta only [x2]
  have h4 : Keeps ⟨qq, mm, cc⟩ x1 := ?_
  refine Keeps.foldl (fun t5 y6 h7 => ?_) ?_
  extract_lets x8 x9
  refine Keeps.ite (fun _ => ?_) (fun _ => ?_)
  refine State.scrTest_keeps (hq := ?_) ..
  refine State.endRunOf_keeps (hq := ?_) ..
  exact h7
  exact h7
  exact h4
  dsimp -zeta only [x1]
  refine State.plcRegion_keeps (hq := ?_) ..
  refine State.wr_keeps (hq := ?_) ..
  exact hq

theorem State.commitPoint_keeps {qq : List Instr} {mm : Option Memory} {cc : Option Chip} (s : State) (pt : PlcPoint) (hq : Keeps ⟨qq, mm, cc⟩ s) :
    Keeps ⟨qq, mm, cc⟩ (State.commitPoint s pt) := by
  unfold State.commitPoint
  split
  extract_lets x1 x2 x3 x4 x5 x6 x7
  have h8 : Keeps ⟨qq, mm, cc⟩ x7 := ?_
  refine State.modPlc_keeps (hq := ?_) ..
  exact h8
  dsimp -zeta only [x7]
  have h9 : Keeps ⟨qq, mm, cc⟩ x6 := ?_
  refine State.wr_keeps (hq := ?_) ..
  refine State.wr_keeps (hq := ?_) ..
  exact h9
  dsimp -zeta only [x6]
  have h10 : Keeps ⟨qq, mm, cc⟩ x5 := ?_
  refine State.wr_keeps (hq := ?_) ..
  refine State.wr_keeps (hq := ?_) ..
  refine State.count_keeps (hq := ?_) ..
  exact h10
  dsimp -zeta only [x5]
  have h11 : Keeps ⟨qq, mm, cc⟩ x4 := ?_
  refine State.wr_keeps (hq := ?_) ..
  exact h11
  dsimp -zeta only [x4]
  have h12 : Keeps ⟨qq, mm, cc⟩ x3 := ?_
  refine Keeps.foldl (fun t13 y14 h15 => ?_) ?_
  extract_lets x16
  refine Keeps.ite (fun _ => ?_) (fun _ => ?_)
  refine State.scrTest_keeps (hq := ?_) ..
  refine State.endRunOf_keeps (hq := ?_) ..
  exact h15
  exact h15
  exact h12
  dsimp -zeta only [x3]
  have h17 : Keeps ⟨qq, mm, cc⟩ x2 := ?_
  refine Keeps.foldl (fun t18 y19 h20 => ?_) ?_
  refine Keeps.ite (fun _ => ?_) (fun _ => ?_)
  refine State.takeSlice_keeps (hq := ?_) ..
  exact h20
  exact h20
  exact h17
  dsimp -zeta only [x2]
  have h21 : Keeps ⟨qq, mm, cc⟩ x1 := ?_
  refine State.modPlc_keeps (hq := ?_) ..
  exact h21
  dsimp -zeta only [x1]
  refine State.wr_keeps (hq := ?_) ..
  refine Keeps.snd_eq (by assumption) ?_
  refine Keeps.foldl_snd (fun t22 y23 h24 => ?_) ?_
  extract_lets x25
  have h26 : Keeps ⟨qq, mm, cc⟩ x25 := ?_
  exact h26
  dsimp -zeta only [x25]
  refine State.commitRegion_keeps (hq := ?_) ..
  exact h24
  exact hq

theorem execPointCommit_keeps {qq : List Instr} {mm : Option Memory} {cc : Option Chip} (s : State) (hq : Keeps ⟨qq, mm, cc⟩ s) :
    KeepsO ⟨qq, mm, cc⟩ (execPointCommit s) := by
  unfold execPointCommit
  split
  refine KeepsO.next ?_
  exact hq
  extract_lets x1
  have h2 : Keeps ⟨qq, mm, cc⟩ x1 := ?_
  refine KeepsO.next ?_
  refine Keeps.ite (fun _ => ?_) (fun _ => ?_)
  refine State.startFlip_keeps (hq := ?_) ..
  exact h2
  exact h2
  dsimp -zeta only [x1]
  refine State.commitPoint_keeps (hq := ?_) ..
  exact hq

theorem execRoutePassEnd_keeps {qq : List Instr} {mm : Option Memory} {cc : Option Chip} (s : State) (hq : Keeps ⟨qq, mm, cc⟩ s) :
    KeepsO ⟨qq, mm, cc⟩ (execRoutePassEnd s) := by
  unfold execRoutePassEnd
  split
  refine KeepsO.next ?_
  exact hq
  extract_lets x1 x2 x3
  have h4 : Keeps ⟨qq, mm, cc⟩ x3 := ?_
  refine KeepsO.ite (fun _ => ?_) (fun _ => ?_)
  refine KeepsO.next ?_
  exact hq
  refine KeepsO.next ?_
  refine State.modPlc_keeps (hq := ?_) ..
  exact h4
  dsimp -zeta only [x3]
  have h5 : Keeps ⟨qq, mm, cc⟩ x2 := ?_
  refine State.plcNetInterval_keeps (hq := ?_) ..
  refine State.routePass_keeps (hq := ?_) ..
  exact h5
  dsimp -zeta only [x2]
  refine Keeps.ite (fun _ => ?_) (fun _ => ?_)
  refine State.startFlip_keeps (hq := ?_) ..
  exact hq
  exact hq

theorem execTransitEnd_keeps {qq : List Instr} {mm : Option Memory} {cc : Option Chip} (n : Fin 64) (s : State) (hq : Keeps ⟨qq, mm, cc⟩ s) :
    KeepsO ⟨qq, mm, cc⟩ (execTransitEnd n s) := by
  unfold execTransitEnd
  split
  refine KeepsO.next ?_
  exact hq
  refine KeepsO.next ?_
  refine State.endTransit_keeps (hq := ?_) ..
  exact hq

theorem State.writePlcOvr_keeps {qq : List Instr} {mm : Option Memory} {cc : Option Chip} (s : State) (v : Nat) (hq : Keeps ⟨qq, mm, cc⟩ s) :
    Keeps ⟨qq, mm, cc⟩ (State.writePlcOvr s v) := by
  unfold State.writePlcOvr
  extract_lets x1
  refine Keeps.ite (fun _ => ?_) (fun _ => ?_)
  exact hq
  refine Keeps.ite (fun _ => ?_) (fun _ => ?_)
  refine State.logEv_keeps (hq := ?_) ..
  refine State.raise_keeps (hq := ?_) ..
  exact hq
  refine State.modPlc_keeps (hq := ?_) ..
  exact hq

theorem execPlcOvr_keeps {qq : List Instr} {mm : Option Memory} {cc : Option Chip} (x : Accessor) (v : Word) (s : State) (hq : Keeps ⟨qq, mm, cc⟩ s) :
    KeepsO ⟨qq, mm, cc⟩ (execPlcOvr x v s) := by
  unfold execPlcOvr
  refine KeepsO.next ?_
  refine State.writePlcOvr_keeps (hq := ?_) ..
  exact hq

theorem State.modPortK_keeps {qq : List Instr} {mm : Option Memory} {cc : Option Chip} (s : State) (p : Nat) (f : KrlPort → KrlPort) (hq : Keeps ⟨qq, mm, cc⟩ s) :
    Keeps ⟨qq, mm, cc⟩ (State.modPortK s p f) := by
  unfold State.modPortK
  refine State.modKrl_keeps (hq := ?_) ..
  exact hq

theorem State.krlFresh_keeps {qq : List Instr} {mm : Option Memory} {cc : Option Chip} (s : State) (hq : Keeps ⟨qq, mm, cc⟩ s) :
    Keeps ⟨qq, mm, cc⟩ (State.krlFresh s) := by
  unfold State.krlFresh
  refine State.modPortK_keeps (hq := ?_) ..
  refine State.modPortK_keeps (hq := ?_) ..
  exact hq

theorem State.krlPut_keeps {qq : List Instr} {mm : Option Memory} {cc : Option Chip} (s : State) (p : Nat) (x : KSent) (hq : Keeps ⟨qq, mm, cc⟩ s) :
    Keeps ⟨qq, mm, cc⟩ (State.krlPut s p x) := by
  unfold State.krlPut
  refine State.modPortK_keeps (hq := ?_) ..
  exact hq

theorem State.krlSend_keeps {qq : List Instr} {mm : Option Memory} {cc : Option Chip} (s : State) (typ : Nat) (sub : Nat) (f : KFrame) (hq : Keeps ⟨qq, mm, cc⟩ s) :
    Keeps ⟨qq, mm, cc⟩ (State.krlSend s typ sub f).2 := by
  unfold State.krlSend
  extract_lets x1
  split
  dsimp -zeta only
  refine State.krlPut_keeps (hq := ?_) ..
  exact hq
  split
  dsimp -zeta only
  refine State.krlPut_keeps (hq := ?_) ..
  exact hq
  exact hq

theorem State.krlHops_keeps {qq : List Instr} {mm : Option Memory} {cc : Option Chip} (s : State) (hq : Keeps ⟨qq, mm, cc⟩ s) :
    Keeps ⟨qq, mm, cc⟩ (State.krlHops s) := by
  unfold State.krlHops
  split
  exact hq
  extract_lets x1 x2
  refine State.wr_keeps (hq := ?_) ..
  exact hq

theorem State.newTopo_keeps {qq : List Instr} {mm : Option Memory} {cc : Option Chip} (s : State) (l : List Nat) (hq : Keeps ⟨qq, mm, cc⟩ s) :
    Keeps ⟨qq, mm, cc⟩ (State.newTopo s l) := by
  unfold State.newTopo
  extract_lets x1 x2 x3 x4
  have h5 : Keeps ⟨qq, mm, cc⟩ x4 := ?_
  split
  refine State.wr_keeps (hq := ?_) ..
  exact h5
  refine Keeps.ite (fun _ => ?_) (fun _ => ?_)
  exact h5
  refine State.logEv_keeps (hq := ?_) ..
  refine State.raise_keeps (hq := ?_) ..
  exact h5
  dsimp -zeta only [x4]
  have h6 : Keeps ⟨qq, mm, cc⟩ x3 := ?_
  refine State.krlHops_keeps (hq := ?_) ..
  exact h6
  dsimp -zeta only [x3]
  have h7 : Keeps ⟨qq, mm, cc⟩ x2 := ?_
  split
  refine Keeps.ite (fun _ => ?_) (fun _ => ?_)
  refine State.modKrl_keeps (hq := ?_) ..
  exact h7
  exact h7
  exact h7
  dsimp -zeta only [x2]
  have h8 : Keeps ⟨qq, mm, cc⟩ x1 := ?_
  refine State.wr_keeps (hq := ?_) ..
  exact h8
  dsimp -zeta only [x1]
  refine State.modKrl_keeps (hq := ?_) ..
  exact hq

theorem State.sendTopo_keeps {qq : List Instr} {mm : Option Memory} {cc : Option Chip} (s : State) (hq : Keeps ⟨qq, mm, cc⟩ s) :
    Keeps ⟨qq, mm, cc⟩ (State.sendTopo s) := by
  unfold State.sendTopo
  extract_lets x1
  refine State.krlSend_keeps (hq := ?_) ..
  refine State.krlSend_keeps (hq := ?_) ..
  exact hq

theorem State.linkTo_keeps {qq : List Instr} {mm : Option Memory} {cc : Option Chip} (s : State) (p : Nat) (st : Nat) (hq : Keeps ⟨qq, mm, cc⟩ s) :
    Keeps ⟨qq, mm, cc⟩ (State.linkTo s p st) := by
  unfold State.linkTo
  extract_lets x1 x2 x3 x4
  have h5 : Keeps ⟨qq, mm, cc⟩ x4 := ?_
  refine State.sendTopo_keeps (hq := ?_) ..
  exact h5
  dsimp -zeta only [x4]
  have h6 : Keeps ⟨qq, mm, cc⟩ x2 := ?_
  refine Keeps.ite (fun _ => ?_) (fun _ => ?_)
  refine State.logEv_keeps (hq := ?_) ..
  refine State.raise_keeps (hq := ?_) ..
  exact h6
  refine Keeps.ite (fun _ => ?_) (fun _ => ?_)
  refine State.logEv_keeps (hq := ?_) ..
  refine State.wr_keeps (hq := ?_) ..
  exact h6
  exact h6
  dsimp -zeta only [x2]
  refine State.logEv_keeps (hq := ?_) ..
  refine State.wr_keeps (hq := ?_) ..
  exact hq

theorem State.krlSample_keeps {qq : List Instr} {mm : Option Memory} {cc : Option Chip} (s : State) (p : Nat) (w : LinkWord) (age : Nat) (hq : Keeps ⟨qq, mm, cc⟩ s) :
    Keeps ⟨qq, mm, cc⟩ (State.krlSample s p w age) := by
  unfold State.krlSample
  extract_lets x1 x2 x3 x4 x5 x6 x7 x8 x9
  have h10 : Keeps ⟨qq, mm, cc⟩ x3 := ?_
  have h11 : Keeps ⟨qq, mm, cc⟩ x6 := ?_
  have h12 : Keeps ⟨qq, mm, cc⟩ x7 := ?_
  refine Keeps.ite (fun _ => ?_) (fun _ => ?_)
  refine Keeps.ite (fun _ => ?_) (fun _ => ?_)
  exact h11
  refine State.linkTo_keeps (hq := ?_) ..
  exact h12
  refine Keeps.ite (fun _ => ?_) (fun _ => ?_)
  refine Keeps.ite (fun _ => ?_) (fun _ => ?_)
  refine State.bump_keeps (hq := ?_) ..
  exact h10
  refine State.modPortK_keeps (hq := ?_) ..
  refine State.wr_keeps (hq := ?_) ..
  exact h10
  exact h10
  dsimp -zeta only [x7]
  refine State.modPortK_keeps (hq := ?_) ..
  refine State.wr_keeps (hq := ?_) ..
  exact h11
  dsimp -zeta only [x6]
  refine State.modPortK_keeps (hq := ?_) ..
  exact h10
  dsimp -zeta only [x3]
  refine State.modPortK_keeps (hq := ?_) ..
  exact hq

theorem State.linkLock_keeps {qq : List Instr} {mm : Option Memory} {cc : Option Chip} (s : State) (p : Nat) (tx : Bool) (lanes : Nat) (hq : Keeps ⟨qq, mm, cc⟩ s) :
    Keeps ⟨qq, mm, cc⟩ (State.linkLock s p tx lanes) := by
  unfold State.linkLock
  extract_lets x1 x2 x3
  have h4 : Keeps ⟨qq, mm, cc⟩ x2 := ?_
  refine Keeps.ite (fun _ => ?_) (fun _ => ?_)
  exact h4
  refine Keeps.ite (fun _ => ?_) (fun _ => ?_)
  refine Keeps.ite (fun _ => ?_) (fun _ => ?_)
  exact h4
  refine State.linkTo_keeps (hq := ?_) ..
  exact h4
  refine Keeps.ite (fun _ => ?_) (fun _ => ?_)
  refine State.linkTo_keeps (hq := ?_) ..
  exact h4
  exact h4
  dsimp -zeta only [x2]
  refine State.wr_keeps (hq := ?_) ..
  exact hq

theorem State.linkDown_keeps {qq : List Instr} {mm : Option Memory} {cc : Option Chip} (s : State) (p : Nat) (tx : Bool) (hq : Keeps ⟨qq, mm, cc⟩ s) :
    Keeps ⟨qq, mm, cc⟩ (State.linkDown s p tx) := by
  unfold State.linkDown
  extract_lets x1 x2
  have h3 : Keeps ⟨qq, mm, cc⟩ x1 := ?_
  have h4 : Keeps ⟨qq, mm, cc⟩ x2 := ?_
  refine Keeps.ite (fun _ => ?_) (fun _ => ?_)
  exact h3
  refine State.linkTo_keeps (hq := ?_) ..
  exact h4
  dsimp -zeta only [x2]
  refine State.modPortK_keeps (hq := ?_) ..
  exact h3
  dsimp -zeta only [x1]
  refine State.wr_keeps (hq := ?_) ..
  exact hq

theorem State.newSource_keeps {qq : List Instr} {mm : Option Memory} {cc : Option Chip} (s : State) (src : Nat) (hq : Keeps ⟨qq, mm, cc⟩ s) :
    Keeps ⟨qq, mm, cc⟩ (State.newSource s src) := by
  unfold State.newSource
  extract_lets x1 x2 x3
  have h4 : Keeps ⟨qq, mm, cc⟩ x3 := ?_
  refine State.logEv_keeps (hq := ?_) ..
  exact h4
  dsimp -zeta only [x3]
  have h5 : Keeps ⟨qq, mm, cc⟩ x2 := ?_
  refine State.modTb_keeps (hq := ?_) ..
  exact h5
  dsimp -zeta only [x2]
  refine State.goCold_keeps (hq := ?_) ..
  exact hq

theorem State.becomeFollower_keeps {qq : List Instr} {mm : Option Memory} {cc : Option Chip} (s : State) (hq : Keeps ⟨qq, mm, cc⟩ s) :
    Keeps ⟨qq, mm, cc⟩ (State.becomeFollower s) := by
  unfold State.becomeFollower
  refine State.startHold_keeps (hq := ?_) ..
  refine State.newSource_keeps (hq := ?_) ..
  refine State.wr_keeps (hq := ?_) ..
  exact hq

theorem State.reelPosition_keeps {qq : List Instr} {mm : Option Memory} {cc : Option Chip} (s : State) (r : Reel) (hq : Keeps ⟨qq, mm, cc⟩ s) :
    Keeps ⟨qq, mm, cc⟩ (State.reelPosition s r) := by
  unfold State.reelPosition
  extract_lets x1 x2 x3 x4 x5 x6 x7 x8
  have h9 : Keeps ⟨qq, mm, cc⟩ x5 := ?_
  have h10 : Keeps ⟨qq, mm, cc⟩ x7 := ?_
  have h11 : Keeps ⟨qq, mm, cc⟩ x8 := ?_
  refine Keeps.ite (fun _ => ?_) (fun _ => ?_)
  refine State.modEvt_keeps (hq := ?_) ..
  exact h10
  refine Keeps.ite (fun _ => ?_) (fun _ => ?_)
  refine State.dirTurned_keeps (hq := ?_) ..
  exact h11
  exact h11
  dsimp -zeta only [x8]
  refine State.trackNow_keeps (hq := ?_) ..
  exact h9
  dsimp -zeta only [x7]
  have h12 : Keeps ⟨qq, mm, cc⟩ x6 := ?_
  refine State.modTb_keeps (hq := ?_) ..
  exact h12
  dsimp -zeta only [x6]
  refine State.trackNow_keeps (hq := ?_) ..
  refine State.modKrl_keeps (hq := ?_) ..
  exact h9
  dsimp -zeta only [x5]
  have h13 : Keeps ⟨qq, mm, cc⟩ x4 := ?_
  refine State.modTb_keeps (hq := ?_) ..
  exact h13
  dsimp -zeta only [x4]
  have h14 : Keeps ⟨qq, mm, cc⟩ x3 := ?_
  refine Keeps.ite (fun _ => ?_) (fun _ => ?_)
  refine State.goCold_keeps (hq := ?_) ..
  exact hq
  refine Keeps.ite (fun _ => ?_) (fun _ => ?_)
  refine State.logEv_keeps (hq := ?_) ..
  exact h14
  exact hq
  dsimp -zeta only [x3]
  refine State.modTb_keeps (hq := ?_) ..
  exact hq

theorem State.useReel_keeps {qq : List Instr} {mm : Option Memory} {cc : Option Chip} (s : State) (r : Reel) (hq : Keeps ⟨qq, mm, cc⟩ s) :
    Keeps ⟨qq, mm, cc⟩ (State.useReel s r) := by
  unfold State.useReel
  extract_lets x1 x2 x3 x4 x5 x6 x7 x8 x9 x10 x11 x12 x13 x14 x15
  have h16 : Keeps ⟨qq, mm, cc⟩ x15 := ?_
  refine Keeps.ite (fun _ => ?_) (fun _ => ?_)
  exact hq
  refine Keeps.ite (fun _ => ?_) (fun _ => ?_)
  refine State.reelPosition_keeps (hq := ?_) ..
  exact h16
  exact h16
  dsimp -zeta only [x15]
  have h17 : Keeps ⟨qq, mm, cc⟩ x14 := ?_
  refine Keeps.ite (fun _ => ?_) (fun _ => ?_)
  refine State.endHold_keeps (hq := ?_) ..
  exact h17
  exact h17
  dsimp -zeta only [x14]
  have h18 : Keeps ⟨qq, mm, cc⟩ x13 := ?_
  refine State.krlHops_keeps (hq := ?_) ..
  exact h18
  dsimp -zeta only [x13]
  have h19 : Keeps ⟨qq, mm, cc⟩ x12 := ?_
  refine State.wr_keeps (hq := ?_) ..
  refine State.wr_keeps (hq := ?_) ..
  refine State.wr_keeps (hq := ?_) ..
  exact h19
  dsimp -zeta only [x12]
  have h20 : Keeps ⟨qq, mm, cc⟩ x11 := ?_
  refine State.wr_keeps (hq := ?_) ..
  refine State.wr_keeps (hq := ?_) ..
  refine State.wr_keeps (hq := ?_) ..
  exact h20
  dsimp -zeta only [x11]
  have h21 : Keeps ⟨qq, mm, cc⟩ x9 := ?_
  refine State.modKrl_keeps (hq := ?_) ..
  exact h21
  dsimp -zeta only [x9]
  have h22 : Keeps ⟨qq, mm, cc⟩ x8 := ?_
  refine Keeps.ite (fun _ => ?_) (fun _ => ?_)
  refine State.wr_keeps (hq := ?_) ..
  exact h22
  refine Keeps.ite (fun _ => ?_) (fun _ => ?_)
  refine State.bump_keeps (hq := ?_) ..
  exact h22
  exact h22
  dsimp -zeta only [x8]
  refine State.bump_keeps (hq := ?_) ..
  exact hq

theorem State.forwardReel_keeps {qq : List Instr} {mm : Option Memory} {cc : Option Chip} (s : State) (a : ReelArgs) (hq : Keeps ⟨qq, mm, cc⟩ s) :
    Keeps ⟨qq, mm, cc⟩ (State.forwardReel s a) := by
  unfold State.forwardReel
  extract_lets x1 x2 x3
  refine Keeps.ite (fun _ => ?_) (fun _ => ?_)
  exact hq
  refine State.krlPut_keeps (hq := ?_) ..
  exact hq

theorem State.sendReel_keeps {qq : List Instr} {mm : Option Memory} {cc : Option Chip} (s : State) (p : Nat) (hq : Keeps ⟨qq, mm, cc⟩ s) :
    Keeps ⟨qq, mm, cc⟩ (State.sendReel s p) := by
  unfold State.sendReel
  refine Keeps.ite (fun _ => ?_) (fun _ => ?_)
  exact hq
  extract_lets x1
  refine State.krlPut_keeps (hq := ?_) ..
  exact hq

theorem State.becomeMaster_keeps {qq : List Instr} {mm : Option Memory} {cc : Option Chip} (s : State) (era : Nat) (hq : Keeps ⟨qq, mm, cc⟩ s) :
    Keeps ⟨qq, mm, cc⟩ (State.becomeMaster s era) := by
  unfold State.becomeMaster
  refine State.krlHops_keeps (hq := ?_) ..
  refine State.raise_keeps (hq := ?_) ..
  refine State.wr_keeps (hq := ?_) ..
  refine State.wr_keeps (hq := ?_) ..
  exact hq

theorem State.takeOver_keeps {qq : List Instr} {mm : Option Memory} {cc : Option Chip} (s : State) (hq : Keeps ⟨qq, mm, cc⟩ s) :
    Keeps ⟨qq, mm, cc⟩ (State.takeOver s) := by
  unfold State.takeOver
  extract_lets x1 x2 x3 x4 x5 x6
  have h7 : Keeps ⟨qq, mm, cc⟩ x6 := ?_
  refine State.logEv_keeps (hq := ?_) ..
  refine State.becomeMaster_keeps (hq := ?_) ..
  exact h7
  dsimp -zeta only [x6]
  have h8 : Keeps ⟨qq, mm, cc⟩ x5 := ?_
  refine State.trackNow_keeps (hq := ?_) ..
  refine State.newSource_keeps (hq := ?_) ..
  exact h8
  dsimp -zeta only [x5]
  have h9 : Keeps ⟨qq, mm, cc⟩ x4 := ?_
  refine State.modTb_keeps (hq := ?_) ..
  exact h9
  dsimp -zeta only [x4]
  refine State.startHold_keeps (hq := ?_) ..
  exact hq

theorem State.reelsLost_keeps {qq : List Instr} {mm : Option Memory} {cc : Option Chip} (s : State) (hq : Keeps ⟨qq, mm, cc⟩ s) :
    Keeps ⟨qq, mm, cc⟩ (State.reelsLost s) := by
  unfold State.reelsLost
  refine Keeps.ite (fun _ => ?_) (fun _ => ?_)
  exact hq
  extract_lets x1 x2
  have h3 : Keeps ⟨qq, mm, cc⟩ x2 := ?_
  refine Keeps.ite (fun _ => ?_) (fun _ => ?_)
  refine State.takeOver_keeps (hq := ?_) ..
  exact h3
  refine State.startHold_keeps (hq := ?_) ..
  exact h3
  dsimp -zeta only [x2]
  have h4 : Keeps ⟨qq, mm, cc⟩ x1 := ?_
  refine State.modKrl_keeps (hq := ?_) ..
  exact h4
  dsimp -zeta only [x1]
  refine State.bump_keeps (hq := ?_) ..
  exact hq

theorem State.startKrl_keeps {qq : List Instr} {mm : Option Memory} {cc : Option Chip} (s : State) (hq : Keeps ⟨qq, mm, cc⟩ s) :
    Keeps ⟨qq, mm, cc⟩ (State.startKrl s) := by
  unfold State.startKrl
  refine Keeps.ite (fun _ => ?_) (fun _ => ?_)
  exact hq
  extract_lets x1 x2 x3
  have h4 : Keeps ⟨qq, mm, cc⟩ x3 := ?_
  refine Keeps.ite (fun _ => ?_) (fun _ => ?_)
  exact h4
  refine State.startHold_keeps (hq := ?_) ..
  exact h4
  dsimp -zeta only [x3]
  have h5 : Keeps ⟨qq, mm, cc⟩ x2 := ?_
  refine Keeps.foldl (fun t6 y7 h8 => ?_) ?_
  refine State.wr_keeps (hq := ?_) ..
  refine State.wr_keeps (hq := ?_) ..
  refine State.wr_keeps (hq := ?_) ..
  refine State.wr_keeps (hq := ?_) ..
  exact h8
  exact h5
  dsimp -zeta only [x2]
  have h9 : Keeps ⟨qq, mm, cc⟩ x1 := ?_
  refine State.wr_keeps (hq := ?_) ..
  refine State.raise_keeps (hq := ?_) ..
  exact h9
  dsimp -zeta only [x1]
  refine Keeps.foldl (fun t10 y11 h12 => ?_) ?_
  refine State.wr_keeps (hq := ?_) ..
  exact h12
  exact hq

theorem State.krlCrc_keeps {qq : List Instr} {mm : Option Memory} {cc : Option Chip} (s : State) (p : Nat) (lane : Nat) (hq : Keeps ⟨qq, mm, cc⟩ s) :
    Keeps ⟨qq, mm, cc⟩ (State.krlCrc s p lane) := by
  unfold State.krlCrc
  refine State.logEvLimited_keeps (hq := ?_) ..
  refine State.bump_keeps (hq := ?_) ..
  exact hq

theorem State.krlMgmt_keeps {qq : List Instr} {mm : Option Memory} {cc : Option Chip} (s : State) (dst : Nat) (sub : Nat) (status : Nat) (seq : Nat) (words : List Word) (hq : Keeps ⟨qq, mm, cc⟩ s) :
    Keeps ⟨qq, mm, cc⟩ (State.krlMgmt s dst sub status seq words).2 := by
  unfold State.krlMgmt
  extract_lets x1
  split
  dsimp -zeta only
  refine Keeps.ite (fun _ => ?_) (fun _ => ?_)
  refine State.modKrl_keeps (hq := ?_) ..
  refine Keeps.snd_eq (by assumption) ?_
  refine State.krlSend_keeps (hq := ?_) ..
  exact hq
  refine Keeps.snd_eq (by assumption) ?_
  refine State.krlSend_keeps (hq := ?_) ..
  exact hq

theorem State.krlDrop_keeps {qq : List Instr} {mm : Option Memory} {cc : Option Chip} (s : State) (f : KFrame) (status : Nat) (hq : Keeps ⟨qq, mm, cc⟩ s) :
    Keeps ⟨qq, mm, cc⟩ (State.krlDrop s f status) := by
  unfold State.krlDrop
  refine State.krlMgmt_keeps (hq := ?_) ..
  exact hq

theorem State.krlForward_keeps {qq : List Instr} {mm : Option Memory} {cc : Option Chip} (s : State) (typ : Nat) (sub : Nat) (a : FrameArgs) (hq : Keeps ⟨qq, mm, cc⟩ s) :
    Keeps ⟨qq, mm, cc⟩ (State.krlForward s typ sub a).2 := by
  unfold State.krlForward
  split
  exact hq
  refine State.krlSend_keeps (hq := ?_) ..
  exact hq

theorem State.krlArrive_keeps {qq : List Instr} {mm : Option Memory} {cc : Option Chip} (s : State) (sub : Nat) (a : FrameArgs) (hq : Keeps ⟨qq, mm, cc⟩ s) :
    Keeps ⟨qq, mm, cc⟩ (State.krlArrive s sub a).2 := by
  unfold State.krlArrive
  split
  exact hq
  extract_lets x1 x2 x3
  have h4 : Keeps ⟨qq, mm, cc⟩ x1 := ?_
  have h5 : Keeps ⟨qq, mm, cc⟩ x3 := ?_
  split
  dsimp -zeta only
  refine State.krlCrc_keeps (hq := ?_) ..
  exact h4
  split
  dsimp -zeta only
  refine State.krlForward_keeps (hq := ?_) ..
  exact h4
  dsimp -zeta only
  refine State.modKrl_keeps (hq := ?_) ..
  exact h5
  dsimp -zeta only [x3]
  refine Keeps.ite (fun _ => ?_) (fun _ => ?_)
  refine State.bump_keeps (hq := ?_) ..
  exact h4
  exact h4
  dsimp -zeta only [x1]
  refine State.krlFresh_keeps (hq := ?_) ..
  exact hq

theorem State.topoArrives_keeps {qq : List Instr} {mm : Option Memory} {cc : Option Chip} (s : State) (a : FrameArgs) (hq : Keeps ⟨qq, mm, cc⟩ s) :
    Keeps ⟨qq, mm, cc⟩ (State.topoArrives s a) := by
  unfold State.topoArrives
  extract_lets x1 x2 x3 x4 x5 x6 x7 x8
  have h9 : Keeps ⟨qq, mm, cc⟩ x6 := ?_
  refine Keeps.ite (fun _ => ?_) (fun _ => ?_)
  refine State.newTopo_keeps (hq := ?_) ..
  exact hq
  refine Keeps.ite (fun _ => ?_) (fun _ => ?_)
  refine State.krlForward_keeps (hq := ?_) ..
  exact hq
  refine State.krlForward_keeps (hq := ?_) ..
  exact h9
  dsimp -zeta only [x6]
  have h10 : Keeps ⟨qq, mm, cc⟩ x5 := ?_
  dsimp -zeta only [x4]
  split
  refine Keeps.ite (fun _ => ?_) (fun _ => ?_)
  refine State.newTopo_keeps (hq := ?_) ..
  exact h10
  exact h10
  exact h10
  dsimp -zeta only [x5]
  refine State.modKrl_keeps (hq := ?_) ..
  exact hq

theorem State.askStart_keeps {qq : List Instr} (s : State) (hq : Keeps ⟨qq, none, none⟩ s) :
    Keeps ⟨qq, none, none⟩ (State.askStart s) := by
  unfold State.askStart
  extract_lets x1
  refine Keeps.ite (fun _ => ?_) (fun _ => ?_)
  refine Keeps.ite (fun _ => ?_) (fun _ => ?_)
  exact hq
  refine State.secAlarm_keeps (hq := ?_) ..
  refine State.logEv_keeps (hq := ?_) ..
  refine State.raise_keeps (hq := ?_) ..
  exact hq
  refine Keeps.ite (fun _ => ?_) (fun _ => ?_)
  exact hq
  refine State.journal_keeps (hq := ?_) ..
  exact hq

theorem State.startWritten_keeps {qq : List Instr} {mm : Option Memory} {cc : Option Chip} (s : State) (v : Nat) (hq : Keeps ⟨qq, mm, cc⟩ s) :
    Keeps ⟨qq, mm, cc⟩ (State.startWritten s v) := by
  unfold State.startWritten
  refine State.modKrl_keeps (hq := ?_) ..
  refine State.wr_keeps (hq := ?_) ..
  exact hq

theorem State.krlData_keeps {qq : List Instr} (s : State) (p : Packet) (hq : Keeps ⟨qq, none, none⟩ s) :
    Keeps ⟨qq, none, none⟩ (State.krlData s p).2 := by
  unfold State.krlData
  extract_lets x1 x2 x3 x4 x5 x6 x7 x8 x9 x10 x11
  have h12 : Keeps ⟨qq, none, none⟩ x9 := ?_
  split
  dsimp -zeta only [x6]
  refine State.dropAt_keeps (hq := ?_) ..
  exact hq
  split
  dsimp -zeta only [x6]
  refine State.dropAt_keeps (hq := ?_) ..
  exact hq
  split
  exact hq
  split
  dsimp -zeta only [x6]
  refine State.dropAt_keeps (hq := ?_) ..
  exact hq
  split
  dsimp -zeta only [x6]
  refine State.dropAt_keeps (hq := ?_) ..
  exact h12
  split
  exact h12
  split
  dsimp -zeta only
  refine State.modKrl_keeps (hq := ?_) ..
  refine Keeps.snd_eq (by assumption) ?_
  refine State.krlSend_keeps (hq := ?_) ..
  refine State.crcTap_keeps (hq := ?_) ..
  exact h12
  dsimp -zeta only [x9]
  refine Keeps.ite (fun _ => ?_) (fun _ => ?_)
  refine State.askStart_keeps (hq := ?_) ..
  refine State.modKrl_keeps (hq := ?_) ..
  exact hq
  exact hq

theorem State.krlAck_keeps {qq : List Instr} {mm : Option Memory} {cc : Option Chip} (s : State) (k : Nat) (hq : Keeps ⟨qq, mm, cc⟩ s) :
    Keeps ⟨qq, mm, cc⟩ (State.krlAck s k) := by
  unfold State.krlAck
  extract_lets x1
  split
  exact hq
  split
  refine State.modKrl_keeps (hq := ?_) ..
  refine Keeps.snd_eq (by assumption) ?_
  refine State.krlMgmt_keeps (hq := ?_) ..
  exact hq

theorem State.krlDeliver_keeps {qq : List Instr} (s : State) (a : FrameArgs) (hq : Keeps ⟨qq, none, none⟩ s) :
    Keeps ⟨qq, none, none⟩ (State.krlDeliver s a) := by
  unfold State.krlDeliver
  extract_lets x1 x2 x3 x4 x5 x6 x7 x8 x9 x10 x11 x12 x13 x14 x15 x16
  have h17 : Keeps ⟨qq, none, none⟩ x8 := ?_
  have h18 : Keeps ⟨qq, none, none⟩ x14 := ?_
  refine Keeps.ite (fun _ => ?_) (fun _ => ?_)
  refine State.krlDrop_keeps (hq := ?_) ..
  exact hq
  refine Keeps.ite (fun _ => ?_) (fun _ => ?_)
  refine State.secAlarm_keeps (hq := ?_) ..
  exact h17
  split
  refine State.dropArrives_keeps (hq := ?_) ..
  exact h18
  refine State.inject_keeps (hq := ?_) ..
  exact h18
  dsimp -zeta only [x14]
  have h19 : Keeps ⟨qq, none, none⟩ x13 := ?_
  refine Keeps.ite (fun _ => ?_) (fun _ => ?_)
  refine State.krlAck_keeps (hq := ?_) ..
  exact h19
  exact h19
  dsimp -zeta only [x13]
  have h20 : Keeps ⟨qq, none, none⟩ x10 := ?_
  refine State.modKrl_keeps (hq := ?_) ..
  exact h20
  dsimp -zeta only [x10]
  refine Keeps.ite (fun _ => ?_) (fun _ => ?_)
  exact hq
  refine State.logEvLimited_keeps (hq := ?_) ..
  refine State.bump_keeps (hq := ?_) ..
  exact hq
  dsimp -zeta only [x8]
  have h21 : Keeps ⟨qq, none, none⟩ x7 := ?_
  refine State.krlDrop_keeps (hq := ?_) ..
  refine State.logEv_keeps (hq := ?_) ..
  exact h21
  dsimp -zeta only [x7]
  refine State.raise_keeps (hq := ?_) ..
  refine State.bump_keeps (hq := ?_) ..
  exact hq

theorem State.ledgerDrop_keeps {qq : List Instr} {mm : Option Memory} {cc : Option Chip} (s : State) (x : KrlOpen) (status : Nat) (hq : Keeps ⟨qq, mm, cc⟩ s) :
    Keeps ⟨qq, mm, cc⟩ (State.ledgerDrop s x status) := by
  unfold State.ledgerDrop
  extract_lets x1
  have h2 : Keeps ⟨qq, mm, cc⟩ x1 := ?_
  refine State.dropAt_keeps (hq := ?_) ..
  exact h2
  dsimp -zeta only [x1]
  refine State.modKrl_keeps (hq := ?_) ..
  exact hq

theorem State.answerAsk_keeps {qq : List Instr} {mm : Option Memory} {cc : Option Chip} (s : State) (a : KrlAsk) (status : Nat) (words : List Word) (hq : Keeps ⟨qq, mm, cc⟩ s) :
    Keeps ⟨qq, mm, cc⟩ (State.answerAsk s a status words) := by
  unfold State.answerAsk
  extract_lets x1
  split
  refine State.respond_keeps (hq := ?_) ..
  exact hq
  refine State.modKrl_keeps (hq := ?_) ..
  exact hq

theorem State.krlAsk_keeps {qq : List Instr} {mm : Option Memory} {cc : Option Chip} (s : State) (node : Nat) (addr : Nat) (write : Option Word) (pkt : Option Packet) (hq : Keeps ⟨qq, mm, cc⟩ s) :
    Keeps ⟨qq, mm, cc⟩ (State.krlAsk s node addr write pkt) := by
  unfold State.krlAsk
  extract_lets x1 x2 x3 x4
  have h5 : Keeps ⟨qq, mm, cc⟩ x1 := ?_
  refine Keeps.ite (fun _ => ?_) (fun _ => ?_)
  refine State.answerAsk_keeps (hq := ?_) ..
  exact h5
  split
  refine State.modKrl_keeps (hq := ?_) ..
  refine Keeps.snd_eq (by assumption) ?_
  refine State.krlMgmt_keeps (hq := ?_) ..
  exact h5
  dsimp -zeta only [x1]
  refine State.krlFresh_keeps (hq := ?_) ..
  exact hq

theorem execReelSend_keeps {qq : List Instr} {mm : Option Memory} {cc : Option Chip} (s : State) (hq : Keeps ⟨qq, mm, cc⟩ s) :
    KeepsO ⟨qq, mm, cc⟩ (execReelSend s) := by
  unfold execReelSend
  refine KeepsO.next ?_
  refine Keeps.ite (fun _ => ?_) (fun _ => ?_)
  refine State.sendReel_keeps (hq := ?_) ..
  refine State.sendReel_keeps (hq := ?_) ..
  refine State.krlFresh_keeps (hq := ?_) ..
  exact hq
  exact hq

theorem execReel_keeps {qq : List Instr} {mm : Option Memory} {cc : Option Chip} (a : ReelArgs) (s : State) (hq : Keeps ⟨qq, mm, cc⟩ s) :
    KeepsO ⟨qq, mm, cc⟩ (execReel a s) := by
  unfold execReel
  refine KeepsO.ite (fun _ => ?_) (fun _ => ?_)
  refine KeepsO.next ?_
  exact hq
  extract_lets x1 x2 x3 x4 x5 x6
  have h7 : Keeps ⟨qq, mm, cc⟩ x1 := ?_
  have h8 : Keeps ⟨qq, mm, cc⟩ x3 := ?_
  have h9 : Keeps ⟨qq, mm, cc⟩ x6 := ?_
  refine KeepsO.ite (fun _ => ?_) (fun _ => ?_)
  refine KeepsO.next ?_
  refine State.krlCrc_keeps (hq := ?_) ..
  exact h7
  refine KeepsO.ite (fun _ => ?_) (fun _ => ?_)
  refine KeepsO.next ?_
  exact h8
  refine KeepsO.ite (fun _ => ?_) (fun _ => ?_)
  refine KeepsO.next ?_
  refine State.forwardReel_keeps (hq := ?_) ..
  refine State.useReel_keeps (hq := ?_) ..
  exact h9
  refine KeepsO.next ?_
  refine State.forwardReel_keeps (hq := ?_) ..
  exact h8
  dsimp -zeta only [x6]
  refine Keeps.ite (fun _ => ?_) (fun _ => ?_)
  refine State.becomeFollower_keeps (hq := ?_) ..
  exact h8
  exact h8
  dsimp -zeta only [x3]
  refine State.krlSample_keeps (hq := ?_) ..
  exact h7
  dsimp -zeta only [x1]
  refine State.krlFresh_keeps (hq := ?_) ..
  exact hq

theorem execFillSend_keeps {qq : List Instr} {mm : Option Memory} {cc : Option Chip} (p : Fin 2) (s : State) (hq : Keeps ⟨qq, mm, cc⟩ s) :
    KeepsO ⟨qq, mm, cc⟩ (execFillSend p s) := by
  unfold execFillSend
  refine KeepsO.ite (fun _ => ?_) (fun _ => ?_)
  refine KeepsO.next ?_
  exact hq
  extract_lets x1 x2 x3
  have h4 : Keeps ⟨qq, mm, cc⟩ x3 := ?_
  refine KeepsO.next ?_
  refine State.krlPut_keeps (hq := ?_) ..
  exact h4
  dsimp -zeta only [x3]
  have h5 : Keeps ⟨qq, mm, cc⟩ x1 := ?_
  refine State.modPortK_keeps (hq := ?_) ..
  exact h5
  dsimp -zeta only [x1]
  refine State.krlFresh_keeps (hq := ?_) ..
  exact hq

theorem execFill_keeps {qq : List Instr} {mm : Option Memory} {cc : Option Chip} (p : Fin 2) (crcOk : Bool) (link : LinkWord) (age : Byte) (alive : Byte) (s : State) (hq : Keeps ⟨qq, mm, cc⟩ s) :
    KeepsO ⟨qq, mm, cc⟩ (execFill p crcOk link age alive s) := by
  unfold execFill
  refine KeepsO.ite (fun _ => ?_) (fun _ => ?_)
  refine KeepsO.next ?_
  exact hq
  extract_lets x1 x2 x3
  have h4 : Keeps ⟨qq, mm, cc⟩ x1 := ?_
  have h5 : Keeps ⟨qq, mm, cc⟩ x3 := ?_
  refine KeepsO.ite (fun _ => ?_) (fun _ => ?_)
  refine KeepsO.next ?_
  refine State.krlCrc_keeps (hq := ?_) ..
  exact h4
  refine KeepsO.next ?_
  refine State.krlSample_keeps (hq := ?_) ..
  exact h5
  dsimp -zeta only [x3]
  have h6 : Keeps ⟨qq, mm, cc⟩ x2 := ?_
  refine State.modPortK_keeps (hq := ?_) ..
  exact h6
  dsimp -zeta only [x2]
  split
  refine Keeps.ite (fun _ => ?_) (fun _ => ?_)
  exact h4
  refine State.bump_keeps (hq := ?_) ..
  exact h4
  exact h4
  dsimp -zeta only [x1]
  refine State.krlFresh_keeps (hq := ?_) ..
  exact hq

theorem execData_keeps {qq : List Instr} (a : FrameArgs) (s : State) (hq : Keeps ⟨qq, none, none⟩ s) :
    KeepsO ⟨qq, none, none⟩ (execData a s) := by
  unfold execData
  refine KeepsO.ite (fun _ => ?_) (fun _ => ?_)
  refine KeepsO.next ?_
  exact hq
  extract_lets x1
  have h2 : Keeps ⟨qq, none, none⟩ x1 := ?_
  refine KeepsO.ite (fun _ => ?_) (fun _ => ?_)
  refine KeepsO.next ?_
  refine State.krlDrop_keeps (hq := ?_) ..
  refine State.krlCrc_keeps (hq := ?_) ..
  exact h2
  refine KeepsO.ite (fun _ => ?_) (fun _ => ?_)
  refine KeepsO.next ?_
  refine State.krlDeliver_keeps (hq := ?_) ..
  exact h2
  split
  refine KeepsO.next ?_
  refine Keeps.ite (fun _ => ?_) (fun _ => ?_)
  refine Keeps.snd_eq (by assumption) ?_
  refine State.krlForward_keeps (hq := ?_) ..
  exact h2
  refine State.krlDrop_keeps (hq := ?_) ..
  refine Keeps.snd_eq (by assumption) ?_
  refine State.krlForward_keeps (hq := ?_) ..
  exact h2
  dsimp -zeta only [x1]
  refine State.krlFresh_keeps (hq := ?_) ..
  exact hq

theorem execMgmtResponse_keeps {qq : List Instr} {mm : Option Memory} {cc : Option Chip} (a : FrameArgs) (s : State) (hq : Keeps ⟨qq, mm, cc⟩ s) :
    KeepsO ⟨qq, mm, cc⟩ (execMgmtResponse a s) := by
  unfold execMgmtResponse
  split
  refine KeepsO.ite (fun _ => ?_) (fun _ => ?_)
  refine KeepsO.next ?_
  refine Keeps.snd_eq (by assumption) ?_
  refine State.krlArrive_keeps (hq := ?_) ..
  exact hq
  split
  refine KeepsO.next ?_
  refine State.bump_keeps (hq := ?_) ..
  refine Keeps.snd_eq (by assumption) ?_
  refine State.krlArrive_keeps (hq := ?_) ..
  exact hq
  refine KeepsO.next ?_
  refine State.answerAsk_keeps (hq := ?_) ..
  refine State.modKrl_keeps (hq := ?_) ..
  refine Keeps.snd_eq (by assumption) ?_
  refine State.krlArrive_keeps (hq := ?_) ..
  exact hq

theorem execMgmtAck_keeps {qq : List Instr} {mm : Option Memory} {cc : Option Chip} (a : FrameArgs) (s : State) (hq : Keeps ⟨qq, mm, cc⟩ s) :
    KeepsO ⟨qq, mm, cc⟩ (execMgmtAck a s) := by
  unfold execMgmtAck
  split
  refine KeepsO.ite (fun _ => ?_) (fun _ => ?_)
  refine KeepsO.next ?_
  refine Keeps.snd_eq (by assumption) ?_
  refine State.krlArrive_keeps (hq := ?_) ..
  exact hq
  extract_lets x1 x2
  refine KeepsO.ite (fun _ => ?_) (fun _ => ?_)
  refine KeepsO.next ?_
  refine State.modKrl_keeps (hq := ?_) ..
  refine Keeps.snd_eq (by assumption) ?_
  refine State.krlArrive_keeps (hq := ?_) ..
  exact hq
  refine KeepsO.next ?_
  refine State.bump_keeps (hq := ?_) ..
  refine Keeps.snd_eq (by assumption) ?_
  refine State.krlArrive_keeps (hq := ?_) ..
  exact hq

theorem execMgmtDrop_keeps {qq : List Instr} {mm : Option Memory} {cc : Option Chip} (a : FrameArgs) (s : State) (hq : Keeps ⟨qq, mm, cc⟩ s) :
    KeepsO ⟨qq, mm, cc⟩ (execMgmtDrop a s) := by
  unfold execMgmtDrop
  split
  refine KeepsO.ite (fun _ => ?_) (fun _ => ?_)
  refine KeepsO.next ?_
  refine Keeps.snd_eq (by assumption) ?_
  refine State.krlArrive_keeps (hq := ?_) ..
  exact hq
  extract_lets x1
  split
  refine KeepsO.next ?_
  refine State.bump_keeps (hq := ?_) ..
  refine Keeps.snd_eq (by assumption) ?_
  refine State.krlArrive_keeps (hq := ?_) ..
  exact hq
  refine KeepsO.next ?_
  refine State.ledgerDrop_keeps (hq := ?_) ..
  refine State.bump_keeps (hq := ?_) ..
  refine Keeps.snd_eq (by assumption) ?_
  refine State.krlArrive_keeps (hq := ?_) ..
  exact hq

theorem execTopo_keeps {qq : List Instr} {mm : Option Memory} {cc : Option Chip} (a : FrameArgs) (s : State) (hq : Keeps ⟨qq, mm, cc⟩ s) :
    KeepsO ⟨qq, mm, cc⟩ (execTopo a s) := by
  unfold execTopo
  refine KeepsO.ite (fun _ => ?_) (fun _ => ?_)
  refine KeepsO.next ?_
  exact hq
  extract_lets x1
  have h2 : Keeps ⟨qq, mm, cc⟩ x1 := ?_
  refine KeepsO.next ?_
  refine Keeps.ite (fun _ => ?_) (fun _ => ?_)
  refine State.topoArrives_keeps (hq := ?_) ..
  exact h2
  refine State.krlCrc_keeps (hq := ?_) ..
  exact h2
  dsimp -zeta only [x1]
  refine State.krlFresh_keeps (hq := ?_) ..
  exact hq

theorem execAckSend_keeps {qq : List Instr} {mm : Option Memory} {cc : Option Chip} (s : State) (hq : Keeps ⟨qq, mm, cc⟩ s) :
    KeepsO ⟨qq, mm, cc⟩ (execAckSend s) := by
  unfold execAckSend
  refine KeepsO.ite (fun _ => ?_) (fun _ => ?_)
  refine KeepsO.next ?_
  exact hq
  extract_lets x1
  refine KeepsO.next ?_
  refine Keeps.foldl (fun t2 y3 h4 => ?_) ?_
  refine State.krlAck_keeps (hq := ?_) ..
  exact h4
  refine State.krlFresh_keeps (hq := ?_) ..
  exact hq

theorem execLinkBlockLock_keeps {qq : List Instr} {mm : Option Memory} {cc : Option Chip} (p : Fin 2) (tx : Bool) (lanes : BitVec 2) (s : State) (hq : Keeps ⟨qq, mm, cc⟩ s) :
    KeepsO ⟨qq, mm, cc⟩ (execLinkBlockLock p tx lanes s) := by
  unfold execLinkBlockLock
  refine KeepsO.next ?_
  refine Keeps.ite (fun _ => ?_) (fun _ => ?_)
  refine State.linkLock_keeps (hq := ?_) ..
  refine State.krlFresh_keeps (hq := ?_) ..
  exact hq
  exact hq

theorem execLinkDown_keeps {qq : List Instr} {mm : Option Memory} {cc : Option Chip} (p : Fin 2) (tx : Bool) (s : State) (hq : Keeps ⟨qq, mm, cc⟩ s) :
    KeepsO ⟨qq, mm, cc⟩ (execLinkDown p tx s) := by
  unfold execLinkDown
  refine KeepsO.next ?_
  refine Keeps.ite (fun _ => ?_) (fun _ => ?_)
  refine State.linkDown_keeps (hq := ?_) ..
  refine State.krlFresh_keeps (hq := ?_) ..
  exact hq
  exact hq

theorem execReelsLost_keeps {qq : List Instr} {mm : Option Memory} {cc : Option Chip} (s : State) (hq : Keeps ⟨qq, mm, cc⟩ s) :
    KeepsO ⟨qq, mm, cc⟩ (execReelsLost s) := by
  unfold execReelsLost
  refine KeepsO.next ?_
  refine Keeps.ite (fun _ => ?_) (fun _ => ?_)
  refine State.reelsLost_keeps (hq := ?_) ..
  exact hq
  exact hq

theorem execReelFreeze_keeps {qq : List Instr} {mm : Option Memory} {cc : Option Chip} (s : State) (hq : Keeps ⟨qq, mm, cc⟩ s) :
    KeepsO ⟨qq, mm, cc⟩ (execReelFreeze s) := by
  unfold execReelFreeze
  refine KeepsO.next ?_
  refine Keeps.ite (fun _ => ?_) (fun _ => ?_)
  refine State.modKrl_keeps (hq := ?_) ..
  exact hq
  exact hq

theorem execMasterStart_keeps {qq : List Instr} {mm : Option Memory} {cc : Option Chip} (s : State) (hq : Keeps ⟨qq, mm, cc⟩ s) :
    KeepsO ⟨qq, mm, cc⟩ (execMasterStart s) := by
  unfold execMasterStart
  refine KeepsO.next ?_
  refine Keeps.ite (fun _ => ?_) (fun _ => ?_)
  refine State.wr_keeps (hq := ?_) ..
  refine State.becomeMaster_keeps (hq := ?_) ..
  exact hq
  exact hq

theorem execHoldLimit_keeps {qq : List Instr} (s : State) (hq : Keeps ⟨qq, none, none⟩ s) :
    KeepsO ⟨qq, none, none⟩ (execHoldLimit s) := by
  unfold execHoldLimit
  refine KeepsO.ite (fun _ => ?_) (fun _ => ?_)
  refine KeepsO.next ?_
  exact hq
  extract_lets x1
  have h2 : Keeps ⟨qq, none, none⟩ x1 := ?_
  refine KeepsO.next ?_
  refine Keeps.ite (fun _ => ?_) (fun _ => ?_)
  refine State.doubt_keeps (hq := ?_) ..
  exact h2
  refine State.logHold_keeps (hq := ?_) ..
  exact h2
  dsimp -zeta only [x1]
  refine State.modKrl_keeps (hq := ?_) ..
  exact hq

theorem execLedgerTimeout_keeps {qq : List Instr} {mm : Option Memory} {cc : Option Chip} (s : State) (hq : Keeps ⟨qq, mm, cc⟩ s) :
    KeepsO ⟨qq, mm, cc⟩ (execLedgerTimeout s) := by
  unfold execLedgerTimeout
  split
  refine KeepsO.next ?_
  exact hq
  refine KeepsO.next ?_
  refine State.ledgerDrop_keeps (hq := ?_) ..
  refine State.bump_keeps (hq := ?_) ..
  exact hq

theorem execMgmtTimeout_keeps {qq : List Instr} {mm : Option Memory} {cc : Option Chip} (s : State) (hq : Keeps ⟨qq, mm, cc⟩ s) :
    KeepsO ⟨qq, mm, cc⟩ (execMgmtTimeout s) := by
  unfold execMgmtTimeout
  split
  refine KeepsO.next ?_
  exact hq
  refine KeepsO.next ?_
  refine State.answerAsk_keeps (hq := ?_) ..
  refine State.modKrl_keeps (hq := ?_) ..
  exact hq

end

end Sys2Proof.Machine
end

