-- ==== Sys2Proof/Laws/KeepsScrub.lean ====
section
/-! SUPPORT. Keeps (Laws/Keeps) for the scrubber, the fabric, the chip's own rows:
one lemma per function, each from those of the functions it calls. -/

namespace Sys2Proof.Machine

section

set_option simprocs false

theorem State.leaveTest_keeps {qq : List Instr} {mm : Option Memory} {cc : Option Chip} (s : State) (n : Nat) (hq : Keeps ⟨qq, mm, cc⟩ s) :
    Keeps ⟨qq, mm, cc⟩ (State.leaveTest s n) := by
  unfold State.leaveTest
  extract_lets x1 x2
  have h3 : Keeps ⟨qq, mm, cc⟩ x2 := ?_
  refine Keeps.ite (fun _ => ?_) (fun _ => ?_)
  refine State.takeDown_keeps (hq := ?_) ..
  refine State.modKet_keeps (hq := ?_) ..
  exact h3
  exact h3
  dsimp -zeta only [x2]
  have h4 : Keeps ⟨qq, mm, cc⟩ x1 := ?_
  refine State.modNi_keeps (hq := ?_) ..
  exact h4
  dsimp -zeta only [x1]
  refine State.rgnTo_keeps (hq := ?_) ..
  exact hq

theorem State.putRow_keeps {qq : List Instr} {mm : Option Memory} {cc : Option Chip} (s : State) (n : Nat) (ctx : Nat) (f : Nat) (r : CfgRow) (hq : Keeps ⟨qq, mm, cc⟩ s) :
    Keeps ⟨qq, mm, cc⟩ (State.putRow s n ctx f r) := by
  unfold State.putRow
  refine State.modScrRgn_keeps (hq := ?_) ..
  exact hq

theorem State.remapCfg_keeps {qq : List Instr} {mm : Option Memory} {cc : Option Chip} (s : State) (n : Nat) (ctx : Nat) (f : Nat) (k : Nat) (ue : Bool) (hq : Keeps ⟨qq, mm, cc⟩ s) :
    Keeps ⟨qq, mm, cc⟩ (State.remapCfg s n ctx f k ue) := by
  unfold State.remapCfg
  extract_lets x1 x2 x3
  have h4 : Keeps ⟨qq, mm, cc⟩ x3 := ?_
  refine State.journal_keeps (hq := ?_) ..
  exact h4
  dsimp -zeta only [x3]
  have h5 : Keeps ⟨qq, mm, cc⟩ x1 := ?_
  refine State.logEv_keeps (hq := ?_) ..
  exact h5
  dsimp -zeta only [x1]
  refine State.putRow_keeps (hq := ?_) ..
  refine State.modScrRgn_keeps (hq := ?_) ..
  exact hq

theorem State.rowCorrected_keeps {qq : List Instr} {mm : Option Memory} {cc : Option Chip} (s : State) (n : Nat) (ctx : Nat) (f : Nat) (cells : Nat) (hq : Keeps ⟨qq, mm, cc⟩ s) :
    Keeps ⟨qq, mm, cc⟩ (State.rowCorrected s n ctx f cells) := by
  unfold State.rowCorrected
  extract_lets x1 x2 x3 x4
  have h5 : Keeps ⟨qq, mm, cc⟩ x4 := ?_
  refine Keeps.ite (fun _ => ?_) (fun _ => ?_)
  exact h5
  split
  refine State.remapCfg_keeps (hq := ?_) ..
  exact h5
  refine State.logEv_keeps (hq := ?_) ..
  refine State.raise_keeps (hq := ?_) ..
  exact h5
  dsimp -zeta only [x4]
  have h6 : Keeps ⟨qq, mm, cc⟩ x1 := ?_
  refine State.putRow_keeps (hq := ?_) ..
  exact h6
  dsimp -zeta only [x1]
  refine State.count_keeps (hq := ?_) ..
  exact hq

theorem State.fenceUE_keeps {qq : List Instr} {cc : Option Chip} (s : State) (n : Nat) (hq : Keeps ⟨qq, none, cc⟩ s) :
    Keeps ⟨qq, none, cc⟩ (State.fenceUE s n) := by
  unfold State.fenceUE
  extract_lets x1 x2
  have h3 : Keeps ⟨qq, none, cc⟩ x2 := ?_
  refine Keeps.ite (fun _ => ?_) (fun _ => ?_)
  refine State.modRegion_keeps (hq := ?_) ..
  exact h3
  exact h3
  dsimp -zeta only [x2]
  refine State.fence_keeps (hq := ?_) ..
  exact hq

theorem State.frameUE_keeps {qq : List Instr} {cc : Option Chip} (s : State) (n : Nat) (ctx : Nat) (f : Nat) (crcOnly : Bool) (hq : Keeps ⟨qq, none, cc⟩ s) :
    Keeps ⟨qq, none, cc⟩ (State.frameUE s n ctx f crcOnly) := by
  unfold State.frameUE
  refine Keeps.ite (fun _ => ?_) (fun _ => ?_)
  exact hq
  extract_lets x1 x2 x3 x4 x5 x6
  have h7 : Keeps ⟨qq, none, cc⟩ x6 := ?_
  refine Keeps.ite (fun _ => ?_) (fun _ => ?_)
  refine State.fenceUE_keeps (hq := ?_) ..
  exact h7
  exact h7
  dsimp -zeta only [x6]
  have h8 : Keeps ⟨qq, none, cc⟩ x4 := ?_
  refine State.modScr_keeps (hq := ?_) ..
  exact h8
  dsimp -zeta only [x4]
  have h9 : Keeps ⟨qq, none, cc⟩ x3 := ?_
  refine State.bump_keeps (hq := ?_) ..
  exact h9
  dsimp -zeta only [x3]
  refine State.putRow_keeps (hq := ?_) ..
  exact hq

theorem State.writeFrame_keeps {qq : List Instr} {mm : Option Memory} {cc : Option Chip} (s : State) (n : Nat) (ctx : Nat) (f : Nat) (ws : List Line) (hq : Keeps ⟨qq, mm, cc⟩ s) :
    Keeps ⟨qq, mm, cc⟩ (State.writeFrame s n ctx f ws) := by
  unfold State.writeFrame
  refine State.modFab_keeps (hq := ?_) ..
  exact hq

theorem State.unloadCtx_keeps {qq : List Instr} {mm : Option Memory} {cc : Option Chip} (s : State) (n : Nat) (ctx : Nat) (hq : Keeps ⟨qq, mm, cc⟩ s) :
    Keeps ⟨qq, mm, cc⟩ (State.unloadCtx s n ctx) := by
  unfold State.unloadCtx
  refine State.modCtx_keeps (hq := ?_) ..
  exact hq

theorem State.refetchDone_keeps {qq : List Instr} {mm : Option Memory} {cc : Option Chip} (s : State) (x : Refetch) (ws : List Line) (ok : Bool) (clean : Bool) (hq : Keeps ⟨qq, mm, cc⟩ s) :
    Keeps ⟨qq, mm, cc⟩ (State.refetchDone s x ws ok clean) := by
  unfold State.refetchDone
  extract_lets x1 x2 x3 x4 x5 x6
  have h7 : Keeps ⟨qq, mm, cc⟩ x6 := ?_
  split
  extract_lets x8 x9
  have h10 : Keeps ⟨qq, mm, cc⟩ x9 := ?_
  refine Keeps.ite (fun _ => ?_) (fun _ => ?_)
  refine State.degrade_keeps (hq := ?_) ..
  refine State.modRegion_keeps (hq := ?_) ..
  exact h10
  exact h10
  dsimp -zeta only [x9]
  refine Keeps.ite (fun _ => ?_) (fun _ => ?_)
  refine Keeps.snd_eq (by assumption) ?_
  split
  split
  exact h7
  dsimp -zeta only
  refine State.unloadCtx_keeps (hq := ?_) ..
  exact h7
  clear_value x4
  split
  dsimp -zeta only
  refine State.writeFrame_keeps (hq := ?_) ..
  refine State.remapCfg_keeps (hq := ?_) ..
  exact h7
  split
  dsimp -zeta only
  refine State.unloadCtx_keeps (hq := ?_) ..
  exact h7
  dsimp -zeta only
  refine State.writeFrame_keeps (hq := ?_) ..
  exact h7
  refine State.logEv_keeps (hq := ?_) ..
  refine Keeps.snd_eq (by assumption) ?_
  split
  split
  exact h7
  dsimp -zeta only
  refine State.unloadCtx_keeps (hq := ?_) ..
  exact h7
  clear_value x4
  split
  dsimp -zeta only
  refine State.writeFrame_keeps (hq := ?_) ..
  refine State.remapCfg_keeps (hq := ?_) ..
  exact h7
  split
  dsimp -zeta only
  refine State.unloadCtx_keeps (hq := ?_) ..
  exact h7
  dsimp -zeta only
  refine State.writeFrame_keeps (hq := ?_) ..
  exact h7
  dsimp -zeta only [x6]
  have h11 : Keeps ⟨qq, mm, cc⟩ x2 := ?_
  refine Keeps.ite (fun _ => ?_) (fun _ => ?_)
  refine State.raise_keeps (hq := ?_) ..
  exact h11
  exact h11
  dsimp -zeta only [x2]
  refine State.modScr_keeps (hq := ?_) ..
  refine State.raise_keeps (hq := ?_) ..
  exact hq

theorem State.writeRelease_keeps {qq : List Instr} {mm : Option Memory} {cc : Option Chip} (s : State) (v : Nat) (hq : Keeps ⟨qq, mm, cc⟩ s) :
    Keeps ⟨qq, mm, cc⟩ (State.writeRelease s v) := by
  unfold State.writeRelease
  extract_lets x1 x2
  have h3 : Keeps ⟨qq, mm, cc⟩ x2 := ?_
  refine Keeps.ite (fun _ => ?_) (fun _ => ?_)
  refine Keeps.ite (fun _ => ?_) (fun _ => ?_)
  refine State.restart_keeps (hq := ?_) ..
  exact h3
  exact h3
  exact hq
  dsimp -zeta only [x2]
  refine State.modRegion_keeps (hq := ?_) ..
  exact hq

theorem State.steepFound_keeps {qq : List Instr} {cc : Option Chip} (s : State) (n : Nat) (ctx : Nat) (f : Nat) (x : SteepFind) (hq : Keeps ⟨qq, none, cc⟩ s) :
    Keeps ⟨qq, none, cc⟩ (State.steepFound s n ctx f x) := by
  unfold State.steepFound
  refine Keeps.ite (fun _ => ?_) (fun _ => ?_)
  exact hq
  split
  exact hq
  refine Keeps.ite (fun _ => ?_) (fun _ => ?_)
  exact hq
  refine State.rowCorrected_keeps (hq := ?_) ..
  exact hq
  refine State.frameUE_keeps (hq := ?_) ..
  exact hq

theorem State.steepStep_keeps {qq : List Instr} {mm : Option Memory} {cc : Option Chip} (s : State) (n : Nat) (hq : Keeps ⟨qq, mm, cc⟩ s) :
    Keeps ⟨qq, mm, cc⟩ (State.steepStep s n) := by
  unfold State.steepStep
  extract_lets x1 x2 x3 x4 x5
  have h6 : Keeps ⟨qq, mm, cc⟩ x2 := ?_
  have h7 : Keeps ⟨qq, mm, cc⟩ x5 := ?_
  refine Keeps.ite (fun _ => ?_) (fun _ => ?_)
  refine State.wr_keeps (hq := ?_) ..
  exact h6
  refine Keeps.ite (fun _ => ?_) (fun _ => ?_)
  refine State.wr_keeps (hq := ?_) ..
  exact h7
  refine State.modScrRgn_keeps (hq := ?_) ..
  refine State.count_keeps (hq := ?_) ..
  refine State.wr_keeps (hq := ?_) ..
  exact h7
  dsimp -zeta only [x5]
  refine State.wr_keeps (hq := ?_) ..
  exact h6
  dsimp -zeta only [x2]
  refine Keeps.ite (fun _ => ?_) (fun _ => ?_)
  refine State.modScrRgn_keeps (hq := ?_) ..
  exact hq
  exact hq

theorem State.steepSlot_keeps {qq : List Instr} {cc : Option Chip} (s : State) (n : Nat) (x : SteepFind) (hq : Keeps ⟨qq, none, cc⟩ s) :
    Keeps ⟨qq, none, cc⟩ (State.steepSlot s n x) := by
  unfold State.steepSlot
  split
  refine State.steepFound_keeps (hq := ?_) ..
  refine State.modScrRgn_keeps (hq := ?_) ..
  exact hq
  refine State.steepStep_keeps (hq := ?_) ..
  refine State.steepFound_keeps (hq := ?_) ..
  exact hq

theorem State.copyColumn_keeps {qq : List Instr} {mm : Option Memory} {cc : Option Chip} (s : State) (n : Nat) (m : Nat) (why : Nat) (hq : Keeps ⟨qq, mm, cc⟩ s) :
    Keeps ⟨qq, mm, cc⟩ (State.copyColumn s n m why) := by
  unfold State.copyColumn
  refine State.modScrRgn_keeps (hq := ?_) ..
  refine State.wr_keeps (hq := ?_) ..
  refine State.wr_keeps (hq := ?_) ..
  exact hq

theorem State.abandonColumn_keeps {qq : List Instr} {mm : Option Memory} {cc : Option Chip} (s : State) (n : Nat) (hq : Keeps ⟨qq, mm, cc⟩ s) :
    Keeps ⟨qq, mm, cc⟩ (State.abandonColumn s n) := by
  unfold State.abandonColumn
  extract_lets x1 x2
  have h3 : Keeps ⟨qq, mm, cc⟩ x2 := ?_
  refine Keeps.ite (fun _ => ?_) (fun _ => ?_)
  exact h3
  refine State.columnBack_keeps (hq := ?_) ..
  exact h3
  dsimp -zeta only [x2]
  refine Keeps.ite (fun _ => ?_) (fun _ => ?_)
  refine State.abandon_keeps (hq := ?_) ..
  exact hq
  exact hq

theorem State.staysFenced_keeps {qq : List Instr} {mm : Option Memory} {cc : Option Chip} (s : State) (n : Nat) (hq : Keeps ⟨qq, mm, cc⟩ s) :
    Keeps ⟨qq, mm, cc⟩ (State.staysFenced s n) := by
  unfold State.staysFenced
  refine State.degrade_keeps (hq := ?_) ..
  refine State.modRegion_keeps (hq := ?_) ..
  refine State.raise_keeps (hq := ?_) ..
  exact hq

theorem State.columnFails_keeps {qq : List Instr} {cc : Option Chip} (s : State) (n : Nat) (k : Nat) (hq : Keeps ⟨qq, none, cc⟩ s) :
    Keeps ⟨qq, none, cc⟩ (State.columnFails s n k) := by
  unfold State.columnFails
  extract_lets x1 x2 x3 x4 x5 x6 x7
  have h8 : Keeps ⟨qq, none, cc⟩ x2 := ?_
  have h9 : Keeps ⟨qq, none, cc⟩ x6 := ?_
  have h10 : Keeps ⟨qq, none, cc⟩ x7 := ?_
  refine Keeps.ite (fun _ => ?_) (fun _ => ?_)
  refine Keeps.ite (fun _ => ?_) (fun _ => ?_)
  refine State.staysFenced_keeps (hq := ?_) ..
  exact h9
  exact h9
  refine Keeps.ite (fun _ => ?_) (fun _ => ?_)
  refine State.staysFenced_keeps (hq := ?_) ..
  exact h8
  refine Keeps.ite (fun _ => ?_) (fun _ => ?_)
  refine State.staysFenced_keeps (hq := ?_) ..
  exact h8
  refine State.modScrRgn_keeps (hq := ?_) ..
  refine State.copyColumn_keeps (hq := ?_) ..
  exact h10
  dsimp -zeta only [x7]
  refine State.abandonColumn_keeps (hq := ?_) ..
  exact h8
  dsimp -zeta only [x6]
  have h11 : Keeps ⟨qq, none, cc⟩ x5 := ?_
  refine State.journal_keeps (hq := ?_) ..
  exact h11
  dsimp -zeta only [x5]
  have h12 : Keeps ⟨qq, none, cc⟩ x4 := ?_
  refine State.logEv_keeps (hq := ?_) ..
  refine State.wr_keeps (hq := ?_) ..
  exact h12
  dsimp -zeta only [x4]
  refine Keeps.ite (fun _ => ?_) (fun _ => ?_)
  refine State.abandonColumn_keeps (hq := ?_) ..
  exact h8
  exact h8
  dsimp -zeta only [x2]
  refine State.fence_keeps (hq := ?_) ..
  exact hq

theorem State.columnCopied_keeps {qq : List Instr} {mm : Option Memory} {cc : Option Chip} (s : State) (n : Nat) (hq : Keeps ⟨qq, mm, cc⟩ s) :
    Keeps ⟨qq, mm, cc⟩ (State.columnCopied s n) := by
  unfold State.columnCopied
  refine Keeps.ite (fun _ => ?_) (fun _ => ?_)
  exact hq
  refine Keeps.ite (fun _ => ?_) (fun _ => ?_)
  refine State.modScrRgn_keeps (hq := ?_) ..
  refine State.columnForGood_keeps (hq := ?_) ..
  exact hq
  refine State.wr_keeps (hq := ?_) ..
  exact hq

theorem State.startGood_keeps {qq : List Instr} {mm : Option Memory} {cc : Option Chip} (s : State) (n : Nat) (hq : Keeps ⟨qq, mm, cc⟩ s) :
    Keeps ⟨qq, mm, cc⟩ (State.startGood s n) := by
  unfold State.startGood
  split
  refine Keeps.ite (fun _ => ?_) (fun _ => ?_)
  refine State.copyColumn_keeps (hq := ?_) ..
  exact hq
  exact hq
  exact hq

theorem State.columnTransfer_keeps {qq : List Instr} {mm : Option Memory} {cc : Option Chip} (s : State) (n : Nat) (hq : Keeps ⟨qq, mm, cc⟩ s) :
    Keeps ⟨qq, mm, cc⟩ (State.columnTransfer s n) := by
  unfold State.columnTransfer
  extract_lets x1 x2 x3 x4
  have h5 : Keeps ⟨qq, mm, cc⟩ x4 := ?_
  refine Keeps.ite (fun _ => ?_) (fun _ => ?_)
  exact hq
  refine Keeps.ite (fun _ => ?_) (fun _ => ?_)
  refine State.columnForGood_keeps (hq := ?_) ..
  exact hq
  refine Keeps.ite (fun _ => ?_) (fun _ => ?_)
  refine State.startGood_keeps (hq := ?_) ..
  refine Keeps.ite (fun _ => ?_) (fun _ => ?_)
  exact h5
  refine State.scrTest_keeps (hq := ?_) ..
  exact h5
  refine Keeps.ite (fun _ => ?_) (fun _ => ?_)
  refine State.logEv_keeps (hq := ?_) ..
  refine State.wr_keeps (hq := ?_) ..
  refine State.wr_keeps (hq := ?_) ..
  exact hq
  exact hq
  dsimp -zeta only [x4]
  refine State.modScrRgn_keeps (hq := ?_) ..
  refine State.columnBack_keeps (hq := ?_) ..
  exact hq

theorem State.steerBonds_keeps {qq : List Instr} {mm : Option Memory} {cc : Option Chip} (s : State) (n : Nat) (hq : Keeps ⟨qq, mm, cc⟩ s) :
    Keeps ⟨qq, mm, cc⟩ (State.steerBonds s n) := by
  unfold State.steerBonds
  extract_lets x1
  have h2 : Keeps ⟨qq, mm, cc⟩ x1 := ?_
  refine State.modScrRgn_keeps (hq := ?_) ..
  exact h2
  dsimp -zeta only [x1]
  refine Keeps.foldl (fun t3 y4 h5 => ?_) ?_
  refine State.modScrRgn_keeps (hq := ?_) ..
  refine State.journal_keeps (hq := ?_) ..
  exact h5
  exact hq

theorem State.bondFails_keeps {qq : List Instr} {mm : Option Memory} {cc : Option Chip} (s : State) (n : Nat) (g : Nat) (link : Nat) (hq : Keeps ⟨qq, mm, cc⟩ s) :
    Keeps ⟨qq, mm, cc⟩ (State.bondFails s n g link).2 := by
  unfold State.bondFails
  extract_lets x1
  split
  exact hq
  dsimp -zeta only
  refine State.modScrRgn_keeps (hq := ?_) ..
  exact hq

theorem State.quietWindow_keeps {qq : List Instr} {mm : Option Memory} {cc : Option Chip} (s : State) (n : Nat) (hq : Keeps ⟨qq, mm, cc⟩ s) :
    Keeps ⟨qq, mm, cc⟩ (State.quietWindow s n) := by
  unfold State.quietWindow
  refine Keeps.ite (fun _ => ?_) (fun _ => ?_)
  exact hq
  extract_lets x1
  have h2 : Keeps ⟨qq, mm, cc⟩ x1 := ?_
  refine State.columnTransfer_keeps (hq := ?_) ..
  refine State.steerBonds_keeps (hq := ?_) ..
  exact h2
  dsimp -zeta only [x1]
  refine State.modScrRgn_keeps (hq := ?_) ..
  refine State.rgnTo_keeps (hq := ?_) ..
  exact hq

theorem State.standInAsk_keeps {qq : List Instr} {mm : Option Memory} {cc : Option Chip} (s : State) (u : Nat) (hq : Keeps ⟨qq, mm, cc⟩ s) :
    Keeps ⟨qq, mm, cc⟩ (State.standInAsk s u) := by
  unfold State.standInAsk
  extract_lets x1 x2
  split
  refine Keeps.ite (fun _ => ?_) (fun _ => ?_)
  refine State.copyColumn_keeps (hq := ?_) ..
  exact hq
  exact hq
  refine Keeps.ite (fun _ => ?_) (fun _ => ?_)
  refine State.modEngAt_keeps (hq := ?_) ..
  exact hq
  refine State.modPlc_keeps (hq := ?_) ..
  exact hq
  split
  refine State.startBankCopy_keeps (hq := ?_) ..
  exact hq
  exact hq
  refine State.modPlc_keeps (hq := ?_) ..
  exact hq
  refine Keeps.ite (fun _ => ?_) (fun _ => ?_)
  refine State.askSlice_keeps (hq := ?_) ..
  exact hq
  exact hq
  refine State.rgnTo_keeps (hq := ?_) ..
  exact hq
  exact hq

theorem State.refuseTest_keeps {qq : List Instr} {mm : Option Memory} {cc : Option Chip} (s : State) (u : Nat) (hq : Keeps ⟨qq, mm, cc⟩ s) :
    Keeps ⟨qq, mm, cc⟩ (State.refuseTest s u) := by
  unfold State.refuseTest
  refine State.scrTest_keeps (hq := ?_) ..
  refine State.bstRecord_keeps (hq := ?_) ..
  exact hq

theorem State.startTest_keeps {qq : List Instr} {mm : Option Memory} {cc : Option Chip} (s : State) (u : Nat) (hq : Keeps ⟨qq, mm, cc⟩ s) :
    Keeps ⟨qq, mm, cc⟩ (State.startTest s u) := by
  unfold State.startTest
  extract_lets x1 x2
  have h3 : Keeps ⟨qq, mm, cc⟩ x2 := ?_
  refine State.scrTest_keeps (hq := ?_) ..
  exact h3
  dsimp -zeta only [x2]
  have h4 : Keeps ⟨qq, mm, cc⟩ x1 := ?_
  refine State.modBist_keeps (hq := ?_) ..
  exact h4
  dsimp -zeta only [x1]
  refine State.standInAsk_keeps (hq := ?_) ..
  exact hq

theorem State.tourStart_keeps {qq : List Instr} {mm : Option Memory} {cc : Option Chip} (s : State) (kind : Nat) (sc : Nat) (hq : Keeps ⟨qq, mm, cc⟩ s) :
    Keeps ⟨qq, mm, cc⟩ (State.tourStart s kind sc) := by
  unfold State.tourStart
  refine Keeps.ite (fun _ => ?_) (fun _ => ?_)
  exact hq
  extract_lets x1 x2 x3
  split
  extract_lets x4
  have h5 : Keeps ⟨qq, mm, cc⟩ x4 := ?_
  refine Keeps.ite (fun _ => ?_) (fun _ => ?_)
  refine State.refuseTest_keeps (hq := ?_) ..
  exact h5
  refine State.startTest_keeps (hq := ?_) ..
  exact h5
  dsimp -zeta only [x4]
  refine State.modScr_keeps (hq := ?_) ..
  exact hq
  refine Keeps.ite (fun _ => ?_) (fun _ => ?_)
  exact hq
  clear_value x3
  split
  refine Keeps.ite (fun _ => ?_) (fun _ => ?_)
  refine State.startTest_keeps (hq := ?_) ..
  exact hq
  exact hq
  exact hq

theorem State.writeTest_keeps {qq : List Instr} {mm : Option Memory} {cc : Option Chip} (s : State) (v : Nat) (hq : Keeps ⟨qq, mm, cc⟩ s) :
    Keeps ⟨qq, mm, cc⟩ (State.writeTest s v) := by
  unfold State.writeTest
  extract_lets x1 x2
  refine Keeps.ite (fun _ => ?_) (fun _ => ?_)
  exact hq
  refine Keeps.ite (fun _ => ?_) (fun _ => ?_)
  refine State.refuseTest_keeps (hq := ?_) ..
  exact hq
  refine State.modScr_keeps (hq := ?_) ..
  exact hq

theorem State.wasTested_keeps {qq : List Instr} {mm : Option Memory} {cc : Option Chip} (s : State) (u : Nat) (hq : Keeps ⟨qq, mm, cc⟩ s) :
    Keeps ⟨qq, mm, cc⟩ (State.wasTested s u) := by
  unfold State.wasTested
  refine State.modScr_keeps (hq := ?_) ..
  exact hq

theorem State.testPassed_keeps {qq : List Instr} {mm : Option Memory} {cc : Option Chip} (s : State) (u : Nat) (hq : Keeps ⟨qq, mm, cc⟩ s) :
    Keeps ⟨qq, mm, cc⟩ (State.testPassed s u) := by
  unfold State.testPassed
  extract_lets x1
  split
  refine Keeps.ite (fun _ => ?_) (fun _ => ?_)
  refine State.wr_keeps (hq := ?_) ..
  exact hq
  refine State.startGood_keeps (hq := ?_) ..
  refine State.scrTest_keeps (hq := ?_) ..
  exact hq
  refine State.leaveTest_keeps (hq := ?_) ..
  refine State.modFab_keeps (hq := ?_) ..
  refine State.scrTest_keeps (hq := ?_) ..
  exact hq
  refine State.unitReturns_keeps (hq := ?_) ..
  refine State.scrTest_keeps (hq := ?_) ..
  exact hq

theorem State.testFailed_keeps {qq : List Instr} {cc : Option Chip} (s : State) (a : TestEnd) (hq : Keeps ⟨qq, none, cc⟩ s) :
    Keeps ⟨qq, none, cc⟩ (State.testFailed s a) := by
  unfold State.testFailed
  extract_lets x1 x2 x3 x4 x5 x6 x7 x8 x9
  have h10 : Keeps ⟨qq, none, cc⟩ x4 := ?_
  have h11 : Keeps ⟨qq, none, cc⟩ x9 := ?_
  split
  split
  refine Keeps.ite (fun _ => ?_) (fun _ => ?_)
  refine Keeps.ite (fun _ => ?_) (fun _ => ?_)
  refine Keeps.snd_eq (by assumption) ?_
  split
  refine State.bondFails_keeps (hq := ?_) ..
  exact h10
  exact h10
  refine State.journal_keeps (hq := ?_) ..
  refine State.logEv_keeps (hq := ?_) ..
  refine State.wr_keeps (hq := ?_) ..
  refine Keeps.snd_eq (by assumption) ?_
  split
  refine State.bondFails_keeps (hq := ?_) ..
  exact h10
  exact h10
  refine Keeps.ite (fun _ => ?_) (fun _ => ?_)
  refine State.modScrRgn_keeps (hq := ?_) ..
  refine State.wr_keeps (hq := ?_) ..
  refine Keeps.snd_eq (by assumption) ?_
  split
  refine State.bondFails_keeps (hq := ?_) ..
  exact h10
  exact h10
  refine State.columnForGood_keeps (hq := ?_) ..
  refine Keeps.snd_eq (by assumption) ?_
  split
  refine State.bondFails_keeps (hq := ?_) ..
  exact h10
  exact h10
  refine Keeps.ite (fun _ => ?_) (fun _ => ?_)
  refine State.journal_keeps (hq := ?_) ..
  refine State.retireEngine_keeps (hq := ?_) ..
  refine State.setSpare_keeps (hq := ?_) ..
  exact h10
  refine Keeps.ite (fun _ => ?_) (fun _ => ?_)
  refine State.journal_keeps (hq := ?_) ..
  refine State.retireEngine_keeps (hq := ?_) ..
  refine State.setSpare_keeps (hq := ?_) ..
  exact h10
  refine State.markFailed_keeps (hq := ?_) ..
  dsimp -zeta only [x6]
  refine Keeps.ite (fun _ => ?_) (fun _ => ?_)
  exact h10
  refine State.modPlc_keeps (hq := ?_) ..
  exact h10
  refine Keeps.ite (fun _ => ?_) (fun _ => ?_)
  refine State.journal_keeps (hq := ?_) ..
  refine State.modMem_keeps (hq := ?_) ..
  exact h10
  split
  extract_lets x12
  refine State.journal_keeps (hq := ?_) ..
  refine State.modMem_keeps (hq := ?_) ..
  exact h10
  exact h10
  refine State.routerFault_keeps (hq := ?_) ..
  refine State.modPlc_keeps (hq := ?_) ..
  exact h10
  refine Keeps.ite (fun _ => ?_) (fun _ => ?_)
  refine State.journal_keeps (hq := ?_) ..
  refine State.modLanes_keeps (hq := ?_) ..
  exact h10
  refine State.journal_keeps (hq := ?_) ..
  refine State.wr_keeps (hq := ?_) ..
  exact h10
  refine Keeps.ite (fun _ => ?_) (fun _ => ?_)
  refine State.staysFenced_keeps (hq := ?_) ..
  exact h11
  refine Keeps.foldl (fun t13 y14 h15 => ?_) ?_
  refine State.columnFails_keeps (hq := ?_) ..
  exact h15
  exact h11
  dsimp -zeta only [x9]
  have h16 : Keeps ⟨qq, none, cc⟩ x8 := ?_
  refine State.fence_keeps (hq := ?_) ..
  exact h16
  dsimp -zeta only [x8]
  refine State.modFab_keeps (hq := ?_) ..
  exact h10
  dsimp -zeta only [x4]
  refine State.scrTest_keeps (hq := ?_) ..
  exact hq

theorem State.testEnds_keeps {qq : List Instr} {cc : Option Chip} (s : State) (a : TestEnd) (hq : Keeps ⟨qq, none, cc⟩ s) :
    Keeps ⟨qq, none, cc⟩ (State.testEnds s a) := by
  unfold State.testEnds
  extract_lets x1 x2 x3 x4 x5
  have h6 : Keeps ⟨qq, none, cc⟩ x3 := ?_
  have h7 : Keeps ⟨qq, none, cc⟩ x5 := ?_
  refine Keeps.ite (fun _ => ?_) (fun _ => ?_)
  exact hq
  refine Keeps.ite (fun _ => ?_) (fun _ => ?_)
  refine State.testPassed_keeps (hq := ?_) ..
  refine State.bstRecord_keeps (hq := ?_) ..
  refine State.count_keeps (hq := ?_) ..
  exact h6
  refine State.testFailed_keeps (hq := ?_) ..
  exact h7
  dsimp -zeta only [x5]
  have h8 : Keeps ⟨qq, none, cc⟩ x4 := ?_
  refine State.logEv_keeps (hq := ?_) ..
  exact h8
  dsimp -zeta only [x4]
  refine State.bstRecord_keeps (hq := ?_) ..
  refine State.bump_keeps (hq := ?_) ..
  refine State.raise_keeps (hq := ?_) ..
  exact h6
  dsimp -zeta only [x3]
  refine State.wasTested_keeps (hq := ?_) ..
  refine State.testLeaves_keeps (hq := ?_) ..
  refine State.endRunOf_keeps (hq := ?_) ..
  exact hq

theorem State.logAge_keeps {qq : List Instr} {mm : Option Memory} {cc : Option Chip} (s : State) (n : Nat) (m : Nat) (action : Nat) (hq : Keeps ⟨qq, mm, cc⟩ s) :
    Keeps ⟨qq, mm, cc⟩ (State.logAge s n m action) := by
  unfold State.logAge
  refine State.logEv_keeps (hq := ?_) ..
  refine State.raise_keeps (hq := ?_) ..
  exact hq

theorem State.ageProject_keeps {qq : List Instr} {mm : Option Memory} {cc : Option Chip} (s : State) (n : Nat) (age : Nat) (hq : Keeps ⟨qq, mm, cc⟩ s) :
    Keeps ⟨qq, mm, cc⟩ (State.ageProject s n age) := by
  unfold State.ageProject
  extract_lets x1 x2
  refine Keeps.ite (fun _ => ?_) (fun _ => ?_)
  refine State.wr_keeps (hq := ?_) ..
  exact hq
  refine Keeps.ite (fun _ => ?_) (fun _ => ?_)
  split
  refine State.wr_keeps (hq := ?_) ..
  refine Keeps.snd_eq (by assumption) ?_
  refine State.takeFree_keeps (hq := ?_) ..
  exact hq
  refine State.wr_keeps (hq := ?_) ..
  exact hq

theorem State.ageSpare_keeps {qq : List Instr} {mm : Option Memory} {cc : Option Chip} (s : State) (n : Nat) (m : Nat) (hq : Keeps ⟨qq, mm, cc⟩ s) :
    Keeps ⟨qq, mm, cc⟩ (State.ageSpare s n m) := by
  unfold State.ageSpare
  extract_lets x1 x2 x3 x4 x5 x6
  have h7 : Keeps ⟨qq, mm, cc⟩ x1 := ?_
  have h8 : Keeps ⟨qq, mm, cc⟩ x6 := ?_
  refine Keeps.ite (fun _ => ?_) (fun _ => ?_)
  refine State.startGood_keeps (hq := ?_) ..
  refine State.modScrRgn_keeps (hq := ?_) ..
  exact h8
  refine State.markFailed_keeps (hq := ?_) ..
  exact h7
  dsimp -zeta only [x6]
  have h9 : Keeps ⟨qq, mm, cc⟩ x5 := ?_
  refine Keeps.ite (fun _ => ?_) (fun _ => ?_)
  refine State.wr_keeps (hq := ?_) ..
  exact h9
  exact h7
  dsimp -zeta only [x5]
  have h10 : Keeps ⟨qq, mm, cc⟩ x4 := ?_
  refine State.scrTest_keeps (hq := ?_) ..
  refine State.logEv_keeps (hq := ?_) ..
  refine State.bstRecord_keeps (hq := ?_) ..
  exact h10
  dsimp -zeta only [x4]
  refine State.raise_keeps (hq := ?_) ..
  refine State.endRunOf_keeps (hq := ?_) ..
  exact h7
  dsimp -zeta only [x1]
  refine State.logAge_keeps (hq := ?_) ..
  exact hq

theorem State.ageMeasured_keeps {qq : List Instr} {cc : Option Chip} (s : State) (n : Nat) (ages : List (Fin 74 × Byte)) (hq : Keeps ⟨qq, none, cc⟩ s) :
    Keeps ⟨qq, none, cc⟩ (State.ageMeasured s n ages) := by
  unfold State.ageMeasured
  extract_lets x1 x2 x3 x4 x5 x6 x7 x8 x9 x10 x11 x12 x13 x14 x15 x16
  have h17 : Keeps ⟨qq, none, cc⟩ x16 := ?_
  refine State.ageProject_keeps (hq := ?_) ..
  exact h17
  dsimp -zeta only [x16]
  have h18 : Keeps ⟨qq, none, cc⟩ x15 := ?_
  refine Keeps.ite (fun _ => ?_) (fun _ => ?_)
  refine State.journal_keeps (hq := ?_) ..
  refine State.logAge_keeps (hq := ?_) ..
  refine State.retireEngine_keeps (hq := ?_) ..
  refine State.setSpare_keeps (hq := ?_) ..
  exact h18
  exact h18
  dsimp -zeta only [x15]
  have h19 : Keeps ⟨qq, none, cc⟩ x13 := ?_
  refine Keeps.ite (fun _ => ?_) (fun _ => ?_)
  refine State.journal_keeps (hq := ?_) ..
  refine State.logAge_keeps (hq := ?_) ..
  refine State.wr_keeps (hq := ?_) ..
  exact h19
  exact h19
  dsimp -zeta only [x13]
  have h20 : Keeps ⟨qq, none, cc⟩ x12 := ?_
  refine Keeps.foldl (fun t21 y22 h23 => ?_) ?_
  refine Keeps.ite (fun _ => ?_) (fun _ => ?_)
  extract_lets x24
  have h25 : Keeps ⟨qq, none, cc⟩ x24 := ?_
  refine Keeps.ite (fun _ => ?_) (fun _ => ?_)
  refine State.columnFails_keeps (hq := ?_) ..
  exact h25
  refine State.markFailed_keeps (hq := ?_) ..
  exact h25
  dsimp -zeta only [x24]
  refine State.logAge_keeps (hq := ?_) ..
  exact h23
  exact h23
  exact h20
  dsimp -zeta only [x12]
  have h26 : Keeps ⟨qq, none, cc⟩ x9 := ?_
  refine Keeps.foldl (fun t27 y28 h29 => ?_) ?_
  refine Keeps.ite (fun _ => ?_) (fun _ => ?_)
  refine State.ageSpare_keeps (hq := ?_) ..
  exact h29
  exact h29
  exact h26
  dsimp -zeta only [x9]
  have h30 : Keeps ⟨qq, none, cc⟩ x5 := ?_
  have h31 : Keeps ⟨qq, none, cc⟩ x8 := ?_
  refine Keeps.ite (fun _ => ?_) (fun _ => ?_)
  refine State.kettleQueue_keeps (hq := ?_) ..
  refine State.logAge_keeps (hq := ?_) ..
  exact h31
  exact h30
  dsimp -zeta only [x8]
  refine State.journal_keeps (hq := ?_) ..
  refine State.wr_keeps (hq := ?_) ..
  exact h30
  dsimp -zeta only [x5]
  have h32 : Keeps ⟨qq, none, cc⟩ x1 := ?_
  refine State.wr_keeps (hq := ?_) ..
  refine State.wr_keeps (hq := ?_) ..
  exact h32
  dsimp -zeta only [x1]
  refine State.modScrRgn_keeps (hq := ?_) ..
  exact hq

theorem execSteepVisit_keeps {qq : List Instr} {cc : Option Chip} (n : Fin 64) (x : SteepFind) (s : State) (hq : Keeps ⟨qq, none, cc⟩ s) :
    KeepsO ⟨qq, none, cc⟩ (execSteepVisit n x s) := by
  unfold execSteepVisit
  refine KeepsO.next ?_
  refine Keeps.ite (fun _ => ?_) (fun _ => ?_)
  refine State.steepSlot_keeps (hq := ?_) ..
  exact hq
  exact hq

theorem execFrameRefetchDone_keeps {qq : List Instr} {mm : Option Memory} {cc : Option Chip} (words : List Line) (ok : Bool) (clean : Bool) (s : State) (hq : Keeps ⟨qq, mm, cc⟩ s) :
    KeepsO ⟨qq, mm, cc⟩ (execFrameRefetchDone words ok clean s) := by
  unfold execFrameRefetchDone
  split
  refine KeepsO.next ?_
  refine Keeps.ite (fun _ => ?_) (fun _ => ?_)
  refine State.refetchDone_keeps (hq := ?_) ..
  exact hq
  exact hq
  refine KeepsO.next ?_
  exact hq

theorem execConfigWordUeAtUse_keeps {qq : List Instr} {cc : Option Chip} (n : Fin 64) (frame : Fin 4704) (x : Fin 32) (s : State) (hq : Keeps ⟨qq, none, cc⟩ s) :
    KeepsO ⟨qq, none, cc⟩ (execConfigWordUeAtUse n frame x s) := by
  unfold execConfigWordUeAtUse
  refine KeepsO.ite (fun _ => ?_) (fun _ => ?_)
  refine KeepsO.next ?_
  exact hq
  extract_lets x1 x2 x3
  have h4 : Keeps ⟨qq, none, cc⟩ x3 := ?_
  refine KeepsO.next ?_
  refine State.fenceUE_keeps (hq := ?_) ..
  exact h4
  dsimp -zeta only [x3]
  have h5 : Keeps ⟨qq, none, cc⟩ x2 := ?_
  refine State.modScr_keeps (hq := ?_) ..
  exact h5
  dsimp -zeta only [x2]
  refine State.frameUE_keeps (hq := ?_) ..
  exact hq

theorem execScrRelease_keeps {qq : List Instr} {mm : Option Memory} {cc : Option Chip} (x : Accessor) (v : Word) (s : State) (hq : Keeps ⟨qq, mm, cc⟩ s) :
    KeepsO ⟨qq, mm, cc⟩ (execScrRelease x v s) := by
  unfold execScrRelease
  refine KeepsO.next ?_
  refine State.writeRelease_keeps (hq := ?_) ..
  exact hq

theorem execRegionRestart_keeps {qq : List Instr} {mm : Option Memory} {cc : Option Chip} (n : Fin 64) (s : State) (hq : Keeps ⟨qq, mm, cc⟩ s) :
    KeepsO ⟨qq, mm, cc⟩ (execRegionRestart n s) := by
  unfold execRegionRestart
  refine KeepsO.next ?_
  refine Keeps.ite (fun _ => ?_) (fun _ => ?_)
  refine State.restart_keeps (hq := ?_) ..
  exact hq
  exact hq

theorem State.rewriteBlock_keeps {qq : List Instr} {mm : Option Memory} {cc : Option Chip} (s : State) (n : Nat) (blk : Nat) (hq : Keeps ⟨qq, mm, cc⟩ s) :
    Keeps ⟨qq, mm, cc⟩ (State.rewriteBlock s n blk) := by
  unfold State.rewriteBlock
  extract_lets x1
  refine Keeps.foldl (fun t2 y3 h4 => ?_) ?_
  extract_lets x5
  refine Keeps.ite (fun _ => ?_) (fun _ => ?_)
  exact h4
  refine State.modScr_keeps (hq := ?_) ..
  exact h4
  exact hq

theorem execLiftContention_keeps {qq : List Instr} {cc : Option Chip} (n : Fin 64) (blk : Fin 2352) (w : Fin 32) (s : State) (hq : Keeps ⟨qq, none, cc⟩ s) :
    KeepsO ⟨qq, none, cc⟩ (execLiftContention n blk w s) := by
  unfold execLiftContention
  extract_lets x1 x2 x3 x4 x5 x6 x7 x8 x9 x10 x11 x12 x13
  have h14 : Keeps ⟨qq, none, cc⟩ x12 := ?_
  refine KeepsO.ite (fun _ => ?_) (fun _ => ?_)
  refine KeepsO.next ?_
  exact hq
  refine KeepsO.ite (fun _ => ?_) (fun _ => ?_)
  refine KeepsO.next ?_
  refine State.fence_keeps (hq := ?_) ..
  refine State.rewriteBlock_keeps (hq := ?_) ..
  exact h14
  refine KeepsO.next ?_
  refine State.modScrRgn_keeps (hq := ?_) ..
  exact h14
  dsimp -zeta only [x12]
  have h15 : Keeps ⟨qq, none, cc⟩ x10 := ?_
  refine State.logEvLimited_keeps (hq := ?_) ..
  exact h15
  dsimp -zeta only [x10]
  have h16 : Keeps ⟨qq, none, cc⟩ x9 := ?_
  refine State.wr_keeps (hq := ?_) ..
  refine State.wr_keeps (hq := ?_) ..
  refine State.wr_keeps (hq := ?_) ..
  exact h16
  dsimp -zeta only [x9]
  have h17 : Keeps ⟨qq, none, cc⟩ x8 := ?_
  refine State.wr_keeps (hq := ?_) ..
  refine State.wr_keeps (hq := ?_) ..
  refine State.wr_keeps (hq := ?_) ..
  refine State.wr_keeps (hq := ?_) ..
  exact h17
  dsimp -zeta only [x8]
  refine State.bump_keeps (hq := ?_) ..
  exact hq

theorem execQuiet_keeps {qq : List Instr} {mm : Option Memory} {cc : Option Chip} (n : Fin 64) (s : State) (hq : Keeps ⟨qq, mm, cc⟩ s) :
    KeepsO ⟨qq, mm, cc⟩ (execQuiet n s) := by
  unfold execQuiet
  split
  refine KeepsO.next ?_
  exact hq
  refine KeepsO.next ?_
  refine State.quietWindow_keeps (hq := ?_) ..
  refine KeepsQ.of (by assumption) ?_
  refine State.takeAction_keeps (hq := ?_) ..
  exact hq

theorem execQuietWindowEnd_keeps {qq : List Instr} {mm : Option Memory} {cc : Option Chip} (n : Fin 64) (s : State) (hq : Keeps ⟨qq, mm, cc⟩ s) :
    KeepsO ⟨qq, mm, cc⟩ (execQuietWindowEnd n s) := by
  unfold execQuietWindowEnd
  refine KeepsO.ite (fun _ => ?_) (fun _ => ?_)
  refine KeepsO.next ?_
  refine State.leaveTest_keeps (hq := ?_) ..
  refine State.modScrRgn_keeps (hq := ?_) ..
  exact hq
  refine KeepsO.next ?_
  exact hq

theorem execScrTest_keeps {qq : List Instr} {mm : Option Memory} {cc : Option Chip} (x : Accessor) (v : Word) (s : State) (hq : Keeps ⟨qq, mm, cc⟩ s) :
    KeepsO ⟨qq, mm, cc⟩ (execScrTest x v s) := by
  unfold execScrTest
  refine KeepsO.next ?_
  refine State.writeTest_keeps (hq := ?_) ..
  exact hq

theorem execTourTestStart_keeps {qq : List Instr} {mm : Option Memory} {cc : Option Chip} (kind : Fin 5) (sc : Fin 64) (s : State) (hq : Keeps ⟨qq, mm, cc⟩ s) :
    KeepsO ⟨qq, mm, cc⟩ (execTourTestStart kind sc s) := by
  unfold execTourTestStart
  refine KeepsO.next ?_
  refine State.tourStart_keeps (hq := ?_) ..
  exact hq

theorem execTourlateCheck_keeps {qq : List Instr} {mm : Option Memory} {cc : Option Chip} (n : Fin 64) (s : State) (hq : Keeps ⟨qq, mm, cc⟩ s) :
    KeepsO ⟨qq, mm, cc⟩ (execTourlateCheck n s) := by
  unfold execTourlateCheck
  extract_lets x1
  refine KeepsO.ite (fun _ => ?_) (fun _ => ?_)
  refine KeepsO.next ?_
  exact hq
  refine KeepsO.next ?_
  refine State.logEv_keeps (hq := ?_) ..
  refine State.raise_keeps (hq := ?_) ..
  exact hq

theorem execColumnCopyDone_keeps {qq : List Instr} {mm : Option Memory} {cc : Option Chip} (n : Fin 64) (s : State) (hq : Keeps ⟨qq, mm, cc⟩ s) :
    KeepsO ⟨qq, mm, cc⟩ (execColumnCopyDone n s) := by
  unfold execColumnCopyDone
  refine KeepsO.next ?_
  refine State.columnCopied_keeps (hq := ?_) ..
  exact hq

theorem execBistTestEnd_keeps {qq : List Instr} {cc : Option Chip} (a : TestEnd) (s : State) (hq : Keeps ⟨qq, none, cc⟩ s) :
    KeepsO ⟨qq, none, cc⟩ (execBistTestEnd a s) := by
  unfold execBistTestEnd
  refine KeepsO.next ?_
  refine State.testEnds_keeps (hq := ?_) ..
  exact hq

theorem execAgeMeasure_keeps {qq : List Instr} {cc : Option Chip} (n : Fin 64) (ages : List (Fin 74 × Byte)) (s : State) (hq : Keeps ⟨qq, none, cc⟩ s) :
    KeepsO ⟨qq, none, cc⟩ (execAgeMeasure n ages s) := by
  unfold execAgeMeasure
  refine KeepsO.next ?_
  refine Keeps.ite (fun _ => ?_) (fun _ => ?_)
  refine State.ageMeasured_keeps (hq := ?_) ..
  exact hq
  exact hq

theorem execHoursTick_keeps {qq : List Instr} {mm : Option Memory} {cc : Option Chip} (s : State) (hq : Keeps ⟨qq, mm, cc⟩ s) :
    KeepsO ⟨qq, mm, cc⟩ (execHoursTick s) := by
  unfold execHoursTick
  refine KeepsO.next ?_
  refine Keeps.ite (fun _ => ?_) (fun _ => ?_)
  refine State.count_keeps (hq := ?_) ..
  exact hq
  exact hq

theorem State.startCheck_keeps {qq : List Instr} {mm : Option Memory} {cc : Option Chip} (s : State) (w : CheckWhat) (hq : Keeps ⟨qq, mm, cc⟩ s) :
    Keeps ⟨qq, mm, cc⟩ (State.startCheck s w) := by
  unfold State.startCheck
  extract_lets x1
  refine Keeps.ite (fun _ => ?_) (fun _ => ?_)
  exact hq
  refine State.modBist_keeps (hq := ?_) ..
  exact hq

theorem State.startPhases_keeps {qq : List Instr} {mm : Option Memory} {cc : Option Chip} (s : State) (r : Fin 137) (hq : Keeps ⟨qq, mm, cc⟩ s) :
    Keeps ⟨qq, mm, cc⟩ (State.startPhases s r) := by
  unfold State.startPhases
  refine Keeps.foldl (fun t1 y2 h3 => ?_) ?_
  extract_lets x4
  refine Keeps.ite (fun _ => ?_) (fun _ => ?_)
  refine Keeps.ite (fun _ => ?_) (fun _ => ?_)
  exact h3
  refine State.bstRecord_keeps (hq := ?_) ..
  exact h3
  refine State.startCheck_keeps (hq := ?_) ..
  exact h3
  exact hq

theorem execAnalogCheckPeriod_keeps {qq : List Instr} {mm : Option Memory} {cc : Option Chip} (s : State) (hq : Keeps ⟨qq, mm, cc⟩ s) :
    KeepsO ⟨qq, mm, cc⟩ (execAnalogCheckPeriod s) := by
  unfold execAnalogCheckPeriod
  refine KeepsO.ite (fun _ => ?_) (fun _ => ?_)
  refine KeepsO.next ?_
  exact hq
  refine KeepsO.ite (fun _ => ?_) (fun _ => ?_)
  refine KeepsO.next ?_
  refine Keeps.foldl (fun t1 y2 h3 => ?_) ?_
  refine Keeps.ite (fun _ => ?_) (fun _ => ?_)
  exact h3
  refine State.startCheck_keeps (hq := ?_) ..
  exact h3
  exact hq
  refine KeepsO.ite (fun _ => ?_) (fun _ => ?_)
  refine KeepsO.next ?_
  exact hq
  extract_lets x4 x5 x6 x7
  have h8 : Keeps ⟨qq, mm, cc⟩ x7 := ?_
  refine KeepsO.next ?_
  refine Keeps.foldl (fun t9 y10 h11 => ?_) ?_
  refine State.startPhases_keeps (hq := ?_) ..
  exact h11
  exact h8
  dsimp -zeta only [x7]
  have h12 : Keeps ⟨qq, mm, cc⟩ x6 := ?_
  refine Keeps.foldl (fun t13 y14 h15 => ?_) ?_
  refine Keeps.foldl (fun t16 y17 h18 => ?_) ?_
  refine Keeps.ite (fun _ => ?_) (fun _ => ?_)
  exact h18
  refine State.startCheck_keeps (hq := ?_) ..
  exact h18
  exact h15
  exact h12
  dsimp -zeta only [x6]
  have h19 : Keeps ⟨qq, mm, cc⟩ x5 := ?_
  refine Keeps.foldl (fun t20 y21 h22 => ?_) ?_
  refine State.startCheck_keeps (hq := ?_) ..
  exact h22
  exact h19
  dsimp -zeta only [x5]
  have h23 : Keeps ⟨qq, mm, cc⟩ x4 := ?_
  refine Keeps.foldl (fun t24 y25 h26 => ?_) ?_
  refine State.startCheck_keeps (hq := ?_) ..
  exact h26
  exact h23
  dsimp -zeta only [x4]
  refine Keeps.foldl (fun t27 y28 h29 => ?_) ?_
  refine Keeps.ite (fun _ => ?_) (fun _ => ?_)
  exact h29
  refine State.startCheck_keeps (hq := ?_) ..
  exact h29
  exact hq

theorem State.sensorPassed_keeps {qq : List Instr} {mm : Option Memory} {cc : Option Chip} (s : State) (x : Nat) (hq : Keeps ⟨qq, mm, cc⟩ s) :
    Keeps ⟨qq, mm, cc⟩ (State.sensorPassed s x) := by
  unfold State.sensorPassed
  refine Keeps.ite (fun _ => ?_) (fun _ => ?_)
  exact hq
  extract_lets x1 x2 x3 x4 x5
  have h6 : Keeps ⟨qq, mm, cc⟩ x2 := ?_
  have h7 : Keeps ⟨qq, mm, cc⟩ x5 := ?_
  refine Keeps.ite (fun _ => ?_) (fun _ => ?_)
  refine State.logEv_keeps (hq := ?_) ..
  exact h7
  exact h6
  dsimp -zeta only [x5]
  refine Keeps.mk_other ?_
  exact h6
  dsimp -zeta only [x2]
  refine Keeps.mk_other ?_
  exact hq

theorem State.checkFails_keeps {qq : List Instr} (s : State) (w : CheckWhat) (hq : Keeps ⟨qq, none, none⟩ s) :
    Keeps ⟨qq, none, none⟩ (State.checkFails s w) := by
  unfold State.checkFails
  extract_lets x1
  split
  refine State.sensorBroken_keeps (hq := ?_) ..
  exact hq
  refine State.loseReady_keeps (hq := ?_) ..
  exact hq
  refine State.loseReady_keeps (hq := ?_) ..
  exact hq
  refine State.modBist_keeps (hq := ?_) ..
  exact hq
  refine State.phaseFails_keeps (hq := ?_) ..
  exact hq

theorem execAnalogCheckEnd_keeps {qq : List Instr} (a : CheckEnd) (s : State) (hq : Keeps ⟨qq, none, none⟩ s) :
    KeepsO ⟨qq, none, none⟩ (execAnalogCheckEnd a s) := by
  unfold execAnalogCheckEnd
  extract_lets x1 x2 x3 x4 x5 x6 x7
  have h8 : Keeps ⟨qq, none, none⟩ x3 := ?_
  have h9 : Keeps ⟨qq, none, none⟩ x7 := ?_
  refine KeepsO.ite (fun _ => ?_) (fun _ => ?_)
  refine KeepsO.next ?_
  exact hq
  refine KeepsO.ite (fun _ => ?_) (fun _ => ?_)
  refine KeepsO.next ?_
  split
  refine State.sensorPassed_keeps (hq := ?_) ..
  exact h8
  exact h8
  refine KeepsO.next ?_
  refine State.checkFails_keeps (hq := ?_) ..
  exact h9
  dsimp -zeta only [x7]
  have h10 : Keeps ⟨qq, none, none⟩ x5 := ?_
  refine State.logEv_keeps (hq := ?_) ..
  exact h10
  dsimp -zeta only [x5]
  have h11 : Keeps ⟨qq, none, none⟩ x2 := ?_
  refine State.bstRecord_keeps (hq := ?_) ..
  refine State.bump_keeps (hq := ?_) ..
  refine State.raise_keeps (hq := ?_) ..
  exact h11
  dsimp -zeta only [x2]
  refine State.endRunOf_keeps (hq := ?_) ..
  exact hq
  dsimp -zeta only [x3]
  have h12 : Keeps ⟨qq, none, none⟩ x2 := ?_
  refine State.bstRecord_keeps (hq := ?_) ..
  refine State.count_keeps (hq := ?_) ..
  exact h12
  dsimp -zeta only [x2]
  refine State.endRunOf_keeps (hq := ?_) ..
  exact hq

theorem State.deliverPorts_keeps {qq : List Instr} {mm : Option Memory} {cc : Option Chip} (s : State) (n : Nat) (hq : Keeps ⟨qq, mm, cc⟩ s) :
    Keeps ⟨qq, mm, cc⟩ (State.deliverPorts s n) := by
  unfold State.deliverPorts
  extract_lets x1 x2
  have h3 : Keeps ⟨qq, mm, cc⟩ x2 := ?_
  refine State.modFab_keeps (hq := ?_) ..
  exact h3
  dsimp -zeta only [x2]
  refine Keeps.ite (fun _ => ?_) (fun _ => ?_)
  refine State.raise_keeps (hq := ?_) ..
  exact hq
  exact hq

theorem State.rebind_keeps {qq : List Instr} {mm : Option Memory} {cc : Option Chip} (s : State) (n : Nat) (hq : Keeps ⟨qq, mm, cc⟩ s) :
    Keeps ⟨qq, mm, cc⟩ (State.rebind s n) := by
  unfold State.rebind
  refine Keeps.foldl (fun t1 y2 h3 => ?_) ?_
  extract_lets x4 x5 x6
  refine Keeps.ite (fun _ => ?_) (fun _ => ?_)
  refine State.raise_keeps (hq := ?_) ..
  refine State.modFab_keeps (hq := ?_) ..
  exact h3
  exact h3
  exact hq

theorem State.streamIn_keeps {qq : List Instr} {mm : Option Memory} {cc : Option Chip} (s : State) (n : Nat) (p : Nat) (w : StreamWord) (hq : Keeps ⟨qq, mm, cc⟩ s) :
    Keeps ⟨qq, mm, cc⟩ (State.streamIn s n p w) := by
  unfold State.streamIn
  extract_lets x1 x2
  refine Keeps.ite (fun _ => ?_) (fun _ => ?_)
  exact hq
  refine State.modFab_keeps (hq := ?_) ..
  exact hq

theorem State.streamOut_keeps {qq : List Instr} {mm : Option Memory} {cc : Option Chip} (s : State) (n : Nat) (p : Nat) (hq : Keeps ⟨qq, mm, cc⟩ s) :
    Keeps ⟨qq, mm, cc⟩ (State.streamOut s n p) := by
  unfold State.streamOut
  extract_lets x1
  refine State.modFab_keeps (hq := ?_) ..
  exact hq

theorem State.netWordIn_keeps {qq : List Instr} {mm : Option Memory} {cc : Option Chip} (s : State) (n : Nat) (p : Nat) (dest : Nat) (w : Line) (hq : Keeps ⟨qq, mm, cc⟩ s) :
    Keeps ⟨qq, mm, cc⟩ (State.netWordIn s n p dest w) := by
  unfold State.netWordIn
  extract_lets x1
  refine Keeps.ite (fun _ => ?_) (fun _ => ?_)
  exact hq
  refine State.modFab_keeps (hq := ?_) ..
  exact hq

theorem State.portEdge_keeps {qq : List Instr} {mm : Option Memory} {cc : Option Chip} (s : State) (n : Nat) (pins : FabricPins) (hq : Keeps ⟨qq, mm, cc⟩ s) :
    Keeps ⟨qq, mm, cc⟩ (State.portEdge s n pins) := by
  unfold State.portEdge
  extract_lets x1 x2 x3 x4 x5
  have h6 : Keeps ⟨qq, mm, cc⟩ x5 := ?_
  refine Keeps.foldl (fun t7 y8 h9 => ?_) ?_
  refine State.modFab_keeps (hq := ?_) ..
  exact h9
  exact h6
  dsimp -zeta only [x5]
  have h10 : Keeps ⟨qq, mm, cc⟩ x4 := ?_
  refine Keeps.foldl (fun t11 y12 h13 => ?_) ?_
  refine State.netWordIn_keeps (hq := ?_) ..
  exact h13
  exact h10
  dsimp -zeta only [x4]
  have h14 : Keeps ⟨qq, mm, cc⟩ x3 := ?_
  refine Keeps.foldl (fun t15 y16 h17 => ?_) ?_
  refine State.streamIn_keeps (hq := ?_) ..
  exact h17
  exact h14
  dsimp -zeta only [x3]
  have h18 : Keeps ⟨qq, mm, cc⟩ x2 := ?_
  refine Keeps.foldl (fun t19 y20 h21 => ?_) ?_
  refine State.streamOut_keeps (hq := ?_) ..
  exact h21
  exact h18
  dsimp -zeta only [x2]
  have h22 : Keeps ⟨qq, mm, cc⟩ x1 := ?_
  refine State.modFab_keeps (hq := ?_) ..
  exact h22
  dsimp -zeta only [x1]
  refine State.rebind_keeps (hq := ?_) ..
  refine State.deliverPorts_keeps (hq := ?_) ..
  exact hq

theorem execRegionFabricClockEdge_keeps {qq : List Instr} {mm : Option Memory} {cc : Option Chip} (n : Fin 64) (pins : FabricPins) (s : State) (hq : Keeps ⟨qq, mm, cc⟩ s) :
    KeepsO ⟨qq, mm, cc⟩ (execRegionFabricClockEdge n pins s) := by
  unfold execRegionFabricClockEdge
  refine KeepsO.ite (fun _ => ?_) (fun _ => ?_)
  refine KeepsO.next ?_
  exact hq
  extract_lets x1
  have h2 : Keeps ⟨qq, mm, cc⟩ x1 := ?_
  refine KeepsO.next ?_
  refine Keeps.ite (fun _ => ?_) (fun _ => ?_)
  refine State.portEdge_keeps (hq := ?_) ..
  exact h2
  exact h2
  dsimp -zeta only [x1]
  refine State.modRegion_keeps (hq := ?_) ..
  exact hq

theorem execWdk_keeps {qq : List Instr} {mm : Option Memory} {cc : Option Chip} (n : Fin 64) (s : State) (hq : Keeps ⟨qq, mm, cc⟩ s) :
    KeepsO ⟨qq, mm, cc⟩ (execWdk n s) := by
  unfold execWdk
  refine KeepsO.next ?_
  refine Keeps.ite (fun _ => ?_) (fun _ => ?_)
  refine State.modRegion_keeps (hq := ?_) ..
  exact hq
  exact hq

theorem State.writeRgnKick_keeps {qq : List Instr} {mm : Option Memory} {cc : Option Chip} (s : State) (acc : Accessor) (n : Nat) (v : Nat) (hq : Keeps ⟨qq, mm, cc⟩ s) :
    Keeps ⟨qq, mm, cc⟩ (State.writeRgnKick s acc n v) := by
  unfold State.writeRgnKick
  refine Keeps.ite (fun _ => ?_) (fun _ => ?_)
  refine State.modRegion_keeps (hq := ?_) ..
  exact hq
  refine State.bump_keeps (hq := ?_) ..
  exact hq

theorem execRgnWdkick_keeps {qq : List Instr} {mm : Option Memory} {cc : Option Chip} (acc : Accessor) (n : Fin 64) (v : Word) (s : State) (hq : Keeps ⟨qq, mm, cc⟩ s) :
    KeepsO ⟨qq, mm, cc⟩ (execRgnWdkick acc n v s) := by
  unfold execRgnWdkick
  refine KeepsO.next ?_
  refine State.writeRgnKick_keeps (hq := ?_) ..
  exact hq

theorem execRegionWatchdogExpire_keeps {qq : List Instr} {cc : Option Chip} (n : Fin 64) (s : State) (hq : Keeps ⟨qq, none, cc⟩ s) :
    KeepsO ⟨qq, none, cc⟩ (execRegionWatchdogExpire n s) := by
  unfold execRegionWatchdogExpire
  extract_lets x1 x2
  refine KeepsO.next ?_
  refine Keeps.ite (fun _ => ?_) (fun _ => ?_)
  refine State.fence_keeps (hq := ?_) ..
  exact hq
  exact hq

theorem execSensorWord_keeps {qq : List Instr} {mm : Option Memory} {cc : Option Chip} (b : Fin 8) (i : Fin 48) (w : Byte) (s : State) (hq : Keeps ⟨qq, mm, cc⟩ s) :
    KeepsO ⟨qq, mm, cc⟩ (execSensorWord b i w s) := by
  unfold execSensorWord
  extract_lets x1 x2
  refine KeepsO.ite (fun _ => ?_) (fun _ => ?_)
  refine KeepsO.next ?_
  exact hq
  refine KeepsO.ite (fun _ => ?_) (fun _ => ?_)
  refine KeepsO.next ?_
  refine State.modFab_keeps (hq := ?_) ..
  exact hq
  refine KeepsO.next ?_
  refine State.logEvLimited_keeps (hq := ?_) ..
  refine State.bump_keeps (hq := ?_) ..
  refine State.raise_keeps (hq := ?_) ..
  exact hq

theorem execSensorPairLock_keeps {qq : List Instr} {mm : Option Memory} {cc : Option Chip} (b : Fin 8) (i : Fin 48) (lock : Bool) (s : State) (hq : Keeps ⟨qq, mm, cc⟩ s) :
    KeepsO ⟨qq, mm, cc⟩ (execSensorPairLock b i lock s) := by
  unfold execSensorPairLock
  refine KeepsO.ite (fun _ => ?_) (fun _ => ?_)
  refine KeepsO.next ?_
  exact hq
  extract_lets x1
  refine KeepsO.ite (fun _ => ?_) (fun _ => ?_)
  refine KeepsO.next ?_
  refine State.wr_keeps (hq := ?_) ..
  exact hq
  refine KeepsO.next ?_
  refine State.logEvLimited_keeps (hq := ?_) ..
  refine State.raise_keeps (hq := ?_) ..
  refine State.wr_keeps (hq := ?_) ..
  exact hq

theorem State.vioBank_keeps {qq : List Instr} {mm : Option Memory} {cc : Option Chip} (s : State) (b : Nat) (v : Nat) (hq : Keeps ⟨qq, mm, cc⟩ s) :
    Keeps ⟨qq, mm, cc⟩ (State.vioBank s b v) := by
  unfold State.vioBank
  extract_lets x1 x2 x3 x4 x5 x6
  have h7 : Keeps ⟨qq, mm, cc⟩ x3 := ?_
  have h8 : Keeps ⟨qq, mm, cc⟩ x6 := ?_
  refine Keeps.ite (fun _ => ?_) (fun _ => ?_)
  refine Keeps.ite (fun _ => ?_) (fun _ => ?_)
  exact h7
  refine Keeps.ite (fun _ => ?_) (fun _ => ?_)
  refine State.wr_keeps (hq := ?_) ..
  exact h7
  refine Keeps.ite (fun _ => ?_) (fun _ => ?_)
  refine Keeps.mk_other ?_
  exact h7
  refine Keeps.ite (fun _ => ?_) (fun _ => ?_)
  dsimp -zeta only [x4]
  refine State.logEv_keeps (hq := ?_) ..
  refine State.raise_keeps (hq := ?_) ..
  refine State.wr_keeps (hq := ?_) ..
  exact h7
  exact h7
  refine Keeps.ite (fun _ => ?_) (fun _ => ?_)
  dsimp -zeta only [x4]
  refine State.logEv_keeps (hq := ?_) ..
  refine State.raise_keeps (hq := ?_) ..
  refine State.wr_keeps (hq := ?_) ..
  exact h8
  exact h8
  dsimp -zeta only [x6]
  refine Keeps.mk_other ?_
  exact h7
  dsimp -zeta only [x3]
  refine State.wr_keeps (hq := ?_) ..
  exact hq

theorem execVioCheck_keeps {qq : List Instr} {mm : Option Memory} {cc : Option Chip} (a : Byte) (b : Byte) (s : State) (hq : Keeps ⟨qq, mm, cc⟩ s) :
    KeepsO ⟨qq, mm, cc⟩ (execVioCheck a b s) := by
  unfold execVioCheck
  refine KeepsO.ite (fun _ => ?_) (fun _ => ?_)
  refine KeepsO.next ?_
  exact hq
  extract_lets x1 x2
  have h3 : Keeps ⟨qq, mm, cc⟩ x1 := ?_
  refine KeepsO.next ?_
  refine Keeps.mk_other ?_
  exact h3
  dsimp -zeta only [x1]
  refine State.vioBank_keeps (hq := ?_) ..
  refine State.vioBank_keeps (hq := ?_) ..
  exact hq

theorem execVinLockoutRise_keeps {qq : List Instr} (s : State) (hq : Keeps ⟨qq, none, none⟩ s) :
    KeepsO ⟨qq, none, none⟩ (execVinLockoutRise s) := by
  unfold execVinLockoutRise
  refine KeepsO.next ?_
  refine Keeps.ite (fun _ => ?_) (fun _ => ?_)
  refine State.toPor_keeps (hq := ?_) ..
  refine Keeps.mk_other ?_
  exact hq
  exact hq

theorem execVinLockoutFall_keeps {qq : List Instr} (s : State) (hq : Keeps ⟨qq, none, none⟩ s) :
    KeepsO ⟨qq, none, none⟩ (execVinLockoutFall s) := by
  unfold execVinLockoutFall
  refine KeepsO.next ?_
  refine Keeps.ite (fun _ => ?_) (fun _ => ?_)
  exact hq
  refine State.toOff_keeps (hq := ?_) ..
  exact hq

theorem execPorstNLow_keeps {qq : List Instr} (s : State) (hq : Keeps ⟨qq, none, none⟩ s) :
    KeepsO ⟨qq, none, none⟩ (execPorstNLow s) := by
  unfold execPorstNLow
  refine KeepsO.next ?_
  refine Keeps.ite (fun _ => ?_) (fun _ => ?_)
  exact hq
  refine State.toPor_keeps (hq := ?_) ..
  exact hq

theorem execPorToLoad_keeps {qq : List Instr} {mm : Option Memory} (s : State) (hq : Keeps ⟨qq, mm, none⟩ s) :
    KeepsO ⟨qq, mm, none⟩ (execPorToLoad s) := by
  unfold execPorToLoad
  refine KeepsO.next ?_
  refine Keeps.ite (fun _ => ?_) (fun _ => ?_)
  refine State.toLoad_keeps (hq := ?_) ..
  exact hq
  exact hq

theorem execSafeEntryComplete_keeps {qq : List Instr} (s : State) (hq : Keeps ⟨qq, none, none⟩ s) :
    KeepsO ⟨qq, none, none⟩ (execSafeEntryComplete s) := by
  unfold execSafeEntryComplete
  refine KeepsO.next ?_
  refine Keeps.ite (fun _ => ?_) (fun _ => ?_)
  refine State.safeDone_keeps (hq := ?_) ..
  exact hq
  exact hq

theorem execVinLow_keeps {qq : List Instr} (s : State) (hq : Keeps ⟨qq, none, none⟩ s) :
    KeepsO ⟨qq, none, none⟩ (execVinLow s) := by
  unfold execVinLow
  refine KeepsO.next ?_
  refine State.doubt_keeps (hq := ?_) ..
  exact hq

theorem execVinHigh_keeps {qq : List Instr} (s : State) (hq : Keeps ⟨qq, none, none⟩ s) :
    KeepsO ⟨qq, none, none⟩ (execVinHigh s) := by
  unfold execVinHigh
  refine KeepsO.next ?_
  refine State.doubt_keeps (hq := ?_) ..
  exact hq

theorem execSafeNLow_keeps {qq : List Instr} (s : State) (hq : Keeps ⟨qq, none, none⟩ s) :
    KeepsO ⟨qq, none, none⟩ (execSafeNLow s) := by
  unfold execSafeNLow
  refine KeepsO.next ?_
  refine State.doubt_keeps (hq := ?_) ..
  exact hq

theorem execBaseStateUe_keeps {qq : List Instr} (s : State) (hq : Keeps ⟨qq, none, none⟩ s) :
    KeepsO ⟨qq, none, none⟩ (execBaseStateUe s) := by
  unfold execBaseStateUe
  refine KeepsO.next ?_
  refine State.doubt_keeps (hq := ?_) ..
  exact hq

theorem execLockstepMismatch_keeps {qq : List Instr} (where_ : Fin 4) (s : State) (hq : Keeps ⟨qq, none, none⟩ s) :
    KeepsO ⟨qq, none, none⟩ (execLockstepMismatch where_ s) := by
  unfold execLockstepMismatch
  refine KeepsO.ite (fun _ => ?_) (fun _ => ?_)
  refine KeepsO.next ?_
  exact hq
  extract_lets x1
  have h2 : Keeps ⟨qq, none, none⟩ x1 := ?_
  refine KeepsO.next ?_
  refine State.doubt_keeps (hq := ?_) ..
  exact h2
  dsimp -zeta only [x1]
  refine State.wr_keeps (hq := ?_) ..
  refine State.wr_keeps (hq := ?_) ..
  refine State.raise_keeps (hq := ?_) ..
  exact hq

theorem State.writeReload_keeps {qq : List Instr} {mm : Option Memory} (s : State) (v : Nat) (hq : Keeps ⟨qq, mm, none⟩ s) :
    Keeps ⟨qq, mm, none⟩ (State.writeReload s v) := by
  unfold State.writeReload
  extract_lets x1
  have h2 : Keeps ⟨qq, mm, none⟩ x1 := ?_
  refine Keeps.ite (fun _ => ?_) (fun _ => ?_)
  exact h2
  refine Keeps.ite (fun _ => ?_) (fun _ => ?_)
  dsimp -zeta only [State.modChip]
  refine Keeps.mk_chip_outs ?_ rfl rfl rfl
  exact h2
  refine State.toLoad_keeps (hq := ?_) ..
  exact h2
  dsimp -zeta only [x1]
  refine Keeps.mk_other ?_
  exact hq

theorem execReload_keeps {qq : List Instr} {mm : Option Memory} (x : Accessor) (v : Word) (s : State) (hq : Keeps ⟨qq, mm, none⟩ s) :
    KeepsO ⟨qq, mm, none⟩ (execReload x v s) := by
  unfold execReload
  refine KeepsO.next ?_
  refine State.writeReload_keeps (hq := ?_) ..
  exact hq

theorem State.writeSysKick_keeps {qq : List Instr} {mm : Option Memory} {cc : Option Chip} (s : State) (acc : Accessor) (v : Nat) (hq : Keeps ⟨qq, mm, cc⟩ s) :
    Keeps ⟨qq, mm, cc⟩ (State.writeSysKick s acc v) := by
  unfold State.writeSysKick
  extract_lets x1
  have h2 : Keeps ⟨qq, mm, cc⟩ x1 := ?_
  refine Keeps.ite (fun _ => ?_) (fun _ => ?_)
  dsimp -zeta only [State.modChip]
  refine Keeps.mk_chip_same ?_ rfl
  exact h2
  refine State.bump_keeps (hq := ?_) ..
  exact h2
  dsimp -zeta only [x1]
  refine Keeps.mk_other ?_
  exact hq

theorem execSysWdkick_keeps {qq : List Instr} {mm : Option Memory} {cc : Option Chip} (acc : Accessor) (v : Word) (s : State) (hq : Keeps ⟨qq, mm, cc⟩ s) :
    KeepsO ⟨qq, mm, cc⟩ (execSysWdkick acc v s) := by
  unfold execSysWdkick
  refine KeepsO.next ?_
  refine State.writeSysKick_keeps (hq := ?_) ..
  exact hq

theorem execWdwarn_keeps {qq : List Instr} {mm : Option Memory} {cc : Option Chip} (s : State) (hq : Keeps ⟨qq, mm, cc⟩ s) :
    KeepsO ⟨qq, mm, cc⟩ (execWdwarn s) := by
  unfold execWdwarn
  refine KeepsO.ite (fun _ => ?_) (fun _ => ?_)
  refine KeepsO.next ?_
  refine State.pendSrc_keeps (hq := ?_) ..
  dsimp -zeta only [State.modChip]
  refine Keeps.mk_chip_same ?_ rfl
  exact hq
  refine KeepsO.next ?_
  exact hq

theorem execChipWatchdogExpire_keeps {qq : List Instr} (s : State) (hq : Keeps ⟨qq, none, none⟩ s) :
    KeepsO ⟨qq, none, none⟩ (execChipWatchdogExpire s) := by
  unfold execChipWatchdogExpire
  refine KeepsO.ite (fun _ => ?_) (fun _ => ?_)
  refine KeepsO.next ?_
  refine State.doubt_keeps (hq := ?_) ..
  exact hq
  refine KeepsO.next ?_
  exact hq

theorem State.writeTail_keeps {qq : List Instr} {mm : Option Memory} {cc : Option Chip} (s : State) (t : Nat) (hq : Keeps ⟨qq, mm, cc⟩ s) :
    Keeps ⟨qq, mm, cc⟩ (State.writeTail s t) := by
  unfold State.writeTail
  extract_lets x1 x2
  refine Keeps.mk_other ?_
  exact hq

theorem execLogTailWrite_keeps {qq : List Instr} {mm : Option Memory} {cc : Option Chip} (x : Accessor) (v : Word) (s : State) (hq : Keeps ⟨qq, mm, cc⟩ s) :
    KeepsO ⟨qq, mm, cc⟩ (execLogTailWrite x v s) := by
  unfold execLogTailWrite
  refine KeepsO.next ?_
  refine State.writeTail_keeps (hq := ?_) ..
  exact hq

theorem State.writeWcmd_keeps {qq : List Instr} {mm : Option Memory} {cc : Option Chip} (s : State) (v : Nat) (hq : Keeps ⟨qq, mm, cc⟩ s) :
    Keeps ⟨qq, mm, cc⟩ (State.writeWcmd s v) := by
  unfold State.writeWcmd
  extract_lets x1 x2 x3
  have h4 : Keeps ⟨qq, mm, cc⟩ x2 := ?_
  refine Keeps.ite (fun _ => ?_) (fun _ => ?_)
  exact h4
  refine Keeps.ite (fun _ => ?_) (fun _ => ?_)
  refine State.raise_keeps (hq := ?_) ..
  exact h4
  refine State.logEv_keeps (hq := ?_) ..
  exact h4
  dsimp -zeta only [x2]
  have h5 : Keeps ⟨qq, mm, cc⟩ x1 := ?_
  refine Keeps.ite (fun _ => ?_) (fun _ => ?_)
  refine State.wr_keeps (hq := ?_) ..
  exact h5
  exact h5
  dsimp -zeta only [x1]
  refine Keeps.mk_other ?_
  exact hq

theorem execLogWcmd_keeps {qq : List Instr} {mm : Option Memory} {cc : Option Chip} (x : Accessor) (v : Word) (s : State) (hq : Keeps ⟨qq, mm, cc⟩ s) :
    KeepsO ⟨qq, mm, cc⟩ (execLogWcmd x v s) := by
  unfold execLogWcmd
  refine KeepsO.next ?_
  refine State.writeWcmd_keeps (hq := ?_) ..
  exact hq

theorem execLogLost_keeps {qq : List Instr} {mm : Option Memory} {cc : Option Chip} (s : State) (hq : Keeps ⟨qq, mm, cc⟩ s) :
    KeepsO ⟨qq, mm, cc⟩ (execLogLost s) := by
  unfold execLogLost
  split
  refine KeepsO.next ?_
  refine Keeps.ite (fun _ => ?_) (fun _ => ?_)
  refine State.logLostNow_keeps (hq := ?_) ..
  exact hq
  exact hq
  refine KeepsO.next ?_
  exact hq

theorem execRateLimitFlush_keeps {qq : List Instr} {mm : Option Memory} {cc : Option Chip} (code : BitVec 16) (scope : BitVec 24) (s : State) (hq : Keeps ⟨qq, mm, cc⟩ s) :
    KeepsO ⟨qq, mm, cc⟩ (execRateLimitFlush code scope s) := by
  unfold execRateLimitFlush
  extract_lets x1
  split
  refine KeepsO.next ?_
  exact hq
  refine KeepsO.ite (fun _ => ?_) (fun _ => ?_)
  refine KeepsO.next ?_
  exact hq
  extract_lets x2 x3 x4
  have h5 : Keeps ⟨qq, mm, cc⟩ x2 := ?_
  refine KeepsO.next ?_
  refine Keeps.mk_other ?_
  exact h5
  dsimp -zeta only [x2]
  refine State.logRec_keeps (hq := ?_) ..
  exact hq

end

end Sys2Proof.Machine
end

