-- ==== Sys2Proof/Laws/KeepsBus.lean ====
section
/-! SUPPORT. Keeps (Laws/Keeps) for the service space, the network's services, the journal and the loader:
one lemma per function, each from those of the functions it calls. -/

namespace Sys2Proof.Machine

section

set_option simprocs false

theorem State.queuePart_keeps {qq : List Instr} {mm : Option Memory} {cc : Option Chip} (s : State) (q : PartReq) (hq : Keeps ⟨qq, mm, cc⟩ s) :
    Keeps ⟨qq, mm, cc⟩ (State.queuePart s q) := by
  unfold State.queuePart
  refine State.modLdr_keeps (hq := ?_) ..
  exact hq

theorem State.writePload_keeps {qq : List Instr} {mm : Option Memory} {cc : Option Chip} (s : State) (v : Nat) (hq : Keeps ⟨qq, mm, cc⟩ s) :
    Keeps ⟨qq, mm, cc⟩ (State.writePload s v) := by
  unfold State.writePload
  extract_lets x1 x2 x3
  have h4 : Keeps ⟨qq, mm, cc⟩ x1 := ?_
  refine Keeps.ite (fun _ => ?_) (fun _ => ?_)
  exact h4
  refine Keeps.ite (fun _ => ?_) (fun _ => ?_)
  refine State.partOutcome_keeps (hq := ?_) ..
  exact h4
  refine State.queuePart_keeps (hq := ?_) ..
  exact h4
  dsimp -zeta only [x1]
  refine Keeps.mk_other ?_
  exact hq

theorem State.askWakeFor_keeps {qq : List Instr} {mm : Option Memory} {cc : Option Chip} (s : State) (part : Nat) (path : Nat) (entry : Nat) (hq : Keeps ⟨qq, mm, cc⟩ s) :
    Keeps ⟨qq, mm, cc⟩ (State.askWakeFor s part path entry) := by
  unfold State.askWakeFor
  refine State.kettleQueue_keeps (hq := ?_) ..
  exact hq

theorem State.partAction_keeps {qq : List Instr} {mm : Option Memory} {cc : Option Chip} (s : State) (a : Action) (hq : Keeps ⟨qq, mm, cc⟩ s) :
    Keeps ⟨qq, mm, cc⟩ (State.partAction s a) := by
  unfold State.partAction
  extract_lets x1 x2
  split
  split
  refine State.partOutcome_keeps (hq := ?_) ..
  refine State.modLdr_keeps (hq := ?_) ..
  exact hq
  refine State.modLdr_keeps (hq := ?_) ..
  exact hq
  refine Keeps.ite (fun _ => ?_) (fun _ => ?_)
  refine State.askWakeFor_keeps (hq := ?_) ..
  exact hq
  refine State.queuePart_keeps (hq := ?_) ..
  exact hq

theorem State.fallBack_keeps {qq : List Instr} {mm : Option Memory} {cc : Option Chip} (s : State) (q : PartReq) (hq : Keeps ⟨qq, mm, cc⟩ s) :
    Keeps ⟨qq, mm, cc⟩ (State.fallBack s q) := by
  unfold State.fallBack
  extract_lets x1
  refine Keeps.ite (fun _ => ?_) (fun _ => ?_)
  exact hq
  refine State.queuePart_keeps (hq := ?_) ..
  exact hq

theorem State.fencePartial_keeps {qq : List Instr} {cc : Option Chip} (s : State) (n : Nat) (hq : Keeps ⟨qq, none, cc⟩ s) :
    Keeps ⟨qq, none, cc⟩ (State.fencePartial s n) := by
  unfold State.fencePartial
  refine State.modRegion_keeps (hq := ?_) ..
  refine State.fence_keeps (hq := ?_) ..
  exact hq

theorem State.failPartial_keeps {qq : List Instr} {cc : Option Chip} (s : State) (code : Nat) (hq : Keeps ⟨qq, none, cc⟩ s) :
    Keeps ⟨qq, none, cc⟩ (State.failPartial s code) := by
  unfold State.failPartial
  split
  exact hq
  extract_lets x1
  have h2 : Keeps ⟨qq, none, cc⟩ x1 := ?_
  refine Keeps.ite (fun _ => ?_) (fun _ => ?_)
  refine State.fallBack_keeps (hq := ?_) ..
  refine State.fencePartial_keeps (hq := ?_) ..
  exact h2
  exact h2
  dsimp -zeta only [x1]
  refine State.endPartial_keeps (hq := ?_) ..
  exact hq

theorem State.closeTaken_keeps {qq : List Instr} {cc : Option Chip} (s : State) (q : PartReq) (status : Nat) (err : Nat) (hq : Keeps ⟨qq, none, cc⟩ s) :
    Keeps ⟨qq, none, cc⟩ (State.closeTaken s q status err) := by
  unfold State.closeTaken
  extract_lets x1 x2
  have h3 : Keeps ⟨qq, none, cc⟩ x2 := ?_
  refine Keeps.ite (fun _ => ?_) (fun _ => ?_)
  refine State.fallBack_keeps (hq := ?_) ..
  refine State.fencePartial_keeps (hq := ?_) ..
  exact h3
  exact h3
  dsimp -zeta only [x2]
  refine State.closePart_keeps (hq := ?_) ..
  exact hq

theorem State.startPartial_keeps {qq : List Instr} {mm : Option Memory} {cc : Option Chip} (s : State) (q : PartReq) (hq : Keeps ⟨qq, mm, cc⟩ s) :
    Keeps ⟨qq, mm, cc⟩ (State.startPartial s q) := by
  unfold State.startPartial
  extract_lets x1 x2 x3 x4 x5 x6 x7
  have h8 : Keeps ⟨qq, mm, cc⟩ x7 := ?_
  refine Keeps.ite (fun _ => ?_) (fun _ => ?_)
  refine State.modCtx_keeps (hq := ?_) ..
  exact h8
  exact h8
  dsimp -zeta only [x7]
  have h9 : Keeps ⟨qq, mm, cc⟩ x6 := ?_
  refine State.wr_keeps (hq := ?_) ..
  refine State.wr_keeps (hq := ?_) ..
  refine State.wr_keeps (hq := ?_) ..
  exact h9
  dsimp -zeta only [x6]
  have h10 : Keeps ⟨qq, mm, cc⟩ x4 := ?_
  refine State.modLdr_keeps (hq := ?_) ..
  exact h10
  dsimp -zeta only [x4]
  refine Keeps.ite (fun _ => ?_) (fun _ => ?_)
  refine State.toLoading_keeps (hq := ?_) ..
  exact hq
  exact hq

theorem State.takePartial_keeps {qq : List Instr} {cc : Option Chip} (s : State) (hq : Keeps ⟨qq, none, cc⟩ s) :
    Keeps ⟨qq, none, cc⟩ (State.takePartial s) := by
  unfold State.takePartial
  refine Keeps.ite (fun _ => ?_) (fun _ => ?_)
  exact hq
  split
  exact hq
  extract_lets x1 x2 x3
  have h4 : Keeps ⟨qq, none, cc⟩ x1 := ?_
  have h5 : Keeps ⟨qq, none, cc⟩ x3 := ?_
  split
  refine State.startPartial_keeps (hq := ?_) ..
  exact h4
  refine State.askWakeFor_keeps (hq := ?_) ..
  exact h4
  refine State.closeTaken_keeps (hq := ?_) ..
  exact h4
  refine State.closeTaken_keeps (hq := ?_) ..
  exact h5
  dsimp -zeta only [x3]
  refine State.ctxRefuse_keeps (hq := ?_) ..
  exact h4
  dsimp -zeta only [x1]
  refine State.modLdr_keeps (hq := ?_) ..
  exact hq

theorem State.completePartial_keeps {qq : List Instr} {mm : Option Memory} {cc : Option Chip} (s : State) (p : PartRun) (hq : Keeps ⟨qq, mm, cc⟩ s) :
    Keeps ⟨qq, mm, cc⟩ (State.completePartial s p) := by
  unfold State.completePartial
  extract_lets x1 x2 x3 x4 x5
  have h6 : Keeps ⟨qq, mm, cc⟩ x3 := ?_
  have h7 : Keeps ⟨qq, mm, cc⟩ x5 := ?_
  refine Keeps.ite (fun _ => ?_) (fun _ => ?_)
  exact h6
  refine State.restart_keeps (hq := ?_) ..
  exact h7
  dsimp -zeta only [x5]
  have h8 : Keeps ⟨qq, mm, cc⟩ x4 := ?_
  refine Keeps.ite (fun _ => ?_) (fun _ => ?_)
  refine State.raiseInitial_keeps (hq := ?_) ..
  exact h8
  exact h8
  dsimp -zeta only [x4]
  refine Keeps.ite (fun _ => ?_) (fun _ => ?_)
  refine State.plcAssign_keeps (hq := ?_) ..
  exact h6
  exact h6
  dsimp -zeta only [x3]
  have h9 : Keeps ⟨qq, mm, cc⟩ x2 := ?_
  refine State.endPartial_keeps (hq := ?_) ..
  exact h9
  dsimp -zeta only [x2]
  refine State.modCtx_keeps (hq := ?_) ..
  exact hq

theorem State.endOfPartial_keeps {qq : List Instr} {cc : Option Chip} (s : State) (crcOk : Bool) (sigOk : Bool) (hq : Keeps ⟨qq, none, cc⟩ s) :
    Keeps ⟨qq, none, cc⟩ (State.endOfPartial s crcOk sigOk) := by
  unfold State.endOfPartial
  split
  exact hq
  refine Keeps.ite (fun _ => ?_) (fun _ => ?_)
  exact hq
  refine Keeps.ite (fun _ => ?_) (fun _ => ?_)
  refine State.failPartial_keeps (hq := ?_) ..
  exact hq
  refine Keeps.ite (fun _ => ?_) (fun _ => ?_)
  refine State.failPartial_keeps (hq := ?_) ..
  exact hq
  refine State.completePartial_keeps (hq := ?_) ..
  exact hq

theorem State.answerWith_keeps {qq : List Instr} {mm : Option Memory} {cc : Option Chip} (s : State) (status : Nat) (data : Nat) (hq : Keeps ⟨qq, mm, cc⟩ s) :
    Keeps ⟨qq, mm, cc⟩ (State.answerWith s status data) := by
  unfold State.answerWith
  refine Keeps.mk_other ?_
  exact hq

theorem State.badWrite_keeps {qq : List Instr} {mm : Option Memory} {cc : Option Chip} (s : State) (a : Nat) (hq : Keeps ⟨qq, mm, cc⟩ s) :
    Keeps ⟨qq, mm, cc⟩ (State.badWrite s a) := by
  unfold State.badWrite
  refine State.wr_keeps (hq := ?_) ..
  refine State.bump_keeps (hq := ?_) ..
  exact hq

theorem State.judgeWrite_keeps {qq : List Instr} {mm : Option Memory} {cc : Option Chip} (s : State) (d : RegDesc) (a : Nat) (v : Nat) (hq : Keeps ⟨qq, mm, cc⟩ s) :
    Keeps ⟨qq, mm, cc⟩ (State.judgeWrite s d a v) := by
  unfold State.judgeWrite
  extract_lets x1 x2 x3
  have h4 : Keeps ⟨qq, mm, cc⟩ x3 := ?_
  refine Keeps.ite (fun _ => ?_) (fun _ => ?_)
  refine State.raise_keeps (hq := ?_) ..
  exact h4
  exact h4
  dsimp -zeta only [x3]
  refine Keeps.ite (fun _ => ?_) (fun _ => ?_)
  refine State.badWrite_keeps (hq := ?_) ..
  exact hq
  exact hq

theorem State.writeField_keeps {qq : List Instr} {mm : Option Memory} {cc : Option Chip} (s : State) (a : Nat) (v : Nat) (f : FieldDesc) (hq : Keeps ⟨qq, mm, cc⟩ s) :
    Keeps ⟨qq, mm, cc⟩ (State.writeField s a v f) := by
  unfold State.writeField
  extract_lets x1 x2 x3
  refine Keeps.ite (fun _ => ?_) (fun _ => ?_)
  exact hq
  split
  dsimp -zeta only [x3]
  refine Keeps.mk_regs ?_ ?_
  exact hq
  exact Tbl.wf_put _ _ _ _ hq.2.1.2
  dsimp -zeta only [x3]
  refine Keeps.mk_regs ?_ ?_
  exact hq
  exact Tbl.wf_put _ _ _ _ hq.2.1.2
  dsimp -zeta only [x3]
  refine Keeps.mk_regs ?_ ?_
  exact hq
  exact Tbl.wf_put _ _ _ _ hq.2.1.2
  exact hq
  exact hq

theorem State.writeFields_keeps {qq : List Instr} {mm : Option Memory} {cc : Option Chip} (s : State) (d : RegDesc) (a : Nat) (v : Nat) (hq : Keeps ⟨qq, mm, cc⟩ s) :
    Keeps ⟨qq, mm, cc⟩ (State.writeFields s d a v) := by
  unfold State.writeFields
  refine Keeps.foldl (fun t1 y2 h3 => ?_) ?_
  refine State.writeField_keeps (hq := ?_) ..
  exact h3
  exact hq

theorem State.writeDdata_keeps {qq : List Instr} {mm : Option Memory} {cc : Option Chip} (s : State) (n : Nat) (v : Nat) (hq : Keeps ⟨qq, mm, cc⟩ s) :
    Keeps ⟨qq, mm, cc⟩ (State.writeDdata s n v) := by
  unfold State.writeDdata
  extract_lets x1 x2
  split
  refine State.writeDesc_keeps (hq := ?_) ..
  exact hq
  refine Keeps.ite (fun _ => ?_) (fun _ => ?_)
  refine State.writeKernel_keeps (hq := ?_) ..
  exact hq
  exact hq
  refine Keeps.ite (fun _ => ?_) (fun _ => ?_)
  exact hq
  refine State.badWrite_keeps (hq := ?_) ..
  exact hq

theorem State.writeTdata_keeps {qq : List Instr} {mm : Option Memory} {cc : Option Chip} (s : State) (v : Nat) (hq : Keeps ⟨qq, mm, cc⟩ s) :
    Keeps ⟨qq, mm, cc⟩ (State.writeTdata s v) := by
  unfold State.writeTdata
  refine Keeps.ite (fun _ => ?_) (fun _ => ?_)
  refine State.modKrl_keeps (hq := ?_) ..
  exact hq
  exact hq

theorem State.writeGio_keeps {qq : List Instr} {mm : Option Memory} {cc : Option Chip} (s : State) (d : RegDesc) (a : Nat) (v : Nat) (hq : Keeps ⟨qq, mm, cc⟩ s) :
    Keeps ⟨qq, mm, cc⟩ (State.writeGio s d a v) := by
  unfold State.writeGio
  extract_lets x1 x2
  refine Keeps.foldl (fun t3 y4 h5 => ?_) ?_
  refine Keeps.ite (fun _ => ?_) (fun _ => ?_)
  exact h5
  refine State.writeField_keeps (hq := ?_) ..
  exact h5
  exact hq

theorem State.writeEccW0_keeps {qq : List Instr} {mm : Option Memory} {cc : Option Chip} (s : State) (n : Nat) (k : Nat) (v : Nat) (hq : Keeps ⟨qq, mm, cc⟩ s) :
    Keeps ⟨qq, mm, cc⟩ (State.writeEccW0 s n k v) := by
  unfold State.writeEccW0
  refine Keeps.ite (fun _ => ?_) (fun _ => ?_)
  exact hq
  refine State.clearEcc_keeps (hq := ?_) ..
  exact hq

theorem State.ownRegionWrite_keeps {qq : List Instr} {mm : Option Memory} {cc : Option Chip} (s : State) (acc : Accessor) (n : Nat) (o : Nat) (v : Nat) (hq : Keeps ⟨qq, mm, cc⟩ s) :
    KeepsP ⟨qq, mm, cc⟩ (State.ownRegionWrite s acc n o v) := by
  unfold State.ownRegionWrite
  split
  refine KeepsP.some ?_
  refine State.writeRgnKick_keeps (hq := ?_) ..
  exact hq
  split
  refine KeepsP.some ?_
  refine State.writeCtxReq_keeps (hq := ?_) ..
  exact hq
  split
  refine KeepsP.some ?_
  refine State.writeSchToken_keeps (hq := ?_) ..
  exact hq
  split
  refine KeepsP.some ?_
  refine State.writeWqPush_keeps (hq := ?_) ..
  exact hq
  split
  refine KeepsP.some ?_
  refine State.writeDdata_keeps (hq := ?_) ..
  exact hq
  split
  refine KeepsP.some ?_
  refine State.writeOwn_keeps (hq := ?_) ..
  exact hq
  split
  refine KeepsP.some ?_
  refine State.writeInj_keeps (hq := ?_) ..
  exact hq
  split
  refine KeepsP.some ?_
  refine State.writeEccW0_keeps (hq := ?_) ..
  exact hq
  split
  refine KeepsP.some ?_
  refine State.writeEngCtrl_keeps (hq := ?_) ..
  exact hq
  split
  refine KeepsP.some ?_
  refine State.writeMdata_keeps (hq := ?_) ..
  exact hq
  split
  refine KeepsP.some ?_
  refine State.writeRdata_keeps (hq := ?_) ..
  exact hq
  exact KeepsP.none

theorem State.ownBaseWrite_keeps {qq : List Instr} {mm : Option Memory} (s : State) (acc : Accessor) (d : RegDesc) (a : Nat) (v : Nat) (hq : Keeps ⟨qq, mm, none⟩ s) :
    KeepsP ⟨qq, mm, none⟩ (State.ownBaseWrite s acc d a v) := by
  unfold State.ownBaseWrite
  split
  refine KeepsP.some ?_
  refine State.writeReload_keeps (hq := ?_) ..
  exact hq
  split
  refine KeepsP.some ?_
  exact hq
  exact KeepsP.none
  refine KeepsP.some ?_
  refine State.writeTail_keeps (hq := ?_) ..
  exact hq
  refine KeepsP.some ?_
  refine State.writeSysKick_keeps (hq := ?_) ..
  exact hq
  refine KeepsP.some ?_
  refine State.writeWcmd_keeps (hq := ?_) ..
  exact hq
  refine KeepsP.some ?_
  refine State.writePload_keeps (hq := ?_) ..
  exact hq
  refine KeepsP.some ?_
  refine State.writeRelease_keeps (hq := ?_) ..
  exact hq
  refine KeepsP.some ?_
  refine State.writeTest_keeps (hq := ?_) ..
  exact hq
  refine KeepsP.some ?_
  refine State.writeFields_keeps (hq := ?_) ..
  refine State.spend_keeps (hq := ?_) ..
  exact hq
  refine KeepsP.some ?_
  refine State.writePwrReq_keeps (hq := ?_) ..
  exact hq
  refine KeepsP.some ?_
  refine State.newSimVel_keeps (hq := ?_) ..
  exact hq
  refine KeepsP.some ?_
  refine State.writeTdata_keeps (hq := ?_) ..
  exact hq
  refine KeepsP.some ?_
  refine State.writeXmcCtrl_keeps (hq := ?_) ..
  exact hq
  refine KeepsP.some ?_
  refine State.writeXmcRetire_keeps (hq := ?_) ..
  exact hq
  refine KeepsP.some ?_
  refine State.writeKgen_keeps (hq := ?_) ..
  exact hq
  refine KeepsP.some ?_
  refine State.mbxAck_keeps (hq := ?_) ..
  exact hq
  refine KeepsP.some ?_
  refine State.writePlcOvr_keeps (hq := ?_) ..
  exact hq
  refine KeepsP.some ?_
  refine State.writeTrcIdx_keeps (hq := ?_) ..
  exact hq
  extract_lets x1
  split
  refine KeepsP.some ?_
  refine State.writeDom_keeps (hq := ?_) ..
  exact hq
  split
  refine KeepsP.some ?_
  refine State.clearEncErr_keeps (hq := ?_) ..
  exact hq
  split
  refine KeepsP.some ?_
  refine State.writeQsub_keeps (hq := ?_) ..
  exact hq
  split
  refine KeepsP.some ?_
  refine State.writeEscan_keeps (hq := ?_) ..
  exact hq
  split
  refine KeepsP.some ?_
  refine State.crcClear_keeps (hq := ?_) ..
  exact hq
  split
  refine KeepsP.some ?_
  refine State.writeGio_keeps (hq := ?_) ..
  exact hq
  split
  refine KeepsP.some ?_
  refine State.writeRdata_keeps (hq := ?_) ..
  exact hq
  exact KeepsP.none

theorem State.writeReg_keeps {qq : List Instr} {mm : Option Memory} (s : State) (acc : Accessor) (d : RegDesc) (a : Nat) (v : Nat) (hq : Keeps ⟨qq, mm, none⟩ s) :
    Keeps ⟨qq, mm, none⟩ (State.writeReg s acc d a v) := by
  unfold State.writeReg
  extract_lets x1 x2 x3 x4 x5
  have h6 : Keeps ⟨qq, mm, none⟩ x4 := ?_
  refine Keeps.getD ?_ ?_
  dsimp -zeta only [x5]
  split
  refine State.ownRegionWrite_keeps (hq := ?_) ..
  exact h6
  refine State.ownBaseWrite_keeps (hq := ?_) ..
  exact h6
  refine State.writeFields_keeps (hq := ?_) ..
  exact h6
  dsimp -zeta only [x4]
  have h7 : Keeps ⟨qq, mm, none⟩ x3 := ?_
  refine State.answerWith_keeps (hq := ?_) ..
  exact h7
  dsimp -zeta only [x3]
  have h8 : Keeps ⟨qq, mm, none⟩ x2 := ?_
  refine Keeps.ite (fun _ => ?_) (fun _ => ?_)
  refine State.takeFree_keeps (hq := ?_) ..
  exact h8
  exact h8
  dsimp -zeta only [x2]
  refine State.judgeWrite_keeps (hq := ?_) ..
  exact hq

theorem State.writeWindow_keeps {qq : List Instr} {mm : Option Memory} {cc : Option Chip} (s : State) (x : WindowWord) (a : Nat) (v : Nat) (hq : Keeps ⟨qq, mm, cc⟩ s) :
    Keeps ⟨qq, mm, cc⟩ (State.writeWindow s x a v) := by
  unfold State.writeWindow
  extract_lets x1
  split
  refine State.writeEntry_keeps (hq := ?_) ..
  refine State.answerWith_keeps (hq := ?_) ..
  exact hq
  refine State.writeEccW0_keeps (hq := ?_) ..
  dsimp -zeta only [x1]
  refine State.answerWith_keeps (hq := ?_) ..
  refine Keeps.ite (fun _ => ?_) (fun _ => ?_)
  exact hq
  refine State.badWrite_keeps (hq := ?_) ..
  exact hq
  dsimp -zeta only [x1]
  refine State.answerWith_keeps (hq := ?_) ..
  refine Keeps.ite (fun _ => ?_) (fun _ => ?_)
  exact hq
  refine State.badWrite_keeps (hq := ?_) ..
  exact hq

theorem State.readBstRec_keeps {qq : List Instr} {mm : Option Memory} {cc : Option Chip} (s : State) (k : Nat) (hq : Keeps ⟨qq, mm, cc⟩ s) :
    Keeps ⟨qq, mm, cc⟩ (State.readBstRec s k) := by
  unfold State.readBstRec
  extract_lets x1 x2
  refine Keeps.mk_other ?_
  exact hq

theorem State.ownRegionRead_keeps {qq : List Instr} {mm : Option Memory} {cc : Option Chip} (s : State) (n : Nat) (o : Nat) (hq : Keeps ⟨qq, mm, cc⟩ s) :
    KeepsP ⟨qq, mm, cc⟩ (State.ownRegionRead s n o) := by
  unfold State.ownRegionRead
  split
  refine KeepsP.some ?_
  refine State.popCq_keeps (hq := ?_) ..
  exact hq
  split
  refine KeepsP.some ?_
  refine State.readEccW0_keeps (hq := ?_) ..
  exact hq
  split
  refine KeepsP.some ?_
  refine State.readMdata_keeps (hq := ?_) ..
  exact hq
  exact KeepsP.none

theorem State.ownBaseRead_keeps {qq : List Instr} {mm : Option Memory} {cc : Option Chip} (s : State) (a : Nat) (hq : Keeps ⟨qq, mm, cc⟩ s) :
    KeepsP ⟨qq, mm, cc⟩ (State.ownBaseRead s a) := by
  unfold State.ownBaseRead
  split
  refine KeepsP.some ?_
  refine State.readPosLo_keeps (hq := ?_) ..
  exact hq
  split
  refine KeepsP.some ?_
  refine State.popIrq_keeps (hq := ?_) ..
  exact hq
  split
  refine KeepsP.some ?_
  refine Keeps.mk_other ?_
  exact hq
  split
  refine KeepsP.some ?_
  refine State.readCntLo_keeps (hq := ?_) ..
  exact hq
  split
  refine KeepsP.some ?_
  refine State.readZlatLo_keeps (hq := ?_) ..
  exact hq
  split
  refine KeepsP.some ?_
  refine State.readBstRec_keeps (hq := ?_) ..
  exact hq
  split
  refine KeepsP.some ?_
  refine State.crcReadLo_keeps (hq := ?_) ..
  exact hq
  exact KeepsP.none

theorem State.readReg_keeps {qq : List Instr} {mm : Option Memory} {cc : Option Chip} (s : State) (d : RegDesc) (a : Nat) (hq : Keeps ⟨qq, mm, cc⟩ s) :
    Keeps ⟨qq, mm, cc⟩ (State.readReg s d a) := by
  unfold State.readReg
  extract_lets x1 x2
  refine Keeps.getD ?_ ?_
  dsimp -zeta only [x1]
  split
  refine State.ownRegionRead_keeps (hq := ?_) ..
  exact hq
  refine State.ownBaseRead_keeps (hq := ?_) ..
  exact hq
  refine State.answerWith_keeps (hq := ?_) ..
  refine Keeps.ite (fun _ => ?_) (fun _ => ?_)
  refine State.takeFree_keeps (hq := ?_) ..
  exact hq
  exact hq

theorem State.readWindow_keeps {qq : List Instr} {mm : Option Memory} {cc : Option Chip} (s : State) (x : WindowWord) (hq : Keeps ⟨qq, mm, cc⟩ s) :
    Keeps ⟨qq, mm, cc⟩ (State.readWindow s x) := by
  unfold State.readWindow
  split
  refine State.readEccW0_keeps (hq := ?_) ..
  exact hq
  refine State.slotRead_keeps (hq := ?_) ..
  exact hq
  refine State.answerWith_keeps (hq := ?_) ..
  exact hq

theorem State.doAccess_keeps {qq : List Instr} {mm : Option Memory} (s : State) (acc : Accessor) (a : Nat) (w : Option Nat) (hq : Keeps ⟨qq, mm, none⟩ s) :
    Keeps ⟨qq, mm, none⟩ (State.doAccess s acc a w) := by
  unfold State.doAccess
  split
  refine State.readWindow_keeps (hq := ?_) ..
  exact hq
  refine State.writeWindow_keeps (hq := ?_) ..
  exact hq
  refine State.readReg_keeps (hq := ?_) ..
  exact hq
  refine State.writeReg_keeps (hq := ?_) ..
  exact hq
  refine State.answerWith_keeps (hq := ?_) ..
  exact hq

theorem State.access_keeps {qq : List Instr} {mm : Option Memory} (s : State) (acc : Accessor) (a : Nat) (w : Option Nat) (hq : Keeps ⟨qq, mm, none⟩ s) :
    Keeps ⟨qq, mm, none⟩ (State.access s acc a w) := by
  unfold State.access
  refine Keeps.ite (fun _ => ?_) (fun _ => ?_)
  refine State.answerWith_keeps (hq := ?_) ..
  exact hq
  refine Keeps.ite (fun _ => ?_) (fun _ => ?_)
  refine State.answerWith_keeps (hq := ?_) ..
  exact hq
  refine State.doAccess_keeps (hq := ?_) ..
  exact hq

theorem State.refuseAccess_keeps {qq : List Instr} {mm : Option Memory} {cc : Option Chip} (s : State) (acc : Accessor) (hq : Keeps ⟨qq, mm, cc⟩ s) :
    Keeps ⟨qq, mm, cc⟩ (State.refuseAccess s acc) := by
  unfold State.refuseAccess
  extract_lets x1
  have h2 : Keeps ⟨qq, mm, cc⟩ x1 := ?_
  refine State.answerWith_keeps (hq := ?_) ..
  refine Keeps.ite (fun _ => ?_) (fun _ => ?_)
  refine State.bump_keeps (hq := ?_) ..
  exact h2
  exact h2
  dsimp -zeta only [x1]
  refine State.bump_keeps (hq := ?_) ..
  exact hq

theorem State.hostAccess_keeps {qq : List Instr} {mm : Option Memory} (s : State) (acc : Accessor) (a : Nat) (w : Option Nat) (hq : Keeps ⟨qq, mm, none⟩ s) :
    Keeps ⟨qq, mm, none⟩ (State.hostAccess s acc a w) := by
  unfold State.hostAccess
  split
  exact hq
  exact hq
  refine Keeps.ite (fun _ => ?_) (fun _ => ?_)
  refine State.answerWith_keeps (hq := ?_) ..
  exact hq
  refine Keeps.ite (fun _ => ?_) (fun _ => ?_)
  refine State.refuseAccess_keeps (hq := ?_) ..
  exact hq
  split
  refine State.access_keeps (hq := ?_) ..
  exact hq
  refine State.refuseAccess_keeps (hq := ?_) ..
  exact hq
  refine State.answerWith_keeps (hq := ?_) ..
  exact hq

theorem State.busAccess_keeps {qq : List Instr} {mm : Option Memory} (s : State) (acc : Accessor) (a : Nat) (w : Option Nat) (hq : Keeps ⟨qq, mm, none⟩ s) :
    Keeps ⟨qq, mm, none⟩ (State.busAccess s acc a w) := by
  unfold State.busAccess
  split
  refine State.access_keeps (hq := ?_) ..
  exact hq
  refine Keeps.ite (fun _ => ?_) (fun _ => ?_)
  refine State.access_keeps (hq := ?_) ..
  exact hq
  exact hq
  refine State.hostAccess_keeps (hq := ?_) ..
  exact hq

theorem execRegisterWrite_keeps {qq : List Instr} {mm : Option Memory} (acc : Accessor) (a : Word) (v : Word) (s : State) (hq : Keeps ⟨qq, mm, none⟩ s) :
    KeepsO ⟨qq, mm, none⟩ (execRegisterWrite acc a v s) := by
  unfold execRegisterWrite
  refine KeepsO.next ?_
  refine State.busAccess_keeps (hq := ?_) ..
  exact hq

theorem State.issueRequest_keeps {qq : List Instr} {mm : Option Memory} {cc : Option Chip} (s : State) (opc : Nat) (a : ReqArgs) (hq : Keeps ⟨qq, mm, cc⟩ s) :
    Keeps ⟨qq, mm, cc⟩ (State.issueRequest s opc a) := by
  unfold State.issueRequest
  refine Keeps.ite (fun _ => ?_) (fun _ => ?_)
  exact hq
  extract_lets x1 x2
  refine State.netRequest_keeps (hq := ?_) ..
  exact hq

theorem State.tokenRequest_keeps {qq : List Instr} {mm : Option Memory} {cc : Option Chip} (s : State) (n : Nat) (p : Packet) (hq : Keeps ⟨qq, mm, cc⟩ s) :
    Keeps ⟨qq, mm, cc⟩ (State.tokenRequest s n p) := by
  unfold State.tokenRequest
  refine Keeps.ite (fun _ => ?_) (fun _ => ?_)
  refine State.respond_keeps (hq := ?_) ..
  exact hq
  extract_lets x1
  split
  refine State.respond_keeps (hq := ?_) ..
  refine Keeps.snd_eq (by assumption) ?_
  refine State.token_keeps (hq := ?_) ..
  exact hq

theorem State.enqueueRequest_keeps {qq : List Instr} {mm : Option Memory} {cc : Option Chip} (s : State) (n : Nat) (p : Packet) (hq : Keeps ⟨qq, mm, cc⟩ s) :
    Keeps ⟨qq, mm, cc⟩ (State.enqueueRequest s n p) := by
  unfold State.enqueueRequest
  refine Keeps.ite (fun _ => ?_) (fun _ => ?_)
  refine State.respond_keeps (hq := ?_) ..
  exact hq
  refine Keeps.ite (fun _ => ?_) (fun _ => ?_)
  refine State.respond_keeps (hq := ?_) ..
  exact hq
  split
  refine State.respond_keeps (hq := ?_) ..
  refine Keeps.snd_eq (by assumption) ?_
  refine State.wqPush_keeps (hq := ?_) ..
  exact hq
  refine State.respond_keeps (hq := ?_) ..
  refine Keeps.snd_eq (by assumption) ?_
  refine State.wqPush_keeps (hq := ?_) ..
  exact hq

theorem State.regionRequest_keeps {qq : List Instr} {cc : Option Chip} (s : State) (n : Nat) (p : Packet) (hq : Keeps ⟨qq, none, cc⟩ s) :
    Keeps ⟨qq, none, cc⟩ (State.regionRequest s n p) := by
  unfold State.regionRequest
  split
  refine State.tokenRequest_keeps (hq := ?_) ..
  exact hq
  refine State.enqueueRequest_keeps (hq := ?_) ..
  exact hq
  refine State.bankRequest_keeps (hq := ?_) ..
  exact hq

theorem State.serveRequest_keeps {qq : List Instr} (s : State) (i : Nat) (p : Packet) (f : XmFind) (hq : Keeps ⟨qq, none, none⟩ s) :
    Keeps ⟨qq, none, none⟩ (State.serveRequest s i p f) := by
  unfold State.serveRequest
  extract_lets x1
  have h2 : Keeps ⟨qq, none, none⟩ x1 := ?_
  refine Keeps.ite (fun _ => ?_) (fun _ => ?_)
  refine Keeps.ite (fun _ => ?_) (fun _ => ?_)
  refine State.respond_keeps (hq := ?_) ..
  exact h2
  refine Keeps.ite (fun _ => ?_) (fun _ => ?_)
  exact hq
  refine Keeps.ite (fun _ => ?_) (fun _ => ?_)
  refine Keeps.ite (fun _ => ?_) (fun _ => ?_)
  exact hq
  refine State.modNi_keeps (hq := ?_) ..
  exact h2
  refine Keeps.ite (fun _ => ?_) (fun _ => ?_)
  exact hq
  refine State.regionRequest_keeps (hq := ?_) ..
  exact h2
  refine Keeps.ite (fun _ => ?_) (fun _ => ?_)
  refine State.respond_keeps (hq := ?_) ..
  exact h2
  refine Keeps.ite (fun _ => ?_) (fun _ => ?_)
  refine Keeps.ite (fun _ => ?_) (fun _ => ?_)
  exact hq
  refine State.memRequest_keeps (hq := ?_) ..
  exact h2
  refine State.respond_keeps (hq := ?_) ..
  exact h2
  dsimp -zeta only [x1]
  refine State.modNi_keeps (hq := ?_) ..
  exact hq

theorem State.serveReg_keeps {qq : List Instr} {mm : Option Memory} (s : State) (i : Nat) (p : Packet) (hq : Keeps ⟨qq, mm, none⟩ s) :
    Keeps ⟨qq, mm, none⟩ (State.serveReg s i p) := by
  unfold State.serveReg
  extract_lets x1 x2 x3 x4 x5 x6
  have h7 : Keeps ⟨qq, mm, none⟩ x1 := ?_
  have h8 : Keeps ⟨qq, mm, none⟩ x6 := ?_
  refine Keeps.ite (fun _ => ?_) (fun _ => ?_)
  refine State.respond_keeps (hq := ?_) ..
  exact h7
  refine Keeps.ite (fun _ => ?_) (fun _ => ?_)
  refine State.respond_keeps (hq := ?_) ..
  exact h7
  refine Keeps.ite (fun _ => ?_) (fun _ => ?_)
  refine State.krlAsk_keeps (hq := ?_) ..
  exact h7
  refine Keeps.ite (fun _ => ?_) (fun _ => ?_)
  refine State.respond_keeps (hq := ?_) ..
  exact h7
  refine State.respond_keeps (hq := ?_) ..
  exact h8
  dsimp -zeta only [x6]
  refine State.access_keeps (hq := ?_) ..
  exact h7
  dsimp -zeta only [x1]
  refine State.modNi_keeps (hq := ?_) ..
  exact hq

theorem State.netCmd_keeps {qq : List Instr} (s : State) (opc : Nat) (c : NetCmd) (hq : Keeps ⟨qq, none, none⟩ s) :
    Keeps ⟨qq, none, none⟩ (State.netCmd s opc c) := by
  unfold State.netCmd
  split
  refine State.issueRequest_keeps (hq := ?_) ..
  exact hq
  split
  exact hq
  refine Keeps.ite (fun _ => ?_) (fun _ => ?_)
  refine State.serveReg_keeps (hq := ?_) ..
  exact hq
  refine State.serveRequest_keeps (hq := ?_) ..
  exact hq

theorem execToken_keeps {qq : List Instr} (c : NetCmd) (s : State) (hq : Keeps ⟨qq, none, none⟩ s) :
    KeepsO ⟨qq, none, none⟩ (execToken c s) := by
  unfold execToken
  refine KeepsO.next ?_
  refine State.netCmd_keeps (hq := ?_) ..
  exact hq

theorem execEnqueue_keeps {qq : List Instr} (c : NetCmd) (s : State) (hq : Keeps ⟨qq, none, none⟩ s) :
    KeepsO ⟨qq, none, none⟩ (execEnqueue c s) := by
  unfold execEnqueue
  refine KeepsO.next ?_
  refine State.netCmd_keeps (hq := ?_) ..
  exact hq

theorem execRead1_keeps {qq : List Instr} (c : NetCmd) (s : State) (hq : Keeps ⟨qq, none, none⟩ s) :
    KeepsO ⟨qq, none, none⟩ (execRead1 c s) := by
  unfold execRead1
  refine KeepsO.next ?_
  refine State.netCmd_keeps (hq := ?_) ..
  exact hq

theorem execRead4_keeps {qq : List Instr} (c : NetCmd) (s : State) (hq : Keeps ⟨qq, none, none⟩ s) :
    KeepsO ⟨qq, none, none⟩ (execRead4 c s) := by
  unfold execRead4
  refine KeepsO.next ?_
  refine State.netCmd_keeps (hq := ?_) ..
  exact hq

theorem execRead16_keeps {qq : List Instr} (c : NetCmd) (s : State) (hq : Keeps ⟨qq, none, none⟩ s) :
    KeepsO ⟨qq, none, none⟩ (execRead16 c s) := by
  unfold execRead16
  refine KeepsO.next ?_
  refine State.netCmd_keeps (hq := ?_) ..
  exact hq

theorem execWrite1_keeps {qq : List Instr} (c : NetCmd) (s : State) (hq : Keeps ⟨qq, none, none⟩ s) :
    KeepsO ⟨qq, none, none⟩ (execWrite1 c s) := by
  unfold execWrite1
  refine KeepsO.next ?_
  refine State.netCmd_keeps (hq := ?_) ..
  exact hq

theorem execWrite4_keeps {qq : List Instr} (c : NetCmd) (s : State) (hq : Keeps ⟨qq, none, none⟩ s) :
    KeepsO ⟨qq, none, none⟩ (execWrite4 c s) := by
  unfold execWrite4
  refine KeepsO.next ?_
  refine State.netCmd_keeps (hq := ?_) ..
  exact hq

theorem execWrite16_keeps {qq : List Instr} (c : NetCmd) (s : State) (hq : Keeps ⟨qq, none, none⟩ s) :
    KeepsO ⟨qq, none, none⟩ (execWrite16 c s) := by
  unfold execWrite16
  refine KeepsO.next ?_
  refine State.netCmd_keeps (hq := ?_) ..
  exact hq

theorem execAdd32_keeps {qq : List Instr} (c : NetCmd) (s : State) (hq : Keeps ⟨qq, none, none⟩ s) :
    KeepsO ⟨qq, none, none⟩ (execAdd32 c s) := by
  unfold execAdd32
  refine KeepsO.next ?_
  refine State.netCmd_keeps (hq := ?_) ..
  exact hq

theorem execAdd64_keeps {qq : List Instr} (c : NetCmd) (s : State) (hq : Keeps ⟨qq, none, none⟩ s) :
    KeepsO ⟨qq, none, none⟩ (execAdd64 c s) := by
  unfold execAdd64
  refine KeepsO.next ?_
  refine State.netCmd_keeps (hq := ?_) ..
  exact hq

theorem execSwap64_keeps {qq : List Instr} (c : NetCmd) (s : State) (hq : Keeps ⟨qq, none, none⟩ s) :
    KeepsO ⟨qq, none, none⟩ (execSwap64 c s) := by
  unfold execSwap64
  refine KeepsO.next ?_
  refine State.netCmd_keeps (hq := ?_) ..
  exact hq

theorem execRegrd_keeps {qq : List Instr} (c : NetCmd) (s : State) (hq : Keeps ⟨qq, none, none⟩ s) :
    KeepsO ⟨qq, none, none⟩ (execRegrd c s) := by
  unfold execRegrd
  refine KeepsO.next ?_
  refine State.netCmd_keeps (hq := ?_) ..
  exact hq

theorem execRegwr_keeps {qq : List Instr} (c : NetCmd) (s : State) (hq : Keeps ⟨qq, none, none⟩ s) :
    KeepsO ⟨qq, none, none⟩ (execRegwr c s) := by
  unfold execRegwr
  refine KeepsO.next ?_
  refine State.netCmd_keeps (hq := ?_) ..
  exact hq

theorem State.portDeliver_keeps {qq : List Instr} {mm : Option Memory} {cc : Option Chip} (s : State) (n : Nat) (p : Packet) (hq : Keeps ⟨qq, mm, cc⟩ s) :
    Keeps ⟨qq, mm, cc⟩ (State.portDeliver s n p) := by
  unfold State.portDeliver
  extract_lets x1 x2 x3
  refine Keeps.ite (fun _ => ?_) (fun _ => ?_)
  refine State.dropAt_keeps (hq := ?_) ..
  exact hq
  refine State.crcTap_keeps (hq := ?_) ..
  refine State.modFab_keeps (hq := ?_) ..
  exact hq

theorem State.lanesDeliver_keeps {qq : List Instr} (s taken : State) (i : Nat) (p : Packet) (hq : Keeps ⟨qq, none, none⟩ s)
    (ht : Keeps ⟨qq, none, none⟩ taken) : Keeps ⟨qq, none, none⟩ (s.lanesDeliver taken i p) := by
  unfold State.lanesDeliver
  split
  · refine Keeps.ite (fun _ => State.dropAt_keeps (hq := ht) ..) fun _ => ?_
    exact Keeps.ite (fun _ => hq) fun _ => State.crcTap_keeps (hq := State.laneTake_keeps (hq := ht) ..) ..
  · refine Keeps.ite (fun _ => ?_) fun _ => State.dropAt_keeps (hq := ht) ..
    refine Keeps.ite (fun _ => State.dropAt_keeps (hq := ht) ..) fun _ => ?_
    split
    · rename_i e
      exact Keeps.snd_eq e (State.krlData_keeps (hq := State.krlFresh_keeps (hq := ht) ..) ..)
    · rename_i e
      refine State.modNi_keeps (hq := ?_) ..
      exact Keeps.snd_eq e (State.krlData_keeps (hq := State.krlFresh_keeps (hq := ht) ..) ..)

theorem State.deliver_keeps {qq : List Instr} (s : State) (i : Nat) (opc : Nat) (hq : Keeps ⟨qq, none, none⟩ s) :
    Keeps ⟨qq, none, none⟩ (State.deliver s i opc) := by
  unfold State.deliver
  split
  exact hq
  extract_lets x1
  have h2 : Keeps ⟨qq, none, none⟩ x1 := ?_
  refine Keeps.ite (fun _ => ?_) (fun _ => ?_)
  exact hq
  refine Keeps.ite (fun _ => ?_) (fun _ => ?_)
  refine Keeps.ite (fun _ => ?_) (fun _ => ?_)
  refine State.dropAt_keeps (hq := ?_) ..
  exact h2
  refine Keeps.ite (fun _ => ?_) (fun _ => ?_)
  exact hq
  refine State.portDeliver_keeps (hq := ?_) ..
  exact h2
  refine Keeps.ite (fun _ => ?_) (fun _ => ?_)
  refine State.dropAt_keeps (hq := ?_) ..
  exact h2
  refine Keeps.ite (fun _ => ?_) (fun _ => ?_)
  refine Keeps.ite (fun _ => ?_) (fun _ => ?_)
  refine State.crcTap_keeps (hq := ?_) ..
  exact h2
  refine Keeps.ite (fun _ => ?_) (fun _ => ?_)
  exact hq
  refine State.crcTap_keeps (hq := ?_) ..
  refine State.mbxTake_keeps (hq := ?_) ..
  exact h2
  refine Keeps.ite (fun _ => ?_) (fun _ => ?_)
  refine State.lanesDeliver_keeps (hq := ?_) (ht := ?_) ..
  exact hq
  exact h2
  refine State.dropAt_keeps (hq := ?_) ..
  exact h2
  dsimp -zeta only [x1]
  refine State.modNi_keeps (hq := ?_) ..
  exact hq

theorem execSdata_keeps {qq : List Instr} (i : Fin 80) (s : State) (hq : Keeps ⟨qq, none, none⟩ s) :
    KeepsO ⟨qq, none, none⟩ (execSdata i s) := by
  unfold execSdata
  refine KeepsO.next ?_
  refine State.deliver_keeps (hq := ?_) ..
  exact hq

theorem execSmark_keeps {qq : List Instr} (i : Fin 80) (s : State) (hq : Keeps ⟨qq, none, none⟩ s) :
    KeepsO ⟨qq, none, none⟩ (execSmark i s) := by
  unfold execSmark
  refine KeepsO.next ?_
  refine State.deliver_keeps (hq := ?_) ..
  exact hq

theorem State.sysAnswer_keeps {qq : List Instr} {mm : Option Memory} {cc : Option Chip} (s : State) (id : Nat) (r : Rsp) (hq : Keeps ⟨qq, mm, cc⟩ s) :
    Keeps ⟨qq, mm, cc⟩ (State.sysAnswer s id r) := by
  unfold State.sysAnswer
  refine State.modEng_keeps (hq := ?_) ..
  exact hq

theorem State.sysIssue_keeps {qq : List Instr} {mm : Option Memory} (s : State) (d : Nat) (a : Nat) (w : Option Nat) (hq : Keeps ⟨qq, mm, none⟩ s) :
    Keeps ⟨qq, mm, none⟩ (State.sysIssue s d a w) := by
  unfold State.sysIssue
  extract_lets x1 x2 x3 x4 x5 x6 x7 x8 x9
  have h10 : Keeps ⟨qq, mm, none⟩ x5 := ?_
  have h11 : Keeps ⟨qq, mm, none⟩ x9 := ?_
  refine Keeps.ite (fun _ => ?_) (fun _ => ?_)
  dsimp -zeta only [x8]
  refine State.netRequest_keeps (hq := ?_) ..
  exact h10
  split
  refine Keeps.ite (fun _ => ?_) (fun _ => ?_)
  refine State.sysAnswer_keeps (hq := ?_) ..
  exact h10
  dsimp -zeta only [x8]
  refine State.netRequest_keeps (hq := ?_) ..
  exact h10
  refine State.sysAnswer_keeps (hq := ?_) ..
  exact h11
  dsimp -zeta only [x9]
  refine State.access_keeps (hq := ?_) ..
  exact h10
  dsimp -zeta only [x5]
  have h12 : Keeps ⟨qq, mm, none⟩ x4 := ?_
  refine State.modEng_keeps (hq := ?_) ..
  exact h12
  dsimp -zeta only [x4]
  refine Keeps.mk_other ?_
  exact hq

theorem State.supReset_keeps {qq : List Instr} {mm : Option Memory} {cc : Option Chip} (s : State) (hq : Keeps ⟨qq, mm, cc⟩ s) :
    Keeps ⟨qq, mm, cc⟩ (State.supReset s) := by
  unfold State.supReset
  refine Keeps.ite (fun _ => ?_) (fun _ => ?_)
  refine Keeps.mk_other ?_
  exact hq
  exact hq

theorem State.sld_keeps {qq : List Instr} {mm : Option Memory} (s : State) (g : EngId) (d : Bool) (ind : Bool) (a : Word) (hq : Keeps ⟨qq, mm, none⟩ s) :
    Keeps ⟨qq, mm, none⟩ (State.sld s g d ind a) := by
  unfold State.sld
  extract_lets x1
  refine State.issue_keeps (hq := ?_) (hb := fun t2 u3 h4 => ?_) ..
  exact hq
  dsimp -zeta only
  extract_lets x5
  refine Keeps.ite (fun _ => ?_) (fun _ => ?_)
  refine State.sysIssue_keeps (hq := ?_) ..
  exact h4
  refine State.bankError_keeps (hq := ?_) ..
  refine State.modEng_keeps (hq := ?_) ..
  exact h4

theorem State.sst_keeps {qq : List Instr} {mm : Option Memory} (s : State) (g : EngId) (d : Bool) (ind : Bool) (a : Word) (hq : Keeps ⟨qq, mm, none⟩ s) :
    Keeps ⟨qq, mm, none⟩ (State.sst s g d ind a) := by
  unfold State.sst
  extract_lets x1
  refine State.issue_keeps (hq := ?_) (hb := fun t2 u3 h4 => ?_) ..
  exact hq
  dsimp -zeta only
  extract_lets x5
  refine Keeps.ite (fun _ => ?_) (fun _ => ?_)
  refine State.bankError_keeps (hq := ?_) ..
  exact h4
  refine Keeps.ite (fun _ => ?_) (fun _ => ?_)
  refine State.consume_keeps (hq := ?_) ..
  exact h4
  refine State.sysIssue_keeps (hq := ?_) ..
  exact h4

theorem execSld_keeps {qq : List Instr} {mm : Option Memory} (g : EngId) (d : Bool) (ind : Bool) (a : Word) (s : State) (hq : Keeps ⟨qq, mm, none⟩ s) :
    KeepsO ⟨qq, mm, none⟩ (execSld g d ind a s) := by
  unfold execSld
  refine KeepsO.next ?_
  refine State.supReset_keeps (hq := ?_) ..
  refine State.sld_keeps (hq := ?_) ..
  exact hq

theorem execSst_keeps {qq : List Instr} {mm : Option Memory} (g : EngId) (d : Bool) (ind : Bool) (a : Word) (s : State) (hq : Keeps ⟨qq, mm, none⟩ s) :
    KeepsO ⟨qq, mm, none⟩ (execSst g d ind a s) := by
  unfold execSst
  refine KeepsO.next ?_
  refine State.supReset_keeps (hq := ?_) ..
  refine State.sst_keeps (hq := ?_) ..
  exact hq

theorem State.sysLand_keeps {qq : List Instr} {mm : Option Memory} {cc : Option Chip} (s : State) (hq : Keeps ⟨qq, mm, cc⟩ s) :
    Keeps ⟨qq, mm, cc⟩ (State.sysLand s) := by
  unfold State.sysLand
  split
  exact hq
  split
  exact hq
  extract_lets x1 x2 x3
  have h4 : Keeps ⟨qq, mm, cc⟩ x3 := ?_
  refine Keeps.ite (fun _ => ?_) (fun _ => ?_)
  refine State.pendSrc_keeps (hq := ?_) ..
  exact h4
  exact h4
  dsimp -zeta only [x3]
  have h5 : Keeps ⟨qq, mm, cc⟩ x2 := ?_
  refine Keeps.ite (fun _ => ?_) (fun _ => ?_)
  refine State.modEng_keeps (hq := ?_) ..
  exact h5
  exact h5
  dsimp -zeta only [x2]
  refine State.modEng_keeps (hq := ?_) ..
  exact hq

theorem execSystemAccessResponse_keeps {qq : List Instr} {mm : Option Memory} {cc : Option Chip} (s : State) (hq : Keeps ⟨qq, mm, cc⟩ s) :
    KeepsO ⟨qq, mm, cc⟩ (execSystemAccessResponse s) := by
  unfold execSystemAccessResponse
  refine KeepsO.next ?_
  refine State.sysLand_keeps (hq := ?_) ..
  exact hq

theorem State.portAccess_keeps {qq : List Instr} {mm : Option Memory} (s : State) (acc : Accessor) (a : Nat) (w : Option Nat) (hq : Keeps ⟨qq, mm, none⟩ s) :
    Keeps ⟨qq, mm, none⟩ (State.portAccess s acc a w) := by
  unfold State.portAccess
  refine Keeps.ite (fun _ => ?_) (fun _ => ?_)
  refine State.hostAccess_keeps (hq := ?_) ..
  exact hq
  split
  exact hq
  exact hq
  refine State.answerWith_keeps (hq := ?_) ..
  exact hq
  refine Keeps.ite (fun _ => ?_) (fun _ => ?_)
  refine State.refuseAccess_keeps (hq := ?_) ..
  exact hq
  refine Keeps.ite (fun _ => ?_) (fun _ => ?_)
  refine State.answerWith_keeps (hq := ?_) ..
  exact hq
  refine Keeps.ite (fun _ => ?_) (fun _ => ?_)
  refine State.hostAccess_keeps (hq := ?_) ..
  exact hq
  refine State.krlAsk_keeps (hq := ?_) ..
  exact hq

theorem State.serviceFrame_keeps {qq : List Instr} {mm : Option Memory} (s : State) (f : BitVec 80) (hq : Keeps ⟨qq, mm, none⟩ s) :
    Keeps ⟨qq, mm, none⟩ (State.serviceFrame s f) := by
  unfold State.serviceFrame
  extract_lets x1 x2 x3 x4 x5 x6
  have h7 : Keeps ⟨qq, mm, none⟩ x6 := ?_
  split
  exact hq
  exact hq
  refine Keeps.ite (fun _ => ?_) (fun _ => ?_)
  dsimp -zeta only [x5]
  refine State.answerWith_keeps (hq := ?_) ..
  refine State.bump_keeps (hq := ?_) ..
  exact hq
  refine Keeps.ite (fun _ => ?_) (fun _ => ?_)
  refine State.portAccess_keeps (hq := ?_) ..
  exact h7
  refine Keeps.ite (fun _ => ?_) (fun _ => ?_)
  refine State.portAccess_keeps (hq := ?_) ..
  exact h7
  dsimp -zeta only [x5]
  refine State.answerWith_keeps (hq := ?_) ..
  refine State.bump_keeps (hq := ?_) ..
  exact h7
  dsimp -zeta only [x6]
  refine State.count_keeps (hq := ?_) ..
  exact hq

theorem execServiceFrame_keeps {qq : List Instr} {mm : Option Memory} (f : BitVec 80) (s : State) (hq : Keeps ⟨qq, mm, none⟩ s) :
    KeepsO ⟨qq, mm, none⟩ (execServiceFrame f s) := by
  unfold execServiceFrame
  refine KeepsO.next ?_
  refine State.serviceFrame_keeps (hq := ?_) ..
  exact hq

theorem execServiceFrameShort_keeps {qq : List Instr} {mm : Option Memory} (f : Option (BitVec 80)) (s : State) (hq : Keeps ⟨qq, mm, none⟩ s) :
    KeepsO ⟨qq, mm, none⟩ (execServiceFrameShort f s) := by
  unfold execServiceFrameShort
  split
  refine KeepsO.next ?_
  exact hq
  refine KeepsO.next ?_
  exact hq
  refine KeepsO.next ?_
  refine State.bump_keeps (hq := ?_) ..
  exact hq
  extract_lets x1
  have h2 : Keeps ⟨qq, mm, none⟩ x1 := ?_
  refine KeepsO.next ?_
  refine Keeps.mk_other ?_
  exact h2
  dsimp -zeta only [x1]
  refine State.bump_keeps (hq := ?_) ..
  refine State.serviceFrame_keeps (hq := ?_) ..
  exact hq

theorem execTestPortAccess_keeps {qq : List Instr} {mm : Option Memory} (wr : Bool) (a : Word) (v : Word) (s : State) (hq : Keeps ⟨qq, mm, none⟩ s) :
    KeepsO ⟨qq, mm, none⟩ (execTestPortAccess wr a v s) := by
  unfold execTestPortAccess
  split
  refine KeepsO.next ?_
  exact hq
  refine KeepsO.next ?_
  exact hq
  extract_lets x1
  have h2 : Keeps ⟨qq, mm, none⟩ x1 := ?_
  refine KeepsO.ite (fun _ => ?_) (fun _ => ?_)
  refine KeepsO.next ?_
  refine State.answerWith_keeps (hq := ?_) ..
  refine State.bump_keeps (hq := ?_) ..
  exact h2
  refine KeepsO.next ?_
  refine State.portAccess_keeps (hq := ?_) ..
  exact h2
  dsimp -zeta only [x1]
  refine State.raise_keeps (hq := ?_) ..
  exact hq

theorem State.readWords_keeps {qq : List Instr} {mm : Option Memory} (s : State) (a k : Nat) (hq : Keeps ⟨qq, mm, none⟩ s) :
    Keeps ⟨qq, mm, none⟩ (s.readWords a k).2 := by
  induction k generalizing s a with
  | zero => exact hq
  | succ k ih => exact ih _ _ (State.access_keeps (hq := hq) ..)

theorem State.mgmtRead_keeps {qq : List Instr} {mm : Option Memory} (s : State) (a : Nat) (k : Nat) (hq : Keeps ⟨qq, mm, none⟩ s) :
    Keeps ⟨qq, mm, none⟩ (State.mgmtRead s a k).2.2 := by
  unfold State.mgmtRead
  extract_lets x1
  split
  dsimp -zeta only
  refine State.bump_keeps (hq := ?_) ..
  exact hq
  split
  exact hq
  split
  dsimp -zeta only
  refine Keeps.snd_eq (by assumption) ?_
  refine State.readWords_keeps (hq := ?_) ..
  exact hq

theorem execMgmtRead_keeps {qq : List Instr} {mm : Option Memory} (a : FrameArgs) (s : State) (hq : Keeps ⟨qq, mm, none⟩ s) :
    KeepsO ⟨qq, mm, none⟩ (execMgmtRead a s) := by
  unfold execMgmtRead
  split
  refine KeepsO.ite (fun _ => ?_) (fun _ => ?_)
  refine KeepsO.next ?_
  refine Keeps.snd_eq (by assumption) ?_
  refine State.krlArrive_keeps (hq := ?_) ..
  exact hq
  extract_lets x1
  split
  refine KeepsO.next ?_
  refine State.krlMgmt_keeps (hq := ?_) ..
  refine Keeps.trd_eq (by assumption) ?_
  refine State.mgmtRead_keeps (hq := ?_) ..
  refine Keeps.snd_eq (by assumption) ?_
  refine State.krlArrive_keeps (hq := ?_) ..
  exact hq

theorem execMgmtWrite_keeps {qq : List Instr} {mm : Option Memory} (a : FrameArgs) (s : State) (hq : Keeps ⟨qq, mm, none⟩ s) :
    KeepsO ⟨qq, mm, none⟩ (execMgmtWrite a s) := by
  unfold execMgmtWrite
  split
  refine KeepsO.ite (fun _ => ?_) (fun _ => ?_)
  refine KeepsO.next ?_
  refine Keeps.snd_eq (by assumption) ?_
  refine State.krlArrive_keeps (hq := ?_) ..
  exact hq
  extract_lets x1
  have h2 : Keeps ⟨qq, mm, none⟩ x1 := ?_
  refine KeepsO.next ?_
  refine State.krlMgmt_keeps (hq := ?_) ..
  exact h2
  dsimp -zeta only [x1]
  refine State.hostAccess_keeps (hq := ?_) ..
  refine Keeps.snd_eq (by assumption) ?_
  refine State.krlArrive_keeps (hq := ?_) ..
  exact hq

theorem State.modJrn_keeps {qq : List Instr} {mm : Option Memory} {cc : Option Chip} (s : State) (f : Journal → Journal) (hq : Keeps ⟨qq, mm, cc⟩ s) :
    Keeps ⟨qq, mm, cc⟩ (State.modJrn s f) := by
  unfold State.modJrn
  refine Keeps.mk_other ?_
  exact hq

theorem State.logJournal_keeps {qq : List Instr} {mm : Option Memory} {cc : Option Chip} (s : State) (what : Nat) (status : Nat) (count : Nat) (hq : Keeps ⟨qq, mm, cc⟩ s) :
    Keeps ⟨qq, mm, cc⟩ (State.logJournal s what status count) := by
  unfold State.logJournal
  refine State.logEv_keeps (hq := ?_) ..
  exact hq

theorem State.clearRepairs_keeps {qq : List Instr} {mm : Option Memory} {cc : Option Chip} (s : State) (hq : Keeps ⟨qq, mm, cc⟩ s) :
    Keeps ⟨qq, mm, cc⟩ (State.clearRepairs s) := by
  unfold State.clearRepairs
  extract_lets x1 x2
  have h3 : Keeps ⟨qq, mm, cc⟩ x2 := ?_
  refine State.wr_keeps (hq := ?_) ..
  exact h3
  dsimp -zeta only [x2]
  have h4 : Keeps ⟨qq, mm, cc⟩ x1 := ?_
  refine Keeps.foldl (fun t5 y6 h7 => ?_) ?_
  refine State.wr_keeps (hq := ?_) ..
  refine State.wr_keeps (hq := ?_) ..
  exact h7
  exact h4
  dsimp -zeta only [x1]
  refine Keeps.foldl (fun t8 y9 h10 => ?_) ?_
  extract_lets x11 x12 x13
  have h14 : Keeps ⟨qq, mm, cc⟩ x13 := ?_
  refine State.modRegion_keeps (hq := ?_) ..
  exact h14
  dsimp -zeta only [x13]
  have h15 : Keeps ⟨qq, mm, cc⟩ x12 := ?_
  refine State.wr_keeps (hq := ?_) ..
  refine State.wr_keeps (hq := ?_) ..
  refine State.wr_keeps (hq := ?_) ..
  exact h15
  dsimp -zeta only [x12]
  have h16 : Keeps ⟨qq, mm, cc⟩ x11 := ?_
  refine Keeps.foldl (fun t17 y18 h19 => ?_) ?_
  refine State.wr_keeps (hq := ?_) ..
  refine State.wr_keeps (hq := ?_) ..
  exact h19
  exact h16
  dsimp -zeta only [x11]
  refine Keeps.foldl (fun t20 y21 h22 => ?_) ?_
  refine State.wr_keeps (hq := ?_) ..
  exact h22
  exact h10
  exact hq

theorem State.applySpare_keeps {qq : List Instr} {mm : Option Memory} {cc : Option Chip} (s : State) (r : JrnRec) (hq : Keeps ⟨qq, mm, cc⟩ s) :
    Keeps ⟨qq, mm, cc⟩ (State.applySpare s r).2 := by
  unfold State.applySpare
  extract_lets x1 x2 x3 x4 x5 x6 x7
  have h8 : Keeps ⟨qq, mm, cc⟩ x4 := ?_
  split
  split
  exact hq
  dsimp -zeta only
  refine State.wr_keeps (hq := ?_) ..
  refine State.wr_keeps (hq := ?_) ..
  exact hq
  split
  exact hq
  dsimp -zeta only
  refine State.modPlc_keeps (hq := ?_) ..
  refine State.setSpare_keeps (hq := ?_) ..
  exact hq
  split
  exact hq
  dsimp -zeta only
  refine State.modMem_keeps (hq := ?_) ..
  exact h8
  split
  exact hq
  dsimp -zeta only
  refine State.modLane_keeps (hq := ?_) ..
  refine State.wr_keeps (hq := ?_) ..
  refine State.wr_keeps (hq := ?_) ..
  exact hq
  split
  exact hq
  dsimp -zeta only
  refine State.modClk_keeps (hq := ?_) ..
  exact hq
  exact hq
  dsimp -zeta only [x4]
  split
  refine State.wr_keeps (hq := ?_) ..
  exact hq
  exact hq

theorem State.applyRetired_keeps {qq : List Instr} {mm : Option Memory} {cc : Option Chip} (s : State) (u : Nat) (hq : Keeps ⟨qq, mm, cc⟩ s) :
    Keeps ⟨qq, mm, cc⟩ (State.applyRetired s u) := by
  unfold State.applyRetired
  extract_lets x1 x2 x3
  split
  refine Keeps.ite (fun _ => ?_) (fun _ => ?_)
  refine State.wr_keeps (hq := ?_) ..
  exact hq
  refine State.degrade_keeps (hq := ?_) ..
  exact hq
  refine Keeps.ite (fun _ => ?_) (fun _ => ?_)
  refine State.modEngAt_keeps (hq := ?_) ..
  refine State.setSpare_keeps (hq := ?_) ..
  exact hq
  refine State.modPlc_keeps (hq := ?_) ..
  exact hq
  split
  refine State.degrade_keeps (hq := ?_) ..
  refine State.wr_keeps (hq := ?_) ..
  exact hq
  refine State.modMem_keeps (hq := ?_) ..
  exact hq
  refine Keeps.ite (fun _ => ?_) (fun _ => ?_)
  refine State.modLanes_keeps (hq := ?_) ..
  exact hq
  refine State.degrade_keeps (hq := ?_) ..
  refine State.modLane_keeps (hq := ?_) ..
  exact hq
  refine State.degrade_keeps (hq := ?_) ..
  refine State.modClk_keeps (hq := ?_) ..
  exact hq
  refine State.modKet_keeps (hq := ?_) ..
  exact hq
  exact hq

theorem State.applyRecord_keeps {qq : List Instr} {mm : Option Memory} {cc : Option Chip} (s : State) (r : JrnRec) (hq : Keeps ⟨qq, mm, cc⟩ s) :
    Keeps ⟨qq, mm, cc⟩ (State.applyRecord s r).2 := by
  unfold State.applyRecord
  extract_lets x1 x2 x3 x4 x5
  split
  refine State.applySpare_keeps (hq := ?_) ..
  exact hq
  dsimp -zeta only
  refine State.applyRetired_keeps (hq := ?_) ..
  exact hq
  split
  exact hq
  dsimp -zeta only
  refine State.useRow_keeps (hq := ?_) ..
  exact hq
  split
  exact hq
  dsimp -zeta only
  refine State.putRow_keeps (hq := ?_) ..
  refine State.modScrRgn_keeps (hq := ?_) ..
  exact hq
  split
  exact hq
  dsimp -zeta only
  refine State.modScrRgn_keeps (hq := ?_) ..
  exact hq
  split
  exact hq
  dsimp -zeta only
  refine State.wr_keeps (hq := ?_) ..
  refine State.modNet_keeps (hq := ?_) ..
  exact hq
  dsimp -zeta only
  refine State.wr_keeps (hq := ?_) ..
  exact hq
  dsimp -zeta only
  refine State.wr_keeps (hq := ?_) ..
  exact hq

theorem State.readJournal_keeps {qq : List Instr} {mm : Option Memory} {cc : Option Chip} (s : State) (a : FlashSector) (b : FlashSector) (hq : Keeps ⟨qq, mm, cc⟩ s) :
    Keeps ⟨qq, mm, cc⟩ (State.readJournal s a b) := by
  unfold State.readJournal
  extract_lets x1
  have h2 : Keeps ⟨qq, mm, cc⟩ x1 := ?_
  split
  extract_lets x3 x4 x5
  split
  extract_lets x6 x7
  have h8 : Keeps ⟨qq, mm, cc⟩ x7 := ?_
  refine Keeps.ite (fun _ => ?_) (fun _ => ?_)
  exact h8
  refine State.logJournal_keeps (hq := ?_) ..
  exact h8
  dsimp -zeta only [x7]
  have h9 : Keeps ⟨qq, mm, cc⟩ x6 := ?_
  refine State.modJrn_keeps (hq := ?_) ..
  exact h9
  dsimp -zeta only [x6]
  refine State.wr_keeps (hq := ?_) ..
  refine State.wr_keeps (hq := ?_) ..
  refine State.wr_keeps (hq := ?_) ..
  refine Keeps.snd_eq (by assumption) ?_
  refine Keeps.foldl_snd (fun t10 y11 h12 => ?_) ?_
  split
  dsimp -zeta only
  refine Keeps.snd_eq (by assumption) ?_
  refine State.applyRecord_keeps (hq := ?_) ..
  exact h12
  exact h2
  dsimp -zeta only [x1]
  refine State.clearRepairs_keeps (hq := ?_) ..
  exact hq

theorem State.sectorFails_keeps {qq : List Instr} {mm : Option Memory} {cc : Option Chip} (s : State) (other : Bool) (hq : Keeps ⟨qq, mm, cc⟩ s) :
    Keeps ⟨qq, mm, cc⟩ (State.sectorFails s other) := by
  unfold State.sectorFails
  extract_lets x1 x2
  have h3 : Keeps ⟨qq, mm, cc⟩ x2 := ?_
  refine State.logJournal_keeps (hq := ?_) ..
  exact h3
  dsimp -zeta only [x2]
  have h4 : Keeps ⟨qq, mm, cc⟩ x1 := ?_
  refine State.modJrn_keeps (hq := ?_) ..
  exact h4
  dsimp -zeta only [x1]
  refine State.raise_keeps (hq := ?_) ..
  refine State.bump_keeps (hq := ?_) ..
  exact hq

theorem State.compact_keeps {qq : List Instr} {mm : Option Memory} {cc : Option Chip} (s : State) (hq : Keeps ⟨qq, mm, cc⟩ s) :
    Keeps ⟨qq, mm, cc⟩ (State.compact s) := by
  unfold State.compact
  extract_lets x1 x2 x3
  have h4 : Keeps ⟨qq, mm, cc⟩ x3 := ?_
  refine State.logJournal_keeps (hq := ?_) ..
  exact h4
  dsimp -zeta only [x3]
  have h5 : Keeps ⟨qq, mm, cc⟩ x2 := ?_
  refine State.wr_keeps (hq := ?_) ..
  refine State.wr_keeps (hq := ?_) ..
  exact h5
  dsimp -zeta only [x2]
  refine State.modJrn_keeps (hq := ?_) ..
  exact hq

theorem State.writeRecord_keeps {qq : List Instr} {mm : Option Memory} {cc : Option Chip} (s : State) (ok : Bool) (hq : Keeps ⟨qq, mm, cc⟩ s) :
    Keeps ⟨qq, mm, cc⟩ (State.writeRecord s ok) := by
  unfold State.writeRecord
  split
  exact hq
  refine Keeps.ite (fun _ => ?_) (fun _ => ?_)
  exact hq
  refine Keeps.ite (fun _ => ?_) (fun _ => ?_)
  extract_lets x1 x2 x3
  have h4 : Keeps ⟨qq, mm, cc⟩ x3 := ?_
  refine Keeps.ite (fun _ => ?_) (fun _ => ?_)
  refine State.startWritten_keeps (hq := ?_) ..
  exact h4
  exact h4
  dsimp -zeta only [x3]
  have h5 : Keeps ⟨qq, mm, cc⟩ x2 := ?_
  refine State.count_keeps (hq := ?_) ..
  exact h5
  dsimp -zeta only [x2]
  have h6 : Keeps ⟨qq, mm, cc⟩ x1 := ?_
  refine State.modJrn_keeps (hq := ?_) ..
  exact h6
  dsimp -zeta only [x1]
  refine Keeps.ite (fun _ => ?_) (fun _ => ?_)
  exact hq
  refine State.wr_keeps (hq := ?_) ..
  refine State.wr_keeps (hq := ?_) ..
  exact hq
  extract_lets x7
  have h8 : Keeps ⟨qq, mm, cc⟩ x7 := ?_
  refine Keeps.ite (fun _ => ?_) (fun _ => ?_)
  exact h8
  refine State.compact_keeps (hq := ?_) ..
  exact h8
  dsimp -zeta only [x7]
  refine State.sectorFails_keeps (hq := ?_) ..
  exact hq

theorem State.compactNow_keeps {qq : List Instr} {mm : Option Memory} {cc : Option Chip} (s : State) (ok : Bool) (hq : Keeps ⟨qq, mm, cc⟩ s) :
    Keeps ⟨qq, mm, cc⟩ (State.compactNow s ok) := by
  unfold State.compactNow
  refine Keeps.ite (fun _ => ?_) (fun _ => ?_)
  exact hq
  refine Keeps.ite (fun _ => ?_) (fun _ => ?_)
  refine State.compact_keeps (hq := ?_) ..
  exact hq
  refine State.sectorFails_keeps (hq := ?_) ..
  exact hq

theorem State.writeGroup_keeps {qq : List Instr} {mm : Option Memory} {cc : Option Chip} (s : State) (every : Bool) (n : Nat) (k : Nat) (g : Nat) (ws : List Line) (hq : Keeps ⟨qq, mm, cc⟩ s) :
    Keeps ⟨qq, mm, cc⟩ (State.writeGroup s every n k g ws).2 := by
  unfold State.writeGroup
  refine Keeps.foldl_snd (fun t1 y2 h3 => ?_) ?_
  split
  exact h3
  extract_lets x4 x5 x6
  have h7 : Keeps ⟨qq, mm, cc⟩ x6 := ?_
  exact h7
  dsimp -zeta only [x6]
  refine State.writeFrame_keeps (hq := ?_) ..
  exact h3
  exact hq

theorem State.loadGroup_keeps {qq : List Instr} {mm : Option Memory} {cc : Option Chip} (s : State) (pos : Nat) (entry : Nat) (stored : List Byte) (plain : Option (List Byte)) (hq : Keeps ⟨qq, mm, cc⟩ s) :
    Keeps ⟨qq, mm, cc⟩ (State.loadGroup s pos entry stored plain).2 := by
  unfold State.loadGroup
  extract_lets x1 x2 x3 x4 x5
  split
  split
  exact hq
  split
  exact hq
  split
  exact hq
  split
  exact hq
  clear_value x5
  split
  exact hq
  split
  exact hq
  split
  exact hq
  extract_lets x6
  have h7 : Keeps ⟨qq, mm, cc⟩ x6 := ?_
  refine State.writeGroup_keeps (hq := ?_) ..
  exact h7
  dsimp -zeta only [x6]
  refine Keeps.ite (fun _ => ?_) (fun _ => ?_)
  refine State.modCtx_keeps (hq := ?_) ..
  exact hq
  exact hq

theorem State.recordField_keeps {qq : List Instr} {mm : Option Memory} {cc : Option Chip} (s : State) (a : Nat) (new : Nat) (f : FieldDesc) (hq : Keeps ⟨qq, mm, cc⟩ s) :
    Keeps ⟨qq, mm, cc⟩ (State.recordField s a new f) := by
  unfold State.recordField
  refine Keeps.ite (fun _ => ?_) (fun _ => ?_)
  exact hq
  extract_lets x1
  refine Keeps.mk_regs ?_ ?_
  exact hq
  exact Tbl.wf_put _ _ _ _ hq.2.1.2

theorem State.recordOwn_keeps {qq : List Instr} {mm : Option Memory} {cc : Option Chip} (s : State) (a : Nat) (v : Nat) (hq : Keeps ⟨qq, mm, cc⟩ s) :
    KeepsP ⟨qq, mm, cc⟩ (State.recordOwn s a v) := by
  unfold State.recordOwn
  split
  extract_lets x1
  split
  refine State.ownRegionWrite_keeps (hq := ?_) ..
  exact hq
  exact KeepsP.none
  split
  refine KeepsP.some ?_
  refine State.writeTail_keeps (hq := ?_) ..
  exact hq
  split
  refine KeepsP.some ?_
  refine State.writeXmcCtrl_keeps (hq := ?_) ..
  exact hq
  split
  refine KeepsP.some ?_
  refine State.writeTdata_keeps (hq := ?_) ..
  exact hq
  split
  refine KeepsP.some ?_
  refine State.writeRdata_keeps (hq := ?_) ..
  exact hq
  exact KeepsP.none

theorem State.registerRecord_keeps {qq : List Instr} {mm : Option Memory} {cc : Option Chip} (s : State) (r : Line) (hq : Keeps ⟨qq, mm, cc⟩ s) :
    Keeps ⟨qq, mm, cc⟩ (State.registerRecord s r).2 := by
  unfold State.registerRecord
  extract_lets x1 x2 x3 x4
  split
  exact hq
  extract_lets x5 x6 x7
  split
  exact hq
  split
  dsimp -zeta only
  refine KeepsP.of (by assumption) ?_
  refine State.recordOwn_keeps (hq := ?_) ..
  exact hq
  dsimp -zeta only
  refine Keeps.foldl (fun t8 y9 h10 => ?_) ?_
  refine State.recordField_keeps (hq := ?_) ..
  exact h10
  exact hq

theorem State.registerRecords_keeps {qq : List Instr} {mm : Option Memory} {cc : Option Chip} (s : State) (l : List Line) (hq : Keeps ⟨qq, mm, cc⟩ s) :
    Keeps ⟨qq, mm, cc⟩ (s.registerRecords l).2 := by
  induction l generalizing s with
  | nil => exact hq
  | cons r l ih =>
    unfold State.registerRecords
    have h := State.registerRecord_keeps s r hq
    split
    · rename_i e
      rw [e] at h
      exact ih _ h
    · exact h

theorem State.loadEngine_keeps {qq : List Instr} {mm : Option Memory} {cc : Option Chip} (s : State) (n : Nat) (e : Nat) (m : Nat) (q : Nat) (d : Line) (hq : Keeps ⟨qq, mm, cc⟩ s) :
    Keeps ⟨qq, mm, cc⟩ (State.loadEngine s n e m q d) := by
  unfold State.loadEngine
  extract_lets x1 x2 x3
  have h4 : Keeps ⟨qq, mm, cc⟩ x1 := ?_
  refine Keeps.ite (fun _ => ?_) (fun _ => ?_)
  refine State.evictAt_keeps (hq := ?_) ..
  refine State.evictAt_keeps (hq := ?_) ..
  exact h4
  refine State.modLdr_keeps (hq := ?_) ..
  exact h4
  dsimp -zeta only [x1]
  refine State.modEcc_keeps (hq := ?_) ..
  refine State.modEngAt_keeps (hq := ?_) ..
  exact hq

theorem State.loadNi_keeps {qq : List Instr} {mm : Option Memory} {cc : Option Chip} (s : State) (i : Nat) (t : Nat) (v : Nat) (hq : Keeps ⟨qq, mm, cc⟩ s) :
    Keeps ⟨qq, mm, cc⟩ (State.loadNi s i t v) := by
  unfold State.loadNi
  extract_lets x1 x2
  refine Keeps.ite (fun _ => ?_) (fun _ => ?_)
  refine Keeps.ite (fun _ => ?_) (fun _ => ?_)
  refine State.raise_keeps (hq := ?_) ..
  exact hq
  refine State.modNi_keeps (hq := ?_) ..
  exact hq
  refine Keeps.ite (fun _ => ?_) (fun _ => ?_)
  refine State.modNi_keeps (hq := ?_) ..
  exact hq
  refine State.modNi_keeps (hq := ?_) ..
  exact hq

theorem State.loadPuse_keeps {qq : List Instr} {mm : Option Memory} {cc : Option Chip} (s : State) (n : Nat) (k : Nat) (v : Nat) (hq : Keeps ⟨qq, mm, cc⟩ s) :
    Keeps ⟨qq, mm, cc⟩ (State.loadPuse s n k v) := by
  unfold State.loadPuse
  extract_lets x1 x2
  dsimp -zeta only [x2]
  split
  refine Keeps.foldl (fun t3 y4 h5 => ?_) ?_
  refine State.recordField_keeps (hq := ?_) ..
  exact h5
  split
  refine Keeps.foldl (fun t6 y7 h8 => ?_) ?_
  refine State.recordField_keeps (hq := ?_) ..
  exact h8
  exact hq
  exact hq
  split
  refine Keeps.foldl (fun t9 y10 h11 => ?_) ?_
  refine State.recordField_keeps (hq := ?_) ..
  exact h11
  exact hq
  exact hq

theorem State.loadDesc_keeps {qq : List Instr} {mm : Option Memory} {cc : Option Chip} (s : State) (n : Nat) (k : Nat) (d : BitVec 512) (hq : Keeps ⟨qq, mm, cc⟩ s) :
    Keeps ⟨qq, mm, cc⟩ (State.loadDesc s n k d) := by
  unfold State.loadDesc
  refine State.modSlot_keeps (hq := ?_) ..
  refine State.modSch_keeps (hq := ?_) ..
  exact hq

theorem State.loadWord_keeps {qq : List Instr} {cc : Option Chip} (s : State) (h : Nat) (i : Nat) (ws : List Line) (d : Line) (hq : Keeps ⟨qq, none, cc⟩ s) :
    Keeps ⟨qq, none, cc⟩ (State.loadWord s h i ws d) := by
  unfold State.loadWord
  extract_lets x1 x2 x3 x4 x5 x6 x7
  split
  refine State.loadEngine_keeps (hq := ?_) ..
  exact hq
  refine State.loadEngine_keeps (hq := ?_) ..
  exact hq
  refine State.loadEngine_keeps (hq := ?_) ..
  exact hq
  refine Keeps.ite (fun _ => ?_) (fun _ => ?_)
  exact hq
  refine State.bankWrite_keeps (hq := ?_) ..
  exact hq
  refine Keeps.mk_other ?_
  exact hq
  refine Keeps.mk_other ?_
  exact hq
  refine Keeps.mk_other ?_
  exact hq
  refine Keeps.ite (fun _ => ?_) (fun _ => ?_)
  exact hq
  refine State.loadDesc_keeps (hq := ?_) ..
  exact hq
  refine State.modSch_keeps (hq := ?_) ..
  exact hq
  dsimp -zeta only [x3]
  refine Keeps.foldl (fun t8 y9 h10 => ?_) ?_
  refine State.loadNi_keeps (hq := ?_) ..
  exact h10
  exact hq
  dsimp -zeta only [x3]
  refine Keeps.foldl (fun t11 y12 h13 => ?_) ?_
  refine State.modKrl_keeps (hq := ?_) ..
  exact h13
  exact hq
  refine State.loadPuse_keeps (hq := ?_) ..
  exact hq

theorem State.loadRecord_keeps {qq : List Instr} {cc : Option Chip} (s : State) (h : Nat) (ws : List Line) (hq : Keeps ⟨qq, none, cc⟩ s) :
    Keeps ⟨qq, none, cc⟩ (State.loadRecord s h ws) := by
  unfold State.loadRecord
  refine Keeps.ite (fun _ => ?_) (fun _ => ?_)
  exact hq
  refine Keeps.foldl (fun t1 y2 h3 => ?_) ?_
  refine State.loadWord_keeps (hq := ?_) ..
  exact h3
  exact hq

theorem State.loadRecords_keeps {qq : List Instr} {cc : Option Chip} (s : State) (f : Nat) (ws : List Line) (hq : Keeps ⟨qq, none, cc⟩ s) :
    Keeps ⟨qq, none, cc⟩ (s.loadRecords f ws).2 := by
  induction f generalizing s ws with
  | zero => cases ws <;> exact hq
  | succ f ih =>
    cases ws with
    | nil => exact hq
    | cons r ws =>
      unfold State.loadRecords
      extract_lets h
      split
      · exact hq
      · split
        · exact hq
        · split
          · exact hq
          · exact ih _ _ (State.loadRecord_keeps (hq := hq) ..)

theorem State.loadEvents_keeps {qq : List Instr} {mm : Option Memory} {cc : Option Chip} (s : State) (ws : List Line) (hq : Keeps ⟨qq, mm, cc⟩ s) :
    Keeps ⟨qq, mm, cc⟩ (State.loadEvents s ws).2 := by
  unfold State.loadEvents
  extract_lets x1 x2 x3 x4 x5 x6
  have h7 : Keeps ⟨qq, mm, cc⟩ x5 := ?_
  split
  exact hq
  dsimp -zeta only
  refine Keeps.mk_other ?_
  exact h7
  dsimp -zeta only [x5]
  refine State.modEvt_keeps (hq := ?_) ..
  exact hq

theorem State.loadKeys_keeps {qq : List Instr} {mm : Option Memory} {cc : Option Chip} (s : State) (wraps : List Bool) (l : List Line) (hq : Keeps ⟨qq, mm, cc⟩ s) :
    Keeps ⟨qq, mm, cc⟩ (s.loadKeys wraps l).2 := by
  induction h : l.length using Nat.strongRecOn generalizing s wraps l with
  | ind k ih =>
    match l with
    | [] => exact hq
    | [_] => exact hq
    | [_, _] => exact hq
    | w :: a :: b :: rest =>
      unfold State.loadKeys
      extract_lets v slot
      split
      · exact hq
      · split
        · exact hq
        · refine ih rest.length (by subst h; simp only [List.length_cons]; omega) _ _ _ (State.newKey_keeps (hq := hq) ..) rfl

theorem State.loadPartDir_keeps {qq : List Instr} {mm : Option Memory} {cc : Option Chip} (s : State) (stored : List Byte) (hq : Keeps ⟨qq, mm, cc⟩ s) :
    Keeps ⟨qq, mm, cc⟩ (State.loadPartDir s stored) := by
  unfold State.loadPartDir
  extract_lets x1
  refine State.modLdr_keeps (hq := ?_) ..
  exact hq

theorem State.loadSection_keeps {qq : List Instr} {cc : Option Chip} (s : State) (num : Nat) (stored : List Byte) (plain : Option (List Byte)) (wraps : List Bool) (hq : Keeps ⟨qq, none, cc⟩ s) :
    Keeps ⟨qq, none, cc⟩ (State.loadSection s num stored plain wraps).2 := by
  unfold State.loadSection
  split
  exact hq
  exact hq
  exact hq
  dsimp -zeta only
  refine State.loadPartDir_keeps (hq := ?_) ..
  exact hq
  split
  exact hq
  split
  refine State.registerRecords_keeps (hq := ?_) ..
  exact hq
  refine State.registerRecords_keeps (hq := ?_) ..
  exact hq
  refine State.loadEvents_keeps (hq := ?_) ..
  exact hq
  refine State.loadKeys_keeps (hq := ?_) ..
  exact hq
  refine State.loadRecords_keeps (hq := ?_) ..
  exact hq

theorem State.loadEntry_keeps {qq : List Instr} {mm : Option Memory} {cc : Option Chip} (s : State) (hq : Keeps ⟨qq, mm, cc⟩ s) :
    Keeps ⟨qq, mm, cc⟩ (State.loadEntry s) := by
  unfold State.loadEntry
  extract_lets x1 x2
  have h3 : Keeps ⟨qq, mm, cc⟩ x2 := ?_
  refine State.wr_keeps (hq := ?_) ..
  exact h3
  dsimp -zeta only [x2]
  have h4 : Keeps ⟨qq, mm, cc⟩ x1 := ?_
  refine State.modJrn_keeps (hq := ?_) ..
  refine State.modMbx_keeps (hq := ?_) ..
  exact h4
  dsimp -zeta only [x1]
  refine State.logEv_keeps (hq := ?_) ..
  exact hq

theorem execLoadEntry_keeps {qq : List Instr} {mm : Option Memory} {cc : Option Chip} (s : State) (hq : Keeps ⟨qq, mm, cc⟩ s) :
    KeepsO ⟨qq, mm, cc⟩ (execLoadEntry s) := by
  unfold execLoadEntry
  refine KeepsO.next ?_
  refine Keeps.ite (fun _ => ?_) (fun _ => ?_)
  refine State.loadEntry_keeps (hq := ?_) ..
  exact hq
  exact hq

theorem State.bootDefaults_keeps {qq : List Instr} {mm : Option Memory} {cc : Option Chip} (s : State) (hq : Keeps ⟨qq, mm, cc⟩ s) :
    Keeps ⟨qq, mm, cc⟩ (State.bootDefaults s) := by
  unfold State.bootDefaults
  extract_lets x1
  have h2 : Keeps ⟨qq, mm, cc⟩ x1 := ?_
  refine State.wr_keeps (hq := ?_) ..
  refine State.modLdr_keeps (hq := ?_) ..
  exact h2
  dsimp -zeta only [x1]
  refine State.logEv_keeps (hq := ?_) ..
  refine State.raise_keeps (hq := ?_) ..
  exact hq

theorem State.bootTaken_keeps {qq : List Instr} {mm : Option Memory} {cc : Option Chip} (s : State) (b : Nat) (hq : Keeps ⟨qq, mm, cc⟩ s) :
    Keeps ⟨qq, mm, cc⟩ (State.bootTaken s b) := by
  unfold State.bootTaken
  extract_lets x1 x2
  have h3 : Keeps ⟨qq, mm, cc⟩ x2 := ?_
  refine State.wr_keeps (hq := ?_) ..
  refine State.modLdr_keeps (hq := ?_) ..
  exact h3
  dsimp -zeta only [x2]
  refine State.wr_keeps (hq := ?_) ..
  exact hq

theorem execBootRecordRead_keeps {qq : List Instr} {mm : Option Memory} {cc : Option Chip} (a : BitVec 1024) (b : BitVec 1024) (s : State) (hq : Keeps ⟨qq, mm, cc⟩ s) :
    KeepsO ⟨qq, mm, cc⟩ (execBootRecordRead a b s) := by
  unfold execBootRecordRead
  refine KeepsO.next ?_
  refine Keeps.ite (fun _ => ?_) (fun _ => ?_)
  exact hq
  split
  refine State.bootTaken_keeps (hq := ?_) ..
  exact hq
  refine State.bootDefaults_keeps (hq := ?_) ..
  exact hq

theorem State.attemptCleared_keeps {qq : List Instr} {mm : Option Memory} {cc : Option Chip} (s : State) (hq : Keeps ⟨qq, mm, cc⟩ s) : Keeps ⟨qq, mm, cc⟩ s.attemptCleared := by
  unfold State.attemptCleared
  extract_lets x1 x2 x3 x4 x5 x6 x7
  have h1 : Keeps ⟨qq, mm, cc⟩ x1 := State.zeroise_keeps (hq := hq) ..
  clear_value x1
  have h2 : Keeps ⟨qq, mm, cc⟩ x2 := Keeps.mk_regs h1 (Tbl.wf_foldl_put _ _ _ _ _ h1.2.1.2)
  clear_value x2
  have h3 : Keeps ⟨qq, mm, cc⟩ x3 := State.modXmc_keeps (hq := State.modEvt_keeps (hq := h2) ..) ..
  clear_value x3
  have h5 : Keeps ⟨qq, mm, cc⟩ x5 := Keeps.mk_other h3
  clear_value x5
  have h6 : Keeps ⟨qq, mm, cc⟩ x6 := State.modLdr_keeps (hq := State.modKrl_keeps (hq := h5) ..) ..
  clear_value x6
  have h7 : Keeps ⟨qq, mm, cc⟩ x7 := Keeps.foldl (fun _ _ h => State.modNi_keeps (hq := h) ..) h6
  exact Keeps.foldl (fun _ _ h => State.modSch_keeps (hq := h) ..) h7

theorem State.attemptRecord_keeps {qq : List Instr} {mm : Option Memory} {cc : Option Chip} (s : State) (k : Nat) (code : Nat) (addr : Nat) (hq : Keeps ⟨qq, mm, cc⟩ s) :
    Keeps ⟨qq, mm, cc⟩ (State.attemptRecord s k code addr) := by
  unfold State.attemptRecord
  extract_lets x1
  have h2 : Keeps ⟨qq, mm, cc⟩ x1 := ?_
  refine State.attemptCleared_keeps (hq := ?_) ..
  refine State.logEv_keeps (hq := ?_) ..
  exact h2
  dsimp -zeta only [x1]
  refine State.wr_keeps (hq := ?_) ..
  exact hq

theorem State.goldenFailed_keeps {qq : List Instr} {mm : Option Memory} {cc : Option Chip} (s : State) (hq : Keeps ⟨qq, mm, cc⟩ s) :
    Keeps ⟨qq, mm, cc⟩ (State.goldenFailed s) := by
  unfold State.goldenFailed
  refine State.wr_keeps (hq := ?_) ..
  refine State.modLdr_keeps (hq := ?_) ..
  exact hq

theorem State.failAttempt_keeps {qq : List Instr} (s : State) (code : Nat) (addr : Nat) (hq : Keeps ⟨qq, none, none⟩ s) :
    Keeps ⟨qq, none, none⟩ (State.failAttempt s code addr) := by
  unfold State.failAttempt
  extract_lets x1 x2 x3
  have h4 : Keeps ⟨qq, none, none⟩ x2 := ?_
  have h5 : Keeps ⟨qq, none, none⟩ x3 := ?_
  clear_value x1
  split
  refine Keeps.ite (fun _ => ?_) (fun _ => ?_)
  refine State.goldenFailed_keeps (hq := ?_) ..
  refine State.attemptRecord_keeps (hq := ?_) ..
  exact h5
  exact h5
  refine State.goldenFailed_keeps (hq := ?_) ..
  exact h4
  refine State.toHalt_keeps (hq := ?_) ..
  exact h4
  dsimp -zeta only [x3]
  refine State.wr_keeps (hq := ?_) ..
  refine State.wr_keeps (hq := ?_) ..
  exact h4
  dsimp -zeta only [x2]
  refine State.attemptRecord_keeps (hq := ?_) ..
  exact hq

theorem execPrimaryRetry_keeps {qq : List Instr} {mm : Option Memory} {cc : Option Chip} (s : State) (hq : Keeps ⟨qq, mm, cc⟩ s) :
    KeepsO ⟨qq, mm, cc⟩ (execPrimaryRetry s) := by
  unfold execPrimaryRetry
  refine KeepsO.next ?_
  refine Keeps.ite (fun _ => ?_) (fun _ => ?_)
  refine State.wr_keeps (hq := ?_) ..
  refine State.wr_keeps (hq := ?_) ..
  refine State.modLdr_keeps (hq := ?_) ..
  exact hq
  exact hq

theorem State.partHeader_keeps {qq : List Instr} {cc : Option Chip} (s : State) (p : PartRun) (h : Nat) (unwrap : Bool) (hq : Keeps ⟨qq, none, cc⟩ s) :
    Keeps ⟨qq, none, cc⟩ (State.partHeader s p h unwrap) := by
  unfold State.partHeader
  extract_lets x1 x2
  refine Keeps.ite (fun _ => ?_) (fun _ => ?_)
  refine State.failPartial_keeps (hq := ?_) ..
  exact hq
  refine Keeps.ite (fun _ => ?_) (fun _ => ?_)
  refine State.failPartial_keeps (hq := ?_) ..
  exact hq
  refine State.modLdr_keeps (hq := ?_) ..
  exact hq

theorem execImageHeaderRead_keeps {qq : List Instr} (h : BitVec 2048) (unwrap : Bool) (s : State) (hq : Keeps ⟨qq, none, none⟩ s) :
    KeepsO ⟨qq, none, none⟩ (execImageHeaderRead h unwrap s) := by
  unfold execImageHeaderRead
  refine KeepsO.next ?_
  refine Keeps.ite (fun _ => ?_) (fun _ => ?_)
  refine Keeps.ite (fun _ => ?_) (fun _ => ?_)
  exact hq
  extract_lets x1
  split
  refine State.wr_keeps (hq := ?_) ..
  refine State.modLdr_keeps (hq := ?_) ..
  exact hq
  refine State.failAttempt_keeps (hq := ?_) ..
  exact hq
  split
  refine Keeps.ite (fun _ => ?_) (fun _ => ?_)
  exact hq
  refine State.partHeader_keeps (hq := ?_) ..
  exact hq
  exact hq

theorem execJournalRead_keeps {qq : List Instr} {mm : Option Memory} {cc : Option Chip} (a : FlashSector) (b : FlashSector) (s : State) (hq : Keeps ⟨qq, mm, cc⟩ s) :
    KeepsO ⟨qq, mm, cc⟩ (execJournalRead a b s) := by
  unfold execJournalRead
  refine KeepsO.next ?_
  refine Keeps.ite (fun _ => ?_) (fun _ => ?_)
  refine State.modLdr_keeps (hq := ?_) ..
  refine State.readJournal_keeps (hq := ?_) ..
  exact hq
  exact hq

theorem State.loadRegion_keeps {qq : List Instr} {cc : Option Chip} (s : State) (n : Nat) (hq : Keeps ⟨qq, none, cc⟩ s) :
    Keeps ⟨qq, none, cc⟩ (State.loadRegion s n) := by
  unfold State.loadRegion
  extract_lets x1 x2 x3 x4 x5
  have h6 : Keeps ⟨qq, none, cc⟩ x4 := ?_
  refine State.modRegion_keeps (hq := ?_) ..
  exact h6
  dsimp -zeta only [x4]
  have h7 : Keeps ⟨qq, none, cc⟩ x3 := ?_
  refine Keeps.foldl (fun t8 y9 h10 => ?_) ?_
  refine State.wr_keeps (hq := ?_) ..
  exact h10
  exact h7
  dsimp -zeta only [x3]
  have h11 : Keeps ⟨qq, none, cc⟩ x2 := ?_
  refine State.wr_keeps (hq := ?_) ..
  refine State.wr_keeps (hq := ?_) ..
  refine State.wr_keeps (hq := ?_) ..
  exact h11
  dsimp -zeta only [x2]
  have h12 : Keeps ⟨qq, none, cc⟩ x1 := ?_
  refine State.zeroRegion_keeps (hq := ?_) ..
  refine State.schDark_keeps (hq := ?_) ..
  refine State.plcDark_keeps (hq := ?_) ..
  exact h12
  dsimp -zeta only [x1]
  refine Keeps.ite (fun _ => ?_) (fun _ => ?_)
  exact hq
  refine State.wr_keeps (hq := ?_) ..
  refine State.wr_keeps (hq := ?_) ..
  refine State.toLoading_keeps (hq := ?_) ..
  exact hq

theorem State.emptyRegion_keeps {qq : List Instr} {mm : Option Memory} {cc : Option Chip} (s : State) (n : Nat) (hq : Keeps ⟨qq, mm, cc⟩ s) :
    Keeps ⟨qq, mm, cc⟩ (State.emptyRegion s n) := by
  unfold State.emptyRegion
  refine State.modRegion_keeps (hq := ?_) ..
  exact hq

theorem execLoadZeroingDone_keeps {qq : List Instr} {cc : Option Chip} (s : State) (hq : Keeps ⟨qq, none, cc⟩ s) :
    KeepsO ⟨qq, none, cc⟩ (execLoadZeroingDone s) := by
  unfold execLoadZeroingDone
  refine KeepsO.next ?_
  refine Keeps.ite (fun _ => ?_) (fun _ => ?_)
  refine State.wr_keeps (hq := ?_) ..
  refine Keeps.foldl (fun t1 y2 h3 => ?_) ?_
  refine Keeps.ite (fun _ => ?_) (fun _ => ?_)
  refine State.loadRegion_keeps (hq := ?_) ..
  exact h3
  refine Keeps.ite (fun _ => ?_) (fun _ => ?_)
  refine State.emptyRegion_keeps (hq := ?_) ..
  exact h3
  exact h3
  exact hq
  exact hq

theorem State.itemDone_keeps {qq : List Instr} (s : State) (at_ : Nat) (r : Nat × State) (hq : Keeps ⟨qq, none, none⟩ s)
    (hr : Keeps ⟨qq, none, none⟩ r.2) : Keeps ⟨qq, none, none⟩ (s.itemDone at_ r) :=
  Keeps.ite (fun _ => hr) fun _ => Keeps.ite (fun _ => State.failAttempt_keeps (hq := hr) ..) fun _ =>
    State.failPartial_keeps (hq := hr) ..

theorem execImageItem_keeps {qq : List Instr} (it : ImageItem) (s : State) (hq : Keeps ⟨qq, none, none⟩ s) :
    KeepsO ⟨qq, none, none⟩ (execImageItem it s) := by
  unfold execImageItem
  refine KeepsO.ite (fun _ => ?_) (fun _ => ?_)
  exact KeepsO.refused
  refine KeepsO.ite (fun _ => ?_) (fun _ => ?_)
  refine KeepsO.next ?_
  exact hq
  split
  refine KeepsO.ite (fun _ => ?_) (fun _ => ?_)
  refine KeepsO.next ?_
  exact hq
  refine KeepsO.next ?_
  refine State.itemDone_keeps (hq := ?_) (hr := ?_) ..
  exact hq
  refine State.loadGroup_keeps (hq := ?_) ..
  exact hq
  split
  refine KeepsO.ite (fun _ => ?_) (fun _ => ?_)
  refine KeepsO.next ?_
  exact hq
  refine KeepsO.next ?_
  refine State.itemDone_keeps (hq := ?_) (hr := ?_) ..
  exact hq
  refine State.loadSection_keeps (hq := ?_) ..
  exact hq

theorem State.enterStart_keeps {qq : List Instr} (s : State) (hq : Keeps ⟨qq, none, none⟩ s) :
    Keeps ⟨qq, none, none⟩ (State.enterStart s) := by
  unfold State.enterStart
  extract_lets x1 x2 x3 x4 x5 x6 x7 x8 x9 x10
  have h11 : Keeps ⟨qq, none, none⟩ x10 := ?_
  refine Keeps.ite (fun _ => ?_) (fun _ => ?_)
  refine State.clocksStart_keeps (hq := ?_) ..
  exact h11
  exact h11
  dsimp -zeta only [x10]
  have h12 : Keeps ⟨qq, none, none⟩ x9 := ?_
  refine Keeps.foldl (fun t13 y14 h15 => ?_) ?_
  refine State.wr_keeps (hq := ?_) ..
  exact h15
  exact h12
  dsimp -zeta only [x9]
  have h16 : Keeps ⟨qq, none, none⟩ x8 := ?_
  dsimp -zeta only [State.modChip]
  refine Keeps.mk_chip ?_ ?_ ?_
  refine State.logChip_keeps (hq := ?_) ..
  exact h16
  exact fun hf => nomatch hf
  exact fun hf => nomatch hf
  dsimp -zeta only [x8]
  have h17 : Keeps ⟨qq, none, none⟩ x7 := ?_
  refine Keeps.foldl (fun t18 y19 h20 => ?_) ?_
  refine Keeps.ite (fun _ => ?_) (fun _ => ?_)
  exact h20
  refine State.modFab_keeps (hq := ?_) ..
  refine State.plcAssign_keeps (hq := ?_) ..
  refine State.modCtx_keeps (hq := ?_) ..
  exact h20
  exact h17
  dsimp -zeta only [x7]
  have h21 : Keeps ⟨qq, none, none⟩ x6 := ?_
  refine State.wr_keeps (hq := ?_) ..
  refine State.wr_keeps (hq := ?_) ..
  exact h21
  dsimp -zeta only [x6]
  have h22 : Keeps ⟨qq, none, none⟩ x5 := ?_
  refine State.wr_keeps (hq := ?_) ..
  refine State.wr_keeps (hq := ?_) ..
  refine State.wr_keeps (hq := ?_) ..
  exact h22
  dsimp -zeta only [x5]
  have h23 : Keeps ⟨qq, none, none⟩ x4 := ?_
  refine State.wr_keeps (hq := ?_) ..
  refine State.wr_keeps (hq := ?_) ..
  refine State.wr_keeps (hq := ?_) ..
  exact h23
  dsimp -zeta only [x4]
  refine State.logEv_keeps (hq := ?_) ..
  exact hq

theorem execImageLastByte_keeps {qq : List Instr} (crcOk : Bool) (sigOk : Bool) (s : State) (hq : Keeps ⟨qq, none, none⟩ s) :
    KeepsO ⟨qq, none, none⟩ (execImageLastByte crcOk sigOk s) := by
  unfold execImageLastByte
  refine KeepsO.next ?_
  refine Keeps.ite (fun _ => ?_) (fun _ => ?_)
  exact hq
  refine Keeps.ite (fun _ => ?_) (fun _ => ?_)
  refine State.endOfPartial_keeps (hq := ?_) ..
  exact hq
  refine Keeps.ite (fun _ => ?_) (fun _ => ?_)
  refine State.failAttempt_keeps (hq := ?_) ..
  exact hq
  refine Keeps.ite (fun _ => ?_) (fun _ => ?_)
  refine State.failAttempt_keeps (hq := ?_) ..
  exact hq
  refine State.enterStart_keeps (hq := ?_) ..
  exact hq

theorem execFlashFailure_keeps {qq : List Instr} (s : State) (hq : Keeps ⟨qq, none, none⟩ s) :
    KeepsO ⟨qq, none, none⟩ (execFlashFailure s) := by
  unfold execFlashFailure
  refine KeepsO.next ?_
  refine Keeps.ite (fun _ => ?_) (fun _ => ?_)
  refine Keeps.ite (fun _ => ?_) (fun _ => ?_)
  refine State.bootDefaults_keeps (hq := ?_) ..
  exact hq
  refine Keeps.ite (fun _ => ?_) (fun _ => ?_)
  refine State.failAttempt_keeps (hq := ?_) ..
  exact hq
  exact hq
  refine State.failPartial_keeps (hq := ?_) ..
  exact hq

theorem execChannelTrainingDone_keeps {qq : List Instr} {mm : Option Memory} {cc : Option Chip} (c : Fin 8) (ok : Bool) (s : State) (hq : Keeps ⟨qq, mm, cc⟩ s) :
    KeepsO ⟨qq, mm, cc⟩ (execChannelTrainingDone c ok s) := by
  unfold execChannelTrainingDone
  refine KeepsO.next ?_
  refine Keeps.ite (fun _ => ?_) (fun _ => ?_)
  exact hq
  refine Keeps.ite (fun _ => ?_) (fun _ => ?_)
  refine State.wr_keeps (hq := ?_) ..
  exact hq
  refine State.channelDown_keeps (hq := ?_) ..
  exact hq

theorem State.releaseEngines_keeps {qq : List Instr} {mm : Option Memory} (s : State) (hq : Keeps ⟨qq, mm, none⟩ s) : Keeps ⟨qq, mm, none⟩ s.releaseEngines := by
  unfold State.releaseEngines
  extract_lets x1 x2 x3 x4 x5
  have h1 : Keeps ⟨qq, mm, none⟩ x1 :=
    Keeps.foldl (fun _ _ h => Keeps.ite (fun _ => State.plcStart_keeps (hq := h) ..) (fun _ => h)) hq
  clear_value x1
  have h2 : Keeps ⟨qq, mm, none⟩ x2 := State.modXmc_keeps (hq := State.wr_keeps (hq := h1) ..) ..
  clear_value x2
  have h3 : Keeps ⟨qq, mm, none⟩ x3 := Keeps.foldl (fun _ _ h => Keeps.ite (fun _ => h) (fun _ =>
    Keeps.foldl (fun _ _ h => State.modEngAt_keeps (hq := h) ..) h)) h2
  clear_value x3
  have h5 : Keeps ⟨qq, mm, none⟩ x5 := Keeps.mk_other h3
  clear_value x5
  exact Keeps.mk_chip h5 h5.2.2.1 h5.2.2.2

theorem State.enableOutputs_keeps {qq : List Instr} {mm : Option Memory} (s : State) (hq : Keeps ⟨qq, mm, none⟩ s) :
    Keeps ⟨qq, mm, none⟩ (State.enableOutputs s) := by
  unfold State.enableOutputs
  extract_lets x1 x2 x3
  have h4 : Keeps ⟨qq, mm, none⟩ x3 := ?_
  refine State.modScr_keeps (hq := ?_) ..
  exact h4
  dsimp -zeta only [x3]
  have h5 : Keeps ⟨qq, mm, none⟩ x2 := ?_
  refine Keeps.foldl (fun t6 y7 h8 => ?_) ?_
  refine Keeps.ite (fun _ => ?_) (fun _ => ?_)
  refine State.rgnTo_keeps (hq := ?_) ..
  exact h8
  exact h8
  exact h5
  dsimp -zeta only [x2]
  have h9 : Keeps ⟨qq, mm, none⟩ x1 := ?_
  refine State.startKrl_keeps (hq := ?_) ..
  refine State.startLanes_keeps (hq := ?_) ..
  refine State.startMatcher_keeps (hq := ?_) ..
  refine State.startTimebase_keeps (hq := ?_) ..
  exact h9
  dsimp -zeta only [x1]
  dsimp -zeta only [State.modChip]
  refine Keeps.mk_chip ?_ ?_ ?_
  exact hq
  exact fun hf => Or.inl (eq_of_beq hf)
  exact hq.2.2.2

theorem State.enterRun_keeps {qq : List Instr} {mm : Option Memory} (s : State) (hq : Keeps ⟨qq, mm, none⟩ s) :
    Keeps ⟨qq, mm, none⟩ (State.enterRun s) := by
  unfold State.enterRun
  extract_lets x1 x2
  have h3 : Keeps ⟨qq, mm, none⟩ x2 := ?_
  refine Keeps.foldl (fun t4 y5 h6 => ?_) ?_
  refine Keeps.ite (fun _ => ?_) (fun _ => ?_)
  refine State.askDown_keeps (hq := ?_) ..
  exact h6
  exact h6
  exact h3
  dsimp -zeta only [x2]
  have h7 : Keeps ⟨qq, mm, none⟩ x1 := ?_
  refine State.wr_keeps (hq := ?_) ..
  refine State.wr_keeps (hq := ?_) ..
  exact h7
  dsimp -zeta only [x1]
  dsimp -zeta only [State.modChip]
  refine Keeps.mk_chip ?_ ?_ ?_
  refine State.logChip_keeps (hq := ?_) ..
  exact hq
  exact fun _ => Or.inr rfl
  exact fun _ => rfl

theorem execEnginesReleased_keeps {qq : List Instr} {mm : Option Memory} (s : State) (hq : Keeps ⟨qq, mm, none⟩ s) :
    KeepsO ⟨qq, mm, none⟩ (execEnginesReleased s) := by
  unfold execEnginesReleased
  extract_lets x1
  refine KeepsO.next ?_
  refine Keeps.ite (fun _ => ?_) (fun _ => ?_)
  refine State.enterRun_keeps (hq := ?_) ..
  refine State.enableOutputs_keeps (hq := ?_) ..
  refine State.releaseEngines_keeps (hq := ?_) ..
  exact hq
  exact hq

theorem execLoadPartial_keeps {qq : List Instr} {mm : Option Memory} {cc : Option Chip} (s : State) (hq : Keeps ⟨qq, mm, cc⟩ s) :
    KeepsO ⟨qq, mm, cc⟩ (execLoadPartial s) := by
  unfold execLoadPartial
  split
  refine KeepsO.next ?_
  exact hq
  refine KeepsO.next ?_
  refine State.partAction_keeps (hq := ?_) ..
  refine KeepsQ.of (by assumption) ?_
  refine State.takeAction_keeps (hq := ?_) ..
  exact hq

theorem execCfgPload_keeps {qq : List Instr} {mm : Option Memory} {cc : Option Chip} (x : Accessor) (v : Word) (s : State) (hq : Keeps ⟨qq, mm, cc⟩ s) :
    KeepsO ⟨qq, mm, cc⟩ (execCfgPload x v s) := by
  unfold execCfgPload
  refine KeepsO.next ?_
  refine State.writePload_keeps (hq := ?_) ..
  exact hq

theorem execPartialLoadTake_keeps {qq : List Instr} {cc : Option Chip} (s : State) (hq : Keeps ⟨qq, none, cc⟩ s) :
    KeepsO ⟨qq, none, cc⟩ (execPartialLoadTake s) := by
  unfold execPartialLoadTake
  refine KeepsO.next ?_
  refine State.takePartial_keeps (hq := ?_) ..
  exact hq

theorem execPartialLoadComplete_keeps {qq : List Instr} {cc : Option Chip} (crcOk : Bool) (sigOk : Bool) (s : State) (hq : Keeps ⟨qq, none, cc⟩ s) :
    KeepsO ⟨qq, none, cc⟩ (execPartialLoadComplete crcOk sigOk s) := by
  unfold execPartialLoadComplete
  refine KeepsO.next ?_
  refine State.endOfPartial_keeps (hq := ?_) ..
  exact hq

theorem execJournalWrite_keeps {qq : List Instr} {mm : Option Memory} {cc : Option Chip} (ok : Bool) (s : State) (hq : Keeps ⟨qq, mm, cc⟩ s) :
    KeepsO ⟨qq, mm, cc⟩ (execJournalWrite ok s) := by
  unfold execJournalWrite
  refine KeepsO.next ?_
  refine State.writeRecord_keeps (hq := ?_) ..
  exact hq

theorem execJournalCompact_keeps {qq : List Instr} {mm : Option Memory} {cc : Option Chip} (ok : Bool) (s : State) (hq : Keeps ⟨qq, mm, cc⟩ s) :
    KeepsO ⟨qq, mm, cc⟩ (execJournalCompact ok s) := by
  unfold execJournalCompact
  refine KeepsO.next ?_
  refine State.compactNow_keeps (hq := ?_) ..
  exact hq

end

end Sys2Proof.Machine
end

