-- ==== Sys2Proof/Laws/State.lean ====
section
/-! SUPPORT. What each update of the state gives in each field, true by unfolding; and what reading a register field,
a region or a bank word gives after a write. -/

namespace Sys2Proof.Machine

variable (s : State)

@[simp] theorem State.wr_pending (f : Fld) (v : Nat) : (s.wr f v).pending = s.pending := rfl
@[simp] theorem State.wr_cyc (f : Fld) (v : Nat) : (s.wr f v).cyc = s.cyc := rfl
@[simp] theorem State.wr_freeCount (f : Fld) (v : Nat) : (s.wr f v).freeCount = s.freeCount := rfl
@[simp] theorem State.wr_rsp (f : Fld) (v : Nat) : (s.wr f v).rsp = s.rsp := rfl
@[simp] theorem State.wr_regs (f : Fld) (v : Nat) : (s.wr f v).regs = s.regs.put 0 f.key (v % 2 ^ f.width) := rfl
@[simp] theorem State.wr_imgRegs (f : Fld) (v : Nat) : (s.wr f v).imgRegs = s.imgRegs := rfl
@[simp] theorem State.wr_chip (f : Fld) (v : Nat) : (s.wr f v).chip = s.chip := rfl
@[simp] theorem State.wr_log (f : Fld) (v : Nat) : (s.wr f v).log = s.log := rfl
@[simp] theorem State.wr_tb (f : Fld) (v : Nat) : (s.wr f v).tb = s.tb := rfl
@[simp] theorem State.wr_evt (f : Fld) (v : Nat) : (s.wr f v).evt = s.evt := rfl
@[simp] theorem State.wr_regions (f : Fld) (v : Nat) : (s.wr f v).regions = s.regions := rfl
@[simp] theorem State.wr_kettle (f : Fld) (v : Nat) : (s.wr f v).kettle = s.kettle := rfl
@[simp] theorem State.wr_therm (f : Fld) (v : Nat) : (s.wr f v).therm = s.therm := rfl
@[simp] theorem State.wr_clk (f : Fld) (v : Nat) : (s.wr f v).clk = s.clk := rfl
@[simp] theorem State.wr_xmc (f : Fld) (v : Nat) : (s.wr f v).xmc = s.xmc := rfl
@[simp] theorem State.wr_ldr (f : Fld) (v : Nat) : (s.wr f v).ldr = s.ldr := rfl
@[simp] theorem State.wr_bist (f : Fld) (v : Nat) : (s.wr f v).bist = s.bist := rfl
@[simp] theorem State.wr_iob (f : Fld) (v : Nat) : (s.wr f v).iob = s.iob := rfl
@[simp] theorem State.wr_net (f : Fld) (v : Nat) : (s.wr f v).net = s.net := rfl
@[simp] theorem State.wr_sched (f : Fld) (v : Nat) : (s.wr f v).sched = s.sched := rfl
@[simp] theorem State.wr_plc (f : Fld) (v : Nat) : (s.wr f v).plc = s.plc := rfl
@[simp] theorem State.wr_krl (f : Fld) (v : Nat) : (s.wr f v).krl = s.krl := rfl
@[simp] theorem State.wr_scrub (f : Fld) (v : Nat) : (s.wr f v).scrub = s.scrub := rfl
@[simp] theorem State.wr_jrn (f : Fld) (v : Nat) : (s.wr f v).jrn = s.jrn := rfl
@[simp] theorem State.wr_sup (f : Fld) (v : Nat) : (s.wr f v).sup = s.sup := rfl
@[simp] theorem State.wr_lanes (f : Fld) (v : Nat) : (s.wr f v).lanes = s.lanes := rfl
@[simp] theorem State.wr_crcs (f : Fld) (v : Nat) : (s.wr f v).crcs = s.crcs := rfl
@[simp] theorem State.wr_mbx (f : Fld) (v : Nat) : (s.wr f v).mbx = s.mbx := rfl
@[simp] theorem State.wr_bankMem (f : Fld) (v : Nat) : (s.wr f v).bankMem = s.bankMem := rfl
@[simp] theorem State.wr_bankSyn (f : Fld) (v : Nat) : (s.wr f v).bankSyn = s.bankSyn := rfl

@[simp] theorem State.setRegion_pending (n : Nat) (r : Region) : (s.setRegion n r).pending = s.pending := rfl
@[simp] theorem State.setRegion_cyc (n : Nat) (r : Region) : (s.setRegion n r).cyc = s.cyc := rfl
@[simp] theorem State.setRegion_freeCount (n : Nat) (r : Region) : (s.setRegion n r).freeCount = s.freeCount := rfl
@[simp] theorem State.setRegion_rsp (n : Nat) (r : Region) : (s.setRegion n r).rsp = s.rsp := rfl
@[simp] theorem State.setRegion_regs (n : Nat) (r : Region) : (s.setRegion n r).regs = s.regs := rfl
@[simp] theorem State.setRegion_imgRegs (n : Nat) (r : Region) : (s.setRegion n r).imgRegs = s.imgRegs := rfl
@[simp] theorem State.setRegion_chip (n : Nat) (r : Region) : (s.setRegion n r).chip = s.chip := rfl
@[simp] theorem State.setRegion_log (n : Nat) (r : Region) : (s.setRegion n r).log = s.log := rfl
@[simp] theorem State.setRegion_tb (n : Nat) (r : Region) : (s.setRegion n r).tb = s.tb := rfl
@[simp] theorem State.setRegion_evt (n : Nat) (r : Region) : (s.setRegion n r).evt = s.evt := rfl
@[simp] theorem State.setRegion_regions (n : Nat) (r : Region) : (s.setRegion n r).regions = s.regions.set n r := rfl
@[simp] theorem State.setRegion_kettle (n : Nat) (r : Region) : (s.setRegion n r).kettle = s.kettle := rfl
@[simp] theorem State.setRegion_therm (n : Nat) (r : Region) : (s.setRegion n r).therm = s.therm := rfl
@[simp] theorem State.setRegion_clk (n : Nat) (r : Region) : (s.setRegion n r).clk = s.clk := rfl
@[simp] theorem State.setRegion_xmc (n : Nat) (r : Region) : (s.setRegion n r).xmc = s.xmc := rfl
@[simp] theorem State.setRegion_ldr (n : Nat) (r : Region) : (s.setRegion n r).ldr = s.ldr := rfl
@[simp] theorem State.setRegion_bist (n : Nat) (r : Region) : (s.setRegion n r).bist = s.bist := rfl
@[simp] theorem State.setRegion_iob (n : Nat) (r : Region) : (s.setRegion n r).iob = s.iob := rfl
@[simp] theorem State.setRegion_net (n : Nat) (r : Region) : (s.setRegion n r).net = s.net := rfl
@[simp] theorem State.setRegion_sched (n : Nat) (r : Region) : (s.setRegion n r).sched = s.sched := rfl
@[simp] theorem State.setRegion_plc (n : Nat) (r : Region) : (s.setRegion n r).plc = s.plc := rfl
@[simp] theorem State.setRegion_krl (n : Nat) (r : Region) : (s.setRegion n r).krl = s.krl := rfl
@[simp] theorem State.setRegion_scrub (n : Nat) (r : Region) : (s.setRegion n r).scrub = s.scrub := rfl
@[simp] theorem State.setRegion_jrn (n : Nat) (r : Region) : (s.setRegion n r).jrn = s.jrn := rfl
@[simp] theorem State.setRegion_sup (n : Nat) (r : Region) : (s.setRegion n r).sup = s.sup := rfl
@[simp] theorem State.setRegion_lanes (n : Nat) (r : Region) : (s.setRegion n r).lanes = s.lanes := rfl
@[simp] theorem State.setRegion_crcs (n : Nat) (r : Region) : (s.setRegion n r).crcs = s.crcs := rfl
@[simp] theorem State.setRegion_mbx (n : Nat) (r : Region) : (s.setRegion n r).mbx = s.mbx := rfl
@[simp] theorem State.setRegion_bankMem (n : Nat) (r : Region) : (s.setRegion n r).bankMem = s.bankMem := rfl
@[simp] theorem State.setRegion_bankSyn (n : Nat) (r : Region) : (s.setRegion n r).bankSyn = s.bankSyn := rfl

@[simp] theorem State.modChip_pending (f : Chip → Chip) : (s.modChip f).pending = s.pending := rfl
@[simp] theorem State.modChip_cyc (f : Chip → Chip) : (s.modChip f).cyc = s.cyc := rfl
@[simp] theorem State.modChip_freeCount (f : Chip → Chip) : (s.modChip f).freeCount = s.freeCount := rfl
@[simp] theorem State.modChip_rsp (f : Chip → Chip) : (s.modChip f).rsp = s.rsp := rfl
@[simp] theorem State.modChip_regs (f : Chip → Chip) : (s.modChip f).regs = s.regs := rfl
@[simp] theorem State.modChip_imgRegs (f : Chip → Chip) : (s.modChip f).imgRegs = s.imgRegs := rfl
@[simp] theorem State.modChip_chip (f : Chip → Chip) : (s.modChip f).chip = f s.chip := rfl
@[simp] theorem State.modChip_log (f : Chip → Chip) : (s.modChip f).log = s.log := rfl
@[simp] theorem State.modChip_tb (f : Chip → Chip) : (s.modChip f).tb = s.tb := rfl
@[simp] theorem State.modChip_evt (f : Chip → Chip) : (s.modChip f).evt = s.evt := rfl
@[simp] theorem State.modChip_regions (f : Chip → Chip) : (s.modChip f).regions = s.regions := rfl
@[simp] theorem State.modChip_kettle (f : Chip → Chip) : (s.modChip f).kettle = s.kettle := rfl
@[simp] theorem State.modChip_therm (f : Chip → Chip) : (s.modChip f).therm = s.therm := rfl
@[simp] theorem State.modChip_clk (f : Chip → Chip) : (s.modChip f).clk = s.clk := rfl
@[simp] theorem State.modChip_xmc (f : Chip → Chip) : (s.modChip f).xmc = s.xmc := rfl
@[simp] theorem State.modChip_ldr (f : Chip → Chip) : (s.modChip f).ldr = s.ldr := rfl
@[simp] theorem State.modChip_bist (f : Chip → Chip) : (s.modChip f).bist = s.bist := rfl
@[simp] theorem State.modChip_iob (f : Chip → Chip) : (s.modChip f).iob = s.iob := rfl
@[simp] theorem State.modChip_net (f : Chip → Chip) : (s.modChip f).net = s.net := rfl
@[simp] theorem State.modChip_sched (f : Chip → Chip) : (s.modChip f).sched = s.sched := rfl
@[simp] theorem State.modChip_plc (f : Chip → Chip) : (s.modChip f).plc = s.plc := rfl
@[simp] theorem State.modChip_krl (f : Chip → Chip) : (s.modChip f).krl = s.krl := rfl
@[simp] theorem State.modChip_scrub (f : Chip → Chip) : (s.modChip f).scrub = s.scrub := rfl
@[simp] theorem State.modChip_jrn (f : Chip → Chip) : (s.modChip f).jrn = s.jrn := rfl
@[simp] theorem State.modChip_sup (f : Chip → Chip) : (s.modChip f).sup = s.sup := rfl
@[simp] theorem State.modChip_lanes (f : Chip → Chip) : (s.modChip f).lanes = s.lanes := rfl
@[simp] theorem State.modChip_crcs (f : Chip → Chip) : (s.modChip f).crcs = s.crcs := rfl
@[simp] theorem State.modChip_mbx (f : Chip → Chip) : (s.modChip f).mbx = s.mbx := rfl
@[simp] theorem State.modChip_bankMem (f : Chip → Chip) : (s.modChip f).bankMem = s.bankMem := rfl
@[simp] theorem State.modChip_bankSyn (f : Chip → Chip) : (s.modChip f).bankSyn = s.bankSyn := rfl

@[simp] theorem State.modTb_pending (f : Timebase → Timebase) : (s.modTb f).pending = s.pending := rfl
@[simp] theorem State.modTb_cyc (f : Timebase → Timebase) : (s.modTb f).cyc = s.cyc := rfl
@[simp] theorem State.modTb_freeCount (f : Timebase → Timebase) : (s.modTb f).freeCount = s.freeCount := rfl
@[simp] theorem State.modTb_rsp (f : Timebase → Timebase) : (s.modTb f).rsp = s.rsp := rfl
@[simp] theorem State.modTb_regs (f : Timebase → Timebase) : (s.modTb f).regs = s.regs := rfl
@[simp] theorem State.modTb_imgRegs (f : Timebase → Timebase) : (s.modTb f).imgRegs = s.imgRegs := rfl
@[simp] theorem State.modTb_chip (f : Timebase → Timebase) : (s.modTb f).chip = s.chip := rfl
@[simp] theorem State.modTb_log (f : Timebase → Timebase) : (s.modTb f).log = s.log := rfl
@[simp] theorem State.modTb_tb (f : Timebase → Timebase) : (s.modTb f).tb = f s.tb := rfl
@[simp] theorem State.modTb_evt (f : Timebase → Timebase) : (s.modTb f).evt = s.evt := rfl
@[simp] theorem State.modTb_regions (f : Timebase → Timebase) : (s.modTb f).regions = s.regions := rfl
@[simp] theorem State.modTb_kettle (f : Timebase → Timebase) : (s.modTb f).kettle = s.kettle := rfl
@[simp] theorem State.modTb_therm (f : Timebase → Timebase) : (s.modTb f).therm = s.therm := rfl
@[simp] theorem State.modTb_clk (f : Timebase → Timebase) : (s.modTb f).clk = s.clk := rfl
@[simp] theorem State.modTb_xmc (f : Timebase → Timebase) : (s.modTb f).xmc = s.xmc := rfl
@[simp] theorem State.modTb_ldr (f : Timebase → Timebase) : (s.modTb f).ldr = s.ldr := rfl
@[simp] theorem State.modTb_bist (f : Timebase → Timebase) : (s.modTb f).bist = s.bist := rfl
@[simp] theorem State.modTb_iob (f : Timebase → Timebase) : (s.modTb f).iob = s.iob := rfl
@[simp] theorem State.modTb_net (f : Timebase → Timebase) : (s.modTb f).net = s.net := rfl
@[simp] theorem State.modTb_sched (f : Timebase → Timebase) : (s.modTb f).sched = s.sched := rfl
@[simp] theorem State.modTb_plc (f : Timebase → Timebase) : (s.modTb f).plc = s.plc := rfl
@[simp] theorem State.modTb_krl (f : Timebase → Timebase) : (s.modTb f).krl = s.krl := rfl
@[simp] theorem State.modTb_scrub (f : Timebase → Timebase) : (s.modTb f).scrub = s.scrub := rfl
@[simp] theorem State.modTb_jrn (f : Timebase → Timebase) : (s.modTb f).jrn = s.jrn := rfl
@[simp] theorem State.modTb_sup (f : Timebase → Timebase) : (s.modTb f).sup = s.sup := rfl
@[simp] theorem State.modTb_lanes (f : Timebase → Timebase) : (s.modTb f).lanes = s.lanes := rfl
@[simp] theorem State.modTb_crcs (f : Timebase → Timebase) : (s.modTb f).crcs = s.crcs := rfl
@[simp] theorem State.modTb_mbx (f : Timebase → Timebase) : (s.modTb f).mbx = s.mbx := rfl
@[simp] theorem State.modTb_bankMem (f : Timebase → Timebase) : (s.modTb f).bankMem = s.bankMem := rfl
@[simp] theorem State.modTb_bankSyn (f : Timebase → Timebase) : (s.modTb f).bankSyn = s.bankSyn := rfl

@[simp] theorem State.modEvt_pending (f : EventTable → EventTable) : (s.modEvt f).pending = s.pending := rfl
@[simp] theorem State.modEvt_cyc (f : EventTable → EventTable) : (s.modEvt f).cyc = s.cyc := rfl
@[simp] theorem State.modEvt_freeCount (f : EventTable → EventTable) : (s.modEvt f).freeCount = s.freeCount := rfl
@[simp] theorem State.modEvt_rsp (f : EventTable → EventTable) : (s.modEvt f).rsp = s.rsp := rfl
@[simp] theorem State.modEvt_regs (f : EventTable → EventTable) : (s.modEvt f).regs = s.regs := rfl
@[simp] theorem State.modEvt_imgRegs (f : EventTable → EventTable) : (s.modEvt f).imgRegs = s.imgRegs := rfl
@[simp] theorem State.modEvt_chip (f : EventTable → EventTable) : (s.modEvt f).chip = s.chip := rfl
@[simp] theorem State.modEvt_log (f : EventTable → EventTable) : (s.modEvt f).log = s.log := rfl
@[simp] theorem State.modEvt_tb (f : EventTable → EventTable) : (s.modEvt f).tb = s.tb := rfl
@[simp] theorem State.modEvt_evt (f : EventTable → EventTable) : (s.modEvt f).evt = f s.evt := rfl
@[simp] theorem State.modEvt_regions (f : EventTable → EventTable) : (s.modEvt f).regions = s.regions := rfl
@[simp] theorem State.modEvt_kettle (f : EventTable → EventTable) : (s.modEvt f).kettle = s.kettle := rfl
@[simp] theorem State.modEvt_therm (f : EventTable → EventTable) : (s.modEvt f).therm = s.therm := rfl
@[simp] theorem State.modEvt_clk (f : EventTable → EventTable) : (s.modEvt f).clk = s.clk := rfl
@[simp] theorem State.modEvt_xmc (f : EventTable → EventTable) : (s.modEvt f).xmc = s.xmc := rfl
@[simp] theorem State.modEvt_ldr (f : EventTable → EventTable) : (s.modEvt f).ldr = s.ldr := rfl
@[simp] theorem State.modEvt_bist (f : EventTable → EventTable) : (s.modEvt f).bist = s.bist := rfl
@[simp] theorem State.modEvt_iob (f : EventTable → EventTable) : (s.modEvt f).iob = s.iob := rfl
@[simp] theorem State.modEvt_net (f : EventTable → EventTable) : (s.modEvt f).net = s.net := rfl
@[simp] theorem State.modEvt_sched (f : EventTable → EventTable) : (s.modEvt f).sched = s.sched := rfl
@[simp] theorem State.modEvt_plc (f : EventTable → EventTable) : (s.modEvt f).plc = s.plc := rfl
@[simp] theorem State.modEvt_krl (f : EventTable → EventTable) : (s.modEvt f).krl = s.krl := rfl
@[simp] theorem State.modEvt_scrub (f : EventTable → EventTable) : (s.modEvt f).scrub = s.scrub := rfl
@[simp] theorem State.modEvt_jrn (f : EventTable → EventTable) : (s.modEvt f).jrn = s.jrn := rfl
@[simp] theorem State.modEvt_sup (f : EventTable → EventTable) : (s.modEvt f).sup = s.sup := rfl
@[simp] theorem State.modEvt_lanes (f : EventTable → EventTable) : (s.modEvt f).lanes = s.lanes := rfl
@[simp] theorem State.modEvt_crcs (f : EventTable → EventTable) : (s.modEvt f).crcs = s.crcs := rfl
@[simp] theorem State.modEvt_mbx (f : EventTable → EventTable) : (s.modEvt f).mbx = s.mbx := rfl
@[simp] theorem State.modEvt_bankMem (f : EventTable → EventTable) : (s.modEvt f).bankMem = s.bankMem := rfl
@[simp] theorem State.modEvt_bankSyn (f : EventTable → EventTable) : (s.modEvt f).bankSyn = s.bankSyn := rfl

@[simp] theorem State.modKet_pending (f : Kettle → Kettle) : (s.modKet f).pending = s.pending := rfl
@[simp] theorem State.modKet_cyc (f : Kettle → Kettle) : (s.modKet f).cyc = s.cyc := rfl
@[simp] theorem State.modKet_freeCount (f : Kettle → Kettle) : (s.modKet f).freeCount = s.freeCount := rfl
@[simp] theorem State.modKet_rsp (f : Kettle → Kettle) : (s.modKet f).rsp = s.rsp := rfl
@[simp] theorem State.modKet_regs (f : Kettle → Kettle) : (s.modKet f).regs = s.regs := rfl
@[simp] theorem State.modKet_imgRegs (f : Kettle → Kettle) : (s.modKet f).imgRegs = s.imgRegs := rfl
@[simp] theorem State.modKet_chip (f : Kettle → Kettle) : (s.modKet f).chip = s.chip := rfl
@[simp] theorem State.modKet_log (f : Kettle → Kettle) : (s.modKet f).log = s.log := rfl
@[simp] theorem State.modKet_tb (f : Kettle → Kettle) : (s.modKet f).tb = s.tb := rfl
@[simp] theorem State.modKet_evt (f : Kettle → Kettle) : (s.modKet f).evt = s.evt := rfl
@[simp] theorem State.modKet_regions (f : Kettle → Kettle) : (s.modKet f).regions = s.regions := rfl
@[simp] theorem State.modKet_kettle (f : Kettle → Kettle) : (s.modKet f).kettle = f s.kettle := rfl
@[simp] theorem State.modKet_therm (f : Kettle → Kettle) : (s.modKet f).therm = s.therm := rfl
@[simp] theorem State.modKet_clk (f : Kettle → Kettle) : (s.modKet f).clk = s.clk := rfl
@[simp] theorem State.modKet_xmc (f : Kettle → Kettle) : (s.modKet f).xmc = s.xmc := rfl
@[simp] theorem State.modKet_ldr (f : Kettle → Kettle) : (s.modKet f).ldr = s.ldr := rfl
@[simp] theorem State.modKet_bist (f : Kettle → Kettle) : (s.modKet f).bist = s.bist := rfl
@[simp] theorem State.modKet_iob (f : Kettle → Kettle) : (s.modKet f).iob = s.iob := rfl
@[simp] theorem State.modKet_net (f : Kettle → Kettle) : (s.modKet f).net = s.net := rfl
@[simp] theorem State.modKet_sched (f : Kettle → Kettle) : (s.modKet f).sched = s.sched := rfl
@[simp] theorem State.modKet_plc (f : Kettle → Kettle) : (s.modKet f).plc = s.plc := rfl
@[simp] theorem State.modKet_krl (f : Kettle → Kettle) : (s.modKet f).krl = s.krl := rfl
@[simp] theorem State.modKet_scrub (f : Kettle → Kettle) : (s.modKet f).scrub = s.scrub := rfl
@[simp] theorem State.modKet_jrn (f : Kettle → Kettle) : (s.modKet f).jrn = s.jrn := rfl
@[simp] theorem State.modKet_sup (f : Kettle → Kettle) : (s.modKet f).sup = s.sup := rfl
@[simp] theorem State.modKet_lanes (f : Kettle → Kettle) : (s.modKet f).lanes = s.lanes := rfl
@[simp] theorem State.modKet_crcs (f : Kettle → Kettle) : (s.modKet f).crcs = s.crcs := rfl
@[simp] theorem State.modKet_mbx (f : Kettle → Kettle) : (s.modKet f).mbx = s.mbx := rfl
@[simp] theorem State.modKet_bankMem (f : Kettle → Kettle) : (s.modKet f).bankMem = s.bankMem := rfl
@[simp] theorem State.modKet_bankSyn (f : Kettle → Kettle) : (s.modKet f).bankSyn = s.bankSyn := rfl

@[simp] theorem State.modClk_pending (f : Clocks → Clocks) : (s.modClk f).pending = s.pending := rfl
@[simp] theorem State.modClk_cyc (f : Clocks → Clocks) : (s.modClk f).cyc = s.cyc := rfl
@[simp] theorem State.modClk_freeCount (f : Clocks → Clocks) : (s.modClk f).freeCount = s.freeCount := rfl
@[simp] theorem State.modClk_rsp (f : Clocks → Clocks) : (s.modClk f).rsp = s.rsp := rfl
@[simp] theorem State.modClk_regs (f : Clocks → Clocks) : (s.modClk f).regs = s.regs := rfl
@[simp] theorem State.modClk_imgRegs (f : Clocks → Clocks) : (s.modClk f).imgRegs = s.imgRegs := rfl
@[simp] theorem State.modClk_chip (f : Clocks → Clocks) : (s.modClk f).chip = s.chip := rfl
@[simp] theorem State.modClk_log (f : Clocks → Clocks) : (s.modClk f).log = s.log := rfl
@[simp] theorem State.modClk_tb (f : Clocks → Clocks) : (s.modClk f).tb = s.tb := rfl
@[simp] theorem State.modClk_evt (f : Clocks → Clocks) : (s.modClk f).evt = s.evt := rfl
@[simp] theorem State.modClk_regions (f : Clocks → Clocks) : (s.modClk f).regions = s.regions := rfl
@[simp] theorem State.modClk_kettle (f : Clocks → Clocks) : (s.modClk f).kettle = s.kettle := rfl
@[simp] theorem State.modClk_therm (f : Clocks → Clocks) : (s.modClk f).therm = s.therm := rfl
@[simp] theorem State.modClk_clk (f : Clocks → Clocks) : (s.modClk f).clk = f s.clk := rfl
@[simp] theorem State.modClk_xmc (f : Clocks → Clocks) : (s.modClk f).xmc = s.xmc := rfl
@[simp] theorem State.modClk_ldr (f : Clocks → Clocks) : (s.modClk f).ldr = s.ldr := rfl
@[simp] theorem State.modClk_bist (f : Clocks → Clocks) : (s.modClk f).bist = s.bist := rfl
@[simp] theorem State.modClk_iob (f : Clocks → Clocks) : (s.modClk f).iob = s.iob := rfl
@[simp] theorem State.modClk_net (f : Clocks → Clocks) : (s.modClk f).net = s.net := rfl
@[simp] theorem State.modClk_sched (f : Clocks → Clocks) : (s.modClk f).sched = s.sched := rfl
@[simp] theorem State.modClk_plc (f : Clocks → Clocks) : (s.modClk f).plc = s.plc := rfl
@[simp] theorem State.modClk_krl (f : Clocks → Clocks) : (s.modClk f).krl = s.krl := rfl
@[simp] theorem State.modClk_scrub (f : Clocks → Clocks) : (s.modClk f).scrub = s.scrub := rfl
@[simp] theorem State.modClk_jrn (f : Clocks → Clocks) : (s.modClk f).jrn = s.jrn := rfl
@[simp] theorem State.modClk_sup (f : Clocks → Clocks) : (s.modClk f).sup = s.sup := rfl
@[simp] theorem State.modClk_lanes (f : Clocks → Clocks) : (s.modClk f).lanes = s.lanes := rfl
@[simp] theorem State.modClk_crcs (f : Clocks → Clocks) : (s.modClk f).crcs = s.crcs := rfl
@[simp] theorem State.modClk_mbx (f : Clocks → Clocks) : (s.modClk f).mbx = s.mbx := rfl
@[simp] theorem State.modClk_bankMem (f : Clocks → Clocks) : (s.modClk f).bankMem = s.bankMem := rfl
@[simp] theorem State.modClk_bankSyn (f : Clocks → Clocks) : (s.modClk f).bankSyn = s.bankSyn := rfl

@[simp] theorem State.modXmc_pending (f : Xmc → Xmc) : (s.modXmc f).pending = s.pending := rfl
@[simp] theorem State.modXmc_cyc (f : Xmc → Xmc) : (s.modXmc f).cyc = s.cyc := rfl
@[simp] theorem State.modXmc_freeCount (f : Xmc → Xmc) : (s.modXmc f).freeCount = s.freeCount := rfl
@[simp] theorem State.modXmc_rsp (f : Xmc → Xmc) : (s.modXmc f).rsp = s.rsp := rfl
@[simp] theorem State.modXmc_regs (f : Xmc → Xmc) : (s.modXmc f).regs = s.regs := rfl
@[simp] theorem State.modXmc_imgRegs (f : Xmc → Xmc) : (s.modXmc f).imgRegs = s.imgRegs := rfl
@[simp] theorem State.modXmc_chip (f : Xmc → Xmc) : (s.modXmc f).chip = s.chip := rfl
@[simp] theorem State.modXmc_log (f : Xmc → Xmc) : (s.modXmc f).log = s.log := rfl
@[simp] theorem State.modXmc_tb (f : Xmc → Xmc) : (s.modXmc f).tb = s.tb := rfl
@[simp] theorem State.modXmc_evt (f : Xmc → Xmc) : (s.modXmc f).evt = s.evt := rfl
@[simp] theorem State.modXmc_regions (f : Xmc → Xmc) : (s.modXmc f).regions = s.regions := rfl
@[simp] theorem State.modXmc_kettle (f : Xmc → Xmc) : (s.modXmc f).kettle = s.kettle := rfl
@[simp] theorem State.modXmc_therm (f : Xmc → Xmc) : (s.modXmc f).therm = s.therm := rfl
@[simp] theorem State.modXmc_clk (f : Xmc → Xmc) : (s.modXmc f).clk = s.clk := rfl
@[simp] theorem State.modXmc_xmc (f : Xmc → Xmc) : (s.modXmc f).xmc = f s.xmc := rfl
@[simp] theorem State.modXmc_ldr (f : Xmc → Xmc) : (s.modXmc f).ldr = s.ldr := rfl
@[simp] theorem State.modXmc_bist (f : Xmc → Xmc) : (s.modXmc f).bist = s.bist := rfl
@[simp] theorem State.modXmc_iob (f : Xmc → Xmc) : (s.modXmc f).iob = s.iob := rfl
@[simp] theorem State.modXmc_net (f : Xmc → Xmc) : (s.modXmc f).net = s.net := rfl
@[simp] theorem State.modXmc_sched (f : Xmc → Xmc) : (s.modXmc f).sched = s.sched := rfl
@[simp] theorem State.modXmc_plc (f : Xmc → Xmc) : (s.modXmc f).plc = s.plc := rfl
@[simp] theorem State.modXmc_krl (f : Xmc → Xmc) : (s.modXmc f).krl = s.krl := rfl
@[simp] theorem State.modXmc_scrub (f : Xmc → Xmc) : (s.modXmc f).scrub = s.scrub := rfl
@[simp] theorem State.modXmc_jrn (f : Xmc → Xmc) : (s.modXmc f).jrn = s.jrn := rfl
@[simp] theorem State.modXmc_sup (f : Xmc → Xmc) : (s.modXmc f).sup = s.sup := rfl
@[simp] theorem State.modXmc_lanes (f : Xmc → Xmc) : (s.modXmc f).lanes = s.lanes := rfl
@[simp] theorem State.modXmc_crcs (f : Xmc → Xmc) : (s.modXmc f).crcs = s.crcs := rfl
@[simp] theorem State.modXmc_mbx (f : Xmc → Xmc) : (s.modXmc f).mbx = s.mbx := rfl
@[simp] theorem State.modXmc_bankMem (f : Xmc → Xmc) : (s.modXmc f).bankMem = s.bankMem := rfl
@[simp] theorem State.modXmc_bankSyn (f : Xmc → Xmc) : (s.modXmc f).bankSyn = s.bankSyn := rfl

@[simp] theorem State.modLdr_pending (f : Loader → Loader) : (s.modLdr f).pending = s.pending := rfl
@[simp] theorem State.modLdr_cyc (f : Loader → Loader) : (s.modLdr f).cyc = s.cyc := rfl
@[simp] theorem State.modLdr_freeCount (f : Loader → Loader) : (s.modLdr f).freeCount = s.freeCount := rfl
@[simp] theorem State.modLdr_rsp (f : Loader → Loader) : (s.modLdr f).rsp = s.rsp := rfl
@[simp] theorem State.modLdr_regs (f : Loader → Loader) : (s.modLdr f).regs = s.regs := rfl
@[simp] theorem State.modLdr_imgRegs (f : Loader → Loader) : (s.modLdr f).imgRegs = s.imgRegs := rfl
@[simp] theorem State.modLdr_chip (f : Loader → Loader) : (s.modLdr f).chip = s.chip := rfl
@[simp] theorem State.modLdr_log (f : Loader → Loader) : (s.modLdr f).log = s.log := rfl
@[simp] theorem State.modLdr_tb (f : Loader → Loader) : (s.modLdr f).tb = s.tb := rfl
@[simp] theorem State.modLdr_evt (f : Loader → Loader) : (s.modLdr f).evt = s.evt := rfl
@[simp] theorem State.modLdr_regions (f : Loader → Loader) : (s.modLdr f).regions = s.regions := rfl
@[simp] theorem State.modLdr_kettle (f : Loader → Loader) : (s.modLdr f).kettle = s.kettle := rfl
@[simp] theorem State.modLdr_therm (f : Loader → Loader) : (s.modLdr f).therm = s.therm := rfl
@[simp] theorem State.modLdr_clk (f : Loader → Loader) : (s.modLdr f).clk = s.clk := rfl
@[simp] theorem State.modLdr_xmc (f : Loader → Loader) : (s.modLdr f).xmc = s.xmc := rfl
@[simp] theorem State.modLdr_ldr (f : Loader → Loader) : (s.modLdr f).ldr = f s.ldr := rfl
@[simp] theorem State.modLdr_bist (f : Loader → Loader) : (s.modLdr f).bist = s.bist := rfl
@[simp] theorem State.modLdr_iob (f : Loader → Loader) : (s.modLdr f).iob = s.iob := rfl
@[simp] theorem State.modLdr_net (f : Loader → Loader) : (s.modLdr f).net = s.net := rfl
@[simp] theorem State.modLdr_sched (f : Loader → Loader) : (s.modLdr f).sched = s.sched := rfl
@[simp] theorem State.modLdr_plc (f : Loader → Loader) : (s.modLdr f).plc = s.plc := rfl
@[simp] theorem State.modLdr_krl (f : Loader → Loader) : (s.modLdr f).krl = s.krl := rfl
@[simp] theorem State.modLdr_scrub (f : Loader → Loader) : (s.modLdr f).scrub = s.scrub := rfl
@[simp] theorem State.modLdr_jrn (f : Loader → Loader) : (s.modLdr f).jrn = s.jrn := rfl
@[simp] theorem State.modLdr_sup (f : Loader → Loader) : (s.modLdr f).sup = s.sup := rfl
@[simp] theorem State.modLdr_lanes (f : Loader → Loader) : (s.modLdr f).lanes = s.lanes := rfl
@[simp] theorem State.modLdr_crcs (f : Loader → Loader) : (s.modLdr f).crcs = s.crcs := rfl
@[simp] theorem State.modLdr_mbx (f : Loader → Loader) : (s.modLdr f).mbx = s.mbx := rfl
@[simp] theorem State.modLdr_bankMem (f : Loader → Loader) : (s.modLdr f).bankMem = s.bankMem := rfl
@[simp] theorem State.modLdr_bankSyn (f : Loader → Loader) : (s.modLdr f).bankSyn = s.bankSyn := rfl

@[simp] theorem State.modBist_pending (f : Bist → Bist) : (s.modBist f).pending = s.pending := rfl
@[simp] theorem State.modBist_cyc (f : Bist → Bist) : (s.modBist f).cyc = s.cyc := rfl
@[simp] theorem State.modBist_freeCount (f : Bist → Bist) : (s.modBist f).freeCount = s.freeCount := rfl
@[simp] theorem State.modBist_rsp (f : Bist → Bist) : (s.modBist f).rsp = s.rsp := rfl
@[simp] theorem State.modBist_regs (f : Bist → Bist) : (s.modBist f).regs = s.regs := rfl
@[simp] theorem State.modBist_imgRegs (f : Bist → Bist) : (s.modBist f).imgRegs = s.imgRegs := rfl
@[simp] theorem State.modBist_chip (f : Bist → Bist) : (s.modBist f).chip = s.chip := rfl
@[simp] theorem State.modBist_log (f : Bist → Bist) : (s.modBist f).log = s.log := rfl
@[simp] theorem State.modBist_tb (f : Bist → Bist) : (s.modBist f).tb = s.tb := rfl
@[simp] theorem State.modBist_evt (f : Bist → Bist) : (s.modBist f).evt = s.evt := rfl
@[simp] theorem State.modBist_regions (f : Bist → Bist) : (s.modBist f).regions = s.regions := rfl
@[simp] theorem State.modBist_kettle (f : Bist → Bist) : (s.modBist f).kettle = s.kettle := rfl
@[simp] theorem State.modBist_therm (f : Bist → Bist) : (s.modBist f).therm = s.therm := rfl
@[simp] theorem State.modBist_clk (f : Bist → Bist) : (s.modBist f).clk = s.clk := rfl
@[simp] theorem State.modBist_xmc (f : Bist → Bist) : (s.modBist f).xmc = s.xmc := rfl
@[simp] theorem State.modBist_ldr (f : Bist → Bist) : (s.modBist f).ldr = s.ldr := rfl
@[simp] theorem State.modBist_bist (f : Bist → Bist) : (s.modBist f).bist = f s.bist := rfl
@[simp] theorem State.modBist_iob (f : Bist → Bist) : (s.modBist f).iob = s.iob := rfl
@[simp] theorem State.modBist_net (f : Bist → Bist) : (s.modBist f).net = s.net := rfl
@[simp] theorem State.modBist_sched (f : Bist → Bist) : (s.modBist f).sched = s.sched := rfl
@[simp] theorem State.modBist_plc (f : Bist → Bist) : (s.modBist f).plc = s.plc := rfl
@[simp] theorem State.modBist_krl (f : Bist → Bist) : (s.modBist f).krl = s.krl := rfl
@[simp] theorem State.modBist_scrub (f : Bist → Bist) : (s.modBist f).scrub = s.scrub := rfl
@[simp] theorem State.modBist_jrn (f : Bist → Bist) : (s.modBist f).jrn = s.jrn := rfl
@[simp] theorem State.modBist_sup (f : Bist → Bist) : (s.modBist f).sup = s.sup := rfl
@[simp] theorem State.modBist_lanes (f : Bist → Bist) : (s.modBist f).lanes = s.lanes := rfl
@[simp] theorem State.modBist_crcs (f : Bist → Bist) : (s.modBist f).crcs = s.crcs := rfl
@[simp] theorem State.modBist_mbx (f : Bist → Bist) : (s.modBist f).mbx = s.mbx := rfl
@[simp] theorem State.modBist_bankMem (f : Bist → Bist) : (s.modBist f).bankMem = s.bankMem := rfl
@[simp] theorem State.modBist_bankSyn (f : Bist → Bist) : (s.modBist f).bankSyn = s.bankSyn := rfl

@[simp] theorem State.modNet_pending (f : Net → Net) : (s.modNet f).pending = s.pending := rfl
@[simp] theorem State.modNet_cyc (f : Net → Net) : (s.modNet f).cyc = s.cyc := rfl
@[simp] theorem State.modNet_freeCount (f : Net → Net) : (s.modNet f).freeCount = s.freeCount := rfl
@[simp] theorem State.modNet_rsp (f : Net → Net) : (s.modNet f).rsp = s.rsp := rfl
@[simp] theorem State.modNet_regs (f : Net → Net) : (s.modNet f).regs = s.regs := rfl
@[simp] theorem State.modNet_imgRegs (f : Net → Net) : (s.modNet f).imgRegs = s.imgRegs := rfl
@[simp] theorem State.modNet_chip (f : Net → Net) : (s.modNet f).chip = s.chip := rfl
@[simp] theorem State.modNet_log (f : Net → Net) : (s.modNet f).log = s.log := rfl
@[simp] theorem State.modNet_tb (f : Net → Net) : (s.modNet f).tb = s.tb := rfl
@[simp] theorem State.modNet_evt (f : Net → Net) : (s.modNet f).evt = s.evt := rfl
@[simp] theorem State.modNet_regions (f : Net → Net) : (s.modNet f).regions = s.regions := rfl
@[simp] theorem State.modNet_kettle (f : Net → Net) : (s.modNet f).kettle = s.kettle := rfl
@[simp] theorem State.modNet_therm (f : Net → Net) : (s.modNet f).therm = s.therm := rfl
@[simp] theorem State.modNet_clk (f : Net → Net) : (s.modNet f).clk = s.clk := rfl
@[simp] theorem State.modNet_xmc (f : Net → Net) : (s.modNet f).xmc = s.xmc := rfl
@[simp] theorem State.modNet_ldr (f : Net → Net) : (s.modNet f).ldr = s.ldr := rfl
@[simp] theorem State.modNet_bist (f : Net → Net) : (s.modNet f).bist = s.bist := rfl
@[simp] theorem State.modNet_iob (f : Net → Net) : (s.modNet f).iob = s.iob := rfl
@[simp] theorem State.modNet_net (f : Net → Net) : (s.modNet f).net = f s.net := rfl
@[simp] theorem State.modNet_sched (f : Net → Net) : (s.modNet f).sched = s.sched := rfl
@[simp] theorem State.modNet_plc (f : Net → Net) : (s.modNet f).plc = s.plc := rfl
@[simp] theorem State.modNet_krl (f : Net → Net) : (s.modNet f).krl = s.krl := rfl
@[simp] theorem State.modNet_scrub (f : Net → Net) : (s.modNet f).scrub = s.scrub := rfl
@[simp] theorem State.modNet_jrn (f : Net → Net) : (s.modNet f).jrn = s.jrn := rfl
@[simp] theorem State.modNet_sup (f : Net → Net) : (s.modNet f).sup = s.sup := rfl
@[simp] theorem State.modNet_lanes (f : Net → Net) : (s.modNet f).lanes = s.lanes := rfl
@[simp] theorem State.modNet_crcs (f : Net → Net) : (s.modNet f).crcs = s.crcs := rfl
@[simp] theorem State.modNet_mbx (f : Net → Net) : (s.modNet f).mbx = s.mbx := rfl
@[simp] theorem State.modNet_bankMem (f : Net → Net) : (s.modNet f).bankMem = s.bankMem := rfl
@[simp] theorem State.modNet_bankSyn (f : Net → Net) : (s.modNet f).bankSyn = s.bankSyn := rfl

@[simp] theorem State.modPlc_pending (f : Plc → Plc) : (s.modPlc f).pending = s.pending := rfl
@[simp] theorem State.modPlc_cyc (f : Plc → Plc) : (s.modPlc f).cyc = s.cyc := rfl
@[simp] theorem State.modPlc_freeCount (f : Plc → Plc) : (s.modPlc f).freeCount = s.freeCount := rfl
@[simp] theorem State.modPlc_rsp (f : Plc → Plc) : (s.modPlc f).rsp = s.rsp := rfl
@[simp] theorem State.modPlc_regs (f : Plc → Plc) : (s.modPlc f).regs = s.regs := rfl
@[simp] theorem State.modPlc_imgRegs (f : Plc → Plc) : (s.modPlc f).imgRegs = s.imgRegs := rfl
@[simp] theorem State.modPlc_chip (f : Plc → Plc) : (s.modPlc f).chip = s.chip := rfl
@[simp] theorem State.modPlc_log (f : Plc → Plc) : (s.modPlc f).log = s.log := rfl
@[simp] theorem State.modPlc_tb (f : Plc → Plc) : (s.modPlc f).tb = s.tb := rfl
@[simp] theorem State.modPlc_evt (f : Plc → Plc) : (s.modPlc f).evt = s.evt := rfl
@[simp] theorem State.modPlc_regions (f : Plc → Plc) : (s.modPlc f).regions = s.regions := rfl
@[simp] theorem State.modPlc_kettle (f : Plc → Plc) : (s.modPlc f).kettle = s.kettle := rfl
@[simp] theorem State.modPlc_therm (f : Plc → Plc) : (s.modPlc f).therm = s.therm := rfl
@[simp] theorem State.modPlc_clk (f : Plc → Plc) : (s.modPlc f).clk = s.clk := rfl
@[simp] theorem State.modPlc_xmc (f : Plc → Plc) : (s.modPlc f).xmc = s.xmc := rfl
@[simp] theorem State.modPlc_ldr (f : Plc → Plc) : (s.modPlc f).ldr = s.ldr := rfl
@[simp] theorem State.modPlc_bist (f : Plc → Plc) : (s.modPlc f).bist = s.bist := rfl
@[simp] theorem State.modPlc_iob (f : Plc → Plc) : (s.modPlc f).iob = s.iob := rfl
@[simp] theorem State.modPlc_net (f : Plc → Plc) : (s.modPlc f).net = s.net := rfl
@[simp] theorem State.modPlc_sched (f : Plc → Plc) : (s.modPlc f).sched = s.sched := rfl
@[simp] theorem State.modPlc_plc (f : Plc → Plc) : (s.modPlc f).plc = f s.plc := rfl
@[simp] theorem State.modPlc_krl (f : Plc → Plc) : (s.modPlc f).krl = s.krl := rfl
@[simp] theorem State.modPlc_scrub (f : Plc → Plc) : (s.modPlc f).scrub = s.scrub := rfl
@[simp] theorem State.modPlc_jrn (f : Plc → Plc) : (s.modPlc f).jrn = s.jrn := rfl
@[simp] theorem State.modPlc_sup (f : Plc → Plc) : (s.modPlc f).sup = s.sup := rfl
@[simp] theorem State.modPlc_lanes (f : Plc → Plc) : (s.modPlc f).lanes = s.lanes := rfl
@[simp] theorem State.modPlc_crcs (f : Plc → Plc) : (s.modPlc f).crcs = s.crcs := rfl
@[simp] theorem State.modPlc_mbx (f : Plc → Plc) : (s.modPlc f).mbx = s.mbx := rfl
@[simp] theorem State.modPlc_bankMem (f : Plc → Plc) : (s.modPlc f).bankMem = s.bankMem := rfl
@[simp] theorem State.modPlc_bankSyn (f : Plc → Plc) : (s.modPlc f).bankSyn = s.bankSyn := rfl

@[simp] theorem State.modKrl_pending (f : Krl → Krl) : (s.modKrl f).pending = s.pending := rfl
@[simp] theorem State.modKrl_cyc (f : Krl → Krl) : (s.modKrl f).cyc = s.cyc := rfl
@[simp] theorem State.modKrl_freeCount (f : Krl → Krl) : (s.modKrl f).freeCount = s.freeCount := rfl
@[simp] theorem State.modKrl_rsp (f : Krl → Krl) : (s.modKrl f).rsp = s.rsp := rfl
@[simp] theorem State.modKrl_regs (f : Krl → Krl) : (s.modKrl f).regs = s.regs := rfl
@[simp] theorem State.modKrl_imgRegs (f : Krl → Krl) : (s.modKrl f).imgRegs = s.imgRegs := rfl
@[simp] theorem State.modKrl_chip (f : Krl → Krl) : (s.modKrl f).chip = s.chip := rfl
@[simp] theorem State.modKrl_log (f : Krl → Krl) : (s.modKrl f).log = s.log := rfl
@[simp] theorem State.modKrl_tb (f : Krl → Krl) : (s.modKrl f).tb = s.tb := rfl
@[simp] theorem State.modKrl_evt (f : Krl → Krl) : (s.modKrl f).evt = s.evt := rfl
@[simp] theorem State.modKrl_regions (f : Krl → Krl) : (s.modKrl f).regions = s.regions := rfl
@[simp] theorem State.modKrl_kettle (f : Krl → Krl) : (s.modKrl f).kettle = s.kettle := rfl
@[simp] theorem State.modKrl_therm (f : Krl → Krl) : (s.modKrl f).therm = s.therm := rfl
@[simp] theorem State.modKrl_clk (f : Krl → Krl) : (s.modKrl f).clk = s.clk := rfl
@[simp] theorem State.modKrl_xmc (f : Krl → Krl) : (s.modKrl f).xmc = s.xmc := rfl
@[simp] theorem State.modKrl_ldr (f : Krl → Krl) : (s.modKrl f).ldr = s.ldr := rfl
@[simp] theorem State.modKrl_bist (f : Krl → Krl) : (s.modKrl f).bist = s.bist := rfl
@[simp] theorem State.modKrl_iob (f : Krl → Krl) : (s.modKrl f).iob = s.iob := rfl
@[simp] theorem State.modKrl_net (f : Krl → Krl) : (s.modKrl f).net = s.net := rfl
@[simp] theorem State.modKrl_sched (f : Krl → Krl) : (s.modKrl f).sched = s.sched := rfl
@[simp] theorem State.modKrl_plc (f : Krl → Krl) : (s.modKrl f).plc = s.plc := rfl
@[simp] theorem State.modKrl_krl (f : Krl → Krl) : (s.modKrl f).krl = f s.krl := rfl
@[simp] theorem State.modKrl_scrub (f : Krl → Krl) : (s.modKrl f).scrub = s.scrub := rfl
@[simp] theorem State.modKrl_jrn (f : Krl → Krl) : (s.modKrl f).jrn = s.jrn := rfl
@[simp] theorem State.modKrl_sup (f : Krl → Krl) : (s.modKrl f).sup = s.sup := rfl
@[simp] theorem State.modKrl_lanes (f : Krl → Krl) : (s.modKrl f).lanes = s.lanes := rfl
@[simp] theorem State.modKrl_crcs (f : Krl → Krl) : (s.modKrl f).crcs = s.crcs := rfl
@[simp] theorem State.modKrl_mbx (f : Krl → Krl) : (s.modKrl f).mbx = s.mbx := rfl
@[simp] theorem State.modKrl_bankMem (f : Krl → Krl) : (s.modKrl f).bankMem = s.bankMem := rfl
@[simp] theorem State.modKrl_bankSyn (f : Krl → Krl) : (s.modKrl f).bankSyn = s.bankSyn := rfl

@[simp] theorem State.modScr_pending (f : Scrub → Scrub) : (s.modScr f).pending = s.pending := rfl
@[simp] theorem State.modScr_cyc (f : Scrub → Scrub) : (s.modScr f).cyc = s.cyc := rfl
@[simp] theorem State.modScr_freeCount (f : Scrub → Scrub) : (s.modScr f).freeCount = s.freeCount := rfl
@[simp] theorem State.modScr_rsp (f : Scrub → Scrub) : (s.modScr f).rsp = s.rsp := rfl
@[simp] theorem State.modScr_regs (f : Scrub → Scrub) : (s.modScr f).regs = s.regs := rfl
@[simp] theorem State.modScr_imgRegs (f : Scrub → Scrub) : (s.modScr f).imgRegs = s.imgRegs := rfl
@[simp] theorem State.modScr_chip (f : Scrub → Scrub) : (s.modScr f).chip = s.chip := rfl
@[simp] theorem State.modScr_log (f : Scrub → Scrub) : (s.modScr f).log = s.log := rfl
@[simp] theorem State.modScr_tb (f : Scrub → Scrub) : (s.modScr f).tb = s.tb := rfl
@[simp] theorem State.modScr_evt (f : Scrub → Scrub) : (s.modScr f).evt = s.evt := rfl
@[simp] theorem State.modScr_regions (f : Scrub → Scrub) : (s.modScr f).regions = s.regions := rfl
@[simp] theorem State.modScr_kettle (f : Scrub → Scrub) : (s.modScr f).kettle = s.kettle := rfl
@[simp] theorem State.modScr_therm (f : Scrub → Scrub) : (s.modScr f).therm = s.therm := rfl
@[simp] theorem State.modScr_clk (f : Scrub → Scrub) : (s.modScr f).clk = s.clk := rfl
@[simp] theorem State.modScr_xmc (f : Scrub → Scrub) : (s.modScr f).xmc = s.xmc := rfl
@[simp] theorem State.modScr_ldr (f : Scrub → Scrub) : (s.modScr f).ldr = s.ldr := rfl
@[simp] theorem State.modScr_bist (f : Scrub → Scrub) : (s.modScr f).bist = s.bist := rfl
@[simp] theorem State.modScr_iob (f : Scrub → Scrub) : (s.modScr f).iob = s.iob := rfl
@[simp] theorem State.modScr_net (f : Scrub → Scrub) : (s.modScr f).net = s.net := rfl
@[simp] theorem State.modScr_sched (f : Scrub → Scrub) : (s.modScr f).sched = s.sched := rfl
@[simp] theorem State.modScr_plc (f : Scrub → Scrub) : (s.modScr f).plc = s.plc := rfl
@[simp] theorem State.modScr_krl (f : Scrub → Scrub) : (s.modScr f).krl = s.krl := rfl
@[simp] theorem State.modScr_scrub (f : Scrub → Scrub) : (s.modScr f).scrub = f s.scrub := rfl
@[simp] theorem State.modScr_jrn (f : Scrub → Scrub) : (s.modScr f).jrn = s.jrn := rfl
@[simp] theorem State.modScr_sup (f : Scrub → Scrub) : (s.modScr f).sup = s.sup := rfl
@[simp] theorem State.modScr_lanes (f : Scrub → Scrub) : (s.modScr f).lanes = s.lanes := rfl
@[simp] theorem State.modScr_crcs (f : Scrub → Scrub) : (s.modScr f).crcs = s.crcs := rfl
@[simp] theorem State.modScr_mbx (f : Scrub → Scrub) : (s.modScr f).mbx = s.mbx := rfl
@[simp] theorem State.modScr_bankMem (f : Scrub → Scrub) : (s.modScr f).bankMem = s.bankMem := rfl
@[simp] theorem State.modScr_bankSyn (f : Scrub → Scrub) : (s.modScr f).bankSyn = s.bankSyn := rfl

@[simp] theorem State.modJrn_pending (f : Journal → Journal) : (s.modJrn f).pending = s.pending := rfl
@[simp] theorem State.modJrn_cyc (f : Journal → Journal) : (s.modJrn f).cyc = s.cyc := rfl
@[simp] theorem State.modJrn_freeCount (f : Journal → Journal) : (s.modJrn f).freeCount = s.freeCount := rfl
@[simp] theorem State.modJrn_rsp (f : Journal → Journal) : (s.modJrn f).rsp = s.rsp := rfl
@[simp] theorem State.modJrn_regs (f : Journal → Journal) : (s.modJrn f).regs = s.regs := rfl
@[simp] theorem State.modJrn_imgRegs (f : Journal → Journal) : (s.modJrn f).imgRegs = s.imgRegs := rfl
@[simp] theorem State.modJrn_chip (f : Journal → Journal) : (s.modJrn f).chip = s.chip := rfl
@[simp] theorem State.modJrn_log (f : Journal → Journal) : (s.modJrn f).log = s.log := rfl
@[simp] theorem State.modJrn_tb (f : Journal → Journal) : (s.modJrn f).tb = s.tb := rfl
@[simp] theorem State.modJrn_evt (f : Journal → Journal) : (s.modJrn f).evt = s.evt := rfl
@[simp] theorem State.modJrn_regions (f : Journal → Journal) : (s.modJrn f).regions = s.regions := rfl
@[simp] theorem State.modJrn_kettle (f : Journal → Journal) : (s.modJrn f).kettle = s.kettle := rfl
@[simp] theorem State.modJrn_therm (f : Journal → Journal) : (s.modJrn f).therm = s.therm := rfl
@[simp] theorem State.modJrn_clk (f : Journal → Journal) : (s.modJrn f).clk = s.clk := rfl
@[simp] theorem State.modJrn_xmc (f : Journal → Journal) : (s.modJrn f).xmc = s.xmc := rfl
@[simp] theorem State.modJrn_ldr (f : Journal → Journal) : (s.modJrn f).ldr = s.ldr := rfl
@[simp] theorem State.modJrn_bist (f : Journal → Journal) : (s.modJrn f).bist = s.bist := rfl
@[simp] theorem State.modJrn_iob (f : Journal → Journal) : (s.modJrn f).iob = s.iob := rfl
@[simp] theorem State.modJrn_net (f : Journal → Journal) : (s.modJrn f).net = s.net := rfl
@[simp] theorem State.modJrn_sched (f : Journal → Journal) : (s.modJrn f).sched = s.sched := rfl
@[simp] theorem State.modJrn_plc (f : Journal → Journal) : (s.modJrn f).plc = s.plc := rfl
@[simp] theorem State.modJrn_krl (f : Journal → Journal) : (s.modJrn f).krl = s.krl := rfl
@[simp] theorem State.modJrn_scrub (f : Journal → Journal) : (s.modJrn f).scrub = s.scrub := rfl
@[simp] theorem State.modJrn_jrn (f : Journal → Journal) : (s.modJrn f).jrn = f s.jrn := rfl
@[simp] theorem State.modJrn_sup (f : Journal → Journal) : (s.modJrn f).sup = s.sup := rfl
@[simp] theorem State.modJrn_lanes (f : Journal → Journal) : (s.modJrn f).lanes = s.lanes := rfl
@[simp] theorem State.modJrn_crcs (f : Journal → Journal) : (s.modJrn f).crcs = s.crcs := rfl
@[simp] theorem State.modJrn_mbx (f : Journal → Journal) : (s.modJrn f).mbx = s.mbx := rfl
@[simp] theorem State.modJrn_bankMem (f : Journal → Journal) : (s.modJrn f).bankMem = s.bankMem := rfl
@[simp] theorem State.modJrn_bankSyn (f : Journal → Journal) : (s.modJrn f).bankSyn = s.bankSyn := rfl

@[simp] theorem State.modLanes_pending (f : Lanes → Lanes) : (s.modLanes f).pending = s.pending := rfl
@[simp] theorem State.modLanes_cyc (f : Lanes → Lanes) : (s.modLanes f).cyc = s.cyc := rfl
@[simp] theorem State.modLanes_freeCount (f : Lanes → Lanes) : (s.modLanes f).freeCount = s.freeCount := rfl
@[simp] theorem State.modLanes_rsp (f : Lanes → Lanes) : (s.modLanes f).rsp = s.rsp := rfl
@[simp] theorem State.modLanes_regs (f : Lanes → Lanes) : (s.modLanes f).regs = s.regs := rfl
@[simp] theorem State.modLanes_imgRegs (f : Lanes → Lanes) : (s.modLanes f).imgRegs = s.imgRegs := rfl
@[simp] theorem State.modLanes_chip (f : Lanes → Lanes) : (s.modLanes f).chip = s.chip := rfl
@[simp] theorem State.modLanes_log (f : Lanes → Lanes) : (s.modLanes f).log = s.log := rfl
@[simp] theorem State.modLanes_tb (f : Lanes → Lanes) : (s.modLanes f).tb = s.tb := rfl
@[simp] theorem State.modLanes_evt (f : Lanes → Lanes) : (s.modLanes f).evt = s.evt := rfl
@[simp] theorem State.modLanes_regions (f : Lanes → Lanes) : (s.modLanes f).regions = s.regions := rfl
@[simp] theorem State.modLanes_kettle (f : Lanes → Lanes) : (s.modLanes f).kettle = s.kettle := rfl
@[simp] theorem State.modLanes_therm (f : Lanes → Lanes) : (s.modLanes f).therm = s.therm := rfl
@[simp] theorem State.modLanes_clk (f : Lanes → Lanes) : (s.modLanes f).clk = s.clk := rfl
@[simp] theorem State.modLanes_xmc (f : Lanes → Lanes) : (s.modLanes f).xmc = s.xmc := rfl
@[simp] theorem State.modLanes_ldr (f : Lanes → Lanes) : (s.modLanes f).ldr = s.ldr := rfl
@[simp] theorem State.modLanes_bist (f : Lanes → Lanes) : (s.modLanes f).bist = s.bist := rfl
@[simp] theorem State.modLanes_iob (f : Lanes → Lanes) : (s.modLanes f).iob = s.iob := rfl
@[simp] theorem State.modLanes_net (f : Lanes → Lanes) : (s.modLanes f).net = s.net := rfl
@[simp] theorem State.modLanes_sched (f : Lanes → Lanes) : (s.modLanes f).sched = s.sched := rfl
@[simp] theorem State.modLanes_plc (f : Lanes → Lanes) : (s.modLanes f).plc = s.plc := rfl
@[simp] theorem State.modLanes_krl (f : Lanes → Lanes) : (s.modLanes f).krl = s.krl := rfl
@[simp] theorem State.modLanes_scrub (f : Lanes → Lanes) : (s.modLanes f).scrub = s.scrub := rfl
@[simp] theorem State.modLanes_jrn (f : Lanes → Lanes) : (s.modLanes f).jrn = s.jrn := rfl
@[simp] theorem State.modLanes_sup (f : Lanes → Lanes) : (s.modLanes f).sup = s.sup := rfl
@[simp] theorem State.modLanes_lanes (f : Lanes → Lanes) : (s.modLanes f).lanes = f s.lanes := rfl
@[simp] theorem State.modLanes_crcs (f : Lanes → Lanes) : (s.modLanes f).crcs = s.crcs := rfl
@[simp] theorem State.modLanes_mbx (f : Lanes → Lanes) : (s.modLanes f).mbx = s.mbx := rfl
@[simp] theorem State.modLanes_bankMem (f : Lanes → Lanes) : (s.modLanes f).bankMem = s.bankMem := rfl
@[simp] theorem State.modLanes_bankSyn (f : Lanes → Lanes) : (s.modLanes f).bankSyn = s.bankSyn := rfl

@[simp] theorem State.modMbx_pending (f : Mbx → Mbx) : (s.modMbx f).pending = s.pending := rfl
@[simp] theorem State.modMbx_cyc (f : Mbx → Mbx) : (s.modMbx f).cyc = s.cyc := rfl
@[simp] theorem State.modMbx_freeCount (f : Mbx → Mbx) : (s.modMbx f).freeCount = s.freeCount := rfl
@[simp] theorem State.modMbx_rsp (f : Mbx → Mbx) : (s.modMbx f).rsp = s.rsp := rfl
@[simp] theorem State.modMbx_regs (f : Mbx → Mbx) : (s.modMbx f).regs = s.regs := rfl
@[simp] theorem State.modMbx_imgRegs (f : Mbx → Mbx) : (s.modMbx f).imgRegs = s.imgRegs := rfl
@[simp] theorem State.modMbx_chip (f : Mbx → Mbx) : (s.modMbx f).chip = s.chip := rfl
@[simp] theorem State.modMbx_log (f : Mbx → Mbx) : (s.modMbx f).log = s.log := rfl
@[simp] theorem State.modMbx_tb (f : Mbx → Mbx) : (s.modMbx f).tb = s.tb := rfl
@[simp] theorem State.modMbx_evt (f : Mbx → Mbx) : (s.modMbx f).evt = s.evt := rfl
@[simp] theorem State.modMbx_regions (f : Mbx → Mbx) : (s.modMbx f).regions = s.regions := rfl
@[simp] theorem State.modMbx_kettle (f : Mbx → Mbx) : (s.modMbx f).kettle = s.kettle := rfl
@[simp] theorem State.modMbx_therm (f : Mbx → Mbx) : (s.modMbx f).therm = s.therm := rfl
@[simp] theorem State.modMbx_clk (f : Mbx → Mbx) : (s.modMbx f).clk = s.clk := rfl
@[simp] theorem State.modMbx_xmc (f : Mbx → Mbx) : (s.modMbx f).xmc = s.xmc := rfl
@[simp] theorem State.modMbx_ldr (f : Mbx → Mbx) : (s.modMbx f).ldr = s.ldr := rfl
@[simp] theorem State.modMbx_bist (f : Mbx → Mbx) : (s.modMbx f).bist = s.bist := rfl
@[simp] theorem State.modMbx_iob (f : Mbx → Mbx) : (s.modMbx f).iob = s.iob := rfl
@[simp] theorem State.modMbx_net (f : Mbx → Mbx) : (s.modMbx f).net = s.net := rfl
@[simp] theorem State.modMbx_sched (f : Mbx → Mbx) : (s.modMbx f).sched = s.sched := rfl
@[simp] theorem State.modMbx_plc (f : Mbx → Mbx) : (s.modMbx f).plc = s.plc := rfl
@[simp] theorem State.modMbx_krl (f : Mbx → Mbx) : (s.modMbx f).krl = s.krl := rfl
@[simp] theorem State.modMbx_scrub (f : Mbx → Mbx) : (s.modMbx f).scrub = s.scrub := rfl
@[simp] theorem State.modMbx_jrn (f : Mbx → Mbx) : (s.modMbx f).jrn = s.jrn := rfl
@[simp] theorem State.modMbx_sup (f : Mbx → Mbx) : (s.modMbx f).sup = s.sup := rfl
@[simp] theorem State.modMbx_lanes (f : Mbx → Mbx) : (s.modMbx f).lanes = s.lanes := rfl
@[simp] theorem State.modMbx_crcs (f : Mbx → Mbx) : (s.modMbx f).crcs = s.crcs := rfl
@[simp] theorem State.modMbx_mbx (f : Mbx → Mbx) : (s.modMbx f).mbx = f s.mbx := rfl
@[simp] theorem State.modMbx_bankMem (f : Mbx → Mbx) : (s.modMbx f).bankMem = s.bankMem := rfl
@[simp] theorem State.modMbx_bankSyn (f : Mbx → Mbx) : (s.modMbx f).bankSyn = s.bankSyn := rfl

/-! ### Updates that are other names of these -/

theorem State.raise_eq (f : Fld) : s.raise f = s.wr f 1 := rfl
theorem State.bump_eq (f : Fld) (n : Nat) : s.bump f n = s.wr f (satAdd f.width (s.rd f) n) := rfl
theorem State.count_eq (f : Fld) (n : Nat) : s.count f n = s.wr f (s.rd f + n) := rfl
theorem State.modRegion_eq (n : Nat) (f : Region → Region) : s.modRegion n f = s.setRegion n (f (s.region n)) := rfl

/-! ### Register fields -/

/-- A register field after a write of one: the value cut to its width, every other field as before. -/
theorem State.rd_wr (f g : Fld) (v : Nat) :
    (s.wr f v).rd g = if f.key = g.key then v % 2 ^ f.width else s.rd g := by
  simp only [State.rd, State.wr_regs, Tbl.get_put]

@[simp] theorem State.rd_wr_same (f : Fld) (v : Nat) : (s.wr f v).rd f = v % 2 ^ f.width := by
  simp only [State.rd_wr, if_true]

theorem State.rd_wr_other (f g : Fld) (v : Nat) (h : f.key ≠ g.key) : (s.wr f v).rd g = s.rd g := by
  simp only [State.rd_wr, if_neg h]

/-- Setting a flag field sets it. -/
theorem State.rd_raise (f : Fld) (h : 0 < f.width) : (s.raise f).rd f = 1 := by
  rw [State.raise_eq, State.rd_wr_same]
  exact Nat.mod_eq_of_lt (Nat.one_lt_two_pow (Nat.pos_iff_ne_zero.mp h))

/-- A saturating count fits its field. -/
theorem satAdd_lt (w v n : Nat) : satAdd w v n < 2 ^ w := by
  unfold satAdd
  have := Nat.two_pow_pos w
  split <;> omega

/-- A counter after its count. -/
theorem State.rd_bump (f : Fld) (n : Nat) : (s.bump f n).rd f = satAdd f.width (s.rd f) n := by
  rw [State.bump_eq, State.rd_wr_same, Nat.mod_eq_of_lt (satAdd_lt _ _ _)]

/-! ### Regions -/

theorem State.region_setRegion (n m : Nat) (r : Region) :
    (s.setRegion n r).region m = if n = m then r else s.region m := by
  simp only [State.region, State.setRegion_regions, Tbl.get_set]

@[simp] theorem State.region_setRegion_same (n : Nat) (r : Region) : (s.setRegion n r).region n = r := by
  simp only [State.region_setRegion, if_true]

@[simp] theorem State.region_modRegion_same (n : Nat) (f : Region → Region) :
    (s.modRegion n f).region n = f (s.region n) := by
  rw [State.modRegion_eq, State.region_setRegion_same]

end Sys2Proof.Machine
end

