-- ==== Sys2Proof/Laws/Chip.lean ====
section
/-! SUPPORT. What the chip's changes of state leave: POR, OFF, SAFE, LOAD. -/

namespace Sys2Proof.Machine

theorem State.housekeeping_regs (s : State) : s.housekeeping.regs = resetRegs := rfl
theorem State.housekeeping_chip (s : State) : s.housekeeping.chip = {} := rfl

/-- The chip in POR. -/
theorem State.toPor_chip (s : State) : s.toPor.chip = {} := by
  unfold State.toPor
  extract_lets x1 x2 x3
  have h : x3.chip = {} := State.housekeeping_chip x2
  simp only [State.wr_chip, h]

/-- Registers in POR read their Reset values, SUP_LOCK apart (R43, R659). -/
theorem State.toPor_rd (s : State) (f : Fld) (hf : f.key ∉ [SUP_LOCK_VALID.key, SUP_LOCK_WHERE.key, SUP_LOCK_PC.key]) :
    s.toPor.rd f = State.reset.rd f := by
  simp only [List.mem_cons, not_or, List.not_mem_nil, not_false_eq_true, and_true] at hf
  obtain ⟨a, b, c⟩ := hf
  unfold State.toPor
  extract_lets x1 x2 x3
  rw [State.rd_wr_other _ _ _ _ (Ne.symm c), State.rd_wr_other _ _ _ _ (Ne.symm b), State.rd_wr_other _ _ _ _ (Ne.symm a)]
  show Tbl.get x3.regs 0 f.key = Tbl.get resetRegs 0 f.key
  rw [show x3.regs = resetRegs from State.housekeeping_regs x2]

theorem State.toOff_chip (s : State) : s.toOff.chip = { state := .off } := rfl
theorem State.toOff_log (s : State) : s.toOff.log = {} := rfl
theorem State.toOff_bankMem (s : State) : s.toOff.bankMem = [] := rfl
theorem State.toLoad_chip (s : State) : s.toLoad.chip = { state := .load } := rfl

/-- A frame by Keeps: the chip's own state, but for degraded health and restarts of its watchdog. -/
theorem Keeps.core {q : List Instr} {m : Option Memory} {c : Chip} {t : State} (h : Keeps ⟨q, m, some c⟩ t) :
    t.chip.core = c.core := h.4 c rfl

/-- What holds of any sound state of itself. -/
theorem Keeps.self {s : State} (h : s.Inv) : Keeps ⟨s.pending, some s.bankMem, some s.chip⟩ s :=
  ⟨rfl, h, (by intro m e; cases e; rfl), (by intro c e; cases e; rfl)⟩

/-- A frame by Keeps: the bytes of the banks. -/
theorem Keeps.bank {q : List Instr} {m : Memory} {c : Option Chip} {t : State} (h : Keeps ⟨q, some m, c⟩ t) :
    t.bankMem = m := h.3 m rfl

end Sys2Proof.Machine
end

