-- ==== Sys2Proof/Laws/Log.lean ====
section
/-! SUPPORT. Writing a record changes the event log and its count of records given up (02 R58), nothing else. -/

namespace Sys2Proof.Machine

/-- `t` is `s` but for the event log and SYS_LOG_STATUS.LOST. -/
structure LogOnly (s t : State) : Prop where
  eq : t = { s with log := t.log, regs := t.regs }
  rd : ∀ f : Fld, f.key ≠ SYS_LOG_STATUS_LOST.key → t.rd f = s.rd f

theorem LogOnly.refl (s : State) : LogOnly s s := ⟨rfl, fun _ _ => rfl⟩

theorem LogOnly.trans {s t u : State} (h : LogOnly s t) (g : LogOnly t u) : LogOnly s u :=
  ⟨by rw [g.eq, h.eq], fun f hf => (g.rd f hf).trans (h.rd f hf)⟩

theorem LogOnly.log {s t : State} {l : EventLog} (h : LogOnly s t) : LogOnly s { t with log := l } :=
  ⟨by rw [h.eq], h.rd⟩

theorem LogOnly.lost {s t : State} {v : Nat} (h : LogOnly s t) : LogOnly s (t.wr SYS_LOG_STATUS_LOST v) :=
  ⟨by rw [h.eq]; rfl, fun f hf => (State.rd_wr_other _ _ _ _ (Ne.symm hf)).trans (h.rd f hf)⟩

variable (s : State)

theorem State.logPut_only (r : LogRec) : LogOnly s (s.logPut r) := by
  unfold State.logPut
  split
  · exact ((LogOnly.refl s).log.lost).log
  · exact (LogOnly.refl s).log

theorem State.logLostNow_only : LogOnly s s.logLostNow := (s.logPut_only _).log

theorem State.logRec_only (r : LogRec) : LogOnly s (s.logRec r) := by
  unfold State.logRec
  extract_lets x
  have h : LogOnly s x := s.logPut_only r
  split
  · exact h
  · split
    · exact h.trans x.logLostNow_only
    · split
      · exact h.trans x.logLostNow_only
      · exact h

theorem State.logEv_only (c k st u d : Nat) : LogOnly s (s.logEv c k st u d) := s.logRec_only _

theorem State.logLimited_only (sc : Nat) (r : LogRec) : LogOnly s (s.logLimited sc r) := by
  unfold State.logLimited
  extract_lets mine
  split
  · exact (s.logRec_only _).log
  · split
    · exact (s.logRec_only _).log
    · exact (LogOnly.refl s).log

theorem State.logEvLimited_only (sc c k st u d : Nat) : LogOnly s (s.logEvLimited sc c k st u d) := s.logLimited_only sc _

theorem State.logMerged_only (e : Nat) (r : LogRec) : LogOnly s (s.logMerged e r) := by
  unfold State.logMerged
  extract_lets go
  have h : LogOnly s (go s) := (s.logRec_only _).log
  split
  · exact h
  · extract_lets old
    split
    · exact (LogOnly.refl s).log
    · exact h

theorem State.endRun_only (e : Nat) : LogOnly s (s.endRun e) := (LogOnly.refl s).log

theorem LogOnly.pending {s t : State} (h : LogOnly s t) : t.pending = s.pending := by rw [h.eq]
theorem LogOnly.cyc {s t : State} (h : LogOnly s t) : t.cyc = s.cyc := by rw [h.eq]
theorem LogOnly.freeCount {s t : State} (h : LogOnly s t) : t.freeCount = s.freeCount := by rw [h.eq]
theorem LogOnly.rsp {s t : State} (h : LogOnly s t) : t.rsp = s.rsp := by rw [h.eq]
theorem LogOnly.imgRegs {s t : State} (h : LogOnly s t) : t.imgRegs = s.imgRegs := by rw [h.eq]
theorem LogOnly.chip {s t : State} (h : LogOnly s t) : t.chip = s.chip := by rw [h.eq]
theorem LogOnly.tb {s t : State} (h : LogOnly s t) : t.tb = s.tb := by rw [h.eq]
theorem LogOnly.evt {s t : State} (h : LogOnly s t) : t.evt = s.evt := by rw [h.eq]
theorem LogOnly.regions {s t : State} (h : LogOnly s t) : t.regions = s.regions := by rw [h.eq]
theorem LogOnly.kettle {s t : State} (h : LogOnly s t) : t.kettle = s.kettle := by rw [h.eq]
theorem LogOnly.therm {s t : State} (h : LogOnly s t) : t.therm = s.therm := by rw [h.eq]
theorem LogOnly.clk {s t : State} (h : LogOnly s t) : t.clk = s.clk := by rw [h.eq]
theorem LogOnly.xmc {s t : State} (h : LogOnly s t) : t.xmc = s.xmc := by rw [h.eq]
theorem LogOnly.ldr {s t : State} (h : LogOnly s t) : t.ldr = s.ldr := by rw [h.eq]
theorem LogOnly.bist {s t : State} (h : LogOnly s t) : t.bist = s.bist := by rw [h.eq]
theorem LogOnly.iob {s t : State} (h : LogOnly s t) : t.iob = s.iob := by rw [h.eq]
theorem LogOnly.net {s t : State} (h : LogOnly s t) : t.net = s.net := by rw [h.eq]
theorem LogOnly.sched {s t : State} (h : LogOnly s t) : t.sched = s.sched := by rw [h.eq]
theorem LogOnly.plc {s t : State} (h : LogOnly s t) : t.plc = s.plc := by rw [h.eq]
theorem LogOnly.krl {s t : State} (h : LogOnly s t) : t.krl = s.krl := by rw [h.eq]
theorem LogOnly.scrub {s t : State} (h : LogOnly s t) : t.scrub = s.scrub := by rw [h.eq]
theorem LogOnly.jrn {s t : State} (h : LogOnly s t) : t.jrn = s.jrn := by rw [h.eq]
theorem LogOnly.sup {s t : State} (h : LogOnly s t) : t.sup = s.sup := by rw [h.eq]
theorem LogOnly.lanes {s t : State} (h : LogOnly s t) : t.lanes = s.lanes := by rw [h.eq]
theorem LogOnly.crcs {s t : State} (h : LogOnly s t) : t.crcs = s.crcs := by rw [h.eq]
theorem LogOnly.mbx {s t : State} (h : LogOnly s t) : t.mbx = s.mbx := by rw [h.eq]
theorem LogOnly.bankMem {s t : State} (h : LogOnly s t) : t.bankMem = s.bankMem := by rw [h.eq]
theorem LogOnly.bankSyn {s t : State} (h : LogOnly s t) : t.bankSyn = s.bankSyn := by rw [h.eq]

@[simp] theorem State.logRec_pending (r : LogRec) : (s.logRec r).pending = s.pending := (s.logRec_only r).pending
@[simp] theorem State.logRec_cyc (r : LogRec) : (s.logRec r).cyc = s.cyc := (s.logRec_only r).cyc
@[simp] theorem State.logRec_freeCount (r : LogRec) : (s.logRec r).freeCount = s.freeCount := (s.logRec_only r).freeCount
@[simp] theorem State.logRec_rsp (r : LogRec) : (s.logRec r).rsp = s.rsp := (s.logRec_only r).rsp
@[simp] theorem State.logRec_imgRegs (r : LogRec) : (s.logRec r).imgRegs = s.imgRegs := (s.logRec_only r).imgRegs
@[simp] theorem State.logRec_chip (r : LogRec) : (s.logRec r).chip = s.chip := (s.logRec_only r).chip
@[simp] theorem State.logRec_tb (r : LogRec) : (s.logRec r).tb = s.tb := (s.logRec_only r).tb
@[simp] theorem State.logRec_evt (r : LogRec) : (s.logRec r).evt = s.evt := (s.logRec_only r).evt
@[simp] theorem State.logRec_regions (r : LogRec) : (s.logRec r).regions = s.regions := (s.logRec_only r).regions
@[simp] theorem State.logRec_kettle (r : LogRec) : (s.logRec r).kettle = s.kettle := (s.logRec_only r).kettle
@[simp] theorem State.logRec_therm (r : LogRec) : (s.logRec r).therm = s.therm := (s.logRec_only r).therm
@[simp] theorem State.logRec_clk (r : LogRec) : (s.logRec r).clk = s.clk := (s.logRec_only r).clk
@[simp] theorem State.logRec_xmc (r : LogRec) : (s.logRec r).xmc = s.xmc := (s.logRec_only r).xmc
@[simp] theorem State.logRec_ldr (r : LogRec) : (s.logRec r).ldr = s.ldr := (s.logRec_only r).ldr
@[simp] theorem State.logRec_bist (r : LogRec) : (s.logRec r).bist = s.bist := (s.logRec_only r).bist
@[simp] theorem State.logRec_iob (r : LogRec) : (s.logRec r).iob = s.iob := (s.logRec_only r).iob
@[simp] theorem State.logRec_net (r : LogRec) : (s.logRec r).net = s.net := (s.logRec_only r).net
@[simp] theorem State.logRec_sched (r : LogRec) : (s.logRec r).sched = s.sched := (s.logRec_only r).sched
@[simp] theorem State.logRec_plc (r : LogRec) : (s.logRec r).plc = s.plc := (s.logRec_only r).plc
@[simp] theorem State.logRec_krl (r : LogRec) : (s.logRec r).krl = s.krl := (s.logRec_only r).krl
@[simp] theorem State.logRec_scrub (r : LogRec) : (s.logRec r).scrub = s.scrub := (s.logRec_only r).scrub
@[simp] theorem State.logRec_jrn (r : LogRec) : (s.logRec r).jrn = s.jrn := (s.logRec_only r).jrn
@[simp] theorem State.logRec_sup (r : LogRec) : (s.logRec r).sup = s.sup := (s.logRec_only r).sup
@[simp] theorem State.logRec_lanes (r : LogRec) : (s.logRec r).lanes = s.lanes := (s.logRec_only r).lanes
@[simp] theorem State.logRec_crcs (r : LogRec) : (s.logRec r).crcs = s.crcs := (s.logRec_only r).crcs
@[simp] theorem State.logRec_mbx (r : LogRec) : (s.logRec r).mbx = s.mbx := (s.logRec_only r).mbx
@[simp] theorem State.logRec_bankMem (r : LogRec) : (s.logRec r).bankMem = s.bankMem := (s.logRec_only r).bankMem
@[simp] theorem State.logRec_bankSyn (r : LogRec) : (s.logRec r).bankSyn = s.bankSyn := (s.logRec_only r).bankSyn
theorem State.logRec_rd (r : LogRec) (f : Fld) (hf : f.key ≠ SYS_LOG_STATUS_LOST.key) : (s.logRec r).rd f = s.rd f :=
  (s.logRec_only r).rd f hf

@[simp] theorem State.logEv_pending (c k st u d : Nat) : (s.logEv c k st u d).pending = s.pending := (s.logEv_only c k st u d).pending
@[simp] theorem State.logEv_cyc (c k st u d : Nat) : (s.logEv c k st u d).cyc = s.cyc := (s.logEv_only c k st u d).cyc
@[simp] theorem State.logEv_freeCount (c k st u d : Nat) : (s.logEv c k st u d).freeCount = s.freeCount := (s.logEv_only c k st u d).freeCount
@[simp] theorem State.logEv_rsp (c k st u d : Nat) : (s.logEv c k st u d).rsp = s.rsp := (s.logEv_only c k st u d).rsp
@[simp] theorem State.logEv_imgRegs (c k st u d : Nat) : (s.logEv c k st u d).imgRegs = s.imgRegs := (s.logEv_only c k st u d).imgRegs
@[simp] theorem State.logEv_chip (c k st u d : Nat) : (s.logEv c k st u d).chip = s.chip := (s.logEv_only c k st u d).chip
@[simp] theorem State.logEv_tb (c k st u d : Nat) : (s.logEv c k st u d).tb = s.tb := (s.logEv_only c k st u d).tb
@[simp] theorem State.logEv_evt (c k st u d : Nat) : (s.logEv c k st u d).evt = s.evt := (s.logEv_only c k st u d).evt
@[simp] theorem State.logEv_regions (c k st u d : Nat) : (s.logEv c k st u d).regions = s.regions := (s.logEv_only c k st u d).regions
@[simp] theorem State.logEv_kettle (c k st u d : Nat) : (s.logEv c k st u d).kettle = s.kettle := (s.logEv_only c k st u d).kettle
@[simp] theorem State.logEv_therm (c k st u d : Nat) : (s.logEv c k st u d).therm = s.therm := (s.logEv_only c k st u d).therm
@[simp] theorem State.logEv_clk (c k st u d : Nat) : (s.logEv c k st u d).clk = s.clk := (s.logEv_only c k st u d).clk
@[simp] theorem State.logEv_xmc (c k st u d : Nat) : (s.logEv c k st u d).xmc = s.xmc := (s.logEv_only c k st u d).xmc
@[simp] theorem State.logEv_ldr (c k st u d : Nat) : (s.logEv c k st u d).ldr = s.ldr := (s.logEv_only c k st u d).ldr
@[simp] theorem State.logEv_bist (c k st u d : Nat) : (s.logEv c k st u d).bist = s.bist := (s.logEv_only c k st u d).bist
@[simp] theorem State.logEv_iob (c k st u d : Nat) : (s.logEv c k st u d).iob = s.iob := (s.logEv_only c k st u d).iob
@[simp] theorem State.logEv_net (c k st u d : Nat) : (s.logEv c k st u d).net = s.net := (s.logEv_only c k st u d).net
@[simp] theorem State.logEv_sched (c k st u d : Nat) : (s.logEv c k st u d).sched = s.sched := (s.logEv_only c k st u d).sched
@[simp] theorem State.logEv_plc (c k st u d : Nat) : (s.logEv c k st u d).plc = s.plc := (s.logEv_only c k st u d).plc
@[simp] theorem State.logEv_krl (c k st u d : Nat) : (s.logEv c k st u d).krl = s.krl := (s.logEv_only c k st u d).krl
@[simp] theorem State.logEv_scrub (c k st u d : Nat) : (s.logEv c k st u d).scrub = s.scrub := (s.logEv_only c k st u d).scrub
@[simp] theorem State.logEv_jrn (c k st u d : Nat) : (s.logEv c k st u d).jrn = s.jrn := (s.logEv_only c k st u d).jrn
@[simp] theorem State.logEv_sup (c k st u d : Nat) : (s.logEv c k st u d).sup = s.sup := (s.logEv_only c k st u d).sup
@[simp] theorem State.logEv_lanes (c k st u d : Nat) : (s.logEv c k st u d).lanes = s.lanes := (s.logEv_only c k st u d).lanes
@[simp] theorem State.logEv_crcs (c k st u d : Nat) : (s.logEv c k st u d).crcs = s.crcs := (s.logEv_only c k st u d).crcs
@[simp] theorem State.logEv_mbx (c k st u d : Nat) : (s.logEv c k st u d).mbx = s.mbx := (s.logEv_only c k st u d).mbx
@[simp] theorem State.logEv_bankMem (c k st u d : Nat) : (s.logEv c k st u d).bankMem = s.bankMem := (s.logEv_only c k st u d).bankMem
@[simp] theorem State.logEv_bankSyn (c k st u d : Nat) : (s.logEv c k st u d).bankSyn = s.bankSyn := (s.logEv_only c k st u d).bankSyn
theorem State.logEv_rd (c k st u d : Nat) (f : Fld) (hf : f.key ≠ SYS_LOG_STATUS_LOST.key) : (s.logEv c k st u d).rd f = s.rd f :=
  (s.logEv_only c k st u d).rd f hf

@[simp] theorem State.logLimited_pending (sc : Nat) (r : LogRec) : (s.logLimited sc r).pending = s.pending := (s.logLimited_only sc r).pending
@[simp] theorem State.logLimited_cyc (sc : Nat) (r : LogRec) : (s.logLimited sc r).cyc = s.cyc := (s.logLimited_only sc r).cyc
@[simp] theorem State.logLimited_freeCount (sc : Nat) (r : LogRec) : (s.logLimited sc r).freeCount = s.freeCount := (s.logLimited_only sc r).freeCount
@[simp] theorem State.logLimited_rsp (sc : Nat) (r : LogRec) : (s.logLimited sc r).rsp = s.rsp := (s.logLimited_only sc r).rsp
@[simp] theorem State.logLimited_imgRegs (sc : Nat) (r : LogRec) : (s.logLimited sc r).imgRegs = s.imgRegs := (s.logLimited_only sc r).imgRegs
@[simp] theorem State.logLimited_chip (sc : Nat) (r : LogRec) : (s.logLimited sc r).chip = s.chip := (s.logLimited_only sc r).chip
@[simp] theorem State.logLimited_tb (sc : Nat) (r : LogRec) : (s.logLimited sc r).tb = s.tb := (s.logLimited_only sc r).tb
@[simp] theorem State.logLimited_evt (sc : Nat) (r : LogRec) : (s.logLimited sc r).evt = s.evt := (s.logLimited_only sc r).evt
@[simp] theorem State.logLimited_regions (sc : Nat) (r : LogRec) : (s.logLimited sc r).regions = s.regions := (s.logLimited_only sc r).regions
@[simp] theorem State.logLimited_kettle (sc : Nat) (r : LogRec) : (s.logLimited sc r).kettle = s.kettle := (s.logLimited_only sc r).kettle
@[simp] theorem State.logLimited_therm (sc : Nat) (r : LogRec) : (s.logLimited sc r).therm = s.therm := (s.logLimited_only sc r).therm
@[simp] theorem State.logLimited_clk (sc : Nat) (r : LogRec) : (s.logLimited sc r).clk = s.clk := (s.logLimited_only sc r).clk
@[simp] theorem State.logLimited_xmc (sc : Nat) (r : LogRec) : (s.logLimited sc r).xmc = s.xmc := (s.logLimited_only sc r).xmc
@[simp] theorem State.logLimited_ldr (sc : Nat) (r : LogRec) : (s.logLimited sc r).ldr = s.ldr := (s.logLimited_only sc r).ldr
@[simp] theorem State.logLimited_bist (sc : Nat) (r : LogRec) : (s.logLimited sc r).bist = s.bist := (s.logLimited_only sc r).bist
@[simp] theorem State.logLimited_iob (sc : Nat) (r : LogRec) : (s.logLimited sc r).iob = s.iob := (s.logLimited_only sc r).iob
@[simp] theorem State.logLimited_net (sc : Nat) (r : LogRec) : (s.logLimited sc r).net = s.net := (s.logLimited_only sc r).net
@[simp] theorem State.logLimited_sched (sc : Nat) (r : LogRec) : (s.logLimited sc r).sched = s.sched := (s.logLimited_only sc r).sched
@[simp] theorem State.logLimited_plc (sc : Nat) (r : LogRec) : (s.logLimited sc r).plc = s.plc := (s.logLimited_only sc r).plc
@[simp] theorem State.logLimited_krl (sc : Nat) (r : LogRec) : (s.logLimited sc r).krl = s.krl := (s.logLimited_only sc r).krl
@[simp] theorem State.logLimited_scrub (sc : Nat) (r : LogRec) : (s.logLimited sc r).scrub = s.scrub := (s.logLimited_only sc r).scrub
@[simp] theorem State.logLimited_jrn (sc : Nat) (r : LogRec) : (s.logLimited sc r).jrn = s.jrn := (s.logLimited_only sc r).jrn
@[simp] theorem State.logLimited_sup (sc : Nat) (r : LogRec) : (s.logLimited sc r).sup = s.sup := (s.logLimited_only sc r).sup
@[simp] theorem State.logLimited_lanes (sc : Nat) (r : LogRec) : (s.logLimited sc r).lanes = s.lanes := (s.logLimited_only sc r).lanes
@[simp] theorem State.logLimited_crcs (sc : Nat) (r : LogRec) : (s.logLimited sc r).crcs = s.crcs := (s.logLimited_only sc r).crcs
@[simp] theorem State.logLimited_mbx (sc : Nat) (r : LogRec) : (s.logLimited sc r).mbx = s.mbx := (s.logLimited_only sc r).mbx
@[simp] theorem State.logLimited_bankMem (sc : Nat) (r : LogRec) : (s.logLimited sc r).bankMem = s.bankMem := (s.logLimited_only sc r).bankMem
@[simp] theorem State.logLimited_bankSyn (sc : Nat) (r : LogRec) : (s.logLimited sc r).bankSyn = s.bankSyn := (s.logLimited_only sc r).bankSyn
theorem State.logLimited_rd (sc : Nat) (r : LogRec) (f : Fld) (hf : f.key ≠ SYS_LOG_STATUS_LOST.key) : (s.logLimited sc r).rd f = s.rd f :=
  (s.logLimited_only sc r).rd f hf

@[simp] theorem State.logEvLimited_pending (sc c k st u d : Nat) : (s.logEvLimited sc c k st u d).pending = s.pending := (s.logEvLimited_only sc c k st u d).pending
@[simp] theorem State.logEvLimited_cyc (sc c k st u d : Nat) : (s.logEvLimited sc c k st u d).cyc = s.cyc := (s.logEvLimited_only sc c k st u d).cyc
@[simp] theorem State.logEvLimited_freeCount (sc c k st u d : Nat) : (s.logEvLimited sc c k st u d).freeCount = s.freeCount := (s.logEvLimited_only sc c k st u d).freeCount
@[simp] theorem State.logEvLimited_rsp (sc c k st u d : Nat) : (s.logEvLimited sc c k st u d).rsp = s.rsp := (s.logEvLimited_only sc c k st u d).rsp
@[simp] theorem State.logEvLimited_imgRegs (sc c k st u d : Nat) : (s.logEvLimited sc c k st u d).imgRegs = s.imgRegs := (s.logEvLimited_only sc c k st u d).imgRegs
@[simp] theorem State.logEvLimited_chip (sc c k st u d : Nat) : (s.logEvLimited sc c k st u d).chip = s.chip := (s.logEvLimited_only sc c k st u d).chip
@[simp] theorem State.logEvLimited_tb (sc c k st u d : Nat) : (s.logEvLimited sc c k st u d).tb = s.tb := (s.logEvLimited_only sc c k st u d).tb
@[simp] theorem State.logEvLimited_evt (sc c k st u d : Nat) : (s.logEvLimited sc c k st u d).evt = s.evt := (s.logEvLimited_only sc c k st u d).evt
@[simp] theorem State.logEvLimited_regions (sc c k st u d : Nat) : (s.logEvLimited sc c k st u d).regions = s.regions := (s.logEvLimited_only sc c k st u d).regions
@[simp] theorem State.logEvLimited_kettle (sc c k st u d : Nat) : (s.logEvLimited sc c k st u d).kettle = s.kettle := (s.logEvLimited_only sc c k st u d).kettle
@[simp] theorem State.logEvLimited_therm (sc c k st u d : Nat) : (s.logEvLimited sc c k st u d).therm = s.therm := (s.logEvLimited_only sc c k st u d).therm
@[simp] theorem State.logEvLimited_clk (sc c k st u d : Nat) : (s.logEvLimited sc c k st u d).clk = s.clk := (s.logEvLimited_only sc c k st u d).clk
@[simp] theorem State.logEvLimited_xmc (sc c k st u d : Nat) : (s.logEvLimited sc c k st u d).xmc = s.xmc := (s.logEvLimited_only sc c k st u d).xmc
@[simp] theorem State.logEvLimited_ldr (sc c k st u d : Nat) : (s.logEvLimited sc c k st u d).ldr = s.ldr := (s.logEvLimited_only sc c k st u d).ldr
@[simp] theorem State.logEvLimited_bist (sc c k st u d : Nat) : (s.logEvLimited sc c k st u d).bist = s.bist := (s.logEvLimited_only sc c k st u d).bist
@[simp] theorem State.logEvLimited_iob (sc c k st u d : Nat) : (s.logEvLimited sc c k st u d).iob = s.iob := (s.logEvLimited_only sc c k st u d).iob
@[simp] theorem State.logEvLimited_net (sc c k st u d : Nat) : (s.logEvLimited sc c k st u d).net = s.net := (s.logEvLimited_only sc c k st u d).net
@[simp] theorem State.logEvLimited_sched (sc c k st u d : Nat) : (s.logEvLimited sc c k st u d).sched = s.sched := (s.logEvLimited_only sc c k st u d).sched
@[simp] theorem State.logEvLimited_plc (sc c k st u d : Nat) : (s.logEvLimited sc c k st u d).plc = s.plc := (s.logEvLimited_only sc c k st u d).plc
@[simp] theorem State.logEvLimited_krl (sc c k st u d : Nat) : (s.logEvLimited sc c k st u d).krl = s.krl := (s.logEvLimited_only sc c k st u d).krl
@[simp] theorem State.logEvLimited_scrub (sc c k st u d : Nat) : (s.logEvLimited sc c k st u d).scrub = s.scrub := (s.logEvLimited_only sc c k st u d).scrub
@[simp] theorem State.logEvLimited_jrn (sc c k st u d : Nat) : (s.logEvLimited sc c k st u d).jrn = s.jrn := (s.logEvLimited_only sc c k st u d).jrn
@[simp] theorem State.logEvLimited_sup (sc c k st u d : Nat) : (s.logEvLimited sc c k st u d).sup = s.sup := (s.logEvLimited_only sc c k st u d).sup
@[simp] theorem State.logEvLimited_lanes (sc c k st u d : Nat) : (s.logEvLimited sc c k st u d).lanes = s.lanes := (s.logEvLimited_only sc c k st u d).lanes
@[simp] theorem State.logEvLimited_crcs (sc c k st u d : Nat) : (s.logEvLimited sc c k st u d).crcs = s.crcs := (s.logEvLimited_only sc c k st u d).crcs
@[simp] theorem State.logEvLimited_mbx (sc c k st u d : Nat) : (s.logEvLimited sc c k st u d).mbx = s.mbx := (s.logEvLimited_only sc c k st u d).mbx
@[simp] theorem State.logEvLimited_bankMem (sc c k st u d : Nat) : (s.logEvLimited sc c k st u d).bankMem = s.bankMem := (s.logEvLimited_only sc c k st u d).bankMem
@[simp] theorem State.logEvLimited_bankSyn (sc c k st u d : Nat) : (s.logEvLimited sc c k st u d).bankSyn = s.bankSyn := (s.logEvLimited_only sc c k st u d).bankSyn
theorem State.logEvLimited_rd (sc c k st u d : Nat) (f : Fld) (hf : f.key ≠ SYS_LOG_STATUS_LOST.key) : (s.logEvLimited sc c k st u d).rd f = s.rd f :=
  (s.logEvLimited_only sc c k st u d).rd f hf

@[simp] theorem State.logMerged_pending (e : Nat) (r : LogRec) : (s.logMerged e r).pending = s.pending := (s.logMerged_only e r).pending
@[simp] theorem State.logMerged_cyc (e : Nat) (r : LogRec) : (s.logMerged e r).cyc = s.cyc := (s.logMerged_only e r).cyc
@[simp] theorem State.logMerged_freeCount (e : Nat) (r : LogRec) : (s.logMerged e r).freeCount = s.freeCount := (s.logMerged_only e r).freeCount
@[simp] theorem State.logMerged_rsp (e : Nat) (r : LogRec) : (s.logMerged e r).rsp = s.rsp := (s.logMerged_only e r).rsp
@[simp] theorem State.logMerged_imgRegs (e : Nat) (r : LogRec) : (s.logMerged e r).imgRegs = s.imgRegs := (s.logMerged_only e r).imgRegs
@[simp] theorem State.logMerged_chip (e : Nat) (r : LogRec) : (s.logMerged e r).chip = s.chip := (s.logMerged_only e r).chip
@[simp] theorem State.logMerged_tb (e : Nat) (r : LogRec) : (s.logMerged e r).tb = s.tb := (s.logMerged_only e r).tb
@[simp] theorem State.logMerged_evt (e : Nat) (r : LogRec) : (s.logMerged e r).evt = s.evt := (s.logMerged_only e r).evt
@[simp] theorem State.logMerged_regions (e : Nat) (r : LogRec) : (s.logMerged e r).regions = s.regions := (s.logMerged_only e r).regions
@[simp] theorem State.logMerged_kettle (e : Nat) (r : LogRec) : (s.logMerged e r).kettle = s.kettle := (s.logMerged_only e r).kettle
@[simp] theorem State.logMerged_therm (e : Nat) (r : LogRec) : (s.logMerged e r).therm = s.therm := (s.logMerged_only e r).therm
@[simp] theorem State.logMerged_clk (e : Nat) (r : LogRec) : (s.logMerged e r).clk = s.clk := (s.logMerged_only e r).clk
@[simp] theorem State.logMerged_xmc (e : Nat) (r : LogRec) : (s.logMerged e r).xmc = s.xmc := (s.logMerged_only e r).xmc
@[simp] theorem State.logMerged_ldr (e : Nat) (r : LogRec) : (s.logMerged e r).ldr = s.ldr := (s.logMerged_only e r).ldr
@[simp] theorem State.logMerged_bist (e : Nat) (r : LogRec) : (s.logMerged e r).bist = s.bist := (s.logMerged_only e r).bist
@[simp] theorem State.logMerged_iob (e : Nat) (r : LogRec) : (s.logMerged e r).iob = s.iob := (s.logMerged_only e r).iob
@[simp] theorem State.logMerged_net (e : Nat) (r : LogRec) : (s.logMerged e r).net = s.net := (s.logMerged_only e r).net
@[simp] theorem State.logMerged_sched (e : Nat) (r : LogRec) : (s.logMerged e r).sched = s.sched := (s.logMerged_only e r).sched
@[simp] theorem State.logMerged_plc (e : Nat) (r : LogRec) : (s.logMerged e r).plc = s.plc := (s.logMerged_only e r).plc
@[simp] theorem State.logMerged_krl (e : Nat) (r : LogRec) : (s.logMerged e r).krl = s.krl := (s.logMerged_only e r).krl
@[simp] theorem State.logMerged_scrub (e : Nat) (r : LogRec) : (s.logMerged e r).scrub = s.scrub := (s.logMerged_only e r).scrub
@[simp] theorem State.logMerged_jrn (e : Nat) (r : LogRec) : (s.logMerged e r).jrn = s.jrn := (s.logMerged_only e r).jrn
@[simp] theorem State.logMerged_sup (e : Nat) (r : LogRec) : (s.logMerged e r).sup = s.sup := (s.logMerged_only e r).sup
@[simp] theorem State.logMerged_lanes (e : Nat) (r : LogRec) : (s.logMerged e r).lanes = s.lanes := (s.logMerged_only e r).lanes
@[simp] theorem State.logMerged_crcs (e : Nat) (r : LogRec) : (s.logMerged e r).crcs = s.crcs := (s.logMerged_only e r).crcs
@[simp] theorem State.logMerged_mbx (e : Nat) (r : LogRec) : (s.logMerged e r).mbx = s.mbx := (s.logMerged_only e r).mbx
@[simp] theorem State.logMerged_bankMem (e : Nat) (r : LogRec) : (s.logMerged e r).bankMem = s.bankMem := (s.logMerged_only e r).bankMem
@[simp] theorem State.logMerged_bankSyn (e : Nat) (r : LogRec) : (s.logMerged e r).bankSyn = s.bankSyn := (s.logMerged_only e r).bankSyn
theorem State.logMerged_rd (e : Nat) (r : LogRec) (f : Fld) (hf : f.key ≠ SYS_LOG_STATUS_LOST.key) : (s.logMerged e r).rd f = s.rd f :=
  (s.logMerged_only e r).rd f hf

@[simp] theorem State.endRun_pending (e : Nat) : (s.endRun e).pending = s.pending := (s.endRun_only e).pending
@[simp] theorem State.endRun_cyc (e : Nat) : (s.endRun e).cyc = s.cyc := (s.endRun_only e).cyc
@[simp] theorem State.endRun_freeCount (e : Nat) : (s.endRun e).freeCount = s.freeCount := (s.endRun_only e).freeCount
@[simp] theorem State.endRun_rsp (e : Nat) : (s.endRun e).rsp = s.rsp := (s.endRun_only e).rsp
@[simp] theorem State.endRun_imgRegs (e : Nat) : (s.endRun e).imgRegs = s.imgRegs := (s.endRun_only e).imgRegs
@[simp] theorem State.endRun_chip (e : Nat) : (s.endRun e).chip = s.chip := (s.endRun_only e).chip
@[simp] theorem State.endRun_tb (e : Nat) : (s.endRun e).tb = s.tb := (s.endRun_only e).tb
@[simp] theorem State.endRun_evt (e : Nat) : (s.endRun e).evt = s.evt := (s.endRun_only e).evt
@[simp] theorem State.endRun_regions (e : Nat) : (s.endRun e).regions = s.regions := (s.endRun_only e).regions
@[simp] theorem State.endRun_kettle (e : Nat) : (s.endRun e).kettle = s.kettle := (s.endRun_only e).kettle
@[simp] theorem State.endRun_therm (e : Nat) : (s.endRun e).therm = s.therm := (s.endRun_only e).therm
@[simp] theorem State.endRun_clk (e : Nat) : (s.endRun e).clk = s.clk := (s.endRun_only e).clk
@[simp] theorem State.endRun_xmc (e : Nat) : (s.endRun e).xmc = s.xmc := (s.endRun_only e).xmc
@[simp] theorem State.endRun_ldr (e : Nat) : (s.endRun e).ldr = s.ldr := (s.endRun_only e).ldr
@[simp] theorem State.endRun_bist (e : Nat) : (s.endRun e).bist = s.bist := (s.endRun_only e).bist
@[simp] theorem State.endRun_iob (e : Nat) : (s.endRun e).iob = s.iob := (s.endRun_only e).iob
@[simp] theorem State.endRun_net (e : Nat) : (s.endRun e).net = s.net := (s.endRun_only e).net
@[simp] theorem State.endRun_sched (e : Nat) : (s.endRun e).sched = s.sched := (s.endRun_only e).sched
@[simp] theorem State.endRun_plc (e : Nat) : (s.endRun e).plc = s.plc := (s.endRun_only e).plc
@[simp] theorem State.endRun_krl (e : Nat) : (s.endRun e).krl = s.krl := (s.endRun_only e).krl
@[simp] theorem State.endRun_scrub (e : Nat) : (s.endRun e).scrub = s.scrub := (s.endRun_only e).scrub
@[simp] theorem State.endRun_jrn (e : Nat) : (s.endRun e).jrn = s.jrn := (s.endRun_only e).jrn
@[simp] theorem State.endRun_sup (e : Nat) : (s.endRun e).sup = s.sup := (s.endRun_only e).sup
@[simp] theorem State.endRun_lanes (e : Nat) : (s.endRun e).lanes = s.lanes := (s.endRun_only e).lanes
@[simp] theorem State.endRun_crcs (e : Nat) : (s.endRun e).crcs = s.crcs := (s.endRun_only e).crcs
@[simp] theorem State.endRun_mbx (e : Nat) : (s.endRun e).mbx = s.mbx := (s.endRun_only e).mbx
@[simp] theorem State.endRun_bankMem (e : Nat) : (s.endRun e).bankMem = s.bankMem := (s.endRun_only e).bankMem
@[simp] theorem State.endRun_bankSyn (e : Nat) : (s.endRun e).bankSyn = s.bankSyn := (s.endRun_only e).bankSyn
theorem State.endRun_rd (e : Nat) (f : Fld) (hf : f.key ≠ SYS_LOG_STATUS_LOST.key) : (s.endRun e).rd f = s.rd f :=
  (s.endRun_only e).rd f hf

theorem State.logChip_only (o n : ChipState) (m : Nat) (st : Option Nat) : LogOnly s (s.logChip o n m st) :=
  s.logRec_only _

end Sys2Proof.Machine
end

