-- ==== Sys2Proof/Tests/Slice0.lean ====
section
/-! SUPPORT. The model's own tests: what the checks refuse, single steps whose results the spec gives, and for each
statement of Obligations.lean a state and operands that meet its hypotheses, clause by clause. -/

namespace Sys2Proof.Tests

open Sys2Proof Sys2Proof.Machine

section

set_option Elab.async false
/-- The state after a command. -/
def ran (o : Host.Outcome State Fault Refusal) : State :=
  match o with
  | .next t => t
  | _ => {}

/-- The chip in a state, everything else empty. -/
def chipIn (c : ChipState) : State := { chip := { state := c } }

/-- The fields of `l` at their values. -/
def fields (s : State) (l : List (Fld × Nat)) : State := l.foldl (fun s x => s.wr x.1 x.2) s

/-- Region 0 in a state. -/
def rgnIn (s : State) (r : RegionState) : State := s.setRegion 0 { state := r }

/-! ### The whole machine -/

theorem test_phase_failure_without_reason_is_ill_formed : (Instr.phaseFailure 0 0 0).wellFormed = false := by decide +kernel

theorem test_phase_failure_of_no_phase_is_ill_formed : (Instr.phaseFailure 0 15 1).wellFormed = false := by decide +kernel

theorem test_image_item_of_another_length_is_ill_formed :
    (Instr.imageItem (.group 0 0 [0] none)).wellFormed = false := by decide +kernel

theorem test_ill_formed_is_refused :
    exec (.phaseFailure 0 0 0) State.reset = .refused (.illFormed "PHASE_FAILURE") ∧
      exec (.imageItem (.group 0 0 [0] none)) State.reset = .refused (.illFormed "IMAGE_ITEM") := ⟨rfl, rfl⟩

theorem test_no_word_spells_a_command : decodeTableWord 32 0 = none ∧ (State.reset.withFetchWord 32 0) = State.reset := by
  decide +kernel

theorem witness_AnEmptyQueueLetsOneTimebaseCyclePass : State.reset.pending = [] := rfl

theorem witness_EveryWellFormedCommandCompletes :
    Instr.vinLow.wellFormed = true ∧ (Instr.phaseFailure 0 0 0).wellFormed = false := by decide +kernel

/-- The states of the tests that are sound by evaluation. -/
theorem sound_of (s : State) (h : Memory.wf s.bankMem = true) (h' : Tbl.wf 0 s.regs = true)
    (o : s.chip.outputs = false) (l : s.chip.hlth = false) : s.Inv :=
  ⟨⟨h, h'⟩, by simp [o], by simp [l]⟩

theorem witness_EveryStepKeepsTheInvariant : State.reset.Inv ∧ step State.reset = .next State.reset.tickTimebase :=
  ⟨sound_of _ rfl (by decide +kernel) rfl rfl, rfl⟩

theorem witness_CommandsLeaveTheQueueAlone : State.reset.Inv ∧ exec .vinLow State.reset = .next State.reset :=
  ⟨sound_of _ rfl (by decide +kernel) rfl rfl, rfl⟩

theorem witness_OnlyBankCommandsReachBankBytes : (Instr.wdk 0).reachesBanks = false ∧ exec (.wdk 0) (chipIn .run) = .next (chipIn .run) :=
  ⟨rfl, rfl⟩

theorem witness_OnlyTheseCommandsChangeTheChipState : (Instr.wdk 0).reachesChipState = false := rfl

/-! ### Chip states, loading, the log (02, 17) -/

theorem witness_SupplyAndResetPinsMoveTheChip :
    (chipIn .off).chip.state = .off ∧ (chipIn .halt).chip.state ≠ .off ∧ (chipIn .halt).chip.state ≠ .por ∧
      (fields (chipIn .por) [(CLK_READY_READY, 1)]).srcReady 0 = true ∧
      ((chipIn .por).srcReady 0 || (chipIn .por).srcReady 1) = false := by decide +kernel

theorem witness_ChipDoubtEntersSafe :
    (chipIn .run).Inv ∧ ({ chipIn .run with sup := { stat := 1 } } : State).supRuns = true ∧
      (let s : State := fields { chip := { state := .start, wdRun := true }, cyc := msCycles } [(SYS_WDOG_PERIOD, 1)]
       s.Inv ∧ s.wdCounts = true ∧ s.chip.wdStart + s.rd SYS_WDOG_PERIOD * msCycles ≤ s.cyc) ∧
      (chipIn .run).supRuns = false ∧ (chipIn .run).wdCounts = false :=
  ⟨sound_of _ rfl rfl rfl rfl, by decide +kernel, ⟨sound_of _ rfl (by decide +kernel) rfl rfl, by decide +kernel, by decide +kernel⟩, by decide +kernel,
    by decide +kernel⟩

/-- A boot record with MAGIC, PRIMARY, DUMMY 4, JSECT 12 and its check value (17 R496). -/
def bootRecord : BitVec 1024 :=
  BitVec.ofNat 1024 (0x54425352 + 0x7 * 2 ^ 32 + 0x200000 * 2 ^ 64 + 0xFFFFFFFF * 2 ^ 96 + 0x20000 * 2 ^ 128 +
    0x30000 * 2 ^ 160 + 0xC0400 * 2 ^ 192 + 0xB90DC9F6 * 2 ^ 992)

/-- The header of a full image of one context with the sections FRAMEINDEX and one other (17 R498). -/
def imageHeader : BitVec 2048 :=
  BitVec.ofNat 2048 (0x524E5354 + 0x180645CE * 2 ^ 32 + 0x1 * 2 ^ 64 + 0x12110 * 2 ^ 96 + 0x1 * 2 ^ 128 +
    0x1 * 2 ^ 192 + 0x100 * 2 ^ 256 + 0x12000 * 2 ^ 288 + 0x12100 * 2 ^ 320 + 0x10 * 2 ^ 352 + 0xBDFB5952 * 2 ^ 2016)

/-- LOAD in a phase. -/
def loadAt (p : Nat) : State := fields (chipIn .load) [(CFG_STATUS_PHASE, p)]

set_option maxRecDepth 100000 in
theorem witness_image_header :
    (loadAt 2).headerCode false (loadAt 2).attemptAddr imageHeader.toNat false = 0 := by decide +kernel

set_option maxRecDepth 100000 in
theorem witness_LoaderReadsTheBootRecordAndTheHeader :
    (loadAt 0).rd CFG_STATUS_PHASE = 0 ∧ (loadAt 1).rd CFG_STATUS_PHASE = 1 ∧
      bootValid bootRecord.toNat = true ∧ bootValid 0 = false ∧ bootSeq 0 < bootSeq bootRecord.toNat ∧
      (loadAt 2).attemptRuns = true ∧ (loadAt 2).rd CFG_STATUS_PHASE = 2 ∧
      (loadAt 2).headerCode false (loadAt 2).attemptAddr 0 false = 1 + 1 ∧
      ({ loadAt 2 with ldr := { failed := some 0 } } : State).ldr.failed.isSome = true := by decide +kernel

/-- The loader at the items, its image that of `imageHeader`. -/
def loadItems : State := { loadAt 4 with ldr := { hdr := headerOf 0 imageHeader.toNat } }

theorem witness_LoaderTakesTheJournalAndTheItems :
    ((loadAt 3).attemptRuns = true ∧ (loadAt 3).rd CFG_STATUS_PHASE = 3 ∧ (loadAt 3).ldr.journalDone = false ∧
        sectorValid ⟨0, []⟩ = false) ∧
      ({ loadAt 3 with ldr := { journalDone := true } } : State).attemptRuns = true ∧
      (loadItems.streaming = true ∧ loadItems.ldr.hdr.isPartial = false ∧ 4607 < groupCount false loadItems.ldr.hdr.ctx ∧
        (loadItems.loadGroup 4607 (63 * 2 ^ 26 + 71 * 2 ^ 16) [] none).1 = 0) ∧
      (loadItems.loadGroup 0 (2 ^ 96) [] none).1 = 11 ∧ crc32c.value [] ≠ bitsOf (2 ^ 96) 127 96 ∧
      ((loadItems.ldr.hdr.sects.getD 1 (0, 0)).2 = 16) ∧ (loadAt 3).streaming = false := by decide +kernel

theorem witness_LoadingEndsInStartAndRun :
    loadItems.Inv ∧ loadItems.streaming = true ∧
      bitOf ({ loadAt 4 with ldr := { hdr := { flags := 1 } } } : State).ldr.hdr.flags 0 = true ∧
      (fields (loadAt 4) [(CFG_STATUS_ATTEMPT, 2)]).rd CFG_STATUS_ATTEMPT = 2 ∧
      ((fields (loadAt 4) [(CFG_STATUS_ATTEMPT, 0)]).rd CFG_STATUS_ATTEMPT = 0 ∧ (loadAt 4).ldr.golden ≠ 0xFFFFFFFF) ∧
      (fields (chipIn .start) [(XMC_CHSTAT_STATE 7, 1)]).rd (XMC_CHSTAT_STATE 7) = 1 ∧
      (let s : State := { chipIn .start with ldr := { started := 1 } }
       s.Inv ∧ s.ldr.started ≠ 0 ∧ s.kettle.startWakes = [] ∧ s.kettle.moves = [] ∧ ∀ c : Nat, c < 8 → s.rd (XMC_CHSTAT_STATE c) ≠ 1) :=
  ⟨sound_of _ rfl (by decide +kernel) rfl rfl, by decide +kernel, by decide +kernel, by decide +kernel, by decide +kernel,
    by decide +kernel, ⟨sound_of _ rfl (by decide +kernel) rfl rfl, by decide +kernel⟩⟩

/-- SAFE while it is being entered, and held. -/
def safeEntry (halt reload : Bool) : State :=
  { chip := { state := .safe, entering := true, haltPending := halt, reloadHeld := reload } }

/-- A HALT by TEMP alone with auto-restart enabled (20 R589). -/
def haltTemp (restarts : List Nat) : State :=
  { fields (chipIn .halt) [(PWR_ARST_EN, 1)] with kettle := { restarts := restarts, haltHot := 639 }, chip := { state := .halt, haltMask := 4 } }

theorem witness_SafeIsLeftByHaltReloadOrReset :
    (safeEntry true false).chip.haltPending = true ∧ (safeEntry false true).chip.reloadHeld = true ∧
      (safeEntry false false).chip.entering = true ∧ bitOf (0x100 : Word).toNat 8 = true ∧ (chipIn .safe).chip.entering = false ∧
      (tempOnly (haltTemp []).chip.haltMask = true ∧ (haltTemp []).flag PWR_ARST_EN = true ∧
        (haltTemp []).flag PWR_STATUS_ARSTOFF = false ∧ (haltTemp [0, 0]).restartsOfHour.length < 3) ∧
      3 ≤ (haltTemp [0, 0, 0]).restartsOfHour.length := by decide +kernel

/-- A region that the watchdog has fenced. -/
def fencedRgn (restarts : List Nat) : State :=
  (chipIn .run).setRegion 63 { state := .fenced, cause := 0x23, restarts := restarts }

theorem witness_WatchdogsCountAndRestart :
    (0xC35A : Word).toNat % 65536 = 0xC35A ∧
      (let s : State := fields { chip := { state := .run, wdRun := true }, cyc := msCycles } [(SYS_WDOG_PERIOD, 2)]
       s.wdCounts = true ∧ s.chip.wdStart + s.rd SYS_WDOG_PERIOD / 2 * msCycles ≤ s.cyc) ∧
      (let s := fields (rgnIn { chipIn .run with cyc := usCycles } .active) [(RGN_WDOG_PERIOD 0, 1)]
       (s.region 0).state = .active ∧ s.rd (RGN_WDOG_PERIOD 0) ≠ 0 ∧ (s.region 0).wdStart + s.rd (RGN_WDOG_PERIOD 0) * usCycles ≤ s.cyc) ∧
      ((fencedRgn [0, 0]).restartReady 63 = true ∧ ((fencedRgn [0, 0]).restartsNow 63).length < 3) ∧
      ((fencedRgn [0, 0, 0]).restartReady 63 = true ∧ 3 ≤ ((fencedRgn [0, 0, 0]).restartsNow 63).length) ∧
      (chipIn .run).restartReady 0 = false := by decide +kernel

theorem witness_EventLogRecordsAndCommands :
    (bitOf (0x8000F000 : Word).toNat 31 = true ∧ bitOf (0x8000F000 : Word).toNat 30 = false ∧ 0xF000 ≤ bitsOf (0x8000F000 : Word).toNat 15 0) ∧
      bitsOf (0x8000EFFF : Word).toNat 15 0 < 0xF000 ∧ bitOf (0x40000000 : Word).toNat 30 = true ∧
      (let s : State := { chipIn .run with cyc := msCycles, log := { lastLost := some 0, given := 1 } }
       s.log.lastLost = some 0 ∧ 0 < s.log.given ∧ 0 + msCycles ≤ s.cyc) ∧
      (let l : RateLimit := ⟨0x1605, 0x3C00D, 0, 1, {}⟩
       l.held ≠ 0 ∧ l.last + msCycles ≤ msCycles ∧ l.code = (0x1605 : BitVec 16).toNat ∧ l.scope = (0x3C00D : BitVec 24).toNat) ∧
      (chipIn .run).log.unread < 1023 ∧ ({ head := 1023 } : EventLog).unread = 1023 := by decide +kernel
/-! ### Power and temperature (20) -/

theorem witness_KettleTakesRequestsAndAdmitsThem :
    (let v : Word := 0x8140003F
     reqGo v.toNat = true ∧ reqKind v.toNat = 0 ∧ bitsOf v.toNat 25 24 < 2 ∧
       (((chipIn .run).setRegion 63 { state := .active }).region (reqRegion v.toNat)).live = true) ∧
      reqGo (0 : Word).toNat = false ∧
      (let v : Word := 0x90000000
       reqGo v.toNat = true ∧ reqKind v.toNat = 1 ∧ (fields (chipIn .run) [(CFG_WAKE_VALID 0, 1)]).flag (CFG_WAKE_VALID 0) = true ∧
         ((chipIn .run).region (reqRegion v.toNat)).state = .dark ∧ (chipIn .run).flag (CFG_WAKE_VALID 0) = false) ∧
      (reqKind (0xA0000000 : Word).toNat = 2 ∧ ((rgnIn (chipIn .run) .active).region 0).state = .active ∧
        ((rgnIn (chipIn .run) .test).region 0).state = .test ∧ ((chipIn .run).region 0).live = false) ∧
      (let a : Action := ⟨0, 4, 0, 0x203, 0, 0, 0, false, some 7⟩
       let o : Occ := ⟨7, 0, 0, false, 0, 0, 11, false⟩
       a.code = 4 ∧ a.target % 64 = 0 ∧ a.occ = some o.id) ∧
      (let s : State := { chipIn .run with kettle := { startWakes := [63] } }
       s.kettleRuns = true ∧ s.rd PWR_KCOST_WAKE * 1500 ≤ s.creditNow) ∧
      (let q : KReq := { region := 0, kind := 0, point := 1, prio := 0, arrived := 0 }
       let s : State := { rgnIn (chipIn .start) .active with kettle := { queue := [q] } }
       s.kettleRuns = true ∧ s.admissible = some q) ∧
      (chipIn .safe).kettleRuns = false := by decide +kernel

theorem witness_KettleAdmitsWhatTheBucketCanPay :
    (let q : KReq := { region := 0, kind := 0, point := 1, prio := 0, arrived := 0 }
     ({ rgnIn (chipIn .run) .active with kettle := { queue := [q, { q with region := 1 }] } } : State).admissible = some q) := by decide +kernel

theorem witness_WakePowerDownAndEnvelope :
    (⟨63, 0, 2, 0⟩ : Waking).path ≠ 4 ∧ (chipIn .run).evt.running = false ∧
      (let s := fields (rgnIn (chipIn .run) .active) [(PWR_RGN_DOWN 0, 1)]
       s.flag (PWR_RGN_DOWN 0) = true ∧ (s.region 0).state = .active ∧ (s.ni 0).drain = false) ∧
      (chipIn .run).flag (PWR_RGN_DOWN 0) = false ∧
      ((chipIn .run).modNi 0 fun i => { i with drain := true }).drained 0 = true ∧ (chipIn .run).drained 0 = false ∧
      (chipIn .load).stackOn = true ∧ (chipIn .run).kettleRuns = true ∧
      5 < phasesBuilt 63 ∧ ({ shed := [63 * 16 + 5] } : Kettle).shed.contains (63 * 16 + 5) = true ∧ phasesBuilt 63 ≤ 6 := by decide +kernel

theorem witness_TemperatureAndDivision :
    (chipIn .halt).stackOn = false ∧ (chipIn .safe).rd THM_CFG_SHUT = 0 ∧ ((-320 : Int) - (-272)).natAbs ≤ 48 ∧
      (let s : State := { fields (chipIn .run) [(THM_CFG_SHUT, 125)] with therm := { hot := [(207, 1)] } }
       s.rd THM_CFG_SHUT ≠ 0 ∧ ((s.rd THM_CFG_SHUT * 8 : Nat) : Int) ≤ 1000 ∧ s.therm.hot.get 0 207 = 1) ∧
      ({ chipIn .run with kettle := { pk := 6 } } : State).skipLevel 63 = 6 ∧
      (∀ m < 64, (chipIn .run).skipLevel m ≤ 2) ∧
      ({ broken := [415] } : Therm).broken.contains 415 = true ∧
      vioInRange 1 86 = true ∧ vioInRange 2 157 = true ∧ vioInRange 1 95 = false := by decide +kernel

theorem witness_TemperatureAndDivision_sound : ({ fields (chipIn .run) [(THM_CFG_SHUT, 125)] with therm := { hot := [(207, 1)] } } : State).Inv :=
  sound_of _ rfl (by decide +kernel) rfl rfl

/-! ### Timebase and event table (03, 04) -/

/-- A running timebase whose source is the SIM ramp. -/
def timebaseOn : State := { chipIn .run with cyc := 16, tb := { running := true, srcAct := 5 } }

theorem witness_EncoderPortsCountQuadrature :
    (let s := fields timebaseOn [(PTB_ENC_CFG_MODE 3, 3)]
     s.tb.running = true ∧ s.tb.startCyc + 16 ≤ s.cyc ∧ s.rd (PTB_ENC_CFG_MODE 3) = 3 ∧ s.flag (PTB_ENC_CFG_DIRINV 3) = false ∧
       (s.port 3).wireA = false ∧ s.tb.srcAct ≠ 3) ∧ (chipIn .run).tb.running = false ∧
      ({ timebaseOn with cyc := 15 } : State).cyc < timebaseOn.tb.startCyc + 16 := by decide +kernel

theorem witness_IndexEdgesAndWireFaults :
    (let s := fields timebaseOn [(PTB_ENC_CFG_INDEX 0, 2), (PTB_ENC_ZCHK_PERREV 0, 4096)]
     let s := s.modPort 0 fun p => { p with zPrev := some 0, cnt := 4095 }
     s.rd (PTB_ENC_CFG_INDEX 0) = 2 ∧ (s.port 0).z = false ∧ (s.port 0).wireZ = false ∧ s.flag (PTB_ENC_CFG_ZQUAL 0) = false ∧
       ((s.port 0).cnt - 0).natAbs ≠ s.rd (PTB_ENC_ZCHK_PERREV 0)) ∧
      (fields timebaseOn [(PTB_ENC_CFG_INDEX 0, 1)]).rd (PTB_ENC_CFG_INDEX 0) = 1 ∧ timebaseOn.rd (PTB_ENC_CFG_INDEX 0) = 0 ∧
      ((timebaseOn.modPort 0 fun p => { p with wireA := true }).port 0).getWire .a = true ∧ (timebaseOn.port 0).getWire .a = false ∧
      timebaseOn.tb.srcAct ≠ 0 ∧ EncInput.a ≠ .z ∧
      (let s : State := { timebaseOn with tb := { timebaseOn.tb with srcAct := 0 } }
       s.tb.running = true ∧ s.tb.srcAct = 0 ∧ (s.port 0).faulted = false) := by decide +kernel

theorem witness_TimebaseRegistersAndBus :
    timebaseOn.tb.running = true ∧ timebaseOn.tb.srcAct = 5 ∧ (chipIn .run).tb.running = false ∧
      (0 < (0x7FFFFFFF : Word).toInt ∧ (0x80000000 : Word).toInt < 0) ∧ bitOf (0x10 : Word).toNat 4 = true ∧
      bitOf (0xFFFFFFEF : Word).toNat 4 = false := by decide +kernel

/-- An entry of ACTION `act` for either direction, its point at 1 count, enabled or not (04 R108). -/
def anEntry (act tgt : Nat) (en : Bool) : BitVec 256 :=
  BitVec.ofNat 256 (1 + act * 2 ^ 160 + 2 * 2 ^ 164 + tgt * 2 ^ 168 + b2n en * 2 ^ 240 + 2 ^ 244)

/-- The matcher running, its track at `m` counts, entry 32,767 in the window from 0 on. -/
def matcherOn (e : BitVec 256) (m : Int) : State :=
  { timebaseOn with tb := { timebaseOn.tb with mtrack := m * countUnit }
                    evt := { running := true, entries := [(32767, e)], judged := [(32767, 0)], handCyc := 0 } }

theorem witness_TheEventTableIsChangedByItsRules :
    eEn ((chipIn .run).entry 0) = false ∧ eEn ((matcherOn (anEntry 11 0 true) 0).entry 32767) = true ∧
      entryOk (eWithWord (anEntry 11 0 false) 7 (setBit 0 16)) = true ∧
      entryOk (eWithWord (anEntry 0 32 false) 7 (setBit 0 16)) = false := by decide +kernel

theorem witness_TheMatcherMakesAndClosesOccurrences :
    (let s := matcherOn (anEntry 11 0 true) 1
     let e := s.entry 32767
     s.evt.running = true ∧ s.krl.hold = false ∧ s.evt.handCyc ≠ s.cyc ∧ eEn e = true ∧ eDirq e = 2 ∧ eOnce e = false ∧
       eAction e = 11 ∧ ePeriod e = 0 ∧ 0 < ePos e ∧ ePos e ≤ s.tb.mtrack) ∧
      (let s := matcherOn (anEntry 11 0 true) 0
       0 ≤ s.tb.mtrack ∧ s.tb.mtrack < ePos (s.entry 32767)) ∧
      (let s := matcherOn (anEntry 11 0 true) 1
       s.canHand ⟨0, 32767, countUnit, false, 0, 0, 0, false⟩ = true) ∧
      (let s := matcherOn (anEntry 11 0 true) 2
       let o : Occ := ⟨0, 32767, countUnit, false, 11, 0, 14, false⟩
       s.missedAtOnce 32767 = false ∧ s.tolPassed o = true ∧ o.cyc + 5 ≤ s.cyc ∧ eMissIrq (s.entry 32767) = true) := by decide +kernel

theorem witness_ActionsReachOutputsAndInterrupts :
    (let a : Action := ⟨0, 0, 31, 90, 0, 0, 0, false, none⟩
     a.target % 32 = 31 ∧ a.code = 0 ∧ ({ a with code := 1 } : Action).code = 1 ∧ ({ a with code := 2 } : Action).code = 2 ∧
       ({ a with code := 11 } : Action).code = 11) ∧
      ((chipIn .run).evt.evos.get {} 31).edges = [] ∧
      (fields (chipIn .run) [(EVT_EVO_CFG_OWNER 31, 64)]).evoOwner 31 = 64 ∧
      ((chipIn .run).evoOwner 0 < 64 ∧ ((rgnIn (chipIn .run) .test).region ((chipIn .run).evoOwner 0)).state = .test) := by decide +kernel

/-! ### Fabric, contexts, sensors (05, 06) -/

theorem witness_FlipFlopsLoadInitOrDOrHold :
    (let w : Line := BitVec.ofNat 128 (7 * 2 ^ 91)
     let r : Region := { state := .active, fab := { cfg := [(cfgKey 0 2351 1 31, w)] } }
     let s := (chipIn .run).setRegion 63 r
     (s.ni 63).drain = false ∧ (s.region 63).fab.cfg.get 0#128 (cfgKey 0 2351 1 31) = w ∧ (cfgKey 0 2351 1 31, w) ∈ (s.region 63).fab.cfg ∧
       ffClkW (wFf w.toNat false) = false ∧ bitOf ({} : FabricPins).spines.toNat (ffClk (wFf w.toNat false)) = true ∧
       ffSr (wFf w.toNat false) = true ∧ ffCe (wFf w.toNat false) = true ∧ ffCe (wFf 0 false) = false) := by decide +kernel

theorem witness_ContextRequestsAreRegisteredOrRefused :
    (let a : Action := ⟨0, 3, 63, 7, 0, 0, 0, false, none⟩
     a.code = 3 ∧ a.target % 64 = 63) ∧ ((rgnIn (chipIn .run) .active).region 0).state = .active ∧
      ((rgnIn (chipIn .run) .test).region 0).ctx.supHeld = none ∧ ((chipIn .run).region 0).live = false ∧
      bitOf (0x80000007 : Word).toNat 31 = true ∧ bitOf (7 : Word).toNat 31 = false := by decide +kernel

/-- Region 0 ACTIVE with contexts 0 and 7 loaded and requests registered. -/
def ctxState (reqs : List CtxReqst) (since : Option Nat) : State :=
  (chipIn .run).setRegion 0 { state := .active, ctx := { loaded := 0x81, reqs := reqs, heldSince := since } }

theorem witness_ContextSwitchSelectsTheRankedRequest :
    (let q : CtxReqst := ⟨0, 7, 0, 0⟩
     let p : CtxReqst := ⟨1, 7, 0, 0⟩
     let s := ctxState [p, q] (some 0)
     s.ctxReason 0 q = none ∧ s.ctxReason 0 p = none ∧ s.steepHolds 0 7 = false ∧ q.ctx ≠ (s.region 0).ctx.active ∧
       s.ctxBusy 0 0 7 = (0, 0) ∧ (s.region 0).ctx.supHeld = none) ∧
      bitOf ((ctxState [] none).region 0).ctx.loaded 1 = false ∧ ((ctxState [] none).region 0).ctx.heldSince = none := by decide +kernel

/-- Input pair 47 of bank 7 in use and locked, its owner region 63. -/
def pairState (locked : Nat) : State :=
  let s : State := { chip := { state := .run, outputs := true, windows := true } }
  (fields s [(IOB_SBP_EN 7 47, 1), (IOB_SBP_ROW 7 47, 7), (IOB_SB_LOCK_HI_LOCK 7, locked)]).setRegion 63 { state := .active }

theorem witness_LiftContentionAndSensorPairs :
    ((chipIn .run).region 0).state ≠ .active ∧ (rgnIn (chipIn .run) .active).flag (RGN_FAB_CFG_LIFTPOL 0) = false ∧
      (chipIn .run).pairIn 0 0 = false ∧
      ((pairState 0x8000).pairIn 7 47 = true ∧ (pairState 0x8000).pairLocked 7 47 = true ∧
        63 = 7 + 8 * (pairState 0x8000).rd (IOB_SBP_ROW 7 47) ∧ ((pairState 0x8000).region 63).live = true ∧
        (((pairState 0x8000).region 63).fab.sensors.get [] 47).length < 8) ∧
      8 ≤ ((({ sensors := [(47, [1, 2, 3, 4, 5, 6, 7, 8])] } : Fabric).sensors.get [] 47).length) ∧
      (pairState 0).pairLocked 7 47 = false := by decide +kernel

/-! ### Memory tier and error correction (07, 13) -/

/-- Bank 47 of region 63 served by physical bank 49 for the fabric. -/
def bankServed : State :=
  (fields (chipIn .run) [(MEM_BANK_OWN_OWNER 63 47, 1), (MEM_BANK_OWN_PHYS 63 47, 49)]).setRegion 63 { state := .active }

theorem witness_BankOperationsByTheFabric : bankServed.FabricServed 63 47 49 ∧ bankServed.bankSyn.get 0 (bankServed.bankAt 63 49 16383) = 0 := by
  unfold State.FabricServed; decide +kernel

/-- R202: the sum of lane 3 wraps and no other lane changes. -/
theorem test_add32_wraps_in_its_lane :
    (let a := bankServed.bankAt 63 49 16383
     let s := bankServed.setLineAt a (BitVec.ofNat 128 (0xFFFFFFFF * 2 ^ 96 + 5)) 0
     ((ran (exec (.bankAdd32 63 47 (.fabric 16383 0xF000 2)) s)).lineAt a).toNat = 2 ^ 96 + 5) := by decide +kernel

theorem witness_BankOwnershipAndCopies :
    (let s := fields (chipIn .run) [(MEM_BANK_OWN_BUSY 63 47, 1)]
     s.flag (MEM_BANK_OWN_BUSY 63 47) = true ∧ bitsOf (1 : Word).toNat 2 0 ≠ s.rd (MEM_BANK_OWN_OWNER 63 47)) ∧
      (5 ≤ bitsOf (5 : Word).toNat 2 0 ∧ bitsOf (0x192 : Word).toNat 2 0 = 2 ∧ 24 < bitsOf (0x192 : Word).toNat 8 4) ∧
      (let v : Word := 0x982
       bitsOf v.toNat 2 0 ≠ (chipIn .run).rd (MEM_BANK_OWN_OWNER 0 0) ∧ bitsOf v.toNat 8 4 ≤ 24 ∧ bitOf v.toNat 11 = true ∧
         (chipIn .run).flag (MEM_BANK_OWN_PLC 0 0) = false) ∧
      (⟨0, 0, 0, 0⟩ : Handover).left = 0 ∧ 0 < (⟨0, 0, 0, 1⟩ : Handover).left ∧
      (let s := (chipIn .run).setRegion 0 { mem := { rowQueue := [(49, 1023)] } }
       s.rd (MEM_ROWUSE_USED 0 49) < 16 ∧ (s.region 0).mem.rowMap.get 0 (49 * 1024 + 1023) = 0 ∧
         ∀ i < 16, s.bankSyn.get 0 (bankWord 0 49 (1023 * 16 + i)) = 0) ∧
      (fields (chipIn .run) [(MEM_COPY_STATE 0, 1)]).rd (MEM_COPY_STATE 0) = 1 ∧ (chipIn .run).rd (MEM_COPY_STATE 0) ≠ 1 := by decide +kernel

theorem witness_V144CorrectsOneBitAndFindsTwo : (0 : Fin 144) ≠ 143 := by decide

theorem witness_ErrorCorrectionCommands :
    ((chipIn .run).eccOf 64).wbs = [] ∧
      (let s := fields (rgnIn (chipIn .run) .active) [(ECC_CFG_PATROL 0, 1)]
       s.flag (ECC_CFG_PATROL 0) = true ∧ (s.region 0).state ≠ .dark ∧ s.bankSyn.get 0 (bankWord 0 49 0) = 0) ∧
      (rgnIn (chipIn .run) .active).flag (ECC_CFG_EPATROL 0) = false ∧ (chipIn .run).sup.eng.syn.get 0 4095 = 0 ∧
      (bitOf (0xA0000000 : Word).toNat 31 = true ∧ bitsOf (0xA0000000 : Word).toNat 30 29 ≠ 0 ∧
        bitsOf (0x80000000 : Word).toNat 30 29 = 0) := by decide +kernel

theorem witness_ErrorCorrectionCommands_patrol :
    (({ state := .active } : Region).patrolFrom 49 0 1040 0) = some 0 := by decide +kernel
/-! ### Engines (08, 09) -/

/-- Engine 24 of region 63 in RUN at address 0x010, otherwise as `g` says. -/
def engOn (g : Engine) : State :=
  (chipIn .run).setRegion 63 { state := .active, engs := [(24, { g with state := .run })] }

/-- The supervisor in RUN. -/
def supOn : State := { chipIn .run with sup := { stat := 1, eng := { state := .run } } }

theorem engine_free : (engOn {}).EngineFree (.rgn 63 24) := by
  unfold State.EngineFree State.EngineReady Engine.Timely; decide +kernel

theorem supervisor_free : supOn.EngineFree .sup := by
  unfold State.EngineFree State.EngineReady Engine.Timely; decide +kernel

theorem witness_EngineArithmeticOnOneAccumulator : (engOn {}).EngineFree (.rgn 63 24) ∧ ({} : Par).dm.kind = 0 ∧ ({} : Par).km.kind = 0 ∧
    ({ sa := 3, sb := 3 } : Par).sa.val < 4 ∧ 6 ≤ ({ sa := 7 } : Par).sa.val ∧ 1 ≤ ({ sd := 1 } : Par).count ∧
    ((chipIn .run).eng (.rgn 0 0)).state ≠ .run :=
  ⟨engine_free, by decide +kernel⟩

theorem witness_counts : (∃ p : Par, p.count = 55) ∧ (∃ p : Par, p.count = 56) ∧ ({} : Par).count = 0 :=
  ⟨⟨{ sc := 6, sd := 7 }, by decide +kernel⟩, ⟨{ sc := 7 }, by decide +kernel⟩, by decide +kernel⟩

theorem witness_EngineDualOperationsAndMoves : (engOn {}).EngineFree (.rgn 63 24) ∧ supOn.EngineFree .sup ∧ (4 : Fin 8).val < 5 ∧
    ((engOn {}).eng (.rgn 63 24)).pend = [] ∧
    ({ toEng := [(24, [⟨1, false⟩])] } : Fabric).toEng.get [] 24 = [⟨1, false⟩] ∧
    (((engOn {}).region 63).fab.fromEng.get [] 24).length < 64 := ⟨engine_free, supervisor_free, by decide +kernel⟩

theorem witness_EngineRegisterMovesAndImmediates : (engOn {}).EngineFree (.rgn 63 24) ∧ ((engOn {}).eng (.rgn 63 24)).pend = [] :=
  ⟨engine_free, by decide +kernel⟩

theorem witness_PointersAreUpdatedInTheirBuffers :
    (let g : Engine := { main := { r := [(0x12, 138), (0x1A, 100), (0x22, 40), (0x2A, 3)] } }
     let v := ((engOn g).eng (.rgn 63 24)).sees
     v.reg 0x12 = 138 ∧ v.reg 0x1A = 100 ∧ v.reg 0x22 = 40 ∧ signedOf 15 (v.reg 0x2A) = 3 ∧ signedOf 15 32763 = -5) := by decide +kernel

theorem witness_PointersAreUpdatedInTheirBuffers_free :
    (engOn { main := { r := [(0x12, 138), (0x1A, 100), (0x22, 40), (0x2A, 3)] } }).EngineFree (.rgn 63 24) := by
  unfold State.EngineFree State.EngineReady Engine.Timely; decide +kernel

/-- R226: the example with AP2 = 138, AM2 = 3. -/
theorem test_update_wraps_in_its_buffer :
    ((ran (exec (.update (.rgn 63 24) false 3 2) (engOn { main := { r := [(0x12, 138), (0x1A, 100), (0x22, 40), (0x2A, 3)] } }))).eng
      (.rgn 63 24)).cur.reg 0x12 = 101 := by decide +kernel

/-- R226: the examples with AM2 = -5 and with a pointer outside the buffer. -/
theorem test_updated_pointers : ptrStep 102 100 40 (-5) = 137 ∧ ptrStep 10 100 40 1 = 131 := by decide

theorem witness_EngineTransfersTakeTwoDelaySlots :
    (engOn {}).EngineFree (.rgn 63 24) ∧ (engOn { xfer := some ⟨2, .jump 5, 16⟩ }).EngineReady (.rgn 63 24) ∧
      (engOn { xfer := some ⟨1, .wait, 16⟩, tmr := 2 }).irqNow (.rgn 63 24) = none ∧ (16 : Fin 4096).val < 17 :=
  ⟨engine_free, by unfold State.EngineReady Engine.Timely; decide +kernel, by decide +kernel⟩

theorem witness_EngineTransfersTakeTwoDelaySlots_end :
    (engOn { sh := true, xfer := some ⟨1, .rti, 16⟩ }).EngineReady (.rgn 63 24) ∧
      (engOn { main := { r := [(0x30, 1), (0x31, 3), (0x32, 16), (0x33, 2 ^ 9)] } }).EngineReady (.rgn 63 24) ∧
      (let s := engOn { main := { r := [(0x30, 1), (0x31, 3), (0x32, 16), (0x33, 2 ^ 9)] } }
       let e := s.eng (.rgn 63 24)
       bitOf (e.sees.reg 0x33) 9 = true ∧ e.sees.reg 0x32 = e.cur.pc ∧ e.sees.reg 0x30 = 1) :=
  ⟨by unfold State.EngineReady Engine.Timely; decide +kernel, by unfold State.EngineReady Engine.Timely; decide +kernel, by decide +kernel⟩

theorem witness_EngineWindowRequests :
    (engOn {}).EngineFree (.rgn 63 24) ∧ (engOn {}).bankHolds (.rgn 63 24) 47 = false ∧ supOn.EngineFree .sup ∧ supOn.sup.eng.pend = [] ∧
      ((engOn {}).eng (.rgn 63 24)).outst = [] ∧ statusDone 0 = true ∧ statusDone 0xB = false ∧
      (engOn {}).flag (ENG_BERR_VALID 63 24) = false ∧
      (fields (engOn {}) [(ENG_BERR_VALID 63 24, 1)]).flag (ENG_BERR_VALID 63 24) = true :=
  ⟨engine_free, by decide +kernel, supervisor_free, by decide +kernel⟩

theorem witness_SystemLoadsAndStores :
    supOn.EngineFree .sup ∧ supOn.sup.eng.pend = [] ∧ supOn.chip.state = .run ∧ (addrRegion (0x1FFFFFC : Word).toNat).isSome = true ∧
      (engOn {}).EngineFree (.rgn 63 24) ∧ statusDone 1 = true :=
  ⟨supervisor_free, by decide +kernel, by decide +kernel, by decide +kernel, engine_free, by decide +kernel⟩

theorem witness_EngineInterruptsTimerStopAndAccess :
    (let s := engOn { main := { r := [(0x33, 2 ^ 13)] }, ipend := 0x14 }
     let s := fields s [(ENG_CTRL_IMASK 63 24, 0xFF)]
     let e := s.eng (.rgn 63 24)
     e.pend = [] ∧ e.state = .run ∧ e.xfer = none ∧ e.resumed = false ∧ e.sh = false ∧ s.irqNow (.rgn 63 24) = some 4 ∧
       bitOf (e.main.reg 0x33) 13 = true ∧ bitOf e.ipend 4 = true ∧ bitOf (s.rd (ENG_CTRL_IMASK 63 24)) 4 = true) ∧
      ((fields (engOn {}) [(ENG_CTRL_STOP 63 24, 1)]).flag (ENG_CTRL_STOP 63 24) = true) ∧
      (let s := fields (engOn {}) [(ENG_MADDR_MEM 63 24, 1), (ENG_MADDR_ADDR 63 24, 16383)]
       s.rd (ENG_MADDR_MEM 63 24) = 1 ∧ s.rd (ENG_MADDR_ADDR 63 24) = 16383 ∧ (s.eng (.rgn 63 24)).failed = false) ∧
      ((fields (engOn {}) [(ENG_MADDR_MEM 63 24, 2)]).rd (ENG_MADDR_MEM 63 24) = 2) ∧
      ((engOn { main := { tag := [(3, true)] } }).eng (.rgn 63 24)).cur.tagged 3 = true := by decide +kernel

theorem witness_EngineArithmeticInIntegers : (2 : Nat) ^ 56 - 1 < 2 ^ 56 ∧ (round56 (2 ^ 23)).2 = false ∧ (2 ^ 23) % 2 ^ 24 = 2 ^ 23 ∧
    (-(2 ^ 55) : Int) ≤ 2 ^ 55 - 1 := by decide +kernel
/-! ### Network (12) -/

/-- A packet from NI 0 with TID 5. -/
def aPkt (typ opc addr : Nat) : Packet := { typ := typ, opc := opc, src := 0, tid := 5, addr := addr, be := 0xFFFF }

/-- Region 63 in a state; its NI can answer NI 0 and reach destination 0, and has ejected `l`. -/
def niWith (st : RegionState) (l : List Packet) : State :=
  ((chipIn .run).setRegion 63 { state := st }).modNi 63 fun i => { i with inbox := l, routes := [(0, 2 ^ 31)], streams := [(0, 2 ^ 31)] }

theorem niWith_routes : (niWith .active []).lookup 63 1 = .error 4 ∧ (niWith .active []).lookup 63 0 = .ok (false, 0, 0) := ⟨rfl, rfl⟩

theorem witness_RequestsLeaveWithTidAndRoute :
    (let s := niWith .active []
     (s.region 63).live = true ∧ (s.ni 63).out < 256 ∧ 
       (s.ni 63).nextTid < 4096 ∧ (s.ni 63).tids.any (fun e => e.1 == (s.ni 63).nextTid) = false ∧ s.routerFaulted (s.niAt 63) = false) ∧
      ((chipIn .run).region 0).live = false ∧
      256 ≤ ({ tids := (List.range 256).map fun k => (k, ⟨false, 1, 0, .unit⟩) } : Ni).out := by decide +kernel

theorem witness_BankRequestsOfTheNetwork :
    (niWith .active [aPkt 0 0x07 0xBFFF00]).NiOpen 63 (aPkt 0 0x07 0xBFFF00) ∧
      (let p := aPkt 0 0x07 0xBFFF00
       let s := fields (niWith .active [p]) [(MEM_BANK_OWN_OWNER 63 47, 4), (MEM_BANK_OWN_PHYS 63 47, 49)]
       s.NetBank 63 49 16 p) ∧
      (let p := aPkt 0 0x08 0
       let s := fields (niWith .active [p]) [(MEM_BANK_OWN_OWNER 63 0, 3)]
       s.netOwns 63 0 72 = true ∧ s.netOwns 63 0 0 = false ∧ s.rd (MEM_BANK_OWN_STEAL 63 0) = 0 ∧ p.psn = 0) :=
  ⟨by unfold State.NiOpen; decide +kernel, by unfold State.NetBank; decide +kernel, by decide +kernel⟩

theorem witness_NetworkTargetsTakeRefuseAndHold :
    (let p := aPkt 0 0x10 0
     (niWith .fenced [p]).canReply 63 0 = true ∧ (niWith .fenced [p]).oldestRequest 63 0x10 = some p ∧ (niWith .fenced [p]).niRefuses 63 = true ∧
       (niWith .test [p]).niRefuses 63 = false ∧ (niWith .test [p]).gateOf (unitId 63 4 0) = 0 ∧ (niWith .test [p]).oldestRequest 63 0x11 = none) ∧
      (let p := { aPkt 0 0x10 0 with toktgt := 63 * 2 ^ 11 + 255 * 8 + 7 }
       let s := (niWith .active [p]).modSch 63 fun c => { c with descs := [(255, 0x8780#512)] }
       bitsOf p.toktgt 16 11 = 63 ∧ s.rd TRC_CTRL_MODE ≠ 2 ∧ dEn ((s.sch 63).desc 255) = true ∧ bitOf (dMask ((s.sch 63).desc 255)) 7 = true ∧
         ((s.sch 63).slot 255).flags.find? (fun g => g.1 == 7) = none) ∧
      ((aPkt 0 0x11 7).addr < 8 ∧ 8 ≤ (aPkt 0 0x11 8).addr ∧ bitOf ({ aPkt 0 0x11 0 with psn := 1 } : Packet).psn 0 = true) ∧
      (let a := 0x1010000 + 63 * 0x40000
       let s := niWith .fenced [aPkt 3 0x18 a]
       (s.region 63).state ≠ .dark ∧ s.rd (ENG_CTRL_IMASK 63 0) < 256 ∧ s.rd (ENG_CTRL_STOP 63 0) < 2 ∧ addrRegion a = some 63 ∧
         addrRegion 0x1010000 ≠ some 63 ∧ s.oldestRequest 63 0x18 = some (aPkt 3 0x18 a)) := by decide +kernel

theorem witness_AnswersTimeoutsAndDropsAtTheSource :
    (let p := aPkt 1 0x30 0
     let s := niWith .active [p]
     (s.ni 63).locals = [] ∧ (s.ni 63).inbox = [p] ∧ p.typ = 1 ∧ (s.ni 63).tids.find? (fun x => x.1 == p.tid) = none ∧ (s.ni 63).waiting = []) ∧
      (let e : TidEntry := ⟨true, 1, 0, .unit⟩
       ([(5, e)] : Tbl TidEntry).find? (fun x => x.1 == 5) = some (5, e) ∧ e.timedOut = true ∧
         ([(5, { e with timedOut := false })] : Tbl TidEntry).find? (fun x => x.1 == 5 && !x.2.timedOut) ≠ none) ∧
      ((niWith .active []).net.queues.get [] (queueKey 63 7 3 true) = []) ∧
      ({ chipIn .run with net := { queues := [(queueKey 63 7 3 true, [aPkt 3 0x18 0])] } } : State).net.queues.get [] (queueKey 63 7 3 true) =
        [aPkt 3 0x18 0] := by decide +kernel

/-- Router 63 with a packet that leaves by `out`. -/
def hopFrom (out : Nat) : State :=
  { chipIn .run with net := { queues := [(queueKey 63 4 0 false, [{ aPkt 0 0x01 0 with route := if out < 4 then 7 * 2 ^ 21 + out else 0xFFFFFF }])] } }

theorem witness_RoutersHopFailAndFlip :
    (hopFrom 3).hopPick 63 3 = some (queueKey 63 4 0 false, { aPkt 0 0x01 0 with route := 7 * 2 ^ 21 + 3 }) ∧
      (hopFrom 4).hopPick 63 4 = some (queueKey 63 4 0 false, { aPkt 0 0x01 0 with route := 0xFFFFFF }) ∧
      (hopFrom 3).linkDead 63 3 = false ∧ (hopFrom 3).routerFaulted (hopTo 63 3) = false ∧ portNi 63 0 = some 63 ∧
      (fields (hopFrom 3) [(RTR_LINK_DEAD 63 3, 1)]).linkDead 63 3 = true ∧ (chipIn .run).hopPick 63 3 = none ∧
      (let x : LedgerItem := ⟨63, aPkt 2 0x20 0⟩
       ([x].find? fun x => x.router == 63) = some x ∧ x.pkt.src < 64 ∧ (niWith .active []).sourceGone 63 = false) ∧
      (let f : Flip := { marking := false, start := 0 }
       let s : State := { chipIn .run with net := { flip := some f } }
       f.writing = false ∧ s.inFlight (!s.epoch) = false ∧ s.net.failing = [] ∧ f.marks = []) := by decide +kernel

theorem witness_StreamPacketsMarksAndRouteEntries :
    (let s := niWith .active []
     (s.region 63).state = .active ∧ (s.region 63).fab.opens.find? (fun x => x.1 == 7) = none ∧ entryValid ((s.ni 63).streams.get 0 0) = true ∧
       bitsOf ((s.ni 63).streams.get 0 0) 6 0 = 0 ∧ s.routerFaulted (s.niAt 63) = false ∧
       entryValid ((s.ni 63).streams.get 0 63) = false) ∧
      ((⟨0, 10, 63, 1, 0, 0, 0, false, none⟩ : Action).code = 10 ∧ (⟨0, 10, 63, 1, 0, 0, 0, false, none⟩ : Action).target % 64 = 63) ∧
      ((niWith .fenced [aPkt 2 0x20 7]).niRefuses 63 = true ∧ (niWith .active []).sourceGone 63 = false ∧ (niWith .test []).niRefuses 63 = false ∧
        bitOf ((fields (niWith .active [aPkt 2 0x20 7]) [(CTX_PUSE_HI_STREAM 63 0, 128)]).rd (CTX_PUSE_HI_STREAM 63 0)) 7 = true) ∧
      (let s := fields (chipIn .run) [(niFld NI_RADDR_EPOCH 0, 1), (niFld NI_RADDR_INDEX 0, 1)]
       s.rd (niFld NI_RADDR_SPACE 0) = 0 ∧ s.rd (niFld NI_RADDR_EPOCH 0) ≠ b2n s.epoch ∧ s.badRoute 0 1 (2 ^ 31 + 0xFFFFF8) = false ∧
         s.badRoute 0 2 (2 ^ 31 + 0xFFFFF8) = true) ∧
      ((chipIn .run).modNi 63 fun i => { i with drain := true }).drained 63 = true := by decide +kernel

/-! ### Scheduler, placement (10, 11) -/

/-- Region 63 with a scheduler. -/
def schIs (c : Sched) : State := (chipIn .run).setRegion 63 { state := .active, sch := c, engs := [(24, { state := .wait })] }

theorem witness_TokensSlotsAndTables :
    (let s := schIs { descs := [(255, 0x8780#512)] }
     dEn ((s.sch 63).desc 255) = true ∧ bitOf (dMask ((s.sch 63).desc 255)) 7 = true ∧ ((s.sch 63).slot 255).flags.find? (fun g => g.1 == 7) = none ∧
       dMask ((s.sch 63).desc 255) = 2 ^ 7 ∧ dTrigf ((s.sch 63).desc 255) = 7 ∧ bitOf (dMask ((s.sch 63).desc 255)) 0 = false) ∧
      (let x := bitsOf (0x8001FFFF : Word).toNat 16 0
       bitOf (0x8001FFFF : Word).toNat 31 = true ∧ bitsOf x 16 11 = 63 ∧ bitsOf x 10 3 = 255 ∧ bitsOf x 2 0 = 7) ∧
      bitsOf (63 * 2 ^ 11 + 255 * 2 ^ 3 + 7) 16 11 = 63 ∧
      (let g := 2 ^ 25 + (63 * 2 ^ 11 + 255 * 2 ^ 3 + 7) * 2 ^ 8
       bitOf (bitsOf g 25 8) 17 = true ∧ bitsOf (bitsOf g 25 8) 16 11 = 63 ∧ ∀ j < 4, j ≠ 0 → bitOf (bitsOf g (25 + 18 * j) (8 + 18 * j)) 17 = false) ∧
      (schIs {}).descOk (descWord 0#512 0 (setBit 0x0780 15)).toNat = true ∧ (schIs {}).descOk (descWord 0#512 0 (setBit 0x0700 15)).toNat = false ∧
      (((schIs { slots := [(255, { state := .ready })] }).sch 63).slot 255).state = .ready ∧
      ((schIs { slots := [(255, { state := .idle })] }).sch 63).slot 255 = { state := .idle } := by decide +kernel

theorem witness_DispatchPagingAndCompletion :
    (let s := schIs { slots := [(255, { state := .ready, eng := 24 })], resident := [(24, [0])] }
     (List.range 25).find? (fun e => s.engineFree 63 e && !bitOf (s.rd (SCH_POOL_ENGMASK 63)) e && ((s.sch 63).select e).isSome) = some 24 ∧
       (s.sch 63).select 24 = some (255, { state := .ready, eng := 24 }) ∧
       ((s.sch 63).residents 24).contains (dKernel ((s.sch 63).desc 255)) = true) ∧
      (let s := fields (schIs { wqs := [(7, [(2047, 0#128)])] }) [(SCH_POOL_ENGMASK 63, 2 ^ 24)]
       (List.range 25).find? (fun e => s.engineFree 63 e && bitOf (s.rd (SCH_POOL_ENGMASK 63)) e) = some 24 ∧
         (List.range 8).find? (fun q => (s.sch 63).wqs.get [] q != []) = some 7) ∧
      (let s := schIs { slots := [(255, { state := .ready, void := true })] }
       ((s.sch 63).slot 255).state = .ready ∧ (s.region 63).live = true ∧ s.flag (SCH_CQ_CFG_SINK 63) = false) ∧
      (schIs {}).engineFree 63 24 = true ∧ ((schIs {}).ni 63).tids = [] ∧ statusDone 7 = false ∧
      (let s := fields (schIs { cq := [0#128], ring := [] }) [(SCH_CQ_CFG_SINK 63, 1), (SCH_CQ_SIZE_LINES 63, 2)]
       s.flag (SCH_CQ_CFG_SINK 63) = true ∧ 0 < (s.sch 63).cq.length ∧ (s.sch 63).cq.length < 4 ∧
         (s.rd (SCH_CQ_WP_PTR 63) + 1) % s.rd (SCH_CQ_SIZE_LINES 63) ≠ s.rd (SCH_CQ_RP_PTR 63)) := by decide +kernel

/-- An open item of kernel 0 whose last word is awaited. -/
def pagingItem : OpenItem := ⟨none, 0, 0, 0, 0, 0, 0, 0#512, some ⟨0, 1, 0, 1, 0, false⟩, 0, false, false⟩

theorem witness_DispatchPagingAndCompletion_paging :
    (let s := (schIs { items := [(24, pagingItem)] }).modNi 63 fun i => { i with
       inbox := [aPkt 1 0x30 0], tids := [(5, ⟨false, 1, 63, .page 24 0 0⟩)] }
     s.itemOn 63 24 = some pagingItem ∧ (s.ni 63).locals = [] ∧ (s.ni 63).inbox = [aPkt 1 0x30 0] ∧ pagingItem.paging = some ⟨0, 1, 0, 1, 0, false⟩ ∧
       (s.ni 63).tids = [(5, ⟨false, 1, 63, .page 24 0 0⟩)]) := by decide +kernel
/-- A point of region 63 with an override that pins slot 255 to engine 24. -/
def pinPoint : PlcPoint :=
  ⟨63, 1, 1, [⟨63, false, false, false, [], [], [], [], false, 0, [], [], []⟩], [⟨0, 24, 63 * 256 + 255⟩], false, 0, 0, 0, {}, [], false⟩

theorem witness_PlacementPointsOverridesAndTransits :
    (let a : Action := ⟨0, 7, 2 ^ 23, 7, 0, 0, 0, false, none⟩
     a.code = 7 ∧ migrateScope a.target = 64 ∧ migrateScope 63 = 63 ∧ 2 ≤ a.param % 8) ∧
      (let s : State := { schIs {} with plc := { points := [pinPoint], spares := [(63, 2)] } }
       s.plc.points = [pinPoint] ∧ pinPoint.routing = false ∧ ((s.sch 63).slot 255).eng ≠ 24 ∧
         s.plcDest ⟨63, false, false, false, [], [], [], [], false, 0, [], [], []⟩ 24 = true ∧
         ({ s with plc := {} } : State).plcDest ⟨63, false, false, false, [], [], [], [], false, 0, [], [], []⟩ 24 = false) ∧
      (bitOf ({ pinPoint with param := 3 } : PlcPoint).param 1 = true ∧ (chipIn .run).net.flip = none ∧ ({ pinPoint with snaps := [] } : PlcPoint).slices = [] ∧
        ({ pinPoint with routing := true } : PlcPoint).routing = true) ∧
      (let s := schIs { slots := [(255, { state := .running })] }
       ((s.sch 63).slot 255).state = .running ∧ ((s.sch 63).slot 254).state ≠ .running ∧ s.itemOn 63 24 = none ∧ (s.engAt 63 24).syn = []) ∧
      (bitOf (0x80000000 : Word).toNat 31 = true ∧ bitsOf (0xE0000000 : Word).toNat 30 29 = 3 ∧ bitsOf (0xC0000000 : Word).toNat 30 29 ≠ 3) := by decide +kernel

/-! ### Partial images and the journal (17) -/

/-- The partial image directory with entry 255: valid, contexts as given, region 63. -/
def partsAre (ctx : Nat) (whole : Bool) : State :=
  { (chipIn .run).setRegion 63 { state := .active } with
    ldr := { partDir := [(255, BitVec.ofNat 128 (0xFF * 2 ^ 88 + ctx * 2 ^ 80 + 2 ^ 79 + b2n whole * 2 ^ 78 + 63 * 2 ^ 72))], waiting := [⟨255, 1, 0, false, 0, false⟩] } }

theorem witness_PartialLoadsAndTheJournal :
    (let s := partsAre 2 false
     let e := s.partEntry 255
     pdValid e = true ∧ pdWhole e = false ∧ pdRegion e = 63 ∧ bitOf (pdCtx e) (s.region 63).ctx.active = false ∧ (s.region 63).limit = false ∧
       s.flag (PWR_RGN_DOWN 63) = false ∧ s.ldr.run = none ∧ s.ldr.waiting.find? (fun q => q.path == 3) = none ∧
       s.ldr.waiting.head? = some ⟨255, 1, 0, false, 0, false⟩ ∧ pdValid (s.partEntry 0) = false ∧ s.ldr.early = []) ∧
      (let s := partsAre 0xFF true
       pdWhole (s.partEntry 255) = true ∧ s.partDark 63 = false ∧ ((chipIn .run).partDark 63) = true) ∧
      (let p : PartRun := ⟨⟨255, 1, 0, false, 0, false⟩, 63, 2, false, true, true⟩
       p.header = true ∧ p.req.early = false ∧ p.live = true ∧ ((chipIn .run).setRegion 63 { state := .loading }).region 63 = { state := .loading }) ∧
      (let s : State := { chipIn .run with jrn := { queue := [⟨0, 6, 0⟩], open_ := true } }
       s.jrn.queue = [⟨0, 6, 0⟩] ∧ s.sectorBad false = false ∧ s.jrn.open_ = true ∧ ({ s with jrn := { s.jrn with badB := true } } : State).sectorBad true = true) ∧
      ({ chipIn .run with ldr := { jsect := 10 }, jrn := { recs := [] } } : State).journalFull = true ∧
      (chipIn .run).journalFull = false ∧ (chipIn .start).ldr.started = 0 := by decide +kernel

/-! ### Kraerlink (14) -/

/-- The ring on, node 7, both links UP, the ring stream of receive entry `e` to destination 0. -/
def ringOn (e : Nat) : State :=
  let s := fields (chipIn .run) [(KRL_CTRL_EN, 1), (KRL_CTRL_NODE, 7), (KRL_LINK_STATE 0, 2), (KRL_LINK_STATE 1, 2)]
  ({ s with chip := { s.chip with outputs := true }, krl := { tables := [(512 + 255, e)] } }).modNi 76 fun i => { i with routes := [(0, 2 ^ 31)] }

/-- A reel of node 9. -/
def aReel : ReelPay := { time := 0, era := 1, mnode := 9, cold := false, rev := false, still := false, delay := 100, vel := 0, pos := 5 }

theorem witness_TheRingsLinksReelsAndMasters :
    (chipIn .run).krlOn = false ∧
      (let s := ringOn 0
       s.krlOn = true ∧ s.flag KRL_STATUS_MASTER = false ∧ s.linkUp 0 = true ∧ s.krl.reel = none ∧ s.rd KRL_CTRL_TEMPO ≠ 1 ∧
         s.neighbour 1 ≠ some aReel.mnode.val ∧ 1 < (127 : BitVec 7).toNat) ∧
      (let s := fields (ringOn 0) [(KRL_STATUS_MASTER, 1)]
       s.flag KRL_STATUS_MASTER = true ∧ s.krlOn = true ∧ ({ aReel with mnode := 7 } : ReelPay).mnode.val = s.krlNode) ∧
      (let s := ringOn 0
       let r : Reel := ⟨0, 1, 9, false, false, false, 0, 0, 0, 0, false⟩
       let s : State := { s with krl := { s.krl with reel := some r, missing := 3 } }
       s.krl.missing < 4 ∧ s.krl.hold = false ∧ (fields s [(KRL_CTRL_TEMPO, 2)]).rd KRL_CTRL_TEMPO = 2 ∧
         ((fields s [(KRL_CTRL_TEMPO, 2)]).port ((fields s [(KRL_CTRL_TEMPO, 2)]).rd KRL_CTRL_BPORT)).faulted = false) ∧
      (fields (ringOn 0) [(KRL_CTRL_TEMPO, 1)]).rd KRL_CTRL_TEMPO = 1 ∧ (timebaseOn.tb.srcAct ≠ 4) ∧
      (fields (ringOn 0) [(KRL_CTRL_LOSTPOL, 1)]).flag KRL_CTRL_LOSTPOL = true ∧
      ({ port := 1, f := { org := 7, items := [0x49], seq := 2 } } : FrameArgs).f.org.val = (ringOn 0).krlNode := by decide +kernel

theorem witness_ResultStreamsAndManagementOfTheRing :
    (ringOn 0).krlOn = true ∧ (ringOn 0).linkUp 0 = true ∧ (ringOn 0).linkUp 1 = true ∧
      (let a : FrameArgs := { port := 0, f := { dst := 7, org := 9, stream := 255, seq := 3, data := [1#128] } }
       let s := ringOn (2 ^ 31)
       let e := s.krl.tables.get 0 (512 + a.f.stream.toNat)
       a.crcOk = true ∧ a.f.dst.val = s.krlNode ∧ bitOf e 31 = true ∧ bitOf e 30 = false ∧ a.f.enc = false ∧ bitsOf e 6 0 = 0 ∧
         (s.krl.rx.get {} (rxKey a.f.org a.f.stream.toNat)).since < 31 ∧ s.routerFaulted (s.niAt 76) = false ∧
         (0 : Fin 64).val ≠ bitsOf (2 ^ 31 + 2 ^ 24) 29 24 ∧ s.flag SEC_CFG_POL = false) ∧
      (rxKey 63 255 = rxKey (63 : Fin 64) 255 ∧ 0 < ({ since := 1, high := some 0 } : KrlRx).since) ∧
      (let y : KrlOpen := ⟨255, 40, 0, 5, 0⟩
       ackCovers (255 + 41 * 2 ^ 8) 1 y = true ∧ ackCovers (255 + 41 * 2 ^ 8) 0 y = false ∧ y.seq = bitsOf (255 + 40 * 2 ^ 8) 23 8 ∧ y.src < 64) ∧
      (let s := fields (ringOn 0) [(SYS_SVCW_CFG_SIZE 31, 8), (SYS_SVCW_CFG_W 31, 1)]
       s.windowPermits 0x40 true = true ∧ (ringOn 0).windowPermits 0x40 true = false) ∧
      (let s := (niWith .active []).modNi 76 fun i => { i with routes := [(63, 2 ^ 31)] }
       s.canReply 76 63 = true ∧ (s.region 63).state = .active) := by decide +kernel

theorem witness_ResultStreamsAndManagementOfTheRing_route : (ringOn 0).lookup 76 0 = .ok (false, 0, 0) := rfl

/-! ### Lanes (15) -/

/-- Lane 47 as given. -/
def laneIs (l : Lane) : State := ({ chipIn .run with lanes := { lanes := [(47, l)] } }).modNi 78 fun i => { i with routes := [(0, 2 ^ 31)] }

theorem witness_SerialLanesLockReceiveAndSend_route : (laneIs {}).lookup (laneNi 47) 0 = .ok (false, 0, 0) := rfl

theorem witness_SerialLanesLockReceiveAndSend :
    laneNi 47 = 78 ∧ ((laneIs { state := 2 }).lane (11 * 4 + 3)).state = 2 ∧ ((laneIs { state := 4 }).lane 47).lost = false ∧
      (fields (laneIs {}) [(LNE_QSTAT_LOCK 11, 1)]).flag (LNE_QSTAT_LOCK 11) = true ∧ (laneIs {}).flag (LNE_QSTAT_LOCK 11) = false ∧
      (let s := fields (laneIs { state := 3, losses := [0, 0] }) [(LNE_QCFG_LOSLIM 11, 3)]
       let recent := s.cyc :: (s.lane 47).losses.filter fun t => decide (s.cyc < t + 1000 * msCycles)
       s.rd (LNE_QCFG_LOSLIM 11) ≤ recent.length ∧ s.rd (LNE_QSTAT_SPUSE 11) ≠ 2 ∧ 11 ∉ s.lanes.noSpare) ∧
      (fields (laneIs { state := 3 }) [(LNE_QCFG_LOSLIM 11, 2)]).rd (LNE_QCFG_LOSLIM 11) = 2 ∧
      (let s := fields (laneIs { state := 3, elastic := [⟨0#128, false⟩], rx := [0#128] })
        [(LNE_LCFG_PCS 11 3, 4), (LNE_LRX_VALID 11 3, 1), (LNE_LRX_PORT 11 3, 7), (LNE_LPKT_WORDS 11 3, 1)]
       s.rd (LNE_LCFG_PCS 11 3) = 4 ∧ s.flag (LNE_LRX_VALID 11 3) = true ∧ s.laneWaiting 47 + (s.lane 47).rx.length < 256 ∧
         s.rd (LNE_LPKT_WORDS 11 3) ≤ (s.lane 47).rx.length ∧ s.rd (LNE_LRX_PORT 11 3) < 8 ∧ s.rd (LNE_LRX_DST 11 3) = 0 ∧
         s.routerFaulted (s.niAt (laneNi 47)) = false) ∧
      ((List.replicate 24 (⟨0#128, true⟩ : LaneEntry)).length ≤ 24 ∧ 40 ≤ (List.replicate 40 (⟨0#128, true⟩ : LaneEntry)).length) ∧
      (fields (laneIs {}) [(LNE_LPKT_FILLINT 11 3, 1), (LNE_LCFG_PCS 11 3, 5)]).rd (LNE_LPKT_FILLINT 11 3) = 1 ∧
      ({ laneIs {} with chip := { state := .run, outputs := true } } : State).chip.outputs = true ∧
      (fields (laneIs { state := 2 }) [(LNE_LCTLE_ADAPT 11 3, 1)]).flag (LNE_LCTLE_ADAPT 11 3) = true ∧
      (bitOf (0x80000003 : Word).toNat 31 = true ∧ (0x80000003 : Word).toNat % 4 = 3) ∧
      ((laneIs { state := 5, next := some true }).lane 47).next = some true := by decide +kernel

/-! ### LPDDR5X (16) -/

/-- KEYED mode and protection, 64 GB, channel 0 TRAINED, clear range of page 0, key 1 on pages 1 and 2; NI 64 can answer NI 0. -/
def xmOn (l : List Packet) : State :=
  (fields (chipIn .run) [(XMC_CTRL_MODE, 1), (XMC_CFG_PROT, 1), (XMC_CHSTAT_STATE 0, 2), (XMC_URANGE_LO_VALID 3, 1),
    (XMC_URANGE_HI_PAGE 3, 1), (XMC_KRANGE_LO_VALID 1, 1), (XMC_KRANGE_LO_PAGE 1, 1), (XMC_KRANGE_HI_PAGE 1, 3), (SEC_SLOT_STATE 1, 1),
    (SEC_SLOT_MEM 1, 1), (SEC_SLOT_STATE 2, 1), (SEC_SLOT_MEM 2, 1)]).modNi 64 fun i => { i with inbox := l, routes := [(0, 2 ^ 31)] }

theorem witness_ExternalMemoryKeysModesAndRequests_judged :
    (xmOn []).xmJudge 0 1 0x1000 true = .serve 1 ∧ (xmOn []).xmJudge 0 0 0xFC0 false = .serve 0 ∧ (xmOn []).xmJudge 0 0 0x1000 false = .refuse 6 4 ∧
      (xmOn []).xmJudge 76 1 0x1000 false = .refuse 6 3 := by decide +kernel

theorem witness_ExternalMemoryKeysModesAndRequests :
    (let p := { aPkt 0 0x05 0x2FF0 with key := 1 }
     let s := xmOn [p]
     s.flag XMC_CTRL_MODE = true ∧ s.flag XMC_CFG_PROT = true ∧ p.addr < 8 * s.chanData ∧ s.inUrange 0 = true ∧ s.inUrange 1 = false ∧
       s.inKrange 1 2 = true ∧ s.inKrange 1 3 = false ∧ (s.ni 64).drain = false ∧ s.canReply 64 0 = true ∧ s.flag XMC_CTRL_MODEBUSY = false ∧
       (s.chanOf (p.addr / 64 * 64)).1 = 2 ∧ s.oldestRequest 64 0x05 = some p ∧ s.xmSealed 0xBF = false ∧ s.xmMajor 0xBF = 0 ∧ (s.xmLine 0xBF).minor = 0 ∧
       (s.chanOf 0).1 = 0 ∧ s.rd (XMC_CHSTAT_STATE 0) = 2 ∧ s.flag SEC_CFG_ALARMBLK = false) ∧
      (let s := xmOn []
       (s.rd (SEC_SLOT_STATE 1) = 1 ∧ s.flag (SEC_SLOT_MEM 1) = true ∧ s.flag (XMC_KRANGE_LO_VALID 1) = true ∧ s.flag (SEC_SLOT_LINK 1) = false ∧
         s.rd (SEC_SLOT_STATE 2) = 1 ∧ s.flag (SEC_SLOT_MEM 2) = true ∧ s.flag (XMC_KRANGE_LO_VALID 2) = false ∧ s.xmc.walk = none) ∧
         s.rd (SEC_SLOT_STATE 63) = 0 ∧ bitOf (0x80000081 : Word).toNat 31 = true ∧ bitsOf (0x80000081 : Word).toNat 5 0 = 1 ∧
         bitsOf (0x80000081 : Word).toNat 11 6 = 2) ∧
      (let w : XmWalk := { old := 1, new := 2, base := 1, limit := 3, flushed := true, done := 1 }
       let s : State := { xmOn [] with xmc := { walk := some w, keys := [(1, 7)], lines := [(128, { key := 7, minor := 1 })] } }
       w.old ≠ w.new ∧ w.base + w.done < w.limit ∧ s.xmSealed ((w.base + w.done) * 64) = false ∧ w.base + w.done + 1 = w.limit ∧
         ¬(s.xmMajor 128 = 0 ∧ (s.xmLine 128).minor = 0) ∧ (s.xmLine 128).key = s.keyNo w.old ∧ s.flag SEC_CFG_POL = false ∧ (s.xmLine 128).mark = 0) ∧
      (let s : State := { fields (xmOn []) [(XMC_CTRL_MODEBUSY, 1)] with xmc := { modeWait := some false } }
       s.xmc.modeWait = some false ∧ s.flag XMC_CTRL_MODEBUSY = true) := by decide +kernel

/-! ### Scrub, test, ageing (18, 21) -/

theorem witness_TheSteepTheRollingTestAndAgeing :
    (let s := fields ((chipIn .run).setRegion 63 { state := .active, ctx := { loaded := 0x80, active := 7 } })
       [(SCR_CTRL_STEEP, 1), (SCR_RSTAT_CTX 63, 7), (SCR_RSTAT_FRAME 63, 4607)]
     s.stackOn = true ∧ s.flag SCR_CTRL_STEEP = true ∧ s.rd (SCR_RTEST_STATE 63) ≠ 1 ∧ s.rd (SCR_RSTAT_CTX 63) < 8 ∧ s.rd (SCR_RSTAT_FRAME 63) < 4608 ∧
       (s.scrRgn 63).prio = [] ∧ (s.region 63).state = .active ∧ bitOf (s.region 63).ctx.loaded 7 = true ∧ bitOf (s.region 63).ctx.loading 7 = false ∧
       s.bist.runs.contains ⟨unitRegion 63, 1⟩ = false ∧ (s.cfgRow 63 7 4607).count < 7 ∧ s.freeRow 63 = some 0 ∧ s.scrub.refetch = [] ∧
       (s.region 63).ctx.active = 7) ∧
      (let x : Refetch := { region := 63, ctx := 7, frame := 4607, active := true }
       let s := rgnIn { chipIn .run with scrub := { refetch := [x] } } .active
       s.kettleRuns = true ∧ x.marked = false ∧ s.liftConflict 63 7 4607 [] = false) ∧
      (let s : State := { (chipIn .run).setRegion 63 { state := .active, engs := [(23, { state := .wait })] } with scrub := { asked := [unitId 63 2 23] } }
       s.kindBusy 1 63 = false ∧ (s.engAt 63 23).state ≠ .retired ∧ (s.engAt 63 23).failed = false ∧ s.spareUse 63 = 0) ∧
      (let s : State := { fields { chipIn .run with cyc := 1 } [(SCR_CTRL_TOUR, 1), (SCR_TOUR_KINDS, 8)] with scrub := {} }
       s.flag SCR_CTRL_TOUR = true ∧ s.overdue 63 ≠ 0) ∧
      (fields (chipIn .run) [(SCR_RTEST_STATE 63, 1)]).rd (SCR_RTEST_STATE 63) = 1 ∧
      (let s : State := { (chipIn .run).setRegion 63 { state := .active, engs := [(23, { state := .test })] } with
         bist := { runs := [⟨unitId 63 2 23, 2⟩] }, plc := { spares := [(63, 1)], spareFor := [(63, 23)] } }
       s.bist.runs = [⟨unitId 63 2 23, 2⟩] ∧ (s.engAt 63 23).state = .test ∧ s.itemOn 63 23 = none ∧ s.spareUse 63 = 1 ∧ s.plc.spareFor.get 0 63 = 23 ∧
         (BitVec.ofNat 24 (unitId 63 2 23)).toNat = unitId 63 2 23) ∧
      (let s := fields (rgnIn (chipIn .run) .active) [(SCR_CTRL_AGEING, 1), (SCR_HOURS_HOURS, 1), (SCR_AGECFG_THRFAIL, 100)]
       s.flag SCR_CTRL_AGEING = true ∧ (s.region 0).state = .active ∧ s.rd (SCR_RAGE_MARGIN 0) < 3 ∧ s.rd SCR_HOURS_HOURS ≠ 0) ∧
      (let s := fields (rgnIn (chipIn .run) .active) [(SCR_RTEST_STATE 0, 2)]
       (s.scrRgn 0).bonds = [] ∧ s.columnBusy 0 (s.rd (SCR_RTEST_COLUMN 0)) = false ∧ s.rd (SCR_RTEST_STATE 0) = 2 ∧ (s.scrRgn 0).copyWhy ≠ 3) ∧
      (let s : State := { rgnIn (chipIn .run) .test with scrub := { rgns := [(0, { window := true })] } }
       (s.scrRgn 0).window = true ∧ (s.region 0).state = .test ∧ s.kettle.downWait = []) ∧
      (fields (chipIn .halt) [(BST_CTRL_ACHK, 1)]).flag BST_CTRL_ACHK = true ∧ (fields (chipIn .run) [(BST_CTRL_ACHK, 1)]).kettle.shed = [] ∧
      (bitOf (0x8000003F : Word).toNat 31 = true ∧ (0x8000003F : Word).toNat % 64 = 63) := by decide +kernel

/-! ### Clocks (19) -/

theorem witness_ClocksJudgedLostSwitchedAndGated :
    (let s : State := { chipIn .run with clk := { wins := [(15, List.replicate 7 1000000)] } }
     let s := fields s [(CLK_PLL_CFG_LOCK 7, 1)]
     let l := (1000000 :: s.clk.wins.get [] 15).take 10
     isSource 15 = true ∧ s.clocksRun = true ∧ 15 ∉ s.clk.failed ∧ 15 ∉ s.clk.disagree ∧ s.judgeNow 15 4 = true ∧ s.srcReady 15 = false ∧
       (l.take 8).length = 8 ∧ stable s.clkTol (l.take 8) = true ∧ inLimit 15 4 (l.take 8) = true ∧ s.flag (CLK_PLL_CFG_LOCK (pllAt 15)) = true) ∧
      (let s : State := { fields (chipIn .run) [(CLK_READY_READY, 3)] with clk := { wins := [(0, 1100000 :: List.replicate 8 1000000)] } }
       let l := (1100000 :: s.clk.wins.get [] 0).take 10
       s.srcReady 0 = true ∧ s.srcReady 1 = true ∧ s.judgeNow 0 1 = true ∧ ((l.drop 2).take 8).length = 8 ∧
         ∀ x ∈ l.take 2, nearMean s.clkTol ((l.drop 2).take 8) x = false) ∧
      (let s : State := { fields (chipIn .run) [(CLK_READY_READY, 3)] with clk := { disagree := [0, 1], wins := [(1, List.replicate 10 1000000)] } }
       1 ∈ s.clk.disagree ∧ s.umpire = 2 ∧ (((s.clk.wins.get [] 1).drop 2).take 8).length = 8 ∧
         nearMean s.clkTol (((s.clk.wins.get [] 1).drop 2).take 8) 1100000 = false) ∧
      (let s := fields (chipIn .run) [(CLK_PLL_CFG_NINT 7, 1), (CLK_PLL_CFG_HOLD 7, 1), (CLK_PLL_CFG_ALTREF 7, 2), (CLK_READY_READY, 0x8010)]
       s.rd (CLK_PLL_CFG_NINT (pllAt 15)) ≠ 0 ∧ s.flag (CLK_PLL_CFG_HOLD 7) = true ∧ s.srcReady (2 + 2) = true ∧ s.srcReady 15 = true ∧ 15 ∉ s.clk.onAlt) ∧
      (let s := fields (chipIn .run) [(CLK_READY_READY, 2 ^ 10)]
       1 < (domList 0).length ∧ s.inReady ((domList 0).getD 1 (.src 0)) = true ∧ s.rd (CLK_DOM_ACT 0) = 0 ∧ ¬1 < (domList 8).length) ∧
      (let s : State := { (chipIn .run).setRegion 63 { state := .active } with clk := { gates := [⟨unitId 63 3 0, 1⟩] } }
       let u := BitVec.ofNat 24 (unitId 63 3 0)
       s.gateOf u.toNat = 1 ∧ uKind u.toNat = 3 ∧ uRegion u.toNat = 63 ∧ s.logicalBank 63 (uIndex u.toNat) = some 0 ∧ s.gateBusy u.toNat = false ∧
         s.gateOf 0 = 0 ∧ uKind (unitId 63 4 0) = 4) := by decide +kernel

/-! ### Mailbox, check units, accesses (22, 00) -/

/-- Slot 4095 of the mailbox as given. -/
def slotIs (x : MbxSlot) : State := { chipIn .run with mbx := { slots := [(4095, x)] } }

/-- The service frame `bytes` of R645, its check value the last. -/
def aFrame (bytes : List Nat) : BitVec 80 := BitVec.ofNat 80 (bytes.foldr (fun b v => b + 256 * v) 0)

theorem witness_MailboxChecksServiceAndRegisterAccesses :
    ((slotIs { state := 1 }).slotAt 4095).state = 1 ∧ 2 ≤ ((slotIs { state := 3, seq := 65535 }).slotAt 4095).state ∧
      (bitOf (0x8FFFFFFF : Word).toNat 31 = true ∧ bitsOf (0x8FFFFFFF : Word).toNat 11 0 = 4095 ∧ bitsOf (0x8FFFFFFF : Word).toNat 27 12 = 65535) ∧
      (let bs := bytesOf 10 (aFrame [1, 0, 0, 0, 0, 0, 0, 0, 0, 0x79]).toNat
       crc8.value (bs.take 9) = bs.getD 9 0 ∧ bs.getD 0 0 = 1 ∧ beWord ((bs.drop 1).take 4) < 0x80000000) ∧
      (let bs := bytesOf 10 (aFrame [2, 0, 0, 0, 0x40, 0, 0, 0, 9, 5]).toNat
       crc8.value (bs.take 9) = bs.getD 9 0 ∧ beWord ((bs.drop 1).take 4) = 0x40 ∧ beWord ((bs.drop 5).take 4) = 9) ∧
      crc8.value ((bytesOf 10 (aFrame [1]).toNat).take 9) ≠ 0 ∧
      (fields (chipIn .run) [(SYS_SVCCFG_DEBUG, 1)]).flag SYS_SVCCFG_DEBUG = true ∧ supOn.supRuns = true ∧ (chipIn .run).supRuns = false ∧
      (assigned 0x40 = true ∧ assigned 0x0FFFFFFC = false ∧ addrRegion 0x1FFFFFC = some 63 ∧ (chipIn .run).region 63 = {}) ∧
      (let s := fields (chipIn .run) [(SYS_SVCW_CFG_SIZE 31, 8), (SYS_SVCW_CFG_W 31, 1)]
       let s : State := { s with chip := { s.chip with windows := true } }
       s.windowPermits 0x40 true = true ∧ s.windowPermits 0x100 true = false ∧ s.chip.windows = true) := by decide +kernel

/-- R606: the check values of the four CRCs over the digits 1 to 9. -/
theorem test_crc_check_values :
    let d := (List.range 9).map fun k => 0x31 + k
    crc32c.value d = 0xE3069283 ∧ crc32ieee.value d = 0xCBF43926 ∧ crc16ccitt.value d = 0x29B1 ∧ crc64ecma.value d = 0x6C40DF5F0B497347 := by decide +kernel

/-- R622, R650: a service write of SYS_LOG_WD0 through a window that permits it. -/
theorem test_service_write :
    let s := fields (chipIn .run) [(SYS_SVCW_CFG_SIZE 31, 8), (SYS_SVCW_CFG_W 31, 1)]
    let s : State := { s with chip := { s.chip with windows := true } }
    let t := ran (exec (.serviceFrame (aFrame [2, 0, 0, 0, 0x40, 0, 0, 0, 9, 5])) s)
    t.rd SYS_LOG_WD0_DETAIL = 9 ∧ t.rsp = ⟨0, 0⟩ ∧ t.rd SVC_FRAMES_COUNT = 1 := by decide +kernel

end

end Sys2Proof.Tests
end

section
/-! PROOFS. The watchdogs of the chip and of a region, and the restart of a fenced region (02 R40, R46, R61, R62). -/

namespace Sys2Proof.Machine

variable (s : State)

/-! ### A region after its REGION_STATE record -/

@[simp] theorem State.region_logEv (c k st u d n : Nat) : (s.logEv c k st u d).region n = s.region n := by
  rw [State.region, (s.logEv_only c k st u d).regions, State.region]

/-- The region has the state that it was to take, and when that is FENCED the cause of its fence. -/
theorem State.rgnTo_takes (n : Nat) (st : RegionState) (cause : Nat) :
    ((s.rgnTo n st cause).region n).state = st ∧ (st = .fenced → ((s.rgnTo n st cause).region n).cause = cause) := by
  unfold State.rgnTo
  extract_lets old s1 s2 s3
  have h : s3.region n = s2.region n := by unfold s3; split <;> rfl
  rw [State.region_logEv, h, State.region_modRegion_same]
  exact ⟨rfl, fun hst => if_pos hst⟩

/-! ### The restart limit (R40, R46) -/

theorem State.region_limitReached (n : Nat) :
    (s.limitReached n).region n = { (s.rgnTo n .fenced 0x25).region n with limit := true } :=
  (s.rgnTo n .fenced 0x25).region_modRegion_same n fun r => { r with limit := true }

@[simp] theorem State.limitReached_degraded (n : Nat) : (s.limitReached n).chip.degraded = true := rfl

/-- A region that nothing keeps from its restart is FENCED and has not reached the limit. -/
theorem State.restartReady_fenced {s : State} {n : Nat} (h : s.restartReady n = true) :
    (s.region n).state = .fenced ∧ (s.region n).limit = false := by
  simp only [State.restartReady, Bool.and_eq_true, Bool.not_eq_true', beq_iff_eq] at h
  obtain ⟨⟨⟨⟨⟨⟨hfenced, hlimit⟩, -⟩, -⟩, -⟩, -⟩, -⟩ := h
  exact ⟨hfenced, hlimit⟩

/-- With three restarts in the last 10 s no fourth one is made. -/
theorem State.restart_of_limit {s : State} {n : Nat} (hs : s.chip.state ≠ .safe) (hr : s.restartReady n = true)
    (hl : 3 ≤ (s.restartsNow n).length) : s.restart n = s.limitReached n := by
  obtain ⟨hf, hlim⟩ := State.restartReady_fenced hr
  simp [State.restart, hs, hf, hlim, hl]

theorem exec_regionRestart (n : Fin 64) :
    exec (.regionRestart n) s = .next (if s.chip.state = .run ∧ s.restartReady n then s.restart n else s) := rfl

/-- In RUN, with three restarts in 10 s, the region is FENCED with cause LIMIT and the chip is degraded. -/
theorem regionRestart_of_limit {s : State} {n : Fin 64} (hc : s.chip.state = .run) (hr : s.restartReady n = true)
    (hl : 3 ≤ (s.restartsNow n).length) : Gives (.regionRestart n) s fun t =>
      (t.region n).state = .fenced ∧ (t.region n).cause = 0x25 ∧ (t.region n).limit = true ∧ t.chip.degraded = true := by
  have hlimit : s.restart n = s.limitReached n := State.restart_of_limit (by simp [hc]) hr hl
  refine ⟨s.limitReached n, by rw [exec_regionRestart, if_pos ⟨hc, hr⟩, hlimit], ?_⟩
  obtain ⟨hstate, hcause⟩ := s.rgnTo_takes n .fenced 0x25
  simp only [State.region_limitReached, State.limitReached_degraded, hstate, hcause, and_self]

/-! ### The chip watchdog (R61) -/

theorem exec_sysWdkick (a : Accessor) (v : Word) : exec (.sysWdkick a v) s = .next (s.writeSysKick a v.toNat) := rfl

/-- The key from firmware restarts the count. -/
theorem State.writeSysKick_key {v : Nat} (hv : v % 65536 = 0xC35A) : s.writeSysKick .firmware v =
    { s with rsp := ⟨0, 0⟩, chip := { s.chip with wdStart := s.cyc, wdWarned := false } } :=
  if_pos ⟨rfl, hv⟩

/-- Any other write counts in BADKICK. -/
theorem State.writeSysKick_bad {a : Accessor} {v : Nat} (h : a ≠ .firmware ∨ v % 65536 ≠ 0xC35A) :
    s.writeSysKick a v = ({ s with rsp := ⟨0, 0⟩ } : State).bump SYS_WDOG_BADKICK :=
  if_neg fun ⟨hacc, hkey⟩ => h.elim (fun ha => ha hacc) (fun hk => hk hkey)

/-- Half of PERIOD is reached for the first time in this count. -/
theorem exec_wdwarn_due {s : State} (hc : s.wdCounts = true) (hw : s.chip.wdWarned = false)
    (ht : s.chip.wdStart + s.rd SYS_WDOG_PERIOD / 2 * msCycles ≤ s.cyc) : exec .wdwarn s =
      .next (({ s with chip := { s.chip with wdWarned := true } } : State).pendSrc .sup 7) :=
  if_pos ⟨hc, by simp [hw], ht⟩

/-- The watchdog does not count, has warned in this count, or has not reached half of PERIOD. -/
theorem exec_wdwarn_not_due {s : State} (h : s.wdCounts = false ∨ s.chip.wdWarned = true ∨
    s.cyc < s.chip.wdStart + s.rd SYS_WDOG_PERIOD / 2 * msCycles) : exec .wdwarn s = .next s := by
  refine if_neg fun ⟨hc, hw, ht⟩ => ?_
  obtain h | h | h := h
  · simp [h] at hc
  · simp [h] at hw
  · omega

/-! ### The watchdog of a region (R62) -/

theorem exec_rgnWdkick (a : Accessor) (n : Fin 64) (v : Word) :
    exec (.rgnWdkick a n v) s = .next (s.writeRgnKick a n v.toNat) := rfl

/-- The key from firmware restarts the count, in TEST the held one. -/
theorem State.writeRgnKick_key (n : Nat) {v : Nat} (hv : v % 65536 = 0xC35A) : s.writeRgnKick .firmware n v =
    s.modRegion n fun r => if r.state = .test then { r with wdHeld := 0 } else { r with wdStart := s.cyc } :=
  if_pos ⟨rfl, hv⟩

/-- Any other write counts in BADKICK. -/
theorem State.writeRgnKick_bad {a : Accessor} (n : Nat) {v : Nat} (h : a ≠ .firmware ∨ v % 65536 ≠ 0xC35A) :
    s.writeRgnKick a n v = s.bump (RGN_WDOG_BADKICK n) :=
  if_neg fun ⟨hacc, hkey⟩ => h.elim (fun ha => ha hacc) (fun hk => hk hkey)

theorem exec_regionWatchdogExpire (n : Fin 64) : exec (.regionWatchdogExpire n) s =
    .next (if (s.region n).state = .active ∧ s.rd (RGN_WDOG_PERIOD n) ≠ 0 ∧
      (s.region n).wdStart + s.rd (RGN_WDOG_PERIOD n) * usCycles ≤ s.cyc then s.fence n 0x23 else s) := rfl

/-- The region is not ACTIVE, its watchdog is off, or its count has not reached PERIOD. -/
theorem exec_regionWatchdogExpire_not_due {s : State} {n : Fin 64} (h : (s.region n).state ≠ .active ∨
    s.rd (RGN_WDOG_PERIOD n) = 0 ∨ s.cyc < (s.region n).wdStart + s.rd (RGN_WDOG_PERIOD n) * usCycles) :
    exec (.regionWatchdogExpire n) s = .next s := by
  rw [exec_regionWatchdogExpire, if_neg]
  rintro ⟨ha, hp, ht⟩
  obtain h | h | h := h
  · exact h ha
  · exact hp h
  · omega

/-- Settles O15: each clause is a branch of its command's meaning; the restart limit goes through `rgnTo`. -/
theorem watchdogsCountAndRestart : Obligations.WatchdogsCountAndRestart := by
  intro s
  refine ⟨?sysKick, ?sysBad, ?warn, ?noWarn, ?rgnKick, ?rgnBad, ?wdk, ?expire, ?noExpire, ?restart, ?limit, ?noRestart⟩
  case sysKick => exact fun v hv => by rw [exec_sysWdkick, s.writeSysKick_key hv]
  case sysBad => exact fun a v h => by rw [exec_sysWdkick, s.writeSysKick_bad h]
  case warn => exact exec_wdwarn_due
  case noWarn => exact exec_wdwarn_not_due
  case rgnKick => exact fun n v hv => by rw [exec_rgnWdkick, s.writeRgnKick_key n hv]
  case rgnBad => exact fun a n v h => by rw [exec_rgnWdkick, s.writeRgnKick_bad n h]
  case wdk => exact fun n => rfl
  case expire => exact fun n ha hp ht => by rw [exec_regionWatchdogExpire, if_pos ⟨ha, hp, ht⟩]
  case noExpire => exact fun n => exec_regionWatchdogExpire_not_due
  case restart => exact fun n hc hr _ => by rw [exec_regionRestart, if_pos ⟨hc, hr⟩]
  case limit => exact fun n => regionRestart_of_limit
  case noRestart => exact fun n hr => by rw [exec_regionRestart, if_neg (by simp [hr])]

end Sys2Proof.Machine
end

section
/-! PROOFS. What every command and every step keeps, and the soundness of reset (02 R41, R43, R53, R667). -/

namespace Sys2Proof.Machine

/-! ### Every command -/

/-- A command keeps the queue and the invariant; unless it is one of those that reach the banks, their bytes; unless it
is one of those that reach the chip state, the chip's own state. Each arm is the law of the command's meaning; where
it does not hold the banks or the chip state, the command is one that reaches them. -/
theorem exec_keeps {qq : List Instr} {mm : Option Memory} {cc : Option Chip} (c : Instr) (s : State)
    (hm : c.reachesBanks = true → mm = none) (hc : c.reachesChipState = true → cc = none)
    (hk : Keeps ⟨qq, mm, cc⟩ s) :
    KeepsO ⟨qq, mm, cc⟩ (exec c s) := by
  cases c with
  | vinLockoutRise => cases hm rfl; cases hc rfl; exact execVinLockoutRise_keeps s hk
  | vinLockoutFall => cases hm rfl; cases hc rfl; exact execVinLockoutFall_keeps s hk
  | porstNLow => cases hm rfl; cases hc rfl; exact execPorstNLow_keeps s hk
  | porToLoad => cases hc rfl; exact execPorToLoad_keeps s hk
  | loadEntry => exact execLoadEntry_keeps s hk
  | bootRecordRead a b => exact execBootRecordRead_keeps a b s hk
  | imageHeaderRead h unwrap => cases hm rfl; cases hc rfl; exact execImageHeaderRead_keeps h unwrap s hk
  | journalRead a b => exact execJournalRead_keeps a b s hk
  | loadZeroingDone => cases hm rfl; exact execLoadZeroingDone_keeps s hk
  | imageItem it => cases hm rfl; cases hc rfl; exact execImageItem_keeps it s hk
  | imageLastByte crcOk sigOk => cases hm rfl; cases hc rfl; exact execImageLastByte_keeps crcOk sigOk s hk
  | flashFailure => cases hm rfl; cases hc rfl; exact execFlashFailure_keeps s hk
  | primaryRetry => exact execPrimaryRetry_keeps s hk
  | channelTrainingDone c ok => exact execChannelTrainingDone_keeps c ok s hk
  | enginesReleased => cases hc rfl; exact execEnginesReleased_keeps s hk
  | safeEntryComplete => cases hm rfl; cases hc rfl; exact execSafeEntryComplete_keeps s hk
  | reload acc v => cases hc rfl; exact execReload_keeps acc v s hk
  | vinLow => cases hm rfl; cases hc rfl; exact execVinLow_keeps s hk
  | vinHigh => cases hm rfl; cases hc rfl; exact execVinHigh_keeps s hk
  | safeNLow => cases hm rfl; cases hc rfl; exact execSafeNLow_keeps s hk
  | baseStateUe => cases hm rfl; cases hc rfl; exact execBaseStateUe_keeps s hk
  | lockstepMismatch where_ => cases hm rfl; cases hc rfl; exact execLockstepMismatch_keeps where_ s hk
  | autoRestart => cases hm rfl; cases hc rfl; exact execAutoRestart_keeps s hk
  | haltSensorRead l => exact execHaltSensorRead_keeps l s hk
  | sysWdkick acc v => exact execSysWdkick_keeps acc v s hk
  | wdwarn => exact execWdwarn_keeps s hk
  | chipWatchdogExpire => cases hm rfl; cases hc rfl; exact execChipWatchdogExpire_keeps s hk
  | rgnWdkick acc n v => exact execRgnWdkick_keeps acc n v s hk
  | wdk n => exact execWdk_keeps n s hk
  | regionWatchdogExpire n => cases hm rfl; exact execRegionWatchdogExpire_keeps n s hk
  | regionRestart n => exact execRegionRestart_keeps n s hk
  | logTailWrite acc v => exact execLogTailWrite_keeps acc v s hk
  | logWcmd acc v => exact execLogWcmd_keeps acc v s hk
  | logLost => exact execLogLost_keeps s hk
  | rateLimitFlush code scope => exact execRateLimitFlush_keeps code scope s hk
  | registerWrite acc a v => cases hc rfl; exact execRegisterWrite_keeps acc a v s hk
  | encoderEdge k e => exact execEncoderEdge_keeps k e s hk
  | indexEdge k e => exact execIndexEdge_keeps k e s hk
  | wireFault k x => exact execWireFault_keeps k x s hk
  | wireFaultClear k x => exact execWireFaultClear_keeps k x s hk
  | interpolatorTimeout => exact execInterpolatorTimeout_keeps s hk
  | ptbSimVelWrite acc v => exact execPtbSimVelWrite_keeps acc v s hk
  | ptbPosLoRead acc => exact execPtbPosLoRead_keeps acc s hk
  | ptbEncCntLoRead acc k => exact execPtbEncCntLoRead_keeps acc k s hk
  | ptbEncZlatLoRead acc k => exact execPtbEncZlatLoRead_keeps acc k s hk
  | encErrClr acc k v => exact execEncErrClr_keeps acc k v s hk
  | busUpdate => exact execBusUpdate_keeps s hk
  | busStale n => exact execBusStale_keeps n s hk
  | matcherCrossing k => exact execMatcherCrossing_keeps k s hk
  | occurrenceHandover => exact execOccurrenceHandover_keeps s hk
  | occurrenceMissed => exact execOccurrenceMissed_keeps s hk
  | pulse o => exact execPulse_keeps o s hk
  | set o => exact execSet_keeps o s hk
  | clear o => exact execClear_keeps o s hk
  | evoEdge o => exact execEvoEdge_keeps o s hk
  | ctx n => exact execCtx_keeps n s hk
  | dvfs n => exact execDvfs_keeps n s hk
  | startGraph => exact execStartGraph_keeps s hk
  | eventToken => exact execEventToken_keeps s hk
  | migrate => exact execMigrate_keeps s hk
  | quiet n => exact execQuiet_keeps n s hk
  | quietWindowEnd n => exact execQuietWindowEnd_keeps n s hk
  | loadPartial => exact execLoadPartial_keeps s hk
  | mark n dest => exact execMark_keeps n dest s hk
  | irq => exact execIrq_keeps s hk
  | evtIrqPop acc => exact execEvtIrqPop_keeps acc s hk
  | entryWrite acc k w v => exact execEntryWrite_keeps acc k w v s hk
  | entryWithdraw acc k v => exact execEntryWithdraw_keeps acc k v s hk
  | entryEnable acc k v => exact execEntryEnable_keeps acc k v s hk
  | liftContention n blk w => cases hm rfl; exact execLiftContention_keeps n blk w s hk
  | sensorWord b p w => exact execSensorWord_keeps b p w s hk
  | sensorPairLock b p lock => exact execSensorPairLock_keeps b p lock s hk
  | streamPacketSend n p dest last => exact execStreamPacketSend_keeps n p dest last s hk
  | ctxReq acc n v => exact execCtxReq_keeps acc n v s hk
  | creq n ctx => exact execCreq_keeps n ctx s hk
  | contextSwitch n => exact execContextSwitch_keeps n s hk
  | guardTimeout n => exact execGuardTimeout_keeps n s hk
  | ownershipWrite acc n b v => exact execOwnershipWrite_keeps acc n b v s hk
  | handoverEnd n b => cases hm rfl; exact execHandoverEnd_keeps n b s hk
  | bankRead n b q => cases hm rfl; exact execBankRead_keeps n b q s hk
  | bankWrite n b q => cases hm rfl; exact execBankWrite_keeps n b q s hk
  | bankMaskedWrite n b q => cases hm rfl; exact execBankMaskedWrite_keeps n b q s hk
  | bankAdd32 n b q => cases hm rfl; exact execBankAdd32_keeps n b q s hk
  | bankAdd64 n b q => cases hm rfl; exact execBankAdd64_keeps n b q s hk
  | bankSwap64 n b q => cases hm rfl; exact execBankSwap64_keeps n b q s hk
  | stealTimeout n b => exact execStealTimeout_keeps n b s hk
  | rowRemapDone n => cases hm rfl; exact execRowRemapDone_keeps n s hk
  | bankCopyDone n => cases hm rfl; exact execBankCopyDone_keeps n s hk
  | nop g p => exact execNop_keeps g p s hk
  | mpy g p => exact execMpy_keeps g p s hk
  | mpyn g p => exact execMpyn_keeps g p s hk
  | mac g p => exact execMac_keeps g p s hk
  | macn g p => exact execMacn_keeps g p s hk
  | dmpy g p => exact execDmpy_keeps g p s hk
  | dmac g p => exact execDmac_keeps g p s hk
  | dmacx g p => exact execDmacx_keeps g p s hk
  | add g p => exact execAdd_keeps g p s hk
  | sub g p => exact execSub_keeps g p s hk
  | cmp g p => exact execCmp_keeps g p s hk
  | copy g p => exact execCopy_keeps g p s hk
  | neg g p => exact execNeg_keeps g p s hk
  | abs g p => exact execAbs_keeps g p s hk
  | clr g p => exact execClr_keeps g p s hk
  | rndc g p => exact execRndc_keeps g p s hk
  | asl g p => exact execAsl_keeps g p s hk
  | asr g p => exact execAsr_keeps g p s hk
  | and g p => exact execAnd_keeps g p s hk
  | or g p => exact execOr_keeps g p s hk
  | xor g p => exact execXor_keeps g p s hk
  | max g p => exact execMax_keeps g p s hk
  | min g p => exact execMin_keeps g p s hk
  | load g k reg mode ptr => exact execLoad_keeps g k reg mode ptr s hk
  | store g k reg mode ptr => exact execStore_keeps g k reg mode ptr s hk
  | storeR g k reg mode ptr => exact execStoreR_keeps g k reg mode ptr s hk
  | storeS g k reg mode ptr => exact execStoreS_keeps g k reg mode ptr s hk
  | storeRs g k reg mode ptr => exact execStoreRs_keeps g k reg mode ptr s hk
  | update g k mode ptr => exact execUpdate_keeps g k mode ptr s hk
  | stream g k code => exact execStream_keeps g k code s hk
  | ldi g dst imm => exact execLdi_keeps g dst imm s hk
  | movr g dst src rnd sat => exact execMovr_keeps g dst src rnd sat s hk
  | movm g a => exact execMovm_keeps g a s hk
  | addi g d rnd sat imm => exact execAddi_keeps g d rnd sat imm s hk
  | cmpi g d imm => exact execCmpi_keeps g d imm s hk
  | sws g m => exact execSws_keeps g m s hk
  | swc g m => exact execSwc_keeps g m s hk
  | bra g cond ind ptr target => exact execBra_keeps g cond ind ptr target s hk
  | call g cond link target => exact execCall_keeps g cond link target s hk
  | rti g => exact execRti_keeps g s hk
  | done g => exact execDone_keeps g s hk
  | wait g => exact execWait_keeps g s hk
  | loop g imm count reg last => exact execLoop_keeps g imm count reg last s hk
  | wld g w => exact execWld_keeps g w s hk
  | wst g w => exact execWst_keeps g w s hk
  | watm g w => exact execWatm_keeps g w s hk
  | sld g d ind a => cases hc rfl; exact execSld_keeps g d ind a s hk
  | sst g d ind a => cases hc rfl; exact execSst_keeps g d ind a s hk
  | reservedEncoding g => exact execReservedEncoding_keeps g s hk
  | windowLoadLand n e => exact execWindowLoadLand_keeps n e s hk
  | systemAccessResponse => exact execSystemAccessResponse_keeps s hk
  | interruptEntry g => exact execInterruptEntry_keeps g s hk
  | tmrExpire g => exact execTmrExpire_keeps g s hk
  | engStop n e => exact execEngStop_keeps n e s hk
  | engMdataRead acc n e => exact execEngMdataRead_keeps acc n e s hk
  | engMdataWrite acc n e v => exact execEngMdataWrite_keeps acc n e v s hk
  | token c => cases hm rfl; cases hc rfl; exact execToken_keeps c s hk
  | schToken acc n v => exact execSchToken_keeps acc n v s hk
  | urgencyStep n k => exact execUrgencyStep_keeps n k s hk
  | dispatch n => exact execDispatch_keeps n s hk
  | voidDispatch n k => exact execVoidDispatch_keeps n k s hk
  | pagingResponse n e => exact execPagingResponse_keeps n e s hk
  | cqHeldRelease n => exact execCqHeldRelease_keeps n s hk
  | schCqPop acc n => exact execSchCqPop_keeps acc n s hk
  | cqLineFlush n => exact execCqLineFlush_keeps n s hk
  | cqRingRetry n => exact execCqRingRetry_keeps n s hk
  | slotEnable acc n k v => exact execSlotEnable_keeps acc n k v s hk
  | slotWithdraw acc n k v => exact execSlotWithdraw_keeps acc n k v s hk
  | descriptorWrite acc n k w v => exact execDescriptorWrite_keeps acc n k w v s hk
  | kernelTableWrite acc n k w v => exact execKernelTableWrite_keeps acc n k w v s hk
  | schWqPush acc n v => exact execSchWqPush_keeps acc n v s hk
  | poolTake n => exact execPoolTake_keeps n s hk
  | trcRdIdxWrite acc v => exact execTrcRdIdxWrite_keeps acc v s hk
  | pointCommit => exact execPointCommit_keeps s hk
  | routePassEnd => exact execRoutePassEnd_keeps s hk
  | transitEnd n => exact execTransitEnd_keeps n s hk
  | plcOvr acc v => exact execPlcOvr_keeps acc v s hk
  | read1 c => cases hm rfl; cases hc rfl; exact execRead1_keeps c s hk
  | read4 c => cases hm rfl; cases hc rfl; exact execRead4_keeps c s hk
  | read16 c => cases hm rfl; cases hc rfl; exact execRead16_keeps c s hk
  | write1 c => cases hm rfl; cases hc rfl; exact execWrite1_keeps c s hk
  | write4 c => cases hm rfl; cases hc rfl; exact execWrite4_keeps c s hk
  | write16 c => cases hm rfl; cases hc rfl; exact execWrite16_keeps c s hk
  | add32 c => cases hm rfl; cases hc rfl; exact execAdd32_keeps c s hk
  | add64 c => cases hm rfl; cases hc rfl; exact execAdd64_keeps c s hk
  | swap64 c => cases hm rfl; cases hc rfl; exact execSwap64_keeps c s hk
  | enqueue c => cases hm rfl; cases hc rfl; exact execEnqueue_keeps c s hk
  | regrd c => cases hm rfl; cases hc rfl; exact execRegrd_keeps c s hk
  | regwr c => cases hm rfl; cases hc rfl; exact execRegwr_keeps c s hk
  | sdata ni => cases hm rfl; cases hc rfl; exact execSdata_keeps ni s hk
  | smark ni => cases hm rfl; cases hc rfl; exact execSmark_keeps ni s hk
  | resp ni => exact execResp_keeps ni s hk
  | drop ni => exact execDrop_keeps ni s hk
  | routerHop r out l => exact execRouterHop_keeps r out l s hk
  | packetAgeStep r port vc cls => exact execPacketAgeStep_keeps r port vc cls s hk
  | requestTimeout ni t => exact execRequestTimeout_keeps ni t s hk
  | tidRelease ni t => exact execTidRelease_keeps ni t s hk
  | creditTimeout r d => exact execCreditTimeout_keeps r d s hk
  | routerStall r => exact execRouterStall_keeps r s hk
  | ledgerDrop r bad => exact execLedgerDrop_keeps r bad s hk
  | epochFlip => exact execEpochFlip_keeps s hk
  | drainComplete n => cases hm rfl; exact execDrainComplete_keeps n s hk
  | routeEntryWrite acc ni v => exact execRouteEntryWrite_keeps acc ni v s hk
  | writeBack n mem unit => cases hm rfl; exact execWriteBack_keeps n mem unit s hk
  | poisonRewrite n mem unit => cases hm rfl; exact execPoisonRewrite_keeps n mem unit s hk
  | patrolRead n p => exact execPatrolRead_keeps n p s hk
  | enginePatrolRead n e => exact execEnginePatrolRead_keeps n e s hk
  | eccInj acc n v => exact execEccInj_keeps acc n v s hk
  | eccTblW0Read acc n k => exact execEccTblW0Read_keeps acc n k s hk
  | eccTblClear acc n k => exact execEccTblClear_keeps acc n k s hk
  | reelSend => exact execReelSend_keeps s hk
  | reel a => exact execReel_keeps a s hk
  | fillSend p => exact execFillSend_keeps p s hk
  | fill p crcOk link age alive => exact execFill_keeps p crcOk link age alive s hk
  | data a => cases hm rfl; cases hc rfl; exact execData_keeps a s hk
  | mgmtRead a => cases hc rfl; exact execMgmtRead_keeps a s hk
  | mgmtWrite a => cases hc rfl; exact execMgmtWrite_keeps a s hk
  | mgmtResponse a => exact execMgmtResponse_keeps a s hk
  | mgmtAck a => exact execMgmtAck_keeps a s hk
  | mgmtDrop a => exact execMgmtDrop_keeps a s hk
  | topo a => exact execTopo_keeps a s hk
  | ackSend => exact execAckSend_keeps s hk
  | linkBlockLock p tx lanes => exact execLinkBlockLock_keeps p tx lanes s hk
  | linkDown p tx => exact execLinkDown_keeps p tx s hk
  | reelsLost => exact execReelsLost_keeps s hk
  | reelFreeze => exact execReelFreeze_keeps s hk
  | masterStart => exact execMasterStart_keeps s hk
  | holdLimit => cases hm rfl; cases hc rfl; exact execHoldLimit_keeps s hk
  | ledgerTimeout => exact execLedgerTimeout_keeps s hk
  | mgmtTimeout => exact execMgmtTimeout_keeps s hk
  | qpllLock q lock ok => exact execQpllLock_keeps q lock ok s hk
  | qpllRetry q => exact execQpllRetry_keeps q s hk
  | laneLock q l => exact execLaneLock_keeps q l s hk
  | laneLoss q l high sig => exact execLaneLoss_keeps q l high sig s hk
  | laneAcquireTimeout q l => exact execLaneAcquireTimeout_keeps q l s hk
  | laneRetry q l => exact execLaneRetry_keeps q l s hk
  | laneRxWord q l e => exact execLaneRxWord_keeps q l e s hk
  | lanePacketHold q l => exact execLanePacketHold_keeps q l s hk
  | forcedFiller q l => exact execForcedFiller_keeps q l s hk
  | ctleStep q l up down => exact execCtleStep_keeps q l up down s hk
  | escanStart acc q l v => exact execEscanStart_keeps acc q l v s hk
  | escanDone q l errors => exact execEscanDone_keeps q l errors s hk
  | lneQsub acc q v => exact execLneQsub_keeps acc q v s hk
  | sliceSwitchDone q l => exact execSliceSwitchDone_keeps q l s hk
  | channelDown c => exact execChannelDown_keeps c s hk
  | xmcRetire acc v => exact execXmcRetire_keeps acc v s hk
  | retireFlushDone => exact execRetireFlushDone_keeps s hk
  | retireWalkPage f => cases hm rfl; cases hc rfl; exact execRetireWalkPage_keeps f s hk
  | xmcModeWrite acc v => exact execXmcModeWrite_keeps acc v s hk
  | modeChange => exact execModeChange_keeps s hk
  | secKgen acc v => exact execSecKgen_keeps acc v s hk
  | cfgPload acc v => exact execCfgPload_keeps acc v s hk
  | partialLoadTake => cases hm rfl; exact execPartialLoadTake_keeps s hk
  | partialLoadComplete crcOk sigOk => cases hm rfl; exact execPartialLoadComplete_keeps crcOk sigOk s hk
  | journalWrite ok => exact execJournalWrite_keeps ok s hk
  | journalCompact ok => exact execJournalCompact_keeps ok s hk
  | steepVisit n x => cases hm rfl; exact execSteepVisit_keeps n x s hk
  | frameRefetchDone words ok clean => exact execFrameRefetchDone_keeps words ok clean s hk
  | scrRelease acc v => exact execScrRelease_keeps acc v s hk
  | scrTest acc v => exact execScrTest_keeps acc v s hk
  | tourTestStart kind sc => exact execTourTestStart_keeps kind sc s hk
  | tourlateCheck n => exact execTourlateCheck_keeps n s hk
  | columnCopyDone n => exact execColumnCopyDone_keeps n s hk
  | bistTestEnd a => cases hm rfl; exact execBistTestEnd_keeps a s hk
  | analogCheckPeriod => exact execAnalogCheckPeriod_keeps s hk
  | ageMeasure n ages => cases hm rfl; exact execAgeMeasure_keeps n ages s hk
  | hoursTick => exact execHoursTick_keeps s hk
  | pllLock k => exact execPllLock_keeps k s hk
  | sourceWindow k j r => cases hm rfl; cases hc rfl; exact execSourceWindow_keeps k j r s hk
  | sourceNoEdge k j => cases hm rfl; cases hc rfl; exact execSourceNoEdge_keeps k j s hk
  | pllLockLoss k => cases hm rfl; cases hc rfl; exact execPllLockLoss_keeps k s hk
  | altrefMove k => exact execAltrefMove_keeps k s hk
  | holdoverEnd k => cases hm rfl; cases hc rfl; exact execHoldoverEnd_keeps k s hk
  | domainSelect acc d v => exact execDomainSelect_keeps acc d v s hk
  | gateCloseRequest u => exact execGateCloseRequest_keeps u s hk
  | gateTimeout u => exact execGateTimeout_keeps u s hk
  | gateClosed u => exact execGateClosed_keeps u s hk
  | gateReopen u => exact execGateReopen_keeps u s hk
  | pointChangeRequest acc v => exact execPointChangeRequest_keeps acc v s hk
  | wakeRequest acc v => exact execWakeRequest_keeps acc v s hk
  | powerDownRequest acc v => exact execPowerDownRequest_keeps acc v s hk
  | kettleAdmit => exact execKettleAdmit_keeps s hk
  | pointChangeDone n d => exact execPointChangeDone_keeps n d s hk
  | wakeZeroingDone n => cases hm rfl; exact execWakeZeroingDone_keeps n s hk
  | earlyWakeCheck => exact execEarlyWakeCheck_keeps s hk
  | powerDownWaitEnd n => cases hm rfl; exact execPowerDownWaitEnd_keeps n s hk
  | powerMeasure vin iin inp stk => exact execPowerMeasure_keeps vin iin inp stk s hk
  | powerThrottleStep => exact execPowerThrottleStep_keeps s hk
  | currentLimit iin => exact execCurrentLimit_keeps iin s hk
  | phaseFailure r p reason => cases hm rfl; cases hc rfl; exact execPhaseFailure_keeps r p reason s hk
  | tempSample l => cases hm rfl; cases hc rfl; exact execTempSample_keeps l s hk
  | thermalSkipStep => exact execThermalSkipStep_keeps s hk
  | divisionStart n => exact execDivisionStart_keeps n s hk
  | divisionEnd => exact execDivisionEnd_keeps s hk
  | sensorStuck x => exact execSensorStuck_keeps x s hk
  | sensorRecheck x => exact execSensorRecheck_keeps x s hk
  | vioCheck a b => exact execVioCheck_keeps a b s hk
  | mailboxFillTimeout k => exact execMailboxFillTimeout_keeps k s hk
  | slotRead acc k => exact execSlotRead_keeps acc k s hk
  | mbxAck acc v => exact execMbxAck_keeps acc v s hk
  | crcClr acc k v => exact execCrcClr_keeps acc k v s hk
  | crcResLoRead acc k => exact execCrcResLoRead_keeps acc k s hk
  | serviceFrame f => cases hc rfl; exact execServiceFrame_keeps f s hk
  | serviceFrameShort f => cases hc rfl; exact execServiceFrameShort_keeps f s hk
  | testPortAccess wr a v => cases hc rfl; exact execTestPortAccess_keeps wr a v s hk
  | configWordUeAtUse n frame cell => cases hm rfl; exact execConfigWordUeAtUse_keeps n frame cell s hk
  | regionFabricClockEdge n pins => exact execRegionFabricClockEdge_keeps n pins s hk
  | startPllTimeout => cases hm rfl; cases hc rfl; exact execStartPllTimeout_keeps s hk
  | analogCheckEnd a => cases hm rfl; cases hc rfl; exact execAnalogCheckEnd_keeps a s hk
  | laneTxBlock q l => exact execLaneTxBlock_keeps q l s hk
  | engResume acc n e v => exact execEngResume_keeps acc n e v s hk

/-- A sound state, with nothing held but its queue. -/
theorem State.Inv.keeps {s : State} (h : s.Inv) : Keeps ⟨s.pending, none, none⟩ s :=
  ⟨rfl, h, (by intro m e; cases e), (by intro c e; cases e)⟩

/-- A sound state, with its chip state held. -/
theorem State.Inv.keeps_chip {s : State} (h : s.Inv) : Keeps ⟨s.pending, none, some s.chip⟩ s :=
  ⟨rfl, h, (by intro m e; cases e), (Keeps.self h).chip⟩

theorem exec_keeps_inv {c : Instr} {s t : State} (hs : s.Inv) (ht : exec c s = .next t) : t.Inv :=
  ((exec_keeps c s (fun _ => rfl) (fun _ => rfl) hs.keeps).keeps t ht).inv

theorem exec_keeps_chip_core {c : Instr} {s t : State} (hc : c.reachesChipState = false) (hs : s.Inv)
    (ht : exec c s = .next t) : t.chip.core = s.chip.core :=
  ((exec_keeps c s (fun _ => rfl) (fun h => by simp [hc] at h) hs.keeps_chip).keeps t ht).core

/-- Chips that agree but for degraded health and the restarts of the watchdog are in one state. -/
theorem Chip.state_eq_of_core {c d : Chip} (h : c.core = d.core) : c.state = d.state := (congrArg Chip.state h :)

/-! ### Every step -/

theorem step_of_empty {s : State} (hp : s.pending = []) : step s = .next s.tickTimebase := by
  rw [step, hp]

theorem step_of_front {s : State} {c : Instr} {rest : List Instr} (hp : s.pending = c :: rest) :
    step s = exec c { s with pending := rest } := by
  rw [step, hp]

/-- The invariant does not speak of the queue. -/
theorem State.Inv.with_pending {s : State} (h : s.Inv) (q : List Instr) : ({ s with pending := q } : State).Inv := h

/-- Settles O4: the reset tables are empty or canonical, and nothing is driven. -/
theorem resetStateIsSound : Obligations.ResetStateIsSound := by
  have hcanon : State.reset.Canonical := ⟨rfl, resetRegs_wf⟩
  have houts : State.reset.OutputsSound := ⟨nofun, nofun⟩
  exact ⟨hcanon, houts⟩

/-- Settles O5: a step is one cycle of the timebase or the front command on the rest of the queue. -/
theorem everyStepKeepsTheInvariant : Obligations.EveryStepKeepsTheInvariant := by
  intro s t hs ht
  cases hp : s.pending with
  | nil =>
    rw [step_of_empty hp] at ht
    cases ht
    exact (s.tickTimebase_keeps hs.keeps).inv
  | cons c rest =>
    rw [step_of_front hp] at ht
    exact exec_keeps_inv (hs.with_pending rest) ht

/-- Settles O8: the laws of the commands that do not reach the chip state hold it fixed. -/
theorem onlyTheseCommandsChangeTheChipState : Obligations.OnlyTheseCommandsChangeTheChipState :=
  fun _ _ _ hc hs ht => Chip.state_eq_of_core (exec_keeps_chip_core hc hs ht)

end Sys2Proof.Machine
end

section
/-! PROOFS. OFF, POR, LOAD and the entry into SAFE (02 R42, R43, R47, R49). -/

namespace Sys2Proof.Machine

/-! ### The supply and PORST_N (R42, R43) -/

theorem exec_vinLockoutRise (s : State) :
    exec .vinLockoutRise s = .next (if s.chip.state = .off then ({ s with cyc := 0 } : State).toPor else s) := rfl

theorem exec_vinLockoutFall (s : State) :
    exec .vinLockoutFall s = .next (if s.chip.state = .off then s else s.toOff) := rfl

theorem exec_porstNLow (s : State) :
    exec .porstNLow s = .next (if s.chip.state = .off ∨ s.chip.state = .por then s else s.toPor) := rfl

theorem exec_porToLoad (s : State) :
    exec .porToLoad s = .next (if s.chip.state = .por ∧ (s.srcReady 0 ∨ s.srcReady 1) then s.toLoad else s) := rfl

/-- In POR nothing is driven and every register field has its Reset value, SUP_LOCK apart. -/
theorem State.toPor_undriven_reset (s : State) :
    s.toPor.chip.state = .por ∧ s.toPor.chip.outputs = false ∧ s.toPor.chip.hlth = false ∧
      ∀ f : Fld, f.key ∉ [SUP_LOCK_VALID.key, SUP_LOCK_WHERE.key, SUP_LOCK_PC.key] → s.toPor.rd f = State.reset.rd f := by
  rw [s.toPor_chip]
  exact ⟨rfl, rfl, rfl, s.toPor_rd⟩

/-- Settles O9: each pin is one branch on the chip state, and what POR, OFF and LOAD leave is known of them. -/
theorem supplyAndResetPinsMoveTheChip : Obligations.SupplyAndResetPinsMoveTheChip := by
  refine ⟨?rise, ?noRise, ?porst, ?noPorst, ?fall, ?noFall, ?load, ?noLoad⟩
  case rise => exact fun s h => ⟨_, by rw [exec_vinLockoutRise, if_pos h], State.toPor_undriven_reset _⟩
  case noRise => exact fun s h => by rw [exec_vinLockoutRise, if_neg h]
  case porst =>
    exact fun s hoff hpor => ⟨_, by rw [exec_porstNLow, if_neg (not_or.mpr ⟨hoff, hpor⟩)], s.toPor_undriven_reset⟩
  case noPorst => exact fun s h => by rw [exec_porstNLow, if_pos h]
  case fall =>
    exact fun s h => ⟨_, by rw [exec_vinLockoutFall, if_neg h], by simp [s.toOff_chip, s.toOff_log, s.toOff_bankMem]⟩
  case noFall => exact fun s h => by rw [exec_vinLockoutFall, if_pos h]
  case load =>
    intro s hpor hready
    rw [Bool.or_eq_true] at hready
    exact ⟨_, by rw [exec_porToLoad, if_pos ⟨hpor, hready⟩], by simp [s.toLoad_chip]⟩
  case noLoad =>
    intro s h
    rw [← Bool.not_eq_true, Bool.or_eq_true] at h
    rw [exec_porToLoad, if_neg (Classical.not_and_iff_not_or_not.mpr h)]

/-! ### The entry into SAFE (R47, R49) -/

/-- The chip's own state once SAFE is entered for `cause` (R49 step 1). -/
def Chip.inSafe (c : Chip) (cause : Nat) (stamp : Option Nat) : Chip := { c with
  state := .safe, entering := true, entryOld := c.state, entryMask := 2 ^ cause, stayMask := 2 ^ cause
  entryStamp := stamp, haltPending := haltAfter cause, reloadHeld := false
  outputs := false, hlth := false, wdRun := false }

/-- The steps of the SAFE entry after the first leave the chip's own state alone. -/
theorem State.enterSafe_core {s : State} (hs : s.Inv) (cause : Nat) : (s.enterSafe cause).chip.core =
    (s.chip.inSafe cause (if s.tb.running then some s.stamp else none)).core := by
  unfold State.enterSafe
  extract_lets old stamp latched entered supStopped matcherStopped outputsClear
  have hlatched : Keeps ⟨s.pending, none, none⟩ latched := s.latchCause_keeps cause hs.keeps
  have hundriven : entered.OutputsSound := ⟨Bool.noConfusion, Bool.noConfusion⟩
  have hentered : entered.Inv := ⟨hlatched.inv.1, hundriven⟩
  have hsup := entered.supInSafe_keeps cause true hentered.keeps_chip
  have hmatcher := supStopped.stopMatcher_keeps hsup
  have houtputs : Keeps ⟨entered.pending, none, some entered.chip⟩ outputsClear :=
    Keeps.foldl (fun t o ht => t.clearEvo_keeps o ht) hmatcher
  exact (State.xmcStop_keeps _ (State.safeClose_keeps _ houtputs)).core

/-- SAFE has just been entered from the chip state `old` for `cause`: nothing is driven, and HALT follows where the
cause asks for it. -/
def State.EnteredSafe (t : State) (old : ChipState) (cause : Nat) : Prop :=
  t.chip.state = .safe ∧ t.chip.entering = true ∧ t.chip.entryOld = old ∧ t.chip.stayMask = 2 ^ cause ∧
    t.chip.outputs = false ∧ t.chip.hlth = false ∧ t.chip.haltPending = haltAfter cause

theorem State.enterSafe_entered {s : State} (hs : s.Inv) (cause : Nat) :
    (s.enterSafe cause).EnteredSafe s.chip.state cause := by
  have h := State.enterSafe_core hs cause
  simp only [Chip.core, Chip.inSafe, Chip.mk.injEq] at h
  simp only [State.EnteredSafe, h, and_self]

/-- The chip states from which a doubt enters SAFE (R47). -/
def State.Doubtable (s : State) : Prop := s.chip.state = .load ∨ s.chip.state = .start ∨ s.chip.state = .run

theorem State.doubt_entered {s : State} (hs : s.Inv) (ha : s.Doubtable) (cause : Nat) :
    (s.doubt cause).EnteredSafe s.chip.state cause := by
  have h : s.doubt cause = s.enterSafe cause := by
    obtain h | h | h := ha <;> rw [State.doubt, h]
  exact h ▸ State.enterSafe_entered hs cause

/-- Where there is no stack, doubt changes nothing (R47). -/
theorem State.doubt_of_unpowered {s : State} (h : s.chip.state = .off ∨ s.chip.state = .por ∨ s.chip.state = .halt)
    (cause : Nat) : s.doubt cause = s := by
  obtain h | h | h := h <;> rw [State.doubt, h]

/-- The pair's disagreement as SUP_LOCK latches it (24 R659). -/
def State.supLocked (s : State) (w : Fin 4) : State :=
  ((s.raise SUP_LOCK_VALID).wr SUP_LOCK_WHERE w.val).wr SUP_LOCK_PC s.sup.eng.cur.pc

theorem State.supLocked_inv {s : State} (hs : s.Inv) (w : Fin 4) : (s.supLocked w).Inv :=
  (State.wr_keeps _ _ _ (State.wr_keeps _ _ _ (s.raise_keeps _ hs.keeps))).inv

@[simp] theorem State.supLocked_chip (s : State) (w : Fin 4) : (s.supLocked w).chip = s.chip := rfl

theorem execLockstepMismatch_of_running {s : State} (h : s.supRuns = true) (w : Fin 4) :
    exec (.lockstepMismatch w) s = .next ((s.supLocked w).doubt 0x07) := if_neg (by simp [h])

theorem execLockstepMismatch_of_stopped {s : State} (h : s.supRuns = false) (w : Fin 4) :
    exec (.lockstepMismatch w) s = .next s := if_pos (by simp [h])

theorem execChipWatchdogExpire_due {s : State} (hc : s.wdCounts = true)
    (ht : s.chip.wdStart + s.rd SYS_WDOG_PERIOD * msCycles ≤ s.cyc) :
    exec .chipWatchdogExpire s = .next (s.doubt 0x0A) := if_pos ⟨hc, ht⟩

theorem execChipWatchdogExpire_not_due {s : State}
    (h : s.wdCounts = false ∨ s.cyc < s.chip.wdStart + s.rd SYS_WDOG_PERIOD * msCycles) :
    exec .chipWatchdogExpire s = .next s := by
  refine if_neg fun ⟨hc, ht⟩ => ?_
  obtain h | h := h
  · simp [h] at hc
  · omega

/-- Settles O10: each condition is a doubt, and a doubt in LOAD, START or RUN is the entry into SAFE. -/
theorem chipDoubtEntersSafe : Obligations.ChipDoubtEntersSafe := by
  intro s
  refine ⟨?enters, ?ignored, fun w h => execLockstepMismatch_of_stopped h w, execChipWatchdogExpire_not_due⟩
  case enters =>
    intro c k hc hs ha
    have hdoubt := State.doubt_entered hs ha k
    obtain ⟨rfl, rfl⟩ | ⟨rfl, rfl⟩ | ⟨rfl, rfl⟩ | ⟨rfl, rfl⟩ | ⟨⟨w, rfl⟩, rfl, hrun⟩ | ⟨rfl, rfl, hcount, hdue⟩ := hc
    case inl | inr.inl | inr.inr.inl | inr.inr.inr.inl => exact ⟨_, rfl, hdoubt⟩
    · exact ⟨_, execLockstepMismatch_of_running hrun w, State.doubt_entered (State.supLocked_inv hs w) ha 0x07⟩
    · exact ⟨_, execChipWatchdogExpire_due hcount hdue, hdoubt⟩
  case ignored =>
    intro c hc hoff
    obtain rfl | rfl | rfl | rfl := hc <;> exact congrArg _ (State.doubt_of_unpowered hoff _)

end Sys2Proof.Machine
end

section
/-! PROOFS. The event log: records at HEAD, records given up, and the commands that read and write it (02 R56, R58, R664,
R665). -/

namespace Sys2Proof.Machine

variable (s : State)

/-! ### A record at HEAD -/

@[simp] theorem State.logPut_recs (r : LogRec) :
    (s.logPut r).log.recs = s.log.recs.set s.log.head { r with seq := s.log.seq } := by
  unfold State.logPut; split <;> rfl

@[simp] theorem State.logPut_head (r : LogRec) : (s.logPut r).log.head = (s.log.head + 1) % 1024 := by
  unfold State.logPut; split <;> rfl

@[simp] theorem State.logPut_seq (r : LogRec) : (s.logPut r).log.seq = (s.log.seq + 1) % 65536 := by
  unfold State.logPut; split <;> rfl

@[simp] theorem State.logPut_limits (r : LogRec) : (s.logPut r).log.limits = s.log.limits := by
  unfold State.logPut; split <;> rfl

/-- With room in the log TAIL stays and no record is given up. -/
theorem State.logPut_of_room {s : State} (h : s.log.unread ≠ 1023) (r : LogRec) :
    (s.logPut r).log.tail = s.log.tail ∧ (s.logPut r).log.given = s.log.given := by
  simp [State.logPut, h]

/-- In a full log TAIL moves past the oldest record, which counts as given up (R58). -/
theorem State.logPut_of_full {s : State} (h : s.log.unread = 1023) (r : LogRec) :
    (s.logPut r).log.tail = (s.log.tail + 1) % 1024 ∧ (s.logPut r).log.given = s.log.given + 1 ∧
      (s.logPut r).rd SYS_LOG_STATUS_LOST = satAdd SYS_LOG_STATUS_LOST.width (s.rd SYS_LOG_STATUS_LOST) 1 := by
  rw [State.logPut, if_pos h]
  exact ⟨rfl, rfl, State.rd_bump _ _ _⟩

/-- HEAD never stays where it is. -/
theorem log_head_moves (h : Nat) : (h + 1) % 1024 ≠ h := by omega

theorem State.logLostNow_log : s.logLostNow.log.given = 0 ∧ s.logLostNow.log.lastLost = some s.cyc ∧
    s.logLostNow.log.seq = (s.log.seq + 1) % 65536 ∧ (s.logLostNow.log.recs.get {} s.log.head).code = 0x0004 := by
  simp [State.logLostNow, State.mkRec, (s.logPut_only _).cyc]

@[simp] theorem State.logLostNow_limits : s.logLostNow.log.limits = s.log.limits := by
  simp [State.logLostNow]

/-- The LOG_LOST record leaves every slot but HEAD alone. -/
theorem State.logLostNow_recs_other {k : Nat} (h : k ≠ s.log.head) :
    s.logLostNow.log.recs.get {} k = s.log.recs.get {} k := by
  simp [State.logLostNow, Tbl.get_set_other _ _ _ h.symm]

/-- A record is written, with or without a LOG_LOST record after it (R58). -/
theorem State.logRec_cases (r : LogRec) : s.logRec r = s.logPut r ∨ s.logRec r = (s.logPut r).logLostNow := by
  unfold State.logRec
  extract_lets t
  split
  · exact .inl rfl
  · split
    · exact .inr rfl
    · split
      · exact .inr rfl
      · exact .inl rfl

/-- No LOG_LOST record follows while none is given up. -/
theorem State.logRec_of_none_given {s : State} {r : LogRec} (h : (s.logPut r).log.given = 0) : s.logRec r = s.logPut r :=
  if_pos h

@[simp] theorem State.logRec_limits (r : LogRec) : (s.logRec r).log.limits = s.log.limits := by
  obtain h | h := s.logRec_cases r <;> simp [h]

/-- The record stands where HEAD was. -/
theorem State.logRec_recs_head (r : LogRec) :
    (s.logRec r).log.recs.get {} s.log.head = { r with seq := s.log.seq } := by
  obtain h | h := s.logRec_cases r
  · simp [h]
  · rw [h, State.logLostNow_recs_other _ (by simpa using (log_head_moves s.log.head).symm)]
    simp

/-- A record written with room in the ring and none given up (R58). -/
theorem State.logRec_of_room {s : State} (hh : s.log.head < 1024) (ht : s.log.tail < 1024) (hu : s.log.unread < 1023)
    (hg : s.log.given = 0) (r : LogRec) :
    (s.logRec r).log.recs.get {} s.log.head = { r with seq := s.log.seq } ∧
      (s.logRec r).log.head = (s.log.head + 1) % 1024 ∧ (s.logRec r).log.seq = (s.log.seq + 1) % 65536 ∧
      (s.logRec r).log.tail = s.log.tail ∧ (s.logRec r).log.unread = s.log.unread + 1 ∧
      ∀ k, k ≠ s.log.head → (s.logRec r).log.recs.get {} k = s.log.recs.get {} k := by
  obtain ⟨htail, hgiven⟩ := State.logPut_of_room (Nat.ne_of_lt hu) r
  rw [State.logRec_of_none_given (hgiven.trans hg)]
  have hunread : (s.logPut r).log.unread = s.log.unread + 1 := by
    simp only [EventLog.unread, State.logPut_head, htail] at hu ⊢
    omega
  have hother (k : Nat) (h : k ≠ s.log.head) : (s.logPut r).log.recs.get {} k = s.log.recs.get {} k := by
    rw [State.logPut_recs, Tbl.get_set_other _ _ _ h.symm]
  exact ⟨by simp, by simp, by simp, htail, hunread, hother⟩

/-- A record written with 1,023 unread ones (R58). -/
theorem State.logPut_full {s : State} (hu : s.log.unread = 1023) (r : LogRec) :
    (s.logPut r).log.unread = 1023 ∧ (s.logPut r).log.tail = (s.log.tail + 1) % 1024 ∧
      (s.logPut r).log.recs.get {} s.log.head = { r with seq := s.log.seq } ∧
      (s.logPut r).log.given = s.log.given + 1 ∧
      (s.logPut r).rd SYS_LOG_STATUS_LOST = satAdd SYS_LOG_STATUS_LOST.width (s.rd SYS_LOG_STATUS_LOST) 1 := by
  obtain ⟨htail, hgiven, hlost⟩ := State.logPut_of_full hu r
  have hunread : (s.logPut r).log.unread = 1023 := by
    simp only [EventLog.unread, State.logPut_head, htail] at hu ⊢
    omega
  exact ⟨hunread, htail, by simp, hgiven, hlost⟩

/-! ### Firmware's records (R665) -/

theorem exec_logWcmd (a : Accessor) (v : Word) : exec (.logWcmd a v) s = .next (s.writeWcmd v.toNat) := rfl

theorem State.writeWcmd_taken {v : Nat} (hgo : bitOf v 31 = true) (hclr : bitOf v 30 = false)
    (hcode : 0xF000 ≤ bitsOf v 15 0) : s.writeWcmd v = ({ s with rsp := ⟨0, 0⟩ } : State).logEv (bitsOf v 15 0)
      (bitsOf v 23 20) (bitsOf v 19 16) (s.rd SYS_LOG_WUNIT_UNIT)
      (s.rd SYS_LOG_WD0_DETAIL + s.rd SYS_LOG_WD1_DETAIL * 2 ^ 32) := by
  simp only [State.writeWcmd, hgo, hclr, Nat.not_lt.mpr hcode, if_false, Bool.not_true, Bool.false_eq_true]
  rfl

/-- A CODE below 0xF000 is no code of firmware's. -/
theorem State.writeWcmd_refused {v : Nat} (hgo : bitOf v 31 = true) (hcode : bitsOf v 15 0 < 0xF000) :
    (s.writeWcmd v).rd SYS_LOG_WCMD_REFUSED = 1 ∧ (s.writeWcmd v).log = s.log := by
  simp only [State.writeWcmd, hgo, hcode, if_true, Bool.not_true, Bool.false_eq_true, if_false]
  refine ⟨State.rd_raise _ _ (by decide), ?_⟩
  rw [State.raise_eq, State.wr_log]
  split <;> rfl

theorem State.writeWcmd_clears {v : Nat} (hgo : bitOf v 31 = false) (hclr : bitOf v 30 = true) :
    s.writeWcmd v = ({ s with rsp := ⟨0, 0⟩ } : State).wr SYS_LOG_WCMD_REFUSED 0 := by
  simp only [State.writeWcmd, hgo, hclr, if_true, Bool.not_false]

/-! ### Lost and limited records (R58, R664) -/

theorem exec_logLost_due {s : State} {t0 : Nat} (hl : s.log.lastLost = some t0) (hg : 0 < s.log.given)
    (ht : t0 + msCycles ≤ s.cyc) : exec .logLost s = .next s.logLostNow := by
  show execLogLost s = _
  rw [execLogLost, hl]
  exact congrArg Host.Outcome.next (if_pos ⟨hg, ht⟩)

theorem exec_logLost_never {s : State} (hl : s.log.lastLost = none) : exec .logLost s = .next s := by
  show execLogLost s = _
  rw [execLogLost, hl]

/-- The limiters of another code or scope. -/
def otherLimits (c : BitVec 16) (u : BitVec 24) (l : List RateLimit) : List RateLimit :=
  l.filter fun x => !(decide (x.code = c.toNat) && decide (x.scope = u.toNat))

theorem exec_rateLimitFlush_due {s : State} {c : BitVec 16} {u : BitVec 24} {l : RateLimit} {rest : List RateLimit}
    (hl : s.log.limits = l :: rest) (hc : l.code = c.toNat) (hu : l.scope = u.toNat) (hheld : l.held ≠ 0)
    (ht : l.last + msCycles ≤ s.cyc) : exec (.rateLimitFlush c u) s =
      let t := s.logRec (l.record.withCountAt l.held)
      .next { t with log := { t.log with
        limits := ⟨l.code, l.scope, t.cyc, 0, l.record⟩ :: otherLimits c u t.log.limits } } := by
  show execRateLimitFlush c u s = _
  have hwaits : ¬(l.held = 0 ∨ s.cyc < l.last + msCycles) := by omega
  simp only [execRateLimitFlush, hl, List.find?_cons, hc, hu, decide_true, Bool.and_self, hwaits, if_false]
  rfl

theorem exec_rateLimitFlush_none {s : State} (hl : s.log.limits = []) (c : BitVec 16) (u : BitVec 24) :
    exec (.rateLimitFlush c u) s = .next s := by
  show execRateLimitFlush c u s = _
  simp only [execRateLimitFlush, hl, List.find?_nil]

/-- Settles O16: each clause is a branch of its command's meaning, or what `logPut` leaves in the ring. -/
theorem eventLogRecordsAndCommands : Obligations.EventLogRecordsAndCommands := by
  intro s
  refine ⟨?tail, ?taken, ?refused, ?clears, ?lost, exec_logLost_never, ?flush, ?noFlush, ?ring⟩
  case tail => exact fun a v => rfl
  case taken => exact fun a v hgo hclr hcode => by rw [exec_logWcmd, s.writeWcmd_taken hgo hclr hcode]
  case refused => exact fun a v hgo hcode => ⟨_, exec_logWcmd s a v, s.writeWcmd_refused hgo hcode⟩
  case clears => exact fun a v hgo hclr => by rw [exec_logWcmd, s.writeWcmd_clears hgo hclr]
  case lost =>
    intro t0 hl hg ht
    obtain ⟨hgiven, hlast, hseq, hcode⟩ := s.logLostNow_log
    exact ⟨_, exec_logLost_due hl hg ht, hgiven, hlast, hcode, hseq⟩
  case flush =>
    intro c u l rest hl hc hu hheld ht
    refine ⟨_, exec_rateLimitFlush_due hl hc hu hheld ht, by simp [hc, hu], ?_, by simp⟩
    simp only [s.logRec_recs_head]
  case noFlush => exact fun c u hl => exec_rateLimitFlush_none hl c u
  case ring => exact fun r hh ht => ⟨fun hu hg => State.logRec_of_room hh ht hu hg r, fun hu => State.logPut_full hu r⟩

end Sys2Proof.Machine
end

section
/-! PROOFS. Rules of the timebase and its encoder ports: what each operation gives in the ports, in the rest of the
timebase and in the registers (03 R71 to R92). -/

namespace Sys2Proof.Machine

variable (s : State)

/-! ### A change of one port -/

/-- The timebase but for its encoder ports. -/
def Timebase.bare (t : Timebase) : Timebase := { t with ports := [] }

@[simp] theorem State.port_modPort (k : Nat) (f : EncPort → EncPort) : (s.modPort k f).port k = f (s.port k) :=
  Tbl.get_set_same ..

@[simp] theorem State.modPort_bare (k : Nat) (f : EncPort → EncPort) : (s.modPort k f).tb.bare = s.tb.bare := rfl
@[simp] theorem State.modPort_evt (k : Nat) (f : EncPort → EncPort) : (s.modPort k f).evt = s.evt := rfl
@[simp] theorem State.rd_modPort (k : Nat) (f : EncPort → EncPort) (g : Fld) : (s.modPort k f).rd g = s.rd g := rfl
@[simp] theorem State.flag_modPort (k : Nat) (f : EncPort → EncPort) (g : Fld) :
    (s.modPort k f).flag g = s.flag g := rfl
@[simp] theorem State.modPort_running (k : Nat) (f : EncPort → EncPort) :
    (s.modPort k f).tb.running = s.tb.running := rfl
@[simp] theorem State.modPort_srcAct (k : Nat) (f : EncPort → EncPort) :
    (s.modPort k f).tb.srcAct = s.tb.srcAct := rfl

theorem State.port_congr {s t : State} (h : t.tb = s.tb) (k : Nat) : t.port k = s.port k := by
  rw [State.port, h, State.port]

/-! ### Counters of a port -/

@[simp] theorem State.bump_tb (f : Fld) (n : Nat) : (s.bump f n).tb = s.tb := rfl
@[simp] theorem State.bump_evt (f : Fld) (n : Nat) : (s.bump f n).evt = s.evt := rfl

/-! ### A quadrature error (R72, R103) -/

/-- A quadrature error counts and is logged; the port then has its first record. -/
theorem State.quadError_cases (k : Nat) : ∃ t, LogOnly (s.bump (PTB_ENC_ERR_QERR k)) t ∧
    ((s.port k).qlogged = true ∧ s.quadError k = t ∨
      s.quadError k = t.modPort k fun p => { p with qlogged := true }) := by
  unfold State.quadError
  extract_lets counted scope r mine held
  split
  case isTrue h => exact ⟨_, counted.logLimited_only scope r, .inl ⟨h, rfl⟩⟩
  case isFalse => exact ⟨_, (counted.logRec_only _).log, .inr rfl⟩

@[simp] theorem State.quadError_port (k : Nat) : (s.quadError k).port k = { s.port k with qlogged := true } := by
  obtain ⟨t, ht, ⟨hq, h⟩ | h⟩ := s.quadError_cases k
  · rw [h, State.port_congr ht.tb, ← hq]; rfl
  · rw [h, State.port_modPort, State.port_congr ht.tb]; rfl

@[simp] theorem State.quadError_bare (k : Nat) : (s.quadError k).tb.bare = s.tb.bare := by
  obtain ⟨t, ht, ⟨-, h⟩ | h⟩ := s.quadError_cases k <;> simp [h, ht.tb]

@[simp] theorem State.quadError_evt (k : Nat) : (s.quadError k).evt = s.evt := by
  obtain ⟨t, ht, ⟨-, h⟩ | h⟩ := s.quadError_cases k <;> simp [h, ht.evt]

theorem State.rd_quadError_qerr (k : Nat) : (s.quadError k).rd (PTB_ENC_ERR_QERR k) =
    satAdd (PTB_ENC_ERR_QERR k).width (s.rd (PTB_ENC_ERR_QERR k)) 1 := by
  have hkey : (PTB_ENC_ERR_QERR k).key ≠ SYS_LOG_STATUS_LOST.key := by
    simp only [Fld.key, PTB_ENC_ERR_QERR, SYS_LOG_STATUS_LOST]; omega
  obtain ⟨t, ht, ⟨-, h⟩ | h⟩ := s.quadError_cases k <;>
    simp only [h, State.rd_modPort, ht.rd _ hkey, State.rd_bump]

/-! ### A counted change of a port that is not the source (R71, R72) -/

/-- The count takes `d`, in 64 bits, and the port remembers the direction (R79). -/
def EncPort.counted (p : EncPort) (d : Int) : EncPort :=
  let sign : Int := if d < 0 then -1 else 1
  { p with
    cnt := signedOf 64 (unsignedOf 64 (p.cnt + d))
    dir := sign
    zPrev := if p.dir = -sign then none else p.zPrev }

/-- Where another source drives the position, a change of the port's count changes the port only. -/
theorem State.portCount_of_other {s : State} {k : Nat} {d : Int} (hd : d ≠ 0) (h : s.tb.srcAct ≠ k) :
    s.portCount k d = s.modPort k fun p => p.counted d := by
  rw [State.portCount, if_neg hd]
  refine if_neg fun hdrives => ?_
  simp only [Bool.and_eq_true, beq_iff_eq] at hdrives
  obtain ⟨⟨-, hsrc⟩, -⟩ := hdrives
  exact h hsrc

theorem State.portCount_zero (k : Nat) : s.portCount k 0 = s := if_pos rfl

/-- The port takes the change `c` of R71: it counts `c.1`, a quadrature error where `c.2` says so. -/
def State.takeChange (s : State) (k : Nat) (c : Int × Bool) : State :=
  (if c.2 then s.quadError k else s).portCount k c.1

theorem State.takeChange_counts {s : State} {k : Nat} {d : Int} (hd : d ≠ 0) (h : s.tb.srcAct ≠ k) :
    s.takeChange k (d, false) = s.modPort k fun p => p.counted d := State.portCount_of_other hd h

theorem State.takeChange_none (k : Nat) : s.takeChange k (0, false) = s := s.portCount_zero k

theorem State.takeChange_error (k : Nat) : s.takeChange k (0, true) = s.quadError k := (s.quadError k).portCount_zero k

/-- Whatever a port that is not the source counts, the timebase apart from the ports, the event table and the port's
levels stay. -/
theorem State.takeChange_frame {s : State} {k : Nat} (h : s.tb.srcAct ≠ k) (c : Int × Bool) :
    (s.takeChange k c).tb.bare = s.tb.bare ∧ (s.takeChange k c).evt = s.evt ∧
      ((s.takeChange k c).port k).a = (s.port k).a ∧ ((s.takeChange k c).port k).b = (s.port k).b := by
  obtain ⟨d, bad⟩ := c
  have hsame : (s.quadError k).tb.srcAct = s.tb.srcAct := (congrArg Timebase.srcAct (s.quadError_bare k) :)
  have herr : (s.quadError k).tb.srcAct ≠ k := hsame ▸ h
  by_cases hd : d = 0
  · subst hd
    cases bad
    · simp [State.takeChange_none]
    · simp [State.takeChange_error]
  · cases bad
    · simp [State.takeChange_counts hd h, EncPort.counted]
    · simp [State.takeChange, State.portCount_of_other hd herr, EncPort.counted]

end Sys2Proof.Machine
end

section
/-! PROOFS. Quadrature counting of an encoder port (03 R71, R72, R74, R76). -/

namespace Sys2Proof.Machine

/-! ### The change that new levels make in x4 mode (R71, R72) -/

/-- The place of the levels (A, B) in the order 00, 10, 11, 01. -/
def quadPlace (a b : Bool) : Nat := if a then (if b then 2 else 1) else (if b then 3 else 0)

section
variable {a b a' b' : Bool}

theorem portChange_x4_next (h : quadPlace a' b' = (quadPlace a b + 1) % 4) : portChange 3 a b a' b' = (1, false) := by
  revert a b a' b'; decide

theorem portChange_x4_previous (h : quadPlace a b = (quadPlace a' b' + 1) % 4) :
    portChange 3 a b a' b' = (-1, false) := by
  revert a b a' b'; decide

theorem portChange_x4_two (h : quadPlace a' b' = (quadPlace a b + 2) % 4) : portChange 3 a b a' b' = (0, true) := by
  revert a b a' b'; decide

theorem portChange_x4_same (h : quadPlace a' b' = quadPlace a b) : portChange 3 a b a' b' = (0, false) := by
  revert a b a' b'; decide

end

/-! ### The edge -/

/-- The port with new accepted levels of A and B. -/
def State.withLevels (s : State) (k : Nat) (a b : Bool) : State := s.modPort k fun p => { p with a := a, b := b }

@[simp] theorem State.withLevels_port (s : State) (k : Nat) (a b : Bool) :
    (s.withLevels k a b).port k = { s.port k with a := a, b := b } := s.port_modPort ..

/-- The change that new accepted levels make: a faulted input counts as unchanged (R81), DIRINV inverts (R73). -/
def State.levelChange (s : State) (k : Nat) (a' b' : Bool) : Int × Bool :=
  let p := s.port k
  let c := portChange (s.rd (PTB_ENC_CFG_MODE k)) (if p.wireA then a' else p.a) (if p.wireB then b' else p.b) a' b'
  (if s.flag (PTB_ENC_CFG_DIRINV k) then -c.1 else c.1, c.2)

/-- Accepted levels are taken; once the first 16 cycles are over the port takes their change too (R74). -/
theorem exec_encoderEdge_levels (s : State) (k : Fin 4) (a' b' : Bool) : exec (.encoderEdge k (.levels a' b')) s =
    if (!s.tb.running || decide (s.cyc < s.tb.startCyc + 16)) = true then .next (s.withLevels k a' b')
    else .next ((s.withLevels k a' b').takeChange k (s.levelChange k a' b')) := rfl

variable {s : State} {k : Fin 4} {a b a' b' : Bool}

theorem exec_encoderEdge_early (h : s.tb.running = false ∨ s.cyc < s.tb.startCyc + 16) :
    exec (.encoderEdge k (.levels a' b')) s = .next (s.withLevels k a' b') := by
  rw [exec_encoderEdge_levels, if_pos]
  simpa using h

theorem exec_encoderEdge_late (hrun : s.tb.running = true) (ht : s.tb.startCyc + 16 ≤ s.cyc) :
    exec (.encoderEdge k (.levels a' b')) s =
      .next ((s.withLevels k a' b').takeChange k (s.levelChange k a' b')) := by
  rw [exec_encoderEdge_levels, if_neg]
  simp [hrun, ht]

/-- In x4 mode, without DIRINV and wire faults, the change is that of the port's own levels. -/
theorem State.levelChange_x4 (hmode : s.rd (PTB_ENC_CFG_MODE k) = 3) (hdir : s.flag (PTB_ENC_CFG_DIRINV k) = false)
    (hA : (s.port k).wireA = false) (hB : (s.port k).wireB = false) :
    s.levelChange k a' b' = portChange 3 (s.port k).a (s.port k).b a' b' := by
  simp [State.levelChange, hmode, hdir, hA, hB]

/-- Settles O21: the change is one of four by the places of the levels, and where another source drives the position
it reaches the port alone. -/
theorem encoderPortsCountQuadrature : Obligations.EncoderPortsCountQuadrature := by
  intro s k a b a' b'
  refine ⟨?counts, exec_encoderEdge_early, rfl⟩
  intro hrun ht hmode hdir hA hB hsrc ha hb
  have hchange : s.levelChange k a' b' = portChange 3 a b a' b' := by
    rw [State.levelChange_x4 hmode hdir hA hB, ha, hb]
  have hother : (s.withLevels k a' b').tb.srcAct ≠ k := hsrc
  obtain ⟨hbare, hevt, ha', hb'⟩ := State.takeChange_frame hother (s.levelChange k a' b')
  rw [State.withLevels_port] at ha' hb'
  refine ⟨_, exec_encoderEdge_late hrun ht, ha', hb', (congrArg Timebase.c hbare :),
    (congrArg Timebase.track hbare :), hevt, ?next, ?previous, ?two, ?same⟩
  case next =>
    intro hq
    rw [hchange, portChange_x4_next hq, State.takeChange_counts Int.one_ne_zero hother]
    exact ⟨by simp [EncPort.counted], rfl⟩
  case previous =>
    intro hq
    rw [hchange, portChange_x4_previous hq, State.takeChange_counts (by decide) hother]
    exact ⟨by simp [EncPort.counted, Int.sub_eq_add_neg], rfl⟩
  case two =>
    intro hq
    rw [hchange, portChange_x4_two hq, State.takeChange_error]
    exact ⟨by simp, State.rd_quadError_qerr _ k⟩
  case same =>
    intro hq
    rw [hchange, portChange_x4_same hq, State.takeChange_none]
    exact ⟨by simp, rfl⟩

end Sys2Proof.Machine
end

section
/-! PROOFS. One cycle of the timebase (03 R70). -/

namespace Sys2Proof.Machine

variable (s : State)

/-- A cycle changes the cycle count and the timebase only. -/
theorem State.tickTimebase_only : s.tickTimebase = { s with cyc := s.cyc + 1, tb := s.tickTimebase.tb } := by
  unfold State.tickTimebase
  extract_lets t v
  split <;> rfl

/-- Settles O2: the step on an empty queue is the tick, and the tick is one more cycle. -/
theorem anEmptyQueueLetsOneTimebaseCyclePass : Obligations.AnEmptyQueueLetsOneTimebaseCyclePass := by
  intro s hp
  refine ⟨step_of_empty hp, ?_, ?_⟩
  · rw [s.tickTimebase_only]
  · rw [s.tickTimebase_only, hp]

end Sys2Proof.Machine
end

section
/-! PROOFS. Index edges, wire faults and the interpolator's timeout (03 R79 to R83, R92). -/

namespace Sys2Proof.Machine

variable (s : State)

/-! ### An index edge (R79, R80) -/

/-- The measured position is made of the timebase, the ring unit, the time and the window. -/
theorem State.measured_congr {s t : State} (htb : t.tb = s.tb) (hkrl : t.krl = s.krl) (hcyc : t.cyc = s.cyc)
    (hwin : t.rd PTB_INTERP_WIN = s.rd PTB_INTERP_WIN) : t.measured = s.measured := by
  simp only [State.measured, State.reelPos, State.window, htb, hkrl, hcyc, hwin]

/-- The port takes its count as the latched one. -/
def EncPort.latched (p : EncPort) : EncPort := { p with z := true, zlat := p.cnt, zPrev := some p.cnt }

/-- The edge raises Z, then the count is latched. -/
def State.latchIndex (s : State) (k : Nat) : State :=
  (s.modPort k fun p => { p with z := true }).modPort k fun p => { p with zlat := p.cnt, zPrev := some p.cnt }

@[simp] theorem State.latchIndex_port (k : Nat) : (s.latchIndex k).port k = (s.port k).latched := by
  simp [State.latchIndex, EncPort.latched]

theorem State.latchIndex_measured (k : Nat) : (s.latchIndex k).measured = s.measured := rfl

/-- The difference `d` from the last latched count is not a revolution: ENC_INDEX. -/
def State.indexMismatch (s : State) (k : Nat) (d : Int) : State :=
  (s.bump (PTB_ENC_ERR_ZERR k)).logEv 0x0305 1 0 unitPtb (k + unsignedOf 32 d * 2 ^ 32)

theorem State.indexMismatch_only (k : Nat) (d : Int) : LogOnly (s.bump (PTB_ENC_ERR_ZERR k)) (s.indexMismatch k d) :=
  State.logEv_only ..

@[simp] theorem State.indexMismatch_port (k : Nat) (d : Int) : (s.indexMismatch k d).port k = s.port k :=
  State.port_congr (s.indexMismatch_only k d).tb k

theorem State.rd_indexMismatch_zerr (k : Nat) (d : Int) : (s.indexMismatch k d).rd (PTB_ENC_ERR_ZERR k) =
    satAdd (PTB_ENC_ERR_ZERR k).width (s.rd (PTB_ENC_ERR_ZERR k)) 1 := by
  have hkey : (PTB_ENC_ERR_ZERR k).key ≠ SYS_LOG_STATUS_LOST.key := by
    simp only [Fld.key, PTB_ENC_ERR_ZERR, SYS_LOG_STATUS_LOST]; omega
  rw [(s.indexMismatch_only k d).rd _ hkey, State.rd_bump]

theorem State.indexMismatch_measured (k : Nat) (d : Int) : (s.indexMismatch k d).measured = s.measured := by
  have honly := s.indexMismatch_only k d
  have hlost : PTB_INTERP_WIN.key ≠ SYS_LOG_STATUS_LOST.key := by decide
  have hzerr : (PTB_ENC_ERR_ZERR k).key ≠ PTB_INTERP_WIN.key := by
    simp only [Fld.key, PTB_ENC_ERR_ZERR, PTB_INTERP_WIN]; omega
  refine State.measured_congr honly.tb honly.krl honly.cyc ?_
  rw [honly.rd _ hlost, State.bump_eq, State.rd_wr_other _ _ _ _ hzerr]

/-- With INDEX off Z rises and nothing is latched. -/
theorem exec_indexEdge_off {s : State} {k : Fin 4} (h : s.rd (PTB_ENC_CFG_INDEX k) = 0) :
    exec (.indexEdge k .rise) s = .next (s.modPort k fun p => { p with z := true }) :=
  if_pos (by simp [h])

/-- A rising edge that latches: INDEX is on, Z was low and has no wire fault, no qualifier is asked, the timebase
runs. -/
def State.IndexLatches (s : State) (k : Nat) : Prop :=
  s.rd (PTB_ENC_CFG_INDEX k) ≠ 0 ∧ (s.port k).z = false ∧ (s.port k).wireZ = false ∧
    s.flag (PTB_ENC_CFG_ZQUAL k) = false ∧ s.tb.running = true

theorem exec_indexEdge_latches {s : State} {k : Fin 4} (h : s.IndexLatches k) : exec (.indexEdge k .rise) s =
    match (s.port k).zPrev with
    | some old =>
      if s.rd (PTB_ENC_CFG_INDEX k) = 2 ∧ ((s.port k).cnt - old).natAbs ≠ s.rd (PTB_ENC_ZCHK_PERREV k)
      then .next ((s.latchIndex k).indexMismatch k ((s.port k).cnt - old))
      else .next (s.latchIndex k)
    | none => .next (s.latchIndex k) := by
  obtain ⟨hmode, hz, hwire, hqual, hrun⟩ := h
  refine if_neg ?_
  rintro (hoff | hnot)
  · exact hmode hoff
  · simp [hz, hwire, hqual, hrun] at hnot

/-- No check, no earlier index count, or a whole revolution since: the count is latched only. -/
theorem exec_indexEdge_match {s : State} {k : Fin 4} (h : s.IndexLatches k)
    (hok : ¬∃ old, (s.port k).zPrev = some old ∧ s.rd (PTB_ENC_CFG_INDEX k) = 2 ∧
      ((s.port k).cnt - old).natAbs ≠ s.rd (PTB_ENC_ZCHK_PERREV k)) :
    exec (.indexEdge k .rise) s = .next (s.latchIndex k) := by
  rw [exec_indexEdge_latches h]
  cases hprev : (s.port k).zPrev with
  | none => rfl
  | some old => exact if_neg fun ⟨hcheck, hne⟩ => hok ⟨old, hprev, hcheck, hne⟩

theorem exec_indexEdge_mismatch {s : State} {k : Fin 4} {old : Int} (h : s.IndexLatches k)
    (hprev : (s.port k).zPrev = some old) (hcheck : s.rd (PTB_ENC_CFG_INDEX k) = 2)
    (hne : ((s.port k).cnt - old).natAbs ≠ s.rd (PTB_ENC_ZCHK_PERREV k)) :
    exec (.indexEdge k .rise) s = .next ((s.latchIndex k).indexMismatch k ((s.port k).cnt - old)) := by
  rw [exec_indexEdge_latches h, hprev]
  exact if_pos ⟨hcheck, hne⟩

/-! ### The interpolator goes COLD (R83, R92) -/

@[simp] theorem State.goCold_tb (reason : Nat) : (s.goCold reason).tb = { s.tb with cold := true, warmRun := 0 } := by
  unfold State.goCold
  extract_lets was t
  split
  · rfl
  · rw [State.logEv_tb]; rfl

/-- A switch to the backup changes the source in use only. -/
theorem State.useBackup_tb : s.useBackup.tb = { s.tb with srcAct := s.useBackup.tb.srcAct } := by
  unfold State.useBackup
  extract_lets b old t
  split
  · rfl
  · rw [State.logEv_tb]; rfl

/-- A fault of the source in use: COLD, the ports as they were. -/
theorem State.sourceFault_cold (k : Nat) : s.sourceFault.tb.cold = true ∧ s.sourceFault.port k = s.port k := by
  have hbackup := (s.goCold 3).useBackup_tb
  rw [s.goCold_tb] at hbackup
  refine ⟨(congrArg Timebase.cold hbackup :), ?_⟩
  show Tbl.get (s.goCold 3).useBackup.tb.ports {} k = Tbl.get s.tb.ports {} k
  rw [hbackup]

/-! ### Wire faults (R81, R83) -/

/-- A new wire fault is marked and logged. -/
def State.wireFaulted (s : State) (k : Nat) (x : EncInput) : State :=
  (s.modPort k fun p => p.setWire x true).logEv 0x0303 1 0x3 unitPtb (k + encInputNo x * 4 + 16)

@[simp] theorem State.wireFaulted_port (k : Nat) (x : EncInput) :
    (s.wireFaulted k x).port k = (s.port k).setWire x true := by
  rw [State.wireFaulted, State.port_congr (State.logEv_tb ..), State.port_modPort]

@[simp] theorem State.wireFaulted_running (k : Nat) (x : EncInput) :
    (s.wireFaulted k x).tb.running = s.tb.running := by
  rw [State.wireFaulted, State.logEv_tb, State.modPort_running]

@[simp] theorem State.wireFaulted_srcAct (k : Nat) (x : EncInput) : (s.wireFaulted k x).tb.srcAct = s.tb.srcAct := by
  rw [State.wireFaulted, State.logEv_tb, State.modPort_srcAct]

/-- A marked fault on A or B makes the port faulted. -/
theorem EncPort.setWire_faulted {x : EncInput} (p : EncPort) (hx : x ≠ .z) : (p.setWire x true).faulted = true := by
  cases x with
  | a => rfl
  | b => exact Bool.or_true _
  | z => exact absurd rfl hx

section
variable {s : State} {k : Fin 4} {x : EncInput}

theorem exec_wireFault_known (h : (s.port k).getWire x = true) : exec (.wireFault k x) s = .next s := if_pos h

theorem exec_wireFault_new (h : (s.port k).getWire x = false) : exec (.wireFault k x) s =
    let t := s.wireFaulted k x
    if (t.tb.running && t.tb.srcAct == k.val && !(s.port k).faulted && (t.port k).faulted) = true then
      .next t.sourceFault
    else .next t := if_neg (by simp [h])

theorem exec_wireFault_other (h : (s.port k).getWire x = false) (hsrc : s.tb.srcAct ≠ k) :
    exec (.wireFault k x) s = .next (s.wireFaulted k x) := by
  rw [exec_wireFault_new h]
  exact if_neg (by simp [hsrc])

theorem exec_wireFault_source (h : (s.port k).getWire x = false) (hx : x ≠ .z) (hrun : s.tb.running = true)
    (hsrc : s.tb.srcAct = k) (hwas : (s.port k).faulted = false) :
    exec (.wireFault k x) s = .next (s.wireFaulted k x).sourceFault := by
  rw [exec_wireFault_new h]
  exact if_pos (by simp [hrun, hsrc, hwas, EncPort.setWire_faulted _ hx])

theorem exec_wireFaultClear_marked (h : (s.port k).getWire x = true) : exec (.wireFaultClear k x) s =
    .next ((s.modPort k fun p => p.setWire x false).logEv 0x0303 1 0 unitPtb (k + encInputNo x * 4)) :=
  if_neg (by simp [h])

theorem exec_wireFaultClear_none (h : (s.port k).getWire x = false) : exec (.wireFaultClear k x) s = .next s :=
  if_pos (by simp [h])

end

/-! ### The timeout (R92) -/

/-- The interpolator COLD and STILL after no counted change for TIMEOUT. -/
def State.timedOut (s : State) : State := ((s.goCold 1).modTb fun t => { t with still := true }).trackNow

theorem exec_interpolatorTimeout (s : State) : exec .interpolatorTimeout s =
    if (s.tb.running && decide (s.tb.srcAct < 4)) = true then .next s.timedOut else .next s := rfl

/-- Settles O22: each clause is a branch of its command's meaning; the latch and the log leave the position alone. -/
theorem indexEdgesAndWireFaults : Obligations.IndexEdgesAndWireFaults := by
  intro s k
  refine ⟨rfl, rfl, ?latch, exec_indexEdge_off, fun x => exec_wireFault_known, fun x => exec_wireFault_other, ?source,
    fun x => exec_wireFaultClear_marked, fun x => exec_wireFaultClear_none, ?timeout, ?noTimeout⟩
  case latch =>
    intro hmode hz hwire hqual hrun
    have hlatch : s.IndexLatches k := ⟨hmode, hz, hwire, hqual, hrun⟩
    by_cases hoff : ∃ old, (s.port k).zPrev = some old ∧ s.rd (PTB_ENC_CFG_INDEX k) = 2 ∧
      ((s.port k).cnt - old).natAbs ≠ s.rd (PTB_ENC_ZCHK_PERREV k)
    · obtain ⟨old, hprev, hcheck, hne⟩ := hoff
      refine ⟨_, exec_indexEdge_mismatch hlatch hprev hcheck hne, ?_⟩
      dsimp only
      rw [State.indexMismatch_port, s.latchIndex_port, State.indexMismatch_measured, s.latchIndex_measured]
      refine ⟨rfl, rfl, rfl, rfl, rfl, fun hnone => ?_, fun _ _ _ _ => State.rd_indexMismatch_zerr _ k _⟩
      rw [hcheck, hprev] at hnone
      exact hnone.elim (absurd · (by decide)) nofun
    · refine ⟨_, exec_indexEdge_match hlatch hoff, ?_⟩
      dsimp only
      rw [s.latchIndex_port]
      exact ⟨rfl, rfl, rfl, rfl, s.latchIndex_measured k, fun _ => ⟨rfl, rfl⟩,
        fun old hcheck hprev hne => absurd ⟨old, hprev, hcheck, hne⟩ hoff⟩
  case source =>
    intro x h hx hrun hsrc hwas
    obtain ⟨hcold, hport⟩ := (s.wireFaulted k x).sourceFault_cold k
    refine ⟨_, exec_wireFault_source h hx hrun hsrc hwas, hcold, ?_⟩
    rw [hport, s.wireFaulted_port, EncPort.setWire_faulted _ hx]
  case timeout =>
    intro hrun hsrc
    refine ⟨s.timedOut, by simp [exec_interpolatorTimeout, hrun, hsrc], ?_⟩
    simp [State.timedOut, State.trackNow]
  case noTimeout =>
    intro h
    rw [exec_interpolatorTimeout, if_neg]
    simp only [Bool.and_eq_true, decide_eq_true_eq]
    rintro ⟨hrun, hsrc⟩
    exact h.elim (fun hstop => Bool.false_ne_true (hstop.symm.trans hrun)) (fun hhigh => Nat.not_lt.mpr hhigh hsrc)

end Sys2Proof.Machine
end

section
/-! PROOFS. The SIM velocity, the coherent reads, the error counters and the position bus (03 R71, R82, R99, R101,
R106). -/

namespace Sys2Proof.Machine

variable (s : State)

/-! ### A change of DIR closes pending occurrences (04 R120, R132) -/

/-- `t` has the timebase of `s` and its registers, but for the count of lost records and what counts MISSED
outcomes. -/
structure MissedOnly (s t : State) : Prop where
  tb : t.tb = s.tb
  rd : ∀ f : Fld, f.key ∉ [SYS_LOG_STATUS_LOST.key, EVT_CNT_MISSED_COUNT.key, EVT_STATUS_MISSIRQ.key] →
    t.rd f = s.rd f

theorem MissedOnly.refl : MissedOnly s s := ⟨rfl, fun _ _ => rfl⟩

theorem MissedOnly.trans {s t u : State} (h : MissedOnly s t) (g : MissedOnly t u) : MissedOnly s u :=
  ⟨g.tb.trans h.tb, fun f hf => (g.rd f hf).trans (h.rd f hf)⟩

theorem MissedOnly.of_same {s t : State} (htb : t.tb = s.tb) (hregs : t.regs = s.regs) : MissedOnly s t :=
  ⟨htb, fun f _ => by rw [State.rd, hregs, State.rd]⟩

theorem MissedOnly.of_logOnly {s t : State} (h : LogOnly s t) : MissedOnly s t :=
  ⟨h.tb, fun f hf => h.rd f fun e => hf (by simp [e])⟩

theorem MissedOnly.wr {f : Fld} (v : Nat)
    (hf : f.key ∈ [SYS_LOG_STATUS_LOST.key, EVT_CNT_MISSED_COUNT.key, EVT_STATUS_MISSIRQ.key]) :
    MissedOnly s (s.wr f v) :=
  ⟨rfl, fun _ hg => State.rd_wr_other _ _ _ _ fun e => hg (e ▸ hf)⟩

theorem MissedOnly.foldl {α : Type} {g : State → α → State} (hg : ∀ t x, MissedOnly t (g t x)) (l : List α) :
    MissedOnly s (l.foldl g s) := by
  induction l generalizing s with
  | nil => exact .refl s
  | cons x l ih => exact (hg s x).trans (ih (g s x))

theorem State.countClosedEvents_missedOnly (rgn : Option Nat) (n : Nat) : MissedOnly s (s.countClosedEvents rgn n) := by
  unfold State.countClosedEvents
  split
  · exact .refl s
  · split
    · exact .of_same rfl rfl
    · exact .refl s

theorem State.closeOcc_missedOnly (k : Nat) (x : Int) (n reason : Nat) :
    MissedOnly s (s.closeOcc k x n (.missed reason)) := by
  unfold State.closeOcc
  extract_lets e unit rgn det stamp fired late counted flagged closed
  have hcounted : MissedOnly s counted := (MissedOnly.wr s _ (by simp)).trans (State.countClosedEvents_missedOnly ..)
  have hflagged : MissedOnly s flagged := by
    unfold flagged
    split
    · exact hcounted.trans (.wr counted _ (by simp))
    · exact hcounted
  have hclosed : MissedOnly s closed := hflagged.trans (.of_logOnly (flagged.logMerged_only ..))
  split
  · exact hclosed.trans (.of_same rfl rfl)
  · exact hclosed

theorem State.missAll_missedOnly (reason : Nat) (sel : Occ → Bool) : MissedOnly s (s.missAll reason sel) :=
  .foldl s (fun t o => (MissedOnly.of_same rfl rfl : MissedOnly t (t.dropPend o)).trans
    (State.closeOcc_missedOnly ..)) _

theorem State.dirTurned_missedOnly : MissedOnly s s.dirTurned := s.missAll_missedOnly ..

/-! ### The SIM velocity (R82) -/

/-- The velocity `x` is against DIR. -/
def State.simTurns (s : State) (x : Int) : Bool := (decide (x < 0) && !s.tb.rev) || (decide (0 < x) && s.tb.rev)

/-- The timebase with the SIM velocity `x`: STILL, DIR, and the tracks moved to the present. -/
def State.withSimVel (s : State) (x : Int) : State :=
  (s.modTb fun t => { t with still := decide (x = 0), rev := if s.simTurns x then !t.rev else t.rev }).trackNow
    (s.simTurns x)

theorem exec_ptbSimVelWrite (a : Accessor) (v : Word) :
    exec (.ptbSimVelWrite a v) s = .next (s.newSimVel v.toNat) := rfl

theorem State.newSimVel_other {s : State} {v : Nat} (h : s.tb.running = false ∨ s.tb.srcAct ≠ 5) :
    s.newSimVel v = s.wr PTB_SIM_VEL_SIMVEL v := by
  refine if_neg fun hdrives => ?_
  simp only [Bool.and_eq_true, beq_iff_eq] at hdrives
  obtain ⟨hrun, hsrc⟩ := hdrives
  exact h.elim (fun hstop => Bool.false_ne_true (hstop.symm.trans hrun)) (fun hother => hother hsrc)

/-- With the SIM source running the velocity takes effect, and pending occurrences close where DIR turns. -/
theorem State.newSimVel_sim {s : State} {v : Nat} (hrun : s.tb.running = true) (hsrc : s.tb.srcAct = 5) :
    s.newSimVel v =
      let w := s.wr PTB_SIM_VEL_SIMVEL v
      let t := w.withSimVel w.simVel
      if w.simTurns w.simVel then t.dirTurned else t :=
  if_pos (by simp [hrun, hsrc])

theorem signedOf_toNat (v : Word) : signedOf 32 v.toNat = v.toInt := by
  rw [signedOf, Nat.mod_eq_of_lt v.isLt, BitVec.toInt_eq_toNat_cond]
  split
  case isTrue hlow => exact (if_pos (by omega)).symm
  case isFalse hhigh => exact (if_neg (by omega)).symm

/-- A written velocity reads back as the signed word. -/
theorem State.simVel_wr (v : Word) : (s.wr PTB_SIM_VEL_SIMVEL v.toNat).simVel = v.toInt := by
  rw [State.simVel, State.rd_wr_same, ← signedOf_toNat]
  exact congrArg (signedOf 32) (Nat.mod_eq_of_lt v.isLt)

theorem State.newSimVel_missedOnly {s : State} {v : Word} (hrun : s.tb.running = true) (hsrc : s.tb.srcAct = 5) :
    MissedOnly ((s.wr PTB_SIM_VEL_SIMVEL v.toNat).withSimVel v.toInt) (s.newSimVel v.toNat) := by
  rw [State.newSimVel_sim hrun hsrc]
  simp only [State.simVel_wr]
  split
  · exact State.dirTurned_missedOnly _
  · exact .refl _

/-- DIR follows the sign of the velocity and stays where it is 0. -/
theorem State.withSimVel_rev (x : Int) : (0 < x → (s.withSimVel x).tb.rev = false) ∧
    (x < 0 → (s.withSimVel x).tb.rev = true) ∧ (x = 0 → (s.withSimVel x).tb.rev = s.tb.rev) := by
  have hrev : (s.withSimVel x).tb.rev = if s.simTurns x then !s.tb.rev else s.tb.rev := rfl
  rw [hrev, State.simTurns]
  refine ⟨fun h => ?_, fun h => ?_, fun h => ?_⟩
  · cases s.tb.rev <;> simp [h, Int.lt_asymm h]
  · cases s.tb.rev <;> simp [h, Int.lt_asymm h]
  · simp [h]

/-! ### The position bus and the error counters (R99, R106) -/

theorem exec_busUpdate_running {s : State} (h : s.tb.running = true) : exec .busUpdate s = .next (s.modTb fun t =>
    if t.busToggle then { t with busA := ⟨s.measured, s.tb.rev, s.tb.cold⟩, busToggle := false }
    else { t with busB := ⟨s.measured, s.tb.rev, s.tb.cold⟩, busToggle := true }) :=
  congrArg Host.Outcome.next (if_pos h)

theorem exec_busUpdate_stopped {s : State} (h : s.tb.running = false) : exec .busUpdate s = .next s :=
  congrArg Host.Outcome.next (if_neg (by simp [h]))

theorem exec_encErrClr (a : Accessor) (k : Fin 4) (v : Word) :
    exec (.encErrClr a k v) s = .next (s.clearEncErr k v.toNat) := rfl

/-- CLR = 0 changes nothing. -/
theorem State.clearEncErr_off {v : Nat} (k : Nat) (h : bitOf v 4 = false) : s.clearEncErr k v = s :=
  if_neg (by simp [h])

/-- CLR = 1 clears the three counters; the count and the log stay. -/
theorem State.clearEncErr_on {v : Nat} (k : Nat) (h : bitOf v 4 = true) :
    (s.clearEncErr k v).rd (PTB_ENC_ERR_GLITCH k) = 0 ∧ (s.clearEncErr k v).rd (PTB_ENC_ERR_QERR k) = 0 ∧
      (s.clearEncErr k v).rd (PTB_ENC_ERR_ZERR k) = 0 ∧ ((s.clearEncErr k v).port k).cnt = (s.port k).cnt ∧
        (s.clearEncErr k v).log = s.log := by
  rw [State.clearEncErr, if_pos h]
  simp only [State.rd_modPort, State.rd_wr, Nat.zero_mod]
  refine ⟨by simp, by simp, by simp, by simp; rfl, rfl⟩

/-- Settles O23: each clause is a branch of its command's meaning; a turn of DIR leaves timebase and velocity alone. -/
theorem timebaseRegistersAndBus : Obligations.TimebaseRegistersAndBus := by
  intro s
  refine ⟨?simOther, ?sim, fun _ => rfl, fun _ _ => rfl, fun _ _ => rfl, ?clear, ?noClear, ?bus,
    exec_busUpdate_stopped, fun _ => rfl⟩
  case simOther => exact fun a v h => by rw [exec_ptbSimVelWrite, State.newSimVel_other h]
  case sim =>
    intro a v hrun hsrc
    have honly := State.newSimVel_missedOnly (v := v) hrun hsrc
    obtain ⟨hpos, hneg, hzero⟩ := (s.wr PTB_SIM_VEL_SIMVEL v.toNat).withSimVel_rev v.toInt
    have hzeroIff : v.toInt = 0 ↔ v = 0 := BitVec.toInt_inj (y := 0)
    refine ⟨_, exec_ptbSimVelWrite s a v, ?_, ?_⟩
    · rw [State.simVel, honly.rd _ (by decide)]
      exact s.simVel_wr v
    · rw [honly.tb]
      exact ⟨decide_eq_decide.mpr hzeroIff, hpos, hneg, fun hv => hzero (by rw [hv]; rfl)⟩
  case clear => exact fun a k v h => ⟨_, exec_encErrClr s a k v, s.clearEncErr_on k h⟩
  case noClear => exact fun a k v h => by rw [exec_encErrClr, s.clearEncErr_off k h]
  case bus =>
    intro hrun
    refine ⟨_, exec_busUpdate_running hrun, ?_⟩
    cases htoggle : s.tb.busToggle <;> simp [State.busNow, htoggle]

end Sys2Proof.Machine
end

section
/-! PROOFS. What an edge of a region's clocks leaves in the flip-flops (05 R139, R140). -/

namespace Sys2Proof.Machine

/-! ### The place of a flip-flop -/

/-- Where the flip-flops of a fabric keep flip-flop `b` of cell `p`: (block, tier, cell). -/
def ffKey (p : Nat × Nat × Nat) (b : Bool) : Nat := (p.1 * 64 + p.2.1 * 32 + p.2.2) * 2 + b2n b

/-- The tier and the cell are those of a block. -/
def CellOfBlock (p : Nat × Nat × Nat) : Prop := p.2.1 < 2 ∧ p.2.2 < 32

theorem b2n_le_one (b : Bool) : b2n b ≤ 1 := by cases b <;> decide

theorem b2n_inj {a b : Bool} (h : b2n a = b2n b) : a = b := by revert a b; decide

theorem ffKey_inj {p q : Nat × Nat × Nat} {a b : Bool} (hp : CellOfBlock p) (hq : CellOfBlock q) :
    ffKey p a = ffKey q b ↔ p = q ∧ a = b := by
  refine ⟨fun h => ?_, fun ⟨hpq, hab⟩ => by rw [hpq, hab]⟩
  obtain ⟨blk, tier, c⟩ := p
  obtain ⟨blk', tier', c'⟩ := q
  obtain ⟨htier, hc⟩ := hp
  obtain ⟨htier', hc'⟩ := hq
  have ha := b2n_le_one a
  have hb := b2n_le_one b
  simp only [ffKey] at h htier hc htier' hc'
  have hblk : blk = blk' := by omega
  have htt : tier = tier' := by omega
  have hcc : c = c' := by omega
  exact ⟨by rw [hblk, htt, hcc], b2n_inj (by omega)⟩

/-! ### The flip-flops that a set of clocks reaches (R140, R154, R155) -/

/-- Flip-flop `b` of cell `p` after an edge, where `sel` says that its clock has one. -/
def FabEnv.clockFf (e : FabEnv) (sel : Nat × Nat × Nat → Bool → Bool) (t : Tbl Bool) (p : Nat × Nat × Nat) (b : Bool) :
    Tbl Bool :=
  if sel p b then t.put false (ffKey p b) (e.ffNext p.1 p.2.1 p.2.2 b) else t

/-- Both flip-flops of the cells `l` after an edge. -/
def FabEnv.clockCells (e : FabEnv) (sel : Nat × Nat × Nat → Bool → Bool) (l : List (Nat × Nat × Nat)) (t : Tbl Bool) :
    Tbl Bool :=
  l.foldl (fun t p => [false, true].foldl (fun t b => e.clockFf sel t p b) t) t

/-- The flip-flop is clocked from a spine that has an edge. -/
def FabEnv.onSpine (e : FabEnv) (spines : Nat) (p : Nat × Nat × Nat) (b : Bool) : Bool :=
  let f := wFf (e.r.word p.1 p.2.1 p.2.2) b
  !ffClkW f && bitOf spines (ffClk f)

/-- The flip-flop is clocked from input 5, which rises from `e` to `e'`. -/
def FabEnv.onWire (e e' : FabEnv) (p : Nat × Nat × Nat) (b : Bool) : Bool :=
  ffClkW (wFf (e.r.word p.1 p.2.1 p.2.2) b) && !e.value (.input p.1 p.2.1 p.2.2 5) && e'.value (.input p.1 p.2.1 p.2.2 5)

theorem Region.clockFfs_eq (r : Region) (spines : Nat) (down : List (Nat × Bool)) : r.clockFfs spines down =
    let e : FabEnv := ⟨r, down⟩
    let t := e.clockCells (e.onSpine spines) r.cells r.fab.ffs
    e.clockCells (e.onWire ⟨{ r with fab := { r.fab with ffs := t } }, down⟩) r.cells t := rfl

section
variable (e : FabEnv) (sel : Nat × Nat × Nat → Bool → Bool) {p q : Nat × Nat × Nat} (b : Bool)

theorem FabEnv.clockFf_get (a : Bool) (t : Tbl Bool) (hp : CellOfBlock p) (hq : CellOfBlock q) :
    (e.clockFf sel t p a).get false (ffKey q b) =
      if (p = q ∧ a = b) ∧ sel q b = true then e.ffNext q.1 q.2.1 q.2.2 b else t.get false (ffKey q b) := by
  rw [FabEnv.clockFf]
  split
  case isTrue hsel =>
    simp only [Tbl.get_put, ffKey_inj hp hq]
    by_cases hsame : p = q ∧ a = b
    · obtain ⟨rfl, rfl⟩ := hsame
      simp [hsel]
    · simp [hsame]
  case isFalse hsel =>
    rw [if_neg]
    rintro ⟨⟨rfl, rfl⟩, hsel'⟩
    exact hsel hsel'

/-- Once both flip-flops of cell `p` have had their clocks, a flip-flop of that cell holds its next value. -/
theorem FabEnv.clockBoth_get (t : Tbl Bool) (hp : CellOfBlock p) (hq : CellOfBlock q) :
    (e.clockFf sel (e.clockFf sel t p false) p true).get false (ffKey q b) =
      if p = q ∧ sel q b = true then e.ffNext q.1 q.2.1 q.2.2 b else t.get false (ffKey q b) := by
  rw [e.clockFf_get sel b true _ hp hq, e.clockFf_get sel b false _ hp hq]
  cases b <;> simp only [and_true, and_false, false_and, if_false, reduceCtorEq]

/-- A flip-flop holds its next value once its cell is among those clocked and its clock has an edge. -/
theorem FabEnv.clockCells_get (l : List (Nat × Nat × Nat)) (t : Tbl Bool) (hl : ∀ p ∈ l, CellOfBlock p)
    (hq : CellOfBlock q) : (e.clockCells sel l t).get false (ffKey q b) =
      if q ∈ l ∧ sel q b = true then e.ffNext q.1 q.2.1 q.2.2 b else t.get false (ffKey q b) := by
  induction l generalizing t with
  | nil => simp [FabEnv.clockCells]
  | cons p l ih =>
    obtain ⟨hp, hl⟩ := List.forall_mem_cons.mp hl
    show (e.clockCells sel l (e.clockFf sel (e.clockFf sel t p false) p true)).get false (ffKey q b) = _
    rw [ih _ hl, e.clockBoth_get sel b t hp hq]
    by_cases hrest : q ∈ l ∧ sel q b = true
    · rw [if_pos hrest, if_pos ⟨List.mem_cons_of_mem p hrest.1, hrest.2⟩]
    rw [if_neg hrest]
    by_cases hfirst : p = q ∧ sel q b = true
    · rw [if_pos hfirst, if_pos ⟨List.mem_cons.mpr (.inl hfirst.1.symm), hfirst.2⟩]
    · rw [if_neg hfirst, if_neg]
      rintro ⟨hmem, hsel⟩
      exact (List.mem_cons.mp hmem).elim (fun hpq => hfirst ⟨hpq.symm, hsel⟩) fun hin => hrest ⟨hin, hsel⟩

end

/-! ### The configured cells -/

theorem Region.cells_ofBlock (r : Region) : ∀ p ∈ r.cells, CellOfBlock p := by
  intro p hp
  obtain ⟨x, -, rfl⟩ := List.mem_map.mp hp
  exact ⟨Nat.mod_lt _ (by decide), Nat.mod_lt _ (by decide)⟩

/-- A cell with a word in the active context is one of the configured cells. -/
theorem Region.mem_cells {r : Region} {blk tier c : Nat} {w : Line} (hblk : blk < 2352) (htier : tier < 2) (hc : c < 32)
    (h : (cfgKey r.ctx.active blk tier c, w) ∈ r.fab.cfg) : (blk, tier, c) ∈ r.cells := by
  refine List.mem_map.mpr ⟨_, List.mem_filter.mpr ⟨h, ?_⟩, ?_⟩
  · simp only [cfgKey, beq_iff_eq]; omega
  · simp only [cfgKey, Prod.mk.injEq]; omega

/-- A flip-flop of a configured cell, clocked from a spine that has an edge, takes its next value. -/
theorem Region.clockFfs_get_spine {r : Region} {spines : Nat} {down : List (Nat × Bool)} {p : Nat × Nat × Nat} {b : Bool}
    (hp : p ∈ r.cells) (hw : ffClkW (wFf (r.word p.1 p.2.1 p.2.2) b) = false)
    (hclk : bitOf spines (ffClk (wFf (r.word p.1 p.2.1 p.2.2) b)) = true) :
    (r.clockFfs spines down).get false (ffKey p b) = FabEnv.ffNext ⟨r, down⟩ p.1 p.2.1 p.2.2 b := by
  have hcells := r.cells_ofBlock
  have hspine : FabEnv.onSpine ⟨r, down⟩ spines p b = true := by simp [FabEnv.onSpine, hw, hclk]
  have hwire (e' : FabEnv) : FabEnv.onWire ⟨r, down⟩ e' p b = false := by simp [FabEnv.onWire, hw]
  simp only [r.clockFfs_eq, FabEnv.clockCells_get _ _ b r.cells _ hcells (hcells p hp), hspine, hwire, hp]
  simp

theorem Region.clock_ffs (r : Region) (spines : Nat) (down : List (Nat × Bool)) :
    (r.clock spines down).fab.ffs = r.clockFfs spines down := by
  unfold Region.clock
  extract_lets ffs r'
  split <;> rfl

/-! ### The value that is taken (R139, R140) -/

section
variable (e : FabEnv) (blk tier c : Nat) (b : Bool)

/-- Flip-flop `b` of a cell: its options, its inputs and what it holds. -/
theorem FabEnv.ffNext_cases :
    let f := wFf (e.r.word blk tier c) b
    let i := fun j => e.value (.input blk tier c j)
    (ffSr f = true → i 3 = true → e.ffNext blk tier c b = ffInit f) ∧
    (¬(ffSr f = true ∧ i 3 = true) → ffCe f = false ∨ i 4 = true → e.ffNext blk tier c b = e.ffD blk tier c b) ∧
    (¬(ffSr f = true ∧ i 3 = true) → ¬(ffCe f = false ∨ i 4 = true) →
      e.ffNext blk tier c b = e.r.fab.ffs.get false (ffKey (blk, tier, c) b)) := by
  intro f i
  refine ⟨fun hsr h3 => ?_, fun hsr hce => ?_, fun hsr hce => ?_⟩
  · exact if_pos (Bool.and_eq_true_iff.mpr ⟨hsr, h3⟩)
  · exact (if_neg (hsr ∘ Bool.and_eq_true_iff.mp)).trans (if_pos (by simpa using hce))
  · exact (if_neg (hsr ∘ Bool.and_eq_true_iff.mp)).trans (if_neg (by simpa using hce))

/-- With DSEL = 1, no FRAC and no CARRY, D is the bit of the truth table that the six inputs name. -/
theorem FabEnv.ffD_lut (hdsel : ffDsel (wFf (e.r.word blk tier c) b) = 1) (hfrac : wFrac (e.r.word blk tier c) = false)
    (hcarry : wCarry (e.r.word blk tier c) = 0) :
    let i := fun j => e.value (.input blk tier c j)
    e.ffD blk tier c b = bitOf (wLut (e.r.word blk tier c))
      (b2n (i 0) + b2n (i 1) * 2 + b2n (i 2) * 4 + b2n (i 3) * 8 + b2n (i 4) * 16 + b2n (i 5) * 32) := by
  simp [FabEnv.ffD, hdsel, hfrac, hcarry, List.range_succ]

end

/-! ### The ports at an edge leave the flip-flops alone -/

/-- The flip-flops of region `n`. -/
def State.ffs (s : State) (n : Nat) : Tbl Bool := (s.region n).fab.ffs

section
variable (s : State) (n : Nat)

theorem State.ffs_modFab {f : Fabric → Fabric} (hf : ∀ x, (f x).ffs = x.ffs) : (s.modFab n f).ffs n = s.ffs n := by
  rw [State.ffs, State.modFab, State.region_modRegion_same]
  exact hf _

theorem State.ffs_raise (f : Fld) : (s.raise f).ffs n = s.ffs n := rfl

theorem State.ffs_foldl {α : Type} {g : State → α → State} (hg : ∀ t x, (g t x).ffs n = t.ffs n) (l : List α) :
    (l.foldl g s).ffs n = s.ffs n := by
  induction l generalizing s with
  | nil => rfl
  | cons x l ih => exact (ih _).trans (hg s x)

theorem State.ffs_deliverPorts : (s.deliverPorts n).ffs n = s.ffs n := by
  unfold State.deliverPorts
  extract_lets heads t
  have ht : t.ffs n = s.ffs n := by
    unfold t
    split <;> rfl
  rw [State.ffs_modFab, ht]
  exact fun _ => rfl

theorem State.ffs_rebind : (s.rebind n).ffs n = s.ffs n := by
  refine s.ffs_foldl n (fun t p => ?_) _
  extract_lets f now want
  split
  · exact (State.ffs_raise ..).trans (t.ffs_modFab n fun _ => rfl)
  · rfl

theorem State.ffs_streamOut (p : Nat) : (s.streamOut n p).ffs n = s.ffs n := s.ffs_modFab n fun _ => rfl

theorem State.ffs_streamIn (p : Nat) (w : StreamWord) : (s.streamIn n p w).ffs n = s.ffs n := by
  unfold State.streamIn
  extract_lets f e
  split
  · rfl
  · exact s.ffs_modFab n fun _ => rfl

theorem State.ffs_netWordIn (p dest : Nat) (w : Line) : (s.netWordIn n p dest w).ffs n = s.ffs n := by
  unfold State.netWordIn
  extract_lets o
  split
  · rfl
  · exact s.ffs_modFab n fun _ => rfl

theorem State.ffs_portEdge (pins : FabricPins) : (s.portEdge n pins).ffs n = s.ffs n := by
  unfold State.portEdge
  extract_lets served sensed popped pushed worded
  refine (worded.ffs_foldl n (fun t p => ?_) _).trans ?_
  · exact t.ffs_modFab n fun _ => rfl
  calc worded.ffs n
    _ = pushed.ffs n := pushed.ffs_foldl n (fun t p => t.ffs_netWordIn n ..) _
    _ = popped.ffs n := popped.ffs_foldl n (fun t p => t.ffs_streamIn n ..) _
    _ = sensed.ffs n := sensed.ffs_foldl n (fun t p => t.ffs_streamOut n _) _
    _ = served.ffs n := served.ffs_modFab n fun _ => rfl
    _ = s.ffs n := ((s.deliverPorts n).ffs_rebind n).trans (s.ffs_deliverPorts n)

end

/-- The clocks of a region that works have an edge: its flip-flops are those that `clockFfs` gives. -/
theorem exec_regionFabricClockEdge_ffs {s : State} {n : Fin 64} (pins : FabricPins) (hactive : (s.region n).state = .active)
    (hdrain : (s.ni n).drain = false) : ∃ t, exec (.regionFabricClockEdge n pins) s = .next t ∧
      t.ffs n = (s.region n).clockFfs pins.spines.toNat pins.down := by
  refine ⟨_, if_neg (by simp [hactive, hdrain]), ?_⟩
  have hclock : (s.modRegion n fun r => r.clock pins.spines.toNat pins.down).ffs n =
      (s.region n).clockFfs pins.spines.toNat pins.down := by
    rw [State.ffs, State.region_modRegion_same, Region.clock_ffs]
  split
  · exact (State.ffs_portEdge ..).trans hclock
  · exact hclock

/-- Settles O27: a cell with a word is clocked, its flip-flop takes `ffNext`, and the ports leave it so. -/
theorem flipFlopsLoadInitOrDOrHold : Obligations.FlipFlopsLoadInitOrDOrHold := by
  intro s n pins blk tier c b w hblk htier hc r e i f hactive hdrain hmem hget hclkW hclk
  have hword : r.word blk tier c = w.toNat := congrArg BitVec.toNat hget
  obtain ⟨t, hexec, hffs⟩ := exec_regionFabricClockEdge_ffs pins hactive hdrain
  have hq : (t.ffs n).get false (ffKey (blk, tier, c) b) = e.ffNext blk tier c b := by
    rw [hffs]
    exact Region.clockFfs_get_spine (Region.mem_cells hblk htier hc hmem) (by rw [hword]; exact hclkW)
      (by rw [hword]; exact hclk)
  obtain ⟨hinit, hd, hhold⟩ := e.ffNext_cases blk tier c b
  have hlut := e.ffD_lut blk tier c b
  rw [show e.r.word blk tier c = w.toNat from hword] at hinit hd hhold hlut
  exact ⟨t, hexec, fun hsr h3 => hq.trans (hinit hsr h3), fun hsr hce => hq.trans (hd hsr hce),
    fun hsr hce => hq.trans (hhold hsr hce), hlut⟩

end Sys2Proof.Machine
end

section
/-! PROOFS. Lift contention (05 R150, R151), words of sensor pairs and their lock (05 R163, 23 R637). -/

namespace Sys2Proof.Machine

/-! ### One bit of a field -/

theorem bitOf_eq_testBit (v i : Nat) : bitOf v i = v.testBit i := Nat.testBit_eq_decide_div_mod_eq.symm

theorem bitOf_setBit (v i : Nat) : bitOf (setBit v i) i = true := by
  unfold setBit
  split
  case isTrue h => exact h
  case isFalse h => simpa [bitOf_eq_testBit, Nat.add_comm v, Nat.testBit_two_pow_add_eq] using h

theorem bitOf_clearBit (v i : Nat) : bitOf (clearBit v i) i = false := by
  unfold clearBit
  split
  case isTrue h =>
    rw [bitOf_eq_testBit] at h
    obtain ⟨x, rfl⟩ := Nat.exists_eq_add_of_le (Nat.ge_two_pow_of_testBit h)
    simpa [bitOf_eq_testBit, Nat.testBit_two_pow_add_eq] using h
  case isFalse h => simpa using h

/-- The cut of a value to a field's width keeps the bits within it. -/
theorem bitOf_mod_two_pow (v : Nat) {w i : Nat} (h : i < w) : bitOf (v % 2 ^ w) i = bitOf v i := by
  simp [bitOf_eq_testBit, Nat.testBit_mod_two_pow, h]

/-- A record changes no field of a register above SYS_LOG_STATUS. -/
theorem State.rd_logEvLimited (s : State) {f : Fld} (h : SYS_LOG_STATUS_LOST.addr < f.addr) (sc c k st u d : Nat) :
    (s.logEvLimited sc c k st u d).rd f = s.rd f := by
  refine (s.logEvLimited_only sc c k st u d).rd f ?_
  simp only [Fld.key, SYS_LOG_STATUS_LOST] at h ⊢; omega

/-! ### Lift contention (R150, R151) -/

/-- Fields of one register that begin at different bits are kept apart. -/
theorem Fld.key_ne_of_lo {f g : Fld} (haddr : f.addr = g.addr) (hlo : f.lo ≠ g.lo) : f.key ≠ g.key := by
  rw [Fld.key, Fld.key, haddr]; omega

/-- A contention of region `n` counted in RGN_LIFT_CNT, with its wire, context, block, tier and drivers in RGN_LIFT_LAST. -/
def State.latchLift (s : State) (n w ctx blk tier none_ both : Nat) : State :=
  let s := s.bump (RGN_LIFT_CNT_COUNT n)
  let s := (((s.wr (RGN_LIFT_LAST_WIRE n) w).wr (RGN_LIFT_LAST_CTX n) ctx).wr (RGN_LIFT_LAST_BLOCK n) blk).wr
    (RGN_LIFT_LAST_TIER n) tier
  ((s.wr (RGN_LIFT_LAST_NONE n) none_).wr (RGN_LIFT_LAST_BOTH n) both).wr (RGN_LIFT_LAST_VALID n) 1

section
variable (s : State) (n w ctx blk tier none_ both : Nat)

@[simp] theorem State.latchLift_regions : (s.latchLift n w ctx blk tier none_ both).regions = s.regions := by
  simp only [State.latchLift, State.bump_eq, State.wr_regions]

@[simp] theorem State.latchLift_scrub : (s.latchLift n w ctx blk tier none_ both).scrub = s.scrub := by
  simp only [State.latchLift, State.bump_eq, State.wr_scrub]

/-- A register other than RGN_LIFT_LAST is as the count leaves it. -/
theorem State.rd_latchLift_other {f : Fld} (hlo : f.lo < 32) (hf : f.addr ≠ (RGN_LIFT_LAST_WIRE n).addr) :
    (s.latchLift n w ctx blk tier none_ both).rd f = (s.bump (RGN_LIFT_CNT_COUNT n)).rd f := by
  simp only [RGN_LIFT_LAST_WIRE] at hf
  rw [State.latchLift]
  iterate 7 rw [State.rd_wr_other]
  all_goals
    simp only [Fld.key, RGN_LIFT_LAST_WIRE, RGN_LIFT_LAST_CTX, RGN_LIFT_LAST_BLOCK, RGN_LIFT_LAST_TIER,
      RGN_LIFT_LAST_NONE, RGN_LIFT_LAST_BOTH, RGN_LIFT_LAST_VALID]
    omega

theorem State.rd_latchLift_count : (s.latchLift n w ctx blk tier none_ both).rd (RGN_LIFT_CNT_COUNT n) =
    satAdd (RGN_LIFT_CNT_COUNT n).width (s.rd (RGN_LIFT_CNT_COUNT n)) 1 := by
  rw [State.rd_latchLift_other _ _ _ _ _ _ _ _ (by simp [RGN_LIFT_CNT_COUNT])
    (by simp [RGN_LIFT_CNT_COUNT, RGN_LIFT_LAST_WIRE]), State.rd_bump]

theorem State.flag_latchLift_policy : (s.latchLift n w ctx blk tier none_ both).flag (RGN_FAB_CFG_LIFTPOL n) =
    s.flag (RGN_FAB_CFG_LIFTPOL n) := by
  rw [State.flag, State.rd_latchLift_other _ _ _ _ _ _ _ _ (by simp [RGN_FAB_CFG_LIFTPOL])
    (by simp [RGN_FAB_CFG_LIFTPOL, RGN_LIFT_LAST_WIRE]), State.bump_eq, State.rd_wr_other, State.flag]
  simp only [Fld.key, RGN_FAB_CFG_LIFTPOL, RGN_LIFT_CNT_COUNT]; omega

theorem State.rd_latchLift_wire : (s.latchLift n w ctx blk tier none_ both).rd (RGN_LIFT_LAST_WIRE n) =
    w % 2 ^ (RGN_LIFT_LAST_WIRE n).width := by
  rw [State.latchLift]
  iterate 6 rw [State.rd_wr_other]
  · exact State.rd_wr_same ..
  all_goals exact Fld.key_ne_of_lo rfl (Nat.ne_of_beq_eq_false rfl)

theorem State.rd_latchLift_block : (s.latchLift n w ctx blk tier none_ both).rd (RGN_LIFT_LAST_BLOCK n) =
    blk % 2 ^ (RGN_LIFT_LAST_BLOCK n).width := by
  rw [State.latchLift]
  iterate 4 rw [State.rd_wr_other]
  · exact State.rd_wr_same ..
  all_goals exact Fld.key_ne_of_lo rfl (Nat.ne_of_beq_eq_false rfl)

theorem State.rd_latchLift_valid : (s.latchLift n w ctx blk tier none_ both).rd (RGN_LIFT_LAST_VALID n) = 1 :=
  State.rd_wr_same ..

end

/-! What a change of the scrubber's state of a region leaves. -/

section
variable (s : State) (n : Nat) (f : ScrubRgn → ScrubRgn)

@[simp] theorem State.modScrRgn_regions : (s.modScrRgn n f).regions = s.regions := rfl

@[simp] theorem State.rd_modScrRgn (g : Fld) : (s.modScrRgn n f).rd g = s.rd g := rfl

@[simp] theorem State.scrRgn_modScrRgn_same : (s.modScrRgn n f).scrRgn n = f (s.scrRgn n) := Tbl.get_set_same ..

theorem State.scrRgn_congr {s t : State} (h : t.scrub = s.scrub) (n : Nat) : t.scrRgn n = s.scrRgn n := by
  rw [State.scrRgn, h, State.scrRgn]

end

/-- The two frames of a block, to be visited ahead of the walk where there is room and they do not wait already. -/
def ScrubRgn.visitBlock (c : ScrubRgn) (ctx blk : Nat) : ScrubRgn :=
  { c with prio := if 8 ≤ c.prio.length ∨ c.prio.contains (ctx, blk * 2) then c.prio
      else c.prio ++ [(ctx, blk * 2), (ctx, blk * 2 + 1)] }

/-- Where no frame waits to be visited, those of the block are the next. -/
theorem ScrubRgn.visitBlock_prio {c : ScrubRgn} (h : c.prio = []) (ctx blk : Nat) :
    (c.visitBlock ctx blk).prio = [(ctx, blk * 2), (ctx, blk * 2 + 1)] := by
  simp [ScrubRgn.visitBlock, h]

section
variable {s : State} {n : Fin 64} {k : Fin 2352} {w : Fin 32}

theorem exec_liftContention_idle (h : (s.region n).state ≠ .active) : exec (.liftContention n k w) s = .next s := if_pos h

/-- In an ACTIVE region a contention is latched and logged; then the policy acts (R151). -/
theorem exec_liftContention_active (h : (s.region n).state = .active) : ∃ tier none_ both detail,
    exec (.liftContention n k w) s =
      let t := s.latchLift n w (s.region n).ctx.active k tier none_ both
      let fence := t.flag (RGN_FAB_CFG_LIFTPOL n)
      let u := t.logEvLimited n 0x0501 (if fence then 2 else 1) 0 (unitId n 0 k) detail
      if fence then .next ((u.rewriteBlock n k).fence n 0x21)
      else .next (u.modScrRgn n fun c => c.visitBlock (s.region n).ctx.active k) :=
  ⟨_, _, _, _, if_neg fun hne => hne h⟩

/-- With policy LOG the block is visited next. -/
theorem exec_liftContention_log (h : (s.region n).state = .active) (hpol : s.flag (RGN_FAB_CFG_LIFTPOL n) = false) :
    ∃ tier none_ both detail, exec (.liftContention n k w) s =
      .next (((s.latchLift n w (s.region n).ctx.active k tier none_ both).logEvLimited n 0x0501 1 0 (unitId n 0 k)
        detail).modScrRgn n fun c => c.visitBlock (s.region n).ctx.active k) := by
  obtain ⟨tier, none_, both, detail, hexec⟩ := exec_liftContention_active (k := k) (w := w) h
  refine ⟨tier, none_, both, detail, ?_⟩
  simpa only [s.flag_latchLift_policy, hpol, Bool.false_eq_true, if_false] using hexec

end

/-! ### Words of an input pair (R163) -/

section
variable {s : State} {b : Fin 8} {i : Fin 48}

theorem exec_sensorWord_idle (w : Byte) (h : s.pairIn b i = false ∨ s.pairLocked b i = false) :
    exec (.sensorWord b i w) s = .next s := if_pos (by obtain h | h := h <;> simp [h])

/-- A word of a locked pair of a region that works: taken with room in the FIFO, else discarded and counted. -/
theorem exec_sensorWord_live (w : Byte) (hin : s.pairIn b i = true) (hlock : s.pairLocked b i = true)
    (hlive : (s.region (b.val + 8 * s.rd (IOB_SBP_ROW b i))).live = true) : exec (.sensorWord b i w) s =
      let n := b.val + 8 * s.rd (IOB_SBP_ROW b i)
      let q := (s.region n).fab.sensors.get [] i.val
      if q.length < 8 then .next (s.modFab n fun f => { f with sensors := f.sensors.set i (q ++ [w]) })
      else .next (((s.raise IOB_STATUS_SBOVF).bump (IOB_SB_OVF_COUNT b)).logEvLimited b 0x1702 1 0 unitIob
        (b.val + i.val * 2 ^ 3 + 1 * 2 ^ 16)) := if_neg (by simp [hin, hlock, hlive])

/-- The status and the count of a discarded word. -/
theorem State.rd_sensorLost (s : State) (b sc c k st u d : Nat) :
    (((s.raise IOB_STATUS_SBOVF).bump (IOB_SB_OVF_COUNT b)).logEvLimited sc c k st u d).rd IOB_STATUS_SBOVF = 1 ∧
    (((s.raise IOB_STATUS_SBOVF).bump (IOB_SB_OVF_COUNT b)).logEvLimited sc c k st u d).rd (IOB_SB_OVF_COUNT b) =
      satAdd (IOB_SB_OVF_COUNT b).width (s.rd (IOB_SB_OVF_COUNT b)) 1 := by
  have hne : (IOB_SB_OVF_COUNT b).key ≠ IOB_STATUS_SBOVF.key := by
    simp only [Fld.key, IOB_SB_OVF_COUNT, IOB_STATUS_SBOVF]; omega
  have hlost : SYS_LOG_STATUS_LOST.addr < (IOB_SB_OVF_COUNT b).addr := Nat.lt_add_right _ (by decide)
  rw [State.rd_logEvLimited _ (by decide), State.rd_logEvLimited _ hlost, State.rd_bump, State.bump_eq,
    State.rd_wr_other _ _ _ _ hne, State.rd_raise _ _ (by decide), State.raise_eq, State.rd_wr_other _ _ _ _ hne.symm]
  exact ⟨rfl, rfl⟩

/-! ### The lock of an input pair (R637) -/

theorem exec_sensorPairLock_same (l : Bool) (h : s.pairIn b i = false ∨ s.pairLocked b i = l) :
    exec (.sensorPairLock b i l) s = .next s := if_pos (by obtain h | h := h <;> simp [h])

theorem exec_sensorPairLock_gain (hin : s.pairIn b i = true) (hlock : s.pairLocked b i = false) :
    exec (.sensorPairLock b i true) s = .next (s.wr (lockField b i) (setBit (s.rd (lockField b i)) (i.val % 32))) :=
  if_neg (by simp [hin, hlock])

theorem exec_sensorPairLock_loss (hin : s.pairIn b i = true) (hlock : s.pairLocked b i = true) :
    exec (.sensorPairLock b i false) s =
      .next (((s.wr (lockField b i) (clearBit (s.rd (lockField b i)) (i.val % 32))).raise IOB_STATUS_SBLOCK).logEvLimited b
        0x1703 1 0 unitIob (b.val + i.val * 2 ^ 3)) := if_neg (by simp [hin, hlock])

end

theorem lockField_width (b i : Nat) : (lockField b i).width = 32 := by unfold lockField; split <;> rfl

theorem lockField_addr_ge (b i : Nat) : 0xe0200 ≤ (lockField b i).addr := by
  unfold lockField
  split
  · exact Nat.le_add_right ..
  · exact Nat.le_add_right_of_le (by decide)

/-- A pair's lock after a write of its register. -/
theorem State.pairLocked_wr (s : State) (b i v : Nat) : (s.wr (lockField b i) v).pairLocked b i = bitOf v (i % 32) := by
  rw [State.pairLocked, State.rd_wr_same, lockField_width, bitOf_mod_two_pow _ (Nat.mod_lt _ (by decide))]

theorem State.pairLocked_congr {s t : State} {b i : Nat} (h : t.rd (lockField b i) = s.rd (lockField b i)) :
    t.pairLocked b i = s.pairLocked b i := by rw [State.pairLocked, h, State.pairLocked]

/-- The status and the record of a lost lock leave the lock as it was written. -/
theorem State.pairLocked_lockLost (s : State) (b i sc c k st u d : Nat) :
    ((s.raise IOB_STATUS_SBLOCK).logEvLimited sc c k st u d).pairLocked b i = s.pairLocked b i := by
  have hge := lockField_addr_ge b i
  have hlost : SYS_LOG_STATUS_LOST.addr < (lockField b i).addr := Nat.lt_of_lt_of_le (by decide) hge
  have hstatus : IOB_STATUS_SBLOCK.key ≠ (lockField b i).key := by
    simp only [Fld.key, IOB_STATUS_SBLOCK] at hge ⊢; omega
  refine State.pairLocked_congr ?_
  rw [State.rd_logEvLimited _ hlost, State.raise_eq, State.rd_wr_other _ _ _ _ hstatus]

/-- Settles O30: each clause is a branch of its command's meaning; the log leaves registers, FIFOs and walk alone. -/
theorem liftContentionAndSensorPairs : Obligations.LiftContentionAndSensorPairs := by
  intro s
  refine ⟨fun _ _ _ => exec_liftContention_idle, ?log, fun _ _ w => exec_sensorWord_idle w, ?room, ?full, ?gain, ?loss,
    fun _ _ l => exec_sensorPairLock_same l⟩
  case log =>
    intro n k w hactive hpol hprio
    obtain ⟨tier, none_, both, detail, hexec⟩ := exec_liftContention_log (k := k) (w := w) hactive hpol
    have haddr (a : Nat) (h : 0x18 < a) : SYS_LOG_STATUS_LOST.addr < a + n.val * 0x40000 := Nat.lt_add_right _ h
    refine ⟨_, hexec, ?_, by simp, ?_⟩
    · rw [State.scrRgn_modScrRgn_same, State.scrRgn_congr (State.logEvLimited_only ..).scrub,
        State.scrRgn_congr (s.latchLift_scrub ..)]
      exact ScrubRgn.visitBlock_prio hprio ..
    · simp only [State.rd_modScrRgn]
      rw [State.rd_logEvLimited _ (haddr 0x1000104 (by decide)), State.rd_logEvLimited _ (haddr 0x1000108 (by decide)),
        State.rd_logEvLimited _ (haddr 0x1000108 (by decide)), State.rd_logEvLimited _ (haddr 0x1000108 (by decide))]
      exact ⟨s.rd_latchLift_count .., (s.rd_latchLift_wire ..).trans (Nat.mod_eq_of_lt w.isLt),
        (s.rd_latchLift_block ..).trans (Nat.mod_eq_of_lt (Nat.lt_trans k.isLt (show 2352 < 2 ^ 12 by decide))),
        s.rd_latchLift_valid ..⟩
  case room =>
    rintro b i w n hin hlock rfl hlive hroom
    rw [exec_sensorWord_live w hin hlock hlive]
    exact if_pos hroom
  case full =>
    rintro b i w n hin hlock rfl hlive hfull
    refine ⟨_, (exec_sensorWord_live w hin hlock hlive).trans (if_neg (Nat.not_lt.mpr hfull)), ?_, s.rd_sensorLost ..⟩
    exact State.logEvLimited_regions ..
  case gain =>
    intro b i hin hlock
    exact ⟨_, exec_sensorPairLock_gain hin hlock, (s.pairLocked_wr ..).trans (bitOf_setBit ..), rfl, rfl⟩
  case loss =>
    intro b i hin hlock
    refine ⟨_, exec_sensorPairLock_loss hin hlock, ?_, ?_, State.logEvLimited_regions ..⟩
    · rw [State.pairLocked_lockLost, State.pairLocked_wr, bitOf_clearBit]
    · rw [State.rd_logEvLimited _ (by decide), State.rd_raise _ _ (by decide)]

end Sys2Proof.Machine
end

section
/-! PROOFS. The three paths of context requests (06 R168, R170, R180, R184). -/

namespace Sys2Proof.Machine

/-! ### What the context unit's operations leave -/

theorem LogOnly.region {s t : State} (h : LogOnly s t) (n : Nat) : t.region n = s.region n := by
  rw [State.region, h.regions, State.region]

/-- The region is FENCED, DARK or LOADING exactly when it is neither ACTIVE nor TEST. -/
theorem Region.out_eq_not_live (r : Region) : r.out = !r.live := by
  unfold Region.out Region.live; cases r.state <;> rfl

theorem Region.live_iff (r : Region) : r.live = true ↔ r.state = .active ∨ r.state = .test := by
  simp [Region.live]

section
variable (s : State) (n : Nat)

@[simp] theorem State.region_modCtx_same (f : CtxUnit → CtxUnit) :
    (s.modCtx n f).region n = { s.region n with ctx := f (s.region n).ctx } := s.region_modRegion_same ..

@[simp] theorem State.rd_modCtx (f : CtxUnit → CtxUnit) (g : Fld) : (s.modCtx n f).rd g = s.rd g := rfl

@[simp] theorem State.region_modEvt (f : EventTable → EventTable) : (s.modEvt f).region n = s.region n := rfl

theorem State.ctxLog_only (c k st d p : Nat) : LogOnly s (s.ctxLog n c k st d p) := s.logRec_only _

variable (q : CtxReqst)

@[simp] theorem State.region_ctxRegister : (s.ctxRegister n q).region n =
    { s.region n with ctx := { (s.region n).ctx with reqs := (s.region n).ctx.reqs ++ [q] } } := s.region_modCtx_same ..

theorem State.ctxRefuse_only (reason : Nat) :
    LogOnly ((s.raise (CTX_STATUS_REFUSED n)).bump (CTX_REFCNT_REFUSED n)) (s.ctxRefuse n q reason) :=
  State.ctxLog_only ..

@[simp] theorem State.ctxRefuse_regions (reason : Nat) : (s.ctxRefuse n q reason).regions = s.regions :=
  (s.ctxRefuse_only n q reason).regions

@[simp] theorem State.ctxRefuse_evt (reason : Nat) : (s.ctxRefuse n q reason).evt = s.evt :=
  (s.ctxRefuse_only n q reason).evt

@[simp] theorem State.region_ctxRefuse (reason : Nat) : (s.ctxRefuse n q reason).region n = s.region n :=
  (s.ctxRefuse_only n q reason).region n

/-- A refusal sets REFUSED (R170). -/
theorem State.rd_ctxRefuse (reason : Nat) : (s.ctxRefuse n q reason).rd (CTX_STATUS_REFUSED n) = 1 := by
  rw [(s.ctxRefuse_only n q reason).rd, State.bump_eq, State.rd_wr_other,
    State.rd_raise _ _ (by simp [Fld.width, CTX_STATUS_REFUSED])]
  all_goals simp only [Fld.key, CTX_STATUS_REFUSED, CTX_REFCNT_REFUSED, SYS_LOG_STATUS_LOST]; omega

end

/-! ### The three paths of requests (R168, R170, R180) -/

/-- The oldest action on its way is taken when it is the one asked for. -/
theorem State.takeAction_head {s : State} {sel : Action → Bool} {a : Action} {l : List Action}
    (h : s.evt.inflight = a :: l) (ha : sel a = true) :
    s.takeAction sel = some (a, s.modEvt fun t => { t with inflight := l }) := by
  simp [State.takeAction, State.modEvt, h, ha]

theorem State.takeAction_nil {s : State} {sel : Action → Bool} (h : s.evt.inflight = []) : s.takeAction sel = none := by
  simp [State.takeAction, h]

section
variable {s : State} {n : Fin 64}

theorem exec_ctx_none (h : s.evt.inflight = []) : exec (.ctx n) s = .next s := by
  show execCtx n s = _
  rw [execCtx, State.takeAction_nil h]

/-- A CTX action that reaches its region leaves the way; its request is registered in ACTIVE and TEST, else refused. -/
theorem exec_ctx_head {a : Action} {l : List Action} (h : s.evt.inflight = a :: l) (hcode : a.code = 3)
    (htgt : a.target % 64 = n.val) : exec (.ctx n) s =
      let t := s.modEvt fun t => { t with inflight := l }
      let q : CtxReqst := ⟨0, a.param % 8, a.entry, s.regionStamp⟩
      .next (if (s.region n).live then t.ctxRegister n q else t.ctxRefuse n q 4) := by
  show execCtx n s = _
  rw [execCtx, State.takeAction_head h (by simp [hcode, htgt])]
  cases hlive : (s.region n).live <;> simp [Region.out_eq_not_live, hlive] <;> rfl

theorem exec_ctxReq (acc : Accessor) (v : Word) : exec (.ctxReq acc n v) s = .next (s.writeCtxReq n v.toNat) := rfl

end

section
variable {s : State} {n : Nat}

/-- Without GO a write of CTX_REQ asks for nothing. -/
theorem State.writeCtxReq_idle {v : Nat} (h : bitOf v 31 = false) : s.writeCtxReq n v = s := by
  simp [State.writeCtxReq, h]

theorem State.writeCtxReq_go {v : Nat} (h : bitOf v 31 = true) : s.writeCtxReq n v = s.ctxSupervisor n (v % 8) := if_pos h

theorem State.ctxSupervisor_active (k : Nat) (h : (s.region n).state = .active) :
    s.ctxSupervisor n k = s.ctxRegister n ⟨1, k, 0, s.regionStamp⟩ := by
  simp [State.ctxSupervisor, Region.out, h]

theorem State.ctxSupervisor_test (k : Nat) (h : (s.region n).state = .test) (hheld : (s.region n).ctx.supHeld = none) :
    s.ctxSupervisor n k = s.modCtx n fun c => { c with supHeld := some ⟨1, k, 0, s.regionStamp⟩ } := by
  simp [State.ctxSupervisor, Region.out, h, hheld]

theorem State.ctxSupervisor_out (k : Nat) (h : (s.region n).live = false) :
    s.ctxSupervisor n k = s.ctxRefuse n ⟨1, k, 0, s.regionStamp⟩ 4 := by
  simp [State.ctxSupervisor, Region.out_eq_not_live, h]

end

/-- Settles O28: each clause is a branch of its command's meaning; a refusal touches registers and the log only. -/
theorem contextRequestsAreRegisteredOrRefused : Obligations.ContextRequestsAreRegisteredOrRefused := by
  intro s n
  refine ⟨?ctx, exec_ctx_none, ?idle, ?active, ?test, ?refused, fun c h => if_pos h, fun c h => if_neg h⟩
  case ctx =>
    intro a l hl hcode htgt
    cases hlive : (s.region n).live with
    | true =>
      exact ⟨_, (exec_ctx_head hl hcode htgt).trans (congrArg _ (if_pos hlive)), rfl, by simp,
        fun _ => ⟨by simp, rfl⟩, fun h => by cases h⟩
    | false =>
      refine ⟨_, (exec_ctx_head hl hcode htgt).trans (congrArg _ (if_neg (by simp [hlive]))), by simp, by simp,
        fun hin => ?_, fun _ => ⟨by simp, State.rd_ctxRefuse ..⟩⟩
      simp [(Region.live_iff _).mpr hin] at hlive
  case idle => exact fun acc v h => by rw [exec_ctxReq, State.writeCtxReq_idle h]
  case active =>
    intro acc v hgo hactive
    rw [exec_ctxReq, State.writeCtxReq_go hgo, State.ctxSupervisor_active _ hactive]
    rfl
  case test =>
    intro acc v hgo htest hheld
    rw [exec_ctxReq, State.writeCtxReq_go hgo, State.ctxSupervisor_test _ htest hheld]
    rfl
  case refused =>
    intro acc v hgo hlive
    exact ⟨_, by rw [exec_ctxReq, State.writeCtxReq_go hgo, State.ctxSupervisor_out _ hlive], by simp,
      State.rd_ctxRefuse ..⟩

end Sys2Proof.Machine
end

section
/-! PROOFS. The switching edge of the context unit (06 R169 to R175, R178). -/

namespace Sys2Proof.Machine

/-! ### What a superseded request leaves (R169) -/

/-- `t` is `s` but for the event log and registers up to CTX_REFCNT of region `n`. -/
structure CtxNoted (n : Nat) (s t : State) : Prop where
  regions : t.regions = s.regions
  scrub : t.scrub = s.scrub
  rd : ∀ f : Fld, (CTX_REFCNT_SUPER n).key < f.key → t.rd f = s.rd f

section
variable {n : Nat} {s t u : State}

theorem CtxNoted.refl : CtxNoted n s s := ⟨rfl, rfl, fun _ _ => rfl⟩

theorem CtxNoted.trans (h : CtxNoted n s t) (g : CtxNoted n t u) : CtxNoted n s u :=
  ⟨g.regions.trans h.regions, g.scrub.trans h.scrub, fun f hf => (g.rd f hf).trans (h.rd f hf)⟩

theorem CtxNoted.region (h : CtxNoted n s t) (m : Nat) : t.region m = s.region m := by
  rw [State.region, h.regions, State.region]

theorem CtxNoted.wr {f : Fld} (v : Nat) (hf : f.key ≤ (CTX_REFCNT_SUPER n).key) : CtxNoted n s (s.wr f v) :=
  ⟨rfl, rfl, fun _ hg => State.rd_wr_other _ _ _ _ (Nat.ne_of_lt (Nat.lt_of_le_of_lt hf hg))⟩

theorem CtxNoted.of_logOnly (h : LogOnly s t) : CtxNoted n s t := by
  refine ⟨h.regions, h.scrub, fun f hf => h.rd f ?_⟩
  simp only [Fld.key, CTX_REFCNT_SUPER, SYS_LOG_STATUS_LOST] at hf ⊢; omega

/-- The ports of the contexts' masks are as before. -/
theorem CtxNoted.ctxBusy (h : CtxNoted n s t) (a b : Nat) : t.ctxBusy n a b = s.ctxBusy n a b := by
  have hlo (k : Nat) : t.rd (CTX_PUSE_LO_BANK n k) = s.rd (CTX_PUSE_LO_BANK n k) :=
    h.rd _ (by simp only [Fld.key, CTX_REFCNT_SUPER, CTX_PUSE_LO_BANK]; omega)
  have hhi (k : Nat) : t.rd (CTX_PUSE_HI_BANK n k) = s.rd (CTX_PUSE_HI_BANK n k) :=
    h.rd _ (by simp only [Fld.key, CTX_REFCNT_SUPER, CTX_PUSE_HI_BANK]; omega)
  have hst (k : Nat) : t.rd (CTX_PUSE_HI_STREAM n k) = s.rd (CTX_PUSE_HI_STREAM n k) :=
    h.rd _ (by simp only [Fld.key, CTX_REFCNT_SUPER, CTX_PUSE_HI_STREAM]; omega)
  simp only [State.ctxBusy, State.lostBanks, State.lostStreams, State.useBank, State.useStream, h.region, hlo, hhi, hst]

theorem CtxNoted.steepHolds (h : CtxNoted n s t) (k : Nat) : t.steepHolds n k = s.steepHolds n k := by
  rw [State.steepHolds, h.scrub, State.steepHolds]

end

section
variable (s : State) (n : Nat)

theorem State.ctxSupersede_only (q : CtxReqst) :
    LogOnly ((s.raise (CTX_STATUS_SUPERSEDED n)).bump (CTX_REFCNT_SUPER n)) (s.ctxSupersede n q) :=
  State.ctxLog_only ..

theorem State.ctxSupersede_noted (q : CtxReqst) : CtxNoted n s (s.ctxSupersede n q) := by
  refine ((CtxNoted.wr 1 ?_).trans (CtxNoted.wr _ (Nat.le_refl _))).trans (.of_logOnly (s.ctxSupersede_only n q))
  simp only [Fld.key, CTX_REFCNT_SUPER, CTX_STATUS_SUPERSEDED]; omega

theorem State.rd_ctxSupersede (q : CtxReqst) : (s.ctxSupersede n q).rd (CTX_STATUS_SUPERSEDED n) = 1 := by
  rw [(s.ctxSupersede_only n q).rd, State.bump_eq, State.rd_wr_other,
    State.rd_raise _ _ (by simp [Fld.width, CTX_STATUS_SUPERSEDED])]
  all_goals simp only [Fld.key, CTX_STATUS_SUPERSEDED, CTX_REFCNT_SUPER, SYS_LOG_STATUS_LOST]; omega

/-- The requests of `l` superseded, one by one. -/
def State.supersedeAll (l : List CtxReqst) : State := l.foldl (fun s p => s.ctxSupersede n p) s

theorem State.supersedeAll_noted (l : List CtxReqst) : CtxNoted n s (s.supersedeAll n l) := by
  unfold State.supersedeAll
  induction l generalizing s with
  | nil => exact .refl
  | cons p l ih => exact (s.ctxSupersede_noted n p).trans (ih _)

/-! ### The switch (R172 to R174) -/

theorem State.ctx_modCtx (f : CtxUnit → CtxUnit) : ((s.modCtx n f).region n).ctx = f (s.region n).ctx := by
  rw [State.region_modCtx_same]

theorem State.fab_modCtx (f : CtxUnit → CtxUnit) : ((s.modCtx n f).region n).fab = (s.region n).fab := by
  rw [State.region_modCtx_same]

/-- Path `src` has last made context `k` active, from context `old`. -/
structure CtxUnit.Switched (c : CtxUnit) (old k src : Nat) : Prop where
  active : c.active = k
  lastFrom : c.lastFrom = old
  lastTo : c.lastTo = k
  lastSrc : c.lastSrc = src

/-- A switch makes the request's context active with from, to and path kept, leaves configuration and flip-flops, and
changes the counts of what it discards; then it counts itself, and writes the log at most. -/
theorem State.ctxSwitch_only (q : CtxReqst) (src : Nat) :
    ∃ t : State, LogOnly (t.count (CTX_SWCNT_COUNT n)) (s.ctxSwitch n q src) ∧
      (t.region n).ctx.Switched (s.region n).ctx.active q.ctx src ∧
      (t.region n).fab.cfg = (s.region n).fab.cfg ∧ (t.region n).fab.ffs = (s.region n).fab.ffs ∧
      ∀ f : Fld, (CTX_DISCARD_BANK n).key ≠ f.key → (CTX_DISCARD_STREAM n).key ≠ f.key → t.rd f = s.rd f := by
  unfold State.ctxSwitch
  extract_lets old lb ls
  rcases s.ctxBusy n old q.ctx with ⟨nb, ns⟩
  dsimp -zeta only
  extract_lets s1 s2 s3 s4
  have hregion : s3.region n = _ := s2.region_modCtx_same n _
  have hfab : s2.region n = _ := s1.region_modRegion_same n _
  refine ⟨s3, ?log, ?ctx, ?cfg, ?ffs, ?rd⟩
  case log =>
    split
    · exact State.ctxLog_only ..
    · exact .refl _
  case ctx => rw [hregion]; exact ⟨rfl, rfl, rfl, rfl⟩
  case cfg => rw [hregion, hfab]; rfl
  case ffs => rw [hregion, hfab]; rfl
  case rd =>
    intro f hbank hstream
    rw [show s3.rd f = s1.rd f from rfl]
    unfold s1
    rw [State.bump_eq, State.rd_wr_other _ _ _ _ hstream, State.bump_eq, State.rd_wr_other _ _ _ _ hbank]

/-- What a switch leaves in its region (R172). -/
theorem State.region_ctxSwitch (q : CtxReqst) (src : Nat) :
    ((s.ctxSwitch n q src).region n).ctx.Switched (s.region n).ctx.active q.ctx src ∧
      ((s.ctxSwitch n q src).region n).fab.cfg = (s.region n).fab.cfg ∧
      ((s.ctxSwitch n q src).region n).fab.ffs = (s.region n).fab.ffs := by
  obtain ⟨t, honly, hctx, hcfg, hffs, -⟩ := s.ctxSwitch_only n q src
  rw [show (s.ctxSwitch n q src).region n = t.region n from honly.region n]
  exact ⟨hctx, hcfg, hffs⟩

/-- A switch leaves the fields of CTX_STATUS. -/
theorem State.rd_ctxSwitch_status (q : CtxReqst) (src : Nat) (f : Fld)
    (haddr : f.addr = (CTX_STATUS_REFUSED n).addr) (hlo : f.lo < 32) : (s.ctxSwitch n q src).rd f = s.rd f := by
  obtain ⟨t, honly, -, -, -, hrd⟩ := s.ctxSwitch_only n q src
  rw [honly.rd, State.count_eq, State.rd_wr_other, hrd]
  all_goals
    simp only [Fld.key, haddr, CTX_STATUS_REFUSED, CTX_SWCNT_COUNT, CTX_DISCARD_BANK, CTX_DISCARD_STREAM,
      SYS_LOG_STATUS_LOST]
    omega

theorem State.rd_ctxSwitch_count (q : CtxReqst) (src : Nat) : (s.ctxSwitch n q src).rd (CTX_SWCNT_COUNT n) =
    (s.rd (CTX_SWCNT_COUNT n) + 1) % 2 ^ (CTX_SWCNT_COUNT n).width := by
  obtain ⟨t, honly, -, -, -, hrd⟩ := s.ctxSwitch_only n q src
  rw [honly.rd, State.count_eq, State.rd_wr_same, hrd]
  all_goals simp only [Fld.key, CTX_SWCNT_COUNT, CTX_DISCARD_BANK, CTX_DISCARD_STREAM, SYS_LOG_STATUS_LOST]; omega

end

/-! ### The edge (R169 to R171, R175, R178) -/

/-- A context unit with no request registered or held. -/
def CtxUnit.cleared (c : CtxUnit) : CtxUnit := { c with reqs := [], heldSince := none, heldSteep := false }

theorem CtxUnit.Switched.cleared {c : CtxUnit} {old k src : Nat} (h : c.Switched old k src) :
    c.cleared.Switched old k src := ⟨h.active, h.lastFrom, h.lastTo, h.lastSrc⟩

/-- The switch to the request's context, forced while responses or packets are outstanding (R175). -/
def State.forcedPast (s : State) (n : Nat) (q : CtxReqst) (force : Bool) : Bool :=
  force && decide (0 < (s.ctxBusy n (s.region n).ctx.active q.ctx).1 + (s.ctxBusy n (s.region n).ctx.active q.ctx).2)

theorem State.forcedPast_of_busy {s : State} {n : Nat} {q : CtxReqst}
    (h : 0 < (s.ctxBusy n (s.region n).ctx.active q.ctx).1) : s.forcedPast n q true = true := by
  rw [State.forcedPast, Bool.true_and]
  exact decide_eq_true (Nat.add_pos_left h _)

/-- A switch that GUARDMAX forces past responses outstanding sets GUARDTO (R175). -/
def State.noteForced (s : State) (n : Nat) (past : Bool) : State := if past then s.raise (CTX_STATUS_GUARDTO n) else s

theorem State.region_noteForced (s : State) (n m : Nat) (past : Bool) : (s.noteForced n past).region m = s.region m := by
  unfold State.noteForced; split <;> rfl

/-- The record of a forced switch (R175). -/
theorem State.noteForced_only (s : State) (n : Nat) (past : Bool) (c k st d p : Nat) : LogOnly (s.noteForced n past)
    (if past then (s.raise (CTX_STATUS_GUARDTO n)).ctxLog n c k st d p else s) := by
  unfold State.noteForced
  split
  · exact State.ctxLog_only ..
  · exact .refl _

/-- At the edge of an ACTIVE region, with every registered request permitted, `q` ranks first, asks for another context
and is not held. -/
structure State.Takes (s : State) (n : Nat) (q : CtxReqst) (force : Bool) : Prop where
  active : (s.region n).state = .active
  noSup : (s.region n).ctx.supHeld = none
  good : ∀ x ∈ (s.region n).ctx.reqs, s.ctxReason n x = none
  best : ctxBest (s.region n).ctx.reqs = some q
  other : q.ctx ≠ (s.region n).ctx.active
  steep : s.steepHolds n q.ctx = false
  free : force = true ∨ s.ctxBusy n (s.region n).ctx.active q.ctx = (0, 0)

section
variable {s : State} {n : Nat} {q : CtxReqst}

theorem State.ctxEdge_refused {k : Nat} (force : Bool) (hactive : (s.region n).state = .active)
    (hheld : (s.region n).ctx.supHeld = none) (hreqs : (s.region n).ctx.reqs = [q]) (hreason : s.ctxReason n q = some k) :
    s.ctxEdge n force = (s.ctxRefuse n q k).modCtx n CtxUnit.cleared := by
  simp [State.ctxEdge, hactive, hheld, hreqs, hreason, ctxBest]
  rfl

theorem State.Takes.of_sole {force : Bool} (hactive : (s.region n).state = .active)
    (hheld : (s.region n).ctx.supHeld = none) (hreqs : (s.region n).ctx.reqs = [q]) (hreason : s.ctxReason n q = none)
    (hsteep : s.steepHolds n q.ctx = false) (hne : q.ctx ≠ (s.region n).ctx.active)
    (hfree : force = true ∨ s.ctxBusy n (s.region n).ctx.active q.ctx = (0, 0)) : s.Takes n q force :=
  ⟨hactive, hheld, by simpa [hreqs] using hreason, by rw [hreqs]; rfl, hne, hsteep, hfree⟩

/-- The taken request makes the switch after the others are superseded and the log has what held it. -/
theorem State.Takes.ctxEdge {force : Bool} (h : s.Takes n q force) :
    ∃ t, LogOnly ((s.supersedeAll n ((s.region n).ctx.reqs.erase q)).noteForced n (s.forcedPast n q force)) t ∧
      s.ctxEdge n force = (t.ctxSwitch n q q.path).modCtx n CtxUnit.cleared := by
  obtain ⟨hactive, hheld, hgood, hbest, hne, hsteep, hfree⟩ := h
  have hbad : (s.region n).ctx.reqs.filter (fun x => (s.ctxReason n x).isSome) = [] :=
    List.filter_eq_nil_iff.mpr fun x hx => by simp [hgood x hx]
  have hall : (s.region n).ctx.reqs.filter (fun x => (s.ctxReason n x).isNone) = (s.region n).ctx.reqs :=
    List.filter_eq_self.mpr fun x hx => by simp [hgood x hx]
  have hfold (l : List CtxReqst) : l.foldl (fun s p => s.ctxSupersede n p) s = s.supersedeAll n l := rfl
  have hnoted := s.supersedeAll_noted n ((s.region n).ctx.reqs.erase q)
  have hguard : (decide (0 < (s.ctxBusy n (s.region n).ctx.active q.ctx).1 +
      (s.ctxBusy n (s.region n).ctx.active q.ctx).2) && !force) = false := by
    obtain h | h := hfree <;> simp [h]
  simp only [State.ctxEdge, hactive, hheld, hbad, hall, hbest, List.foldl_nil, hfold, hnoted.region, hnoted.ctxBusy,
    (hnoted.steepHolds q.ctx).trans hsteep, hne, ne_eq, not_true_eq_false, if_false, Bool.and_assoc, hguard,
    Bool.and_false, Bool.or_false, Bool.false_eq_true]
  refine ⟨_, ?_, rfl⟩
  split
  · exact (State.noteForced_only ..).trans (State.ctxLog_only ..)
  · exact State.noteForced_only ..

/-- The region after the switch: the request's context is active, with from, to and path, and none is held. -/
theorem State.Takes.region {force : Bool} (h : s.Takes n q force) :
    ((s.ctxEdge n force).region n).ctx.Switched (s.region n).ctx.active q.ctx q.path ∧
      ((s.ctxEdge n force).region n).ctx.reqs = [] ∧ ((s.ctxEdge n force).region n).ctx.heldSince = none ∧
      ((s.ctxEdge n force).region n).fab.cfg = (s.region n).fab.cfg ∧
      ((s.ctxEdge n force).region n).fab.ffs = (s.region n).fab.ffs := by
  obtain ⟨t, honly, hedge⟩ := h.ctxEdge
  have hold : t.region n = s.region n :=
    (honly.region n).trans ((State.region_noteForced ..).trans ((s.supersedeAll_noted n _).region n))
  obtain ⟨hctx, hcfg, hffs⟩ := t.region_ctxSwitch n q q.path
  rw [hold] at hctx hcfg hffs
  rw [hedge, State.ctx_modCtx, State.fab_modCtx]
  exact ⟨hctx.cleared, rfl, rfl, hcfg, hffs⟩

/-- A sole request that is not forced: the count of switches is one more. -/
theorem State.Takes.rd_count (h : s.Takes n q false) (hreqs : (s.region n).ctx.reqs = [q]) :
    (s.ctxEdge n false).rd (CTX_SWCNT_COUNT n) = (s.rd (CTX_SWCNT_COUNT n) + 1) % 2 ^ (CTX_SWCNT_COUNT n).width := by
  obtain ⟨t, honly, hedge⟩ := h.ctxEdge
  have hnote : (s.supersedeAll n ((s.region n).ctx.reqs.erase q)).noteForced n (s.forcedPast n q false) = s := by
    simp [hreqs, State.noteForced, State.forcedPast, State.supersedeAll]
  rw [hedge, State.rd_modCtx, State.rd_ctxSwitch_count, honly.rd, hnote]
  simp only [Fld.key, CTX_SWCNT_COUNT, SYS_LOG_STATUS_LOST]; omega

/-- Of two requests the one that is not taken sets SUPERSEDED (R169). -/
theorem State.Takes.rd_superseded {p : CtxReqst} (h : s.Takes n q false) (hrest : (s.region n).ctx.reqs.erase q = [p]) :
    (s.ctxEdge n false).rd (CTX_STATUS_SUPERSEDED n) = 1 := by
  obtain ⟨t, honly, hedge⟩ := h.ctxEdge
  have hnote : (s.supersedeAll n ((s.region n).ctx.reqs.erase q)).noteForced n (s.forcedPast n q false) =
      s.ctxSupersede n p := by simp [hrest, State.noteForced, State.forcedPast, State.supersedeAll]
  rw [hedge, State.rd_modCtx,
    t.rd_ctxSwitch_status n q q.path (CTX_STATUS_SUPERSEDED n) rfl (Nat.lt_of_sub_eq_succ rfl), honly.rd, hnote,
    State.rd_ctxSupersede]
  simp only [Fld.key, CTX_STATUS_SUPERSEDED, SYS_LOG_STATUS_LOST]; omega

/-- A switch forced past what is outstanding sets GUARDTO (R175). -/
theorem State.Takes.rd_guardto {force : Bool} (h : s.Takes n q force) (hpast : s.forcedPast n q force = true) :
    (s.ctxEdge n force).rd (CTX_STATUS_GUARDTO n) = 1 := by
  obtain ⟨t, honly, hedge⟩ := h.ctxEdge
  rw [hedge, State.rd_modCtx,
    t.rd_ctxSwitch_status n q q.path (CTX_STATUS_GUARDTO n) rfl (Nat.lt_of_sub_eq_succ rfl), honly.rd, hpast]
  · exact State.rd_raise _ _ (by simp [Fld.width, CTX_STATUS_GUARDTO])
  · simp only [Fld.key, CTX_STATUS_GUARDTO, SYS_LOG_STATUS_LOST]; omega

/-- A request for a context that is not loaded is refused (R170). -/
theorem State.ctxReason_unloaded (hloaded : bitOf (s.region n).ctx.loaded q.ctx = false) :
    ∃ k, s.ctxReason n q = some k := by
  unfold State.ctxReason
  extract_lets r
  split
  · exact ⟨_, rfl⟩
  · split
    · exact ⟨_, rfl⟩
    · exact ⟨1, if_pos (by simp [r, hloaded])⟩

/-- An event-table request ranks before a request of another path (R169). -/
theorem ctxBest_eventTable {p : CtxReqst} (hp : p.path ≠ 0) (hq : q.path = 0) : ctxBest [p, q] = some q := by
  simp [ctxBest, ctxBefore, hq, hp]

end

section
variable {s : State} {n : Fin 64}

theorem exec_contextSwitch_idle (hreqs : (s.region n).ctx.reqs = []) (hheld : (s.region n).ctx.supHeld = none) :
    exec (.contextSwitch n) s = .next s := congrArg _ (if_pos ⟨hreqs, hheld⟩)

theorem exec_contextSwitch_edge (hreqs : (s.region n).ctx.reqs ≠ []) :
    exec (.contextSwitch n) s = .next (s.ctxEdge n false) := congrArg _ (if_neg fun h => hreqs h.1)

theorem exec_guardTimeout_idle (h : (s.region n).ctx.heldSince = none) : exec (.guardTimeout n) s = .next s :=
  congrArg _ (if_neg (by simp [h]))

theorem exec_guardTimeout_held {e : Nat} (h : (s.region n).ctx.heldSince = some e) :
    exec (.guardTimeout n) s = .next (s.ctxEdge n true) := congrArg _ (if_pos (by simp [h]))

end

/-- Settles O29: the ranked request is taken (`State.Takes`), and what its switch leaves is known field by field. -/
theorem contextSwitchSelectsTheRankedRequest : Obligations.ContextSwitchSelectsTheRankedRequest := by
  intro s n q
  dsimp only
  refine ⟨?sole, ?unloaded, ?ranked, exec_contextSwitch_idle, ?forced, exec_guardTimeout_idle⟩
  case sole =>
    rintro hactive hheld hreqs ⟨hreason, hsteep, hne⟩ hfree
    have htakes : s.Takes n q false := .of_sole hactive hheld hreqs hreason hsteep hne (.inr hfree)
    obtain ⟨⟨hto, hfrom, hlast, hsrc⟩, hnone, -, hcfg, hffs⟩ := htakes.region
    exact ⟨_, exec_contextSwitch_edge (by simp [hreqs]), hto, hnone, hfrom, hlast, hsrc, htakes.rd_count hreqs, hcfg,
      hffs⟩
  case unloaded =>
    intro hactive hheld hreqs hloaded
    obtain ⟨k, hreason⟩ := State.ctxReason_unloaded hloaded
    have hedge := State.ctxEdge_refused false hactive hheld hreqs hreason
    refine ⟨_, (exec_contextSwitch_edge (by simp [hreqs])).trans (congrArg _ hedge), ?_⟩
    dsimp only
    rw [State.region_modCtx_same, State.region_ctxRefuse, State.rd_modCtx, State.rd_ctxRefuse]
    exact ⟨rfl, rfl, rfl⟩
  case ranked =>
    rintro p hactive hheld hreqs hp hq ⟨hpreason, -, -⟩ ⟨hreason, hsteep, hne⟩ hfree
    have hbest : ctxBest [p, q] = some q := ctxBest_eventTable (by simp [hp]) hq
    have hpq : p ≠ q := fun h => by simp [h, hq] at hp
    have htakes : s.Takes n q false :=
      ⟨hactive, hheld, by simp [hreqs, hpreason, hreason], by rw [hreqs, hbest], hne, hsteep, .inr hfree⟩
    obtain ⟨⟨hto, -⟩, -⟩ := htakes.region
    exact ⟨_, exec_contextSwitch_edge (by simp [hreqs]), hto, htakes.rd_superseded (p := p) (by simp [hreqs, hpq])⟩
  case forced =>
    rintro e0 hactive hheld hreqs hsince ⟨hreason, hsteep, hne⟩
    have htakes : s.Takes n q true := .of_sole hactive hheld hreqs hreason hsteep hne (.inl rfl)
    obtain ⟨⟨hto, -⟩, -, hnone, -⟩ := htakes.region
    exact ⟨_, exec_guardTimeout_held hsince, hto, hnone, fun hbusy => htakes.rd_guardto (State.forcedPast_of_busy hbusy)⟩

end Sys2Proof.Machine
end

section
/-! PROOFS. The bytes of the banks: what a word reads after it is written (07 R206, 13 R388), and the commands that can
change one (07 R200, R205, 13 R393). -/

namespace Sys2Proof.Machine

/-! ### The bytes of a word -/

/-- Byte `i` of a word. -/
def lineByte (d : Line) (i : Nat) : Byte := BitVec.ofNat 8 (d.toNat / 256 ^ i)

theorem getLsbD_lineByte (d : Line) (j : Nat) : (lineByte d (j / 8)).getLsbD (j % 8) = d.getLsbD j := by
  have hpow : 256 ^ (j / 8) = 2 ^ (8 * (j / 8)) := by rw [Nat.pow_mul]
  have hlt : j % 8 < 8 := Nat.mod_lt _ (by decide)
  rw [lineByte, BitVec.getLsbD_ofNat, hpow, Nat.testBit_div_two_pow, Nat.mod_add_div]
  simp [hlt, BitVec.getLsbD]

/-- A word is its 16 bytes. -/
theorem line_ext {d e : Line} (h : ∀ i < 16, lineByte d i = lineByte e i) : d = e := by
  refine BitVec.eq_of_getLsbD_eq fun j hj => ?_
  rw [← getLsbD_lineByte, ← getLsbD_lineByte, h _ (by omega)]

/-- The number whose bytes are the first `k` of `f`, lowest first. -/
def byteSum (f : Nat → Nat) (k : Nat) : Nat := (List.range k).foldl (fun v i => v + f i * 256 ^ i) 0

theorem byteSum_succ (f : Nat → Nat) (k : Nat) : byteSum f (k + 1) = byteSum f k + f k * 256 ^ k := by
  simp [byteSum, List.range_succ]

theorem byteSum_lt {f : Nat → Nat} (hf : ∀ i, f i < 256) (k : Nat) : byteSum f k < 256 ^ k := by
  induction k with
  | zero => exact Nat.one_pos
  | succ k ih =>
    have hk : f k * 256 ^ k ≤ 255 * 256 ^ k := Nat.mul_le_mul_right _ (Nat.le_of_lt_succ (hf k))
    rw [byteSum_succ, Nat.pow_succ]; omega

theorem byteSum_digit {f : Nat → Nat} (hf : ∀ i, f i < 256) {i k : Nat} (hi : i < k) :
    byteSum f k / 256 ^ i % 256 = f i := by
  induction k with
  | zero => omega
  | succ k ih =>
    rw [byteSum_succ]
    rcases Nat.lt_succ_iff_lt_or_eq.mp hi with h | rfl
    · obtain ⟨c, hc⟩ := Nat.pow_dvd_pow 256 (Nat.succ_le_of_lt h)
      have hsplit : f k * 256 ^ k = 256 ^ i * (256 * (f k * c)) := by
        rw [hc, Nat.pow_succ, Nat.mul_left_comm, Nat.mul_assoc]
      rw [hsplit, Nat.add_mul_div_left _ _ (Nat.pow_pos (by decide)), Nat.add_mul_mod_self_left, ih h]
    · rw [Nat.add_mul_div_right _ _ (Nat.pow_pos (by decide)), Nat.div_eq_of_lt (byteSum_lt hf i), Nat.zero_add,
        Nat.mod_eq_of_lt (hf i)]

theorem lineByte_byteSum {f : Nat → Nat} (hf : ∀ i, f i < 256) {i : Nat} (hi : i < 16) :
    lineByte (BitVec.ofNat 128 (byteSum f 16)) i = BitVec.ofNat 8 (f i) := by
  have hfit : byteSum f 16 < 2 ^ 128 := byteSum_lt hf 16
  rw [lineByte, BitVec.toNat_ofNat, Nat.mod_eq_of_lt hfit, ← byteSum_digit hf hi]
  exact BitVec.eq_of_toNat_eq (by simp)

theorem lineByte_bitsOf (d : Line) (i : Nat) : BitVec.ofNat 8 (bitsOf d.toNat (8 * i + 7) (8 * i)) = lineByte d i := by
  have hpow : 256 ^ i = 2 ^ (8 * i) := by rw [Nat.pow_mul]
  have hwidth : 8 * i + 7 + 1 - 8 * i = 8 := by omega
  exact BitVec.eq_of_toNat_eq (by simp [lineByte, bitsOf, hpow, hwidth])

/-- A masked write takes the bytes its mask enables (R393). -/
theorem lineByte_mergeLine (old d : Line) (mask : Nat) {i : Nat} (hi : i < 16) :
    lineByte (mergeLine old d mask) i = if bitOf mask i then lineByte d i else lineByte old i := by
  let f (i : Nat) : Nat := bitsOf (if bitOf mask i then d.toNat else old.toNat) (8 * i + 7) (8 * i)
  have hf (i : Nat) : f i < 256 := by
    have hwidth : 8 * i + 7 + 1 - 8 * i = 8 := by omega
    simp only [f, bitsOf, hwidth]; exact Nat.mod_lt _ (by decide)
  have hbyte : lineByte (mergeLine old d mask) i = BitVec.ofNat 8 (f i) := lineByte_byteSum hf hi
  rw [hbyte, ← lineByte_bitsOf d, ← lineByte_bitsOf old]
  simp only [f]; split <;> rfl

theorem bitOf_full {i : Nat} (hi : i < 16) : bitOf 0xFFFF i = true := by revert i; decide

/-- With every byte enabled a masked write is a full one. -/
theorem mergeLine_full (old d : Line) : mergeLine old d 0xFFFF = d :=
  line_ext fun i hi => by rw [lineByte_mergeLine old d _ hi, if_pos (bitOf_full hi)]

/-! ### The bytes of the banks -/

/-- Memory `m` with bytes `b 0` to `b (k - 1)` from address `a` on. -/
def Memory.writeBytes (m : Memory) (a : Nat) (b : Nat → Byte) (k : Nat) : Memory :=
  (List.range k).foldl (fun (m : Memory) i => m.writeByte (a + i) (b i)) m

theorem Memory.readByte_writeBytes (m : Memory) (a : Nat) (b : Nat → Byte) (k c : Nat) :
    (m.writeBytes a b k).readByte c = if a ≤ c ∧ c < a + k then b (c - a) else m.readByte c := by
  induction k with
  | zero => rw [if_neg (by omega)]; rfl
  | succ k ih =>
    have hlast : m.writeBytes a b (k + 1) = (m.writeBytes a b k).writeByte (a + k) (b k) := by
      simp [Memory.writeBytes, List.range_succ]
    rw [hlast, Memory.readByte_writeByte, ih]
    by_cases h : a + k = c
    · subst h; simp
    · have hrange : (a ≤ c ∧ c < a + (k + 1)) ↔ (a ≤ c ∧ c < a + k) := by omega
      simp only [if_neg h, hrange]

section
variable (s : State)

theorem State.lineByte_lineAt (a : Nat) {i : Nat} (hi : i < 16) :
    lineByte (s.lineAt a) i = s.bankMem.readByte (a * 16 + i) := by
  have hf (i : Nat) : (s.bankMem.readByte (a * 16 + i)).toNat < 256 := (s.bankMem.readByte (a * 16 + i)).isLt
  have hbyte : lineByte (s.lineAt a) i = BitVec.ofNat 8 (s.bankMem.readByte (a * 16 + i)).toNat :=
    lineByte_byteSum hf hi
  rw [hbyte, BitVec.ofNat_toNat, BitVec.setWidth_eq]

theorem State.readByte_setLineAt (a : Nat) (d : Line) (syn c : Nat) : (s.setLineAt a d syn).bankMem.readByte c =
    if a * 16 ≤ c ∧ c < a * 16 + 16 then lineByte d (c - a * 16) else s.bankMem.readByte c :=
  Memory.readByte_writeBytes s.bankMem (a * 16) (lineByte d) 16 c

theorem State.readByte_setLineAt_same (a : Nat) (d : Line) (syn : Nat) {i : Nat} (hi : i < 16) :
    (s.setLineAt a d syn).bankMem.readByte (a * 16 + i) = lineByte d i := by
  rw [s.readByte_setLineAt, if_pos (by omega), Nat.add_sub_cancel_left]

theorem State.readByte_setLineAt_other {a c : Nat} (d : Line) (syn : Nat) (h : c < a * 16 ∨ a * 16 + 16 ≤ c) :
    (s.setLineAt a d syn).bankMem.readByte c = s.bankMem.readByte c := by
  rw [s.readByte_setLineAt, if_neg (by omega)]

theorem State.lineAt_congr {s t : State} {a b : Nat}
    (h : ∀ i < 16, t.bankMem.readByte (b * 16 + i) = s.bankMem.readByte (a * 16 + i)) : t.lineAt b = s.lineAt a :=
  line_ext fun i hi => by rw [t.lineByte_lineAt b hi, s.lineByte_lineAt a hi, h i hi]

theorem State.lineAt_of_bankMem {s t : State} (h : t.bankMem = s.bankMem) (a : Nat) : t.lineAt a = s.lineAt a :=
  State.lineAt_congr fun i _ => by rw [h]

@[simp] theorem State.lineAt_setLineAt_same (a : Nat) (d : Line) (syn : Nat) : (s.setLineAt a d syn).lineAt a = d :=
  line_ext fun i hi => by rw [State.lineByte_lineAt _ a hi, s.readByte_setLineAt_same a d syn hi]

theorem State.lineAt_setLineAt_other {a b : Nat} (d : Line) (syn : Nat) (h : a ≠ b) :
    (s.setLineAt a d syn).lineAt b = s.lineAt b :=
  State.lineAt_congr fun i hi => s.readByte_setLineAt_other d syn (by omega)

@[simp] theorem State.bankSyn_setLineAt_same (a : Nat) (d : Line) (syn : Nat) :
    (s.setLineAt a d syn).bankSyn.get 0 a = syn := Tbl.get_put_same ..

theorem State.bankSyn_setLineAt_other {a b : Nat} (d : Line) (syn : Nat) (h : a ≠ b) :
    (s.setLineAt a d syn).bankSyn.get 0 b = s.bankSyn.get 0 b := Tbl.get_put_other _ _ _ h

end

/-! ### The commands that leave the banks alone -/

/-- A sound state, with the bytes of its banks held. -/
theorem State.Inv.keeps_banks {s : State} (h : s.Inv) : Keeps ⟨s.pending, some s.bankMem, none⟩ s :=
  ⟨rfl, h, (Keeps.self h).mem, (by intro c e; cases e)⟩

theorem exec_keeps_bankMem {c : Instr} {s t : State} (hc : c.reachesBanks = false) (hs : s.Inv)
    (ht : exec c s = .next t) : t.bankMem = s.bankMem :=
  ((exec_keeps c s (fun h => by simp [hc] at h) (fun _ => rfl) hs.keeps_banks).keeps t ht).bank

/-- Settles O7: the laws of the commands that do not reach the banks hold their bytes fixed. -/
theorem onlyBankCommandsReachBankBytes : Obligations.OnlyBankCommandsReachBankBytes :=
  fun _ _ _ hc hs ht a => congrArg (Memory.readByte · a) (exec_keeps_bankMem hc hs ht)

end Sys2Proof.Machine
end

section
/-! PROOFS. One access of a bank word (07 R200 to R203, 13 R388, R393), and the operations at a bank port (05 R159). -/

namespace Sys2Proof.Machine

/-! ### A word that is stored -/

section
variable (s : State) (n p w : Nat) (d : Line)

/-- Word `w` of physical bank `p` holds `d` with a valid code; its waiting rewrites are dropped (13 R399). -/
def State.storeWord : State :=
  (s.setLineAt (s.bankAt n p w) d 0).modEcc n fun e => e.cancelWb 0 p ((s.region n).bankRow p w)

theorem State.region_storeWord : (s.storeWord n p w d).region n =
    { s.region n with ecc := (s.region n).ecc.cancelWb 0 p ((s.region n).bankRow p w) } :=
  State.region_modRegion_same ..

/-- The row map stays. -/
@[simp] theorem State.bankAt_storeWord (q v : Nat) : (s.storeWord n p w d).bankAt n q v = s.bankAt n q v := by
  rw [State.bankAt, State.region_storeWord]; rfl

theorem State.readByte_storeWord {i : Nat} (hi : i < 16) :
    (s.storeWord n p w d).bankMem.readByte (s.bankAt n p w * 16 + i) = lineByte d i :=
  s.readByte_setLineAt_same _ d 0 hi

theorem State.readByte_storeWord_other {c : Nat} (h : c < s.bankAt n p w * 16 ∨ s.bankAt n p w * 16 + 16 ≤ c) :
    (s.storeWord n p w d).bankMem.readByte c = s.bankMem.readByte c := s.readByte_setLineAt_other d 0 h

@[simp] theorem State.lineAt_storeWord_same : (s.storeWord n p w d).lineAt (s.bankAt n p w) = d :=
  s.lineAt_setLineAt_same _ d 0

theorem State.lineAt_storeWord_other {a : Nat} (h : s.bankAt n p w ≠ a) :
    (s.storeWord n p w d).lineAt a = s.lineAt a := s.lineAt_setLineAt_other d 0 h

@[simp] theorem State.bankSyn_storeWord_same : (s.storeWord n p w d).bankSyn.get 0 (s.bankAt n p w) = 0 :=
  s.bankSyn_setLineAt_same _ d 0

/-- In region `n` no injection is armed and no copy mirrors a bank (13 R406, 07 R207). -/
structure State.PlainBanks : Prop where
  inj : (s.region n).ecc.inj = none
  copy : s.rd (MEM_COPY_STATE n) ≠ 2

variable {s n p w d}

theorem State.PlainBanks.storeWord (h : s.PlainBanks n) : (s.storeWord n p w d).PlainBanks n :=
  ⟨by rw [State.region_storeWord]; exact h.inj, h.copy⟩

theorem State.PlainBanks.bankWrite (h : s.PlainBanks n) : s.bankWrite n p w d false = s.storeWord n p w d := by
  unfold State.bankWrite
  rw [h.inj]
  exact if_neg fun hmirror => h.copy hmirror.1

/-! ### One access of a word with a valid code -/

theorem v144Read_valid (d : Line) : v144Read d 0 = (d, false, 0) := rfl

theorem State.bankRead_valid (h : s.bankSyn.get 0 (s.bankAt n p w) = 0) :
    s.bankRead n p w = (s.lineAt (s.bankAt n p w), false, 0, s) := by
  rw [State.bankAt] at h
  simp only [State.bankRead, h, v144Read_valid]
  rfl

theorem State.physAccess_read (mask : Nat) (psn : Bool) (h : s.bankSyn.get 0 (s.bankAt n p w) = 0) :
    s.physAccess n p .read w mask d psn = (⟨0, s.lineAt (s.bankAt n p w), false⟩, s) := by
  simp only [State.physAccess, State.bankRead_valid h]

theorem State.PlainBanks.physAccess_write (hp : s.PlainBanks n) :
    s.physAccess n p .write w 0xFFFF d false = (⟨0, 0#128, false⟩, s.storeWord n p w d) := by
  simp only [State.physAccess, if_true, hp.bankWrite]

/-- A masked write merges what it reads with the bytes it brings; with all enabled it is a full one (R393). -/
theorem State.PlainBanks.physAccess_masked (hp : s.PlainBanks n) (mask : Nat)
    (h : s.bankSyn.get 0 (s.bankAt n p w) = 0) : s.physAccess n p .write w mask d false =
      (⟨0, 0#128, false⟩, s.storeWord n p w (mergeLine (s.lineAt (s.bankAt n p w)) d mask)) := by
  by_cases hfull : mask = 0xFFFF
  · rw [hfull, hp.physAccess_write, mergeLine_full]
  · simp only [State.physAccess, if_neg hfull, State.bankRead_valid h, Bool.or_self, hp.bankWrite]

theorem atomicTarget_add32 {l : Nat} (hl : l < 4) : atomicTarget .add32 (0xF * 2 ^ (4 * l)) = some (32 * l, 32) := by
  revert l; decide

theorem atomicTarget_add64 {h : Nat} (hh : h < 2) : atomicTarget .add64 (0xFF * 2 ^ (8 * h)) = some (64 * h, 64) := by
  revert h; decide

theorem atomicTarget_swap64 {h : Nat} (hh : h < 2) : atomicTarget .swap64 (0xFF * 2 ^ (8 * h)) = some (64 * h, 64) := by
  revert h; decide

/-- An atomic answers the old value of its target and stores the new one in it alone (R202). -/
theorem State.PlainBanks.physAccess_atomic {op : BankOp} {mask lo wd hi : Nat} (hp : s.PlainBanks n)
    (h : s.bankSyn.get 0 (s.bankAt n p w) = 0) (hread : op ≠ .read) (hwrite : op ≠ .write)
    (htarget : atomicTarget op mask = some (lo, wd)) (hhi : lo + wd - 1 = hi) : s.physAccess n p op w mask d false =
      let x := (s.lineAt (s.bankAt n p w)).toNat
      (⟨0, BitVec.ofNat 128 (bitsOf x hi lo), false⟩, s.storeWord n p w (BitVec.ofNat 128 (setBits x hi lo
        (if op = .swap64 then d.toNat % 2 ^ wd else (bitsOf x hi lo + d.toNat % 2 ^ wd) % 2 ^ wd)))) := by
  unfold State.physAccess
  split
  · exact absurd rfl hread
  · exact absurd rfl hwrite
  · simp only [htarget, State.bankRead_valid h, hp.bankWrite, hhi, Bool.or_self, if_false, Bool.false_eq_true]

/-- ADD32 answers the old lane and stores the sum in it (R202). -/
theorem State.PlainBanks.physAccess_add32 (hp : s.PlainBanks n) {l : Nat} (hl : l < 4)
    (h : s.bankSyn.get 0 (s.bankAt n p w) = 0) : s.physAccess n p .add32 w (0xF * 2 ^ (4 * l)) d false =
      let x := (s.lineAt (s.bankAt n p w)).toNat
      (⟨0, BitVec.ofNat 128 (bitsOf x (32 * l + 31) (32 * l)), false⟩, s.storeWord n p w
        (BitVec.ofNat 128 (setBits x (32 * l + 31) (32 * l)
          ((bitsOf x (32 * l + 31) (32 * l) + d.toNat % 2 ^ 32) % 2 ^ 32)))) := by
  simp only [hp.physAccess_atomic (op := .add32) (hi := 32 * l + 31) h nofun nofun (atomicTarget_add32 hl) rfl,
    reduceCtorEq, if_false]

/-- ADD64 answers the old pair of lanes and stores the sum in it (R202). -/
theorem State.PlainBanks.physAccess_add64 (hp : s.PlainBanks n) {l : Nat} (hl : l < 2)
    (h : s.bankSyn.get 0 (s.bankAt n p w) = 0) : s.physAccess n p .add64 w (0xFF * 2 ^ (8 * l)) d false =
      let x := (s.lineAt (s.bankAt n p w)).toNat
      (⟨0, BitVec.ofNat 128 (bitsOf x (64 * l + 63) (64 * l)), false⟩, s.storeWord n p w
        (BitVec.ofNat 128 (setBits x (64 * l + 63) (64 * l)
          ((bitsOf x (64 * l + 63) (64 * l) + d.toNat % 2 ^ 64) % 2 ^ 64)))) := by
  simp only [hp.physAccess_atomic (op := .add64) (hi := 64 * l + 63) h nofun nofun (atomicTarget_add64 hl) rfl,
    reduceCtorEq, if_false]

/-- SWAP64 answers the old pair of lanes and stores the new one (R202). -/
theorem State.PlainBanks.physAccess_swap64 (hp : s.PlainBanks n) {l : Nat} (hl : l < 2)
    (h : s.bankSyn.get 0 (s.bankAt n p w) = 0) : s.physAccess n p .swap64 w (0xFF * 2 ^ (8 * l)) d false =
      let x := (s.lineAt (s.bankAt n p w)).toNat
      (⟨0, BitVec.ofNat 128 (bitsOf x (64 * l + 63) (64 * l)), false⟩, s.storeWord n p w
        (BitVec.ofNat 128 (setBits x (64 * l + 63) (64 * l)
          (d.toNat % 2 ^ 64)))) := by
  simp only [hp.physAccess_atomic (op := .swap64) (hi := 64 * l + 63) h nofun nofun (atomicTarget_swap64 hl) rfl,
    if_true]

/-- A logical bank that is in use is the physical bank PHYS names (R189). -/
theorem State.bankAccess_phys {b : Nat} (op : BankOp) (mask : Nat) (psn : Bool) (hb : b < 48)
    (hphys : s.rd (MEM_BANK_OWN_PHYS n b) = p) (hp : p < 50) :
    s.bankAccess n b op w mask d psn = s.physAccess n p op w mask d psn := by
  rw [State.bankAccess, hphys, if_neg (by omega)]

end

/-! ### The fabric's requests (05 R159) -/

section
variable {s : State} {n b p w : Nat} {d : Line}

theorem State.FabricServed.plain (h : s.FabricServed n b p) : s.PlainBanks n := by
  obtain ⟨-, -, -, -, -, -, -, -, hinj, hcopy⟩ := h
  exact ⟨hinj, hcopy⟩

theorem State.portResponse_bankMem (r : PortRsp) : (s.portResponse n b r).bankMem = s.bankMem := rfl
theorem State.portResponse_bankSyn (r : PortRsp) : (s.portResponse n b r).bankSyn = s.bankSyn := rfl
theorem State.lineAt_portResponse (r : PortRsp) (a : Nat) : (s.portResponse n b r).lineAt a = s.lineAt a := rfl

theorem State.lineAt_store_portResponse (r : PortRsp) :
    ((s.storeWord n p w d).portResponse n b r).lineAt (s.bankAt n p w) = d := by
  rw [State.lineAt_portResponse, State.lineAt_storeWord_same]

theorem State.bankSyn_store_portResponse (r : PortRsp) :
    ((s.storeWord n p w d).portResponse n b r).bankSyn.get 0 (s.bankAt n p w) = 0 := by
  rw [State.portResponse_bankSyn, State.bankSyn_storeWord_same]

theorem State.portFrame_read (a : Nat) (r : PortRsp) : s.PortFrame (s.portResponse n b r) n b a r := by
  refine ⟨?_, fun _ _ => rfl, rfl, rfl⟩
  rw [State.portResponse, State.modFab, State.region_modRegion_same, Tbl.get_put_same]

theorem State.portFrame_store (r : PortRsp) :
    s.PortFrame ((s.storeWord n p w d).portResponse n b r) n b (s.bankAt n p w) r := by
  refine ⟨?_, fun _ hk => s.readByte_storeWord_other n p w d hk, rfl, rfl⟩
  rw [State.portResponse, State.modFab, State.region_modRegion_same, Tbl.get_put_same, State.region_storeWord]

/-- A bank operation at the port is one access of the physical bank; its answer is the response. -/
theorem State.FabricServed.exec {c : Instr} {t : State} {op : BankOp} {full : Bool} {v : Fin 16384} {m : BitVec 16}
    {x : Line} {mask : Nat} (h : s.FabricServed n b p)
    (hexec : exec c s = .next (s.bankCommand n b op full (.fabric v m d)))
    (hmask : (if op = .write ∧ full then 0xFFFF else m.toNat) = mask)
    (hacc : s.physAccess n p op v mask d false = (⟨0, x, false⟩, t)) :
    exec c s = .next (t.portResponse n b ⟨x, 0, false, false⟩) := by
  obtain ⟨hb, hp, hactive, howner, hbusy, hphys, hroom, hgate, -, -⟩ := h
  have htaken : ¬((s.region n).state ≠ .active ∨ 48 ≤ b ∨ 16 ≤ ((s.region n).fab.ports.get [] b).length) := by
    simp [hactive]; omega
  rw [hexec, State.bankCommand, hphys, if_neg hgate]
  rw [State.fabricRequest, if_neg htaken, if_neg (by simp [howner]), if_neg (by simp [State.flag, hbusy]),
    State.bankAccess_phys _ _ _ hb hphys hp, hmask, hacc]

end

/-- Settles O31: a served request is one access of the physical bank, and its answer is the response. -/
theorem bankOperationsByTheFabric : Obligations.BankOperationsByTheFabric := by
  intro s n b p w m d hs
  dsimp only
  intro hvalid
  have hplain : s.PlainBanks n := hs.plain
  refine ⟨?read, ?write, ?masked, ?add32, ?add64, ?swap64⟩
  case read =>
    exact ⟨_, hs.exec (op := .read) rfl rfl (State.physAccess_read _ _ hvalid), State.portFrame_read .., rfl⟩
  case write =>
    exact ⟨_, hs.exec (op := .write) (full := true) rfl rfl hplain.physAccess_write, State.portFrame_store _,
      State.lineAt_store_portResponse .., State.bankSyn_store_portResponse ..⟩
  case masked =>
    refine ⟨_, hs.exec (op := .write) (full := false) rfl (by simp) (hplain.physAccess_masked m.toNat hvalid),
      State.portFrame_store _, State.bankSyn_store_portResponse .., fun i hi => ?_⟩
    rw [State.portResponse_bankMem, State.readByte_storeWord _ _ _ _ _ hi, lineByte_mergeLine _ _ _ hi,
      State.lineByte_lineAt _ _ hi, lineByte]
  case add32 =>
    intro l hl hm
    exact ⟨_, hs.exec (op := .add32) rfl hm (hplain.physAccess_add32 hl hvalid), State.portFrame_store _,
      State.lineAt_store_portResponse ..⟩
  case add64 =>
    intro l hl hm
    exact ⟨_, hs.exec (op := .add64) rfl hm (hplain.physAccess_add64 hl hvalid), State.portFrame_store _,
      State.lineAt_store_portResponse ..⟩
  case swap64 =>
    intro l hl hm
    exact ⟨_, hs.exec (op := .swap64) rfl hm (hplain.physAccess_swap64 hl hvalid), State.portFrame_store _,
      State.lineAt_store_portResponse ..⟩

end Sys2Proof.Machine
end

section
/-! PROOFS. Ownership of banks, handovers, steal queues, row and bank copies (07 R191 to R197, R206, R207). -/

namespace Sys2Proof.Machine

/-! ### Writes of MEM_BANK_OWN (R192 to R195) -/

section
variable {s : State} {n b v : Nat}

theorem exec_ownershipWrite (acc : Accessor) (n : Fin 64) (b : Fin 48) (v : Word) (s : State) :
    exec (.ownershipWrite acc n b v) s = .next (s.writeOwn false n b v.toNat) := rfl

theorem State.refuseOwn_regions (reason : Nat) : (s.refuseOwn n b reason).regions = s.regions :=
  (State.logEv_only ..).regions

theorem State.rd_refuseOwn (reason : Nat) {f : Fld} (hf : f.key ≠ SYS_LOG_STATUS_LOST.key) :
    (s.refuseOwn n b reason).rd f = (s.raise (MEM_STATUS_REFUSED n)).rd f := (State.logEv_only ..).rd f hf

theorem State.rd_refuseOwn_status (reason : Nat) : (s.refuseOwn n b reason).rd (MEM_STATUS_REFUSED n) = 1 := by
  rw [State.rd_refuseOwn, State.rd_raise _ _ (by simp [Fld.width, MEM_STATUS_REFUSED])]
  simp only [Fld.key, MEM_STATUS_REFUSED, SYS_LOG_STATUS_LOST]; omega

/-- A refused write leaves every field of the bank's register alone. -/
theorem State.rd_refuseOwn_own (reason : Nat) {f : Fld} (hf : f.addr = (MEM_BANK_OWN_OWNER n b).addr)
    (hlo : f.lo < 32) :
    (s.refuseOwn n b reason).rd f = s.rd f := by
  rw [State.rd_refuseOwn, State.raise_eq, State.rd_wr_other]
  all_goals simp only [Fld.key, hf, MEM_BANK_OWN_OWNER, MEM_STATUS_REFUSED, SYS_LOG_STATUS_LOST]; omega

/-- A write changes the owner of a bank with a handover under way, or names no owner there is (R195). -/
theorem State.writeOwn_refused
    (h : s.flag (MEM_BANK_OWN_BUSY n b) = true ∧ bitsOf v 2 0 ≠ s.rd (MEM_BANK_OWN_OWNER n b) ∨
      5 ≤ bitsOf v 2 0 ∨ bitsOf v 2 0 = 2 ∧ 24 < bitsOf v 8 4) :
    ∃ reason, s.writeOwn false n b v = s.refuseOwn n b reason := by
  unfold State.writeOwn
  extract_lets owner eng o e change
  by_cases hbusy : (change && s.flag (MEM_BANK_OWN_BUSY n b)) = true
  · exact ⟨1, if_pos hbusy⟩
  · have hcode : 5 ≤ owner ∨ owner = 2 ∧ 24 < eng := by
      refine h.resolve_left fun ⟨hflag, hne⟩ => hbusy ?_
      simp [change, owner, o, hflag, hne]
    exact ⟨3, (if_neg hbusy).trans (if_pos hcode)⟩

/-- The registers of bank `b` after a write that changes its owner and sets STEAL (R193, R199). -/
def State.ownerTaken (s : State) (n b owner eng : Nat) : State :=
  ((((s.wr (MEM_BANK_OWN_STEAL n b) 1).wr (MEM_BANK_OWN_OWNER n b) owner).wr (MEM_BANK_OWN_ENG n b) eng).wr
    (MEM_BANK_OWN_BUSY n b) 1).count (MEM_CNT_HO_HANDOVERS n)

theorem bitsOf_one_of_bitOf {v i : Nat} (h : bitOf v i = true) : bitsOf v i i = 1 := by
  simpa [bitOf, bitsOf, Nat.add_sub_cancel_left] using h

theorem State.writeOwn_taken (hbusy : s.flag (MEM_BANK_OWN_BUSY n b) = false)
    (hne : bitsOf v 2 0 ≠ s.rd (MEM_BANK_OWN_OWNER n b)) (howner : bitsOf v 2 0 < 5)
    (heng : bitsOf v 2 0 = 2 → bitsOf v 8 4 ≤ 24) (hplc : s.flag (MEM_BANK_OWN_PLC n b) = false)
    (hsteal : bitOf v 11 = true) :
    let t := s.writeOwn false n b v
    t.rsp = ⟨0, 0⟩ ∧ t.regs = (s.ownerTaken n b (bitsOf v 2 0) (bitsOf v 8 4)).regs ∧ t.bankMem = s.bankMem := by
  have hset : s.setSteal n b (bitsOf v 11 11) = s.wr (MEM_BANK_OWN_STEAL n b) 1 := by
    rw [bitsOf_one_of_bitOf hsteal, State.setSteal, if_neg Nat.one_ne_zero]
  unfold State.writeOwn
  extract_lets +onlyGivenNames owner eng o e change
  have hchange : change = true := decide_eq_true (.inl hne)
  rw [hchange, hbusy, hplc, if_neg (by simp), if_neg (by omega), if_neg (by simp), hset]
  simp only [if_true, State.ownerTaken, State.modMem, State.modRegion_eq, State.setRegion_regs,
    State.setRegion_bankMem, State.count_eq, State.wr_bankMem, owner, eng, and_self]

theorem State.rd_of_regs {s t : State} (h : t.regs = s.regs) (f : Fld) : t.rd f = s.rd f := by
  rw [State.rd, h, State.rd]

/-- What MEM_BANK_OWN and the count of handovers read then (R193). -/
theorem State.rd_ownerTaken {owner eng : Nat} (howner : owner < 5) (heng : eng < 32) :
    let t := s.ownerTaken n b owner eng
    t.rd (MEM_BANK_OWN_OWNER n b) = owner ∧ t.rd (MEM_BANK_OWN_ENG n b) = eng ∧ t.rd (MEM_BANK_OWN_BUSY n b) = 1 ∧
      t.rd (MEM_BANK_OWN_STEAL n b) = 1 ∧ t.rd (MEM_CNT_HO_HANDOVERS n) =
        (s.rd (MEM_CNT_HO_HANDOVERS n) + 1) % 2 ^ (MEM_CNT_HO_HANDOVERS n).width := by
  simp only [State.ownerTaken, State.count_eq]
  refine ⟨?owner, ?eng, ?busy, ?steal, ?count⟩
  case owner =>
    iterate 3 rw [State.rd_wr_other]
    · rw [State.rd_wr_same]
      exact Nat.mod_eq_of_lt (Nat.lt_of_lt_of_le howner (Nat.le_of_ble_eq_true rfl))
    all_goals simp only [Fld.key, MEM_BANK_OWN_OWNER, MEM_BANK_OWN_ENG, MEM_BANK_OWN_BUSY, MEM_CNT_HO_HANDOVERS]; omega
  case eng =>
    iterate 2 rw [State.rd_wr_other]
    · rw [State.rd_wr_same]
      exact Nat.mod_eq_of_lt heng
    all_goals simp only [Fld.key, MEM_BANK_OWN_ENG, MEM_BANK_OWN_BUSY, MEM_CNT_HO_HANDOVERS]; omega
  case busy =>
    rw [State.rd_wr_other, State.rd_wr_same]
    · rfl
    · simp only [Fld.key, MEM_BANK_OWN_BUSY, MEM_CNT_HO_HANDOVERS]; omega
  case steal =>
    iterate 4 rw [State.rd_wr_other]
    · rw [State.rd_wr_same]; rfl
    all_goals
      simp only [Fld.key, MEM_BANK_OWN_OWNER, MEM_BANK_OWN_ENG, MEM_BANK_OWN_BUSY, MEM_BANK_OWN_STEAL,
        MEM_CNT_HO_HANDOVERS]
      omega
  case count =>
    rw [State.rd_wr_same]
    iterate 4 rw [State.rd_wr_other]
    all_goals
      simp only [Fld.key, MEM_BANK_OWN_OWNER, MEM_BANK_OWN_ENG, MEM_BANK_OWN_BUSY, MEM_BANK_OWN_STEAL,
        MEM_CNT_HO_HANDOVERS]
      omega

end

/-! ### The end of a handover (R193) -/

section
variable {s : State} {n b : Nat} {h : Handover}

theorem State.endHandover_outstanding (hh : (s.region n).mem.handovers = [(b, h)]) (hleft : 0 < h.left) :
    s.endHandover n b = s := by
  simp [State.endHandover, hh, hleft]

/-- With nothing outstanding and no request held, BUSY clears and the handover is over; a record is all else. -/
theorem State.endHandover_done (hh : (s.region n).mem.handovers = [(b, h)]) (hleft : h.left = 0)
    (hheld : (s.region n).mem.netHeld = []) : ∃ u, LogOnly (s.wr (MEM_BANK_OWN_BUSY n b) 0) u ∧ s.endHandover n b =
      u.modMem n fun m => { m with handovers := m.handovers.del b, netHeld := m.netHeld.del b } := by
  have hfind : (s.region n).mem.handovers.find? (fun x => x.1 == b) = some (b, h) := by simp [hh]
  unfold State.endHandover
  rw [hfind]
  dsimp -zeta only
  rw [if_neg (by omega)]
  extract_lets x1 x2 held x3
  have hlog : LogOnly x1 x2 := by
    unfold x2; split
    · exact State.logEv_only ..
    · exact LogOnly.refl x1
  have hnone : (x2.region n).mem.netHeld = [] := by rw [hlog.region]; exact hheld
  refine ⟨x2, hlog, ?_⟩
  have hheld' : held = [] := by unfold held; rw [hnone]; rfl
  rw [hheld', List.foldl_nil]

end

/-! ### Row copies (R206) -/

section
variable (s : State) (n p row k : Nat)

/-- The first `j` words of row `row` of physical bank `p` copied to its spare row `k`. -/
def State.copyRow (j : Nat) : State :=
  (List.range j).foldl (fun s i =>
    let a := bankWord n p ((s.region n).bankRow p (row * 16 + i))
    let c := copiedWord (s.lineAt a) (s.bankSyn.get 0 a)
    s.setLineAt (bankWord n p (16384 + k * 16 + i)) c.1 c.2) s

theorem State.copyRow_succ (j : Nat) : s.copyRow n p row k (j + 1) =
    let t := s.copyRow n p row k j
    let a := bankWord n p ((t.region n).bankRow p (row * 16 + j))
    let c := copiedWord (t.lineAt a) (t.bankSyn.get 0 a)
    t.setLineAt (bankWord n p (16384 + k * 16 + j)) c.1 c.2 := by
  simp [State.copyRow, List.range_succ]

theorem State.copyRow_frame (j : Nat) : (s.copyRow n p row k j).regions = s.regions ∧
    (s.copyRow n p row k j).regs = s.regs := by
  induction j with
  | zero => exact ⟨rfl, rfl⟩
  | succ j ih => rw [State.copyRow_succ]; exact ih

/-- Outside the spare rows every word stays as it was. -/
theorem State.copyRow_below (j : Nat) {w : Nat} (hw : w < 16384) :
    (s.copyRow n p row k j).lineAt (bankWord n p w) = s.lineAt (bankWord n p w) ∧
      (s.copyRow n p row k j).bankSyn.get 0 (bankWord n p w) = s.bankSyn.get 0 (bankWord n p w) := by
  induction j with
  | zero => exact ⟨rfl, rfl⟩
  | succ j ih =>
    have hne : bankWord n p (16384 + k * 16 + j) ≠ bankWord n p w := by simp only [bankWord]; omega
    rw [State.copyRow_succ]
    dsimp only
    rw [State.lineAt_setLineAt_other _ _ _ hne, State.bankSyn_setLineAt_other _ _ _ hne]
    exact ih

variable {s n p row k}

/-- Each valid word of the row stands in the spare row once it is copied. -/
theorem State.copyRow_copied {j : Nat} (hrow : ∀ i < j, (s.region n).bankRow p (row * 16 + i) = row * 16 + i)
    (hlow : ∀ i < j, row * 16 + i < 16384) (hvalid : ∀ i < j, s.bankSyn.get 0 (bankWord n p (row * 16 + i)) = 0)
    {i : Nat} (hi : i < j) : (s.copyRow n p row k j).lineAt (bankWord n p (16384 + k * 16 + i)) =
      s.lineAt (bankWord n p (row * 16 + i)) := by
  induction j with
  | zero => omega
  | succ j ih =>
    have hregion : (s.copyRow n p row k j).region n = s.region n := by
      rw [State.region, (s.copyRow_frame n p row k j).1, State.region]
    obtain ⟨hline, hsyn⟩ := s.copyRow_below n p row k j (hlow j (by omega))
    rw [State.copyRow_succ]
    simp only [hregion, hrow j (by omega), hsyn, hvalid j (by omega), hline, copiedWord, if_true]
    rcases Nat.lt_succ_iff_lt_or_eq.mp hi with h | rfl
    · rw [State.lineAt_setLineAt_other _ _ _ (by simp only [bankWord]; omega)]
      exact ih (fun i h => hrow i (by omega)) (fun i h => hlow i (by omega)) (fun i h => hvalid i (by omega)) h
    · exact State.lineAt_setLineAt_same ..

/-- A journal entry, or the count of one that was lost (17 R519). -/
theorem State.journal_frame (s : State) (u t a : Nat) : (s.journal u t a).regions = s.regions ∧
    (s.journal u t a).bankMem = s.bankMem ∧ ∀ f : Fld, CFG_JCNT_LOST.key ≠ f.key → (s.journal u t a).rd f = s.rd f := by
  unfold State.journal
  split
  · exact ⟨rfl, rfl, fun f hf => State.rd_wr_other _ _ _ _ hf⟩
  · exact ⟨rfl, rfl, fun _ _ => rfl⟩

/-- Region `n` waits for the row copies of `l`. -/
def State.withRowQueue (s : State) (n : Nat) (l : List (Nat × Nat)) : State :=
  s.modMem n fun m => { m with rowQueue := l }

theorem State.mem_withRowQueue (l : List (Nat × Nat)) :
    ((s.withRowQueue n l).region n).mem = { (s.region n).mem with rowQueue := l } := by
  rw [State.withRowQueue, State.modMem, State.region_modRegion_same]

theorem State.withRowQueue_bankMem (l : List (Nat × Nat)) : (s.withRowQueue n l).bankMem = s.bankMem := rfl

theorem State.withRowQueue_bankSyn (l : List (Nat × Nat)) : (s.withRowQueue n l).bankSyn = s.bankSyn := rfl

theorem State.mem_useRow : ((s.useRow n p row k).region n).mem =
    { (s.region n).mem with
      rowMap := (s.region n).mem.rowMap.set (p * 1024 + row) (k + 1)
      rowUsed := (s.region n).mem.rowUsed.set p (setBit ((s.region n).mem.rowUsed.get 0 p) k) } := by
  have hwr (t : State) : ((t.wr (MEM_ROWUSE_USED n p) (t.rd (MEM_ROWUSE_USED n p) + 1)).wr
    (MEM_ROWUSE_LASTROW n p) row).region n = t.region n := rfl
  rw [State.useRow, hwr, State.modMem, State.region_modRegion_same]

theorem State.rd_useRow_lastRow (hrow : row < 1024) : (s.useRow n p row k).rd (MEM_ROWUSE_LASTROW n p) = row :=
  (State.rd_wr_same ..).trans (Nat.mod_eq_of_lt hrow)

/-- Row `row` served from spare row `k`: the row's rewrites are dropped, the row map changes, records are written. -/
def State.rowServed (s : State) (n p row k : Nat) (f : EccUnit → EccUnit) (u d a : Nat) : State :=
  (((s.modEcc n f).useRow n p row k).logEv 0x0704 1 0 u d).journal u 3 a

theorem State.rowServed_frame (f : EccUnit → EccUnit) (u d a : Nat) (hrow : row < 1024) :
    let t := s.rowServed n p row k f u d a
    (t.region n).mem.rowQueue = (s.region n).mem.rowQueue ∧ (t.region n).mem.rowMap.get 0 (p * 1024 + row) = k + 1 ∧
      t.rd (MEM_ROWUSE_LASTROW n p) = row ∧ t.bankMem = s.bankMem := by
  obtain ⟨hregions, hmem, hrd⟩ := (((s.modEcc n f).useRow n p row k).logEv 0x0704 1 0 u d).journal_frame u 3 a
  have hregion : ((s.rowServed n p row k f u d a).region n).mem = (((s.modEcc n f).useRow n p row k).region n).mem := by
    rw [State.rowServed, State.region, hregions, State.logEv_regions, State.region]
  have hecc : ((s.modEcc n f).region n).mem = (s.region n).mem := by
    rw [State.modEcc, State.region_modRegion_same]
  rw [State.mem_useRow, hecc] at hregion
  refine ⟨by rw [hregion], by rw [hregion]; exact Tbl.get_set_same .., ?_, hmem.trans (State.logEv_bankMem ..)⟩
  rw [State.rowServed, hrd, State.logEv_rd, State.rd_useRow_lastRow hrow]
  all_goals simp only [Fld.key, MEM_ROWUSE_LASTROW, SYS_LOG_STATUS_LOST, CFG_JCNT_LOST]; omega

theorem State.remapRow_eq {l : List (Nat × Nat)} (hq : (s.region n).mem.rowQueue = (p, row) :: l)
    (hused : s.rd (MEM_ROWUSE_USED n p) < 16) : ∃ k f u d a, s.remapRow n =
      ((s.withRowQueue n l).copyRow n p row k 16).rowServed n p row k f u d a := by
  unfold State.remapRow
  rw [hq]
  exact ⟨_, _, _, _, _, if_neg (Nat.not_le.mpr hused)⟩

theorem Region.bankRow_unmapped {r : Region} {i : Nat} (hmap : r.mem.rowMap.get 0 (p * 1024 + row) = 0) (hi : i < 16) :
    r.bankRow p (row * 16 + i) = row * 16 + i := by
  have hdiv : (row * 16 + i) / 16 = row := by omega
  simp [Region.bankRow, hdiv, hmap]

theorem Region.bankRow_mapped {r : Region} {i : Nat} (hmap : r.mem.rowMap.get 0 (p * 1024 + row) = k + 1)
    (hrow : row < 1024) (hi : i < 16) : r.bankRow p (row * 16 + i) = 16384 + k * 16 + i := by
  have hdiv : (row * 16 + i) / 16 = row := by omega
  have hmod : (row * 16 + i) % 16 = i := by omega
  have hlow : row * 16 + i < 16384 := by omega
  simp [Region.bankRow, hdiv, hmod, hlow, hmap]

/-- The words of a valid row stand in the spare row once all are copied. -/
theorem State.withRowQueue_copied (l : List (Nat × Nat)) (hrow : row < 1024)
    (hmap : (s.region n).mem.rowMap.get 0 (p * 1024 + row) = 0)
    (hvalid : ∀ i < 16, s.bankSyn.get 0 (bankWord n p (row * 16 + i)) = 0) {i : Nat} (hi : i < 16) :
    ((s.withRowQueue n l).copyRow n p row k 16).lineAt (bankWord n p (16384 + k * 16 + i)) =
      s.lineAt (bankWord n p (row * 16 + i)) := by
  have hunmapped : ((s.withRowQueue n l).region n).mem.rowMap.get 0 (p * 1024 + row) = 0 := by
    rw [State.mem_withRowQueue]; exact hmap
  rw [State.copyRow_copied (fun i hi => Region.bankRow_unmapped hunmapped hi) (fun i hi => by omega)
    (fun i hi => by rw [State.withRowQueue_bankSyn, hvalid i hi]) hi]
  exact State.lineAt_of_bankMem (State.withRowQueue_bankMem l) _

/-- A row remap serves the row from a spare row with the words it held (R206). -/
theorem State.remapRow_serves {l : List (Nat × Nat)} (hq : (s.region n).mem.rowQueue = (p, row) :: l)
    (hrow : row < 1024) (hused : s.rd (MEM_ROWUSE_USED n p) < 16)
    (hmap : (s.region n).mem.rowMap.get 0 (p * 1024 + row) = 0)
    (hvalid : ∀ i < 16, s.bankSyn.get 0 (bankWord n p (row * 16 + i)) = 0) :
    let t := s.remapRow n
    (t.region n).mem.rowQueue = l ∧ t.rd (MEM_ROWUSE_LASTROW n p) = row ∧
      ∀ i < 16, 16384 ≤ (t.region n).bankRow p (row * 16 + i) ∧
        t.lineAt (t.bankAt n p (row * 16 + i)) = s.lineAt (s.bankAt n p (row * 16 + i)) := by
  obtain ⟨k, f, u, d, a, ht⟩ := State.remapRow_eq hq hused
  obtain ⟨hqueue, hserved, hlast, hbank⟩ := ((s.withRowQueue n l).copyRow n p row k 16).rowServed_frame
    (n := n) (p := p) (k := k) f u d a hrow
  rw [← ht] at hqueue hserved hlast hbank
  have hmem : (((s.withRowQueue n l).copyRow n p row k 16).region n).mem = ((s.withRowQueue n l).region n).mem := by
    rw [State.region, (State.copyRow_frame ..).1, State.region]
  refine ⟨by rw [hqueue, hmem, State.mem_withRowQueue], hlast, fun i hi => ?_⟩
  have hspare : ((s.remapRow n).region n).bankRow p (row * 16 + i) = 16384 + k * 16 + i :=
    Region.bankRow_mapped hserved hrow hi
  refine ⟨by rw [hspare]; omega, ?_⟩
  rw [State.bankAt, State.bankAt, hspare, Region.bankRow_unmapped hmap hi, State.lineAt_of_bankMem hbank,
    State.withRowQueue_copied l hrow hmap hvalid hi]

end

/-! ### Bank copies (R207) -/

section
variable {s : State} {n : Nat}

theorem State.foldl_regions {α : Type} {g : State → α → State} (hg : ∀ t x, (g t x).regions = t.regions) (l : List α)
    (s : State) : (l.foldl g s).regions = s.regions := by
  induction l generalizing s with
  | nil => rfl
  | cons x l ih => exact (ih _).trans (hg s x)

theorem State.bankCopied_regions : (s.bankCopied n).regions = s.regions := by
  unfold State.bankCopied
  rw [State.wr_regions, State.wr_regions]
  refine State.foldl_regions (fun t i => ?_) _ _
  split
  · rfl
  · extract_lets w
    split <;> rfl

theorem State.rd_bankCopied : (s.bankCopied n).rd (MEM_COPY_STATE n) = 2 ∧
    (s.bankCopied n).rd (MEM_COPY_WORDS n) = 16384 := by
  unfold State.bankCopied
  extract_lets src dst words s1 s2
  rw [State.rd_wr_same, State.rd_wr_other _ (MEM_COPY_WORDS n) (MEM_COPY_STATE n) _
    (Fld.key_ne_of_lo rfl (Nat.ne_of_beq_eq_false rfl)), State.rd_wr_same]
  exact ⟨rfl, Nat.mod_eq_of_lt (by simp [Fld.width, MEM_COPY_WORDS])⟩

end

section
variable {s : State} {n : Fin 64}

theorem exec_stealTimeout_none {b : Fin 48} (h : (s.region n).mem.steals = []) :
    exec (.stealTimeout n b) s = .next s := by
  show execStealTimeout n b s = _
  rw [execStealTimeout, h]; rfl

theorem exec_stealTimeout_oldest {b : Fin 48} {p : Packet} {l : List Packet}
    (h : (s.region n).mem.steals.get [] b.val = p :: l) : exec (.stealTimeout n b) s =
      .next (((((((s.modMem n fun m => { m with steals := m.steals.put [] b l }).bump (MEM_CNT_HO_STEALTO n)).raise
        (MEM_STATUS_STEALTO n)).logEvLimited (unitRegion n) 0x0703 1 5 (unitRegion n) b).answerOwner n).respond n p
          5 [] 0)) := by
  show execStealTimeout n b s = _
  rw [execStealTimeout, h]

theorem exec_rowRemapDone : exec (.rowRemapDone n) s = .next (s.remapRow n) := rfl

theorem State.remapRow_idle (h : (s.region n).mem.rowQueue = []) : s.remapRow n = s := by
  rw [State.remapRow, h]

end

/-- Settles O32: each clause is a branch of its command's meaning; what the branch leaves is known field by field. -/
theorem bankOwnershipAndCopies : Obligations.BankOwnershipAndCopies := by
  intro s n
  refine ⟨?refused, ?taken, ?ended, ?outstanding, ?noSteals, ?steal, ?noRow, ?row, ?copied, ?noCopy⟩
  case refused =>
    intro acc b v h
    obtain ⟨reason, ht⟩ := State.writeOwn_refused h
    refine ⟨_, (exec_ownershipWrite ..).trans (congrArg _ ht), rfl, State.rd_refuseOwn_status reason, ?_, ?_,
      State.refuseOwn_regions reason⟩
    · exact State.rd_refuseOwn_own reason rfl (Nat.le_of_ble_eq_true rfl)
    · exact State.rd_refuseOwn_own reason rfl (Nat.le_of_ble_eq_true rfl)
  case taken =>
    intro acc b v hbusy hne howner heng hplc hsteal
    obtain ⟨hrsp, hregs, hbank⟩ := State.writeOwn_taken hbusy hne howner heng hplc hsteal
    have hfit : bitsOf v.toNat 8 4 < 32 := Nat.mod_lt _ (by decide)
    refine ⟨_, exec_ownershipWrite .., hrsp, ?_⟩
    simp only [State.rd_of_regs hregs, hbank, true_and]
    exact State.rd_ownerTaken howner hfit
  case ended =>
    intro b h hh hleft hheld
    obtain ⟨u, hlog, ht⟩ := State.endHandover_done hh hleft hheld
    have hbusy : u.rd (MEM_BANK_OWN_BUSY n b) = 0 := by
      rw [hlog.rd, State.rd_wr_same, Nat.zero_mod]
      simp only [Fld.key, MEM_BANK_OWN_BUSY, SYS_LOG_STATUS_LOST]; omega
    have howner : u.rd (MEM_BANK_OWN_OWNER n b) = s.rd (MEM_BANK_OWN_OWNER n b) := by
      rw [hlog.rd, State.rd_wr_other]
      all_goals simp only [Fld.key, MEM_BANK_OWN_BUSY, MEM_BANK_OWN_OWNER, SYS_LOG_STATUS_LOST]; omega
    refine ⟨_, congrArg Host.Outcome.next ht, hbusy, ?_, howner, hlog.bankMem⟩
    have hu : (u.region n).mem.handovers = [(b.val, h)] := by rw [hlog.region]; exact hh
    rw [State.modMem, State.region_modRegion_same]
    simp [hu, Tbl.del]
  case outstanding => exact fun b h hh hleft => congrArg Host.Outcome.next (State.endHandover_outstanding hh hleft)
  case noSteals => exact fun b => exec_stealTimeout_none
  case steal => exact fun b p l => exec_stealTimeout_oldest
  case noRow => exact fun h => congrArg Host.Outcome.next (State.remapRow_idle h)
  case row => exact fun p row l hq hrow hused hmap hvalid =>
    ⟨_, exec_rowRemapDone, State.remapRow_serves hq hrow hused hmap hvalid⟩
  case copied =>
    intro h
    obtain ⟨hstate, hwords⟩ := State.rd_bankCopied (s := s) (n := n)
    exact ⟨_, congrArg Host.Outcome.next (if_pos h), hstate, hwords, State.bankCopied_regions⟩
  case noCopy => exact fun h => congrArg Host.Outcome.next (if_neg h)

end Sys2Proof.Machine
end

section
/-! PROOFS. Requests of the network at the banks of a region (07 R189, R191, 12 R357, R358, R372). -/

namespace Sys2Proof.Machine

/-! ### The answer of an NI (R356, R363) -/

section
variable (s : State) (i : Nat) (p : Packet)

/-- NI `i` has taken request `p` from where it waited. -/
def State.taken : State := s.modNi i fun n => { n with inbox := n.inbox.erase p }

theorem State.ni_taken : (s.taken i p).ni i = { s.ni i with inbox := (s.ni i).inbox.erase p } := Tbl.get_set_same ..

theorem State.respond_net (st : Nat) (data : List Line) (psn : Nat) :
    ∃ x, s.respond i p st data psn = { s with net := x } := by
  unfold State.respond State.sendBack
  extract_lets
  split
  · exact ⟨s.net, rfl⟩
  · split
    · exact ⟨s.net, rfl⟩
    · exact ⟨_, rfl⟩

theorem State.respond_bankMem (st : Nat) (data : List Line) (psn : Nat) :
    (s.respond i p st data psn).bankMem = s.bankMem := by
  obtain ⟨x, h⟩ := s.respond_net i p st data psn
  rw [h]

theorem State.respond_log (st : Nat) (data : List Line) (psn : Nat) : (s.respond i p st data psn).log = s.log := by
  obtain ⟨x, h⟩ := s.respond_net i p st data psn
  rw [h]

theorem State.rd_respond (st : Nat) (data : List Line) (psn : Nat) (f : Fld) :
    (s.respond i p st data psn).rd f = s.rd f := by
  obtain ⟨x, h⟩ := s.respond_net i p st data psn
  rw [h]; rfl

variable {s i p} {u : State}

/-- `u` is `s` with request `p` taken, once it is served: its network and what answers depend on are as they were. -/
structure State.Served (s u : State) (i : Nat) (p : Packet) : Prop where
  net : u.net = (s.taken i p).net
  epoch : u.epoch = s.epoch
  faulted : ∀ r, u.routerFaulted r = s.routerFaulted r

theorem State.Served.of_regs (hnet : u.net = (s.taken i p).net) (hregs : u.regs = s.regs) : s.Served u i p :=
  ⟨hnet, by simp only [State.epoch, State.flag, State.rd, hregs],
    fun r => by simp only [State.routerFaulted, State.mask64, State.rd, hregs]⟩

theorem State.Served.ni (h : s.Served u i p) : u.ni i = { s.ni i with inbox := (s.ni i).inbox.erase p } := by
  rw [State.ni, h.net]; exact s.ni_taken i p

/-- The request is answered once, with its status and the data of a status that is done (R18, R372). -/
theorem State.Served.replied (h : s.Served u i p) (hroute : s.canReply i p.src = true) (st : Nat) (data : List Line)
    (psn : Nat) : s.Replied (u.respond i p st data psn) i p st (if statusDone st then data else []) := by
  have hat : u.niAt i = s.niAt i := by rw [State.niAt, h.ni, State.niAt]
  simp only [State.canReply, Bool.and_eq_true, Bool.not_eq_true'] at hroute
  obtain ⟨hvalid, hworks⟩ := hroute
  have hqueues : u.net.queues = s.net.queues := by rw [h.net]; rfl
  simp only [State.respond, State.sendBack, h.ni, h.epoch, h.faulted, hat, hvalid, hworks, Bool.not_true,
    Bool.false_eq_true, if_false]
  refine ⟨?_, fun k hk => ?_, ?_⟩
  · exact congrArg Ni.inbox h.ni
  · rw [← hqueues]
    exact Tbl.get_put_other _ _ _ hk.symm
  · refine ⟨_, (Tbl.get_put_same ..).trans (congrArg (· ++ [_]) (congrArg (Tbl.get · [] _) hqueues)), ?_⟩
    split <;> exact ⟨rfl, rfl, rfl, rfl, rfl, rfl⟩

end

/-! ### An open NI serves its oldest request (R372) -/

section
variable {s : State} {i : Nat} {p : Packet}

theorem State.NiOpen.route {j : Nat} (h : s.NiOpen j p) : s.canReply j p.src = true := by
  obtain ⟨-, -, -, -, hroute⟩ := h
  exact hroute

theorem opcBank_le {opc : Nat} (h : (opcBank opc).isSome = true) : opc ≤ 0x0A := by
  unfold opcBank at h
  split at h
  case h_10 => simp at h
  all_goals decide

theorem State.NiOpen.netCmd {f : XmFind} {j : Fin 80} (h : s.NiOpen j p) (hj : j.val < 64)
    (hopc : (opcBank p.opc).isSome = true)
    (hgate : bitsOf p.addr 23 18 < 48 → s.gateOf (unitId j 3 (s.rd (MEM_BANK_OWN_PHYS j (bitsOf p.addr 23 18)))) = 0) :
    s.netCmd p.opc (.serve j f) = (s.taken j p).bankRequest j p := by
  obtain ⟨hactive, hdrain, hopen, hp, -⟩ := h
  have hcode : p.opc ≤ 0x0A := opcBank_le hopc
  have htype : opcType p.opc = 0 := by
    rw [opcType, if_neg (by omega), if_neg (by omega), if_neg (by omega)]
  have haccepts : s.niRefuses j = false := by simp [State.niRefuses, hdrain, hactive]
  have hfree : s.bankGated j p = false := by
    simp only [State.bankGated, Bool.and_eq_false_imp]
    simpa using fun _ => hgate
  have htarget : (s.taken j p).regionRequest j p = (s.taken j p).bankRequest j p := by
    unfold State.regionRequest; split
    · omega
    · omega
    · rfl
  rw [State.netCmd, hp]
  dsimp only
  rw [htype, if_neg (by decide), State.serveRequest, if_pos hj, if_neg (by simp [haccepts]), if_neg (by simp [hopen]),
    if_neg (by simp [hactive]), if_neg (by simp [hfree])]
  exact htarget

end

/-! ### The words of a request (R358) -/

section
variable {s : State} {n q b : Nat} {p : Packet}

theorem worse_ok : worse 0 0 = 0 := rfl

/-- A read of valid words answers each and changes nothing. -/
theorem State.bankWords_read {w : Nat} (hb : b < 48) (hphys : s.rd (MEM_BANK_OWN_PHYS n b) = q) (hq : q < 50)
    (l : List Nat) (hvalid : ∀ i ∈ l, s.bankSyn.get 0 (s.bankAt n q (w + i)) = 0) :
    s.bankWords n b .read p w l = (0, l.map fun i => s.lineAt (s.bankAt n q (w + i)), 0, s) := by
  induction l with
  | nil => rfl
  | cons i l ih =>
    rw [State.bankWords, State.bankAccess_phys _ _ _ hb hphys hq, State.physAccess_read _ _ (hvalid i (by simp))]
    dsimp only
    rw [ih fun i hi => hvalid i (by simp [hi])]
    simp [worse_ok, b2n]

/-- Words `d` of `l` stored from word `w` of physical bank `q` on, one after the other. -/
def State.storeWords (s : State) (n q w : Nat) (d : Nat → Line) (l : List Nat) : State :=
  l.foldl (fun s i => s.storeWord n q (w + i) (d i)) s

/-- A write of whole words stores each. -/
theorem State.bankWords_write {w : Nat} (hb : b < 48) (hphys : s.rd (MEM_BANK_OWN_PHYS n b) = q) (hq : q < 50)
    (hplain : s.PlainBanks n) (hpsn : p.psn = 0) (hopc : p.opc ≠ 0x05) (l : List Nat) :
    s.bankWords n b .write p w l =
      (0, l.map fun _ => 0#128, 0, s.storeWords n q w (fun i => p.data.getD i 0#128) l) := by
  have hok (i : Nat) : bitOf p.psn i = false := by simp [hpsn, bitOf]
  induction l generalizing s with
  | nil => rfl
  | cons i l ih =>
    rw [State.bankWords, State.bankAccess_phys _ _ _ hb hphys hq, hok, if_pos ⟨rfl, hopc⟩, hplain.physAccess_write]
    dsimp only
    rw [ih (s := s.storeWord n q (w + i) (p.data.getD i 0#128)) hphys hplain.storeWord]
    simp [worse_ok, b2n, State.storeWords]

/-- A request of one word is one access of the physical bank. -/
theorem State.bankWords_one {w mask : Nat} {op : BankOp} {x : Line} {u : State} (hb : b < 48)
    (hphys : s.rd (MEM_BANK_OWN_PHYS n b) = q) (hq : q < 50)
    (hmask : (if op = .write ∧ p.opc ≠ 0x05 then 0xFFFF else p.be) = mask)
    (hacc : s.physAccess n q op w mask (p.data.getD 0 0#128) (bitOf p.psn 0) = (⟨0, x, false⟩, u)) :
    s.bankWords n b op p w (List.range 1) = (0, [x], 0, u) := by
  rw [List.range_one, State.bankWords, State.bankAccess_phys _ _ _ hb hphys hq, hmask, Nat.add_zero, hacc]
  simp [State.bankWords, worse_ok, b2n]

/-! What words that are stored one after the other leave. -/

variable (s n q) (w : Nat) (d : Nat → Line)

theorem State.storeWords_succ (k : Nat) : s.storeWords n q w d (List.range (k + 1)) =
    (s.storeWords n q w d (List.range k)).storeWord n q (w + k) (d k) := by
  simp [State.storeWords, List.range_succ]

theorem State.storeWords_frame (k : Nat) : let t := s.storeWords n q w d (List.range k)
    t.net = s.net ∧ t.regs = s.regs ∧ ∀ v, t.bankAt n q v = s.bankAt n q v := by
  induction k with
  | zero => exact ⟨rfl, rfl, fun _ => rfl⟩
  | succ k ih =>
    obtain ⟨hnet, hregs, hat⟩ := ih
    rw [State.storeWords_succ]
    refine ⟨hnet, hregs, fun v => ?_⟩
    rw [State.bankAt_storeWord, hat]

theorem State.readByte_storeWords_other {k y : Nat}
    (h : ∀ j < k, y < s.bankAt n q (w + j) * 16 ∨ s.bankAt n q (w + j) * 16 + 16 ≤ y) :
    (s.storeWords n q w d (List.range k)).bankMem.readByte y = s.bankMem.readByte y := by
  induction k with
  | zero => rfl
  | succ k ih =>
    obtain ⟨-, -, hat⟩ := s.storeWords_frame n q w d k
    rw [State.storeWords_succ, State.readByte_storeWord_other _ _ _ _ _ (by rw [hat]; exact h k (by omega)),
      ih fun j hj => h j (by omega)]

/-- Words at addresses of their own all stand as they were written. -/
theorem State.lineAt_storeWords {k : Nat}
    (hinj : ∀ i < k, ∀ j < k, s.bankAt n q (w + i) = s.bankAt n q (w + j) → i = j) {j : Nat} (hj : j < k) :
    (s.storeWords n q w d (List.range k)).lineAt (s.bankAt n q (w + j)) = d j := by
  induction k with
  | zero => omega
  | succ k ih =>
    obtain ⟨-, -, hat⟩ := s.storeWords_frame n q w d k
    rw [State.storeWords_succ, ← hat]
    rcases Nat.lt_succ_iff_lt_or_eq.mp hj with h | rfl
    · have hne : s.bankAt n q (w + k) ≠ s.bankAt n q (w + j) := fun e => by
        have := hinj k (by omega) j (by omega) e; omega
      rw [State.lineAt_storeWord_other _ _ _ _ _ (by rw [hat, hat]; exact hne), hat]
      exact ih (fun i hi j hj => hinj i (by omega) j (by omega)) h
    · exact State.lineAt_storeWord_same ..

end

/-! ### What a bank request comes to (R189, R191, R358) -/

section
variable {s : State} {n q k : Nat} {p : Packet} {op : BankOp}

theorem State.bankServe_words {st : Nat} {ds : List Line} {ps : Nat} {u : State} (hopc : opcBank p.opc = some (op, k))
    (hw : s.bankWords n (bitsOf p.addr 23 18) op p (bitsOf p.addr 17 4) (List.range k) = (st, ds, ps, u)) :
    s.bankServe n p = u.respond n p st (if op = .write then [] else ds) (if op = .write then 0 else ps) := by
  rw [State.bankServe, hopc]
  dsimp only
  rw [hw]

theorem State.NetBank.bankRequest (h : s.NetBank n q k p) (hopc : opcBank p.opc = some (op, k)) :
    s.bankRequest n p = s.bankServe n p := by
  obtain ⟨haddr, hword, hb, hw, howns, hbusy, -⟩ := h
  rw [State.bankRequest, hopc]
  dsimp only
  rw [if_neg (by omega), if_pos howns, if_neg (by simp [State.flag, hbusy])]

theorem State.bankRequest_decode (hopc : opcBank p.opc = some (op, k))
    (h : 2 ^ 24 ≤ p.addr ∨ p.addr % 16 ≠ 0 ∨ 48 ≤ bitsOf p.addr 23 18) : s.bankRequest n p = s.respond n p 4 [] 0 := by
  rw [State.bankRequest, hopc]
  dsimp only
  rw [if_pos (by omega)]

theorem State.bankRequest_owner (hopc : opcBank p.opc = some (op, 1)) (haddr : p.addr < 2 ^ 24)
    (hword : p.addr % 16 = 0) (hb : bitsOf p.addr 23 18 < 48) (howns : s.netOwns n (bitsOf p.addr 23 18) p.src = false)
    (hsteal : s.rd (MEM_BANK_OWN_STEAL n (bitsOf p.addr 23 18)) = 0) :
    s.bankRequest n p = (s.answerOwner n).respond n p 5 [] 0 := by
  have hw : bitsOf p.addr 17 4 < 2 ^ 14 := Nat.mod_lt _ (by decide)
  rw [State.bankRequest, hopc]
  dsimp only
  rw [if_neg (by omega), if_neg (by simp [howns]), if_neg (by simp [State.flag, hsteal])]

end

/-! ### Requests that are served -/

section
variable (s : State) (i : Nat) (p : Packet)

theorem State.taken_bankMem : (s.taken i p).bankMem = s.bankMem := rfl
theorem State.bankAt_taken (n q v : Nat) : (s.taken i p).bankAt n q v = s.bankAt n q v := rfl
theorem State.bankSyn_taken : (s.taken i p).bankSyn = s.bankSyn := rfl

theorem State.lineAt_taken (a : Nat) : (s.taken i p).lineAt a = s.lineAt a :=
  State.lineAt_of_bankMem (s.taken_bankMem i p) a

variable {s i p}

theorem State.PlainBanks.taken {n : Nat} (h : s.PlainBanks n) : (s.taken i p).PlainBanks n := ⟨h.inj, h.copy⟩

theorem State.NetBank.taken {n q k : Nat} (h : s.NetBank n q k p) : (s.taken i p).NetBank n q k p := h

theorem State.NetBank.plain {n q k : Nat} (h : s.NetBank n q k p) : s.PlainBanks n := by
  obtain ⟨-, -, -, -, -, -, -, -, -, hinj, hcopy, -⟩ := h
  exact ⟨hinj, hcopy⟩

theorem State.NetBank.valid {n q k : Nat} (h : s.NetBank n q k p) {v : Nat} (hv : v < k) :
    s.bankSyn.get 0 (s.bankAt n q (bitsOf p.addr 17 4 + v)) = 0 := by
  obtain ⟨-, -, -, -, -, -, -, -, -, -, -, hvalid, -⟩ := h
  exact hvalid v hv

end

section
variable {s : State} {j : Fin 80} {f : XmFind} {c : Instr} {q k : Nat} {p : Packet} {op : BankOp}

/-- The request is carried out word by word, and the NI answers it. -/
theorem State.NetBank.serves {ds : List Line} {u : State} (h : s.NetBank j q k p) (hopen : s.NiOpen j p)
    (hj : j.val < 64) (hopc : opcBank p.opc = some (op, k))
    (hexec : exec c s = .next (s.netCmd p.opc (.serve j f)))
    (hw : (s.taken j p).bankWords j (bitsOf p.addr 23 18) op p (bitsOf p.addr 17 4) (List.range k) = (0, ds, 0, u)) :
    exec c s = .next (u.respond j p 0 (if op = .write then [] else ds) 0) := by
  have hserve : (s.taken j p).bankRequest j p = u.respond j p 0 (if op = .write then [] else ds) 0 := by
    rw [h.taken.bankRequest hopc, State.bankServe_words hopc hw, ite_self]
  obtain ⟨-, -, -, -, -, -, hphys, -, hgate, -⟩ := h
  rw [hexec, hopen.netCmd hj (by simp [hopc]) fun _ => by rw [hphys]; exact hgate, hserve]

/-- READ1, READ4 and READ16 answer the words and change nothing (R357). -/
theorem State.NetBank.gives_read (h : s.NetBank j q k p) (hopen : s.NiOpen j p) (hj : j.val < 64)
    (hopc : opcBank p.opc = some (.read, k)) (hexec : exec c s = .next (s.netCmd p.opc (.serve j f))) :
    Gives c s fun t =>
      s.Replied t j p 0 ((List.range k).map fun v => s.lineAt (s.bankAt j q (bitsOf p.addr 17 4 + v))) ∧
        t.bankMem = s.bankMem := by
  have hbank := h
  obtain ⟨-, -, hb, -, -, -, hphys, hq, -⟩ := hbank
  have hw := State.bankWords_read (s := s.taken j p) (p := p) (w := bitsOf p.addr 17 4) hb hphys hq (List.range k)
    fun v hv => by
      rw [State.bankSyn_taken, State.bankAt_taken]; exact h.valid (List.mem_range.mp hv)
  simp only [State.lineAt_taken, State.bankAt_taken] at hw
  exact ⟨_, h.serves hopen hj hopc hexec hw, (State.Served.of_regs rfl rfl).replied hopen.route ..,
    State.respond_bankMem ..⟩

/-- WRITE4 and WRITE16 store each word (R357). -/
theorem State.NetBank.gives_write (h : s.NetBank j q k p) (hopen : s.NiOpen j p) (hj : j.val < 64)
    (hopc : opcBank p.opc = some (.write, k)) (hpsn : p.psn = 0) (hne : p.opc ≠ 0x05)
    (hexec : exec c s = .next (s.netCmd p.opc (.serve j f))) :
    Gives c s fun t => s.Replied t j p 0 [] ∧
      (∀ y, (∀ v < k, y < s.bankAt j q (bitsOf p.addr 17 4 + v) * 16 ∨
          s.bankAt j q (bitsOf p.addr 17 4 + v) * 16 + 16 ≤ y) →
        t.bankMem.readByte y = s.bankMem.readByte y) ∧
      ∀ v < k, t.lineAt (s.bankAt j q (bitsOf p.addr 17 4 + v)) = p.data.getD v 0#128 := by
  have hbank := h
  obtain ⟨-, -, hb, -, -, -, hphys, hq, -, -, -, -, hinj⟩ := hbank
  have hw := State.bankWords_write (s := s.taken j p) (w := bitsOf p.addr 17 4) hb hphys hq h.plain.taken hpsn hne
    (List.range k)
  obtain ⟨hnet, hregs, -⟩ := (s.taken j p).storeWords_frame j q (bitsOf p.addr 17 4) (fun v => p.data.getD v 0#128) k
  refine ⟨_, h.serves hopen hj hopc hexec hw, (State.Served.of_regs hnet hregs).replied hopen.route .., fun y hy => ?_,
    fun v hv => ?_⟩
  · rw [State.respond_bankMem, (s.taken j p).readByte_storeWords_other _ _ _ _ hy, State.taken_bankMem]
  · rw [State.lineAt_of_bankMem (State.respond_bankMem ..)]
    exact (s.taken j p).lineAt_storeWords j q _ (fun v => p.data.getD v 0#128) hinj hv

/-- A request that stores one word. -/
theorem State.NetBank.gives_store {x e : Line} {mask : Nat} (h : s.NetBank j q 1 p) (hopen : s.NiOpen j p)
    (hj : j.val < 64) (hopc : opcBank p.opc = some (op, 1)) (hexec : exec c s = .next (s.netCmd p.opc (.serve j f)))
    (hmask : (if op = .write ∧ p.opc ≠ 0x05 then 0xFFFF else p.be) = mask) (hpsn : p.psn = 0)
    (hacc : (s.taken j p).physAccess j q op (bitsOf p.addr 17 4) mask (p.data.getD 0 0#128) false =
      (⟨0, x, false⟩, (s.taken j p).storeWord j q (bitsOf p.addr 17 4) e)) :
    Gives c s fun t => s.Replied t j p 0 (if op = .write then [] else [x]) ∧
      (∀ y, (∀ v < 1, y < s.bankAt j q (bitsOf p.addr 17 4 + v) * 16 ∨
          s.bankAt j q (bitsOf p.addr 17 4 + v) * 16 + 16 ≤ y) →
        t.bankMem.readByte y = s.bankMem.readByte y) ∧
      t.lineAt (s.bankAt j q (bitsOf p.addr 17 4)) = e := by
  have hbank := h
  obtain ⟨-, -, hb, -, -, -, hphys, hq, -⟩ := hbank
  have hok : bitOf p.psn 0 = false := by simp [hpsn, bitOf]
  have hw := State.bankWords_one (s := s.taken j p) hb hphys hq hmask (by rw [hok]; exact hacc)
  have hserved : s.Served ((s.taken j p).storeWord j q (bitsOf p.addr 17 4) e) j p := .of_regs rfl rfl
  refine ⟨_, h.serves hopen hj hopc hexec hw, hserved.replied hopen.route .., fun y hy => ?_, ?_⟩
  · have hout := hy 0 Nat.one_pos
    rw [Nat.add_zero] at hout
    rw [State.respond_bankMem, (s.taken j p).readByte_storeWord_other _ _ _ _ hout, State.taken_bankMem]
  · rw [State.lineAt_of_bankMem (State.respond_bankMem ..)]
    exact State.lineAt_storeWord_same ..

/-! ### Requests that are refused (R189, R191) -/

theorem State.answerOwner_served (n : Nat) : s.Served ((s.taken n p).answerOwner n) n p := by
  have hrd {g : Fld} (hg : g.key < 0x1000000 * 32) : ((s.taken n p).answerOwner n).rd g = s.rd g := by
    rw [State.answerOwner, State.bump_eq, State.rd_wr_other, State.raise_eq, State.rd_wr_other]
    · rfl
    all_goals
      refine Nat.ne_of_gt (Nat.lt_of_lt_of_le hg ?_)
      simp only [Fld.key, MEM_STATUS_OWNERRSP, MEM_CNT_OWNER_COUNT]; omega
  exact ⟨rfl, by simp only [State.epoch, State.flag, hrd (g := NOC_STATUS_EPOCH) (by decide)],
    fun r => by
      simp only [State.routerFaulted, State.mask64, hrd (g := NOC_RFAULT_LO_MASK) (by decide),
        hrd (g := NOC_RFAULT_HI_MASK) (by decide)]⟩

theorem State.rd_answerOwner (n : Nat) : (s.answerOwner n).rd (MEM_STATUS_OWNERRSP n) = 1 := by
  rw [State.answerOwner, State.bump_eq, State.rd_wr_other, State.rd_raise]
  · simp [Fld.width, MEM_STATUS_OWNERRSP]
  · simp only [Fld.key, MEM_STATUS_OWNERRSP, MEM_CNT_OWNER_COUNT]; omega

theorem State.NiOpen.gives_decode (hopen : s.NiOpen j p) (hj : j.val < 64) (hopc : opcBank p.opc = some (op, k))
    (hgate : s.gateOf (unitId j 3 (s.rd (MEM_BANK_OWN_PHYS j (bitsOf p.addr 23 18)))) = 0)
    (hexec : exec c s = .next (s.netCmd p.opc (.serve j f)))
    (h : 2 ^ 24 ≤ p.addr ∨ p.addr % 16 ≠ 0 ∨ 48 ≤ bitsOf p.addr 23 18) :
    Gives c s fun t => s.Replied t j p 4 [] ∧ t.bankMem = s.bankMem ∧ t.log = s.log := by
  have ht := (hopen.netCmd (f := f) hj (by simp [hopc]) fun _ => hgate).trans (State.bankRequest_decode hopc h)
  exact ⟨_, hexec.trans (congrArg _ ht), (State.Served.of_regs rfl rfl).replied hopen.route ..,
    State.respond_bankMem ..,
    State.respond_log ..⟩

theorem State.NiOpen.gives_owner (hopen : s.NiOpen j p) (hj : j.val < 64) (hopc : opcBank p.opc = some (op, 1))
    (hgate : s.gateOf (unitId j 3 (s.rd (MEM_BANK_OWN_PHYS j (bitsOf p.addr 23 18)))) = 0)
    (hexec : exec c s = .next (s.netCmd p.opc (.serve j f))) (haddr : p.addr < 2 ^ 24) (hword : p.addr % 16 = 0)
    (hb : bitsOf p.addr 23 18 < 48) (howns : s.netOwns j (bitsOf p.addr 23 18) p.src = false)
    (hsteal : s.rd (MEM_BANK_OWN_STEAL j (bitsOf p.addr 23 18)) = 0) :
    Gives c s fun t => s.Replied t j p 5 [] ∧ t.bankMem = s.bankMem ∧ t.rd (MEM_STATUS_OWNERRSP j) = 1 := by
  have ht := (hopen.netCmd (f := f) hj (by simp [hopc]) fun _ => hgate).trans
    (State.bankRequest_owner hopc haddr hword hb howns hsteal)
  refine ⟨_, hexec.trans (congrArg _ ht), (State.answerOwner_served _).replied hopen.route ..,
    State.respond_bankMem .., ?_⟩
  rw [State.rd_respond, State.rd_answerOwner]

end

/-- Settles O44: a request of the network is the accesses of its words and one answer, or a refusal. -/
theorem bankRequestsOfTheNetwork : Obligations.BankRequestsOfTheNetwork := by
  intro s i f p hi hopen
  dsimp only
  refine ⟨?read1, ?read4, ?read16, fun hpsn => ⟨?write1, ?write4, ?write16, ?add32, ?long⟩, ?refused⟩
  case read1 => exact fun hopc h => h.gives_read (f := f) hopen hi (by rw [hopc]; rfl) (by rw [hopc]; rfl)
  case read4 => exact fun hopc h => h.gives_read (f := f) hopen hi (by rw [hopc]; rfl) (by rw [hopc]; rfl)
  case read16 => exact fun hopc h => h.gives_read (f := f) hopen hi (by rw [hopc]; rfl) (by rw [hopc]; rfl)
  case write1 =>
    intro hopc h
    have hvalid := h.valid Nat.one_pos
    obtain ⟨t, ht, hreplied, hkept, hline⟩ := h.gives_store (f := f) (op := .write) (c := .write1 (.serve i f)) hopen hi
      (by rw [hopc]; rfl) (by rw [hopc]; rfl) (by simp [hopc]) hpsn (h.plain.taken.physAccess_masked p.be hvalid)
    refine ⟨t, ht, hreplied, hkept, fun v hv => ?_⟩
    rw [Nat.add_zero, ← t.lineByte_lineAt _ hv, hline, lineByte_mergeLine _ _ _ hv, State.bankAt_taken,
      State.lineAt_taken, State.lineByte_lineAt _ _ hv, lineByte]
  case write4 =>
    exact fun hopc h => h.gives_write (f := f) hopen hi (by rw [hopc]; rfl) hpsn (by simp [hopc]) (by rw [hopc]; rfl)
  case write16 =>
    exact fun hopc h => h.gives_write (f := f) hopen hi (by rw [hopc]; rfl) hpsn (by simp [hopc]) (by rw [hopc]; rfl)
  case add32 =>
    intro l hl hopc hbe h
    exact h.gives_store (f := f) (op := .add32) hopen hi (by rw [hopc]; rfl) (by rw [hopc]; rfl) hbe hpsn
      (h.plain.taken.physAccess_add32 hl (h.valid Nat.one_pos))
  case long =>
    intro l hl hbe h
    refine ⟨fun hopc => ?_, fun hopc => ?_⟩
    · exact h.gives_store (f := f) (op := .add64) hopen hi (by rw [hopc]; rfl) (by rw [hopc]; rfl) hbe hpsn
        (h.plain.taken.physAccess_add64 hl (h.valid Nat.one_pos))
    · exact h.gives_store (f := f) (op := .swap64) hopen hi (by rw [hopc]; rfl) (by rw [hopc]; rfl) hbe hpsn
        (h.plain.taken.physAccess_swap64 hl (h.valid Nat.one_pos))
  case refused =>
    intro hopc hgate
    have hread : opcBank p.opc = some (.read, 1) := by rw [hopc]; rfl
    have hexec : exec (.read1 (.serve i f)) s = .next (s.netCmd p.opc (.serve i f)) := by rw [hopc]; rfl
    exact ⟨hopen.gives_decode hi hread hgate hexec, hopen.gives_owner hi hread hgate hexec⟩

end Sys2Proof.Machine
end

section
/-! PROOFS. What a trace record leaves (10 R308, R313, R314; 11 R345, R346), and what reading a table gives after it is
filtered, joined or mapped. -/

namespace Sys2Proof.Machine

/-! ### Tables that are filtered, joined or mapped -/

section
variable {α : Type}

theorem Tbl.get_filter_key (t : Tbl α) (d : α) (q : Nat → Bool) (k : Nat) :
    Tbl.get (t.filter fun x => q x.1) d k = if q k then t.get d k else d := by
  induction t with
  | nil => simp
  | cons x t ih =>
    obtain ⟨i, v⟩ := x
    rw [List.filter_cons]
    by_cases hik : i = k
    · subst hik; cases hq : q i <;> simp [Tbl.get, ih, hq]
    · cases hq : q i <;> simp [Tbl.get, ih, hik]

/-- The first table answers for a key that the second does not list. -/
theorem Tbl.get_append_left (t u : Tbl α) (d : α) {k : Nat} (h : ∀ x ∈ u, x.1 ≠ k) :
    Tbl.get (t ++ u) d k = t.get d k := by
  induction t with
  | nil =>
    induction u with
    | nil => rfl
    | cons x u ih =>
      obtain ⟨hx, hu⟩ := List.forall_mem_cons.mp h
      exact (if_neg hx).trans (ih hu)
  | cons x t ih => exact congrArg (ite (x.1 = k) x.2) ih

/-- The second table answers for a key that the first does not list. -/
theorem Tbl.get_append_right (t u : Tbl α) (d : α) {k : Nat} (h : ∀ x ∈ t, x.1 ≠ k) :
    Tbl.get (t ++ u) d k = u.get d k := by
  induction t with
  | nil => rfl
  | cons x t ih =>
    obtain ⟨hx, ht⟩ := List.forall_mem_cons.mp h
    exact (if_neg hx).trans (ih ht)

theorem Tbl.get_map (t : Tbl α) {d : α} {f : α → α} (hf : f d = d) (k : Nat) :
    Tbl.get (t.map fun x => (x.1, f x.2)) d k = f (t.get d k) := by
  induction t with
  | nil => exact hf.symm
  | cons x t ih => rw [List.map_cons, Tbl.get, Tbl.get, ih, apply_ite f]

/-- The lower keys of one table and the upper keys of another. -/
theorem Tbl.get_join (t u : Tbl α) (d : α) (b k : Nat) :
    Tbl.get ((t.filter fun x => decide (x.1 < b)) ++ u.filter fun x => decide (b ≤ x.1)) d k =
      if k < b then t.get d k else u.get d k := by
  by_cases hk : k < b
  · rw [Tbl.get_append_left, t.get_filter_key d (fun i => decide (i < b)), if_pos (decide_eq_true hk), if_pos hk]
    intro x hx
    have := of_decide_eq_true (List.mem_filter.mp hx).2
    omega
  · rw [Tbl.get_append_right, u.get_filter_key d (fun i => decide (b ≤ i)), if_pos (by simpa using hk), if_neg hk]
    intro x hx
    have := of_decide_eq_true (List.mem_filter.mp hx).2
    omega

end

/-! ### Records of the trace and of the log -/

/-- The registers that count records and the requests that carry them: LOG_STATUS, TRC_STATUS, NI 79's counts. -/
def recordKeys : List Nat :=
  [SYS_LOG_STATUS_LOST, TRC_STATUS_HEAD, TRC_STATUS_LOST, niFld NI_CNT_LOCAL_LOCAL 79,
    niFld NI_CNT_REQ_COUNT 79].map Fld.key

/-- `t` is `s` but for records of the trace and of the log, and the requests that send them. -/
structure Recorded (s t : State) : Prop where
  eq : t = { s with log := t.log, sched := t.sched, net := t.net, regs := t.regs }
  flip : t.net.flip = s.net.flip
  routes : ∀ i, (t.ni i).routes = (s.ni i).routes
  rd : ∀ f : Fld, f.key ∉ recordKeys → t.rd f = s.rd f

section
variable {s t u : State}

theorem Recorded.refl (s : State) : Recorded s s := ⟨rfl, rfl, fun _ => rfl, fun _ _ => rfl⟩

theorem Recorded.trans (h : Recorded s t) (g : Recorded t u) : Recorded s u :=
  ⟨by rw [g.eq, h.eq], g.flip.trans h.flip, fun i => (g.routes i).trans (h.routes i),
    fun f hf => (g.rd f hf).trans (h.rd f hf)⟩

theorem Recorded.cyc (h : Recorded s t) : t.cyc = s.cyc := by rw [h.eq]
theorem Recorded.evt (h : Recorded s t) : t.evt = s.evt := by rw [h.eq]
theorem Recorded.regions (h : Recorded s t) : t.regions = s.regions := by rw [h.eq]
theorem Recorded.plc (h : Recorded s t) : t.plc = s.plc := by rw [h.eq]
theorem Recorded.bankMem (h : Recorded s t) : t.bankMem = s.bankMem := by rw [h.eq]

theorem State.sch_congr (h : t.regions = s.regions) (n : Nat) : t.sch n = s.sch n := by
  rw [State.sch, State.region, h, State.sch, State.region]

theorem Recorded.sch (h : Recorded s t) (n : Nat) : t.sch n = s.sch n := State.sch_congr h.regions n

theorem Recorded.engAt (h : Recorded s t) (n e : Nat) : t.engAt n e = s.engAt n e := by
  rw [State.engAt, State.region, h.regions, State.engAt, State.region]

theorem Recorded.of_logOnly (h : LogOnly s t) : Recorded s t := by
  have hnet := h.net
  refine ⟨by rw [h.eq], by rw [hnet], fun i => by rw [State.ni, hnet, State.ni], fun f hf => h.rd f fun e => hf ?_⟩
  exact e ▸ List.mem_cons_self

theorem Recorded.wr (s : State) {f : Fld} (v : Nat) (hf : f.key ∈ recordKeys) : Recorded s (s.wr f v) :=
  ⟨rfl, rfl, fun _ => rfl, fun g hg => s.rd_wr_other f g v fun e => hg (e ▸ hf)⟩

theorem Recorded.sched (s : State) (c : SchedChip) : Recorded s { s with sched := c } :=
  ⟨rfl, rfl, fun _ => rfl, fun _ _ => rfl⟩

theorem State.ni_modNi (s : State) (i j : Nat) (f : Ni → Ni) :
    (s.modNi i f).ni j = if i = j then f (s.ni i) else s.ni j := Tbl.get_set ..

theorem Recorded.modNi (s : State) (i : Nat) {f : Ni → Ni} (hf : ∀ x, (f x).routes = x.routes) :
    Recorded s (s.modNi i f) := by
  refine ⟨rfl, rfl, fun j => ?_, fun _ _ => rfl⟩
  rw [State.ni_modNi]
  split
  · next h => rw [hf, h]
  · rfl

theorem Recorded.inject (s : State) (i : Nat) {p : Packet} (hp : p.typ ≠ 2) : Recorded s (s.inject i p) := by
  unfold State.inject
  extract_lets r
  rw [if_neg hp]
  split
  · exact .refl s
  · exact ⟨rfl, rfl, fun _ => rfl, fun _ _ => rfl⟩

/-- NI 79's request for the trace ring waits, is answered by the NI itself, or leaves. -/
theorem Recorded.netRequest (s : State) {a : NetAsk} (ha : opcType a.pkt.opc ≠ 2) :
    Recorded s (s.netRequest 79 a) := by
  unfold State.netRequest
  extract_lets n
  split
  · exact .modNi s 79 fun _ => rfl
  · split
    · exact (Recorded.wr s _ (by decide)).trans (.modNi _ 79 fun _ => rfl)
    · split
      · exact .modNi s 79 fun _ => rfl
      · extract_lets s1
        have hcount : Recorded s s1 :=
          .trans (.wr s _ (f := niFld NI_CNT_REQ_COUNT 79) (by decide)) (.modNi _ 79 fun _ => rfl)
        exact hcount.trans (.inject s1 79 ha)

theorem Recorded.streamPump (s : State) (flush : Bool) : Recorded s (s.streamPump flush) := by
  unfold State.streamPump
  extract_lets t wp size
  split
  · exact .refl s
  · split
    · exact (Recorded.sched s _).trans (.netRequest _ (show opcType 0x06 ≠ 2 by decide))
    · exact .refl s

theorem Recorded.tracePut (s : State) (r : Line) : Recorded s (s.tracePut r) := by
  unfold State.tracePut
  split
  · exact (Recorded.sched s _).trans (.wr _ _ (f := TRC_STATUS_HEAD) (by decide))
  · split
    · exact .wr s _ (by decide)
    · exact (Recorded.sched s _).trans (.streamPump _ _)
  · exact .refl s

theorem Recorded.plcRec (s : State) (id arg reason aux : Nat) : Recorded s (s.plcRec id arg reason aux) :=
  .tracePut s _

theorem Recorded.logEv (s : State) (c k st d p : Nat) : Recorded s (s.logEv c k st d p) :=
  .of_logOnly (s.logEv_only ..)

theorem Recorded.foldl {α : Type} {g : State → α → State} (hg : ∀ t x, Recorded t (g t x)) (l : List α)
    (s : State) : Recorded s (l.foldl g s) := by
  induction l generalizing s with
  | nil => exact .refl s
  | cons x l ih => exact (hg s x).trans (ih _)

end

end Sys2Proof.Machine
end

section
/-! PROOFS. The route pass writes only the inactive bank of routes (11 R339; 12 R375, R376, R380 to R382). -/

namespace Sys2Proof.Machine

/-! ### What stands while routes are copied and written -/

/-- From `s` to `t` epoch, regions, banks and placement stand, and in every NI the active bank of routes. -/
structure RoutesStand (s t : State) : Prop where
  epoch : t.epoch = s.epoch
  regions : t.regions = s.regions
  bankMem : t.bankMem = s.bankMem
  plc : t.plc = s.plc
  routes : ∀ i, ∀ k < 256,
    (t.ni i).routes.get 0 (b2n s.epoch * 256 + k) = (s.ni i).routes.get 0 (b2n s.epoch * 256 + k)

/-- The same while a flip that waits stands too. -/
structure RouteStep (s t : State) : Prop extends RoutesStand s t where
  flip : t.net.flip = s.net.flip

section
variable {s t u : State}

theorem RoutesStand.refl (s : State) : RoutesStand s s := ⟨rfl, rfl, rfl, rfl, fun _ _ _ => rfl⟩

theorem RoutesStand.trans (h : RoutesStand s t) (g : RoutesStand t u) : RoutesStand s u := by
  refine ⟨g.epoch.trans h.epoch, g.regions.trans h.regions, g.bankMem.trans h.bankMem, g.plc.trans h.plc,
    fun i k hk => ?_⟩
  have hg := g.routes i k hk
  rw [h.epoch] at hg
  exact hg.trans (h.routes i k hk)

theorem RoutesStand.modFlip (s : State) (f : Option Flip → Option Flip) :
    RoutesStand s (s.modNet fun t => { t with flip := f t.flip }) := ⟨rfl, rfl, rfl, rfl, fun _ _ _ => rfl⟩

theorem RouteStep.refl (s : State) : RouteStep s s := ⟨.refl s, rfl⟩

theorem RouteStep.trans (h : RouteStep s t) (g : RouteStep t u) : RouteStep s u :=
  ⟨h.toRoutesStand.trans g.toRoutesStand, g.flip.trans h.flip⟩

theorem RouteStep.of_recorded (h : Recorded s t) : RouteStep s t := by
  refine ⟨⟨?_, h.regions, h.bankMem, h.plc, fun i k _ => by rw [h.routes i]⟩, h.flip⟩
  rw [State.epoch, State.flag, h.rd _ (by decide), State.epoch, State.flag]

theorem RouteStep.wr (s : State) {f : Fld} (v : Nat) (hf : f.key ≠ NOC_STATUS_EPOCH.key) :
    RouteStep s (s.wr f v) := by
  refine ⟨⟨?_, rfl, rfl, rfl, fun _ _ _ => rfl⟩, rfl⟩
  rw [State.epoch, State.flag, s.rd_wr_other _ _ _ hf, State.epoch, State.flag]

theorem RouteStep.logEv (s : State) (c k st d p : Nat) : RouteStep s (s.logEv c k st d p) :=
  .of_recorded (.logEv ..)

theorem RouteStep.modNi (s : State) (i : Nat) {f : Ni → Ni} (hf : ∀ x, ∀ k < 256,
    (f x).routes.get 0 (b2n s.epoch * 256 + k) = x.routes.get 0 (b2n s.epoch * 256 + k)) :
    RouteStep s (s.modNi i f) := by
  refine ⟨⟨rfl, rfl, rfl, rfl, fun j k hk => ?_⟩, rfl⟩
  rw [State.ni_modNi]
  split
  · next h => rw [hf _ k hk, h]
  · rfl

theorem RouteStep.foldl {α : Type} {g : State → α → State} (hg : ∀ t x, RouteStep t (g t x)) (l : List α)
    (s : State) : RouteStep s (l.foldl g s) := by
  induction l generalizing s with
  | nil => exact .refl s
  | cons x l ih => exact (hg s x).trans (ih _)

/-! ### The copy of the active bank (R375) -/

/-- The active bank is listed as it was; what is listed beside it has the keys of the other bank. -/
theorem Ni.copyBank_routes (n : Ni) (b : Bool) {k : Nat} (hk : k < 256) :
    (n.copyBank (b2n b)).routes.get 0 (b2n b * 256 + k) = n.routes.get 0 (b2n b * 256 + k) := by
  have hact : Tbl.get (n.routes.filter fun x => x.1 / 256 == b2n b) 0 (b2n b * 256 + k) =
      n.routes.get 0 (b2n b * 256 + k) := by
    rw [n.routes.get_filter_key 0 (fun i => i / 256 == b2n b), if_pos]
    rw [beq_iff_eq]; omega
  have hnew : ∀ x ∈ (n.routes.filter fun x => x.1 / 256 == b2n b).map fun x =>
      ((1 - b2n b) * 256 + x.1 % 256, x.2), x.1 ≠ b2n b * 256 + k := by
    intro x hx
    obtain ⟨y, -, rfl⟩ := List.mem_map.mp hx
    cases b <;> simp only [b2n] <;> omega
  cases b with
  | false => exact (Tbl.get_append_left _ _ 0 hnew).trans hact
  | true => exact (Tbl.get_append_right _ _ 0 hnew).trans hact

theorem State.startFlip_stand (s : State) (marking writing : Bool) : RoutesStand s (s.startFlip marking writing) := by
  refine ⟨(RouteStep.wr s 1 (f := NOC_STATUS_FLIPPEND) (by decide)).epoch, rfl, rfl, rfl, fun i k hk => ?_⟩
  have hni : (s.startFlip marking writing).ni i = (s.ni i).copyBank (b2n s.epoch) :=
    Tbl.get_map s.net.nis (f := fun x => x.copyBank (b2n s.epoch)) (by cases s.epoch <;> rfl) i
  rw [hni, Ni.copyBank_routes _ _ hk]

/-! ### Links taken out before the pass (R380, R381) -/

theorem State.setMask64_step (s : State) {lo hi : Fld} (n : Nat) (v : Bool) (hlo : lo.key ≠ NOC_STATUS_EPOCH.key)
    (hhi : hi.key ≠ NOC_STATUS_EPOCH.key) : RouteStep s (s.setMask64 lo hi n v) := by
  unfold State.setMask64
  extract_lets put
  split
  · exact .wr s _ hlo
  · exact .wr s _ hhi

theorem State.routerFault_step (s : State) (r reason : Nat) : RouteStep s (s.routerFault r reason) := by
  unfold State.routerFault
  split
  · exact .refl s
  · extract_lets inR held str reqs s1 s2
    have hmask : RouteStep s s1 :=
      (s.setMask64_step r true (by decide) (by decide)).trans (.wr _ 1 (f := NOC_STATUS_RTRFAULT) (by decide))
    have hqueues : RouteStep s1 s2 := ⟨⟨rfl, rfl, rfl, rfl, fun _ _ _ => rfl⟩, rfl⟩
    exact (hmask.trans hqueues).trans (.logEv ..)

theorem State.killLink_step (s : State) (r d reason : Nat) : RouteStep s (s.killLink r d reason) := by
  unfold State.killLink
  split
  · exact .refl s
  · extract_lets s1
    have hdead : (RTR_LINK_DEAD r d).key ≠ NOC_STATUS_EPOCH.key := by
      simp only [Fld.key, RTR_LINK_DEAD, NOC_STATUS_EPOCH]; omega
    have h1 : RouteStep s s1 :=
      ((RouteStep.wr s 1 hdead).trans (.wr _ 1 (f := NOC_STATUS_LINKDOWN) (by decide))).trans (.logEv ..)
    split
    · exact h1.trans (State.routerFault_step ..)
    · exact h1

/-! ### One pair, and all pairs (R339) -/

/-- A write at a key of the inactive bank leaves the active one. -/
theorem routes_put_inactive (t : Tbl Nat) (e : Bool) {j k : Nat} (v : Nat) (hj : j < 256) (hk : k < 256) :
    (Tbl.put t 0 ((1 - b2n e) * 256 + j) v).get 0 (b2n e * 256 + k) = t.get 0 (b2n e * 256 + k) := by
  refine Tbl.get_put_other _ _ _ ?_
  cases e <;> simp only [b2n] <;> omega

theorem State.routePair_step (s : State) (p : PlcNet) (k i j : Nat) (hj : j < 80) :
    RouteStep s (s.routePair p k i j).2 := by
  unfold State.routePair
  extract_lets e out was n entry ri rj a b s1 n' sel cur pref bad hot unreach marked wasUn
  split
  · exact .refl s
  · have h1 : RouteStep s s1 := by
      unfold s1
      split
      · refine .modNi s i fun x k hk => ?_
        rw [Nat.add_assoc, routes_put_inactive _ _ _ (by omega) hk, routes_put_inactive _ _ _ (by omega) hk]
      · exact .refl s
    split
    extract_lets s2 s3
    have h2 : RouteStep s1 s2 := .modNi s1 i fun _ _ _ => rfl
    have h3 : RouteStep s2 s3 := by
      unfold s3
      split
      · exact (RouteStep.wr s2 _ (f := PLC_POINT_CHANGES) (by decide)).trans (.of_recorded (.plcRec ..))
      · exact .refl s2
    refine (h1.trans h2).trans (h3.trans ?_)
    dsimp only
    split
    · exact (RouteStep.wr s3 1 (f := NOC_STATUS_UNREACH) (by decide)).trans (.logEv ..)
    · exact .refl s3

/-- The pass over some pairs. -/
theorem State.routePairs_step (p : PlcNet) (l : List (Nat × Nat)) (hl : ∀ x ∈ l, x.2 < 80) (x : Nat × State) :
    RouteStep x.2 (l.foldl (fun (t : Nat × State) x => t.2.routePair p t.1 x.1 x.2) x).2 := by
  induction l generalizing x with
  | nil => exact .refl _
  | cons y l ih =>
    obtain ⟨hy, hl⟩ := List.forall_mem_cons.mp hl
    exact (State.routePair_step _ p _ _ _ hy).trans (ih hl _)

/-- The pass leaves the active bank, and the flip no longer waits for it: it takes the routers out that the snapshot
names. -/
theorem State.routePass_stand (s : State) (p : PlcNet) : RoutesStand s (s.routePass p) ∧ (s.routePass p).net.flip =
    s.net.flip.map fun f => { f with writing := false, marking := false, outs := p.faulted ||| p.asked } := by
  unfold State.routePass
  extract_lets s1 pairs s2 outs
  have hpairs : ∀ x ∈ pairs, x.2 < 80 := by
    intro x hx
    simp only [pairs, List.mem_flatMap, List.mem_map, List.mem_range] at hx
    obtain ⟨i, -, j, hj, rfl⟩ := hx
    exact hj
  have h1 : RouteStep s s1 := .foldl (fun t _ => t.killLink_step ..) _ s
  have h2 : RouteStep s s2 := h1.trans (State.routePairs_step p pairs hpairs (0, s1))
  clear_value s2
  exact ⟨h2.toRoutesStand.trans (.modFlip s2 _), congrArg (Option.map _) h2.flip⟩

end

/-! ### The end of the pass (R326, R339, R376) -/

section
variable {s : State}

theorem exec_routePassEnd_none (h : s.plc.points.find? (fun p => p.routing) = none) :
    exec .routePassEnd s = .next s := by
  show execRoutePassEnd s = _
  rw [execRoutePassEnd, h]

variable {pt : PlcPoint} (hp : s.plc.points = [pt]) (hr : pt.routing = true)
include hp hr

theorem exec_routePassEnd_waits {f : Flip} (hf : s.net.flip = some f) (hw : f.writing = false) :
    exec .routePassEnd s = .next s := by
  show execRoutePassEnd s = _
  simp [execRoutePassEnd, hp, hr, hf, hw]

/-- The flip that the pass of a point writes into: its own, or one that starts now. -/
def State.passFlip (s : State) : State := if s.net.flip.isNone then s.startFlip false true else s

/-- The pass ends its point; the rest of what placement holds is its own. -/
theorem exec_routePassEnd_passes (hf : ∀ f, s.net.flip = some f → f.writing = true) :
    ∃ x : Plc, exec .routePassEnd s = .next { s.passFlip.routePass pt.net with plc := x } ∧
      x.points = (s.passFlip.routePass pt.net).plc.points.erase pt := by
  have hends (u : State) : ∃ x : Plc, (u.plcNetInterval.modPlc fun p => { p with points := p.points.erase pt }) =
      { u with plc := x } ∧ x.points = u.plc.points.erase pt := ⟨_, rfl, rfl⟩
  obtain ⟨x, hx, hpoints⟩ := hends (s.passFlip.routePass pt.net)
  refine ⟨x, ?_, hpoints⟩
  rw [← hx]
  show execRoutePassEnd s = _
  cases h : s.net.flip with
  | none => simp [execRoutePassEnd, State.passFlip, hp, hr, h]
  | some f => simp [execRoutePassEnd, State.passFlip, hp, hr, h, hf f h]

end

theorem State.passFlip_stand (s : State) : RoutesStand s s.passFlip ∧ ∃ f, s.passFlip.net.flip = some f := by
  unfold State.passFlip
  cases h : s.net.flip with
  | none => exact ⟨s.startFlip_stand _ _, _, rfl⟩
  | some f => exact ⟨.refl s, f, h⟩

/-- A pass that left `u` but for placement's own state has asked for its flip, and the active bank stands. -/
theorem State.pass_gives {s u : State} {p : PlcNet} {x : Plc} {f : Flip}
    (hexec : exec .routePassEnd s = .next { u with plc := x }) (hx : x.points = []) (hstand : RoutesStand s u)
    (hflip : u.net.flip = some { f with writing := false, marking := false, outs := p.faulted ||| p.asked }) :
    Gives .routePassEnd s fun t => t.plc.points = [] ∧ t.epoch = s.epoch ∧
      (∃ f, t.net.flip = some f ∧ f.writing = false ∧ f.outs = (p.faulted ||| p.asked)) ∧
      t.regions = s.regions ∧ t.bankMem = s.bankMem ∧
      ∀ i, ∀ k < 256, (t.ni i).routes.get 0 (b2n s.epoch * 256 + k) = (s.ni i).routes.get 0 (b2n s.epoch * 256 + k) :=
  ⟨_, hexec, hx, hstand.epoch, ⟨_, hflip, rfl, rfl⟩, hstand.regions, hstand.bankMem, hstand.routes⟩

theorem exec_routePassEnd_asks {s : State} {pt : PlcPoint} (hp : s.plc.points = [pt]) (hr : pt.routing = true)
    (hf : ∀ f, s.net.flip = some f → f.writing = true) : Gives .routePassEnd s fun t => t.plc.points = [] ∧
      t.epoch = s.epoch ∧ (∃ f, t.net.flip = some f ∧ f.writing = false ∧ f.outs = (pt.net.faulted ||| pt.net.asked)) ∧
      t.regions = s.regions ∧ t.bankMem = s.bankMem ∧
      ∀ i, ∀ k < 256, (t.ni i).routes.get 0 (b2n s.epoch * 256 + k) = (s.ni i).routes.get 0 (b2n s.epoch * 256 + k) := by
  obtain ⟨hstart, f, hflip⟩ := s.passFlip_stand
  obtain ⟨hpass, hasks⟩ := s.passFlip.routePass_stand pt.net
  have hstand := hstart.trans hpass
  obtain ⟨x, hexec, hx⟩ := exec_routePassEnd_passes hp hr hf
  refine State.pass_gives hexec ?_ hstand (hasks.trans (congrArg _ hflip))
  rw [hx, hstand.plc, hp, List.erase_cons_head]

end Sys2Proof.Machine
end

section
/-! PROOFS. Points that open and commit, pins and queued overrides (11 R320, R325 to R327, R330, R340, R343). -/

namespace Sys2Proof.Machine

/-! ### A point opens (R320, R325) -/

theorem exec_migrate_none {s : State} (h : s.evt.inflight = []) : exec .migrate s = .next s := by
  show execMigrate s = _
  rw [execMigrate, State.takeAction_nil h]

theorem exec_migrate_sole {s : State} {a : Action} (h : s.evt.inflight = [a]) (hcode : a.code = 7) :
    exec .migrate s = .next ((s.modEvt fun t => { t with inflight := [] }).openPoint (migrateScope a.target)
      (a.param % 8)) := by
  show execMigrate s = _
  rw [execMigrate, State.takeAction_head h (by simp [hcode])]

/-- The PARAM bits a point acts on: one of a region ignores all but bit 0 (R325). -/
def pointParam (scope raw : Nat) : Nat := if scope < 64 ∧ 2 ≤ raw then raw % 2 else raw

/-- An opened point stands last, with its scope, the regions it covers and its PARAM; IGNORED says that bits were
ignored. Records are all else. -/
theorem State.openPoint_opens (s : State) (scope raw : Nat) : let t := s.openPoint scope raw
    t.evt = s.evt ∧ t.regions = s.regions ∧ t.bankMem = s.bankMem ∧
      t.rd PLC_STATUS_IGNORED = (if scope < 64 ∧ 2 ≤ raw then 1 else s.rd PLC_STATUS_IGNORED) ∧
      ∃ pt, t.plc.points = s.plc.points ++ [pt] ∧ pt.scope = scope ∧ pt.param = pointParam scope raw ∧
        pt.raw = raw ∧ pt.routing = false ∧
        pt.snaps.map (fun p => p.region) = pointRegions scope (pointParam scope raw) ∧ ∀ p ∈ pt.snaps,
          p.skipped = (((s.region p.region).state == .dark) || ((s.region p.region).state == .loading)) := by
  unfold State.openPoint
  extract_lets ignored param s1 snaps covers pt s2 t
  have hparam : param = pointParam scope raw := by simp only [param, ignored, pointParam, decide_eq_true_eq]
  have hs1 : s1.evt = s.evt ∧ s1.regions = s.regions ∧ s1.bankMem = s.bankMem ∧ s1.plc = s.plc ∧
      s1.rd PLC_STATUS_IGNORED = if scope < 64 ∧ 2 ≤ raw then 1 else s.rd PLC_STATUS_IGNORED := by
    by_cases h : scope < 64 ∧ 2 ≤ raw
    · rw [show s1 = s.raise PLC_STATUS_IGNORED from if_pos (decide_eq_true h), if_pos h]
      exact ⟨rfl, rfl, rfl, rfl, State.rd_raise _ _ (by decide)⟩
    · rw [show s1 = s from if_neg (by simpa [ignored] using h), if_neg h]
      exact ⟨rfl, rfl, rfl, rfl, rfl⟩
  obtain ⟨hevt, hregions, hbank, hplc, hignored⟩ := hs1
  have ht : Recorded s2 t := .foldl (fun _ _ => .plcRec ..) _ _
  refine ⟨ht.evt.trans hevt, ht.regions.trans hregions, ht.bankMem.trans hbank,
    (ht.rd _ (by decide)).trans hignored, pt, ?points, rfl, hparam, rfl, rfl, ?covered, ?skipped⟩
  case points =>
    rw [ht.plc]
    exact congrArg (fun p : Plc => p.points ++ [pt]) hplc
  case covered =>
    rw [← hparam]
    exact (List.map_map ..).trans (List.map_id _)
  case skipped =>
    intro p hp
    obtain ⟨n, -, rfl⟩ := List.mem_map.mp hp
    show (((s1.region n).state == .dark) || ((s1.region n).state == .loading)) = _
    rw [State.region, hregions]
    rfl

/-! ### A point commits (R326) -/

section
variable {s : State} {pt : PlcPoint}

/-- What the commit shows and keeps of a point once its regions are through, with `c` changes and the stamp in `lo` and
`hi`: its overrides are spent, and it ends unless a route pass is to follow. -/
def State.pointEnds (s : State) (pt : PlcPoint) (c lo hi : Nat) : State :=
  let s := (s.wr PLC_POINT_CHANGES 0).modPlc fun p =>
    { p with ovrs := pt.ovrs.foldl (fun (l : List PlcOvr) o => l.erase o) p.ovrs }
  let s := (s.wr PLC_POINT_CHANGES c).count PLC_POINT_COUNT
  let s := (s.wr PLC_POINT_CHIP (b2n (pt.scope == 64))).wr PLC_POINT_PARAM pt.raw
  let s := (s.wr PLC_POINT_STAMP_LO_STAMP lo).wr PLC_POINT_STAMP_HI_STAMP hi
  s.modPlc fun p => { p with
    points := if bitOf pt.param 1 then p.points.map fun x => if x = pt then { x with routing := true } else x
      else p.points.erase pt }

theorem State.commitPoint_no_region (hslices : pt.slices = []) (hsnaps : pt.snaps = []) :
    ∃ c lo hi, s.commitPoint pt = s.pointEnds pt c lo hi := by
  rw [State.commitPoint, hslices, hsnaps]; exact ⟨_, _, _, rfl⟩

theorem State.commitPoint_one_region {p : PlcSnap} (hslices : pt.slices = []) (hsnaps : pt.snaps = [p]) :
    ∃ c lo hi, s.commitPoint pt = (s.commitRegion pt p).pointEnds pt c lo hi := by
  rw [State.commitPoint, hslices, hsnaps]; exact ⟨_, _, _, rfl⟩

end

section
variable (s : State) (pt : PlcPoint) (c lo hi : Nat)

theorem State.pointEnds_regions : (s.pointEnds pt c lo hi).regions = s.regions := by
  simp [State.pointEnds, State.count_eq]
theorem State.pointEnds_bankMem : (s.pointEnds pt c lo hi).bankMem = s.bankMem := by
  simp [State.pointEnds, State.count_eq]
theorem State.pointEnds_net : (s.pointEnds pt c lo hi).net = s.net := by
  simp [State.pointEnds, State.count_eq]
theorem State.pointEnds_pins : (s.pointEnds pt c lo hi).plc.pins = s.plc.pins := by
  simp [State.pointEnds, State.count_eq]
theorem State.pointEnds_since : (s.pointEnds pt c lo hi).plc.since = s.plc.since := by
  simp [State.pointEnds, State.count_eq]

/-- The only point that stood ends, or its route pass begins. -/
theorem State.pointEnds_points (hp : s.plc.points = [pt]) : (s.pointEnds pt c lo hi).plc.points =
    if bitOf pt.param 1 then [{ pt with routing := true }] else [] := by
  simp [State.pointEnds, State.count_eq, hp]

theorem State.rd_modPlc (f : Plc → Plc) (g : Fld) : (s.modPlc f).rd g = s.rd g := rfl

/-- The registers of a point's commit, PLC_POINT and PLC_POINT_STAMP. -/
def pointKeys : List Nat :=
  [PLC_POINT_CHANGES, PLC_POINT_COUNT, PLC_POINT_CHIP, PLC_POINT_PARAM, PLC_POINT_STAMP_LO_STAMP,
    PLC_POINT_STAMP_HI_STAMP].map Fld.key

theorem State.rd_pointEnds_other {f : Fld} (hf : f.key ∉ pointKeys) : (s.pointEnds pt c lo hi).rd f = s.rd f := by
  simp only [pointKeys, List.map_cons, List.map_nil, List.mem_cons, List.not_mem_nil, or_false, not_or, ← ne_eq] at hf
  obtain ⟨h1, h2, h3, h4, h5, h6⟩ := hf
  simp only [State.pointEnds, State.rd_modPlc, State.count_eq, State.rd_wr, h1.symm, h2.symm, h3.symm, h4.symm,
    h5.symm, h6.symm, if_false]

theorem State.rd_pointEnds_shown : let t := s.pointEnds pt c lo hi
    t.rd PLC_POINT_COUNT = (s.rd PLC_POINT_COUNT + 1) % 2 ^ PLC_POINT_COUNT.width ∧
      t.rd PLC_POINT_CHIP = b2n (pt.scope == 64) ∧ t.rd PLC_POINT_PARAM = pt.raw % 2 ^ PLC_POINT_PARAM.width := by
  have hchip : b2n (pt.scope == 64) % 2 ^ PLC_POINT_CHIP.width = b2n (pt.scope == 64) :=
    Nat.mod_eq_of_lt (Nat.lt_succ_of_le (b2n_le_one _))
  have hkeys : pointKeys.Nodup := by decide
  simp only [pointKeys, List.map_cons, List.map_nil, List.nodup_cons, List.mem_cons, List.not_mem_nil, or_false,
    not_or] at hkeys
  simp only [State.pointEnds, State.rd_modPlc, State.count_eq, State.rd_wr, hchip]
  simp [hkeys, Ne.symm]

end

section
variable {s : State} {pt : PlcPoint}

theorem exec_pointCommit_none (h : s.plc.points.find? (fun p => !p.routing) = none) :
    exec .pointCommit s = .next s := by
  show execPointCommit s = _
  rw [execPointCommit, h]

theorem exec_pointCommit (hp : s.plc.points = [pt]) (hr : pt.routing = false) : exec .pointCommit s =
    .next (if bitOf pt.param 1 && (s.commitPoint pt).net.flip.isNone then (s.commitPoint pt).startFlip false true
      else s.commitPoint pt) := by
  show execPointCommit s = _
  simp [execPointCommit, hp, hr]

end

end Sys2Proof.Machine
end

section
/-! PROOFS. What the commit of a point shows, and its pins (11 R326, R327, R330, R340, R343). -/

namespace Sys2Proof.Machine

/-! ### The flip of a point with a route pass (R326; 12 R375, R376) -/

theorem State.rd_startFlip (s : State) (marking writing : Bool) {f : Fld} (hf : NOC_STATUS_FLIPPEND.key ≠ f.key) :
    (s.startFlip marking writing).rd f = s.rd f := s.rd_wr_other _ _ 1 hf

theorem State.rd_startFlip_pending (s : State) (marking writing : Bool) :
    (s.startFlip marking writing).rd NOC_STATUS_FLIPPEND = 1 :=
  s.rd_raise NOC_STATUS_FLIPPEND (by decide)

/-- The state after a commit that left `u`: a flip starts where a route pass is to follow and none is in progress. -/
def State.passStarts (u : State) (pt : PlcPoint) : State :=
  if bitOf pt.param 1 && u.net.flip.isNone then u.startFlip false true else u

section
variable (u : State) (pt : PlcPoint)

theorem State.passStarts_stand : RoutesStand u (u.passStarts pt) := by
  unfold State.passStarts
  split
  · exact u.startFlip_stand _ _
  · exact .refl u

theorem State.rd_passStarts {f : Fld} (hf : NOC_STATUS_FLIPPEND.key ≠ f.key) : (u.passStarts pt).rd f = u.rd f := by
  unfold State.passStarts
  split
  · exact u.rd_startFlip _ _ hf
  · rfl

theorem State.passStarts_none (h : bitOf pt.param 1 = false) : u.passStarts pt = u := by
  simp [State.passStarts, h]

theorem State.passStarts_flip (h : bitOf pt.param 1 = true) (hf : u.net.flip = none) :
    u.passStarts pt = u.startFlip false true := by
  simp [State.passStarts, h, hf]

end

/-- The commit of a point without regions and slices: what it shows, and the flip that a route pass waits for. -/
theorem exec_pointCommit_shows {s : State} {pt : PlcPoint} (hp : s.plc.points = [pt]) (hr : pt.routing = false)
    (hsnaps : pt.snaps = []) (hslices : pt.slices = []) :
    Gives .pointCommit s fun t => t.regions = s.regions ∧ t.bankMem = s.bankMem ∧
      t.rd PLC_POINT_COUNT = (s.rd PLC_POINT_COUNT + 1) % 2 ^ PLC_POINT_COUNT.width ∧
      t.rd PLC_POINT_CHIP = b2n (pt.scope == 64) ∧ t.rd PLC_POINT_PARAM = pt.raw % 2 ^ PLC_POINT_PARAM.width ∧
      t.plc.points = (if bitOf pt.param 1 then [{ pt with routing := true }] else []) ∧
      (bitOf pt.param 1 = false → t.net = s.net) ∧
      (bitOf pt.param 1 = true → s.net.flip = none → ∃ f, t.net.flip = some f ∧ f.writing = true ∧ f.marking = false ∧
        t.rd NOC_STATUS_FLIPPEND = 1) := by
  obtain ⟨c, lo, hi, hcommit⟩ := State.commitPoint_no_region (s := s) hslices hsnaps
  have hexec : exec .pointCommit s = .next ((s.pointEnds pt c lo hi).passStarts pt) := by
    rw [exec_pointCommit hp hr, hcommit]; rfl
  have hstand := (s.pointEnds pt c lo hi).passStarts_stand pt
  obtain ⟨hcount, hchip, hparam⟩ := s.rd_pointEnds_shown pt c lo hi
  refine ⟨_, hexec, hstand.regions.trans (State.pointEnds_regions ..),
    hstand.bankMem.trans (State.pointEnds_bankMem ..),
    (State.rd_passStarts _ _ (by decide)).trans hcount, (State.rd_passStarts _ _ (by decide)).trans hchip,
    (State.rd_passStarts _ _ (by decide)).trans hparam, ?points, ?noPass, ?pass⟩
  case points => rw [hstand.plc, State.pointEnds_points _ _ _ _ _ hp]
  case noPass => exact fun h => by rw [State.passStarts_none _ _ h, State.pointEnds_net]
  case pass =>
    intro h hflip
    rw [State.passStarts_flip _ _ h (by rw [State.pointEnds_net, hflip])]
    exact ⟨_, rfl, rfl, rfl, State.rd_startFlip_pending ..⟩

/-! ### A slot is given an engine (R340) -/

section
variable {s : State} {n k e rule : Nat}

theorem State.sch_modSlot (f : Slot → Slot) : (s.modSlot n k f).sch n =
    { s.sch n with slots := (s.sch n).slots.set k (f ((s.sch n).slot k)) } :=
  congrArg Region.sch (s.region_modRegion_same n _)

/-- Slot `k` as it is given engine `e`: in transit while it is RUNNING (R340). -/
def Slot.given (x : Slot) (e : Nat) : Slot := { x with eng := e, transit := x.state == .running }

/-- The move of slot `k`, counted and recorded, before a transit begins or is over (R346). -/
def State.slotGiven (s : State) (n k e rule : Nat) : State :=
  (s.plcChange.plcRec (n * 256 + k) e 0x21 rule).modSlot n k fun x =>
    { x with eng := e, transit := ((s.sch n).slot k).state == .running }

theorem State.slotGiven_moved : let t := s.slotGiven n k e rule
    t.sch n = { s.sch n with slots := (s.sch n).slots.set k (((s.sch n).slot k).given e) } ∧ t.plc = s.plc ∧
      t.cyc = s.cyc ∧ t.bankMem = s.bankMem := by
  have h : Recorded s.plcChange (s.plcChange.plcRec (n * 256 + k) e 0x21 rule) := .plcRec ..
  rw [State.slotGiven]
  generalize s.plcChange.plcRec (n * 256 + k) e 0x21 rule = u at *
  refine ⟨(State.sch_modSlot _).trans ?_, h.plc, h.cyc, h.bankMem⟩
  rw [h.sch]; rfl

theorem State.giveSlot_eq (h : ((s.sch n).slot k).eng ≠ e) : s.giveSlot n k e rule false =
    if ((s.sch n).slot k).state = .running then (s.slotGiven n k e rule).modPlc fun p =>
      { p with transits := p.transits ++ [{ region := n, slots := [k], whole := none }] }
    else (s.slotGiven n k e rule).plcRec (n * 256 + k) e 0x22 0 := by
  simp [State.giveSlot, State.slotGiven, h]

/-- The slot moves; a transit that begins, a count and records are all else. -/
theorem State.giveSlot_moves (h : ((s.sch n).slot k).eng ≠ e) : let t := s.giveSlot n k e rule false
    t.sch n = { s.sch n with slots := (s.sch n).slots.set k (((s.sch n).slot k).given e) } ∧
      t.plc.points = s.plc.points ∧ t.cyc = s.cyc ∧ t.bankMem = s.bankMem := by
  obtain ⟨hsch, hplc, hcyc, hbank⟩ := State.slotGiven_moved (s := s) (n := n) (k := k) (e := e) (rule := rule)
  rw [State.giveSlot_eq h]
  generalize s.slotGiven n k e rule = u at *
  split
  · exact ⟨hsch, (congrArg Plc.points hplc :), hcyc, hbank⟩
  · have hrec := Recorded.plcRec u (n * 256 + k) e 0x22 0
    exact ⟨(hrec.sch n).trans hsch, congrArg Plc.points (hrec.plc.trans hplc), hrec.cyc.trans hcyc,
      hrec.bankMem.trans hbank⟩

end

/-! ### A pin at the commit of a region point (R330, R343) -/

section
variable {s : State} {pt : PlcPoint} {p : PlcSnap} {o : PlcOvr}

/-- A snapshot of a region that stands, with nothing lost, asked for, returned or mirrored. -/
structure PlcSnap.Calm (p : PlcSnap) : Prop where
  taken : p.skipped = false
  lost : p.lost = []
  asks : p.asks = []
  returns : p.returns = []
  mirroring : p.mirroring = false

/-- The machine once an override of a region's point has acted, its changes counted afresh (R346). -/
def State.overridden (s : State) (p : PlcSnap) (o : PlcOvr) : State :=
  (PlcWork.override ⟨s.wr PLC_POINT_CHANGES 0, p.load, p.slotLoad⟩ p o).s

/-- The rules over a calm region of a point that does not balance: its one override, then the new interval. -/
theorem State.plcRegion_override (hcalm : p.Calm) (hbal : pt.bal = false) (ho : pt.ovrs = [o])
    (hn : o.op / 256 = p.region) : (s.wr PLC_POINT_CHANGES 0).plcRegion pt p =
      ((s.overridden p o).plcQdata p).plcInterval p.region := by
  obtain ⟨htaken, hlost, hasks, hreturns, hmirror⟩ := hcalm
  simp [State.plcRegion, State.overridden, htaken, hlost, hasks, hreturns, hbal, ho, hn, State.plcBank, hmirror]

theorem State.plcQdata_eq (u : State) (p : PlcSnap) :
    ∃ f : Tbl Nat → Tbl Nat, u.plcQdata p = u.modPlc fun q => { q with qdata := f q.qdata } :=
  ⟨fun d => (List.range 25).foldl _ d, rfl⟩

theorem State.plcInterval_eq (u : State) (n : Nat) : ∃ f g : Tbl Nat → Tbl Nat, u.plcInterval n =
    u.modPlc fun q => { q with since := q.since.put 0 n u.cyc, base := f q.base, slotCyc := g q.slotCyc } :=
  ⟨fun b => (List.range 25).foldl _ b, List.filter _, rfl⟩

/-- The region's load counters begin again at the commit (R327); the rest of the machine stands. -/
theorem State.intervalBegins (u : State) (p : PlcSnap) : ∃ x : Plc, (u.plcQdata p).plcInterval p.region =
    { u with plc := x } ∧ x.points = u.plc.points ∧ x.pins = u.plc.pins ∧ x.since.get 0 p.region = u.cyc := by
  obtain ⟨f, hf⟩ := u.plcQdata_eq p
  obtain ⟨g, h, hg⟩ := (u.plcQdata p).plcInterval_eq p.region
  rw [hg, hf]
  exact ⟨_, rfl, rfl, rfl, Tbl.get_put_same ..⟩

theorem State.commitRegion_calm (hcalm : p.Calm) :
    Recorded ((s.wr PLC_POINT_CHANGES 0).plcRegion pt p) (s.commitRegion pt p) := by
  have h : s.commitRegion pt p = ((s.wr PLC_POINT_CHANGES 0).plcRegion pt p).plcRec (p.region * 256 + 0xFF)
      (((s.wr PLC_POINT_CHANGES 0).plcRegion pt p).rd PLC_POINT_CHANGES) 0x29 0 := by
    simp [State.commitRegion, hcalm.taken, hcalm.asks]
  exact h ▸ .plcRec ..

/-- The commit of a calm region's point with one override and no route pass: what the override left stands, the point
is over and a new interval has begun. -/
theorem exec_pointCommit_override (hp : s.plc.points = [pt]) (hr : pt.routing = false) (hsnaps : pt.snaps = [p])
    (hparam : pt.param = 1) (hcalm : p.Calm) (hbal : pt.bal = false) (hslices : pt.slices = []) (ho : pt.ovrs = [o])
    (hn : o.op / 256 = p.region) : let u := s.overridden p o
    u.plc.points = [pt] → ∃ t, exec .pointCommit s = .next t ∧ t.plc.points = [] ∧ t.plc.pins = u.plc.pins ∧
      t.plc.since.get 0 p.region = u.cyc ∧ t.regions = u.regions ∧ t.bankMem = u.bankMem ∧
      ∀ f : Fld, f.key ∉ recordKeys → f.key ∉ pointKeys → t.rd f = u.rd f := by
  intro u hu
  obtain ⟨c, lo, hi, hcommit⟩ := State.commitPoint_one_region (s := s) hslices hsnaps
  have hbit : bitOf pt.param 1 = false := by rw [hparam]; rfl
  have hexec : exec .pointCommit s = .next ((s.commitRegion pt p).pointEnds pt c lo hi) := by
    rw [exec_pointCommit hp hr, hbit, hcommit]; rfl
  obtain ⟨x, hx, hpoints, hpins, hsince⟩ := u.intervalBegins p
  have hrec : Recorded { u with plc := x } (s.commitRegion pt p) := by
    have h := State.commitRegion_calm (s := s) (pt := pt) hcalm
    rwa [State.plcRegion_override hcalm hbal ho hn, hx] at h
  generalize s.commitRegion pt p = v at *
  refine ⟨_, hexec, ?_, ?_, ?_, (State.pointEnds_regions ..).trans hrec.regions,
    (State.pointEnds_bankMem ..).trans hrec.bankMem,
    fun f hf hpt => (State.rd_pointEnds_other _ _ _ _ _ hpt).trans (hrec.rd f hf)⟩
  · rw [State.pointEnds_points _ _ _ _ _ ((congrArg Plc.points hrec.plc).trans (hpoints.trans hu)), hbit]; rfl
  · rw [State.pointEnds_pins, hrec.plc]; exact hpins
  · rw [State.pointEnds_since, hrec.plc]; exact hsince

end

section
variable {s : State} {p : PlcSnap} {k e : Nat}

theorem State.plcDest_wr (v : Nat) : (s.wr PLC_POINT_CHANGES v).plcDest p e = s.plcDest p e := by
  have hkey : PLC_POINT_CHANGES.key ≠ (SCH_POOL_ENGMASK p.region).key := by
    simp only [Fld.key, PLC_POINT_CHANGES, SCH_POOL_ENGMASK]; omega
  rw [State.plcDest, State.rd_wr_other _ _ _ _ hkey]
  rfl

theorem State.overridden_refused (hd : s.plcDest p e = false) : let u := s.overridden p ⟨0, e, p.region * 256 + k⟩
    u.plc = s.plc ∧ u.regions = s.regions ∧ u.rd PLC_STATUS_OVRREF = 1 := by
  intro u
  have hu : Recorded ((s.wr PLC_POINT_CHANGES 0).raise PLC_STATUS_OVRREF) u := by
    simp only [u, State.overridden, PlcWork.override, State.plcDest_wr, hd, Bool.false_eq_true, if_false]
    exact .logEv ..
  exact ⟨hu.plc, hu.regions, (hu.rd _ (by decide)).trans (State.rd_raise _ _ (by decide))⟩

theorem State.overridden_pins (hk : k < 256) (hd : s.plcDest p e = true) (he : ((s.sch p.region).slot k).eng ≠ e) :
    let n := p.region
    let u := s.overridden p ⟨0, e, n * 256 + k⟩
    u.sch n = { s.sch n with slots := (s.sch n).slots.set k (((s.sch n).slot k).given e) } ∧
      u.plc.points = s.plc.points ∧ n * 256 + k ∈ u.plc.pins ∧ u.cyc = s.cyc ∧ u.bankMem = s.bankMem := by
  intro n u
  have hop : (n * 256 + k) % 256 = k := by omega
  have hu : u = ((s.wr PLC_POINT_CHANGES 0).giveSlot n k e 10 false).modPlc fun q =>
      { q with pins := (n * 256 + k) :: q.pins.filter fun x => x != n * 256 + k } := by
    simp only [u, State.overridden, PlcWork.override, State.plcDest_wr, hd, if_true]
    rw [show (p.region * 256 + k) % 256 = k from hop]
  obtain ⟨hsch, hpoints, hcyc, hbank⟩ := State.giveSlot_moves (s := s.wr PLC_POINT_CHANGES 0) (rule := 10) he
  generalize (s.wr PLC_POINT_CHANGES 0).giveSlot n k e 10 false = v at *
  rw [hu]
  exact ⟨hsch, hpoints, List.mem_cons_self, hcyc, hbank⟩

end

end Sys2Proof.Machine
end

section
/-! PROOFS. The end of a transit (11 R331, R340), writes of PLC_OVR (R343), and what placement's commands do. -/

namespace Sys2Proof.Machine

/-! ### The end of a transit (R331, R340) -/

section
variable {s : State} {n : Fin 64}

theorem exec_transitEnd_none (h : s.plc.transits = []) : exec (.transitEnd n) s = .next s := by
  show execTransitEnd n s = _
  rw [execTransitEnd, h]; rfl

variable {t : Transit} (ht : s.plc.transits = [t])
include ht

theorem exec_transitEnd_waits (hd : s.transitDone t = false) : exec (.transitEnd n) s = .next s := by
  show execTransitEnd n s = _
  simp [execTransitEnd, ht, hd]

theorem exec_transitEnd_done (hn : t.region = n.val) (hd : s.transitDone t = true) : exec (.transitEnd n) s =
    .next (s.endTransit t fun n e => s.ldr.engImage.get [] (n * 32 + e)) := by
  show execTransitEnd n s = _
  simp [execTransitEnd, ht, hd, hn]

end

/-- Transit `t` is no longer under way. -/
def State.dropTransit (s : State) (t : Transit) : State := s.modPlc fun p => { p with transits := p.transits.erase t }

section
variable (s : State) (n : Nat) (image : Nat → Nat → Tbl Nat)

theorem State.dropTransit_sole {t : Transit} (ht : s.plc.transits = [t]) : (s.dropTransit t).plc.transits = [] := by
  simp [State.dropTransit, ht]

/-- The end of a slot's transit: the slot is out of transit; a record is all else. -/
theorem State.endTransit_slot (k : Nat) : let tr : Transit := { region := n, slots := [k], whole := none }
    Recorded ((s.dropTransit tr).modSlot n k fun x => { x with transit := false }) (s.endTransit tr image) :=
  .plcRec ..

/-- An engine with D and K of engine `g`, whose words are sound (R331). -/
def Engine.withDK (h g : Engine) : Engine := { h with
  mem := (g.mem.filter fun x => decide (x.1 < 32768)) ++ h.mem.filter fun x => decide (32768 ≤ x.1)
  psn := g.psn
  syn := h.syn.filter fun x => decide (8192 ≤ x.1) }

/-- D and K of engine `e` stand in `d` too, with no kernel resident there (R331). -/
def State.copiedDK (s : State) (n e d : Nat) : State :=
  (s.modEngAt n d fun h => h.withDK (s.engAt n e)).modSch n fun c => { c with resident := c.resident.del d }

theorem State.copyDK_clean {e d : Nat} (hsyn : (s.engAt n e).syn = []) : s.copyDK n e d =
    (0, s.modEngAt n d fun h => h.withDK (s.engAt n e)) := by
  simp [State.copyDK, Engine.withDK, hsyn]

/-- The end of a whole engine's transit with a sound source: its D and K are copied; a record is all else. -/
theorem State.endTransit_whole {e d : Nat} (hsyn : (s.engAt n e).syn = []) :
    let tr : Transit := { region := n, slots := [], whole := some (e, d) }
    Recorded ((s.dropTransit tr).copiedDK n e d) (s.endTransit tr image) := by
  intro tr
  have hcopy := State.copyDK_clean (s := s.dropTransit tr) (n := n) (e := e) (d := d) hsyn
  have h : s.endTransit tr image = ((s.dropTransit tr).copiedDK n e d).plcRec (n * 256 + 0xC0 + e) d 0x23 0 := by
    rw [State.dropTransit] at hcopy
    simp [State.endTransit, State.copiedDK, State.dropTransit, tr, hcopy]
  exact h ▸ .plcRec ..

theorem State.engAt_copiedDK (e d x : Nat) : (s.copiedDK n e d).engAt n x =
    if d = x then (s.engAt n d).withDK (s.engAt n e) else s.engAt n x := by
  simp only [State.copiedDK, State.modSch, State.modEngAt, State.engAt, State.region_modRegion_same, Tbl.get_set]

theorem State.sch_copiedDK (e d : Nat) : (s.copiedDK n e d).sch n =
    { s.sch n with resident := (s.sch n).resident.del d } := by
  simp only [State.copiedDK, State.modSch, State.modEngAt, State.sch, State.region_modRegion_same]

end

section
variable {s : State} {n : Fin 64}

/-- A transit of one slot ends when the slot is not RUNNING. -/
theorem transitEnd_slot {k : Nat} (ht : s.plc.transits = [{ region := n, slots := [k], whole := none }]) :
    (((s.sch n).slot k).state = .running → exec (.transitEnd n) s = .next s) ∧
    (((s.sch n).slot k).state ≠ .running → Gives (.transitEnd n) s fun t => t.plc.transits = [] ∧
      (t.sch n).slot k = { (s.sch n).slot k with transit := false } ∧
      ∀ j, j ≠ k → (t.sch n).slot j = (s.sch n).slot j) := by
  constructor
  · exact fun h => exec_transitEnd_waits ht (by simp [State.transitDone, h])
  · intro h
    have hexec := exec_transitEnd_done ht rfl (by simp [State.transitDone, h])
    have hrec := s.endTransit_slot n (fun n e => s.ldr.engImage.get [] (n * 32 + e)) k
    refine ⟨_, hexec, ?_, ?_, fun j hj => ?_⟩
    · exact (congrArg Plc.transits hrec.plc).trans (s.dropTransit_sole ht)
    · rw [hrec.sch, State.sch_modSlot]
      exact Tbl.get_set_same ..
    · rw [hrec.sch, State.sch_modSlot]
      exact Tbl.get_set_other _ _ _ hj.symm

/-- A transit of a whole engine ends when its source has no open item; D and K are then the source's. -/
theorem transitEnd_whole {e d : Nat} (hne : e ≠ d)
    (ht : s.plc.transits = [{ region := n, slots := [], whole := some (e, d) }]) :
    ((s.itemOn n e).isSome = true → exec (.transitEnd n) s = .next s) ∧
    (s.itemOn n e = none → (s.engAt n e).syn = [] → Gives (.transitEnd n) s fun t => t.plc.transits = [] ∧
      (∀ x, (t.engAt n d).mem.get 0 x = if x < 32768 then (s.engAt n e).mem.get 0 x else (s.engAt n d).mem.get 0 x) ∧
      t.engAt n e = s.engAt n e ∧ (t.sch n).residents d = [] ∧ (t.sch n).slots = (s.sch n).slots) := by
  constructor
  · exact fun h => exec_transitEnd_waits ht (by simp [State.transitDone, Option.isNone_eq_false_iff, h])
  · intro hitem hsyn
    have hexec := exec_transitEnd_done ht rfl (by simp [State.transitDone, hitem])
    have hrec := s.endTransit_whole n (fun n e => s.ldr.engImage.get [] (n * 32 + e)) (e := e) (d := d) hsyn
    refine ⟨_, hexec, ?_, fun x => ?_, ?_, ?_, ?_⟩
    · exact (congrArg Plc.transits hrec.plc).trans (s.dropTransit_sole ht)
    · rw [hrec.engAt, State.engAt_copiedDK, if_pos rfl]
      exact Tbl.get_join ..
    · rw [hrec.engAt, State.engAt_copiedDK, if_neg hne.symm]; rfl
    · rw [hrec.sch, State.sch_copiedDK]
      exact (Tbl.get_del ..).trans (if_pos rfl)
    · rw [hrec.sch, State.sch_copiedDK]; rfl

end

/-! ### Queued overrides (R343) -/

theorem exec_plcOvr (acc : Accessor) (v : Word) (s : State) :
    exec (.plcOvr acc v) s = .next (s.writePlcOvr v.toNat) := rfl

section
variable {s : State} {v : Nat}

theorem State.writePlcOvr_idle (h : bitOf v 31 = false) : s.writePlcOvr v = s := by
  simp [State.writePlcOvr, h]

theorem State.writePlcOvr_queues (hgo : bitOf v 31 = true) (hroom : s.plc.ovrs.length < 64)
    (hkind : bitsOf v 30 29 ≠ 3) :
    s.writePlcOvr v = s.modPlc fun p =>
      { p with ovrs := p.ovrs ++ [⟨bitsOf v 30 29, bitsOf v 28 24, bitsOf v 13 0⟩] } := by
  simp [State.writePlcOvr, hgo, hkind, Nat.not_le.mpr hroom]

theorem State.writePlcOvr_refused (hgo : bitOf v 31 = true) (h : 64 ≤ s.plc.ovrs.length ∨ bitsOf v 30 29 = 3) :
    LogOnly (s.raise PLC_STATUS_OVRREF) (s.writePlcOvr v) := by
  have hrefused : s.writePlcOvr v = (s.raise PLC_STATUS_OVRREF).logEv 0x0B05 1 0xA (unitRegion (bitsOf v 13 0 / 256))
      (bitsOf v 13 0 + bitsOf v 28 24 * 2 ^ 14 + bitsOf v 30 29 * 2 ^ 19) := by
    rw [State.writePlcOvr, if_neg (by simp [hgo])]
    exact if_pos h
  exact hrefused ▸ State.logEv_only ..

end

/-- Settles O51: each clause is a branch of its command's meaning; what a record or a route pass writes stays apart from
what the clause names. -/
theorem placementPointsOverridesAndTransits : Obligations.PlacementPointsOverridesAndTransits := by
  intro s
  refine ⟨exec_migrate_none, ?opens, exec_pointCommit_none, ?commit, exec_routePassEnd_none, ?pass, ?transit, ?ovr⟩
  case opens =>
    intro a ha hcode
    obtain ⟨hevt, hopened⟩ :=
      (s.modEvt fun t => { t with inflight := [] }).openPoint_opens (migrateScope a.target) (a.param % 8)
    exact ⟨_, exec_migrate_sole ha hcode, congrArg EventTable.inflight hevt, hopened⟩
  case commit =>
    intro pt hp hr
    refine ⟨exec_pointCommit_shows hp hr, ?_⟩
    intro p e k hsnaps _ hregion hparam htaken hlost hasks hreturns hmirror hbal hslices ho he
    have hcalm : p.Calm := ⟨htaken, hlost, hasks, hreturns, hmirror⟩
    rw [← hregion] at ho he ⊢
    have hn : (p.region * 256 + k.val) / 256 = p.region := by omega
    have hcommit := exec_pointCommit_override hp hr hsnaps hparam hcalm hbal hslices ho hn
    refine ⟨fun hd => ?pins, fun hd => ?refused⟩
    case pins =>
      obtain ⟨hsch, hpoints, hpin, hcyc, hbank⟩ := State.overridden_pins k.isLt hd he
      obtain ⟨t, hexec, hover, hpins, hsince, hregions, hmem, -⟩ := hcommit (hpoints.trans hp)
      have ht := (State.sch_congr hregions p.region).trans hsch
      have hslot : (t.sch p.region).slot k = ((s.sch p.region).slot k).given e := by
        rw [ht]; exact Tbl.get_set_same ..
      refine ⟨t, hexec, congrArg Slot.eng hslot, by rw [hpins]; exact hpin, (congrArg Slot.state hslot :),
        congrArg Slot.transit hslot, fun j hj => ?_, by rw [ht], hover, hsince.trans hcyc, hmem.trans hbank⟩
      rw [ht]; exact Tbl.get_set_other _ _ _ hj.symm
    case refused =>
      obtain ⟨hplc, hrgns, hovrref⟩ := State.overridden_refused (k := k) hd
      obtain ⟨t, hexec, hover, hpins, -, hregions, -, hrd⟩ := hcommit ((congrArg Plc.points hplc).trans hp)
      exact ⟨t, hexec, congrArg Sched.slots (State.sch_congr (hregions.trans hrgns) _), by rw [hpins, hplc],
        (hrd _ (by decide) (by decide)).trans hovrref, hover⟩
  case pass => exact fun pt hp hr => ⟨fun f hf hw => exec_routePassEnd_waits hp hr hf hw, exec_routePassEnd_asks hp hr⟩
  case transit =>
    exact fun n => ⟨exec_transitEnd_none, fun k ht => transitEnd_slot ht,
      fun e d hne ht => transitEnd_whole (fun h => hne (Fin.ext h)) ht⟩
  case ovr =>
    intro acc v
    refine ⟨fun h => ?idle, fun hgo hroom hkind => ?queues, fun hgo h => ?refused⟩
    case idle => rw [exec_plcOvr, State.writePlcOvr_idle h]
    case queues => rw [exec_plcOvr, State.writePlcOvr_queues hgo hroom hkind]; rfl
    case refused =>
      have hlog := State.writePlcOvr_refused hgo h
      exact ⟨_, exec_plcOvr .., (hlog.rd _ (by decide)).trans (State.rd_raise _ _ (by decide)), hlog.plc, hlog.regions⟩

end Sys2Proof.Machine
end

section
/-! PROOFS. Queues of the routers, the interfaces at them, and the registers of the network (12 R353, R365, R381, R385). -/

namespace Sys2Proof.Machine

/-! ### Queues (R365) -/

section
variable (s : State) (key : Nat) (p : Packet)

/-- The router at which a queue stands. -/
theorem queueKey_router {r port vc : Nat} (cls : Bool) (hport : port < 8) (hvc : vc < 4) :
    queueKey r port vc cls / 64 = r := by
  have : b2n cls < 2 := by cases cls <;> decide
  rw [queueKey]; omega

/-- A packet that joins a queue stands at its end; only the cycle at which it came to the head is its own. -/
theorem State.queue_enqueue_same : ∃ h : Nat, (s.enqueue key p).net.queues.get [] key =
    s.net.queues.get [] key ++ [{ p with headAt := h }] := by
  refine ⟨if s.net.queues.get [] key = [] then s.cyc else p.headAt, (Tbl.get_put_same ..).trans ?_⟩
  split <;> rfl

theorem State.enqueue_frame : (s.enqueue key p).bankMem = s.bankMem ∧ (s.enqueue key p).regions = s.regions ∧
    (s.enqueue key p).log = s.log := ⟨rfl, rfl, rfl⟩

theorem State.queue_enqueue_other {k : Nat} (h : k ≠ key) :
    (s.enqueue key p).net.queues.get [] k = s.net.queues.get [] k := Tbl.get_put_other _ _ _ h.symm

theorem State.queue_dequeue_other {k : Nat} (h : k ≠ key) :
    (s.dequeue key).net.queues.get [] k = s.net.queues.get [] k := Tbl.get_put_other _ _ _ h.symm

/-- The head leaves its queue. -/
theorem State.queue_dequeue_length {s : State} {key : Nat} {p : Packet} {rest : List Packet}
    (h : s.net.queues.get [] key = p :: rest) : ((s.dequeue key).net.queues.get [] key).length = rest.length := by
  refine (congrArg List.length (Tbl.get_put_same ..)).trans ?_
  rw [h]
  cases rest <;> rfl

end

/-! ### Registers that are kept apart -/

theorem Fld.key_ne_of_addr {f g : Fld} (hf : f.lo < 32) (hg : g.lo < 32) (haddr : f.addr ≠ g.addr) : f.key ≠ g.key := by
  rw [Fld.key, Fld.key]; omega

section
variable (s : State)

/-- A record changes no field of a register above SYS_LOG_STATUS. -/
theorem State.rd_logEv {f : Fld} (h : SYS_LOG_STATUS_LOST.addr < f.addr) (c k st u d : Nat) :
    (s.logEv c k st u d).rd f = s.rd f := by
  refine s.logEv_rd c k st u d f ?_
  simp only [Fld.key, SYS_LOG_STATUS_LOST] at h ⊢; omega

/-- The mask of faulted routers is of two registers; a field of neither leaves it alone. -/
theorem State.routerFaulted_congr {s t : State} (hlo : t.rd NOC_RFAULT_LO_MASK = s.rd NOC_RFAULT_LO_MASK)
    (hhi : t.rd NOC_RFAULT_HI_MASK = s.rd NOC_RFAULT_HI_MASK) (r : Nat) : t.routerFaulted r = s.routerFaulted r := by
  simp only [State.routerFaulted, State.mask64, hlo, hhi]

theorem State.routerFaulted_wr {f : Fld} (v r : Nat) (hlo : f.key ≠ NOC_RFAULT_LO_MASK.key)
    (hhi : f.key ≠ NOC_RFAULT_HI_MASK.key) : (s.wr f v).routerFaulted r = s.routerFaulted r :=
  State.routerFaulted_congr (s.rd_wr_other _ _ _ hlo) (s.rd_wr_other _ _ _ hhi) r

/-- A router entered in the mask is faulted. -/
theorem State.routerFaulted_setMask64 {r : Nat} (hr : r < 64) :
    (s.setMask64 NOC_RFAULT_LO_MASK NOC_RFAULT_HI_MASK r true).routerFaulted r = true := by
  unfold State.setMask64 State.routerFaulted State.mask64
  extract_lets put
  split
  case isTrue h =>
    rw [State.rd_wr_same]
    exact (bitOf_mod_two_pow _ h).trans (bitOf_setBit ..)
  case isFalse h =>
    rw [State.rd_wr_same]
    exact (bitOf_mod_two_pow _ (show r - 32 < 32 by omega)).trans (bitOf_setBit ..)

/-- A mask is of two registers; every other field reads as before. -/
theorem State.rd_setMask64 {lo hi f : Fld} (n : Nat) (v : Bool) (hlo : lo.key ≠ f.key) (hhi : hi.key ≠ f.key) :
    (s.setMask64 lo hi n v).rd f = s.rd f := by
  unfold State.setMask64
  extract_lets put
  split
  · exact s.rd_wr_other _ _ _ hlo
  · exact s.rd_wr_other _ _ _ hhi

end

/-! ### Interfaces (R353, R385) -/

section
variable {f : Nat → Fld} (hf : ∀ n, 0x1020000 ≤ (f n).addr) (i : Nat)
include hf

/-- The registers of an interface lie above those of the NOC. -/
theorem niFld_addr : 0xF1000 ≤ (niFld f i).addr := by
  have hi := hf i
  have h0 := hf 0
  unfold niFld
  split
  · omega
  · show 0xF1000 ≤ (f 0).addr - 0x1020000 + 0xF1000 + (i - 64) * 0x100
    omega

theorem niFld_above_log : SYS_LOG_STATUS_LOST.addr < (niFld f i).addr :=
  Nat.lt_of_lt_of_le (by decide) (niFld_addr hf i)

theorem niFld_key_ne {g : Fld} (hg : g.addr < 0xF1000) (hlo : g.lo < 32) : (niFld f i).key ≠ g.key := by
  have := niFld_addr hf i
  rw [Fld.key, Fld.key]; omega

end

theorem State.ni_enqueue (s : State) (key : Nat) (p : Packet) (i : Nat) : (s.enqueue key p).ni i = s.ni i := rfl

theorem State.ni_modNi_same (s : State) (i : Nat) (f : Ni → Ni) : (s.modNi i f).ni i = f (s.ni i) := Tbl.get_set_same ..

/-- A change that keeps which router an interface uses. -/
theorem State.niAt_modNi {s : State} {i : Nat} {f : Ni → Ni} (h : (f (s.ni i)).bypass = (s.ni i).bypass) :
    (s.modNi i f).niAt i = s.niAt i := by
  rw [State.niAt, State.ni_modNi_same, h, State.niAt]

end Sys2Proof.Machine
end

section
/-! PROOFS. The order of the packets at an output, and the hop of the first (12 R352, R360, R364 to R366, R374). -/

namespace Sys2Proof.Machine

/-! ### The order of R366 -/

/-- `x` goes before `y` at their output, each with its queue: R366 looks at the input port and the packet. -/
def goesBefore (x y : Nat × Packet) : Bool := hopBefore (x.1 / 8 % 8, x.2) (y.1 / 8 % 8, y.2)

theorem goesBefore_irrefl (x : Nat × Packet) : goesBefore x x = false := by
  simp [goesBefore, hopBefore]

theorem goesBefore_trans {x y z : Nat × Packet} (hxy : goesBefore x y = true) (hyz : goesBefore y z = true) :
    goesBefore x z = true := by
  simp only [goesBefore, hopBefore, Bool.or_eq_true, Bool.and_eq_true, decide_eq_true_eq, beq_iff_eq] at *
  omega

/-- Two packets of which neither goes before a third stand alike to it. -/
theorem goesBefore_negTrans {x y z : Nat × Packet} (hxy : goesBefore x y = false) (hyz : goesBefore y z = false) :
    goesBefore x z = false := by
  simp only [goesBefore, hopBefore, Bool.or_eq_false_iff, Bool.and_eq_false_iff, decide_eq_false_iff_not,
    beq_eq_false_iff_ne] at *
  omega

/-- The better of the best so far and `x`. -/
def hopBetter : Option (Nat × Packet) → Nat × Packet → Option (Nat × Packet)
  | none, x => some x
  | some y, x => if goesBefore x y then some x else some y

/-- The packets at the heads of router `r`'s queues that can leave by `out`, each with its queue. -/
def State.hopHeads (s : State) (r out : Nat) : List (Nat × Packet) :=
  (s.net.queues.filter fun q => q.1 / 64 == r).filterMap fun q => match q.2 with
    | p :: _ => if s.canHop r (q.1 / 8 % 8) out p then some (q.1, p) else none
    | [] => none

theorem State.hopPick_eq (s : State) (r out : Nat) : s.hopPick r out = (s.hopHeads r out).foldl hopBetter none := by
  refine congrArg (fun f => (s.hopHeads r out).foldl f none) (funext fun b => funext fun x => ?_)
  cases b <;> rfl

theorem State.mem_hopHeads {s : State} {r out key : Nat} {p : Packet} {l : List Packet} (hq : (key, p :: l) ∈ s.net.queues)
    (hr : key / 64 = r) (hcan : s.canHop r (key / 8 % 8) out p = true) : (key, p) ∈ s.hopHeads r out := by
  refine List.mem_filterMap.mpr ⟨(key, p :: l), List.mem_filter.mpr ⟨hq, beq_iff_eq.mpr hr⟩, ?_⟩
  exact if_pos hcan

/-- Nothing goes before the best of a list. -/
theorem hopBetter_first (l : List (Nat × Packet)) {b : Option (Nat × Packet)} {x : Nat × Packet}
    (h : l.foldl hopBetter b = some x) {y : Nat × Packet} (hy : b = some y ∨ y ∈ l) : goesBefore y x = false := by
  induction l generalizing b y with
  | nil =>
    obtain rfl : y = x := Option.some.inj ((hy.resolve_right List.not_mem_nil).symm.trans h)
    exact goesBefore_irrefl y
  | cons z l ih =>
    have hnext {y : Nat × Packet} (hy : hopBetter b z = some y ∨ y ∈ l) := ih h hy
    cases b with
    | none =>
      obtain rfl | hy := List.mem_cons.mp (hy.resolve_left nofun)
      · exact hnext (.inl rfl)
      · exact hnext (.inr hy)
    | some w =>
      cases hz : goesBefore z w with
      | true =>
        have hfirst := hnext (y := z) (.inl (if_pos hz))
        obtain hw | hy := hy
        · obtain rfl := Option.some.inj hw
          exact Bool.eq_false_iff.mpr fun hwx => by simp [goesBefore_trans hz hwx] at hfirst
        · obtain rfl | hy := List.mem_cons.mp hy
          · exact hfirst
          · exact hnext (.inr hy)
      | false =>
        have hfirst := hnext (y := w) (.inl (if_neg (by simp [hz])))
        obtain hw | hy := hy
        · obtain rfl := Option.some.inj hw
          exact hfirst
        · obtain rfl | hy := List.mem_cons.mp hy
          · exact goesBefore_negTrans hz hfirst
          · exact hnext (.inr hy)

/-- No packet that can leave by an output goes before the one that is taken. -/
theorem State.hopPick_first {s : State} {r out : Nat} {x y : Nat × Packet} (hx : s.hopPick r out = some x)
    (hq : ∃ l, (y.1, y.2 :: l) ∈ s.net.queues) (hr : y.1 / 64 = r) (hcan : s.canHop r (y.1 / 8 % 8) out y.2 = true) :
    goesBefore y x = false := by
  obtain ⟨l, hq⟩ := hq
  rw [State.hopPick_eq] at hx
  exact hopBetter_first _ hx (.inr (State.mem_hopHeads hq hr hcan))

/-! ### The hop (R360, R364, R365, R374) -/

theorem hopTo_ne (r : Fin 64) (d : Nat) : hopTo r d ≠ r := by
  unfold hopTo
  extract_lets c w
  split <;> omega

section
variable {s : State} {r : Fin 64} {out : Fin 8} {l : LinkEvent} {key : Nat} {p : Packet}

theorem exec_routerHop_stays (h : s.routerFaulted r = true ∨ s.hopPick r out = none) :
    exec (.routerHop r out l) s = .next s := by
  show execRouterHop r out l s = _
  unfold execRouterHop
  split
  · rfl
  · next hr => rw [h.resolve_left hr]

variable (hr : s.routerFaulted r = false) (hp : s.hopPick r out = some (key, p))
include hr hp

/-- Over a live link the packet enters the next router, the first hop code gone and its flits counted. -/
theorem exec_routerHop_link (hout : out.val < 4) (hlive : s.linkDead r out = false)
    (hnext : s.routerFaulted (hopTo r out) = false) : exec (.routerHop r out .clean) s =
      .next (((s.dequeue key).count (RTR_FLIT_COUNT r out) (p.len + 1)).enqueue (queueKey (hopTo r out) out p.typ p.alt)
        { p with route := p.route / 8 + 7 * 2 ^ 21 }) := by
  have hlive' : (s.dequeue key).linkDead r out = false := hlive
  have hnext' : (s.dequeue key).routerFaulted (hopTo r out) = false := hnext
  show execRouterHop r out .clean s = _
  simp only [execRouterHop, hr, hp, hout, hlive', hnext', State.linkCheck, Bool.false_eq_true, if_false, if_true,
    Bool.or_self]

/-- A packet for a dead link that is no stream packet is gone: its source waits for its timeout. -/
theorem exec_routerHop_dead (hout : out.val < 4) (hdead : s.linkDead r out = true) (htyp : p.typ ≠ 2) :
    exec (.routerHop r out l) s = .next (s.dequeue key) := by
  have hdead' : (s.dequeue key).linkDead r out = true := hdead
  show execRouterHop r out l s = _
  simp only [execRouterHop, hr, hp, hout, hdead', State.routerDiscard, htyp, Bool.false_eq_true, if_false, if_true,
    Bool.true_or]

/-- Out of a port the packet is ejected into its interface. -/
theorem exec_routerHop_eject {i : Nat} (hout : 4 ≤ out.val) (hi : portNi r (out.val - 4) = some i) :
    exec (.routerHop r out l) s = .next ((s.dequeue key).modNi i fun n => { n with inbox := n.inbox ++ [p] }) := by
  show execRouterHop r out l s = _
  simp only [execRouterHop, hr, hp, Nat.not_lt.mpr hout, hi, Bool.false_eq_true, if_false]

variable {rest : List Packet} (hq : s.net.queues.get [] key = p :: rest)
include hq

theorem routerHop_link_gives (hkey : key / 64 = r) (htyp : p.typ < 4) (hout : out.val < 4)
    (hlive : s.linkDead r out = false) (hnext : s.routerFaulted (hopTo r out) = false) :
    Gives (.routerHop r out .clean) s fun t =>
      let dst := queueKey (hopTo r out) out p.typ p.alt
      (t.net.queues.get [] key).length = rest.length ∧ t.regions = s.regions ∧ t.log = s.log ∧
      (∃ x, t.net.queues.get [] dst = s.net.queues.get [] dst ++ [x] ∧ x.opc = p.opc ∧ x.src = p.src ∧ x.tid = p.tid ∧
        x.data = p.data ∧ x.route = p.route / 8 + 7 * 2 ^ 21) ∧
      t.rd (RTR_FLIT_COUNT r out) = (s.rd (RTR_FLIT_COUNT r out) + p.len + 1) % 2 ^ (RTR_FLIT_COUNT r out).width := by
  have hne : key ≠ queueKey (hopTo r out) out p.typ p.alt := fun h => by
    rw [h, queueKey_router _ (by omega) htyp] at hkey
    exact hopTo_ne r out hkey
  refine ⟨_, exec_routerHop_link hr hp hout hlive hnext, ?_, rfl, rfl, ?_, ?_⟩
  · rw [State.queue_enqueue_other _ _ _ hne]
    exact State.queue_dequeue_length hq
  · obtain ⟨h, hx⟩ := ((s.dequeue key).count (RTR_FLIT_COUNT r out) (p.len + 1)).queue_enqueue_same
      (queueKey (hopTo r out) out p.typ p.alt) { p with route := p.route / 8 + 7 * 2 ^ 21 }
    refine ⟨_, hx.trans (congrArg (· ++ [_]) ?_), rfl, rfl, rfl, rfl, rfl⟩
    exact s.queue_dequeue_other key hne.symm
  · exact State.rd_wr_same ..

theorem routerHop_eject_gives {i : Nat} (hout : 4 ≤ out.val) (hi : portNi r (out.val - 4) = some i) :
    Gives (.routerHop r out l) s fun t => (t.net.queues.get [] key).length = rest.length ∧
      (t.ni i).inbox = (s.ni i).inbox ++ [p] ∧ t.regs = s.regs ∧ t.regions = s.regions :=
  ⟨_, exec_routerHop_eject hr hp hout hi, State.queue_dequeue_length hq, congrArg Ni.inbox (State.ni_modNi_same ..), rfl,
    rfl⟩

end

end Sys2Proof.Machine
end

section
/-! PROOFS. What a drop notice leaves at its source (12 R373, R383). -/

namespace Sys2Proof.Machine

section
variable {s : State} {i tid : Nat}

/-- The registers once a drop notice is counted, and strobed at a region. -/
def State.dropCounted (s : State) (i : Nat) : State :=
  let s := s.bump (niFld NI_CNT_DROP_RECEIVED i)
  if i < 64 then s.raise (RGN_PORT_STAT_DROP i) else s

/-- Interface `i` with one more notice for the stream port of an address. -/
def State.dropStrobed (s : State) (i addr : Nat) : State :=
  s.modNi i fun n => { n with dropped := n.dropped.set (bitsOf addr 10 8) (n.dropped.get 0 (bitsOf addr 10 8) + 1) }

theorem State.ni_dropStrobed (addr : Nat) : (s.dropStrobed i addr).ni i =
    { s.ni i with dropped := (s.ni i).dropped.set (bitsOf addr 10 8) ((s.ni i).dropped.get 0 (bitsOf addr 10 8) + 1) } :=
  s.ni_modNi_same ..

theorem State.queues_dropStrobed (addr : Nat) : (s.dropStrobed i addr).net.queues = s.net.queues := rfl

/-- A notice that is not Kraerlink's counts, strobes its port and is recorded. -/
theorem State.dropArrives_only (hkrl : i ≠ 76 ∨ tid < 256) (addr status : Nat) :
    LogOnly ((s.dropCounted i).dropStrobed i addr) (s.dropArrives i addr status tid) := by
  unfold State.dropArrives
  extract_lets s1 s2 s3 s4
  have h1 : s1 = s := if_neg (by omega)
  have h4 : s4 = (s.dropCounted i).dropStrobed i addr := by
    simp only [s4, s3, s2, h1]; rfl
  rw [← h4]
  exact s4.logEvLimited_only ..

theorem State.dropCounted_regions : (s.dropCounted i).regions = s.regions := by
  unfold State.dropCounted; dsimp only; split <;> rfl

theorem State.dropCounted_net : (s.dropCounted i).net = s.net := by
  unfold State.dropCounted; dsimp only; split <;> rfl

theorem State.rd_dropCounted_received : (s.dropCounted i).rd (niFld NI_CNT_DROP_RECEIVED i) =
    satAdd (niFld NI_CNT_DROP_RECEIVED i).width (s.rd (niFld NI_CNT_DROP_RECEIVED i)) 1 := by
  unfold State.dropCounted
  dsimp only
  split
  case isTrue h =>
    refine (State.rd_wr_other _ _ _ _ ?_).trans (s.rd_bump _ 1)
    simp only [niFld, h, if_true, Fld.key, RGN_PORT_STAT_DROP, NI_CNT_DROP_RECEIVED]; omega
  case isFalse => exact s.rd_bump _ 1

theorem State.rd_dropCounted_drop (h : i < 64) : (s.dropCounted i).rd (RGN_PORT_STAT_DROP i) = 1 := by
  unfold State.dropCounted
  dsimp only
  rw [if_pos h]
  exact State.rd_raise _ _ (by simp [Fld.width, RGN_PORT_STAT_DROP])

variable {addr status : Nat} (hkrl : i ≠ 76 ∨ tid < 256)
include hkrl

theorem State.dropArrives_rd {f : Fld} (hf : SYS_LOG_STATUS_LOST.addr < f.addr) :
    (s.dropArrives i addr status tid).rd f = (s.dropCounted i).rd f := by
  refine (s.dropArrives_only hkrl addr status).rd f ?_
  simp only [Fld.key, SYS_LOG_STATUS_LOST] at hf ⊢; omega

theorem State.dropArrives_regions : (s.dropArrives i addr status tid).regions = s.regions :=
  (s.dropArrives_only hkrl addr status).regions.trans s.dropCounted_regions

theorem State.dropArrives_net : (s.dropArrives i addr status tid).net = (s.dropStrobed i addr).net := by
  refine (s.dropArrives_only hkrl addr status).net.trans ?_
  rw [State.dropStrobed, State.modNi, State.modNet, State.dropCounted_net]; rfl

end

end Sys2Proof.Machine
end

section
/-! PROOFS. Dead links, faulted routers, the ledger and the flip (12 R365, R368, R375, R380, R381), and what the commands
of a router do. -/

namespace Sys2Proof.Machine

/-! ### Dead links and faulted routers (R380, R381) -/

section
variable (s : State) (r reason : Nat)

/-- The registers of faulted routers and of the log are all that a fault changes. -/
theorem State.rd_routerFault {f : Fld} (hlo : NOC_RFAULT_LO_MASK.key ≠ f.key) (hhi : NOC_RFAULT_HI_MASK.key ≠ f.key)
    (hfault : NOC_STATUS_RTRFAULT.key ≠ f.key) (hlog : SYS_LOG_STATUS_LOST.addr < f.addr) :
    (s.routerFault r reason).rd f = s.rd f := by
  unfold State.routerFault
  split
  · rfl
  · extract_lets inR held str reqs s1 s2
    have hqueues : s2.rd f = s1.rd f := rfl
    rw [State.rd_logEv _ hlog, hqueues]
    exact (State.rd_wr_other _ _ _ _ hfault).trans (s.rd_setMask64 r true hlo hhi)

theorem State.routerFault_isolates {s : State} {r : Nat} (hr : r < 64) (h : s.routerFaulted r = false) :
    (s.routerFault r reason).routerFaulted r = true ∧ (s.routerFault r reason).rd NOC_STATUS_RTRFAULT = 1 ∧
      ∀ q ∈ (s.routerFault r reason).net.queues, q.1 / 64 ≠ r := by
  unfold State.routerFault
  rw [h]
  extract_lets inR held str reqs s1 s2
  rw [if_neg (by decide)]
  have hqueues (f : Fld) : s2.rd f = s1.rd f := rfl
  have hlog {f : Fld} (hf : SYS_LOG_STATUS_LOST.addr < f.addr) (d : Nat) :
      (s2.logEv 0x0C04 2 3 (unitId r 4 0) d).rd f = s1.rd f := (s2.rd_logEv hf ..).trans (hqueues f)
  refine ⟨?_, ?_, ?_⟩
  · rw [State.routerFaulted_congr (hlog (by decide) _) (hlog (by decide) _)]
    exact (State.routerFaulted_wr _ 1 r (by decide) (by decide)).trans (s.routerFaulted_setMask64 hr)
  · rw [hlog (by decide)]
    exact State.rd_raise _ _ (by decide)
  · intro q hq
    rw [(s2.logEv_only ..).net] at hq
    simpa [s2, State.modNet, inR] using (List.mem_filter.mp hq).2

/-- A link that is not dead becomes dead, and shows it. -/
theorem State.killLink_kills {d : Nat} (h : s.linkDead r d = false) :
    (s.killLink r d reason).linkDead r d = true ∧ (s.killLink r d reason).rd NOC_STATUS_LINKDOWN = 1 := by
  unfold State.killLink
  rw [h, if_neg (by decide)]
  extract_lets s1
  have hkey {f : Fld} (hf : f.addr < 0x1000000) (hlo : f.lo < 32) : f.key ≠ (RTR_LINK_DEAD r d).key := by
    simp only [Fld.key, RTR_LINK_DEAD]; omega
  have hlog : SYS_LOG_STATUS_LOST.addr < (RTR_LINK_DEAD r d).addr := by
    simp only [SYS_LOG_STATUS_LOST, RTR_LINK_DEAD]; omega
  have hdead : s1.rd (RTR_LINK_DEAD r d) = 1 := by
    refine (State.rd_logEv _ hlog ..).trans ((State.rd_wr_other _ _ _ _ (hkey (by decide) (by decide))).trans ?_)
    exact s.rd_raise _ (by simp [Fld.width, RTR_LINK_DEAD])
  have hdown : s1.rd NOC_STATUS_LINKDOWN = 1 :=
    (State.rd_logEv _ (by decide) ..).trans (State.rd_raise _ _ (by decide))
  split
  · rw [State.linkDead, State.flag, s1.rd_routerFault r 3 (hkey (by decide) (by decide)) (hkey (by decide) (by decide))
      (hkey (by decide) (by decide)) hlog, hdead, s1.rd_routerFault r 3 (by decide) (by decide) (by decide) (by decide)]
    exact ⟨rfl, hdown⟩
  · rw [State.linkDead, State.flag, hdead]
    exact ⟨rfl, hdown⟩

end

section
variable {s : State} {r : Fin 64}

/-- The head of a queue of router `r` waits for direction `d`. -/
def State.creditWaits (s : State) (r d : Nat) : Bool :=
  s.net.queues.any fun q => q.1 / 64 == r && match q.2 with
    | p :: _ => nextOut p == some d
    | [] => false

theorem exec_creditTimeout (s : State) (r : Fin 64) (d : Fin 4) : exec (.creditTimeout r d) s =
    .next (if s.creditWaits r d && !s.routerFaulted r then s.killLink r d 2 else s) := rfl

theorem exec_creditTimeout_idle {d : Fin 4}
    (h : s.creditWaits r d = false ∨ s.routerFaulted r = true ∨ s.linkDead r d = true) :
    exec (.creditTimeout r d) s = .next s := by
  rw [exec_creditTimeout]
  split
  case isFalse => rfl
  case isTrue hkills =>
    obtain ⟨hwaits, hworks⟩ := (Bool.and_eq_true _ _).mp hkills
    obtain h | h | h := h
    · simp [h] at hwaits
    · simp [h] at hworks
    · rw [State.killLink, if_pos h]

theorem creditTimeout_gives {d : Fin 4} (hwaits : s.creditWaits r d = true) (hr : s.routerFaulted r = false)
    (hlive : s.linkDead r d = false) : Gives (.creditTimeout r d) s fun t => t.linkDead r d = true ∧
      t.rd NOC_STATUS_LINKDOWN = 1 ∧ t.regions = s.regions ∧ t.bankMem = s.bankMem := by
  have hstep := s.killLink_step r d 2
  obtain ⟨hdead, hdown⟩ := s.killLink_kills r 2 hlive
  exact ⟨_, by rw [exec_creditTimeout, hwaits, hr]; rfl, hdead, hdown, hstep.regions, hstep.bankMem⟩

/-- Router `r` holds a packet. -/
def State.routerBusy (s : State) (r : Nat) : Bool := s.net.queues.any fun q => q.1 / 64 == r && q.2 != []

theorem exec_routerStall (s : State) (r : Fin 64) :
    exec (.routerStall r) s = .next (if s.routerBusy r then s.routerFault r 1 else s) := rfl

theorem exec_routerStall_idle (h : s.routerBusy r = false ∨ s.routerFaulted r = true) :
    exec (.routerStall r) s = .next s := by
  rw [exec_routerStall]
  split
  case isFalse => rfl
  case isTrue hbusy =>
    obtain h | h := h
    · simp [h] at hbusy
    · rw [State.routerFault, if_pos h]

theorem routerStall_gives (hbusy : s.routerBusy r = true) (hr : s.routerFaulted r = false) :
    Gives (.routerStall r) s fun t => t.routerFaulted r = true ∧ t.rd NOC_STATUS_RTRFAULT = 1 ∧
      (∀ q ∈ t.net.queues, q.1 / 64 ≠ r.val) ∧ t.regions = s.regions := by
  obtain ⟨hfaulted, hshown, hlost⟩ := State.routerFault_isolates 1 r.isLt hr
  exact ⟨_, by rw [exec_routerStall, hbusy]; rfl, hfaulted, hshown, hlost, (s.routerFault_step r 1).regions⟩

/-! ### The ledger (R381) -/

/-- The ledger without an entry. -/
def State.ledgerTaken (s : State) (x : LedgerItem) : State := s.modNet fun t => { t with ledger := t.ledger.erase x }

theorem exec_ledgerDrop_none {b : Bool} (h : s.net.ledger.find? (fun x => x.router == r.val) = none) :
    exec (.ledgerDrop r b) s = .next s := by
  show execLedgerDrop r b s = _
  rw [execLedgerDrop, h]

variable {x : LedgerItem} (hx : s.net.ledger.find? (fun x => x.router == r.val) = some x)
include hx

theorem ledgerDrop_bad_gives : Gives (.ledgerDrop r true) s fun t => t.net.ledger = s.net.ledger.erase x ∧
    t.rd NOC_STATUS_LEDGERUE = satAdd NOC_STATUS_LEDGERUE.width (s.rd NOC_STATUS_LEDGERUE) 1 := by
  have hexec : exec (.ledgerDrop r true) s = .next
      (((s.ledgerTaken x).bump NOC_STATUS_LEDGERUE).logEv 0x0C04 2 3 (unitId r 4 0) (1 * 2 ^ 24)) := by
    show execLedgerDrop r true s = _
    rw [execLedgerDrop, hx]; rfl
  exact ⟨_, hexec, congrArg Net.ledger (State.logEv_only ..).net,
    (State.rd_logEv _ (by decide) ..).trans (State.rd_bump ..)⟩

theorem ledgerDrop_tells_gives (hsrc : x.pkt.src < 64) (hthere : s.sourceGone x.pkt.src = false) :
    Gives (.ledgerDrop r false) s fun t =>
      t.net.ledger = s.net.ledger.erase x ∧ t.rd (RGN_PORT_STAT_DROP x.pkt.src) = 1 := by
  have hthere' : (s.ledgerTaken x).sourceGone x.pkt.src = false := hthere
  have hexec : exec (.ledgerDrop r false) s =
      .next ((s.ledgerTaken x).dropArrives x.pkt.src x.pkt.addr 3 x.pkt.tid) := by
    show execLedgerDrop r false s = _
    simp only [execLedgerDrop, hx, Bool.false_eq_true, if_false]
    exact if_neg (Bool.eq_false_iff.mp hthere')
  have hkrl : x.pkt.src ≠ 76 ∨ x.pkt.tid < 256 := .inl (by omega)
  refine ⟨_, hexec, congrArg Net.ledger (State.dropArrives_net hkrl), ?_⟩
  rw [State.dropArrives_rd hkrl (by simp only [SYS_LOG_STATUS_LOST, RGN_PORT_STAT_DROP]; omega)]
  exact State.rd_dropCounted_drop hsrc

end

/-! ### The flip (R375, R380) -/

section
variable {s : State} {f : Flip}

theorem exec_epochFlip_none (h : s.net.flip = none) : exec .epochFlip s = .next s := by
  show execEpochFlip s = _
  rw [execEpochFlip, h]

theorem exec_epochFlip (h : s.net.flip = some f) :
    exec .epochFlip s = .next (if f.writing || s.inFlight (!s.epoch) then s else s.flipNow f) := by
  show execEpochFlip s = _
  rw [execEpochFlip, h]

theorem exec_epochFlip_waits (h : s.net.flip = some f) (hwaits : f.writing = true ∨ s.inFlight (!s.epoch) = true) :
    exec .epochFlip s = .next s := by
  rw [exec_epochFlip h, if_pos (by simpa using hwaits)]

/-- The registers of a flip: the epoch, the end of the wait, the counts and the routers that are out. -/
def State.flipShown (s : State) (f : Flip) : State :=
  let s := ((s.wr NOC_STATUS_EPOCH (b2n !s.epoch)).wr NOC_STATUS_FLIPPEND 0).count NOC_FLIPS_FLIPS
  let s := if f.marking then s.count NOC_FLIPS_MARKING else s
  (s.wr NOC_ROUT_LO_MASK (f.outs % 2 ^ 32)).wr NOC_ROUT_HI_MASK (f.outs / 2 ^ 32)

theorem State.flipShown_net : (s.flipShown f).net = s.net := by
  unfold State.flipShown
  extract_lets s1 s2
  have h2 : s2.net = s1.net := by unfold s2; split <;> rfl
  exact h2

theorem State.flipShown_regions : (s.flipShown f).regions = s.regions := by
  unfold State.flipShown
  extract_lets s1 s2
  have h2 : s2.regions = s1.regions := by unfold s2; split <;> rfl
  exact h2

theorem State.repairWires_none (h : s.net.failing = []) :
    s.repairWires = s.modNet fun t => { t with failing := [], wires := [] } := by
  rw [State.repairWires, h]; rfl

/-- A flip without marks and failed wires: its registers, the network without the flip, and its record. -/
theorem State.flipNow_only (hmarks : f.marks = []) (hfailing : s.net.failing = []) : ∃ n : Net,
    LogOnly ((s.flipShown f).modNet fun _ => n) (s.flipNow f) ∧ n.flip = none ∧ n.queues = s.net.queues := by
  unfold State.flipNow
  extract_lets new s1 s2 s3 s4 s5
  have h4 : s4 = s.flipShown f := by simp only [s4, hmarks, List.foldl_nil]; rfl
  obtain ⟨g, h5, hfail, hflip, hqueues⟩ : ∃ g : Net → Net, s5 = s4.modNet g ∧ (∀ t, (g t).failing = t.failing) ∧
    (∀ t, (g t).flip = none) ∧ ∀ t, (g t).queues = t.queues := ⟨_, rfl, fun _ => rfl, fun _ => rfl, fun _ => rfl⟩
  have hwires : s5.repairWires = (s.flipShown f).modNet fun t => { g t with failing := [], wires := [] } := by
    rw [h5, h4, State.repairWires_none (by rw [State.modNet_net, hfail, State.flipShown_net, hfailing])]; rfl
  rw [hwires]
  refine ⟨_, State.logEv_only .., hflip _, (hqueues _).trans ?_⟩
  rw [State.flipShown_net]

theorem State.rd_flipShown : (s.flipShown f).epoch = (!s.epoch) ∧ (s.flipShown f).rd NOC_STATUS_FLIPPEND = 0 ∧
    (s.flipShown f).rd NOC_FLIPS_FLIPS = (s.rd NOC_FLIPS_FLIPS + 1) % 2 ^ NOC_FLIPS_FLIPS.width := by
  unfold State.flipShown
  extract_lets s1 s2
  have hepoch : s1.rd NOC_STATUS_EPOCH = b2n !s.epoch := by
    refine (State.rd_wr_other _ _ _ _ (by decide)).trans ((State.rd_wr_other _ _ _ _ (by decide)).trans ?_)
    rw [State.rd_wr_same]
    cases s.epoch <;> rfl
  have hpend : s1.rd NOC_STATUS_FLIPPEND = 0 := (State.rd_wr_other _ _ _ _ (by decide)).trans (State.rd_wr_same ..)
  have hflips : s1.rd NOC_FLIPS_FLIPS = (s.rd NOC_FLIPS_FLIPS + 1) % 2 ^ NOC_FLIPS_FLIPS.width := by
    refine (State.rd_wr_same ..).trans ?_
    rw [State.rd_wr_other _ _ _ _ (by decide), State.rd_wr_other _ _ _ _ (by decide)]
  have hmarking {g : Fld} (hg : NOC_FLIPS_MARKING.key ≠ g.key) : s2.rd g = s1.rd g := by
    unfold s2
    split
    · exact s1.rd_wr_other _ _ _ hg
    · rfl
  have houts {g : Fld} (hlo : NOC_ROUT_LO_MASK.key ≠ g.key) (hhi : NOC_ROUT_HI_MASK.key ≠ g.key)
      (hg : NOC_FLIPS_MARKING.key ≠ g.key) :
      ((s2.wr NOC_ROUT_LO_MASK (f.outs % 2 ^ 32)).wr NOC_ROUT_HI_MASK (f.outs / 2 ^ 32)).rd g = s1.rd g := by
    rw [State.rd_wr_other _ _ _ _ hhi, State.rd_wr_other _ _ _ _ hlo, hmarking hg]
  refine ⟨?_, ?_, ?_⟩
  · rw [State.epoch, State.flag, houts (by decide) (by decide) (by decide), hepoch]
    cases s.epoch <;> rfl
  · rw [houts (by decide) (by decide) (by decide), hpend]
  · rw [houts (by decide) (by decide) (by decide), hflips]

theorem epochFlip_gives (h : s.net.flip = some f) (hwriting : f.writing = false) (hquiet : s.inFlight (!s.epoch) = false)
    (hfailing : s.net.failing = []) (hmarks : f.marks = []) : Gives .epochFlip s fun t => t.epoch = (!s.epoch) ∧
      t.net.flip = none ∧ t.rd NOC_STATUS_FLIPPEND = 0 ∧
      t.rd NOC_FLIPS_FLIPS = (s.rd NOC_FLIPS_FLIPS + 1) % 2 ^ NOC_FLIPS_FLIPS.width ∧
      t.net.queues = s.net.queues ∧ t.regions = s.regions := by
  obtain ⟨n, honly, hflip, hqueues⟩ := State.flipNow_only hmarks hfailing
  obtain ⟨hepoch, hpend, hflips⟩ := State.rd_flipShown (s := s) (f := f)
  refine ⟨_, by rw [exec_epochFlip h, hwriting, hquiet]; rfl, ?_, (congrArg Net.flip honly.net).trans hflip,
    (honly.rd _ (by decide)).trans hpend, (honly.rd _ (by decide)).trans hflips, 
    (congrArg Net.queues honly.net).trans hqueues,
    honly.regions.trans State.flipShown_regions⟩
  rw [State.epoch, State.flag, honly.rd _ (by decide)]
  exact hepoch

end

/-- Settles O47: the packet taken is the first of its output, and each other clause is a branch of its command's
meaning. -/
theorem routersHopFailAndFlip : Obligations.RoutersHopFailAndFlip := by
  intro s
  refine ⟨fun r out l => ⟨exec_routerHop_stays, fun _ _ => State.hopPick_first, ?hop⟩, fun r d => ⟨?idle, ?credit⟩,
    fun r => ⟨exec_routerStall_idle, routerStall_gives, fun _ => exec_ledgerDrop_none, fun _ => ledgerDrop_bad_gives,
      fun _ => ledgerDrop_tells_gives⟩, exec_epochFlip_none,
    fun f hf => ⟨exec_epochFlip_waits hf, epochFlip_gives hf⟩⟩
  case hop =>
    intro key p rest hr hp hq hkey htyp
    exact ⟨routerHop_link_gives hr hp hq hkey htyp, fun _ => routerHop_eject_gives hr hp hq,
      exec_routerHop_dead hr hp⟩
  case idle => exact exec_creditTimeout_idle
  case credit => exact creditTimeout_gives

end Sys2Proof.Machine
end

section
/-! PROOFS. Requests at their source: they wait, are answered there, or leave with a TID (12 R354, R356, R357, R360, R363,
R370). -/

namespace Sys2Proof.Machine

/-! ### TIDs (R370) -/

section
variable {α : Type} (t : Tbl α) (k : Nat)

theorem Tbl.find?_set_same (v : α) : (t.set k v).find? (fun x => x.1 == k) = some (k, v) := by
  induction t with
  | nil => simp [Tbl.set]
  | cons x t ih =>
    obtain ⟨j, w⟩ := x
    rw [Tbl.set]
    split
    · simp
    · split
      · simp
      · next h => rw [List.find?_cons_of_neg (by simpa using Ne.symm h), ih]

theorem Tbl.find?_del_same : (t.del k).find? (fun x => x.1 == k) = none := by
  induction t with
  | nil => rfl
  | cons x t ih =>
    obtain ⟨j, w⟩ := x
    rw [Tbl.del]
    split
    · exact ih
    · next h => rw [List.find?_cons_of_neg (by simpa using h), ih]

end

/-- A next TID that is FREE is taken. -/
theorem Ni.freeTid_next {n : Ni} {k t : Nat} (ht : t < 4096) (hfree : n.tids.any (fun e => e.1 == t) = false) :
    n.freeTid (k + 1) t = some t := by
  rw [Ni.freeTid, Nat.mod_eq_of_lt ht, hfree]; rfl

/-! ### A request of an interface -/

section
variable {s : State} {i : Nat} {a : NetAsk}

/-- Interface `i` with TID `t` busy for a request. -/
def State.tidTaken (s : State) (i t : Nat) (a : NetAsk) : State :=
  (s.count (niFld NI_CNT_REQ_COUNT i)).modNi i fun n => { n with
    nextTid := (t + 1) % 4096
    tids := n.tids.set t { opc := a.pkt.opc, dst := a.dst, why := a.why } }

theorem State.ni_tidTaken (t : Nat) : (s.tidTaken i t a).ni i =
    { s.ni i with
      nextTid := (t + 1) % 4096
      tids := (s.ni i).tids.set t { opc := a.pkt.opc, dst := a.dst, why := a.why } } := State.ni_modNi_same ..

theorem State.rd_tidTaken (t : Nat) {f : Fld} (hf : f.addr < 0xF1000) (hlo : f.lo < 32) :
    (s.tidTaken i t a).rd f = s.rd f :=
  s.rd_wr_other _ _ _ (niFld_key_ne (fun n => by simp only [NI_CNT_REQ_COUNT]; omega) i hf hlo)

theorem State.tidTaken_epoch (t : Nat) : (s.tidTaken i t a).epoch = s.epoch := by
  rw [State.epoch, State.flag, State.rd_tidTaken t (by decide) (by decide), State.epoch, State.flag]

theorem State.routerFaulted_tidTaken (t r : Nat) : (s.tidTaken i t a).routerFaulted r = s.routerFaulted r :=
  State.routerFaulted_congr (State.rd_tidTaken t (by decide) (by decide)) (State.rd_tidTaken t (by decide) (by decide)) r

theorem State.netRequest_waits (h : 256 ≤ (s.ni i).out) :
    s.netRequest i a = s.modNi i fun n => { n with waiting := n.waiting ++ [a] } := by
  rw [State.netRequest]
  exact if_pos h

theorem State.netRequest_local {st : Nat} (h : (s.ni i).out < 256) (hl : s.lookup i a.dst = .error st) :
    s.netRequest i a = (s.bump (niFld NI_CNT_LOCAL_LOCAL i)).modNi i fun n => { n with
      locals := n.locals ++ [{ a with pkt := { a.pkt with status := st, data := [] } }] } := by
  rw [State.netRequest, hl]
  exact if_neg (Nat.not_le.mpr h)

/-- The packet that a request leaves as. -/
def NetAsk.leaves (a : NetAsk) (i t : Nat) (alt : Bool) (route dport : Nat) (epoch : Bool) : Packet :=
  { a.pkt with
    typ := opcType a.pkt.opc, src := i, tid := t, alt := alt, route := route, dport := dport, epoch := epoch }

/-- With a route, a free TID and a working router the request joins the queue of its channel and class. -/
theorem State.netRequest_leaves {alt : Bool} {route dport : Nat} (h : (s.ni i).out < 256)
    (hl : s.lookup i a.dst = .ok (alt, route, dport)) (ht : (s.ni i).nextTid < 4096)
    (hfree : (s.ni i).tids.any (fun e => e.1 == (s.ni i).nextTid) = false) (hr : s.routerFaulted (s.niAt i) = false) :
    s.netRequest i a = (s.tidTaken i (s.ni i).nextTid a).enqueue
      (queueKey (s.niAt i) (niInPort i (s.ni i).bypass) (opcType a.pkt.opc) alt)
      (a.leaves i (s.ni i).nextTid alt route dport s.epoch) := by
  have hat : (s.tidTaken i (s.ni i).nextTid a).niAt i = s.niAt i := by rw [State.niAt, State.ni_tidTaken, State.niAt]
  have hsends : s.netRequest i a = (s.tidTaken i (s.ni i).nextTid a).inject i
      (a.leaves i (s.ni i).nextTid alt route dport (s.tidTaken i (s.ni i).nextTid a).epoch) := by
    simp only [State.netRequest, if_neg (Nat.not_le.mpr h), hl, Ni.freeTid_next ht hfree]; rfl
  rw [hsends, State.tidTaken_epoch, State.inject, hat, State.routerFaulted_tidTaken, hr, State.ni_tidTaken]; rfl

end

/-! ### Requests of units (R354, R356, R357) -/

/-- The rows of the request opcodes, each with its code (R357). -/
def requestRows : List ((NetCmd → Instr) × Nat) :=
  [(Instr.token, 0x10), (Instr.enqueue, 0x11), (Instr.read1, 0x01), (Instr.read4, 0x02), (Instr.read16, 0x03),
    (Instr.write1, 0x05), (Instr.write4, 0x06), (Instr.write16, 0x07), (Instr.add32, 0x08), (Instr.add64, 0x09),
    (Instr.swap64, 0x0A), (Instr.regrd, 0x18), (Instr.regwr, 0x19)]

section
variable {s : State} {c : (NetCmd → Instr) × Nat} {a : ReqArgs}

/-- The request that a unit gives its interface. -/
def State.unitAsk (s : State) (opc : Nat) (a : ReqArgs) : NetAsk where
  dst := a.dst
  pkt :=
    { typ := opcType opc, opc := opc, src := a.src, tid := 0, key := a.key, addr := a.addr.toNat, be := a.be.toNat
      toktgt := a.toktgt, stamp := a.stamp.toNat, urg := s.rd (niFld NI_CFG_DURG a.src)
      psn := a.psn.toNat % 2 ^ reqWords opc, len := flitsLess1 (reqWords opc)
      data := (List.range (reqWords opc)).map fun i => a.data.getD i 0#128 }
  why := .unit

theorem exec_issue (hc : c ∈ requestRows) : exec (c.1 (.issue a)) s = .next (s.issueRequest c.2 a) := by
  simp only [requestRows, List.mem_cons, List.not_mem_nil, or_false] at hc
  rcases hc with rfl | rfl | rfl | rfl | rfl | rfl | rfl | rfl | rfl | rfl | rfl | rfl | rfl <;> rfl

/-- A unit of a region that does not run sends nothing. -/
theorem exec_issue_stopped (hc : c ∈ requestRows) (hi : a.src.val < 64) (hlive : (s.region a.src).live = false) :
    exec (c.1 (.issue a)) s = .next s := by
  rw [exec_issue hc, State.issueRequest, if_pos (by simp [hi, hlive])]

variable (hc : c ∈ requestRows) (hlive : a.src.val < 64 → (s.region a.src).live = true)
include hc hlive

theorem exec_issue_asks : exec (c.1 (.issue a)) s = .next (s.netRequest a.src (s.unitAsk c.2 a)) := by
  rw [exec_issue hc, State.issueRequest, if_neg (by simpa using hlive)]; rfl

theorem issue_waits (hout : 256 ≤ (s.ni a.src).out) : Gives (c.1 (.issue a)) s fun t =>
    t.net.queues = s.net.queues ∧ (t.ni a.src).waiting.length = (s.ni a.src).waiting.length + 1 ∧
      (t.ni a.src).tids = (s.ni a.src).tids ∧ t.regions = s.regions := by
  refine ⟨_, (exec_issue_asks hc hlive).trans (congrArg _ (State.netRequest_waits hout)), rfl, ?_, ?_, rfl⟩
  · rw [State.ni_modNi_same]
    exact List.length_append
  · rw [State.ni_modNi_same]

variable (hout : (s.ni a.src).out < 256)
include hout

theorem issue_answered_here {st : Nat} (hl : s.lookup a.src a.dst = .error st) : Gives (c.1 (.issue a)) s fun t =>
    t.net.queues = s.net.queues ∧ (t.ni a.src).tids = (s.ni a.src).tids ∧ t.regions = s.regions ∧
      (∃ x : NetAsk, (t.ni a.src).locals = (s.ni a.src).locals ++ [x] ∧ x.pkt.status = st ∧ x.pkt.data = []) ∧
      t.rd (niFld NI_CNT_LOCAL_LOCAL a.src) =
        satAdd (niFld NI_CNT_LOCAL_LOCAL a.src).width (s.rd (niFld NI_CNT_LOCAL_LOCAL a.src)) 1 := by
  have hl' : s.lookup a.src (s.unitAsk c.2 a).dst = .error st := hl
  refine ⟨_, (exec_issue_asks hc hlive).trans (congrArg _ (State.netRequest_local hout hl')), rfl, ?_, rfl,
    ⟨_, congrArg Ni.locals (State.ni_modNi_same ..), rfl, rfl⟩, s.rd_bump _ 1⟩
  rw [State.ni_modNi_same]; rfl

theorem issue_leaves {alt : Bool} {route dport : Nat} (hl : s.lookup a.src a.dst = .ok (alt, route, dport))
    (ht : (s.ni a.src).nextTid < 4096)
    (hfree : (s.ni a.src).tids.any (fun e => e.1 == (s.ni a.src).nextTid) = false)
    (hr : s.routerFaulted (s.niAt a.src) = false) : Gives (c.1 (.issue a)) s fun t =>
      let k := queueKey (s.niAt a.src) (niInPort a.src (s.ni a.src).bypass) (opcType c.2) alt
      (∀ j, j ≠ k → t.net.queues.get [] j = s.net.queues.get [] j) ∧
      (∃ p : Packet, t.net.queues.get [] k = s.net.queues.get [] k ++ [p] ∧ p.opc = c.2 ∧ p.src = a.src.val ∧
        p.tid = (s.ni a.src).nextTid ∧ p.addr = a.addr.toNat ∧ p.route = route ∧ p.dport = dport ∧ p.alt = alt ∧
        p.epoch = s.epoch ∧ p.be = a.be.toNat ∧ p.toktgt = a.toktgt.val ∧
        p.data = (List.range (reqWords c.2)).map fun j => a.data.getD j 0#128) ∧
      (t.ni a.src).nextTid = ((s.ni a.src).nextTid + 1) % 4096 ∧
      (t.ni a.src).tids.find? (fun e => e.1 == (s.ni a.src).nextTid) =
        some ((s.ni a.src).nextTid, { opc := c.2, dst := a.dst, why := .unit }) ∧
      t.bankMem = s.bankMem ∧ t.regions = s.regions ∧ t.log = s.log := by
  have hl' : s.lookup a.src (s.unitAsk c.2 a).dst = .ok (alt, route, dport) := hl
  obtain ⟨h, hqueue⟩ := (s.tidTaken a.src (s.ni a.src).nextTid (s.unitAsk c.2 a)).queue_enqueue_same
    (queueKey (s.niAt a.src) (niInPort a.src (s.ni a.src).bypass) (opcType c.2) alt)
    ((s.unitAsk c.2 a).leaves a.src (s.ni a.src).nextTid alt route dport s.epoch)
  have hexec := (exec_issue_asks hc hlive).trans (congrArg _ (State.netRequest_leaves hout hl' ht hfree hr))
  refine ⟨_, hexec, fun j hj => State.queue_enqueue_other _ _ _ hj, ⟨_, hqueue, ?_⟩, ?_, ?_, ?_⟩
  · exact ⟨rfl, rfl, rfl, rfl, rfl, rfl, rfl, rfl, rfl, rfl, rfl⟩
  · rw [State.ni_enqueue, State.ni_tidTaken]
  · rw [State.ni_enqueue, State.ni_tidTaken]
    exact Tbl.find?_set_same ..
  · obtain ⟨hmem, hregions, hlog⟩ := State.enqueue_frame (s.tidTaken a.src (s.ni a.src).nextTid (s.unitAsk c.2 a)) _ _
    exact ⟨hmem, hregions, hlog⟩

end

/-- Settles O43: a unit's request is its interface's, which waits, is answered there, or joins a queue. -/
theorem requestsLeaveWithTidAndRoute : Obligations.RequestsLeaveWithTidAndRoute := by
  intro s c hc a
  exact ⟨exec_issue_stopped hc, fun hlive => ⟨issue_waits hc hlive, fun hout _ => issue_answered_here hc hlive hout,
    fun hout _ _ _ => issue_leaves hc hlive hout⟩⟩

end Sys2Proof.Machine
end

section
/-! PROOFS. Responses, timeouts and drop notices at their source, and ageing (12 R367, R370, R371, R373, R383). -/

namespace Sys2Proof.Machine

/-! ### Responses (R363, R370, R371) -/

section
variable {s : State} {i : Nat} {p : Packet}

theorem State.nextRequest_none (h : (s.ni i).waiting = []) : s.nextRequest i = s := by
  rw [State.nextRequest, h]

/-- The one answer made here goes to its unit first. -/
theorem State.takeResponse_local {a : NetAsk} (h : (s.ni i).locals = [a]) :
    s.takeResponse i (fun _ => true) =
      (s.modNi i fun n => { n with locals := n.locals.erase a }).answered i a.why a.pkt := by
  rw [State.takeResponse, h]; rfl

theorem State.takeResponse_empty (hlocals : (s.ni i).locals = []) (hinbox : (s.ni i).inbox = []) :
    s.takeResponse i (fun _ => true) = s := by
  rw [State.takeResponse, hlocals, hinbox]; rfl

/-- Interface `i` once response `p` is taken and its TID is FREE. -/
def State.tidFreed (s : State) (i : Nat) (p : Packet) : State :=
  (s.taken i p).modNi i fun n => { n with tids := n.tids.del p.tid }

theorem State.ni_tidFreed : (s.tidFreed i p).ni i =
    { s.ni i with inbox := (s.ni i).inbox.erase p, tids := (s.ni i).tids.del p.tid } := by
  rw [State.tidFreed, State.ni_modNi_same, State.ni_taken]

variable (hlocals : (s.ni i).locals = []) (hinbox : (s.ni i).inbox = [p]) (htyp : p.typ = 1) (hopc : p.opc = 0x30)
include hlocals hinbox htyp hopc

theorem State.takeResponse_stray (htid : (s.ni i).tids.find? (fun x => x.1 == p.tid) = none) :
    s.takeResponse i (fun _ => true) = (s.taken i p).bump (niFld NI_CNT_LOCAL_STRAY i) := by
  simp only [State.takeResponse, hlocals, List.find?_nil, hinbox, htyp, BEq.rfl, hopc, Bool.and_self, htid,
    Option.map_none, List.find?_cons_of_pos]
  rfl

variable {e : TidEntry} (htid : (s.ni i).tids.find? (fun x => x.1 == p.tid) = some (p.tid, e))
include htid

theorem State.takeResponse_outstanding : s.takeResponse i (fun _ => true) =
    if e.timedOut then (s.tidFreed i p).bump (niFld NI_CNT_TO_LATERSP i)
    else ((s.tidFreed i p).nextRequest i).answered i e.why p := by
  simp only [State.takeResponse, hlocals, List.find?_nil, hinbox, htyp, BEq.rfl, hopc, Bool.and_self, htid,
    Option.map_some, List.find?_cons_of_pos]
  rfl

end

section
variable {s : State} {i : Fin 80}

theorem exec_resp (s : State) (i : Fin 80) : exec (.resp i) s = .next (s.takeResponse i fun _ => true) := rfl

theorem resp_local_gives {a : NetAsk} (h : (s.ni i).locals = [a]) (hwhy : a.why = .unit) :
    Gives (.resp i) s fun t => (t.ni i).locals = [] ∧ (t.ni i).last = some a.pkt ∧ (t.ni i).tids = (s.ni i).tids ∧
      t.regs = s.regs ∧ t.regions = s.regions := by
  have hexec : exec (.resp i) s = .next ((s.modNi i fun n => { n with locals := n.locals.erase a }).modNi i
      fun n => { n with last := some a.pkt }) := by
    rw [exec_resp, State.takeResponse_local h, hwhy]; rfl
  refine ⟨_, hexec, ?_, ?_, ?_, rfl, rfl⟩
  · rw [State.ni_modNi_same, State.ni_modNi_same, h, List.erase_cons_head]
  · rw [State.ni_modNi_same]
  · rw [State.ni_modNi_same, State.ni_modNi_same]

variable {p : Packet} (hlocals : (s.ni i).locals = []) (hinbox : (s.ni i).inbox = [p]) (htyp : p.typ = 1)
  (hopc : p.opc = 0x30)
include hlocals hinbox htyp hopc

theorem resp_stray_gives (htid : (s.ni i).tids.find? (fun x => x.1 == p.tid) = none) :
    Gives (.resp i) s fun t => (t.ni i).inbox = [] ∧ (t.ni i).tids = (s.ni i).tids ∧ (t.ni i).last = (s.ni i).last ∧
      t.rd (niFld NI_CNT_LOCAL_STRAY i) =
        satAdd (niFld NI_CNT_LOCAL_STRAY i).width (s.rd (niFld NI_CNT_LOCAL_STRAY i)) 1 ∧ t.regions = s.regions := by
  have hexec := (exec_resp s i).trans (congrArg _ (State.takeResponse_stray hlocals hinbox htyp hopc htid))
  have hni : ((s.taken i p).bump (niFld NI_CNT_LOCAL_STRAY i)).ni i = { s.ni i with inbox := (s.ni i).inbox.erase p } :=
    s.ni_taken i p
  refine ⟨_, hexec, ?_, ?_, ?_, (s.taken i p).rd_bump _ 1, rfl⟩
  · rw [hni, hinbox, List.erase_cons_head]
  · rw [hni]
  · rw [hni]

variable {e : TidEntry} (htid : (s.ni i).tids.find? (fun x => x.1 == p.tid) = some (p.tid, e))
include htid

/-- After a timeout the response only frees its TID. -/
theorem resp_late_gives (hlate : e.timedOut = true) : Gives (.resp i) s fun t => (t.ni i).inbox = [] ∧
    (t.ni i).tids.find? (fun x => x.1 == p.tid) = none ∧ (t.ni i).last = (s.ni i).last ∧
      t.rd (niFld NI_CNT_TO_LATERSP i) =
        satAdd (niFld NI_CNT_TO_LATERSP i).width (s.rd (niFld NI_CNT_TO_LATERSP i)) 1 ∧ t.regions = s.regions := by
  have hexec := (exec_resp s i).trans (congrArg _ (State.takeResponse_outstanding hlocals hinbox htyp hopc htid))
  rw [if_pos hlate] at hexec
  have hni : ((s.tidFreed i p).bump (niFld NI_CNT_TO_LATERSP i)).ni i =
      { s.ni i with inbox := (s.ni i).inbox.erase p, tids := (s.ni i).tids.del p.tid } := State.ni_tidFreed
  refine ⟨_, hexec, ?_, ?_, ?_, (s.tidFreed i p).rd_bump _ 1, rfl⟩
  · rw [hni, hinbox, List.erase_cons_head]
  · rw [hni]
    exact Tbl.find?_del_same ..
  · rw [hni]

theorem resp_handed_gives (hdue : e.timedOut = false) (hwhy : e.why = .unit) (hwaiting : (s.ni i).waiting = []) :
    Gives (.resp i) s fun t => (t.ni i).inbox = [] ∧ (t.ni i).tids.find? (fun x => x.1 == p.tid) = none ∧
      (t.ni i).last = some p ∧ t.regions = s.regions ∧ t.regs = s.regs := by
  have hexec : exec (.resp i) s = .next ((s.tidFreed i p).modNi i fun n => { n with last := some p }) := by
    rw [exec_resp, State.takeResponse_outstanding hlocals hinbox htyp hopc htid, hdue, hwhy, State.nextRequest_none]
    · rfl
    · rw [State.ni_tidFreed, hwaiting]
  refine ⟨_, hexec, ?_, ?_, ?_, rfl, rfl⟩
  · rw [State.ni_modNi_same, State.ni_tidFreed, hinbox, List.erase_cons_head]
  · rw [State.ni_modNi_same, State.ni_tidFreed]
    exact Tbl.find?_del_same ..
  · rw [State.ni_modNi_same]

end

/-! ### Drop notices (R373) -/

section
variable {s : State} {i : Fin 80}

theorem exec_drop_none (h : (s.ni i).inbox = []) : exec (.drop i) s = .next s := by
  show execDrop i s = _
  rw [execDrop, h]; rfl

theorem drop_gives {p : Packet} (hinbox : (s.ni i).inbox = [p]) (htyp : p.typ = 1) (hopc : p.opc = 0x31)
    (hkrl : i.val ≠ 76 ∨ p.tid < 256) : Gives (.drop i) s fun t => (t.ni i).inbox = [] ∧
      t.rd (niFld NI_CNT_DROP_RECEIVED i) =
        satAdd (niFld NI_CNT_DROP_RECEIVED i).width (s.rd (niFld NI_CNT_DROP_RECEIVED i)) 1 ∧
      (t.ni i).dropped.get 0 (bitsOf p.addr 10 8) = (s.ni i).dropped.get 0 (bitsOf p.addr 10 8) + 1 ∧
      (i.val < 64 → t.rd (RGN_PORT_STAT_DROP i) = 1) ∧ t.regions = s.regions ∧ t.net.queues = s.net.queues := by
  have hexec : exec (.drop i) s = .next ((s.taken i p).dropArrives i p.addr p.status p.tid) := by
    show execDrop i s = _
    rw [execDrop, hinbox, List.find?_cons_of_pos (by simp [htyp, hopc])]; rfl
  have hnet := State.dropArrives_net (s := s.taken i p) (addr := p.addr) (status := p.status) hkrl
  have hni : ((s.taken i p).dropArrives i p.addr p.status p.tid).ni i =
      { s.ni i with
        inbox := (s.ni i).inbox.erase p
        dropped := (s.ni i).dropped.set (bitsOf p.addr 10 8) ((s.ni i).dropped.get 0 (bitsOf p.addr 10 8) + 1) } := by
    rw [State.ni, hnet, ← State.ni, State.ni_dropStrobed, State.ni_taken]
  refine ⟨_, hexec, ?_, ?_, ?_, fun hi => ?_, State.dropArrives_regions hkrl, ?_⟩
  · rw [hni, hinbox, List.erase_cons_head]
  · rw [State.dropArrives_rd hkrl (niFld_above_log (fun n => by simp only [NI_CNT_DROP_RECEIVED]; omega) i),
      State.rd_dropCounted_received]
    rfl
  · rw [hni, Tbl.get_set_same]
  · rw [State.dropArrives_rd hkrl (by simp only [SYS_LOG_STATUS_LOST, RGN_PORT_STAT_DROP]; omega),
      State.rd_dropCounted_drop hi]
  · rw [hnet, State.queues_dropStrobed]; rfl

end

/-! ### Timeouts (R370, R371) -/

section
variable {s : State} {i : Fin 80} {k : Fin 4096}

theorem exec_requestTimeout_none (h : (s.ni i).tids.find? (fun x => x.1 == k.val && !x.2.timedOut) = none) :
    exec (.requestTimeout i k) s = .next s := by
  show execRequestTimeout i k s = _
  rw [execRequestTimeout, h]

/-- TID `k` of interface `i` once its request has timed out, and is counted. -/
def State.tidLate (s : State) (i k : Nat) (e : TidEntry) : State :=
  (s.bump (niFld NI_CNT_TO_TIMEOUT i)).modNi i fun n => { n with tids := n.tids.set k { e with timedOut := true } }

theorem State.ni_tidLate (i k : Nat) (e : TidEntry) : (s.tidLate i k e).ni i =
    { s.ni i with tids := (s.ni i).tids.set k { e with timedOut := true } } := State.ni_modNi_same ..

theorem State.tidLate_frame (i k : Nat) (e : TidEntry) : (s.tidLate i k e).net.queues = s.net.queues ∧
    (s.tidLate i k e).regions = s.regions := ⟨rfl, rfl⟩

theorem State.rd_tidLate (i k : Nat) (e : TidEntry) : (s.tidLate i k e).rd (niFld NI_CNT_TO_TIMEOUT i) =
    satAdd (niFld NI_CNT_TO_TIMEOUT i).width (s.rd (niFld NI_CNT_TO_TIMEOUT i)) 1 := s.rd_bump _ 1

/-- The same once it is recorded too (R383). -/
def State.tidTimedOut (s : State) (i k : Nat) (e : TidEntry) : State :=
  (s.tidLate i k e).logEvLimited (unitId i 0xF 0xF) 0x0C05 1 7 (niUnit i) (k + e.dst % 128 * 2 ^ 12)

theorem State.tidTimedOut_only (i k : Nat) (e : TidEntry) : LogOnly (s.tidLate i k e) (s.tidTimedOut i k e) :=
  (s.tidLate i k e).logEvLimited_only ..

theorem State.ni_tidTimedOut (i k : Nat) (e : TidEntry) : (s.tidTimedOut i k e).ni i =
    { s.ni i with tids := (s.ni i).tids.set k { e with timedOut := true } } := by
  rw [State.ni, (s.tidTimedOut_only i k e).net]
  exact s.ni_tidLate i k e

theorem requestTimeout_gives {e : TidEntry} (htids : (s.ni i).tids = [(k.val, e)]) (hdue : e.timedOut = false)
    (hwhy : e.why = .unit) (hwaiting : (s.ni i).waiting = []) : Gives (.requestTimeout i k) s fun t =>
      (t.ni i).tids = [(k.val, { e with timedOut := true })] ∧
        (∃ r : Packet, (t.ni i).last = some r ∧ r.status = 7 ∧ r.tid = k.val) ∧
        t.rd (niFld NI_CNT_TO_TIMEOUT i) =
          satAdd (niFld NI_CNT_TO_TIMEOUT i).width (s.rd (niFld NI_CNT_TO_TIMEOUT i)) 1 ∧
        t.net.queues = s.net.queues ∧ t.regions = s.regions := by
  have hexec : exec (.requestTimeout i k) s = .next ((s.tidTimedOut i k e).modNi i fun n => { n with
      last := some { typ := 1, opc := 0x30, status := 7, src := e.dst, tid := k } }) := by
    show execRequestTimeout i k s = _
    rw [execRequestTimeout, htids, List.find?_cons_of_pos (by simp [hdue])]
    have hnext : (s.tidTimedOut i k e).nextRequest i = s.tidTimedOut i k e :=
      State.nextRequest_none (by rw [State.ni_tidTimedOut, hwaiting])
    show Host.Outcome.next (((s.tidTimedOut i k e).nextRequest i).answered i e.why _) = _
    rw [hnext, hwhy]; rfl
  have honly := s.tidTimedOut_only i k e
  obtain ⟨hqueues, hregions⟩ := s.tidLate_frame i k e
  refine ⟨_, hexec, ?_, ⟨_, congrArg Ni.last (State.ni_modNi_same ..), rfl, rfl⟩, ?_,
    (congrArg Net.queues honly.net).trans hqueues, honly.regions.trans hregions⟩
  · rw [State.ni_modNi_same, State.ni_tidTimedOut, htids]
    simp [Tbl.set]
  · refine (State.rd_logEvLimited _ (niFld_above_log (fun n => ?_) i) ..).trans (s.rd_tidLate i k e)
    simp only [NI_CNT_TO_TIMEOUT]; omega

theorem exec_tidRelease_none (h : (s.ni i).tids.any (fun x => x.1 == k.val && x.2.timedOut) = false) :
    exec (.tidRelease i k) s = .next s := by
  show execTidRelease i k s = _
  rw [execTidRelease, h]; rfl

theorem tidRelease_gives (h : (s.ni i).tids.any (fun x => x.1 == k.val && x.2.timedOut) = true)
    (hwaiting : (s.ni i).waiting = []) : Gives (.tidRelease i k) s fun t =>
      (t.ni i).tids.find? (fun x => x.1 == k.val) = none ∧ (t.ni i).last = (s.ni i).last ∧ t.regs = s.regs ∧
        t.regions = s.regions := by
  have hexec : exec (.tidRelease i k) s = .next (s.modNi i fun n => { n with tids := n.tids.del k }) := by
    show execTidRelease i k s = _
    rw [execTidRelease, if_pos h, State.nextRequest_none]
    rw [State.ni_modNi_same, hwaiting]
  refine ⟨_, hexec, ?_, ?_, rfl, rfl⟩
  · rw [State.ni_modNi_same]
    exact Tbl.find?_del_same ..
  · rw [State.ni_modNi_same]

end

/-! ### Ageing (R367) -/

section
variable {s : State} {r : Fin 64} {port : Fin 8} {vc : Fin 4} {cls : Bool}

/-- One queue is replaced. -/
def State.putQueue (s : State) (key : Nat) (q : List Packet) : State :=
  s.modNet fun t => { t with queues := t.queues.put [] key q }

theorem State.queue_putQueue (key k : Nat) (q : List Packet) : (s.putQueue key q).net.queues.get [] k =
    if key = k then q else s.net.queues.get [] k := Tbl.get_put ..

theorem exec_packetAgeStep_none (h : s.net.queues.get [] (queueKey r port vc cls) = []) :
    exec (.packetAgeStep r port vc cls) s = .next s := by
  show execPacketAgeStep r port vc cls s = _
  rw [execPacketAgeStep, h]

theorem packetAgeStep_gives {p : Packet} {l : List Packet} (h : s.net.queues.get [] (queueKey r port vc cls) = p :: l) :
    Gives (.packetAgeStep r port vc cls) s fun t =>
      t.net.queues.get [] (queueKey r port vc cls) = { p with urg := Nat.min 7 (p.urg + 1) } :: l ∧
        (∀ k, k ≠ queueKey r port vc cls → t.net.queues.get [] k = s.net.queues.get [] k) ∧ t.regions = s.regions ∧
        t.regs = s.regs := by
  have hexec : exec (.packetAgeStep r port vc cls) s =
      .next (s.putQueue (queueKey r port vc cls) ({ p with urg := Nat.min 7 (p.urg + 1) } :: l)) := by
    show execPacketAgeStep r port vc cls s = _
    rw [execPacketAgeStep, h]; rfl
  refine ⟨_, hexec, ?_, fun k hk => ?_, rfl, rfl⟩
  · rw [State.queue_putQueue, if_pos rfl]
  · rw [State.queue_putQueue, if_neg hk.symm]

end

/-- Settles O46: each clause is a branch of its command's meaning, and what the branch leaves in the interface. -/
theorem answersTimeoutsAndDropsAtTheSource : Obligations.AnswersTimeoutsAndDropsAtTheSource := by
  intro s i
  refine ⟨?nothing, ?response, fun a => resp_local_gives, fun p => drop_gives, fun k => ⟨exec_requestTimeout_none,
    fun e => requestTimeout_gives, exec_tidRelease_none, tidRelease_gives⟩,
    fun r port vc cls => ⟨exec_packetAgeStep_none, fun p l => packetAgeStep_gives⟩⟩
  case nothing =>
    exact fun hlocals hinbox => ⟨by rw [exec_resp, State.takeResponse_empty hlocals hinbox], exec_drop_none hinbox⟩
  case response =>
    intro p hlocals hinbox htyp hopc
    exact ⟨resp_stray_gives hlocals hinbox htyp hopc, fun e htid =>
      ⟨resp_late_gives hlocals hinbox htyp hopc htid, resp_handed_gives hlocals hinbox htyp hopc htid⟩⟩

end Sys2Proof.Machine
end

section
/-! PROOFS. Time stands in the operations of a power-down: no operation of the regions, the event table, the banks,
Cotillion and the network moves the cycle count, which the timebase alone does (03 R70; 20 R581). -/

namespace Sys2Proof.Machine

section
variable (s : State) (n : Nat)

/-! ### Updates of one unit -/

@[simp] theorem State.raise_cyc (f : Fld) : (s.raise f).cyc = s.cyc := rfl
@[simp] theorem State.bump_cyc (f : Fld) (k : Nat) : (s.bump f k).cyc = s.cyc := rfl
@[simp] theorem State.count_cyc (f : Fld) (k : Nat) : (s.count f k).cyc = s.cyc := rfl
@[simp] theorem State.modRegion_cyc (f : Region → Region) : (s.modRegion n f).cyc = s.cyc := rfl
@[simp] theorem State.modSch_cyc (f : Sched → Sched) : (s.modSch n f).cyc = s.cyc := rfl
@[simp] theorem State.modSlot_cyc (k : Nat) (f : Slot → Slot) : (s.modSlot n k f).cyc = s.cyc := rfl
@[simp] theorem State.modEngAt_cyc (e : Nat) (f : Engine → Engine) : (s.modEngAt n e f).cyc = s.cyc := rfl
@[simp] theorem State.modMem_cyc (f : MemUnit → MemUnit) : (s.modMem n f).cyc = s.cyc := rfl
@[simp] theorem State.modEcc_cyc (f : EccUnit → EccUnit) : (s.modEcc n f).cyc = s.cyc := rfl
@[simp] theorem State.modFab_cyc (f : Fabric → Fabric) : (s.modFab n f).cyc = s.cyc := rfl
@[simp] theorem State.modCtx_cyc (f : CtxUnit → CtxUnit) : (s.modCtx n f).cyc = s.cyc := rfl
@[simp] theorem State.modNi_cyc (f : Ni → Ni) : (s.modNi n f).cyc = s.cyc := rfl
@[simp] theorem State.enqueue_cyc (p : Packet) : (s.enqueue n p).cyc = s.cyc := rfl
@[simp] theorem State.degrade_cyc : s.degrade.cyc = s.cyc := rfl
@[simp] theorem State.setLineAt_cyc (d : Line) (syn : Nat) : (s.setLineAt n d syn).cyc = s.cyc := rfl
@[simp] theorem State.setEntry_cyc (e : BitVec 256) : (s.setEntry n e).cyc = s.cyc := rfl
@[simp] theorem State.dropPend_cyc (o : Occ) : (s.dropPend o).cyc = s.cyc := rfl
@[simp] theorem State.clearEvo_cyc (o : Nat) : (s.clearEvo o).cyc = s.cyc := rfl
@[simp] theorem State.kickRegion_cyc : (s.kickRegion n).cyc = s.cyc := rfl
@[simp] theorem State.takeItem_cyc (e : Nat) : (s.takeItem n e).cyc = s.cyc := rfl
@[simp] theorem State.answerOwner_cyc : (s.answerOwner n).cyc = s.cyc := rfl

@[simp] theorem State.modEng_cyc (g : EngId) (f : Engine → Engine) : (s.modEng g f).cyc = s.cyc := by
  cases g <;> rfl

@[simp] theorem State.modEccOf_cyc (f : EccUnit → EccUnit) : (s.modEccOf n f).cyc = s.cyc := by
  unfold State.modEccOf; split <;> rfl

@[simp] theorem State.journal_cyc (u t a : Nat) : (s.journal u t a).cyc = s.cyc := by
  unfold State.journal; split <;> rfl

@[simp] theorem State.respond_cyc (p : Packet) (st : Nat) (data : List Line) (psn : Nat) :
    (s.respond n p st data psn).cyc = s.cyc := by
  obtain ⟨x, h⟩ := s.respond_net n p st data psn
  rw [h]

theorem State.setPlc_cyc (p : Plc) : ({ s with plc := p } : State).cyc = s.cyc := rfl

/-- The cycle count of a state, as a predicate: of two long terms for a state the kernel then compares the terms and
evaluates neither. -/
def TimeIs (c : Nat) (t : State) : Prop := t.cyc = c

theorem TimeIs.of {c : Nat} {t u : State} (h : u.cyc = t.cyc) (ht : TimeIs c t) : TimeIs c u := h.trans ht

theorem TimeIs.ite {c : Nat} {p : Prop} [Decidable p] {a b : State} (ha : TimeIs c a) (hb : TimeIs c b) :
    TimeIs c (if p then a else b) := by
  split
  · exact ha
  · exact hb

/-- The state that comes with an answer of two parts. -/
theorem cyc_of_triple {α β : Type} {x : α × β × State} {a : α} {b : β} {t : State} {c : Nat} (h : x = (a, b, t))
    (hx : x.2.2.cyc = c) : t.cyc = c := by
  subst h; exact hx

theorem State.foldl_cyc {α : Type} {g : State → α → State} (hg : ∀ t x, (g t x).cyc = t.cyc) (l : List α) :
    (l.foldl g s).cyc = s.cyc := by
  induction l generalizing s with
  | nil => rfl
  | cons x l ih => exact (ih (g s x)).trans (hg s x)

/-! ### Requests of the network, and the trace (12 R370, 10 R314) -/

@[simp] theorem State.dropArrives_cyc (addr status tid : Nat) : (s.dropArrives n addr status tid).cyc = s.cyc := by
  simp [State.dropArrives, State.krlRxDrop, apply_ite State.cyc]

@[simp] theorem State.inject_cyc (p : Packet) : (s.inject n p).cyc = s.cyc := by
  simp [State.inject, apply_ite State.cyc]

@[simp] theorem State.netRequest_cyc (a : NetAsk) : (s.netRequest n a).cyc = s.cyc := by
  unfold State.netRequest
  extract_lets i
  split
  · rfl
  · split
    · rfl
    · split
      · rfl
      · exact State.inject_cyc ..

@[simp] theorem State.streamPump_cyc (flush : Bool) : (s.streamPump flush).cyc = s.cyc := by
  simp [State.streamPump, State.sendLine, apply_ite State.cyc]

@[simp] theorem State.tracePut_cyc (r : Line) : (s.tracePut r).cyc = s.cyc := by
  unfold State.tracePut
  split
  · rfl
  · simp [apply_ite State.cyc]
  · rfl

@[simp] theorem State.traceSlot_cyc (k e u r a : Nat) : (s.traceSlot n k e u r a).cyc = s.cyc := by
  simp [State.traceSlot, apply_ite State.cyc]

@[simp] theorem State.traceItem_cyc (q e r a : Nat) : (s.traceItem n q e r a).cyc = s.cyc := by
  simp [State.traceItem, apply_ite State.cyc]

/-! ### Ownership of banks (07 R192 to R195) -/

@[simp] theorem State.refuseOwn_cyc (b reason : Nat) : (s.refuseOwn n b reason).cyc = s.cyc := by
  simp [State.refuseOwn]

@[simp] theorem State.setSteal_cyc (b v : Nat) : (s.setSteal n b v).cyc = s.cyc := by
  unfold State.setSteal
  extract_lets s1 q s2
  split
  · exact State.foldl_cyc s2 (fun t p => by simp) q
  · rfl

@[simp] theorem State.writeOwn_cyc (plc : Bool) (b v : Nat) : (s.writeOwn plc n b v).cyc = s.cyc := by
  unfold State.writeOwn
  extract_lets owner eng o e change s1 left s2 s3
  have h3 : s3.cyc = s.cyc := by simp [s3, s2, s1, apply_ite State.cyc]
  simp [apply_ite State.cyc, h3]

@[simp] theorem State.placeOwners_cyc : (s.placeOwners n).cyc = s.cyc := by
  unfold State.placeOwners
  extract_lets ready go r plc s1
  split
  · rfl
  · exact State.foldl_cyc s1 (fun t w => by simp) go

/-! ### Items that close (10 R301 to R307, R311) -/

@[simp] theorem State.becomeReady_cyc (k f : Nat) : (s.becomeReady n k f).cyc = s.cyc := by
  simp [State.becomeReady, apply_ite State.cyc]

@[simp] theorem State.token_cyc (k f src : Nat) (t : SlotFlag) : (s.token n k f src t).2.cyc = s.cyc := by
  unfold State.token
  extract_lets d
  split
  · simp [State.tokenRefused]
  · split
    · simp [State.tokenRefused]
    · simp

@[simp] theorem State.postSuccs_cyc (it : OpenItem) (status : Nat) : (s.postSuccs n it status).cyc = s.cyc :=
  s.foldl_cyc (fun t j => by simp [State.postSucc, apply_ite State.cyc]) _

@[simp] theorem State.slotClosed_cyc (k : Nat) : (s.slotClosed n k).cyc = s.cyc := by
  simp [State.slotClosed, apply_ite State.cyc]

@[simp] theorem State.ringPump_cyc (flush : Bool) : (s.ringPump n flush).cyc = s.cyc := by
  simp [State.ringPump, State.sendLine, apply_ite State.cyc]

@[simp] theorem State.enterRecord_cyc (e : Nat) (it : OpenItem) (status cycles : Nat) (quiet : Bool) :
    (s.enterRecord n e it status cycles quiet).cyc = s.cyc := by
  change TimeIs s.cyc _
  unfold State.enterRecord
  extract_lets now margin nodl status' kind id s1 r s2 s3 key plc s4 s5 s6 s7
  have h1 : TimeIs s.cyc s1 := .ite (.of (State.count_cyc ..) (State.raise_cyc ..)) rfl
  have h2 : TimeIs s.cyc s2 := .of (State.modSch_cyc ..) h1
  have h3 : TimeIs s.cyc s3 := .ite (.of (State.kickRegion_cyc ..) h2) h2
  have h4 : TimeIs s.cyc s4 := .ite (.of (State.setPlc_cyc ..) h3) h3
  have h5 : TimeIs s.cyc s5 := by
    unfold s5
    split
    · exact .of (State.traceItem_cyc ..) h4
    · exact .of (State.traceSlot_cyc ..) h4
  have h6 : TimeIs s.cyc s6 := .ite (.of (State.slotClosed_cyc ..) h5) h5
  have h7 : TimeIs s.cyc s7 := .ite (.of (State.postSuccs_cyc ..) h6) h6
  exact .of (State.placeOwners_cyc ..) (.of (State.ringPump_cyc ..) h7)

@[simp] theorem State.closeItem_cyc (e status cycles : Nat) (quiet : Bool) :
    (s.closeItem n e status cycles quiet).cyc = s.cyc := by
  unfold State.closeItem
  split <;> simp

@[simp] theorem State.releaseHeld_cyc (force quiet : Bool) : (s.releaseHeld n force quiet).cyc = s.cyc := by
  unfold State.releaseHeld
  split
  · rfl
  · simp [apply_ite State.cyc]

@[simp] theorem State.schFence_cyc : (s.schFence n).cyc = s.cyc := by
  unfold State.schFence
  extract_lets s1 items k s2
  have h1 : s1.cyc = s.cyc := s.foldl_cyc (fun t _ => by simp) _
  have h2 : s2.cyc = s1.cyc := s1.foldl_cyc (fun t x => by simp) items
  rw [State.modRegion_cyc, h2, h1]

/-! ### Window requests that complete at their banks (07 R200, 08 R243, 13 R395 to R398) -/

@[simp] theorem State.logEscalate_cyc (mem unit word step : Nat) :
    (s.logEscalate n mem unit word step).cyc = s.cyc := by
  simp [State.logEscalate, apply_ite State.cyc]

@[simp] theorem State.startBankCopy_cyc (b reason dst : Nat) : (s.startBankCopy n b reason dst).cyc = s.cyc := by
  simp [State.startBankCopy, apply_ite State.cyc]

@[simp] theorem State.markFailed_cyc (e : Nat) : (s.markFailed n e).cyc = s.cyc := by
  simp [State.markFailed, apply_ite State.cyc]

@[simp] theorem State.escalateBank_cyc (p word k : Nat) : (s.escalateBank n p word k).cyc = s.cyc := by
  unfold State.escalateBank
  extract_lets m row s1
  have h1 : s1.cyc = s.cyc := by simp [s1, apply_ite State.cyc]
  split
  · simp [apply_ite State.cyc, h1]
  · split
    · rfl
    · split
      · rfl
      · split <;> simp

@[simp] theorem State.correction_cyc (mem unit word : Nat) (spare : Bool) (synd : Nat) (patrol : Bool) :
    (s.correction n mem unit word spare synd patrol).cyc = s.cyc := by
  unfold State.correction
  extract_lets s1 s2 wbthr rmthr u s3
  have h2 : s2.cyc = s.cyc := by simp [s2, s1, apply_ite State.cyc]
  have h3 : s3.cyc = s.cyc := h2
  split
  next k e s4 heq =>
    have h4 : s4.cyc = s.cyc := by
      refine cyc_of_triple heq ?_
      split
      · split <;> exact h2
      · simp [apply_ite State.cyc, h2, h3]
    extract_lets s5
    have h5 : s5.cyc = s.cyc := (State.modEccOf_cyc ..).trans h4
    split
    · exact h5
    · split
      extract_lets s6
      have h6 : s6.cyc = s.cyc := by simp [s6, apply_ite State.cyc, h5]
      simp [apply_ite State.cyc, h6]

@[simp] theorem State.uncorrectable_cyc (mem unit word synd : Nat) (patrol : Bool) :
    (s.uncorrectable n mem unit word synd patrol).cyc = s.cyc := by
  simp [State.uncorrectable, apply_ite State.cyc]

@[simp] theorem State.bankRead_cyc (p w : Nat) (patrol : Bool) : (s.bankRead n p w patrol).2.2.2.cyc = s.cyc := by
  simp [State.bankRead, apply_ite State.cyc]

@[simp] theorem State.bankWrite_cyc (p w : Nat) (d : Line) (poison : Bool) :
    (s.bankWrite n p w d poison).cyc = s.cyc := by
  unfold State.bankWrite
  extract_lets i syn
  split
  next d' syn' s1 heq =>
    have h1 : s1.cyc = s.cyc := by
      refine cyc_of_triple heq ?_
      split
      · split <;> rfl
      · rfl
    simp [apply_ite State.cyc, h1]

theorem State.physAccess_cyc (p : Nat) (op : BankOp) (w mask : Nat) (d : Line) (psn : Bool) :
    (s.physAccess n p op w mask d psn).2.cyc = s.cyc := by
  unfold State.physAccess
  split
  · simp
  · split <;> simp
  · split
    · rfl
    · simp [apply_ite State.cyc, apply_ite Prod.snd]

@[simp] theorem State.bankAccess_cyc (b : Nat) (op : BankOp) (w mask : Nat) (d : Line) (psn : Bool) :
    (s.bankAccess n b op w mask d psn).2.cyc = s.cyc := by
  unfold State.bankAccess
  split
  · rfl
  · exact s.physAccess_cyc ..

@[simp] theorem State.engineRequest_cyc (b e : Nat) (op : BankOp) (full : Bool) :
    (s.engineRequest n b e op full).cyc = s.cyc := by
  unfold State.engineRequest
  split
  · rfl
  · split
    · rfl
    · extract_lets put busy mine old
      have hput (t : State) (a : WinRsp) : (put t a).cyc = t.cyc := t.modRegion_cyc n _
      clear_value put busy mine old
      split
      · exact hput ..
      · split
        · simp [hput, apply_ite State.cyc]
        · split
          · rfl
          · simp [hput]

/-! ### What leaves with ACTIVE, and the asked mark (02 R55, 20 R581, 12 R376) -/

@[simp] theorem State.haltEngines_cyc : (s.haltEngines n).cyc = s.cyc := by
  have hwin (t : State) (e : Nat) : (t.finishWindow n e).cyc = t.cyc :=
    t.foldl_cyc (fun u r => by simp [apply_ite State.cyc]) _
  unfold State.haltEngines
  rw [State.foldl_cyc _ (fun t e => t.modEngAt_cyc n e _), State.foldl_cyc _ hwin]

@[simp] theorem State.ctxRefuse_cyc (q : CtxReqst) (reason : Nat) : (s.ctxRefuse n q reason).cyc = s.cyc :=
  (State.ctxRefuse_only ..).cyc

@[simp] theorem State.ctxRefuseAll_cyc : (s.ctxRefuseAll n).cyc = s.cyc := by
  unfold State.ctxRefuseAll
  extract_lets mine onWay c all s1 s2
  exact State.foldl_cyc s2 (fun t q => t.ctxRefuse_cyc n q 4) all

@[simp] theorem State.partOutcome_cyc (part rgn mask path status err : Nat) :
    (s.partOutcome part rgn mask path status err).cyc = s.cyc := by
  simp [State.partOutcome, apply_ite State.cyc]

@[simp] theorem State.wakeDropped_cyc (q : KReq) : (s.wakeDropped q).cyc = s.cyc := by
  unfold State.wakeDropped
  extract_lets mask
  split
  · rfl
  · split
    · split
      · rfl
      · simp [apply_ite State.cyc]
    · split
      · rfl
      · simp

@[simp] theorem State.kettleWithdraw_cyc (wake : Bool) : (s.kettleWithdraw n wake).cyc = s.cyc := by
  unfold State.kettleWithdraw
  extract_lets mine gone s1
  exact s.foldl_cyc (fun t q => by simp) gone

@[simp] theorem State.countClosedEvents_cyc (rgn : Option Nat) : (s.countClosedEvents rgn n).cyc = s.cyc := by
  unfold State.countClosedEvents
  split
  · rfl
  · split <;> rfl

@[simp] theorem State.missPend_cyc (reason : Nat) (o : Occ) : (s.missPend reason o).cyc = s.cyc := by
  simp [State.missPend, State.closeOcc, apply_ite State.cyc]

@[simp] theorem State.missAll_cyc (reason : Nat) (sel : Occ → Bool) : (s.missAll reason sel).cyc = s.cyc :=
  s.foldl_cyc (fun t o => t.missPend_cyc reason o) _

@[simp] theorem State.leaveActive_cyc : (s.leaveActive n).cyc = s.cyc := by
  unfold State.leaveActive
  extract_lets s1 s2 s3 s4 t out
  have h1 : s1.cyc = s.cyc := s.foldl_cyc (fun t o => t.clearEvo_cyc o) _
  rw [State.missAll_cyc, State.kettleWithdraw_cyc, State.modFab_cyc, State.ctxRefuseAll_cyc, h1]

@[simp] theorem State.startFlip_cyc (marking writing : Bool) : (s.startFlip marking writing).cyc = s.cyc := rfl
@[simp] theorem State.writeMark_cyc (v : Bool) : (s.writeMark n v).cyc = s.cyc := s.modNet_cyc _

@[simp] theorem State.requestMark_cyc (v : Bool) : (s.requestMark n v).cyc = s.cyc := by
  simp [State.requestMark, apply_ite State.cyc]

end

end Sys2Proof.Machine
end

section
/-! PROOFS. Wake, power-down, the power envelope, phases (20 R569, R579 to R582; 12 R378): O19. -/

namespace Sys2Proof.Machine

section
variable {s : State} {n : Fin 64}

/-! ### The woken region's memories (R579) -/

/-- A zeroed bank of region `n` reads 0 at each byte (07 R205). -/
theorem State.readByte_zeroRegion (s : State) (n : Nat) {b a i : Nat} (hb : b < 50) (ha : a < 16640) (hi : i < 16) :
    Memory.readByte (s.zeroRegion n).bankMem (((n * 50 + b) * 16640 + a) * 16 + i) = 0#8 := by
  have hkey : (((n * 50 + b) * 16640 + a) * 16 + i) / 16 / 16640 / 50 = n := by omega
  show Tbl.get (s.bankMem.filter fun x => x.1 / 16 / 16640 / 50 != n) 0#8 _ = 0#8
  rw [s.bankMem.get_filter_key 0#8 (fun k => k / 16 / 16640 / 50 != n), hkey, if_neg (by simp)]

/-- What a woken region asks of the loader (R579 step 4). -/
def Waking.request (w : Waking) (n : Nat) : PartReq :=
  { part := w.part, path := if w.path = 4 then 0 else w.path, entry := w.entry, woken := true, region := n
    early := w.path == 4 }

/-- The wake `w` of region `n` ends, the region's memories are zeroed and its partial waits. -/
def State.wakeEnds (s : State) (n : Nat) (w : Waking) : State :=
  ((s.modKet fun k => { k with wakes := k.wakes.erase w }).zeroRegion n).modLdr fun l =>
    { l with waiting := l.waiting ++ [w.request n] }

theorem exec_wakeZeroingDone_of {w : Waking} (h : s.kettle.wakes.find? (fun w => w.region == n.val) = some w) :
    exec (.wakeZeroingDone n) s = .next (s.wakeEnds n w) := by
  show execWakeZeroingDone n s = _
  rw [execWakeZeroingDone, h]; rfl

theorem wakeZeroingDone_gives {w : Waking} {l : List Waking} (h : s.kettle.wakes = w :: l) (hn : w.region = n.val)
    (hpath : w.path ≠ 4) : Gives (.wakeZeroingDone n) s fun t => t.kettle.wakes = l ∧ t.ldr.waiting = s.ldr.waiting ++
      [{ part := w.part, path := w.path, entry := w.entry, woken := true, region := n, early := false }] ∧
      ∀ b a i : Nat, b < 50 → a < 16640 → i < 16 →
        Memory.readByte t.bankMem (((n.val * 50 + b) * 16640 + a) * 16 + i) = 0#8 := by
  refine ⟨_, exec_wakeZeroingDone_of (w := w) (by simp [h, hn]), ?_, ?_, fun b a i hb ha hi => ?_⟩
  · show s.kettle.wakes.erase w = l
    rw [h, List.erase_cons_head]
  · show s.ldr.waiting ++ [w.request n] = _
    simp [Waking.request, hpath]
  · exact State.readByte_zeroRegion _ n hb ha hi

theorem exec_wakeZeroingDone_none (h : s.kettle.wakes = []) : exec (.wakeZeroingDone n) s = .next s := by
  show execWakeZeroingDone n s = _
  rw [execWakeZeroingDone, h]; rfl

theorem exec_earlyWakeCheck_idle (h : s.evt.running = false ∨ s.tb.running = false ∨ s.tb.cold = true) :
    exec .earlyWakeCheck s = .next s := by
  show execEarlyWakeCheck s = _
  rw [execEarlyWakeCheck, if_pos]
  rcases h with h | h | h <;> simp [h]

/-! ### Power-down (R581, R378) -/

/-- Step 1 of a flip copies tables only. -/
theorem State.drain_startFlip (s : State) (marking writing : Bool) (i : Nat) :
    ((s.startFlip marking writing).ni i).drain = (s.ni i).drain := by
  have hni : (s.startFlip marking writing).ni i = (s.ni i).copyBank (b2n s.epoch) :=
    Tbl.get_map s.net.nis (f := fun x => x.copyBank (b2n s.epoch)) (by cases s.epoch <;> rfl) i
  rw [hni]; rfl

/-- A table rewritten at each index of a list by a function that keeps each drain. -/
theorem drain_foldl_set {g : Ni → Ni} (hg : ∀ x, (g x).drain = x.drain) (l : List Nat) (t : Tbl Ni) (i : Nat) :
    (Tbl.get (l.foldl (fun (m : Tbl Ni) j => m.set j (g (m.get {} j))) t) {} i).drain = (t.get {} i).drain := by
  induction l generalizing t with
  | nil => rfl
  | cons j l ih =>
    rw [List.foldl_cons, ih, Tbl.get_set]
    split
    next h => rw [hg, h]
    next => rfl

/-- The mark of destination selector `k` is set or cleared. -/
def Ni.marked (x : Ni) (k : Nat) (v : Bool) : Ni :=
  let old := x.sel.get 0 k
  { x with sel := x.sel.put 0 k (if v then setBit old 1 else clearBit old 1) }

/-- A change of the network's other parts leaves the interfaces alone. -/
theorem State.ni_modNet (s : State) {f : Net → Net} (hf : (f s.net).nis = s.net.nis) (i : Nat) : (s.modNet f).ni i = s.ni i :=
  congrArg (fun t : Tbl Ni => t.get {} i) hf

theorem State.drain_writeMark (s : State) (n : Nat) (v : Bool) (i : Nat) :
    ((s.writeMark n v).ni i).drain = (s.ni i).drain := by
  unfold State.writeMark
  extract_lets e
  generalize List.range 80 = l
  exact drain_foldl_set (g := fun x => x.marked (e * 128 + n) v) (fun x => rfl) l s.net.nis i

theorem State.drain_requestMark (s : State) (n : Nat) (v : Bool) (i : Nat) :
    ((s.requestMark n v).ni i).drain = (s.ni i).drain := by
  unfold State.requestMark
  extract_lets s1 s2
  have h1 : (s1.ni i).drain = (s.ni i).drain := by
    unfold s1
    split
    · rfl
    · exact s.drain_startFlip ..
  have h2 : (s2.ni i).drain = (s.ni i).drain := (s1.drain_writeMark n v i).trans h1
  clear_value s2
  exact (congrArg Ni.drain (s2.ni_modNet rfl i)).trans h2

/-- The region's work ends (R581 steps 2 to 4). -/
def State.workEnds (s : State) (n : Nat) : State :=
  let s := s.schFence n
  let k := ((s.sch n).wqs.map fun q => q.2.length).sum
  let s := if k = 0 then s else s.logEvLimited (unitRegion n) 0x0A07 1 0 (unitRegion n) k
  let s := s.modSch n fun c => { c with wqs := [] }
  (s.haltEngines n).leaveActive n

theorem State.workEnds_cyc (s : State) (n : Nat) : (s.workEnds n).cyc = s.cyc := by
  unfold State.workEnds
  extract_lets s1 k s2 s3
  have h2 : s2.cyc = s1.cyc := by simp [s2, apply_ite State.cyc]
  rw [State.leaveActive_cyc, State.haltEngines_cyc, State.modSch_cyc, h2, State.schFence_cyc]

/-- NI `n` begins to drain and the region's mark is asked. -/
def State.drainBegins (s : State) (n : Nat) : State :=
  (s.modNi n fun i => { i with drain := true, drainAt := s.cyc }).requestMark n true

theorem powerDownWaitEnd_gives (hdown : s.flag (PWR_RGN_DOWN n) = true) (hactive : (s.region n).state = .active)
    (hdrain : (s.ni n).drain = false) :
    Gives (.powerDownWaitEnd n) s fun t => (t.ni n).drain = true ∧ t.cyc = s.cyc := by
  have hexec : exec (.powerDownWaitEnd n) s = .next ((s.workEnds n).drainBegins n) := by
    show execPowerDownWaitEnd n s = _
    rw [execPowerDownWaitEnd, if_neg (by simp [hdown, hactive, hdrain])]; rfl
  refine ⟨_, hexec, ?_, ?_⟩
  · rw [State.drainBegins, State.drain_requestMark, State.ni_modNi_same]
  · rw [State.drainBegins, State.requestMark_cyc, State.modNi_cyc, State.workEnds_cyc]

theorem exec_powerDownWaitEnd_up (hdown : s.flag (PWR_RGN_DOWN n) = false) :
    exec (.powerDownWaitEnd n) s = .next s := by
  show execPowerDownWaitEnd n s = _
  rw [execPowerDownWaitEnd, if_pos (by simp [hdown])]

/-- DOWN and the region's two rails read 0, and its NI no longer drains (R378 step 5). -/
def State.railsOff (s : State) (n : Nat) : State :=
  (((s.wr (PWR_RGN_DOWN n) 0).wr (PWR_RAIL_MV n) 0).wr (PWR_RAIL_MV (64 + n)) 0).modNi n fun i => { i with drain := false }

theorem State.railsOff_reads (s : State) (n : Nat) : ((s.railsOff n).ni n).drain = false ∧
    (s.railsOff n).rd (PWR_RGN_DOWN n) = 0 ∧ (s.railsOff n).rd (PWR_RAIL_MV n) = 0 ∧
    (s.railsOff n).rd (PWR_RAIL_MV (64 + n)) = 0 := by
  have hrails : (PWR_RAIL_MV (64 + n)).key ≠ (PWR_RAIL_MV n).key := by
    simp only [Fld.key, PWR_RAIL_MV]; omega
  have hdown (r : Nat) : (PWR_RAIL_MV r).key ≠ (PWR_RGN_DOWN n).key := by
    simp only [Fld.key, PWR_RAIL_MV, PWR_RGN_DOWN]; omega
  have hrd (f : Fld) : (s.railsOff n).rd f =
      (((s.wr (PWR_RGN_DOWN n) 0).wr (PWR_RAIL_MV n) 0).wr (PWR_RAIL_MV (64 + n)) 0).rd f := rfl
  refine ⟨by rw [State.railsOff, State.ni_modNi_same], ?_, ?_, ?_⟩
  · rw [hrd, State.rd_wr_other _ _ _ _ (hdown _), State.rd_wr_other _ _ _ _ (hdown _), State.rd_wr_same, Nat.zero_mod]
  · rw [hrd, State.rd_wr_other _ _ _ _ hrails, State.rd_wr_same, Nat.zero_mod]
  · rw [hrd, State.rd_wr_same, Nat.zero_mod]

theorem drainComplete_gives (h : s.drained n = true) : Gives (.drainComplete n) s fun t => (t.ni n).drain = false ∧
    t.rd (PWR_RGN_DOWN n) = 0 ∧ t.rd (PWR_RAIL_MV n) = 0 ∧ t.rd (PWR_RAIL_MV (64 + n.val)) = 0 := by
  have hexec : exec (.drainComplete n) s = .next (((s.logEv 0x0C07 0 0 (unitId n 4 0)
      (n.val + min ((s.cyc - (s.ni n).drainAt) / 64) 65535 * 2 ^ 16)).toDark n).railsOff n) := by
    show execDrainComplete n s = _
    rw [execDrainComplete, if_neg (by simp [h])]; rfl
  exact ⟨_, hexec, State.railsOff_reads _ n⟩

theorem exec_drainComplete_busy (h : s.drained n = false) : exec (.drainComplete n) s = .next s := by
  show execDrainComplete n s = _
  rw [execDrainComplete, if_pos (by simp [h])]

/-! ### The power envelope (R582) -/

/-- The four readings of a measurement. -/
def State.powerRead (s : State) (v i p k : Nat) : State :=
  (((s.wr PWR_VIN_VIN v).wr PWR_VIN_IIN i).wr PWR_POWER_INPUT p).wr PWR_POWER_STACK k

theorem State.rd_powerRead (s : State) (v i p k : BitVec 16) : let t := s.powerRead v.toNat i.toNat p.toNat k.toNat
    t.rd PWR_VIN_VIN = v.toNat ∧ t.rd PWR_VIN_IIN = i.toNat ∧ t.rd PWR_POWER_INPUT = p.toNat ∧
      t.rd PWR_POWER_STACK = k.toNat := by
  have hcut (x : BitVec 16) : x.toNat % 2 ^ 16 = x.toNat := Nat.mod_eq_of_lt x.isLt
  refine ⟨?_, ?_, ?_, ?_⟩
  · exact (State.rd_wr_other _ _ _ _ (by decide)).trans <| (State.rd_wr_other _ _ _ _ (by decide)).trans <|
      (State.rd_wr_other _ _ _ _ (by decide)).trans <| (State.rd_wr_same ..).trans (hcut v)
  · exact (State.rd_wr_other _ _ _ _ (by decide)).trans <| (State.rd_wr_other _ _ _ _ (by decide)).trans <|
      (State.rd_wr_same ..).trans (hcut i)
  · exact (State.rd_wr_other _ _ _ _ (by decide)).trans <| (State.rd_wr_same ..).trans (hcut p)
  · exact (State.rd_wr_same ..).trans (hcut k)

/-- The limits are judged against PWR_PCAP, which a measurement does not write. -/
theorem State.rd_powerRead_other (s : State) (v i p k : Nat) {f : Fld} (hlo : f.lo < 32) (h : PWR_POWER_STACK.addr < f.addr) :
    (s.powerRead v i p k).rd f = s.rd f := by
  have hkey {g : Fld} (hg : g.addr ≤ PWR_POWER_STACK.addr ∧ g.lo < 32) : g.key ≠ f.key :=
    Fld.key_ne_of_addr hg.2 hlo (by omega)
  rw [State.powerRead, State.rd_wr_other _ _ _ _ (hkey (by decide)), State.rd_wr_other _ _ _ _ (hkey (by decide)),
    State.rd_wr_other _ _ _ _ (hkey (by decide)), State.rd_wr_other _ _ _ _ (hkey (by decide))]

/-- Both limits are judged (R582). -/
def State.powerJudged (s : State) (p k : Nat) : State :=
  s.modKet fun x => { x with
    reached := decide (s.rd PWR_PCAP_INCAP * 10 ≤ p) || decide (s.rd PWR_PCAP_STACKCAP * 10 ≤ k)
    below := decide (p * 100 < s.rd PWR_PCAP_INCAP * 10 * 95) && decide (k * 100 < s.rd PWR_PCAP_STACKCAP * 10 * 95) }

theorem State.powerJudged_reached (s : State) (p k : Nat) : (s.powerJudged p k).kettle.reached = true ↔
    s.rd PWR_PCAP_INCAP * 10 ≤ p ∨ s.rd PWR_PCAP_STACKCAP * 10 ≤ k := by
  simp [State.powerJudged, State.modKet]

theorem powerMeasure_gives (v i p k : BitVec 16) (h : s.stackOn = true) : Gives (.powerMeasure v i p k) s fun t =>
    t.rd PWR_VIN_VIN = v.toNat ∧ t.rd PWR_VIN_IIN = i.toNat ∧ t.rd PWR_POWER_INPUT = p.toNat ∧
      t.rd PWR_POWER_STACK = k.toNat ∧
      (t.kettle.reached = true ↔ s.rd PWR_PCAP_INCAP * 10 ≤ p.toNat ∨ s.rd PWR_PCAP_STACKCAP * 10 ≤ k.toNat) := by
  obtain ⟨hvin, hiin, hinput, hstack⟩ := s.rd_powerRead v i p k
  have hexec : exec (.powerMeasure v i p k) s =
      .next ((s.powerRead v.toNat i.toNat p.toNat k.toNat).powerJudged p.toNat k.toNat) := by
    show execPowerMeasure v i p k s = _
    rw [execPowerMeasure, if_neg (by simp [h])]; rfl
  refine ⟨_, hexec, hvin, hiin, hinput, hstack, ?_⟩
  rw [State.powerJudged_reached, State.rd_powerRead_other _ _ _ _ _ (by decide) (by decide),
    State.rd_powerRead_other _ _ _ _ _ (by decide) (by decide)]

/-- PK at the next 1 ms boundary. -/
def Kettle.pkNext (k : Kettle) : Nat :=
  if k.reached then min 6 (k.pk + 1) else if k.below then k.pk - 1 else k.pk

theorem powerThrottleStep_gives (h : s.kettleRuns = true) : Gives .powerThrottleStep s fun t =>
    t.kettle.pk = s.kettle.pkNext ∧ (t.rd PWR_STATUS_PCAP = 1 ↔ t.kettle.pk ≠ 0) := by
  have hexec : exec .powerThrottleStep s = .next ((s.modKet fun k => { k with pk := s.kettle.pkNext }).wr
      PWR_STATUS_PCAP (b2n (s.kettle.pkNext != 0))) := by
    show execPowerThrottleStep s = _
    rw [execPowerThrottleStep, if_neg (by simp [h])]; rfl
  refine ⟨_, hexec, rfl, ?_⟩
  show _ ↔ s.kettle.pkNext ≠ 0
  rw [State.rd_wr_same]
  cases hpk : s.kettle.pkNext != 0
  · simpa [b2n] using hpk
  · simpa [b2n, Fld.width, PWR_STATUS_PCAP] using hpk

theorem exec_currentLimit_on (i : BitVec 16) (h : s.stackOn = true) : exec (.currentLimit i) s =
    .next (((({ s with kettle := { s.kettle with pk := 6 } } : State).wr PWR_STATUS_PCAP 1).raise
      PWR_STATUS_ILIMIT).logEv 0x1404 1 0 unitPwr i.toNat) := by
  show execCurrentLimit i s = _
  rw [execCurrentLimit, if_neg (by simp [h])]; rfl

end

/-! ### Phases (R569) -/

section
variable {s : State} {r : Fin 137} {p : Fin 16} {k : Fin 4}

theorem exec_phaseFailure_on (hp : p.val < phasesBuilt r) (hk : k.val ≠ 0) (h : s.stackOn = true) :
    exec (.phaseFailure r p k) s = .next (s.phaseFails r p k) := by
  show execPhaseFailure r p k s = _
  rw [execPhaseFailure, if_neg (by omega), if_neg (by simp [h])]

/-- A phase shed before is not shed again. -/
theorem exec_phaseFailure_shed (hp : p.val < phasesBuilt r) (hk : k.val ≠ 0) (h : s.stackOn = true)
    (hshed : s.kettle.shed.contains (r.val * 16 + p.val) = true) : exec (.phaseFailure r p k) s = .next s := by
  rw [exec_phaseFailure_on hp hk h, State.phaseFails, if_pos hshed]

theorem exec_phaseFailure_illFormed (h : phasesBuilt r ≤ p.val ∨ k.val = 0) :
    exec (.phaseFailure r p k) s = .refused (.illFormed "PHASE_FAILURE") := by
  show execPhaseFailure r p k s = _
  rw [execPhaseFailure, if_pos h]

/-- With one phase shed a rail keeps all but one. -/
theorem State.phasesLeft_one {x : Nat} (h : s.kettle.shed = [x]) (hx : x / 16 = r) :
    s.phasesLeft r = phasesBuilt r - 1 := by
  simp [State.phasesLeft, h, hx]

/-- A failed phase is shed, flagged, logged and journaled. -/
def State.phaseShed (s : State) (r p reason cls : Nat) : State :=
  let s := s.modKet fun k => { k with shed := k.shed ++ [r * 16 + p] }
  ((s.raise PWR_STATUS_PHASE).logEv 0x1401 cls 0 (unitId 0 0xB (r * 16 + p)) (reason + s.phasesLeft r * 2 ^ 2)).journal
    (unitId 0 0xB (r * 16 + p)) 2 0

/-- The first phase of all is no rail's third. -/
theorem State.phaseFails_first (hshed : s.kettle.shed = []) (reason : Nat) :
    s.phaseFails r p reason = s.phaseShed r p reason 1 := by
  have hone : (s.modKet fun k => { k with shed := k.shed ++ [r.val * 16 + p.val] }).kettle.shed = [r.val * 16 + p.val] := by
    show s.kettle.shed ++ [_] = _
    rw [hshed, List.nil_append]
  have hleft := State.phasesLeft_one (r := r) hone (by omega)
  have hthird : ¬ phasesBuilt r - 1 + 3 ≤ phasesBuilt r := by omega
  rw [State.phaseFails, if_neg (by simp [hshed]), State.phaseShed]
  simp only [hleft, hthird, decide_false, Bool.false_eq_true, if_false]

theorem State.journal_kettle (s : State) (u t a : Nat) : (s.journal u t a).kettle = s.kettle := by
  unfold State.journal; split <;> rfl

theorem State.journal_chip (s : State) (u t a : Nat) : (s.journal u t a).chip = s.chip := by
  unfold State.journal; split <;> rfl

theorem State.phaseShed_reads (s : State) (r p reason cls : Nat) :
    (s.phaseShed r p reason cls).kettle.shed = s.kettle.shed ++ [r * 16 + p] ∧
      (s.phaseShed r p reason cls).chip = s.chip ∧ (s.phaseShed r p reason cls).rd PWR_STATUS_PHASE = 1 := by
  refine ⟨?_, ?_, ?_⟩
  · rw [State.phaseShed, State.journal_kettle, State.logEv_kettle]; rfl
  · rw [State.phaseShed, State.journal_chip, State.logEv_chip]; rfl
  · rw [State.phaseShed, (State.journal_frame ..).2.2 _ (by decide), State.rd_logEv _ (by decide),
      State.rd_raise _ _ (by decide)]

theorem phaseFailure_first_gives (hp : p.val < phasesBuilt r) (hk : k.val ≠ 0) (h : s.stackOn = true)
    (hshed : s.kettle.shed = []) : Gives (.phaseFailure r p k) s fun t => t.kettle.shed = [r.val * 16 + p.val] ∧
      t.chip.state = s.chip.state ∧ t.rd PWR_STATUS_PHASE = 1 := by
  obtain ⟨hlist, hchip, hflag⟩ := s.phaseShed_reads r p k 1
  refine ⟨_, (exec_phaseFailure_on hp hk h).trans (by rw [State.phaseFails_first hshed]), ?_, ?_, hflag⟩
  · rw [hlist, hshed, List.nil_append]
  · rw [hchip]

end

/-- Settles O19: each clause is a branch of its command's meaning, and what the branch writes last or leaves alone; that
time stands through a power-down is the frame of every operation that ends the region's work. -/
theorem wakePowerDownAndEnvelope : Obligations.WakePowerDownAndEnvelope := by
  intro s
  exact ⟨fun n w l => wakeZeroingDone_gives, fun n => exec_wakeZeroingDone_none, exec_earlyWakeCheck_idle,
    fun n => powerDownWaitEnd_gives, fun n => exec_powerDownWaitEnd_up, fun n => drainComplete_gives,
    fun n => exec_drainComplete_busy, powerMeasure_gives, powerThrottleStep_gives, exec_currentLimit_on,
    fun r p k => exec_phaseFailure_shed, fun r p k => phaseFailure_first_gives,
    fun r p k => exec_phaseFailure_illFormed⟩

end Sys2Proof.Machine
end
